-- ==== Sys2Proof/Word.lean ====
section
/-!
DEFINITION. Word.lean: the word types of the block and their plainest arithmetic. Registers, packet words and signal
values are 32 bits wide (R7, R15, R29); memories are addressed by byte.
-/
namespace Sys2Proof

/-- A 32-bit word: a register, a packet word, a signal value (R7, R15, R29). -/
abbrev Word := BitVec 32

/-- One byte of an addressed memory. -/
abbrev Byte := BitVec 8

/-- The word whose value is `n` modulo 2^32. -/
def W (n : Nat) : Word := BitVec.ofNat 32 n

end Sys2Proof
end

