-- ==== Sys2Proof/Machine/Bits.lean ====
section
/-!
DEFINITION. Machine/Bits.lean: bit fields, sign extension, saturation and integer roots, the number helpers that every
family uses. "Truncate" is always toward minus infinity (R12).
-/
namespace Sys2Proof.Machine

/-- Bits [lo + w - 1 : lo] of `x`. -/
def bits (x lo w : Nat) : Nat := x / 2 ^ lo % 2 ^ w

/-- Bit `i` of `x`. -/
def bitOf (x i : Nat) : Bool := bits x i 1 == 1

/-- `x` with its bits [lo + w - 1 : lo] replaced by `v`. -/
def putBits (x lo w v : Nat) : Nat :=
  x % 2 ^ lo + (v % 2 ^ w) * 2 ^ lo + x / 2 ^ (lo + w) * 2 ^ (lo + w)

/-- A Bool as one bit. -/
def b2n (b : Bool) : Nat := if b then 1 else 0

/-- `x` with bit `i` set to `b`. -/
def setBit (x i : Nat) (b : Bool) : Nat := putBits x i 1 (b2n b)

/-- The signed value of the low `w` bits of `x` (two's complement, R12). -/
def sx (w x : Nat) : Int :=
  if x % 2 ^ w < 2 ^ (w - 1) then (x % 2 ^ w : Nat) else ((x % 2 ^ w : Nat) : Int) - ((2 ^ w : Nat) : Int)

/-- The `w`-bit two's complement pattern of `z`. -/
def un (w : Nat) (z : Int) : Nat := (z % ((2 ^ w : Nat) : Int)).toNat

/-- `z` saturated to a signed number of `w` bits. -/
def satS (w : Nat) (z : Int) : Int :=
  max (-((2 ^ (w - 1) : Nat) : Int)) (min z (((2 ^ (w - 1) : Nat) : Int) - 1))

/-- `n` saturated to an unsigned number of `w` bits. -/
def satU (w n : Nat) : Nat := min n (2 ^ w - 1)

/-- `z / 2^k` truncated toward minus infinity (R12). -/
def ashr (z : Int) (k : Nat) : Int := z / ((2 ^ k : Nat) : Int)

/-- `z * 2^k`. -/
def ashl (z : Int) (k : Nat) : Int := z * ((2 ^ k : Nat) : Int)

/-- `z` clamped to `lo … hi`. -/
def clampI (lo hi z : Int) : Int := max lo (min hi z)

/-- The low 32 bits of a 64-bit value. -/
def loW (x : Nat) : Nat := x % 2 ^ 32

/-- Bits [63:32] of a 64-bit value. -/
def hiW (x : Nat) : Nat := x / 2 ^ 32 % 2 ^ 32

/-- A 64-bit value from its low and high words (R10: low word first). -/
def pair64 (lo hi : Nat) : Nat := lo % 2 ^ 32 + hi % 2 ^ 32 * 2 ^ 32

/-- One bit of the integer root: the digit recurrence behind `isqrt`. -/
def isqrtGo : Nat → Nat → Nat → Nat
  | 0, _, r => r
  | k + 1, n, r =>
    let r' := r + 2 ^ k
    isqrtGo k n (if r' * r' ≤ n then r' else r)

/-- The integer square root: the largest `r` with `r * r ≤ n`. -/
def isqrt (n : Nat) : Nat := isqrtGo (Nat.log2 n / 2 + 1) n 0

/-- Quotient rounded up. -/
def cdiv (a b : Nat) : Nat := (a + b - 1) / b

/-- The sum of a list of integers. -/
def sumI (l : List Int) : Int := l.foldl (· + ·) 0

/-- The number of one bits among the low `w` bits of `x`. -/
def popcount (w x : Nat) : Nat := (List.range w).foldl (fun n i => n + b2n (bitOf x i)) 0

/-- The indices of the one bits among the low `w` bits of `x`, rising. -/
def onesOf (w x : Nat) : List Nat := (List.range w).filter (bitOf x)

/-- Insert into a list kept in rising order of a key. -/
def insertBy {α : Type} (key : α → Nat) (x : α) : List α → List α
  | [] => [x]
  | y :: r => if key x < key y then x :: y :: r else y :: insertBy key x r

/-- The list in rising order of a key; equal keys keep their order. -/
def sortBy {α : Type} (key : α → Nat) (l : List α) : List α := l.foldl (fun acc x => insertBy key x acc) []

/-- A sparse table: index and entry, indices strictly rising. -/
abbrev Tab (α : Type) := List (Nat × α)

/-- Entry `i` of a sparse table, or the default. -/
def Tab.look {α : Type} (dflt : α) (i : Nat) : Tab α → α
  | [] => dflt
  | (j, x) :: r => if i = j then x else Tab.look dflt i r

/-- The table with entry `i` set to `x`. -/
def Tab.put {α : Type} (i : Nat) (x : α) : Tab α → Tab α
  | [] => [(i, x)]
  | (j, y) :: r => if i < j then (i, x) :: (j, y) :: r else if i = j then (i, x) :: r else (j, y) :: Tab.put i x r

/-- The table without entry `i`. -/
def Tab.del {α : Type} (i : Nat) (t : Tab α) : Tab α := t.filter (fun e => e.1 != i)

end Sys2Proof.Machine
end

