-- ==== Sys2Proof/Machine/Types.lean ====
section
/-!
DEFINITION. Machine/Types.lean: the records that the block keeps and exchanges, as plain data: host paths and packets,
frames, records of the tack link, and the state of every engine. Machine/State.lean puts them together.
-/
namespace Sys2Proof

/-- The three grades of R1 and R2. -/
inductive Grade where
  | fx8_128
  | fx8_064
  | fx8_032
deriving DecidableEq, Repr

/-- The path of a host register access (R517). For SPI, `asked` says that the transaction used 0x12 or 0x1B. -/
inductive Path where
  | pf0
  | pf1
  | spi (asked : Bool)
deriving DecidableEq, Repr

/-- Where a command packet came from (R517, R535): a command queue of PF1, PF0 or the SPI target, a CMD envelope of a
producer (with its PRIV bit and sequence number), or a Hackney command port. -/
inductive Origin where
  | pf1 (q : Fin 4)
  | pf0 (q : Fin 4)
  | spi (q : Fin 4) (asked : Bool)
  | backbone (producer : Nat) (seq : Word) (priv : Bool)
  | hackney (core : Fin 16)
deriving DecidableEq, Repr

/-- A command packet that Farrier has taken (R530): its source, the flag bits, the tag and the parameter words. -/
structure Packet where
  origin : Origin
  rsv : Nat := 0
  barrier : Bool := false
  quietOk : Bool := false
  tag : Word
  params : List Word := []
deriving DecidableEq, Repr

/-- How a stored queue word reads back (R527): good, corrected, or uncorrectable. -/
inductive EccMark where
  | good
  | corr
  | uncorr
deriving DecidableEq, Repr

/-- A PTP message as the receiver or sender sees it (R95, R96): the header fields and the body fields of its type. Times
are in ns, the correction in 2^-16 ns, intervals as log2 seconds. -/
structure PtpMsg where
  version : Nat := 2
  domain : Nat := 0
  twoStep : Bool := false
  unicast : Bool := false
  corr : Int := 0
  srcId : Nat := 0
  srcPort : Nat := 0
  seq : Nat := 0
  logInterval : Int := 0
  tlvs : Nat := 0
  /-- messageType of R95. -/
  kind : Nat := 0
  /-- originTimestamp, requestReceiptTimestamp or responseOriginTimestamp, ns. -/
  ts : Nat := 0
  reqId : Nat := 0
  reqPort : Nat := 0
  priority1 : Nat := 0
  clockClass : Nat := 0
  accuracy : Nat := 0
  variance : Nat := 0
  priority2 : Nat := 0
  gmId : Nat := 0
  steps : Nat := 0
deriving DecidableEq, Repr

/-- A request area of a trace frame (R321). -/
structure AcycReq where
  target : Nat
  valid : Bool
  seq : Nat
  op : Nat
  addr : Nat
  d0 : Nat
  d1 : Nat
deriving DecidableEq, Repr

/-- A response area of a trace frame (R321). -/
structure AcycRsp where
  node : Nat
  valid : Bool
  seq : Nat
  status : Nat
  count : Nat
  d0 : Nat
  d1 : Nat
deriving DecidableEq, Repr

/-- A slot of a trace frame (R312): its header and its data words, out words first. -/
structure FrameSlot where
  node : Nat
  outFilled : Bool
  slot : Nat
  filled : Bool := false
  commit : Bool := false
  wdraw : Bool := false
  tally : Nat := 0
  words : List Nat
deriving DecidableEq, Repr

/-- A trace frame (R309, R310). -/
structure TraceFrame where
  version : Nat := 1
  ring : Nat
  /-- Sent by the partner to close the ring (ORIGIN). -/
  origin : Bool := false
  returning : Bool := false
  turnPos : Nat := 0
  epochLo : Nat
  /-- Domain time of the SFD at the sender, ns × 2^16. -/
  tSend : Nat
  lead : Nat
  k : Nat
  hop : Nat := 0
  req : AcycReq
  rsp : AcycRsp
  slots : List FrameSlot
  /-- The FCS is correct. -/
  fcsOk : Bool := true
deriving DecidableEq, Repr

/-- A ring record of the tack link (R324, R334): the turn time of a frame in ns, the out data of a ring, or the returned
frame of the partner with the instant after the boundary, in ns, at which it is complete at the REIN holder. -/
inductive TackRec where
  | turn (ns : Nat)
  | outData (slots : List FrameSlot)
  | inData (f : TraceFrame) (ready : Nat)
deriving DecidableEq, Repr

/-- A health record of the tack link (R495). -/
structure Health where
  state : Nat
  ready : Bool
  lastEpoch : Nat
  snapEpoch : Nat
  selftest : Nat
  bridle : Nat
  demand : Nat
  tj : Int
  cause : Nat
deriving DecidableEq, Repr

/-- A Hackney core that issues an instruction, and how the memory words it meets read back (R403): the fetched word, and the
data memory words that it loads. -/
structure HkIssue where
  core : Fin 16
  fetch : EccMark := .good
  data : EccMark := .good
deriving DecidableEq, Repr

/-- A safe PDU of R353: DATA as words, least significant byte first. -/
structure SafePdu where
  connId : Nat
  seq : Nat
  flags : Nat := 0
  /-- LEN, bytes. -/
  len : Nat
  ts : Nat
  data : List Word
  crc : Nat
deriving DecidableEq, Repr

/-- An envelope of R544. -/
structure Envelope where
  dest : Nat
  origin : Nat
  isReply : Bool
  priv : Bool
  seq : Nat
  words : List Word
deriving DecidableEq, Repr

/-- The fields of a JOIN frame (R363), the byte strings as numbers. -/
structure JoinRec where
  fprint : Nat
  cfgHash : Nat
  dt : Nat
  index : Nat
  sig : Nat := 0
deriving DecidableEq, Repr

/-- A Tilbor frame (R340, R341) with the content of its type: values, safe PDUs, envelopes or the JOIN fields. -/
structure TlbFrame where
  version : Nat := 1
  /-- TYPE: 0 DATA, 1 SAFE, 2 CMD, 3 JOIN. -/
  type : Nat
  net : Nat := 0
  null : Bool := false
  held : Bool := false
  src : Nat
  hops : Nat := 0
  frag : Nat := 0
  nfrag : Nat := 1
  k : Nat := 1
  base : Nat := 0
  count : Nat := 0
  epoch : Nat
  vals : List Word := []
  pdus : List SafePdu := []
  envs : List Envelope := []
  join : Option JoinRec := none
  /-- The FCS is correct. -/
  fcsOk : Bool := true
deriving DecidableEq, Repr

/-- A frame listed in an own slot (R343): a fragment of a publication, or a SAFE frame with the PDUs of transmit connections. -/
inductive TlbItem where
  | data (base frag : Nat)
  | safe (conns : List Nat)
deriving DecidableEq, Repr

/-- An own slot of the domain cycle (R343): offset and length in ns, the frames listed with their send offsets, and the room
for a CMD frame in bytes (R545). -/
structure TlbSlot where
  offs : Nat
  len : Nat
  frames : List (Nat × TlbItem) := []
  cmdRoom : Nat := 0
deriving DecidableEq, Repr

/-- An entry of the receive schedule (R349): a frame expected on a port, and its arrival instant after the start of the cycle,
ns. -/
structure TlbRx where
  port : Nat
  type : Nat
  src : Nat
  base : Nat
  frag : Nat
  arrival : Nat
deriving DecidableEq, Repr

end Sys2Proof

namespace Sys2Proof.Machine

/-- An addressed memory: (address, byte) pairs, addresses strictly rising, no byte 0 listed; an unlisted byte reads 0. -/
abbrev Mem := List Host.Cell

/-- The register file: (field key, value) pairs, keys strictly rising, no field listed at its reset value. -/
abbrev Regs := List (Nat × Nat)

/-- One queue of R522: its words with the way each reads back (R527), how many words of a partly popped packet lead it,
the flags of Q_STAT and the counters of Q_ECC_CNT. -/
structure HQueue where
  words : List (Word × EccMark) := []
  /-- Words left of the reply that a pop has begun. -/
  headLeft : Nat := 0
  overrun : Bool := false
  stallExp : Bool := false
  uncorr : Bool := false
  halted : Bool := false
  noticeLost : Bool := false
  corrCnt : Nat := 0
  uncorrCnt : Nat := 0
  /-- Words still owed to a pop that waits (R526), none when no pop waits, and the words that its read has brought so far. -/
  stall : Option Nat := none
  got : List Word := []
deriving DecidableEq, Repr

/-- A reply that Farrier has made and not yet written (R525), or a notice (R538). -/
structure Reply where
  opcode : Nat
  tag : Nat
  status : Nat
  detail : Nat
  data : List Word
deriving DecidableEq, Repr

/-- The host side of one function or of the SPI target: eight queues (R522), the replies that wait for room in reply
queues 4 to 7, notice settings (R547), MSI-X masks and pending bits (R539, R540), messages sent per vector. -/
structure HostSet where
  queues : Tab HQueue := []
  waiting : Tab (List Reply) := []
  calNotice : Bool := false
  healthNotice : Bool := false
  commitDiv : Nat := 0
  commitCnt : Nat := 0
  /-- One bit per MSI-X vector: masked (PCI Express resets the mask bits to 1). -/
  masked : Nat := 0xFF
  pend : Nat := 0
  /-- Messages sent per vector. -/
  sent : Tab Nat := []
  /-- Address and data words of the MSI-X table, by table word. -/
  msixWords : Tab Nat := []
  /-- Power state D3hot (R520). -/
  d3hot : Bool := false
  /-- High words latched by the last low-word read (R10): register address and latched word. -/
  latch : Tab Nat := []
deriving DecidableEq, Repr

/-- A packet that Farrier has taken and not yet answered because it waits for an event (R536). -/
structure Outstanding where
  origin : Origin
  opcode : Nat
  tag : Word
  quietOk : Bool
  /-- What the command waits for: its own key (a port, a node, a connection, a peer …). -/
  key : Nat
  aux : Nat
  /-- A reset of the queue discards its reply (R529). -/
  dropped : Bool := false
deriving DecidableEq, Repr

/-- Host interfaces and Farrier's packet work (R522 … R547). -/
structure HostState where
  pf0 : HostSet := {}
  pf1 : HostSet := {}
  spi : HostSet := {}
  /-- The data of the most recent host read, word by word. -/
  rsp : List Word := []
  /-- The most recent SPI status or marker byte sent (R542, R543). -/
  spiByte : Nat := 0
  /-- SPI trigger bits pending and unread (R541): bit v for vectors 1 and 4 … 7, bit 8 + q for a vector-0 trigger by queue q. -/
  spiPend : Nat := 0
  outstanding : List Outstanding := []
  /-- PCIE_PERST_n low: the endpoint is held in reset (R596). -/
  perst : Bool := false
  /-- Replies delivered to Hackney command ports: core and words (R404). -/
  hkReplies : Tab (List Word) := []
deriving DecidableEq, Repr

/-- A publication record of an image (R34). -/
structure PubRec where
  base : Nat
  count : Nat
  producer : Nat := 0
  isLocal : Bool := true
  lag : Nat := 0
  current : Bool := false
  null : Bool := false
  missed : Bool := false
  held : Bool := false
  prodEpoch : Nat := 0xFFFF_FFFF_FFFF_FFFF
deriving DecidableEq, Repr

/-- One committed image: header (R33), records (R34) and signal values, signal s at byte 4 × s. -/
structure Image where
  valid : Bool := false
  epoch : Nat := 0
  held : Bool := false
  heldCause : Nat := 0
  overrun : Bool := false
  k : Nat := 0
  heldFrom : Nat := 0
  heldCount : Nat := 0
  heldTotal : Nat := 0
  recs : List PubRec := []
  vals : Mem := []
deriving DecidableEq, Repr

/-- A local publication of the configuration (R29) and what its source has done in the epoch being executed. -/
structure LocalPub where
  base : Nat
  count : Nat
  produced : Bool := false
  overran : Bool := false
deriving DecidableEq, Repr

/-- A remote publication that waits for its image epoch (R37). -/
structure RecvPub where
  epoch : Nat
  null : Bool
  held : Bool
  vals : List Word
deriving DecidableEq, Repr

/-- A subscription (R36): its producer, range, lag, the producer's k, and the producer epochs that the Tilbor schedule
publishes (those congruent to `phase` modulo `period`). -/
structure Sub where
  producer : Nat
  base : Nat
  count : Nat
  lag : Nat
  kProd : Nat
  period : Nat
  phase : Nat
  waiting : List RecvPub := []
  /-- Received after intake close: first eligible for the next image epoch (R24). -/
  late : List RecvPub := []
  /-- The newest producer epoch that arrived as a null frame. -/
  nullEpoch : Option Nat := none
  held : PubRec
deriving DecidableEq, Repr

/-- Epochs, the coherent image, holds and cuts (R17 … R51). -/
structure EpochState where
  /-- An epoch is being executed: the device places boundaries. -/
  placed : Bool := false
  committedOnce : Bool := false
  lastCommitted : Nat := 0
  marginPending : Option Nat := none
  /-- The deadline margin in force, ns (R22). -/
  margin : Nat := 2000
  /-- The deadline of the present epoch has passed. -/
  deadlinePassed : Bool := false
  front : Image := {}
  /-- The current image: the newest committed epoch (R44). -/
  newest : Image := {}
  /-- The image committed before the current one: a slot that begins within 1.5 µs of a commit point carries it (R344). -/
  before : Image := {}
  pubs : List LocalPub := []
  subs : List Sub := []
  /-- Values written by the sources in the epoch being executed. -/
  staged : Mem := []
  overrunNow : Bool := false
  /-- The intake window of the present image epoch has closed (R24). -/
  intakeClosed : Bool := false
  pf0Hold : Bool := false
  pf1Hold : Bool := false
  pf0Age : Nat := 0
  pf1Age : Nat := 0
  pf0Expired : Bool := false
  pf1Expired : Bool := false
  cmdCount : Nat := 0
  cmdAge : Nat := 0
  cmdExpired : Bool := false
  /-- The cut holder is active: a frozen cut pins the front. -/
  cutHold : Bool := false
  cutAge : Nat := 0
  /-- What commands that read "values of one epoch" return (R41, R43): the register file as it stands when the front's epoch
  commits, the positions of the servo axes and the field I/O values then. -/
  frontRegs : Regs := []
  frontPos : Tab Nat := []
  frontFio : List Nat := []
  /-- The first epoch of a held run that ends at the next commit, and its cause (R48). -/
  heldRun : Option (Nat × Nat) := none
  heldFrom : Nat := 0
  heldCount : Nat := 0
  heldCause : Nat := 0
deriving DecidableEq, Repr

/-- An anchor of R84: count, domain time in units of 2^-32 ns, and the rate in force from it (units of 2^-40). -/
structure Anchor where
  c : Nat
  d : Nat
  r : Int
deriving DecidableEq, Repr

/-- A step of D_A that waits for its rate point (R86): by a signed amount of 2^-32 ns, or to a value in ns. -/
inductive TimeStep where
  | by (delta : Int)
  | to (ns : Nat)
deriving DecidableEq, Repr

/-- A foreign master heard on a port (R97): its priority vector, identity, steps and announce interval. -/
structure Foreign where
  vector : List Nat
  gmId : Nat
  steps : Nat
  srcId : Nat
  srcPort : Nat
deriving DecidableEq, Repr

/-- One PTP port (R95 … R100). -/
structure PtpPort where
  link : Bool := false
  /-- The last 16 valid peer delays, newest first, in 2^-16 ns. -/
  delays : List Nat := []
  /-- The outstanding Pdelay_Req: sequence number and egress count. -/
  req : Option (Nat × Nat) := none
  /-- A two-step response received: its sequence number, ingress count at the MAC, request receipt time (2^-16 ns),
  and correction. -/
  twoStep : Option (Nat × Nat × Int) := none
  foreign : Option Foreign := none
  seqSync : Nat := 0
  seqAnn : Nat := 0
  seqPdelay : Nat := 0
deriving DecidableEq, Repr

/-- A PTP message that the device has sent. -/
structure PtpTx where
  port : Nat
  msg : PtpMsg
deriving DecidableEq, Repr

/-- Timebase and domain time (R82 … R105). -/
structure TimeState where
  /-- The counter C (R82). -/
  c : Nat := 0
  /-- The kept anchors, newest first, at most 16 (R86). -/
  anchors : List Anchor := [⟨0, 0, 0⟩]
  ri : Int := 0
  /-- A rate that waits for the next rate point (R85). -/
  pendR : Option Int := none
  pendStep : Option TimeStep := none
  /-- The pending step is an accepted TIME_RESTEP (R103). -/
  pendRestep : Bool := false
  /-- LOCKED, HOLDOVER or GM since reset (R86, R90). -/
  everLocked : Bool := false
  lockRun : Nat := 0
  boundRun : Nat := 0
  /-- |e| of the last four Syncs, newest first, in 2^-16 ns. -/
  lastE : List Nat := []
  /-- e of the newest valid Sync since the last step, in 2^-16 ns (R105). -/
  newestE : Option Int := none
  /-- Count of the last valid Sync. -/
  lastSyncC : Nat := 0
  seed : Option Nat := none
  /-- Announce intervals elapsed in GM_SETTLE. -/
  settleCnt : Nat := 0
  slavePort : Option Nat := none
  ports : Tab PtpPort := []
  /-- Per network, the last eight forwarded Syncs: identity, port number, sequence (R100). -/
  fwd : Tab (List (Nat × Nat × Nat)) := []
  tx : List PtpTx := []
  /-- Latched by a read of TB_DT_LO. -/
  dtHi : Nat := 0
  dtFrac : Nat := 0
deriving DecidableEq, Repr

/-- One master coordinate beside its registers (R52 … R60). -/
structure Coord where
  /-- The unwrapped 64-bit count, and the last raw value. -/
  count : Int := 0
  lastRaw : Nat := 0
  /-- Samples taken since enable. -/
  taken : Nat := 0
  /-- OFFSET, Q32.32 (R54). -/
  offset : Int := 0
  /-- SCALE in force, Q32.32. -/
  scale : Int := 0x1_0000_0000
  scalePending : Bool := false
  /-- S_N and S_(N-1), Q32.32. -/
  cur : Int := 0
  prev : Int := 0
  /-- The velocity history, newest first, at most 257 samples (R60). -/
  hist : List Int := []
  /-- A preset requested, and the one that applies at the present boundary (R57). -/
  presetNew : Option Int := none
  presetDue : Option Int := none
  /-- A preset applied at the newest sample. -/
  presetNow : Bool := false
  missRun : Nat := 0
  /-- Real samples in a row while LOST, and the first of them. -/
  realRun : Nat := 0
  firstReal : Int := 0
  sampleEpoch : Nat := 0
  /-- Restored from a snapshot: the next real sample is the first one after the gap (R79, R505). -/
  gap : Bool := false
  /-- The two newest distinct production values of a backbone source: producer epoch and value (R56). -/
  remote : List (Nat × Int) := []
deriving DecidableEq, Repr

/-- A predicted switch (R63, R64): its event, its instant in ns of domain time, the level it sets and the level before,
whether it has occurred, the threshold and direction that decide it, and the last epoch whose sample decides it. -/
structure Switch where
  event : Nat
  instant : Nat
  level : Bool
  before : Bool
  occurred : Bool := false
  threshold : Int
  rising : Bool
  lastEpoch : Nat
deriving DecidableEq, Repr

/-- What the calendar remembers of an event beside its entry (R70, R612). -/
structure EventMem where
  /-- It has been evaluated since its enable. -/
  seen : Bool := false
  inside : Bool := false
  /-- Fired with REARM 1 and not yet returned (R71). -/
  away : Bool := false
deriving DecidableEq, Repr

/-- Master coordinates and event calendar. The event entries are in the block memory at their host addresses. -/
structure CalState where
  coords : Tab Coord := []
  /-- Enabled entries, rising. -/
  enabled : List Nat := []
  events : Tab EventMem := []
  switches : List Switch := []
  /-- CAL_CTRL.RUN as applied at the last boundary (R78). -/
  run : Bool := false
  /-- RUN has fallen: retract at the next evaluation instant (R78). -/
  stopping : Bool := false
  /-- Occurred unconfirmed switches of disabled events, to retract at the next evaluation (R77). -/
  orphans : List Switch := []
  /-- The calendar's publication: first signal and count (R74). -/
  pub : Option (Nat × Nat) := none
  /-- Levels of its signals, and of its ring output bits by target. -/
  sigs : Mem := []
  ringBits : Tab Bool := []
  /-- Handed to other blocks: gear entries armed by action 4, profile starts, releases for the next tick. -/
  gearOut : List (Nat × Nat × Int × Nat) := []
  profileOut : List (Nat × Nat) := []
  workOut : List Nat := []
  /-- Timed outputs to send in ring frames (R68): ring, node, bit, instant, level, withdrawn. -/
  ringOut : List (Nat × Nat × Nat × Nat × Bool × Bool) := []
deriving DecidableEq, Repr


/-- What the loop engine keeps of one axis beside its registers and the loop memory (R106 … R128). -/
structure LoopAx where
  /-- Axis position, 24 fraction bits, and whether it was taken in the present epoch (R108). -/
  pos : Int := 0
  posNow : Bool := false
  /-- Unwrapped source count, last raw value, samples taken (R54). -/
  count : Int := 0
  lastRaw : Nat := 0
  taken : Bool := false
  /-- Axis position at the previous evaluation, and each candidate's last velocity feedback (R109, R111). -/
  prevPos : Int := 0
  lastVel : Tab Int := []
  /-- The next evaluation is the first after an enable or after a missed one (R111). -/
  first : Bool := true
  /-- Winner of the previous evaluation, none after an enable or a fault clear (R114). -/
  prevWinner : Option Nat := none
  /-- A LOOP_ENABLE mode that applies at the next boundary (R137). -/
  enNext : Option Nat := none
  /-- OFF reaction in force: output 0, no evaluation (R127). -/
  off : Bool := false
  /-- Cleared in this epoch: resumes at the next boundary (R128). -/
  resumeNext : Bool := false
  /-- The feedback was present when its group was last ready in an earlier epoch (R128). -/
  fbBefore : Bool := false
  /-- Axis output (Q1.15) and selector-stage output. -/
  out : Int := 0
  selOut : Int := 0
  /-- Trace nodes of the last evaluation: candidate nodes at 16 × candidate + node, stage outputs at 96 + stage (R144),
  and whether the axis was evaluated in the present epoch. -/
  nodes : Tab Int := []
  evalNow : Bool := false
deriving DecidableEq, Repr

/-- Loop engine (R106 … R141). -/
structure LoopState where
  axes : Tab LoopAx := []
  /-- LOOP_CTRL.RUN as applied at the last boundary. -/
  run : Bool := false
  /-- READY_NS as applied at the last boundary. -/
  readyNs : Nat := 2000
  /-- Groups ready in the present epoch with their ready instant (ns after the boundary), and groups whose pass ran. -/
  ready : Tab Nat := []
  passed : List Nat := []
  /-- End of the last pass of the present epoch, ns after the boundary, and the passes run. -/
  endNs : Nat := 0
  passes : Nat := 0
  /-- An evaluation of the present epoch was abandoned (R122). -/
  abandoned : Bool := false
  /-- ADC inputs whose epoch sample was complete at LOCAL ready (R119). -/
  adcReady : Nat := 0
  /-- The pending swap: axes still to change, and its state mode (R135, R136). -/
  swapAxes : List Nat := []
  swapMode : Nat := 0
  /-- Axes that the loop engine publication names, rising (R139). -/
  pubAxes : List Nat := []
deriving DecidableEq, Repr

/-- An injector beside its registers (R154 … R156). -/
structure Injector where
  /-- First epoch in which it may produce a sample. -/
  start : Nat := 0
  phase : Nat := 0
  inc : Nat := 0
  lfsr : Nat := 0
  bit : Bool := false
  held : Nat := 0
  /-- Value of the last evaluation with a sample. -/
  value : Int := 0
  /-- It advanced in the present epoch. -/
  now : Bool := false
deriving DecidableEq, Repr

/-- Trace capture and injectors (R142 … R159). -/
structure TraceState where
  /-- Trace memory, 2 MiB, by byte offset. -/
  tmem : Mem := []
  inj : Tab Injector := []
  /-- An arm takes effect at the next boundary. -/
  armPending : Bool := false
  stopPending : Bool := false
  /-- First epoch of the capture. -/
  nArm : Nat := 0
  /-- Rows written since the arm, not counting the trigger row, and post rows written. -/
  rows : Nat := 0
  post : Nat := 0
  /-- Pre-trigger rows kept (P). -/
  pre : Nat := 0
  /-- A trigger condition has occurred in or before this epoch and waits for its row. -/
  trigPending : Bool := false
  /-- Last captured value of each channel. -/
  last : Tab Nat := []
  /-- Fired calendar events and team trips of the present epoch, for triggers 3 and 5. -/
  firedNow : List Nat := []
  trippedNow : List Nat := []
  overrunNow : Bool := false
  /-- Axes that faulted in the present epoch, for trigger 2. -/
  faultedNow : List Nat := []
deriving DecidableEq, Repr

/-- A segment of a plan (R168): duration and constant jerk, binary64 patterns. -/
structure Seg where
  t : Nat
  j : Nat
deriving DecidableEq, Repr

/-- A plan of one axis (R167 … R176), binary64 patterns: its origin, start state, segments and end. -/
structure Plan where
  org : Int
  v0 : Nat
  a0 : Nat
  segs : List Seg
  /-- Endless cruise after the segments (velocity kind). -/
  cruise : Bool := false
  /-- The target; none where the plan ends where its segments end. -/
  target : Option Int := none
  /-- A stop before a reversal toward the target (R175). -/
  rev : Bool := false
  /-- Stop kind of R176, 0 for none. -/
  kind : Nat := 0
  /-- The stop of R173 that ends past the target. -/
  ovr : Bool := false
  /-- TIME: epoch of the origin. COORD: unwrapped coordinate at the origin, Q32.32. -/
  start : Int
deriving DecidableEq, Repr

/-- A gear law (R181): coordinate, breakpoint, set-point and ratio at it, new ratio, blend, direction. -/
structure GearLaw where
  x : Int
  px : Int
  gx : Int
  gnew : Int
  b : Int
  sigma : Int
deriving DecidableEq, Repr

/-- The two knots of an axis for one cycle (R295, R296): first epoch and length in epochs, KOFF, and binary64 positions,
velocities and T_C in seconds. -/
structure KnotSet where
  start : Nat
  kc : Nat
  koff : Int
  velEn : Bool
  p0 : Nat
  v0 : Nat
  p1 : Nat
  v1 : Nat
  tc : Nat
deriving DecidableEq, Repr

/-- A knot map entry (R295). -/
structure KnotEntry where
  axis : Nat
  velEn : Bool
  wpos : Nat
  wvel : Nat
  kscale : Nat
  koff : Int
deriving DecidableEq, Repr

/-- What the profile generator keeps of one axis beside its registers (R160 … R189). -/
structure PrfAx where
  /-- Set-points sp(N−1), sp(N) and sp(N+1); the provisional sp*(N+1) that was sent, and sp*(N+2). -/
  spPrev : Int := 0
  sp : Int := 0
  spNext : Int := 0
  star : Option Int := none
  starNext : Option Int := none
  /-- The mark of the next frame is WDRAW (R163, R318). -/
  wdraw : Bool := true
  /-- Profile velocity and acceleration of sp(N), binary64 counts per epoch, and those of sp(N+1) with their register
  values. -/
  vf : Nat := 0
  af : Nat := 0
  vfNext : Nat := 0
  afNext : Nat := 0
  velNext : Int := 0
  accNext : Int := 0
  /-- sp(N+1) was computed at the generator instant of this epoch. -/
  computed : Bool := false
  /-- HOLD with sp taken from the axis position (R161). -/
  grab : Bool := true
  plan : Option Plan := none
  /-- The slot in force: velocity kind and its direction, COORD, coordinate, V, A, D, J as written (binary64). -/
  velKind : Bool := false
  vneg : Bool := false
  coordMode : Bool := false
  coord : Nat := 0
  lv : Nat := 0
  la : Nat := 0
  ld : Nat := 0
  lj : Nat := 0
  /-- Deceleration limit raised under R173, as written units. -/
  dEff : Option Nat := none
  /-- The vm that the present plan was built with, binary64. -/
  vm : Nat := 0
  /-- Stop kinds requested for the next generator instant. -/
  stopReq : List Nat := []
  gear : Option GearLaw := none
  /-- The implicit entry of GEAR_START (R184): X, ratio, B, DIR. -/
  implicit : Option (Int × Int × Nat × Nat) := none
  /-- Predicted coordinate of sp(N), unwrapped, Q32.32. -/
  sun : Int := 0
  /-- PLAN: the knots in force, those of the next cycle, and waiting in HOLD for a valid plan. -/
  knots : Option KnotSet := none
  nextKnots : Option KnotSet := none
  planWait : Bool := false
  /-- Cap latched at the last boundary, 2^-16 counts per epoch; all ones for none. -/
  cap : Nat := 0xFFFF_FFFF
  /-- Epochs for which the set-point has been unchanged. -/
  still : Nat := 0
  /-- The fresh axis position of the rebase epoch (R505). -/
  fresh : Option Int := none
deriving DecidableEq, Repr

/-- Profile generator (R160 … R191). -/
structure PrfState where
  axes : Tab PrfAx := []
  /-- PRF_CTRL.RUN as applied at the last boundary. -/
  run : Bool := false
  /-- Commands executed since the last generator instant: axis, opcode and words, in execution order (R166). -/
  cmds : List (Nat × Nat × List Nat) := []
  /-- Parameter records written, to take effect at the next generator instant (R189). -/
  paramNext : List (Nat × List Nat) := []
  /-- Axes that the Paddock monitor holds in protective stop. -/
  pstop : List Nat := []
  /-- Caps of the newest committed result of the Paddock monitor, by axis. -/
  caps : Tab Nat := []
  /-- A rebase is due (R505): 1 at the generator instant of the rebase epoch, 2 at that of the first committed epoch. -/
  rebase : Nat := 0
  /-- Replans of the present instant. -/
  replans : Nat := 0
deriving DecidableEq, Repr

/-- What an output does over a PWM period: off, on, or on over [a, b) units of 25 ps from the period start, which may
run past the period end. -/
inductive Wave where
  | off
  | on
  | window (a b : Nat)
deriving DecidableEq, Repr

/-- One chopped phase of a stepper team (R228). -/
structure Phase where
  /-- 0 SLOW, 1 DRIVE, 2 FAST. -/
  st : Nat := 0
  armed : Bool := false
  target : Int := 0
  /-- Comparator threshold, raw units (R229). -/
  thr : Int := 0
  /-- Units of 25 ps in DRIVE and FAST in the present period. -/
  drive : Nat := 0
  fast : Nat := 0
  /-- Totals with the bus forward and reversed in the present epoch and in the previous one (R231). -/
  fwd : Nat := 0
  rev : Nat := 0
  fwdPrev : Nat := 0
  revPrev : Nat := 0
deriving DecidableEq, Repr

/-- The stepper side of a team (R222 … R235). -/
structure StepX where
  /-- Set-points applied in the previous and in the present epoch, and the one delivered for the next. -/
  spPrev : Int := 0
  sp : Int := 0
  delivered : Option Int := none
  /-- Epochs without a change (R226) and epochs in the present mode (R230). -/
  still : Nat := 0
  inMode : Nat := 0
  modeKnown : Bool := false
  /-- Step speed and direction of the present epoch and of the previous one (R225, R231). -/
  w : Nat := 0
  s : Int := 0
  wPrev : Nat := 0
  sPrev : Int := 0
  amp : Nat := 0
  /-- First and last unwrapped table addresses of the present and of the previous epoch. -/
  addrFirst : Int := 0
  addrLast : Int := 0
  addrFirstPrev : Int := 0
  addrLastPrev : Int := 0
  /-- Phase samples of the previous epoch. -/
  ixPrev : List (Option Int) := []
  /-- Filtered load angle, binary32, and the stall count. -/
  df : Nat := 0
  stallCnt : Nat := 0
  /-- IRUN and IHOLD written, to apply at the next boundary. -/
  curNext : Option Nat := none
  irun : Nat := 0
  ihold : Nat := 0
  a : Phase := {}
  b : Phase := {}
deriving DecidableEq, Repr

/-- What a field die keeps of one team beside its registers (R192 … R219). -/
structure TeamX where
  /-- Demands written by the loop engine in the present epoch, by input. -/
  dem : Tab Int := []
  /-- Demands handed over at the commit point for the next load; none is missing. -/
  staged : List (Option Int) := []
  /-- A commit point has passed and the epoch-aligned period boundary has not been run yet. -/
  due : Bool := false
  enNext : Option Bool := none
  /-- Period within the epoch, 0 … PDIV − 1. -/
  period : Nat := 0
  /-- Active demands, commutation table and sector, ADC compares. -/
  act : List Int := []
  tab : Nat := 0
  sector : Nat := 0
  cmps : List Nat := [0, 0, 0, 0]
  /-- Epochs for which the edges have been held (R201). -/
  held : Nat := 0
  missing : Bool := false
  /-- 0 normal, 1 off after STO, 2 safe state of R215. -/
  safe : Nat := 0
  /-- An accepted clear: outputs resume at the next period boundary (R218). -/
  resume : Bool := false
  /-- The trip pin is active, and the count at which a trip source last went inactive (R218). -/
  pin : Bool := false
  quietC : Option Nat := none
  /-- ADC inputs whose last sample lies outside its limits and trips this team. -/
  adcOut : Nat := 0
  /-- The eight outputs H0 … H3, L0 … L3 over a period. -/
  out : List Wave := [.off, .off, .off, .off, .off, .off, .off, .off]
  step : StepX := {}
deriving DecidableEq, Repr

/-- An ADC conversion: its input, whether it was shifted, the epoch of its hold instant, whether it is the first of that
epoch. -/
structure Conv where
  input : Nat
  shifted : Bool
  epoch : Nat
  first : Bool
deriving DecidableEq, Repr

/-- A converter: the conversion in progress and the triggers that wait (R208). -/
structure ConvX where
  busy : Option Conv := none
  queue : List Nat := []
deriving DecidableEq, Repr

/-- An encoder interface beside its registers (R211 … R213). -/
structure EncX where
  a : Bool := false
  b : Bool := false
  z : Bool := false
  /-- The running ×4 count. -/
  count : Int := 0
  /-- The count latched at the last boundary, when it is valid in this epoch. -/
  latched : Option Nat := none
  /-- Quadrature count at the boundary, for SINCOS. -/
  atBoundary : Int := 0
  /-- A Hall code that has qualified. -/
  hall : Nat := 0
  /-- A, B and Z have been seen at least once. -/
  seen : Bool := false
deriving DecidableEq, Repr

/-- Power teams, ADC and encoders. -/
structure TeamState where
  teams : Tab TeamX := []
  conv : Tab ConvX := []
  enc : Tab EncX := []
  /-- Inputs converted at least once with a hold instant in the present epoch. -/
  sampled : Nat := 0
  /-- Global trip inputs active, one bit each. -/
  gtrip : Nat := 0
  /-- STO lines that Bridle drives, one bit per team (R219). -/
  sto : Nat := 0
deriving DecidableEq, Repr

/-- An intruder record of a sensor report (R458): mm and mm/s. -/
structure Intruder where
  track : Nat
  x : Int
  y : Int
  radius : Nat
  height : Nat
  vb : Nat
deriving DecidableEq, Repr

/-- A verified sensor report (R459) with a number that tells reports apart. -/
structure SensorReport where
  serial : Nat
  fault : Bool
  count : Nat
  recs : List Intruder
deriving DecidableEq, Repr

/-- Paddock monitor (R238 … R271) beside its registers and records. -/
structure PdkState where
  /-- The cycle under way, its latch epoch, a late cycle, and whether its computation is still to end (R239, R240). -/
  cycle : Option Nat := none
  epoch : Nat := 0
  late : Bool := false
  busy : Bool := false
  /-- Reports latched at the cycle start, by sensor. -/
  reports : Tab SensorReport := []
  /-- Positions and set-points latched, by axis, and whether the latch epoch has been taken. -/
  pos : Tab (Int × Int) := []
  taken : Bool := false
  /-- Second sources: unwrapped count and last raw value by axis, and those present in the latch epoch. -/
  src2 : Tab (Int × Nat) := []
  src2Now : List Nat := []
  /-- Joint values of the cycle before, by joint record. -/
  prevJ : Tab Int := []
  /-- Supervised bound and arm cap of the cycle before, by arm (R262). -/
  bound : Tab Nat := []
  prevCap : Tab Nat := []
  /-- Arms that hold a place, by paddock (R252). -/
  occ : Tab (List Nat) := []
  /-- Cycles computed since SELFTEST and since RUN began. -/
  selfCycles : Nat := 0
  runCycles : Nat := 0
  /-- Causes present in the newest result, by arm. -/
  present : Tab Nat := []
  /-- The cycle that decides each pending release request, by arm (R264). -/
  relCycle : Tab Nat := []
  /-- Consecutive cycles with the arm cap above 0. -/
  capRun : Tab Nat := []
  /-- The newest signature: cycle and word (R461). -/
  sig : Option (Nat × Nat) := none
  /-- Axis caps and axes in protective stop that the next commit point hands to the profile generator (R241). -/
  outCaps : Option (Tab Nat) := none
  outStop : List Nat := []
deriving DecidableEq, Repr

/-- A binding of a structure (R284). -/
structure SageBind where
  kind : Nat
  vidx : Nat
  src : Nat
  scale : Nat
deriving DecidableEq, Repr

/-- A structure of the Sage solver (R276 … R279): its dimensions, the positions of the nonzeros of H, A and C as (row,
column) in image order, and the other sections; after its analysis also nnz_L and Φ. -/
structure SageStruct where
  id : Nat
  n : Nat
  me : Nat
  mi : Nat
  nval : Nat
  w : Nat
  nstep : Nat
  nblk : Nat
  h : List (Nat × Nat)
  a : List (Nat × Nat)
  c : List (Nat × Nat)
  order : List Nat
  blocks : List Nat
  knots : List KnotEntry
  binds : List SageBind
  init : List Nat
  nnzL : Nat := 0
  phi : Nat := 0
deriving DecidableEq, Repr

/-- A delta entry that waits (R283). -/
structure SageDelta where
  id : Nat
  idx : Nat
  val : Nat
deriving DecidableEq, Repr

/-- The stored result (R294): code, cycle, structure ID, the solution with its NaN blocks, and the duals. -/
structure SageResult where
  code : Nat
  cycle : Nat
  id : Nat
  x : List Nat
  y : List Nat
  z : List Nat
  nan : Nat
deriving DecidableEq, Repr

/-- A solve under way (R286 … R289): its cycle and boundary, the parameters latched for it, the iterate, and the instant from
which the next iteration may start. -/
structure SageSolve where
  cycle : Nat
  bound : Nat
  /-- EPS_P, EPS_D, EPS_G, PIVOT_TOL, RHO, DELTA, WARM_PUSH. -/
  par : List Nat
  iterMax : Nat
  shiftMax : Nat
  first : Bool
  warm : Bool
  iters : Nat := 0
  lanes : Nat := 0
  ready : Nat
  x : List Nat
  y : List Nat
  z : List Nat
  s : List Nat
deriving DecidableEq, Repr

/-- Sage coordination solver (R272 … R304) beside its registers. -/
structure SageState where
  /-- Knot map of the active structure (R295). -/
  map : List KnotEntry := []
  /-- Sage asks Girth for lanes from an instant on, the lanes of the present grant and its instant (R298), ns. -/
  laneReq : Bool := false
  reqNs : Nat := 0
  grant : Nat := 0
  grantNs : Nat := 0
  active : Option SageStruct := none
  /-- The present values of the active structure (R277). -/
  vals : List Nat := []
  /-- The staged image as it was copied, and its analysis (R280). -/
  stagedWords : List Nat := []
  staged : Option SageStruct := none
  deltas : List SageDelta := []
  solve : Option SageSolve := none
  result : Option SageResult := none
  /-- The last cycle that was latched, and a structure switch at it (R294). -/
  lastCycle : Option Nat := none
  first : Bool := false
  /-- Buffered low words of the parameter pairs, by register offset. -/
  low : Tab Nat := []
deriving DecidableEq, Repr

/-- A switch entry that waits to be sent in a TIMED slot (R319). -/
structure TimedEntry where
  node : Nat
  bit : Nat
  level : Bool
  /-- Instant, ns of domain time. -/
  instant : Nat
  /-- A late switch: sent with OFFSET 0. -/
  late : Bool := false
  wdraw : Bool
  tag : Nat
deriving DecidableEq, Repr

/-- An acyclic request in issue order (R321): its content, what its response is for (the opcode of the command that
waits, 0x701 for a start phase), how often it was sent, and the epoch whose frame brings the response. -/
structure AcycJob where
  target : Nat
  seq : Nat
  op : Nat
  addr : Nat
  d0 : Nat
  d1 : Nat
  purpose : Nat
  sent : Nat := 0
  respIn : Option Nat := none
deriving DecidableEq, Repr

/-- What configuration expects of a node: vendor, product and NODE_LAT (R331). -/
structure NodeExpect where
  vendor : Nat := 0
  product : Nat := 0
  lat : Nat := 0
deriving DecidableEq, Repr

/-- A ring port beside its registers (R305 … R336). -/
structure RingPort where
  /-- Out words written for the next frame by the loop engine, and SAFE out words written by Bridle, at 64 × node +
  word. -/
  outs : Tab Nat := []
  safeOuts : Tab Nat := []
  /-- In words of the present epoch from slots that are not empty, at 64 × node + word. -/
  ins : Tab Nat := []
  /-- The frame sent at the last boundary, none when none was sent. -/
  frame : Option TraceFrame := none
  /-- The returned copy with its ready instant, and the partner's copy, of the present epoch (R334). -/
  returned : Option (TraceFrame × Nat) := none
  partner : Option (TraceFrame × Nat) := none
  /-- The slots of the present epoch have been judged. -/
  judged : Bool := false
  /-- Start phase of R331, 0 when not starting, the count at which it began, and the failure it has met. -/
  phase : Nat := 0
  phaseC : Nat := 0
  startBad : Option Nat := none
  /-- The delays of phase 5 have been written out. -/
  delaysOut : Bool := false
  /-- Nodes that reported ALIGNED. -/
  alignedNodes : List Nat := []
  /-- Epoch E of RUN: out data is filled from its frame on. -/
  runEpoch : Option Nat := none
  /-- Sending stops at the next boundary. -/
  stopNext : Bool := false
  acyc : List AcycJob := []
  seq : Nat := 0
  timed : List TimedEntry := []
  tag : Nat := 0
  /-- Switches sent in TIMED slots, newest first, at most 256, to withdraw them: node, bit, instant, tag. -/
  sentTags : List (Nat × Nat × Nat × Nat) := []
  /-- Frames lost in a row; good returns in a row during closure; first epoch with a copy of the partner. -/
  lostRun : Nat := 0
  goodRun : Nat := 0
  closeFrom : Option Nat := none
  /-- Round trips of the last 16 frames, Q16.16 ns, newest first. -/
  rts : List Nat := []
  /-- Turn times that the partner reported, newest first, at most 16, ns (R324). -/
  tTurn : List Nat := []
  expect : Tab NodeExpect := []
  /-- Slots whose previous frame carried a provisional set-point (R318). -/
  starSent : List Nat := []
  /-- As the partner: the frame turned last, the slot content for a closing frame, and the last tack record sent. -/
  turned : Option TraceFrame := none
  closeOut : Option (List FrameSlot) := none
  tackSent : Option TackRec := none
deriving DecidableEq, Repr

/-- A node of a ring: the registers of R322 and the states of R329. -/
structure NodeX where
  /-- State code of R329. -/
  st : Nat := 0
  number : Nat := 0
  vendor : Nat := 0
  product : Nat := 0
  serial : Nat := 0
  rev : Nat := 0
  lat : Nat := 0
  aligned : Bool := false
  /-- Held slots, one bit each, and the epochs for which each was held. -/
  held : Nat := 0
  heldRun : Tab Nat := []
  hold : Nat := 0
  apply : Nat := 0
  clkErr : Int := 0
  tsA : Nat := 0
  tsZ : Nat := 0
  tsB : Nat := 0
  delayU : Option Nat := none
  delayD : Option Nat := none
  emptyCnt : Nat := 0
  errCnt : Nat := 0
  lostCnt : Nat := 0
  /-- Slot registers NODE_SLOT_s, both words. -/
  slots : Tab (Nat × Nat) := []
  uLink : Bool := true
  dLink : Bool := true
  /-- Low word of the epoch that the next frame or apply instant belongs to, and its boundary, ns of the node clock. -/
  epoch : Nat := 0
  boundary : Nat := 0
  /-- A frame has been processed in this epoch, and it was valid. -/
  processed : Bool := false
  valid : Bool := false
  /-- Out data present in this epoch's frame, one bit per slot. -/
  present : Nat := 0
  /-- Out words received in this epoch, and those in effect. -/
  rx : Tab Nat := []
  outs : Tab Nat := []
  /-- Output bits, pending timed switches (bit, instant, level, tag) and withdrawals for the apply instant (bit, level,
  tag). -/
  outBits : Nat := 0
  timed : List (Nat × Nat × Bool × Nat) := []
  wdraws : List (Nat × Bool × Nat) := []
  /-- Set-points per slot: committed, provisional, last difference; slots whose prepared interpolation was kept. -/
  sp : Tab Int := []
  spStar : Tab Int := []
  spDiff : Tab Int := []
  spKept : List Nat := []
  /-- Clock alignment (R325): stepped once, runs of good and bad frames, steps taken, 2^-16 ns, rate in ppb. -/
  stepped : Bool := false
  goodClk : Nat := 0
  badClk : Nat := 0
  clock : Int := 0
  rate : Int := 0
  /-- The epoch in which a RUN request takes effect. -/
  runAt : Option Nat := none
  /-- Epochs in a row without a valid frame. -/
  noFrame : Nat := 0
  /-- Slots whose outputs are in the safe state. -/
  safeSlots : Nat := 0
  /-- STO by the watchdog of R457. -/
  sto : Bool := false
  /-- The cause of SAFE persists. -/
  safeCause : Bool := false
  /-- The acyclic request received and not executed yet, with HOP on its arrival, and the response for the next frame. -/
  req : Option (AcycReq × Nat) := none
  rsp : Option AcycRsp := none
  /-- The frame forwarded or turned last. -/
  fwd : Option TraceFrame := none
deriving DecidableEq, Repr

/-- Cerid field ring. -/
structure CrdState where
  ports : Tab RingPort := []
  /-- Nodes, at 128 × ring + position on the line from the A end. -/
  nodes : Tab NodeX := []
deriving DecidableEq, Repr
/-- The key of a frame (R339): TYPE, SRC, BASE_ID, FRAG, EPOCH_LO. -/
structure FrameKey where
  type : Nat
  src : Nat
  base : Nat
  frag : Nat
  epochLo : Nat
deriving DecidableEq, Repr

/-- A frame that the device has put on a port: its instant in ns of domain time, and whether the gate cut it (R346). -/
structure TlbTx where
  port : Nat
  instant : Nat
  frame : TlbFrame
  forwarded : Bool := false
  cut : Bool := false
deriving DecidableEq, Repr

/-- A publication of which some fragments have arrived (R350). -/
structure Partial where
  src : Nat
  base : Nat
  epoch : Nat
  got : Tab (List Word)
deriving DecidableEq, Repr

/-- A peer (R364): the two fingerprints that configuration expects, the identity last verified, and the JOIN content
under verification. -/
structure TlbPeer where
  fp0 : Nat
  fp1 : Nat
  known : Option JoinRec := none
  cand : Option JoinRec := none
deriving DecidableEq, Repr

/-- A request in an envelope whose reply is awaited (R366, R546): its sequence number, the producer addressed, whether
TLB_ATTEST made it, and the domain cycle of the slot that carried it. -/
structure Remote where
  seq : Nat
  dest : Nat
  attest : Bool
  cycle : Option Nat := none
deriving DecidableEq, Repr

/-- Tilbor backbone beside its registers (R337 … R368). -/
structure TlbState where
  /-- From configuration: own slots, the receive schedule, and the producers whose privileged envelopes count (R517). -/
  slots : List TlbSlot := []
  sched : List TlbRx := []
  commanders : List Nat := []
  peers : Tab TlbPeer := []
  /-- TLB_DCYCLE has taken the present cycle. -/
  counting : Bool := false
  stopNext : Bool := false
  joinCycles : Nat := 0
  /-- A takeover asks for a JOIN frame in the next first slot (R504). -/
  joinDue : Bool := false
  /-- Own slots started in this cycle, the slot in progress, and its frames still to be sent with their instants. -/
  started : List Nat := []
  slotNow : Option Nat := none
  queue : List (Nat × TlbFrame) := []
  /-- Per port: instant at which the last byte of the device's own frame leaves, and forwarded frames that wait for it. -/
  ownEnd : Tab Nat := []
  waiting : Tab Nat := []
  /-- Keys forwarded per network, and keys consumed (SAFE per network), newest first, at most 512. -/
  fwdKeys : Tab (List FrameKey) := []
  seen : List FrameKey := []
  seenSafe : Tab (List FrameKey) := []
  partials : List Partial := []
  /-- Envelopes to send, received packets that Farrier has not taken, and the numbering of requests (R544 … R546). -/
  envOut : List Envelope := []
  envIn : List Envelope := []
  envSeq : Nat := 0
  remotes : List Remote := []
  /-- Every frame sent or forwarded, in order. -/
  tx : List TlbTx := []
deriving DecidableEq, Repr


/-- A store on its way (R374): address, bytes, value, and the cycle at which it is visible. -/
structure BufStore where
  addr : Nat
  size : Nat
  val : Nat
  due : Nat
deriving DecidableEq, Repr

/-- What stops a core from issuing: a WAIT (R394), a CQ_POP with no reply word (R404), with its destination, the pointer
register that it steps (0 for none) and its next value, or an EXIT that waits for its stores with its status (R401). -/
inductive HkWait where
  | none
  | wait
  | pop (d a ptr : Nat)
  | exit (status : Nat)
deriving DecidableEq, Repr

/-- A repeat block under way (R392): address of its first instruction, length, iterations left with the present one. -/
structure RepBlock where
  start : Nat
  len : Nat
  left : Nat
deriving DecidableEq, Repr

/-- A Hackney core (R376, R395) beside its host registers. -/
structure HkCore where
  imem : Mem := []
  dmem : Mem := []
  /-- h1 … h31. -/
  regs : Tab Nat := []
  pc : Nat := 0
  /-- Branch delay slots still to execute, and the address after them (R384). -/
  slot : Nat := 0
  target : Nat := 0
  /-- The load whose delay slot comes next: register and value (R385). -/
  ldPend : Option (Nat × Nat) := none
  chain : Nat := 0
  rep : Option RepBlock := none
  /-- Accumulators, 56 bits, signed. -/
  acc : Tab Int := []
  mbBase : Tab Nat := []
  mbLen : Tab Nat := []
  fstat : Nat := 0
  ien : Nat := 0
  ipend : Nat := 0
  ivec : Nat := 0
  epc : Nat := 0
  timerCmp : Nat := 0
  /-- The cycle of the next match of TIMER_CMP, 0 when disabled. -/
  timerAt : Nat := 0
  warnNs : Nat := 0
  gie : Bool := false
  inHandler : Bool := false
  /-- One instruction must execute before the next interrupt entry (R398). -/
  afterRti : Bool := false
  /-- Cycles since dispatch, and the HI words latched by the last LO reads (R395). -/
  cycle : Nat := 0
  cycHi : Nat := 0
  tbHi : Nat := 0
  epHi : Nat := 0
  /-- The cycle in which an enabled interrupt became pending. -/
  pendSince : Option Nat := none
  waiting : HkWait := .none
  /-- Cycle at which each register's result is ready, and each accumulator's for ARD and AMV (R386). -/
  ready : Tab Nat := []
  accReady : Tab Nat := []
  fpuFree : Nat := 0
  buffer : List BufStore := []
  lastDue : Nat := 0
  /-- The item: descriptor, release epoch, timebase count at dispatch. -/
  item : Nat := 0
  relEpoch : Nat := 0
  startC : Nat := 0
  /-- Staging view of the item's publications (R373): first signal and count of each, and the values at 4 × signal. -/
  pubs : List (Nat × Nat) := []
  staging : Mem := []
  /-- Command port (R404): words pushed and not yet taken, and OVERRUN. -/
  cmdq : List Word := []
  cqOverrun : Bool := false
  /-- Words still to pop of the reply whose first word has been popped (R404). -/
  popLeft : Nat := 0
deriving DecidableEq, Repr

/-- The Hackney cores and shared work memory (R369, R370). -/
structure HkState where
  cores : Tab HkCore := []
  /-- Shared work memory, 12 MiB, by byte offset. -/
  swm : Mem := []
  /-- Shared memory accesses made: the index of the next free latency (R374). The model's own field. -/
  accesses : Nat := 0
deriving DecidableEq, Repr

/-- A running instance on a core: descriptor, class, instant of dispatch in ns of domain time, Girth power held. -/
structure OstRun where
  desc : Nat
  cyclic : Bool
  start : Nat
  power : Nat
deriving DecidableEq, Repr

/-- A command that takes effect at the next tick (R409): its packet's outstanding key, opcode, words, and whether its
descriptor was running when it was executed. -/
structure OstCmd where
  key : Nat
  opcode : Nat
  words : List Nat
  wasRunning : Bool := false
deriving DecidableEq, Repr

/-- Ostler and Girth beside their registers (R407 … R428). The descriptor table is in the block memory at its host
address. -/
structure OstState where
  run : Bool := false
  /-- Index of the next tick of the present epoch. -/
  tick : Nat := 0
  /-- Service items READY, in order of arrival; cyclic items READY by core, in dispatch order. -/
  ready : List Nat := []
  cycq : Tab (List Nat) := []
  /-- Releases that become READY at the next tick. -/
  nextTick : List Nat := []
  /-- The time list: due time in ns and descriptor, sorted. -/
  delays : List (Nat × Nat) := []
  running : Tab OstRun := []
  cmds : List OstCmd := []
  cmdKey : Nat := 0
  /-- Dispatch trace: sequence number, count of the last record and queue fill at it (R426). -/
  trcSeq : Nat := 0
  trcC : Nat := 0
  trcFill : Nat := 0
  /-- Girth: the budget in force, P_IO,max of the configuration image, and the power of the present Sage grant. -/
  budget : Nat := 12000
  budgetNext : Option Nat := none
  ioMax : Nat := 0
  sagePower : Nat := 0
  /-- Enabled descriptors, rising. -/
  enabled : List Nat := []
deriving DecidableEq, Repr
/-- A safe connection (R352 … R361, R456) beside its record. -/
structure SafeConn where
  /-- 0 OFF, 1 START, 2 RUN, 3 FAILED. -/
  st : Nat := 0
  watchdog : Bool := false
  mismatch : Bool := false
  single : Bool := false
  degraded : Bool := false
  singleNet : Nat := 0
  singleRun : Nat := 0
  /-- SEQ and TS of the last PDU delivered, on a backbone transmit connection of the last one sent. -/
  seq : Nat := 0
  ts : Nat := 0
  /-- Tick of the last delivery, or of the start, on the running tick count. -/
  tick : Nat := 0
  crcErr : Nat := 0
  seqErr : Nat := 0
  ageErr : Nat := 0
  masq : Nat := 0
  singleCnt : Nat := 0
  /-- DATA of the last delivery. -/
  data : List Nat := []
  /-- Copies that wait for their twin: tick, network and PDU. -/
  wait : List (Nat × Nat × SafePdu) := []
  /-- Backbone transmit: the newest PDU of each slot and the domain cycle it is for. -/
  pdus : Tab (SafePdu × Nat) := []
  /-- Transmit: the next PDU is the first one after a takeover. -/
  takeover : Bool := false
  /-- Ring connection: SEQ of the out PDU, and the in words checked last. -/
  txSeq : Nat := 0
  raw : List Nat := []
  /-- SENSOR: the report under way: its number, fragments, tick of its first fragment, and the fragments delivered. -/
  report : Option (Nat × Nat × Nat) := none
  frags : Tab (List Nat) := []
deriving DecidableEq, Repr

/-- What Bridle keeps of a function (R439 … R446). -/
structure BrdFunc where
  /-- Ticks of disagreement in a row; for TWO_HAND of an invalid combination, per hand. -/
  disc : Nat := 0
  disc2 : Nat := 0
  /-- Both channels have been at their non-OK level together since the fault. -/
  off : Bool := false
  /-- The OK condition held at the last cycle start. -/
  okBefore : Bool := false
  /-- Ticks for which the reset input has been active; a reset waits for the next cycle start. -/
  rst : Nat := 0
  edge : Bool := false
  /-- Tick at which each hand became actuated, and hands released since the function was last OK. -/
  actA : Option Nat := none
  actB : Option Nat := none
  relA : Bool := false
  relB : Bool := false
deriving DecidableEq, Repr

/-- What Bridle keeps of a zone (R447 … R452). -/
structure BrdZone where
  /-- A speed breach at the present tick: 0 none, 1 applies category 0, 2 applies SS1-t. -/
  viol : Nat := 0
  /-- Tick of the demand and speeds |v_0| then, by axis; tick at which STO bits were set. -/
  demAt : Nat := 0
  v0 : Tab Nat := []
  stoAt : Option Nat := none
deriving DecidableEq, Repr

/-- A safety parameter set (R464): its header values and its records by host address. -/
structure SpsSet where
  id : Nat
  crc : Nat
  ver : Nat
  recs : List (Nat × Nat)
deriving DecidableEq, Repr

/-- Bridle (R429 … R468) beside its registers and records. -/
structure BrdState where
  /-- The self-test after reset has ended; a safety parameter set is active. -/
  tested : Bool := false
  active : Bool := false
  staged : Option SpsSet := none
  /-- Tick at which the staged set becomes active, once accepted. -/
  accepted : Option Nat := none
  /-- Ticks processed since reset; the ticks follow domain time, and the re-step count when they last aligned. -/
  n : Nat := 0
  placed : Bool := false
  restep : Nat := 0
  /-- Tick of the last evaluation, on the running tick count. -/
  evalAt : Option Nat := none
  /-- Filter runs per input; last tick with a fault cause per input; inputs whose last test pulse showed a short. -/
  onRun : Tab Nat := []
  offRun : Tab Nat := []
  causeAt : Tab Nat := []
  short : Nat := 0
  /-- Ticks of readback mismatch per test-pulse source. -/
  tpRun : Tab Nat := []
  /-- Safe outputs: ticks since the last command, ticks read 0 while on, cycle starts with EN_SIG 0, restart allowed. -/
  outAge : Tab Nat := []
  outZero : Tab Nat := []
  enLow : Tab Nat := []
  armed : Nat := 0
  /-- Safe outputs in a dark test, and the count of the last one per output (R454). -/
  dark : Nat := 0
  darkC : Tab Nat := []
  /-- STO lines commanded, and ticks since the last change. -/
  sto : Nat := 0
  stoAge : Nat := 0
  funcs : Tab BrdFunc := []
  zones : Tab BrdZone := []
  /-- Encoder counts at the last two cycle starts, newest first, by encoder. -/
  encs : Tab (List Nat) := []
  /-- Correct signatures in a row (R461). -/
  sigRun : Nat := 0
  /-- Safe connections: 0 … 255 backbone receive, 256 … 511 backbone transmit, 512 + c ring connection c. -/
  conns : Tab SafeConn := []
  /-- PDU copies received since the last tick: network, producer and PDU. -/
  rx : List (Nat × Nat × SafePdu) := []
  /-- The newest verified report of each sensor, and the number of the last one. -/
  reports : Tab SensorReport := []
  serial : Nat := 0
  /-- Safe outputs carried over at the takeover, and the STO lines of the output shadow (R506). -/
  carry : Nat := 0
  carrySto : Nat := 0
deriving DecidableEq, Repr

/-- Field I/O beside its registers (R469 … R488). Outputs and inputs are bits of masks. -/
structure FioState where
  /-- Raw input levels as last reported. -/
  raw : Nat := 0
  /-- Levels asked for by the writers: signal (OWNER 0), calendar (1), Bridle (2), host (3). -/
  sigLevels : Nat := 0
  calLevels : Nat := 0
  safeLevels : Nat := 0
  hostLevels : Nat := 0
  /-- Outputs whose writer has given a first value (R474). -/
  given : Nat := 0
  /-- Host levels that apply at the next boundary: mask and levels (R488). -/
  hostMask : Nat := 0
  hostNext : Nat := 0
  /-- The first commit point has passed (R474). -/
  started : Bool := false
  /-- Groups that resume at the next boundary (R481, R483). -/
  resume : Nat := 0
  /-- Safe outputs that wait for FIO_REARM (R481, R483). -/
  rearm : Nat := 0
  /-- Outputs over their thermal limit now (R478). -/
  hot : Nat := 0
  /-- Per group: consecutive samples at or above 19.2 V, and below 15.0 V (R480, R481). -/
  goodRun : Tab Nat := []
  badRun : Tab Nat := []
  /-- Count of the last commit token, and tokens in a row since a silence (R482, R483). -/
  tokenC : Nat := 0
  tokenRun : Nat := 0
  /-- Output stages and readbacks at the last boundary, retracted switches left out (R473). -/
  bndOut : Nat := 0
  bndRb : Nat := 0
  bndIn : Nat := 0
deriving DecidableEq, Repr


/-- What a field die applies of one team from the next boundary (R496). -/
structure TeamShadow where
  enabled : Bool
  /-- The demands behind the active compares. -/
  act : List Int
  tripped : Bool := false
  tripSrc : Nat := 0
  forced : Bool := false
  demandLost : Bool := false
  /-- As in `TeamX.safe`. -/
  safe : Nat := 0
  sto : Bool := false
  /-- A stepper team: applied position and mode; its table address follows from the position (R224). -/
  sp : Int := 0
  strong : Bool := false
deriving DecidableEq, Repr

/-- An output shadow (R496): the epoch committed, the teams, the level of every field output, and Bridle's safe-output
commands and STO lines. -/
structure Shadow where
  epoch : Nat
  teams : Tab TeamShadow := []
  outs : Nat := 0
  safe : Nat := 0
  sto : Nat := 0
deriving DecidableEq, Repr

/-- What a snapshot holds of a safe connection (R360, R497). -/
structure ConnSnap where
  st : Nat
  seq : Nat
  ts : Nat
  txSeq : Nat
deriving DecidableEq, Repr

/-- A range of a named application region (R497): shared work memory, or the data memory of a core; byte offset and
length. -/
structure AppRegion where
  core : Option (Fin 16)
  off : Nat
  len : Nat
deriving DecidableEq, Repr

/-- A snapshot (R497): header, coordinates, event calendar, profile generator, loop engine, Sage, safe connections and
application regions. `regs` and `mem` are the status registers and record memories of these blocks. -/
structure Snapshot where
  seq : Nat
  epoch : Nat
  /-- CFG_COMPAT and SNAP_FMT as SEC_COMPAT shows them. -/
  compat : Nat
  /-- S, bytes. -/
  size : Nat
  /-- Held-run state: HELD_FROM, HELD_COUNT, cause, HELD_TOTAL. -/
  heldFrom : Nat := 0
  heldCount : Nat := 0
  heldCause : Nat := 0
  heldTotal : Nat := 0
  /-- The armed cut: its ID and epoch. -/
  cut : Option (Nat × Nat) := none
  coords : Tab Coord := []
  calEnabled : List Nat := []
  events : Tab EventMem := []
  switches : List Switch := []
  calSigs : Mem := []
  ringBits : Tab Bool := []
  axes : Tab PrfAx := []
  loops : Tab LoopAx := []
  /-- RUN of the profile generator, the loop engine, the event calendar and Sage. -/
  runs : List Bool := []
  sageId : Nat := 0
  sageResult : Option SageResult := none
  conns : Tab ConnSnap := []
  regs : Regs := []
  mem : Mem := []
  /-- The application regions with their bytes, at offsets from the start of each. -/
  app : List (AppRegion × Mem) := []
deriving DecidableEq, Repr

/-- A takeover under way (R504): D, L, S, the rebase epoch D + R_E and F; the snapshot has been restored. -/
structure Takeover where
  d : Nat
  l : Nat
  s : Nat
  rebase : Nat
  first : Nat
  restored : Bool := false
deriving DecidableEq, Repr

/-- Paired operation beside its registers (R489 … R512). -/
structure PairState where
  /-- The partner's newest health record (R495) and the count at which it came. -/
  peer : Option Health := none
  peerC : Nat := 0
  /-- The field dies drive their outputs (R491), and they hold them after REIN_HOLD has fallen (R493). -/
  driving : Bool := false
  gapHold : Bool := false
  /-- Count of the module's own assertion of REIN_HOLD. -/
  reinC : Nat := 0
  /-- The newest output shadow and the count at which it came; the last ones sent. -/
  shadow : Option Shadow := none
  shadowC : Nat := 0
  healthOut : Option Health := none
  shadowOut : Option Shadow := none
  /-- The snapshot being sent and the count at which its transfer began; the last SNAP_SEQ. -/
  sending : Option (Snapshot × Nat) := none
  seq : Nat := 0
  /-- The snapshot being received with the indices of its chunks that have arrived, and the newest verified one. -/
  rx : Option (Snapshot × List Nat) := none
  verified : Option Snapshot := none
  /-- Counts since which this module, and the partner, have been READY without a break. -/
  readyC : Option Nat := none
  peerReadyC : Option Nat := none
  /-- Count at which SHADOW_DIFF was last set; last safety cycle compared, and cycles in a row that differed. -/
  diffC : Option Nat := none
  diffCycle : Option Nat := none
  diffRun : Nat := 0
  /-- A test of the present rotation has failed. -/
  rotBad : Bool := false
  /-- PAIR_REVERT 0 is in force; PAIR_SWITCH waits with its mode. -/
  inhibit : Bool := false
  switchReq : Option Nat := none
  /-- A planned handover: its epoch L, and the standby has shown the snapshot verified. -/
  handover : Option Nat := none
  confirmed : Bool := false
  takeover : Option Takeover := none
  /-- Application regions of the configuration image (R497). -/
  regions : List AppRegion := []
deriving DecidableEq, Repr

/-- What cryptography and the flash make of a signed object (R552, R553): SHA-512 of its PUBKEY and of the object, whether
PUBKEY, r and s are valid and the signature verifies, and an uncorrectable flash read. -/
structure Verdict where
  keyHash : Nat := 0
  sha : Nat := 0
  sigOk : Bool := false
  readErr : Bool := false
deriving DecidableEq, Repr

/-- What a configuration image sets: register and record words by host address, memories by core, and what no register
holds. No chapter lays its body out. -/
structure ConfigImage where
  regs : List (Nat × Nat) := []
  mem : List (Nat × Nat) := []
  imem : Tab Mem := []
  dmem : Tab Mem := []
  pubs : List LocalPub := []
  subs : List Sub := []
  calPub : Option (Nat × Nat) := none
  pubAxes : List Nat := []
  ioMax : Nat := 0
  slots : List TlbSlot := []
  sched : List TlbRx := []
  commanders : List Nat := []
  peers : Tab TlbPeer := []
  expect : Tab (Tab NodeExpect) := []
  regions : List AppRegion := []
  /-- FPRINTs expected for the own producer (R560). -/
  ownFp : Nat × Nat := (0, 0)
  /-- Run bits (R576): LOOP_CTRL, PRF_CTRL, CAL_CTRL, OST_CTRL, SAGE_CTRL; TLB_START; the auto-start ports. -/
  runs : List Bool := []
  tlbStart : Bool := false
  rings : List Nat := []
deriving DecidableEq, Repr

/-- What the end of a boot stage brings from outside the registers (R572): its count, the supplies within their windows (R594),
a valid SFDP, the verdicts on banks 0 and 1 of the stage's kind, and the body of the selected configuration image or safety
parameter set. -/
structure StageEnd where
  c : Nat
  rails : Nat := 0xFF
  vfieldTp : Bool := true
  sfdpOk : Bool := true
  v0 : Verdict := {}
  v1 : Verdict := {}
  cfg : ConfigImage := {}
  recs : List (Nat × Nat) := []
deriving DecidableEq, Repr

/-- Identity, images and keys beside the registers (R549 … R564). -/
structure SecState where
  /-- The boot flash (R554), every byte inverted, so that erased bytes are not listed. -/
  flash : Mem := []
  /-- Hashes of the root keys in ROM and of the owner keys in fuses, by slot; root keys revoked (R549). -/
  rootHash : Tab Nat := []
  rootRevoked : Nat := 0
  ownerHash : Tab Nat := []
  /-- The identity certificate, by byte offset (R551). -/
  cert : Mem := []
  ownFp : Nat × Nat := (0, 0)
  /-- FPRINT of the last tack record that did not verify (R560). -/
  partnerFp : Nat := 0
  /-- The debug challenge that is valid, and the number of challenges made. -/
  nonce : Option Nat := none
  challenges : Nat := 0
  /-- Counts at which SEC_FLASH_STAGE, SEC_ROLLBACK_COMMIT and the reports being signed end. -/
  flashEnd : Nat := 0
  rollEnd : Nat := 0
  signEnds : List Nat := []
  /-- Kinds whose unselected bank waits for background verification. -/
  background : List Nat := []
  /-- Kinds with a selected bank. -/
  running : List Nat := []
deriving DecidableEq, Repr

/-- Reset and boot beside the registers (R565 … R580). -/
structure BootState where
  /-- nRST is low. -/
  nrstLow : Bool := true
  /-- The configuration image whose memories stage LOAD takes, and its run bits. -/
  cfg : Option ConfigImage := none
  /-- The PHY reset outputs have been released (R590); the timebase servo has been started (R572). -/
  phyUp : Bool := false
  servo : Bool := false
  /-- XSPI_nRST is low until this count (R571). -/
  xspiEnd : Nat := 0
  /-- The module has claimed REIN as a cold start and not committed yet (R577). -/
  cold : Bool := false
  /-- The count at which DEV_RESET resets the module (R580). -/
  resetAt : Option Nat := none
deriving DecidableEq, Repr

end Sys2Proof.Machine
end

