-- ==== Sys2Proof/Syntax.lean ====
section
/-!
DEFINITION. Syntax.lean: the commands of the block: one constructor of `Instr` per row of the opcode table (host
accesses, command packets, and the events of pins, frames, clocks and engines that the rows name), with its operands.
-/
namespace Sys2Proof
open Sys2Proof.Machine

/-- The commands of the block, one constructor per row of the opcode table, in its order. -/
inductive Instr where
  /-- REG_WRITE (R8): A host write to a register that has no behaviour of its own sets, clears or ignores its fields by access type. -/
  | regWrite (path : Path) (a v : Word) (full : Bool)
  /-- LATCHED_PAIR_READ (R10): A read of the low word of a 64-bit register pair latches the high word for the next high-word read. -/
  | latchedPairRead (path : Path) (a : Word)
  /-- COMMIT_POINT (R21): At each epoch boundary the epoch just executed commits, inputs are sampled and trace frames and cyclic releases start. -/
  | commitPoint
  /-- HOLD_EXPIRE (R43): A PF0 or PF1 hold that lasts HOLD_MAX epochs releases itself and sets that function's EXPIRED. -/
  | holdExpire (pf1 : Bool)
  /-- CMD_HOLD_EXPIRE (R43): A standing command hold that lasts HOLD_MAX epochs since the last IMG_HOLD ends, CMD_COUNT becomes 0 and CMD_EXPIRED is set. -/
  | cmdHoldExpire
  /-- CUT_EXPIRE (R46): A frozen cut held for IMG_CUT_MAX epochs releases, sets EXPIRED and returns to idle. -/
  | cutExpire
  /-- HOST_HOLD_SET (R41): Writing IMG_HOLD.HOLD = 1 activates the function's holder, pinning the present front; an SPI access acts on PF0's holder. -/
  | hostHoldSet (path : Path)
  /-- HOST_HOLD_CLEAR (R41): Writing IMG_HOLD.HOLD = 0 releases the function's holder. -/
  | hostHoldClear (path : Path)
  /-- EPOCH_DEADLINE (R22): At T_E − D every source not finished is an overrun and late work is abandoned. -/
  | epochDeadline
  /-- INTAKE_CLOSE (R24): At T_E − 1 µs the remote intake window of the image epoch closes and incomplete publications are discarded. -/
  | intakeClose
  /-- EPOCH_INFO (R50): Returns the epoch being executed, the front epoch, K and T0. -/
  | epochInfo (p : Packet)
  /-- IMG_HOLD (R43): Adds a standing command hold, increments CMD_COUNT and returns the pinned epoch. -/
  | imgHold (p : Packet)
  /-- IMG_RELEASE (R43): Decrements CMD_COUNT, ending the standing command hold at 0. -/
  | imgRelease (p : Packet)
  /-- IMG_READ (R51): Returns the values of a signal range from one image epoch under the command holder. -/
  | imgRead (p : Packet)
  /-- IMG_READ_REC (R51): Returns the publication record containing a signal ID, or an all-zero record. -/
  | imgReadRec (p : Packet)
  /-- CUT_ARM (R45): Arms a consistent cut with an ID and target base period, or returns OK, BUSY or PAST by its ordered checks. -/
  | cutArm (p : Packet)
  /-- CUT_RELEASE (R46): Releases a frozen cut or cancels an armed cut of the same ID. -/
  | cutRelease (p : Packet)
  /-- CUT_STATUS (R50): Returns IMG_CUT_STAT, IMG_CUT_ID and IMG_CUT_EPOCH. -/
  | cutStatus (p : Packet)
  /-- EPOCH_SET_MARGIN (R22): Privileged command that sets the epoch deadline margin D. -/
  | epochSetMargin (p : Packet)
  /-- CALENDAR_LATCH (R61): At boundary + 10 µs the calendar latches all coordinate samples. -/
  | calendarLatch
  /-- CALENDAR_EVALUATION (R61): At boundary + 13 µs the calendar evaluates every enabled event in ascending index. -/
  | calendarEvaluation
  /-- SWITCH_INSTANT (R63): A scheduled switch reaches its 10 ns instant and the output stage switches. -/
  | switchInstant
  /-- COORD_CFG_WRITE (R53): A COORD_CFG write enables, disables or reconfigures a coordinate, or is ignored with BAD_CFG. -/
  | coordCfgWrite (path : Path) (n : Fin 8) (v : Word)
  /-- CAL_ENTRY_ENABLE_WRITE (R81): A register write setting ENABLE in word 0 of a disabled entry enables it after the checks, or sets BAD_ENABLE. -/
  | calEntryEnableWrite (path : Path) (i : Fin 4096) (v : Word)
  /-- COORD_READ (R80): Returns S_N, v_f, COORD_STAT and sample epoch of a coordinate. -/
  | coordRead (p : Packet)
  /-- COORD_PRESET (R57): Requests a preset of a coordinate at its next enabled boundary. -/
  | coordPreset (p : Packet)
  /-- CAL_WRITE (R81): Writes words of a disabled event entry, or returns BUSY for an enabled one. -/
  | calWrite (p : Packet)
  /-- CAL_READ (R80): Returns a range of event entries. -/
  | calRead (p : Packet)
  /-- CAL_ENABLE (R81): Enables or disables a range of events all-or-nothing after the checks. -/
  | calEnable (p : Packet)
  /-- CAL_COUNTERS (R80): Returns the six calendar counters. -/
  | calCounters (p : Packet)
  /-- RATE_POINT (R85): At the next multiple of 15 625 ns of domain time a new anchor is set and a new rate loaded. -/
  | ratePoint
  /-- DOMAIN_TIME_READ (R84): A read of TB_DT_LO computes D and latches TB_DT_HI and TB_DT_FRAC. -/
  | domainTimeRead (path : Path)
  /-- SYNC_RECEIVE (R92): A valid one-step Sync is received and used by the servo on the slave port and forwarded. -/
  | syncReceive (port : Fin 4) (m : PtpMsg) (cMac cOut : Nat)
  /-- SYNC_TIMEOUT (R89): No valid Sync for ANN_TIMEOUT intervals moves SLEW to FREE or LOCKED to HOLDOVER. -/
  | syncTimeout
  /-- ANNOUNCE_RECEIVE (R97): An Announce feeds best-master selection and is forwarded unchanged. -/
  | announceReceive (port : Fin 4) (m : PtpMsg)
  /-- ANNOUNCE_TIMEOUT (R97): announceReceiptTimeout expires and selection may pick this device as grandmaster. -/
  | announceTimeout (port : Fin 4)
  /-- GM_SETTLE_END (R89): GM_SETTLE announce intervals elapsed with a seed written: D_A steps to the seed and the device becomes GM. -/
  | gmSettleEnd
  /-- SYNC_SEND (R95): As grandmaster the device sends a one-step Sync each sync interval. -/
  | syncSend
  /-- ANNOUNCE_SEND (R95): In GM_SETTLE or GM the device sends Announce each announce interval. -/
  | announceSend
  /-- PDELAY_REQ_SEND (R95): Each port sends a Pdelay_Req every 2^LOG_PDELAY s. -/
  | pdelayReqSend (port : Fin 4)
  /-- PDELAY_REQ_RECEIVE (R95): A received Pdelay_Req is answered on that port with a one-step Pdelay_Resp. -/
  | pdelayReqReceive (port : Fin 4) (m : PtpMsg) (cMac cOut : Nat)
  /-- PDELAY_RESP_RECEIVE (R98): A Pdelay_Resp completes a peer delay measurement of the port. -/
  | pdelayRespReceive (port : Fin 4) (m : PtpMsg) (cMac : Nat)
  /-- PDELAY_RESP_FOLLOW_UP_RECEIVE (R95): A Pdelay_Resp_Follow_Up completes a two-step peer delay measurement. -/
  | pdelayRespFollowUpReceive (port : Fin 4) (m : PtpMsg)
  /-- PTP_OTHER_RECEIVE (R95): Other PTP messages are ignored, forwarded or dropped and counted in TB_PTP_IGN. -/
  | ptpOtherReceive (port : Fin 4) (m : PtpMsg)
  /-- TIME_INFO (R104): Returns TB_STATE, D, C, r, e and TB_ERR_EST. -/
  | timeInfo (p : Packet)
  /-- TIME_SEED (R105): Writes the grandmaster seed, or returns BUSY or BAD_PARAM. -/
  | timeSeed (p : Packet)
  /-- TIME_RESTEP (R103): Accepts a privileged re-step that applies at the next rate point. -/
  | timeRestep (p : Packet)
  /-- PTP_STATUS (R104): Returns the status, link delay, grandmaster identity and counters of a port. -/
  | ptpStatus (p : Packet)
  /-- TIME_CONVERT (R105): Converts a count to domain time under the kept anchors. -/
  | timeConvert (p : Packet)
  /-- LOCAL_READY (R119): At READY_NS after the boundary the LOCAL feedback group becomes ready. -/
  | localReady
  /-- LOOP_PASS (R120): The loop engine runs one pass over the due axes of a ready group, one pass at a time. -/
  | loopPass (corr : Nat) (memErr : List Nat)
  /-- COEFF_WINDOW_WRITE (R134): A privileged write to loop memory updates an inactive bank or disabled axis state, or is ignored and counted. -/
  | coeffWindowWrite (path : Path) (w : Fin 131072) (v : Word)
  /-- LOOP_INFO (R140): Returns loop engine status, busy times and counters. -/
  | loopInfo (p : Packet)
  /-- LOOP_ENABLE (R137): Enables or disables axes at the next boundary all-or-nothing after bank checks. -/
  | loopEnable (p : Packet)
  /-- LOOP_SWAP (R135): Schedules a bank change for named axes at epoch E with a state mode. -/
  | loopSwap (p : Packet)
  /-- LOOP_FAULT_CLEAR (R128): Clears FE faults and FB_LOST faults whose feedback is present, reporting refused axes. -/
  | loopFaultClear (p : Packet)
  /-- LOOP_AXIS_READ (R141): Returns the status, output, following error and positions of one axis. -/
  | loopAxisRead (p : Packet)
  /-- TRC_CTRL_ARM (R148): Writing TRC_CTRL.ARM arms the capture at the next boundary. -/
  | trcCtrlArm
  /-- TRC_CTRL_STOP (R151): Writing TRC_CTRL.STOP stops the capture at the next commit point. -/
  | trcCtrlStop
  /-- TRC_CTRL_TRIG (R149): Writing TRC_CTRL.TRIG gives a command trigger. -/
  | trcCtrlTrig
  /-- TRC_GEOMETRY_WRITE (R147): A geometry write in IDLE or DONE resets the capture, otherwise it is ignored with LEN_BUSY. -/
  | trcGeometryWrite (sel : Fin 19) (v : Word)
  /-- TRC_INFO (R158): Returns the trace status and pointers. -/
  | trcInfo (p : Packet)
  /-- TRC_SETUP (R159): Sets the trace geometry and trigger all-or-nothing. -/
  | trcSetup (p : Packet)
  /-- TRC_ARM (R148): Arms the capture and returns N_arm. -/
  | trcArm (p : Packet)
  /-- TRC_TRIGGER (R149): Gives a command trigger while ARMED. -/
  | trcTrigger (p : Packet)
  /-- TRC_STOP (R151): Stops the capture at the next commit point. -/
  | trcStop (p : Packet)
  /-- TRC_READ (R153): Returns captured rows in time order from the mark in DONE. -/
  | trcRead (p : Packet) (unc : Nat)
  /-- INJ_START (R155): Starts an injector at epoch E after its checks. -/
  | injStart (p : Packet)
  /-- INJ_STOP (R155): Stops an injector and returns the samples produced. -/
  | injStop (p : Packet)
  /-- GENERATOR_INSTANT (R166): The profile generator applies changes in order and computes sp(N+1) and sp*(N+2) for every axis. -/
  | generatorInstant
  /-- PRF_PARAM_RECORD_WRITE (R189): A parameter record write takes effect at the next generator instant or is refused with PARAM_BAD. -/
  | prfParamRecordWrite (path : Path) (a : Fin 128) (w : Fin 16) (vs : List Word)
  /-- PRF_INFO (R190): Returns PRF_STAT, PRF_BUSY and PRF_WDRAW_CNT. -/
  | prfInfo (p : Packet)
  /-- PRF_START (R172): Starts a profile slot on an axis from the state of sp(N). -/
  | prfStart (p : Packet)
  /-- PRF_TARGET (R191): Sets a new target for an axis in TIME or COORD mode. -/
  | prfTarget (p : Packet)
  /-- PRF_LIMITS (R191): Sets new V, A, D and J for an axis in TIME or COORD mode. -/
  | prfLimits (p : Packet)
  /-- PRF_STOP (R176): Requests a STOP or QSTOP on the named axes. -/
  | prfStop (p : Packet)
  /-- GEAR_START (R184): Engages an axis at rest in GEAR with an implicit entry. -/
  | gearStart (p : Packet)
  /-- GEAR_ARM (R183): Arms or disarms a gear entry of an axis in GEAR mode. -/
  | gearArm (p : Packet)
  /-- PLAN_START (R297): Puts named axes into PLAN mode, refusing axes not in the knot map. -/
  | planStart (p : Packet)
  /-- PRF_RELEASE (R176): Releases the latched stop kind of axes at rest. -/
  | prfRelease (p : Packet)
  /-- PRF_AXIS_READ (R191): Returns the profile state of one axis of one epoch. -/
  | prfAxisRead (p : Packet)
  /-- PRF_PARAM_WRITE (R189): Privileged command that writes an axis parameter record. -/
  | prfParamWrite (p : Packet)
  /-- PERIOD_BOUNDARY (R198): At each PWM period boundary compares load from their shadows and edges restart. -/
  | periodBoundary (t : Fin 24)
  /-- DEMAND_HOLD_EXPIRE (R201): After HOLD_EPOCHS with a demand or set-point still missing the team enters safe state and latches DEMAND_LOST. -/
  | demandHoldExpire (t : Fin 24)
  /-- TRIP_PIN (R216): A qualified trip pin pulse trips the team through the asynchronous path to safe state. -/
  | tripPin (t : Fin 24)
  /-- GTRIP_INPUT (R214): A global trip pulse trips every team its mask names. -/
  | gtripInput (g : Fin 4)
  /-- HALL_CODE_CHANGE (R205): A Hall code stable for HALL_FILT applies its commutation entry at the next tick. -/
  | hallCodeChange (e : Fin 24) (code : Fin 8)
  /-- ADC_TRIGGER (R208): An ADC compare triggers a conversion, queued when the converter is busy. -/
  | adcTrigger (t : Fin 24) (j : Fin 4)
  /-- ADC_CONVERSION_DONE (R206): A conversion delivers its sample 250 ns after its start. -/
  | adcConversionDone (c : Fin 8) (raw : BitVec 16)
  /-- ENC_INDEX_LATCH (R211): A Z rising edge latches the count into ENC_INDEX. -/
  | encIndexLatch (e : Fin 24)
  /-- SSI_FRAME_DONE (R212): A complete SSI frame delivers the position count of the epoch. -/
  | ssiFrameDone (e : Fin 24) (data : Word) (good : Bool)
  /-- TEAM_CTRL_FORCE_TRIP (R214): Writing TEAM_CTRL.FORCE_TRIP trips the team. -/
  | teamCtrlForceTrip (path : Path) (t : Fin 24)
  /-- TEAM_CTRL_TRIP_CLEAR (R218): Writing TEAM_CTRL.TRIP_CLEAR clears the trip if its conditions hold, else sets CLEAR_REFUSED. -/
  | teamCtrlTripClear (path : Path) (t : Fin 24)
  /-- TEAM_INFO (R220): Returns TEAM_TRIPPED and TEAM_STO. -/
  | teamInfo (p : Packet)
  /-- TEAM_CONFIG (R221): Configures a disabled team all-or-nothing. -/
  | teamConfig (p : Packet)
  /-- TEAM_ENABLE (R221): Enables or disables teams at the next boundary. -/
  | teamEnable (p : Packet)
  /-- TEAM_TRIP_CLEAR (R218): Clears trips of named teams under the clear conditions and returns the refused mask. -/
  | teamTripClear (p : Packet)
  /-- TEAM_FORCE_TRIP (R214): Trips the named teams. -/
  | teamForceTrip (p : Packet)
  /-- TEAM_READ (R221): Returns the status, on-times and counters of one team. -/
  | teamRead (p : Packet)
  /-- ADC_READ (R220): Returns epoch samples of a range of ADC inputs. -/
  | adcRead (p : Packet)
  /-- ENC_READ (R220): Returns count, index and status of one encoder. -/
  | encRead (p : Packet)
  /-- TSTILL_EXPIRE (R226): After TSTILL epochs without a change the amplitude drops to IHOLD. -/
  | tstillExpire (t : Fin 24)
  /-- CHOP_BLANK_END (R228): BLANK ticks after turn-on the phase comparator is armed. -/
  | chopBlankEnd (t : Fin 24) (phaseB : Bool)
  /-- CHOP_COMPARATOR_SWITCH (R228): The window comparator reaching its threshold moves the phase to FAST or SLOW. -/
  | chopComparatorSwitch (t : Fin 24) (phaseB : Bool) (tick : Nat)
  /-- CHOP_FAST_END (R228): After FAST_T ticks the phase goes from FAST to SLOW. -/
  | chopFastEnd (t : Fin 24) (phaseB : Bool)
  /-- LOAD_ANGLE_ESTIMATE (R231): At boundary + 2 µs the field die estimates load angle and EMF of a stepper. -/
  | loadAngleEstimate (t : Fin 24)
  /-- STEP_CONFIG (R237): Configures a disabled MODE 3 team's stepper settings. -/
  | stepConfig (p : Packet)
  /-- STEP_CURRENT (R236): Sets IRUN and IHOLD of named stepper teams from the next boundary. -/
  | stepCurrent (p : Packet)
  /-- STEP_READ (R237): Returns the stepper state of one team of one epoch. -/
  | stepRead (p : Packet)
  /-- PDK_CYCLE_START (R239): At each 500 µs cycle start the monitor latches intruder reports and joint positions. -/
  | pdkCycleStart
  /-- SENSOR_STALE (R249): A sensor without a fresh report for AGE_MAX cycles is stale and stops its arms. -/
  | sensorStale (sensor : Fin 16)
  /-- PDK_COMPUTATION_DONE (R241): The coded and plain computation finishes, is compared and releases caps, stops and signature. -/
  | pdkComputationDone (ns : Nat) (fault : Bool)
  /-- PDK_AUTO_RELEASE (R263): With AUTO_REL the arm cap above 0 for RESTART_DWELL cycles places a release request. -/
  | pdkAutoRelease (arm : Fin 16)
  /-- PDK_SELFTEST_END (R243): After two SELFTEST cycles the monitor enters RUN. -/
  | pdkSelftestEnd
  /-- PDK_INFO (R270): Returns monitor status and global values. -/
  | pdkInfo (p : Packet)
  /-- PDK_ARM_READ (R270): Returns the status values of one arm. -/
  | pdkArmRead (p : Packet)
  /-- PDK_INTR_READ (R270): Returns intruder table entries of the last cycle. -/
  | pdkIntrRead (p : Packet)
  /-- PDK_PADDOCK_READ (R270): Returns the status of one paddock. -/
  | pdkPaddockRead (p : Packet)
  /-- PDK_RELEASE (R271): Places release requests for named arms without present causes. -/
  | pdkRelease (p : Packet)
  /-- PDK_RESTART (R271): Leaves FAULT through SELFTEST. -/
  | pdkRestart (p : Packet)
  /-- SAGE_LATCH (R285): At a coordination cycle boundary Sage switches structure, applies deltas and bindings and checks values. -/
  | sageLatch (memErr : Bool)
  /-- SAGE_ITERATION (R287): One predictor-corrector iteration completes on the granted lanes and tests convergence. -/
  | sageIteration (memErr : Bool)
  /-- SAGE_SOLVE_DEADLINE (R289): At D_S no further iteration runs and an unconverged solve is a miss. -/
  | sageSolveDeadline
  /-- SAGE_ANALYSIS_DONE (R280): Background analysis of a staged structure ends with READY or REFUSED. -/
  | sageAnalysisDone
  /-- SAGE_CTRL_COLD_NEXT (R286): Writing SAGE_CTRL.COLD_NEXT makes the next solve start cold. -/
  | sageCtrlColdNext (path : Path) (v : Word)
  /-- SAGE_INFO (R303): Returns Sage status, result and structure information. -/
  | sageInfo (p : Packet)
  /-- SAGE_STRUCT_LOAD (R304): Copies a structure image to the staged slot and starts its analysis. -/
  | sageStructLoad (p : Packet)
  /-- SAGE_STRUCT_COMMIT (R282): Commits the staged structure for a future cycle. -/
  | sageStructCommit (p : Packet)
  /-- SAGE_DELTA (R283): Queues delta entries for the next latch. -/
  | sageDelta (p : Packet)
  /-- SAGE_READ (R304): Returns values of the stored result of one cycle. -/
  | sageRead (p : Packet)
  /-- SAGE_COLD (R304): Sets SAGE_CTRL.COLD_NEXT. -/
  | sageCold (p : Packet)
  /-- TRACE_FRAME_RETURN (R315): A returned trace frame completes, its slots are judged and its ring group becomes ready. -/
  | traceFrameReturn (p : Fin 4) (f : TraceFrame) (cIn readyNs : Nat)
  /-- CLOSURE_END (R334): 64 consecutive good returns end closure. -/
  | closureEnd (p : Fin 4)
  /-- PARTNER_FRAME_TURN (R307): The partner module turns an outbound frame and reports T_turn. -/
  | partnerFrameTurn (p : Fin 4) (f : TraceFrame) (cOut : Nat)
  /-- TACK_CLOSURE_RECORD (R334): A closure or turn-time record arrives over the tack link. -/
  | tackClosureRecord (p : Fin 4) (r : TackRec)
  /-- CRD_LINK_CHANGE (R305): A ring port link goes up or down. -/
  | crdLinkChange (p : Fin 4) (up rightMode : Bool)
  /-- CRD_START_PHASE (R331): A ring start phase completes or fails and the next phase begins. -/
  | crdStartPhase (p : Fin 4) (timeUp : Bool) (meas : List (Int × Int))
  /-- ACYC_TIMEOUT (R321): An acyclic request without response is retried twice and then fails with TIMEOUT. -/
  | acycTimeout (p : Fin 4)
  /-- NODE_FRAME_RECEIVE (R314): A node processes the first outbound frame of the epoch, its slots, HOP and alignment, and forwards or turns it. -/
  | nodeFrameReceive (ring : Fin 4) (pos : Fin 126) (fromU ours : Bool) (a : Nat) (f : TraceFrame) (sample : List (Nat × Nat))
  /-- NODE_APPLY (R320): At the apply instant the node makes DATA out words effective and judges frame validity. -/
  | nodeApply (ring : Fin 4) (pos : Fin 126)
  /-- NODE_TIMED_SWITCH (R319): A node sets an output bit at the offset of a TIMED entry. -/
  | nodeTimedSwitch (ring : Fin 4) (pos : Fin 126)
  /-- NODE_HOLD_EXPIRE (R330): NODE_HOLD epochs without out data bring a slot or node to its safe state. -/
  | nodeHoldExpire (ring : Fin 4) (pos : Fin 126)
  /-- NODE_LINK_DOWN (R332): A node whose link goes down turns frames and writes TURN_POS. -/
  | nodeLinkDown (ring : Fin 4) (pos : Fin 126) (upstream : Bool)
  /-- NODE_RESET (R329): Power-on or node reset returns the node to OFFLINE. -/
  | nodeReset (ring : Fin 4) (pos : Fin 126)
  /-- ACYC_READ (R321): A node answers an acyclic READ with two registers. -/
  | acycRead (ring : Fin 4) (pos : Fin 126)
  /-- ACYC_WRITE (R322): A node executes an acyclic WRITE or answers REFUSED. -/
  | acycWrite (ring : Fin 4) (pos : Fin 126)
  /-- ACYC_ADDRESS (R321): An ADDRESS broadcast numbers each node HOP + 1. -/
  | acycAddress (ring : Fin 4) (pos : Fin 126)
  /-- ACYC_STATE (R329): A STATE request moves the node to READY, RUN or SAFE when allowed. -/
  | acycState (ring : Fin 4) (pos : Fin 126)
  /-- CRD_INFO (R335): Returns CRD_STAT and each port's status. -/
  | crdInfo (p : Packet)
  /-- CRD_START (R336): Brings up a ring in its phases and replies at phase 7 or on failure. -/
  | crdStart (p : Packet)
  /-- CRD_STOP (R336): Sends a SAFE broadcast and stops sending at the next boundary. -/
  | crdStop (p : Packet)
  /-- CRD_PORT_READ (R335): Returns port status, timing and counters. -/
  | crdPortRead (p : Packet)
  /-- CRD_SLOT_READ (R336): Returns slot status words of one epoch. -/
  | crdSlotRead (p : Packet)
  /-- CRD_NODE_READ (R336): Reads a node register through an acyclic request. -/
  | crdNodeRead (p : Packet)
  /-- CRD_NODE_WRITE (R336): Writes a node register through an acyclic request. -/
  | crdNodeWrite (p : Packet)
  /-- CRD_NODE_STATE (R336): Requests a node state change. -/
  | crdNodeState (p : Packet)
  /-- TLB_CYCLE_START (R342): A domain cycle starts and the backbone state advances. -/
  | tlbCycleStart
  /-- TLB_MEMBER_ENTRY (R362): After JOIN_CYCLES cycles in JOINING the device becomes MEMBER. -/
  | tlbMemberEntry
  /-- TLB_SLOT_START (R343): An own slot starts and the device decides muting and its frames. -/
  | tlbSlotStart (slot : Fin 16)
  /-- TLB_FRAME_SEND (R344): A listed frame leaves on both networks at its send offset. -/
  | tlbFrameSend (busy : List Nat)
  /-- TLB_GATE_CLOSE (R346): The transmit gate closes at slot end − G and a frame in progress is cut with a bad FCS. -/
  | tlbGateClose
  /-- TLB_FRAME_FORWARD (R339): A received Tilbor frame is forwarded cut-through to the other port of the network. -/
  | tlbFrameForward (port : Fin 4) (f : TlbFrame) (cIn : Nat)
  /-- DATA_FRAME_RECEIVE (R350): A DATA frame passing the checks is consumed toward a subscribed publication. -/
  | dataFrameReceive (port : Fin 4) (f : TlbFrame) (cIn : Nat)
  /-- SAFE_FRAME_RECEIVE (R350): A SAFE frame passing the checks hands its PDUs to Bridle. -/
  | safeFrameReceive (port : Fin 4) (f : TlbFrame) (cIn : Nat)
  /-- CMD_FRAME_RECEIVE (R545): A CMD frame's envelopes addressed to this producer are executed or replies delivered. -/
  | cmdFrameReceive (port : Fin 4) (f : TlbFrame) (cIn : Nat)
  /-- JOIN_FRAME_RECEIVE (R364): A JOIN frame moves an UNKNOWN peer to VERIFYING. -/
  | joinFrameReceive (port : Fin 4) (f : TlbFrame) (cIn : Nat)
  /-- JOIN_VERIFY_DONE (R364): JOIN verification ends with ADMITTED or REFUSED. -/
  | joinVerifyDone (producer : Fin 4096) (sigOk : Bool)
  /-- TLB_LINK_CHANGE (R337): A Tilbor port link goes up or down. -/
  | tlbLinkChange (port : Fin 4) (up : Bool) (speed : Fin 3)
  /-- TLB_ATTEST_TIMEOUT (R366): An attestation reply not received in 16 domain cycles gives TIMEOUT. -/
  | tlbAttestTimeout
  /-- TLB_INFO (R367): Returns backbone status and global counters. -/
  | tlbInfo (p : Packet)
  /-- TLB_PORT_READ (R367): Returns the counters of one port. -/
  | tlbPortRead (p : Packet)
  /-- TLB_PEER_READ (R368): Returns peer states. -/
  | tlbPeerRead (p : Packet)
  /-- TLB_START (R362): Moves the backbone from OFF to LISTEN. -/
  | tlbStart (p : Packet)
  /-- TLB_STOP (R362): Returns the backbone to OFF at the next cycle start. -/
  | tlbStop (p : Packet)
  /-- TLB_SAFE_READ (R367): Returns the status words of one safe connection. -/
  | tlbSafeRead (p : Packet)
  /-- TLB_ATTEST (R366): Sends an attestation request to an admitted peer. -/
  | tlbAttest (p : Packet)
  /-- ADD (R378): Writes a + b. -/
  | add (x : HkIssue) (d a b : Fin 32)
  /-- SUB (R378): Writes a − b. -/
  | sub (x : HkIssue) (d a b : Fin 32)
  /-- AND (R378): Writes a & b. -/
  | and_ (x : HkIssue) (d a b : Fin 32)
  /-- OR (R378): Writes a | b. -/
  | or_ (x : HkIssue) (d a b : Fin 32)
  /-- XOR (R378): Writes a ^ b. -/
  | xor (x : HkIssue) (d a b : Fin 32)
  /-- SHL (R378): Shifts a left by b[4:0]. -/
  | shl (x : HkIssue) (d a b : Fin 32)
  /-- SHR (R378): Shifts a right logically by b[4:0]. -/
  | shr (x : HkIssue) (d a b : Fin 32)
  /-- SAR (R378): Shifts a right arithmetically by b[4:0]. -/
  | sar (x : HkIssue) (d a b : Fin 32)
  /-- CLT (R378): Writes 1 if a < b signed. -/
  | clt (x : HkIssue) (d a b : Fin 32)
  /-- CLTU (R378): Writes 1 if a < b unsigned. -/
  | cltu (x : HkIssue) (d a b : Fin 32)
  /-- MUL (R378): Writes the low 32 bits of a × b. -/
  | mul (x : HkIssue) (d a b : Fin 32)
  /-- MULHS (R378): Writes the high 32 bits of the signed product. -/
  | mulhs (x : HkIssue) (d a b : Fin 32)
  /-- MULHU (R378): Writes the high 32 bits of the unsigned product. -/
  | mulhu (x : HkIssue) (d a b : Fin 32)
  /-- ADDSAT (R378): Writes a + b saturated. -/
  | addsat (x : HkIssue) (d a b : Fin 32)
  /-- SUBSAT (R378): Writes a − b saturated. -/
  | subsat (x : HkIssue) (d a b : Fin 32)
  /-- MIN (R378): Writes the signed minimum. -/
  | min (x : HkIssue) (d a b : Fin 32)
  /-- MAX (R378): Writes the signed maximum. -/
  | max (x : HkIssue) (d a b : Fin 32)
  /-- CLZ (R378): Writes the leading zeros of a. -/
  | clz (x : HkIssue) (d a : Fin 32)
  /-- ADD_K (R379): Writes a + sext(K16). -/
  | addK (x : HkIssue) (d a : Fin 32) (k : BitVec 16)
  /-- AND_K (R379): Writes a & zext(K16). -/
  | andK (x : HkIssue) (d a : Fin 32) (k : BitVec 16)
  /-- OR_K (R379): Writes a | zext(K16). -/
  | orK (x : HkIssue) (d a : Fin 32) (k : BitVec 16)
  /-- XOR_K (R379): Writes a ^ zext(K16). -/
  | xorK (x : HkIssue) (d a : Fin 32) (k : BitVec 16)
  /-- CLT_K (R379): Writes 1 if a < sext(K16) signed. -/
  | cltK (x : HkIssue) (d a : Fin 32) (k : BitVec 16)
  /-- MOVH (R379): Writes K16 << 16. -/
  | movh (x : HkIssue) (d : Fin 32) (k : BitVec 16)
  /-- SHL_K (R379): Shifts a left by K16[4:0]. -/
  | shlK (x : HkIssue) (d a k : Fin 32)
  /-- SHR_K (R379): Shifts a right logically by K16[4:0]. -/
  | shrK (x : HkIssue) (d a k : Fin 32)
  /-- SAR_K (R379): Shifts a right arithmetically by K16[4:0]. -/
  | sarK (x : HkIssue) (d a k : Fin 32)
  /-- LD_W (R380): Loads a word. -/
  | ldW (x : HkIssue) (d a : Fin 32) (k : BitVec 16)
  /-- LD_H (R380): Loads a sign-extended halfword. -/
  | ldH (x : HkIssue) (d a : Fin 32) (k : BitVec 16)
  /-- LD_HU (R380): Loads a zero-extended halfword. -/
  | ldHu (x : HkIssue) (d a : Fin 32) (k : BitVec 16)
  /-- LD_B (R380): Loads a sign-extended byte. -/
  | ldB (x : HkIssue) (d a : Fin 32) (k : BitVec 16)
  /-- LD_BU (R380): Loads a zero-extended byte. -/
  | ldBu (x : HkIssue) (d a : Fin 32) (k : BitVec 16)
  /-- ST_W (R380): Stores a word. -/
  | stW (x : HkIssue) (d a : Fin 32) (k : BitVec 16)
  /-- ST_H (R380): Stores a halfword. -/
  | stH (x : HkIssue) (d a : Fin 32) (k : BitVec 16)
  /-- ST_B (R380): Stores a byte. -/
  | stB (x : HkIssue) (d a : Fin 32) (k : BitVec 16)
  /-- LD_WP (R381): Loads a word at a and post-modifies a, optionally modulo. -/
  | ldWp (x : HkIssue) (d a : Fin 32) (mb : Fin 3) (step : BitVec 12)
  /-- ST_WP (R381): Stores a word at a and post-modifies a, optionally modulo. -/
  | stWp (x : HkIssue) (d a : Fin 32) (mb : Fin 3) (step : BitVec 12)
  /-- ATOM_SWAP (R382): Atomically reads a shared word and writes b. -/
  | atomSwap (x : HkIssue) (d a b : Fin 32)
  /-- ATOM_ADD (R382): Atomically reads a shared word and writes old + b. -/
  | atomAdd (x : HkIssue) (d a b : Fin 32)
  /-- ATOM_OR (R382): Atomically reads a shared word and writes old | b. -/
  | atomOr (x : HkIssue) (d a b : Fin 32)
  /-- ATOM_AND (R382): Atomically reads a shared word and writes old & b. -/
  | atomAnd (x : HkIssue) (d a b : Fin 32)
  /-- BR_EQ (R383): Branches when a = b, with two delay slots. -/
  | brEq (x : HkIssue) (a b : Fin 32) (k : BitVec 16)
  /-- BR_NE (R383): Branches when a ≠ b. -/
  | brNe (x : HkIssue) (a b : Fin 32) (k : BitVec 16)
  /-- BR_LT (R383): Branches when a < b signed. -/
  | brLt (x : HkIssue) (a b : Fin 32) (k : BitVec 16)
  /-- BR_GE (R383): Branches when a ≥ b signed. -/
  | brGe (x : HkIssue) (a b : Fin 32) (k : BitVec 16)
  /-- BR_LTU (R383): Branches when a < b unsigned. -/
  | brLtu (x : HkIssue) (a b : Fin 32) (k : BitVec 16)
  /-- BR_GEU (R383): Branches when a ≥ b unsigned. -/
  | brGeu (x : HkIssue) (a b : Fin 32) (k : BitVec 16)
  /-- JMP (R383): Jumps PC-relative after two delay slots. -/
  | jmp (x : HkIssue) (k : BitVec 26)
  /-- CALL (R383): Jumps PC-relative and writes PC + 12 to h30. -/
  | call (x : HkIssue) (k : BitVec 26)
  /-- JMPR (R383): Jumps to the address in a. -/
  | jmpr (x : HkIssue) (a : Fin 32)
  /-- CALLR (R383): Jumps to the address in a and writes PC + 12 to h30. -/
  | callr (x : HkIssue) (a : Fin 32)
  /-- REP (R392): Executes the following body COUNT times without overhead. -/
  | rep (x : HkIssue) (a : Fin 32) (count : Fin 1024) (len : Fin 32)
  /-- FADD (R388): Binary32 addition. -/
  | fadd (x : HkIssue) (d a b : Fin 32)
  /-- FSUB (R388): Binary32 subtraction. -/
  | fsub (x : HkIssue) (d a b : Fin 32)
  /-- FMUL (R388): Binary32 multiplication. -/
  | fmul (x : HkIssue) (d a b : Fin 32)
  /-- FDIV (R388): Binary32 division. -/
  | fdiv (x : HkIssue) (d a b : Fin 32)
  /-- FSQRT (R388): Binary32 square root. -/
  | fsqrt (x : HkIssue) (d a : Fin 32)
  /-- FMIN (R387): Binary32 minimum. -/
  | fmin (x : HkIssue) (d a b : Fin 32)
  /-- FMAX (R387): Binary32 maximum. -/
  | fmax (x : HkIssue) (d a b : Fin 32)
  /-- FABS (R388): Clears the sign bit. -/
  | fabs (x : HkIssue) (d a : Fin 32)
  /-- FNEG (R388): Inverts the sign bit. -/
  | fneg (x : HkIssue) (d a : Fin 32)
  /-- FCEQ (R387): Writes 1 if a = b. -/
  | fceq (x : HkIssue) (d a b : Fin 32)
  /-- FCLT (R387): Writes 1 if a < b. -/
  | fclt (x : HkIssue) (d a b : Fin 32)
  /-- FCLE (R387): Writes 1 if a ≤ b. -/
  | fcle (x : HkIssue) (d a b : Fin 32)
  /-- FTOI (R388): Converts to int32 truncating. -/
  | ftoi (x : HkIssue) (d a : Fin 32)
  /-- FTOIN (R388): Converts to int32 rounding to nearest even. -/
  | ftoin (x : HkIssue) (d a : Fin 32)
  /-- ITOF (R388): Converts an int32 to binary32. -/
  | itof (x : HkIssue) (d a : Fin 32)
  /-- FMA (R388): Fused a × b + c. -/
  | fma (x : HkIssue) (d a b c : Fin 32)
  /-- FMS (R388): Fused a × b − c. -/
  | fms (x : HkIssue) (d a b c : Fin 32)
  /-- FNMA (R388): Fused −(a × b) + c. -/
  | fnma (x : HkIssue) (d a b c : Fin 32)
  /-- MAC (R390): Adds a × b to the accumulator. -/
  | mac (x : HkIssue) (acc : Fin 4) (a b : Fin 32)
  /-- MSB (R390): Subtracts a × b from the accumulator. -/
  | msb (x : HkIssue) (acc : Fin 4) (a b : Fin 32)
  /-- MPY (R390): Sets the accumulator to a × b. -/
  | mpy (x : HkIssue) (acc : Fin 4) (a b : Fin 32)
  /-- ACLR (R390): Clears the accumulator. -/
  | aclr (x : HkIssue) (acc : Fin 4)
  /-- TAP (R391): Accumulates two DMEM words and steps both pointers. -/
  | tap (x : HkIssue) (acc : Fin 4) (a b : Fin 32) (mba mbb : Fin 3) (dir : Bool)
  /-- TAPMV (R391): Accumulates two DMEM words, moves x down and steps pointers. -/
  | tapmv (x : HkIssue) (acc : Fin 4) (a b : Fin 32) (mba : Fin 3)
  /-- ARD (R390): Reads the shifted accumulator saturated to 32 bits. -/
  | ard (x : HkIssue) (acc : Fin 4) (d : Fin 32) (sh : Fin 56)
  /-- AMV_READ_LO (R390): AMV fn 0 moves acc[31:0] to a register. -/
  | amvReadLo (x : HkIssue) (acc : Fin 4) (r : Fin 32)
  /-- AMV_READ_HI (R390): AMV fn 1 moves sext(acc[55:32]) to a register. -/
  | amvReadHi (x : HkIssue) (acc : Fin 4) (r : Fin 32)
  /-- AMV_WRITE_LO (R390): AMV fn 2 writes acc[31:0] from a register. -/
  | amvWriteLo (x : HkIssue) (acc : Fin 4) (r : Fin 32)
  /-- AMV_WRITE_HI (R390): AMV fn 3 writes acc[55:32] from a register. -/
  | amvWriteHi (x : HkIssue) (acc : Fin 4) (r : Fin 32)
  /-- EXIT (R401): Waits as FENCE and ends the item with a status. -/
  | exit (x : HkIssue) (a : Fin 32)
  /-- EXIT_COMPLETE (R401): When the stores drain the item ends; status 0 commits staged values. -/
  | exitComplete (core : Fin 16)
  /-- WAIT (R394): Stops issue until an enabled interrupt source is pending. -/
  | wait (x : HkIssue)
  /-- WAIT_WAKE (R394): A pending enabled source resumes a waiting core, with or without a handler. -/
  | waitWake (core : Fin 16)
  /-- RTI (R394): Returns to EPC and sets the global enable. -/
  | rti (x : HkIssue)
  /-- EI (R394): Sets the global interrupt enable. -/
  | ei (x : HkIssue)
  /-- DI (R394): Clears the global interrupt enable. -/
  | di (x : HkIssue)
  /-- FENCE (R375): Waits until every earlier store is visible. -/
  | fence (x : HkIssue)
  /-- BRK (R394): Faults with cause BREAK. -/
  | brk (x : HkIssue)
  /-- RDCR (R395): Reads a control register. -/
  | rdcr (x : HkIssue) (d : Fin 32) (cr : BitVec 16)
  /-- WRCR (R395): Writes a control register. -/
  | wrcr (x : HkIssue) (a : Fin 32) (cr : BitVec 16)
  /-- ILLEGAL_INSTRUCTION (R377): An undefined instruction word faults with cause ILLEGAL. -/
  | illegalInstruction (x : HkIssue)
  /-- STORE_BUFFER_DRAIN (R374): A non-local buffered store completes and frees its entry. -/
  | storeBufferDrain (core : Fin 16)
  /-- HK_TIMER_MATCH (R396): CYCLE_LO equal to TIMER_CMP sets TIMER pending. -/
  | hkTimerMatch (core : Fin 16)
  /-- HK_WARN (R396): A cyclic item reaching its deadline − WARN_NS sets WARN pending. -/
  | hkWarn (core : Fin 16)
  /-- INTERRUPT_ENTRY (R398): At an interrupt boundary an enabled pending source saves EPC and jumps to IVEC. -/
  | interruptEntry (core : Fin 16)
  /-- HK_CQ_PUSH (R404): A store to CQ_PUSH pushes one packet word to the core's command queue. -/
  | hkCqPush (x : HkIssue) (d a : Fin 32) (k : BitVec 16)
  /-- HK_CQ_POP (R404): A load of CQ_POP pops one reply word or stalls. -/
  | hkCqPop (x : HkIssue) (d a : Fin 32) (k : BitVec 16)
  /-- CQ_POP_WORD_ARRIVE (R404): A reply word arriving ends a stalled CQ_POP. -/
  | cqPopWordArrive (core : Fin 16)
  /-- HK_CORE_READ (R405): Returns the twelve registers of a core. -/
  | hkCoreRead (p : Packet)
  /-- HK_MEM_READ (R406): Returns IMEM or DMEM words of a core. -/
  | hkMemRead (p : Packet) (bad : Nat)
  /-- OSTLER_TICK (R409): At each 1 µs tick Ostler releases, admits and dispatches work. -/
  | ostlerTick
  /-- RUN_LIMIT_EXPIRE (R416): An instance running RUN_LIMIT µs is aborted. -/
  | runLimitExpire (core : Fin 16)
  /-- GIRTH_DERATE (R423): Every 1 ms Girth sets the derating factor from T_J and may set THERM_CRIT. -/
  | girthDerate (tj : Int)
  /-- GIRTH_BUDGET_WRITE (R422): A budget write applies at the next tick or is ignored below the floor. -/
  | girthBudgetWrite (path : Path) (v : Word)
  /-- OST_INFO (R427): Returns Ostler status and counters. -/
  | ostInfo (p : Packet)
  /-- OST_RELEASE (R428): Releases a service descriptor immediately, after a delay or at a time. -/
  | ostRelease (p : Packet)
  /-- OST_CANCEL (R411): Returns a DELAYED or READY instance to IDLE. -/
  | ostCancel (p : Packet)
  /-- OST_ABORT (R416): Aborts a running instance at the next tick. -/
  | ostAbort (p : Packet)
  /-- OST_DESC_WRITE (R407): Writes words 0 … 6 of a disabled descriptor. -/
  | ostDescWrite (p : Packet)
  /-- OST_DESC_READ (R427): Returns descriptors. -/
  | ostDescRead (p : Packet)
  /-- OST_ENABLE (R408): Enables or disables descriptors all-or-nothing after the checks. -/
  | ostEnable (p : Packet)
  /-- OST_TRC_READ (R427): Returns dispatch trace records. -/
  | ostTrcRead (p : Packet)
  /-- GIRTH_INFO (R427): Returns Girth status and values. -/
  | girthInfo (p : Packet)
  /-- GIRTH_SET_BUDGET (R428): Sets the power budget at the next tick. -/
  | girthSetBudget (p : Packet)
  /-- BRIDLE_TICK (R434): At each 62.5 µs tick Bridle samples, filters inputs and checks received PDUs. -/
  | bridleTick (inputs : BitVec 64) (outRb : BitVec 32) (tpRb : BitVec 8) (stoRb : BitVec 24)
  /-- SAFE_TWIN_TIMEOUT (R357): A copy whose twin has not arrived within one tick is delivered single. -/
  | safeTwinTimeout (conn : Fin 256)
  /-- SAFE_CONN_WATCHDOG (R359): No delivery for WD ticks fails the connection with WATCHDOG. -/
  | safeConnWatchdog (ring : Bool) (conn : Fin 256)
  /-- SAFETY_CYCLE_EVAL (R434): At each safety cycle start Bridle latches inputs and evaluates every function and zone. -/
  | safetyCycleEval
  /-- DISC_FAULT (R441): Channels disagreeing for DISC ticks fault the function. -/
  | discFault (f : Fin 128)
  /-- SS1_TIMEOUT (R448): After SS1_TIME ticks the zone applies STO. -/
  | ss1Timeout (z : Fin 32)
  /-- STO_CONF_TIMEOUT (R452): A drive not confirming STO within STO_CONF sets STO_UNCONF. -/
  | stoConfTimeout (z : Fin 32)
  /-- BRIDLE_EVAL_DEADLINE (R434): An evaluation unfinished at cycle start + 125 µs puts Bridle into SAFE with cause CYCLE. -/
  | bridleEvalDeadline
  /-- BRIDLE_FAULT (R432): A detected Bridle fault enters SAFE and the hardware latch asserts STO and turns safe outputs off. -/
  | bridleFault (cause : Fin 9)
  /-- BRIDLE_SELFTEST_DONE (R431): Bridle self-test ends and it waits in OFF. -/
  | bridleSelftestDone
  /-- TEST_PULSE (R437): A test-pulse source switches off for TP_WIDTH ticks every TP_PERIOD. -/
  | testPulse (source : Fin 8)
  /-- DARK_TEST (R454): Every DARK_PERIOD a safe output is switched off for DARK_WIDTH and its readback checked. -/
  | darkTest (o : Fin 32) (ending : Bool) (rb : Bool)
  /-- FIELD_DIE_REFRESH_LOSS (R435): A field die without a valid refresh for 32 ticks turns safe outputs off and asserts STO. -/
  | fieldDieRefreshLoss (die : Fin 2)
  /-- BRD_INFO (R467): Returns Bridle state and set identity. -/
  | brdInfo (p : Packet)
  /-- BRD_FUNC_READ (R467): Returns function status words. -/
  | brdFuncRead (p : Packet)
  /-- BRD_ZONE_READ (R467): Returns the status of one zone. -/
  | brdZoneRead (p : Packet)
  /-- BRD_IO_READ (R467): Returns safety input and output state. -/
  | brdIoRead (p : Packet)
  /-- BRD_CONN_READ (R467): Returns status words of one connection. -/
  | brdConnRead (p : Packet)
  /-- BRD_RESET (R446): Resets named functions with RST_CMD when allowed. -/
  | brdReset (p : Packet)
  /-- BRD_CONN_RESTART (R460): Returns a FAILED connection to START. -/
  | brdConnRestart (p : Packet)
  /-- SPS_LOAD (R465): Verifies and stages a safety parameter set. -/
  | spsLoad (p : Packet) (v : Verdict) (recs : List (Nat × Nat))
  /-- SPS_ACCEPT (R465): Activates the staged set at the next cycle start. -/
  | spsAccept (p : Packet)
  /-- FIO_INPUT_CHANGE (R471): FILT consecutive samples at a new level change the filtered input and timestamp it. -/
  | fioInputChange (i : Fin 64) (level : Bool)
  /-- FIO_RB_FAULT (R477): A readback disagreeing for two samples reports RB_LOW or RB_HIGH. -/
  | fioRbFault (o : Fin 32)
  /-- FIO_OVERLOAD (R478): An output in current limit for 200 µs turns off and latches OVERLOAD. -/
  | fioOverload (o : Fin 32)
  /-- FIO_THERMAL (R478): An output over its thermal limit turns off and latches THERMAL. -/
  | fioThermal (o : Fin 32) (ovr : Bool)
  /-- VFIELD_SAMPLE (R480): Every 10 µs VFIELD is measured and SUPPLY_LOW set or cleared. -/
  | vfieldSample (group : Fin 4) (mv : Nat)
  /-- SUPPLY_LOST (R480): 100 samples below 15.0 V turn the group outputs off and latch SUPPLY_LOST. -/
  | supplyLost (group : Fin 4)
  /-- SUPPLY_AUTO_REARM (R481): With AUTO_REARM, 10 000 good samples clear SUPPLY_LOST or SILENT_OFF. -/
  | supplyAutoRearm (group : Fin 4)
  /-- SILENT1_TIMEOUT (R482): No token for T_SILENT1 sets SILENT1 and outputs take SAFE_VAL. -/
  | silent1Timeout (group : Fin 4)
  /-- SILENT_OFF_TIMEOUT (R482): No token for T_SILENT2 turns all group outputs off and latches SILENT_OFF. -/
  | silentOffTimeout (group : Fin 4)
  /-- FIO_OUT_CFG_WRITE (R475): An output configuration write is accepted only for an off, non-Bridle output. -/
  | fioOutCfgWrite (path : Path) (o : Fin 32) (sig : Bool) (v : Word)
  /-- FIO_INFO (R487): Returns field I/O state of one epoch. -/
  | fioInfo (p : Packet)
  /-- FIO_GRP_READ (R487): Returns the state of one group. -/
  | fioGrpRead (p : Packet)
  /-- FIO_OUT_WRITE (R488): Sets host-owned outputs from the next boundary. -/
  | fioOutWrite (p : Packet)
  /-- FIO_OUT_CLEAR (R478): Clears OVERLOAD or THERMAL latches when allowed. -/
  | fioOutClear (p : Packet)
  /-- FIO_REARM (R485): Clears group latches whose condition is gone and re-arms safe outputs. -/
  | fioRearm (p : Packet)
  /-- REIN_PEER_FALL (R503): REIN_PEER falls and a READY standby claims REIN. -/
  | reinPeerFall
  /-- REIN_PEER_RISE (R490): REIN_PEER rises, resolving a contest or ending the gap hold. -/
  | reinPeerRise
  /-- REIN_WATCHDOG (R492): REIN_WD boundaries without a commit token drop REIN_HOLD with cause WATCHDOG. -/
  | reinWatchdog
  /-- FARRIER_FAULT (R492): A Farrier lockstep or uncorrectable engine error drops REIN with cause FAULT. -/
  | farrierFault
  /-- FIELD_DIE_DRIVE_START (R491): After REIN_HOLD has been asserted for 2 µs the field dies drive their outputs. -/
  | fieldDieDriveStart
  /-- HEALTH_RECORD_RECEIVE (R495): A valid health record from the partner arrives. -/
  | healthRecordReceive (crcOk : Bool) (w0 : Word) (h : Health)
  /-- TACK_LOST (R495): Four T_E without a valid health record set TACK_LOST. -/
  | tackLost
  /-- TACK_LANE_CHANGE (R494): A tack lane goes up or down. -/
  | tackLaneChange (lane : Fin 2) (up : Bool)
  /-- OUTPUT_SHADOW_RECEIVE (R496): The standby's field dies load the newest output shadow. -/
  | outputShadowReceive (crcOk : Bool) (sh : Shadow)
  /-- SNAPSHOT_CHUNK_RECEIVE (R498): The standby writes a snapshot chunk into its older bank. -/
  | snapshotChunkReceive (crcOk : Bool) (index : Fin 160) (x : Snapshot)
  /-- SNAPSHOT_RESTORE_DONE (R504): The new active finishes restoring the newest verified snapshot. -/
  | snapshotRestoreDone
  /-- STANDBY_SELFTEST (R501): A standby self-test in the rotation completes, passing or failing. -/
  | standbySelftest (code : BitVec 8) (pass last : Bool)
  /-- REVERT_DWELL_EXPIRE (R508): A preferred standby READY for REVERT_DWELL sets REVERT_PEND. -/
  | revertDwellExpire
  /-- HANDOVER_ABANDON (R509): An unconfirmed handover is abandoned after 2 × SNAP_PERIOD epochs. -/
  | handoverAbandon
  /-- START_WAIT_EXPIRE (R577): A non-preferred module claims REIN after START_WAIT without a partner claim. -/
  | startWaitExpire
  /-- TACK_JOIN_RECORD (R560): The partner's JOIN-layout record at tack start is verified or sets PARTNER_REPLACED. -/
  | tackJoinRecord (rec : JoinRec) (sigOk : Bool)
  /-- PAIR_INFO (R511): Returns pair status and partner health. -/
  | pairInfo (p : Packet)
  /-- PAIR_SWITCH (R512): Requests a planned handover at the next quiet or commit point. -/
  | pairSwitch (p : Packet)
  /-- PAIR_REVERT (R512): Inhibits or allows automatic revert. -/
  | pairRevert (p : Packet)
  /-- PAIR_CLAIM (R512): Starts a module after NOT_READY_DROP as a cold start. -/
  | pairClaim (p : Packet)
  /-- QUEUE_PUSH (R523): A word written to a command-queue aperture is pushed. -/
  | queuePush (path : Path) (q : Fin 8) (v : Word) (m : EccMark)
  /-- QUEUE_POP (R526): A read of a reply-queue aperture pops a word or stalls. -/
  | queuePop (path : Path) (q : Fin 8) (n : Fin 513) (marks : List EccMark)
  /-- POP_STALL_EXPIRE (R526): A pop stalled 40 µs returns all ones and sets STALL_EXP. -/
  | popStallExpire (path : Path) (q : Fin 8)
  /-- Q_CTRL_RESET (R529): Writing Q_CTRL.RESET empties the queue pair and clears its flags. -/
  | qCtrlReset (path : Path) (q : Fin 8)
  /-- QUEUE_HALT (R528): A packet with a bad length or uncorrectable word 0 halts the queue. -/
  | queueHalt (path : Path) (q : Fin 4)
  /-- BAD_OPCODE_PACKET (R533): A packet whose opcode exists for no command returns BAD_OPCODE. -/
  | badOpcodePacket (op : BitVec 12) (p : Packet)
  /-- REPLY_WRITE (R525): Farrier writes a whole reply once it fits in the reply queue. -/
  | replyWrite (path : Path) (q : Fin 4)
  /-- MSIX_UNMASK (R540): Unmasking a vector with its pending bit set sends one message. -/
  | msixUnmask (pf1 : Bool) (v : Fin 8)
  /-- SPI_WRITE (R542): SPI command 0x02 writes data words unprivileged. -/
  | spiWrite (a : Word) (ws : List Word) (part : Bool)
  /-- SPI_WRITE_PRIVILEGED (R542): SPI command 0x12 writes data words with SPI_PRIV rights. -/
  | spiWritePrivileged (a : Word) (ws : List Word) (part : Bool)
  /-- SPI_READ (R542): SPI command 0x0B reads data words unprivileged after 0xA5. -/
  | spiRead (a : Word) (n : Nat) (marks : List EccMark)
  /-- SPI_READ_PRIVILEGED (R542): SPI command 0x1B reads data words with SPI_PRIV rights. -/
  | spiReadPrivileged (a : Word) (n : Nat) (marks : List EccMark)
  /-- SPI_STATUS (R542): SPI command 0x05 returns the status byte. -/
  | spiStatus
  /-- SPI_UNKNOWN_COMMAND (R542): Another command byte is ignored to SPI_nCS high and counted. -/
  | spiUnknownCommand (cmd : Byte)
  /-- PCIE_PERST (R596): PCIE_PERST_n holds the PCIe endpoint in reset. -/
  | pciePerst (low : Bool)
  /-- DEV_REMOTE_TIMEOUT (R546): A remote reply not arriving within 16 domain cycles gives TIMEOUT. -/
  | devRemoteTimeout
  /-- DEV_INFO (R547): Returns identity, capabilities and version words. -/
  | devInfo (p : Packet)
  /-- DEV_ECHO (R547): Returns its parameters unchanged. -/
  | devEcho (p : Packet)
  /-- DEV_HOST_STAT (R547): Returns host counters and queue status of the issuing path. -/
  | devHostStat (p : Packet)
  /-- DEV_NOTICE_CFG (R547): Enables notice kinds and COMMIT_DIV for the issuing function. -/
  | devNoticeCfg (p : Packet)
  /-- DEV_REMOTE (R546): Sends an embedded packet to a remote producer and returns its reply. -/
  | devRemote (p : Packet)
  /-- DEV_HEALTH (R547): Returns GLB_HEALTH and the epoch. -/
  | devHealth (p : Packet)
  /-- SEC_INFO (R563): Returns security status and FPRINT. -/
  | secInfo (p : Packet)
  /-- SEC_ATTEST (R562): Produces a signed attestation report for a nonce. -/
  | secAttest (p : Packet) (ns : Nat)
  /-- SEC_CERT_READ (R563): Returns the identity certificate. -/
  | secCertRead (p : Packet)
  /-- SEC_FLASH_STAGE (R557): Verifies an object and writes it to the non-running bank. -/
  | secFlashStage (p : Packet) (v : Verdict) (backOk : Bool) (ns : Nat)
  /-- SEC_ROLLBACK_COMMIT (R556): Raises a rollback counter to the running SVN. -/
  | secRollbackCommit (p : Packet) (ns : Nat)
  /-- SEC_OWNER_REVOKE (R558): Burns the revoke fuse of an owner key slot. -/
  | secOwnerRevoke (p : Packet)
  /-- SEC_COMMISSION (R558): Burns owner key hashes and enters SECURE. -/
  | secCommission (p : Packet) (keys : List (Nat × Bool))
  /-- SEC_DEBUG_CHALLENGE (R559): Returns a debug nonce. -/
  | secDebugChallenge (p : Packet)
  /-- SEC_DEBUG_UNLOCK (R559): Opens debug with a valid signed token while every zone is demanded. -/
  | secDebugUnlock (p : Packet) (tokenOk : Bool)
  /-- SEC_UNLISTED_OPCODE (R563): An unlisted 0xE00 … 0xE3F opcode returns BAD_PARAM. -/
  | secUnlistedOpcode (op : Fin 64) (p : Packet)
  /-- POWER_ON_RESET (R569): Supplies rise and the module resets with power-on scope. -/
  | powerOnReset
  /-- BROWNOUT (R568): A monitored supply out of window for 2 µs resets the module with power-on scope. -/
  | brownout
  /-- NRST_ASSERT (R569): nRST low resets the module with power-on scope. -/
  | nrstAssert
  /-- NRST_RELEASE (R566): nRST release samples PAIR_ROLE and starts the boot. -/
  | nrstRelease (secondary : Bool)
  /-- MODULE_RESET (R569): A module reset restarts Farrier at stage FW, keeping timebase and field dies. -/
  | moduleReset
  /-- BOOT_STAGE_END (R572): A boot stage completes and the next begins. -/
  | bootStageEnd (x : StageEnd)
  /-- BG_VERIFY_DONE (R573): Background verification of the unselected bank ends. -/
  | bgVerifyDone (kind : Fin 3) (v : Verdict)
  /-- LOCK_WAIT_END (R574): Locked time and D ≥ T0 end LOCK_WAIT and stage PAIR decides the role. -/
  | lockWaitEnd
  /-- DEV_BOOT_INFO (R579): Returns reset cause, boot state and supply status. -/
  | devBootInfo (p : Packet)
  /-- DEV_RESET (R580): Schedules a module reset 100 µs after its reply. -/
  | devReset (p : Packet)
  /-- DEV_UNLISTED_OPCODE (R579): An unlisted 0x040 … 0x04F opcode returns BAD_PARAM. -/
  | devUnlistedOpcode (op : Fin 16) (p : Packet)
  /-- TRIP_INPUT_RELEASE (R218): A team trip pin or global trip input goes inactive, and TRIP_QUIET counting starts at the next 1 µs tick boundary. -/
  | tripInputRelease (input : Fin 28)
  /-- ENC_QUAD_EDGE (R211): A filtered edge on ENCe_A or ENCe_B in QUAD mode advances the ×4 count, or faults when A and B change in the same filtered sample. -/
  | encQuadEdge (e : Fin 24) (a b : Bool)
  /-- NODE_LINK_UP (R307): A node's port link returns, so it stops turning frames and forwards them past itself again. -/
  | nodeLinkUp (ring : Fin 4) (pos : Fin 126) (upstream : Bool)
  /-- NODE_WATCHDOG_EXPIRE (R457): A SAFE-slot node that has delivered no valid PDU for NODE_WD brings itself to its safe state, STO for a drive. -/
  | nodeWatchdogExpire (ring : Fin 4) (pos : Fin 126)
  /-- NODE_INTERNAL_FAULT (R329): A node in RUN or HOLD detects an internal fault and enters SAFE. -/
  | nodeInternalFault (ring : Fin 4) (pos : Fin 126) (persists : Bool)
  /-- SNAPSHOT_SEND_DONE (R497): The active finishes sending the last chunk of a snapshot over the tack link, which records the transfer time and frees the sender for the next due snapshot. -/
  | snapshotSendDone
  /-- CAL_ENTRY_WRITE (R77): A register write to an event entry either updates a disabled entry, refuses words 1 … 7 of an enabled one with EDIT_REFUSED, or clears ENABLE and cancels its scheduled switches. -/
  | calEntryWrite (path : Path) (i : Fin 4096) (w : Fin 8) (v : Word)
  /-- TEAM_REG_WRITE (R195): A write to TEAM_CFG, TEAM_DT, TEAM_POL, TEAM_DEM_SRC, DEM_SIG, TEAM_TRIP_CFG or TEAM_COMM is taken only while the team is disabled, and otherwise is ignored and sets CFG_BUSY. -/
  | teamRegWrite (path : Path) (t : Fin 24) (w : Fin 64) (v : Word)
  /-- PCIE_POWER_STATE (R520): The host moves a PCIe function between D0 and D3hot; D3hot stops notices and keeps the queues. -/
  | pciePowerState (pf1 : Bool) (d3 : Bool)
deriving DecidableEq, Repr

end Sys2Proof
end

