-- ==== Sys2Proof/Decode.lean ====
section
/-!
DEFINITION. Decode.lean: commands spelled by words. The opcode table gives its rows no bits: a command of this block is a host
access, a packet or an event, and no row is read from a word of its own.
-/
namespace Sys2Proof

/-- The command that a word of `nbits` bits spells by the table's bits: none, as no row of the table gives bits. -/
def decodeTableWord (_nbits _w : Nat) : Option Instr := none

end Sys2Proof
end

