-- ==== Sys2Proof/Config.lean ====
section
/-!
DEFINITION. Config.lean: the values that the spec leaves open. Each is an opaque constant without a body: nothing can
evaluate it, so every statement holds whatever it is. Each has its entry in the assumption log.
-/
namespace Sys2Proof.Config

/-- The device's own offsetScaledLogVariance in best-master selection, which no chapter gives (R96, R97). -/
opaque ownVariance : Nat

/-- The binary32 sine and cosine of the load-angle estimate: R231 names the functions and not their rounding. -/
opaque sin32 : Nat → Nat
opaque cos32 : Nat → Nat

/-- The binary32 atan2 of the load-angle estimate, first argument over second (R231). -/
opaque atan32 : Nat → Nat → Nat

/-- The rate correction of a ring node in ppb, before its bound of 500 ppm, for an alignment error in 2^-16 ns: R325 bounds
it and gives no law. -/
opaque nodeRate : Int → Int

/-- What sets the latency of the n-th access to shared work memory within its 12 … 96 cycles (R374). -/
opaque swmLatency : Nat → Nat

/-- What a load of a staging signal outside the item's publications reads, by signal (R373 gives none). -/
opaque stagingIdle : Nat → Nat

/-- A sum of two or more binary64 products in Sage, for a lane grant: R276 gives the format and R299 lets the order of the
additions change the last bits; no rule gives that order. -/
opaque sageDot : Nat → List (Nat × Nat) → Nat

/-- Objective and residuals that Sage publishes with a result that is not SOLVED, by code and signal: R302 names them and no
rule says of which point they are. -/
opaque sageFigure : Nat → Nat → Nat

/-- Error of the Paddock monitor's sine table at an angle in 2^-16 turn, in units of 2^-30 before its bound: R244 bounds it
below 2^-28 and does not give the entries. -/
opaque pdkSinErr : Nat → Int

/-- The ECDSA P-521 signature that the device makes with its identity key over a message, given as words (R363, R561): the
key is fused and never readable. -/
opaque signature : List Nat → Nat

/-- DETAIL of a DEV_REMOTE that answers TOO_LONG, by the words of the embedded packet: R532 asks for the words that the reply would
have, and the reply is the remote device's (R546). -/
opaque remoteReplyLen : Nat → Nat

/-- The code that PAIR_SELFTEST shows for a demand word that differs from the active's: R501 names the test and gives no
code. -/
opaque demandTestCode : Nat

/-- The 128-bit nonce of the n-th debug challenge (R559): no rule says how it is made. -/
opaque debugNonce : Nat → Nat

end Sys2Proof.Config
end

