-- ==== Sys2Proof/Machine/Regs.lean ====
section
/-!
DEFINITION. Machine/Regs.lean: every register field that the spec's register tables name, with its host address (R513),
bits, access type (R8), view (R11) and reset value, and the table of register words that host accesses go through. A
64-bit value in two consecutive registers (R10) is one field of 64 bits at the address of its low word.
-/
namespace Sys2Proof.Machine

/-- The access types of R8. -/
inductive Access where
  | rw
  | ro
  | w1c
  | w1s
  | wo
deriving DecidableEq, Repr

/-- One register field: host byte address of its (low) word, lowest bit, width, access type and reset value. -/
structure Field where
  addr : Nat
  lo : Nat
  width : Nat
  access : Access
  reset : Nat
deriving DecidableEq, Repr

/-- The key of a field in the register file. -/
def Field.key (f : Field) : Nat := f.addr * 32 + f.lo

/-- A register word of the tables: name of its instances by base, two strides and counts, whether it is marked P, and
its fields at each instance. `wide` words are 64-bit pairs. -/
structure RegRow where
  base : Nat
  stride : Nat
  count : Nat
  stride2 : Nat
  count2 : Nat
  priv : Bool
  wide : Bool
  fields : Nat → Nat → List Field


/-- GLB_IDENT.DEVICE, bits [31:16], RO (identity/global). -/
def Reg.GLB_IDENT_DEVICE : Field := ⟨0x0, 16, 16, .ro, 63496⟩

/-- GLB_IDENT.GRADE, bits [15:8], RO (identity/global). -/
def Reg.GLB_IDENT_GRADE : Field := ⟨0x0, 8, 8, .ro, 128⟩

/-- GLB_IDENT.STEP_LETTER, bits [7:4], RO (identity/global). -/
def Reg.GLB_IDENT_STEP_LETTER : Field := ⟨0x0, 4, 4, .ro, 1⟩

/-- GLB_IDENT.STEP_DIGIT, bits [3:0], RO (identity/global). -/
def Reg.GLB_IDENT_STEP_DIGIT : Field := ⟨0x0, 0, 4, .ro, 1⟩

/-- GLB_CAPS0.SAGE_LANES, bits [29:24], RO (identity/global). -/
def Reg.GLB_CAPS0_SAGE_LANES : Field := ⟨0x4, 24, 6, .ro, 32⟩

/-- GLB_CAPS0.INTRUDERS, bits [22:16], RO (identity/global). -/
def Reg.GLB_CAPS0_INTRUDERS : Field := ⟨0x4, 16, 7, .ro, 64⟩

/-- GLB_CAPS0.ARMS, bits [12:8], RO (identity/global). -/
def Reg.GLB_CAPS0_ARMS : Field := ⟨0x4, 8, 5, .ro, 16⟩

/-- GLB_CAPS0.AXES, bits [7:0], RO (identity/global). -/
def Reg.GLB_CAPS0_AXES : Field := ⟨0x4, 0, 8, .ro, 128⟩

/-- GLB_CAPS1.JOINTS, bits [31:24], RO (identity/global). -/
def Reg.GLB_CAPS1_JOINTS : Field := ⟨0x8, 24, 8, .ro, 128⟩

/-- GLB_CAPS1.SAGE_FITTED, bits [16:16], RO (identity/global). -/
def Reg.GLB_CAPS1_SAGE_FITTED : Field := ⟨0x8, 16, 1, .ro, 1⟩

/-- GLB_CAPS1.TEAMS, bits [12:8], RO (identity/global). -/
def Reg.GLB_CAPS1_TEAMS : Field := ⟨0x8, 8, 5, .ro, 24⟩

/-- GLB_CAPS1.CERID_PORTS, bits [2:0], RO (identity/global). -/
def Reg.GLB_CAPS1_CERID_PORTS : Field := ⟨0x8, 0, 3, .ro, 4⟩

/-- EPK_CFG.K, bits [6:0], RO (epoch and image control). -/
def Reg.EPK_CFG_K : Field := ⟨0x100000, 0, 7, .ro, 2⟩

/-- EPK_DEADLINE.MARGIN_NS, bits [19:0], RW (epoch and image control). -/
def Reg.EPK_DEADLINE_MARGIN_NS : Field := ⟨0x100004, 0, 20, .rw, 2000⟩

/-- EPK_NOW, bits [63:0], RO (epoch and image control). -/
def Reg.EPK_NOW : Field := ⟨0x100008, 0, 64, .ro, 0⟩

/-- EPK_ORIGIN, bits [63:0], RO (epoch and image control). -/
def Reg.EPK_ORIGIN : Field := ⟨0x100010, 0, 64, .ro, 0⟩

/-- EPK_STAT.RESTEP_WAIT, bits [4:4], RO (epoch and image control). -/
def Reg.EPK_STAT_RESTEP_WAIT : Field := ⟨0x100018, 4, 1, .ro, 0⟩

/-- EPK_STAT.HELD, bits [3:3], W1C (epoch and image control). -/
def Reg.EPK_STAT_HELD : Field := ⟨0x100018, 3, 1, .w1c, 0⟩

/-- EPK_STAT.BAD_MARGIN, bits [2:2], W1C (epoch and image control). -/
def Reg.EPK_STAT_BAD_MARGIN : Field := ⟨0x100018, 2, 1, .w1c, 0⟩

/-- EPK_STAT.OVERRUN, bits [1:1], W1C (epoch and image control). -/
def Reg.EPK_STAT_OVERRUN : Field := ⟨0x100018, 1, 1, .w1c, 0⟩

/-- EPK_STAT.RUNNING, bits [0:0], RO (epoch and image control). -/
def Reg.EPK_STAT_RUNNING : Field := ⟨0x100018, 0, 1, .ro, 0⟩

/-- EPK_OVR_CNT, bits [31:0], RO (epoch and image control). -/
def Reg.EPK_OVR_CNT : Field := ⟨0x10001c, 0, 32, .ro, 0⟩

/-- IMG_FRONT, bits [63:0], RO (epoch and image control). -/
def Reg.IMG_FRONT : Field := ⟨0x100020, 0, 64, .ro, 18446744073709551615⟩

/-- IMG_CFG.HOLD_MAX, bits [12:0], RW (epoch and image control). -/
def Reg.IMG_CFG_HOLD_MAX : Field := ⟨0x10002c, 0, 13, .rw, 64⟩

/-- IMG_CUT_MAX.CUT_MAX, bits [19:0], RW (epoch and image control). -/
def Reg.IMG_CUT_MAX_CUT_MAX : Field := ⟨0x100030, 0, 20, .rw, 32000⟩

/-- IMG_CUT_STAT.EXPIRED, bits [3:3], W1C (epoch and image control). -/
def Reg.IMG_CUT_STAT_EXPIRED : Field := ⟨0x100034, 3, 1, .w1c, 0⟩

/-- IMG_CUT_STAT.SLIPPED, bits [2:2], RO (epoch and image control). -/
def Reg.IMG_CUT_STAT_SLIPPED : Field := ⟨0x100034, 2, 1, .ro, 0⟩

/-- IMG_CUT_STAT.STATE, bits [1:0], RO (epoch and image control). -/
def Reg.IMG_CUT_STAT_STATE : Field := ⟨0x100034, 0, 2, .ro, 0⟩

/-- IMG_CUT_ID, bits [31:0], RO (epoch and image control). -/
def Reg.IMG_CUT_ID : Field := ⟨0x100038, 0, 32, .ro, 0⟩

/-- IMG_CUT_EPOCH, bits [63:0], RO (epoch and image control). -/
def Reg.IMG_CUT_EPOCH : Field := ⟨0x10003c, 0, 64, .ro, 0⟩

/-- IMG_HELD_TOTAL, bits [31:0], RO (epoch and image control). -/
def Reg.IMG_HELD_TOTAL : Field := ⟨0x100044, 0, 32, .ro, 0⟩

/-- IMG_WR_IGN, bits [31:0], RO (epoch and image control). -/
def Reg.IMG_WR_IGN : Field := ⟨0x100048, 0, 32, .ro, 0⟩

/-- COORD_CFG.ENABLE, bits [31:31], RW (master coordinates and event calendar). -/
def Reg.COORD_CFG_ENABLE (i : Nat) : Field := ⟨0x308000 + 0x40 * i, 31, 1, .rw, 0⟩

/-- COORD_CFG.PRED_EN, bits [30:30], RW (master coordinates and event calendar). -/
def Reg.COORD_CFG_PRED_EN (i : Nat) : Field := ⟨0x308000 + 0x40 * i, 30, 1, .rw, 0⟩

/-- COORD_CFG.VEL_SPAN, bits [29:26], RW (master coordinates and event calendar). -/
def Reg.COORD_CFG_VEL_SPAN (i : Nat) : Field := ⟨0x308000 + 0x40 * i, 26, 4, .rw, 0⟩

/-- COORD_CFG.HOLD, bits [25:21], RW (master coordinates and event calendar). -/
def Reg.COORD_CFG_HOLD (i : Nat) : Field := ⟨0x308000 + 0x40 * i, 21, 5, .rw, 4⟩

/-- COORD_CFG.KIND, bits [2:0], RW (master coordinates and event calendar). -/
def Reg.COORD_CFG_KIND (i : Nat) : Field := ⟨0x308000 + 0x40 * i, 0, 3, .rw, 0⟩

/-- COORD_SRC.SEL, bits [17:0], RW (master coordinates and event calendar). -/
def Reg.COORD_SRC_SEL (i : Nat) : Field := ⟨0x308004 + 0x40 * i, 0, 18, .rw, 0⟩

/-- COORD_SCALE, bits [63:0], RW (master coordinates and event calendar). -/
def Reg.COORD_SCALE (i : Nat) : Field := ⟨0x308008 + 0x40 * i, 0, 64, .rw, 4294967296⟩

/-- COORD_MOD, bits [63:0], RW (master coordinates and event calendar). -/
def Reg.COORD_MOD (i : Nat) : Field := ⟨0x308010 + 0x40 * i, 0, 64, .rw, 0⟩

/-- COORD_VAL, bits [63:0], RO (master coordinates and event calendar). -/
def Reg.COORD_VAL (i : Nat) : Field := ⟨0x308018 + 0x40 * i, 0, 64, .ro, 0⟩

/-- COORD_VEL, bits [63:0], RO (master coordinates and event calendar). -/
def Reg.COORD_VEL (i : Nat) : Field := ⟨0x308020 + 0x40 * i, 0, 64, .ro, 0⟩

/-- COORD_STAT.LOST_SEEN, bits [5:5], W1C (master coordinates and event calendar). -/
def Reg.COORD_STAT_LOST_SEEN (i : Nat) : Field := ⟨0x308028 + 0x40 * i, 5, 1, .w1c, 0⟩

/-- COORD_STAT.BAD_CFG, bits [4:4], W1C (master coordinates and event calendar). -/
def Reg.COORD_STAT_BAD_CFG (i : Nat) : Field := ⟨0x308028 + 0x40 * i, 4, 1, .w1c, 0⟩

/-- COORD_STAT.PRESET, bits [3:3], W1C (master coordinates and event calendar). -/
def Reg.COORD_STAT_PRESET (i : Nat) : Field := ⟨0x308028 + 0x40 * i, 3, 1, .w1c, 0⟩

/-- COORD_STAT.LOST, bits [2:2], RO (master coordinates and event calendar). -/
def Reg.COORD_STAT_LOST (i : Nat) : Field := ⟨0x308028 + 0x40 * i, 2, 1, .ro, 0⟩

/-- COORD_STAT.EXTRAP, bits [1:1], RO (master coordinates and event calendar). -/
def Reg.COORD_STAT_EXTRAP (i : Nat) : Field := ⟨0x308028 + 0x40 * i, 1, 1, .ro, 0⟩

/-- COORD_STAT.VALID, bits [0:0], RO (master coordinates and event calendar). -/
def Reg.COORD_STAT_VALID (i : Nat) : Field := ⟨0x308028 + 0x40 * i, 0, 1, .ro, 0⟩

/-- CAL_CTRL.RUN, bits [0:0], RW (master coordinates and event calendar). -/
def Reg.CAL_CTRL_RUN : Field := ⟨0x309000, 0, 1, .rw, 0⟩

/-- CAL_STAT.CONFLICT, bits [3:3], W1C (master coordinates and event calendar). -/
def Reg.CAL_STAT_CONFLICT : Field := ⟨0x309004, 3, 1, .w1c, 0⟩

/-- CAL_STAT.SCHED_OVF, bits [2:2], W1C (master coordinates and event calendar). -/
def Reg.CAL_STAT_SCHED_OVF : Field := ⟨0x309004, 2, 1, .w1c, 0⟩

/-- CAL_STAT.EDIT_REFUSED, bits [1:1], W1C (master coordinates and event calendar). -/
def Reg.CAL_STAT_EDIT_REFUSED : Field := ⟨0x309004, 1, 1, .w1c, 0⟩

/-- CAL_STAT.BAD_ENABLE, bits [0:0], W1C (master coordinates and event calendar). -/
def Reg.CAL_STAT_BAD_ENABLE : Field := ⟨0x309004, 0, 1, .w1c, 0⟩

/-- CAL_RETRACTED, bits [31:0], RO (master coordinates and event calendar). -/
def Reg.CAL_RETRACTED : Field := ⟨0x309008, 0, 32, .ro, 0⟩

/-- CAL_LATE_CNT, bits [31:0], RO (master coordinates and event calendar). -/
def Reg.CAL_LATE_CNT : Field := ⟨0x30900c, 0, 32, .ro, 0⟩

/-- CAL_OVF_CNT, bits [31:0], RO (master coordinates and event calendar). -/
def Reg.CAL_OVF_CNT : Field := ⟨0x309010, 0, 32, .ro, 0⟩

/-- CAL_CONFLICT_CNT, bits [31:0], RO (master coordinates and event calendar). -/
def Reg.CAL_CONFLICT_CNT : Field := ⟨0x309014, 0, 32, .ro, 0⟩

/-- CAL_FIRED_CNT, bits [31:0], RO (master coordinates and event calendar). -/
def Reg.CAL_FIRED_CNT : Field := ⟨0x309018, 0, 32, .ro, 0⟩

/-- CAL_ENABLED, bits [31:0], RO (master coordinates and event calendar). -/
def Reg.CAL_ENABLED : Field := ⟨0x30901c, 0, 32, .ro, 0⟩

/-- TB_COUNT, bits [63:0], RO (timebase). -/
def Reg.TB_COUNT : Field := ⟨0x900000, 0, 64, .ro, 0⟩

/-- TB_DT, bits [63:0], RO (timebase). -/
def Reg.TB_DT : Field := ⟨0x900008, 0, 64, .ro, 0⟩

/-- TB_DT_FRAC.FRAC, bits [15:0], RO (timebase). -/
def Reg.TB_DT_FRAC_FRAC : Field := ⟨0x900010, 0, 16, .ro, 0⟩

/-- TB_STATE.RESTEPPED, bits [6:6], W1C (timebase). -/
def Reg.TB_STATE_RESTEPPED : Field := ⟨0x900014, 6, 1, .w1c, 0⟩

/-- TB_STATE.OUT_OF_BOUND, bits [5:5], W1C (timebase). -/
def Reg.TB_STATE_OUT_OF_BOUND : Field := ⟨0x900014, 5, 1, .w1c, 0⟩

/-- TB_STATE.RATE_CLAMP, bits [4:4], W1C (timebase). -/
def Reg.TB_STATE_RATE_CLAMP : Field := ⟨0x900014, 4, 1, .w1c, 0⟩

/-- TB_STATE.LOCKED, bits [3:3], RO (timebase). -/
def Reg.TB_STATE_LOCKED : Field := ⟨0x900014, 3, 1, .ro, 0⟩

/-- TB_STATE.STATE, bits [2:0], RO (timebase). -/
def Reg.TB_STATE_STATE : Field := ⟨0x900014, 0, 3, .ro, 0⟩

/-- TB_RATE, bits [31:0], RO (timebase). -/
def Reg.TB_RATE : Field := ⟨0x900018, 0, 32, .ro, 0⟩

/-- TB_OFFS_ERR, bits [31:0], RO (timebase). -/
def Reg.TB_OFFS_ERR : Field := ⟨0x90001c, 0, 32, .ro, 0⟩

/-- TB_ERR_EST, bits [31:0], RO (timebase). -/
def Reg.TB_ERR_EST : Field := ⟨0x900020, 0, 32, .ro, 4294967295⟩

/-- TB_SERVO.LOCK_NS, bits [31:16], RW (timebase). -/
def Reg.TB_SERVO_LOCK_NS : Field := ⟨0x900024, 16, 16, .rw, 100⟩

/-- TB_SERVO.LOCK_N, bits [12:8], RW (timebase). -/
def Reg.TB_SERVO_LOCK_N : Field := ⟨0x900024, 8, 5, .rw, 16⟩

/-- TB_SERVO.KI_SHIFT, bits [7:4], RW (timebase). -/
def Reg.TB_SERVO_KI_SHIFT : Field := ⟨0x900024, 4, 4, .rw, 4⟩

/-- TB_SERVO.KP_SHIFT, bits [3:0], RW (timebase). -/
def Reg.TB_SERVO_KP_SHIFT : Field := ⟨0x900024, 0, 4, .rw, 1⟩

/-- TB_LIMITS.HOLDOVER_DRIFT, bits [31:16], RW (timebase). -/
def Reg.TB_LIMITS_HOLDOVER_DRIFT : Field := ⟨0x900028, 16, 16, .rw, 1000⟩

/-- TB_LIMITS.UNLOCK_NS, bits [15:0], RW (timebase). -/
def Reg.TB_LIMITS_UNLOCK_NS : Field := ⟨0x900028, 0, 16, .rw, 1000⟩

/-- TB_PTP_CFG.GM_SETTLE, bits [31:28], RW (timebase). -/
def Reg.TB_PTP_CFG_GM_SETTLE : Field := ⟨0x90002c, 28, 4, .rw, 2⟩

/-- TB_PTP_CFG.ANN_TIMEOUT, bits [27:24], RW (timebase). -/
def Reg.TB_PTP_CFG_ANN_TIMEOUT : Field := ⟨0x90002c, 24, 4, .rw, 3⟩

/-- TB_PTP_CFG.LOG_PDELAY, bits [23:20], RW (timebase). -/
def Reg.TB_PTP_CFG_LOG_PDELAY : Field := ⟨0x90002c, 20, 4, .rw, 0⟩

/-- TB_PTP_CFG.LOG_ANN, bits [19:16], RW (timebase). -/
def Reg.TB_PTP_CFG_LOG_ANN : Field := ⟨0x90002c, 16, 4, .rw, 0⟩

/-- TB_PTP_CFG.LOG_SYNC, bits [15:12], RW (timebase). -/
def Reg.TB_PTP_CFG_LOG_SYNC : Field := ⟨0x90002c, 12, 4, .rw, 12⟩

/-- TB_PTP_CFG.NET_PREF, bits [8:8], RW (timebase). -/
def Reg.TB_PTP_CFG_NET_PREF : Field := ⟨0x90002c, 8, 1, .rw, 0⟩

/-- TB_PTP_CFG.SLAVE_ONLY, bits [7:7], RW (timebase). -/
def Reg.TB_PTP_CFG_SLAVE_ONLY : Field := ⟨0x90002c, 7, 1, .rw, 0⟩

/-- TB_PTP_CFG.DOMAIN, bits [6:0], RW (timebase). -/
def Reg.TB_PTP_CFG_DOMAIN : Field := ⟨0x90002c, 0, 7, .rw, 0⟩

/-- TB_PTP_PRIO.CLOCK_ACCURACY, bits [31:24], RW (timebase). -/
def Reg.TB_PTP_PRIO_CLOCK_ACCURACY : Field := ⟨0x900030, 24, 8, .rw, 254⟩

/-- TB_PTP_PRIO.CLOCK_CLASS, bits [23:16], RW (timebase). -/
def Reg.TB_PTP_PRIO_CLOCK_CLASS : Field := ⟨0x900030, 16, 8, .rw, 248⟩

/-- TB_PTP_PRIO.PRIORITY2, bits [15:8], RW (timebase). -/
def Reg.TB_PTP_PRIO_PRIORITY2 : Field := ⟨0x900030, 8, 8, .rw, 128⟩

/-- TB_PTP_PRIO.PRIORITY1, bits [7:0], RW (timebase). -/
def Reg.TB_PTP_PRIO_PRIORITY1 : Field := ⟨0x900030, 0, 8, .rw, 128⟩

/-- TB_GM_FLAGS.TIME_SOURCE, bits [31:24], RW (timebase). -/
def Reg.TB_GM_FLAGS_TIME_SOURCE : Field := ⟨0x900034, 24, 8, .rw, 160⟩

/-- TB_GM_FLAGS.UTC, bits [15:0], RW (timebase). -/
def Reg.TB_GM_FLAGS_UTC : Field := ⟨0x900034, 0, 16, .rw, 0⟩

/-- TB_CLOCK_ID, bits [63:0], RO (timebase). Fused; the value here is the one of log entry 5. -/
def Reg.TB_CLOCK_ID : Field := ⟨0x900038, 0, 64, .ro, 0⟩

/-- TB_GM_ID, bits [63:0], RO (timebase). -/
def Reg.TB_GM_ID : Field := ⟨0x900040, 0, 64, .ro, 0⟩

/-- TB_SEED_FLOOR, bits [63:0], RO (timebase). Its value comes from the configuration image; before stage CFG it is the one of log entry 4. -/
def Reg.TB_SEED_FLOOR : Field := ⟨0x900048, 0, 64, .ro, 0⟩

/-- TB_RESTEP_CNT, bits [31:0], RO (timebase). -/
def Reg.TB_RESTEP_CNT : Field := ⟨0x900050, 0, 32, .ro, 0⟩

/-- TB_PTP_IGN, bits [31:0], RO (timebase). -/
def Reg.TB_PTP_IGN : Field := ⟨0x900054, 0, 32, .ro, 0⟩

/-- TB_PTP_DUP, bits [31:0], RO (timebase). -/
def Reg.TB_PTP_DUP : Field := ⟨0x900058, 0, 32, .ro, 0⟩

/-- TB_TLV_IGN, bits [31:0], RO (timebase). -/
def Reg.TB_TLV_IGN : Field := ⟨0x90005c, 0, 32, .ro, 0⟩

/-- TB_PATH_ERR, bits [31:0], RO (timebase). Its value comes from the configuration image; before stage CFG it is the one of log entry 4. -/
def Reg.TB_PATH_ERR : Field := ⟨0x900060, 0, 32, .ro, 0⟩

/-- PORT_LAT.TX_LAT, bits [31:16], RW (timebase). -/
def Reg.PORT_LAT_TX_LAT (i : Nat) : Field := ⟨0x900100 + 0x20 * i, 16, 16, .rw, 0⟩

/-- PORT_LAT.RX_LAT, bits [15:0], RW (timebase). -/
def Reg.PORT_LAT_RX_LAT (i : Nat) : Field := ⟨0x900100 + 0x20 * i, 0, 16, .rw, 0⟩

/-- PORT_ASYM, bits [31:0], RW (timebase). -/
def Reg.PORT_ASYM (i : Nat) : Field := ⟨0x900104 + 0x20 * i, 0, 32, .rw, 0⟩

/-- PORT_LINK_DELAY, bits [31:0], RO (timebase). -/
def Reg.PORT_LINK_DELAY (i : Nat) : Field := ⟨0x900108 + 0x20 * i, 0, 32, .ro, 0⟩

/-- TB_PDELAY_MAX, bits [31:0], RW (timebase). -/
def Reg.TB_PDELAY_MAX (i : Nat) : Field := ⟨0x90010c + 0x20 * i, 0, 32, .rw, 10000⟩

/-- PORT_STAT.DELAY_HIGH, bits [3:3], W1C (timebase). -/
def Reg.PORT_STAT_DELAY_HIGH (i : Nat) : Field := ⟨0x900110 + 0x20 * i, 3, 1, .w1c, 0⟩

/-- PORT_STAT.AS_CAPABLE, bits [2:2], RO (timebase). -/
def Reg.PORT_STAT_AS_CAPABLE (i : Nat) : Field := ⟨0x900110 + 0x20 * i, 2, 1, .ro, 0⟩

/-- PORT_STAT.ROLE, bits [1:0], RO (timebase). -/
def Reg.PORT_STAT_ROLE (i : Nat) : Field := ⟨0x900110 + 0x20 * i, 0, 2, .ro, 0⟩

/-- LOOP_CTRL.RUN, bits [0:0], RW (loop engine). -/
def Reg.LOOP_CTRL_RUN : Field := ⟨0x200000, 0, 1, .rw, 0⟩

/-- LOOP_STAT.LOCAL_LATE, bits [8:8], W1C (loop engine). -/
def Reg.LOOP_STAT_LOCAL_LATE : Field := ⟨0x200004, 8, 1, .w1c, 0⟩

/-- LOOP_STAT.ECC_CORR, bits [7:7], W1C (loop engine). -/
def Reg.LOOP_STAT_ECC_CORR : Field := ⟨0x200004, 7, 1, .w1c, 0⟩

/-- LOOP_STAT.FAULT, bits [6:6], RO (loop engine). -/
def Reg.LOOP_STAT_FAULT : Field := ⟨0x200004, 6, 1, .ro, 0⟩

/-- LOOP_STAT.SWAP_DONE, bits [5:5], W1C (loop engine). -/
def Reg.LOOP_STAT_SWAP_DONE : Field := ⟨0x200004, 5, 1, .w1c, 0⟩

/-- LOOP_STAT.SWAP_PENDING, bits [4:4], RO (loop engine). -/
def Reg.LOOP_STAT_SWAP_PENDING : Field := ⟨0x200004, 4, 1, .ro, 0⟩

/-- LOOP_STAT.STATE_WR, bits [3:3], W1C (loop engine). -/
def Reg.LOOP_STAT_STATE_WR : Field := ⟨0x200004, 3, 1, .w1c, 0⟩

/-- LOOP_STAT.ACTIVE_WR, bits [2:2], W1C (loop engine). -/
def Reg.LOOP_STAT_ACTIVE_WR : Field := ⟨0x200004, 2, 1, .w1c, 0⟩

/-- LOOP_STAT.OVERRUN, bits [1:1], W1C (loop engine). -/
def Reg.LOOP_STAT_OVERRUN : Field := ⟨0x200004, 1, 1, .w1c, 0⟩

/-- LOOP_STAT.RUNNING, bits [0:0], RO (loop engine). -/
def Reg.LOOP_STAT_RUNNING : Field := ⟨0x200004, 0, 1, .ro, 0⟩

/-- LOOP_LOCAL.READY_NS, bits [15:0], RW (loop engine). -/
def Reg.LOOP_LOCAL_READY_NS : Field := ⟨0x200008, 0, 16, .rw, 2000⟩

/-- LOOP_BUSY.PASSES, bits [18:16], RO (loop engine). -/
def Reg.LOOP_BUSY_PASSES : Field := ⟨0x20000c, 16, 3, .ro, 0⟩

/-- LOOP_BUSY.END_NS, bits [15:0], RO (loop engine). -/
def Reg.LOOP_BUSY_END_NS : Field := ⟨0x20000c, 0, 16, .ro, 0⟩

/-- LOOP_BUSY_MAX.END_MAX, bits [15:0], RW (loop engine). -/
def Reg.LOOP_BUSY_MAX_END_MAX : Field := ⟨0x200010, 0, 16, .rw, 0⟩

/-- LOOP_OVR_CNT, bits [31:0], RO (loop engine). -/
def Reg.LOOP_OVR_CNT : Field := ⟨0x200014, 0, 32, .ro, 0⟩

/-- LOOP_WR_IGN, bits [31:0], RO (loop engine). -/
def Reg.LOOP_WR_IGN : Field := ⟨0x200018, 0, 32, .ro, 0⟩

/-- LOOP_ECC_CNT.CORR, bits [15:0], RO (loop engine). -/
def Reg.LOOP_ECC_CNT_CORR : Field := ⟨0x20001c, 0, 16, .ro, 0⟩

/-- LOOP_ECC_CNT.UNCORR, bits [31:16], RO (loop engine). -/
def Reg.LOOP_ECC_CNT_UNCORR : Field := ⟨0x20001c, 16, 16, .ro, 0⟩

/-- LOOP_PUB.BASE_ID, bits [17:0], RO (loop engine). Its value comes from the configuration image; before stage CFG it is the one of log entry 4. -/
def Reg.LOOP_PUB_BASE_ID : Field := ⟨0x200020, 0, 18, .ro, 0⟩

/-- LOOP_PUB.AXES, bits [25:18], RO (loop engine). Its value comes from the configuration image; before stage CFG it is the one of log entry 4. -/
def Reg.LOOP_PUB_AXES : Field := ⟨0x200020, 18, 8, .ro, 0⟩

/-- LOOP_SWAP_EPOCH, bits [63:0], RO (loop engine). -/
def Reg.LOOP_SWAP_EPOCH : Field := ⟨0x200024, 0, 64, .ro, 0⟩

/-- AXIS_STAT.FE_CNT, bits [31:16], RO (loop engine). -/
def Reg.AXIS_STAT_FE_CNT (i : Nat) : Field := ⟨0x201000 + 0x10 * i, 16, 16, .ro, 0⟩

/-- AXIS_STAT.ENABLED, bits [13:13], RO (loop engine). -/
def Reg.AXIS_STAT_ENABLED (i : Nat) : Field := ⟨0x201000 + 0x10 * i, 13, 1, .ro, 0⟩

/-- AXIS_STAT.BANK, bits [12:12], RO (loop engine). -/
def Reg.AXIS_STAT_BANK (i : Nat) : Field := ⟨0x201000 + 0x10 * i, 12, 1, .ro, 0⟩

/-- AXIS_STAT.EVALUATED, bits [11:11], RO (loop engine). -/
def Reg.AXIS_STAT_EVALUATED (i : Nat) : Field := ⟨0x201000 + 0x10 * i, 11, 1, .ro, 0⟩

/-- AXIS_STAT.FAULT, bits [10:8], RO (loop engine). -/
def Reg.AXIS_STAT_FAULT (i : Nat) : Field := ⟨0x201000 + 0x10 * i, 8, 3, .ro, 0⟩

/-- AXIS_STAT.MISSED, bits [7:7], RO (loop engine). -/
def Reg.AXIS_STAT_MISSED (i : Nat) : Field := ⟨0x201000 + 0x10 * i, 7, 1, .ro, 0⟩

/-- AXIS_STAT.SAT, bits [6:6], W1C (loop engine). -/
def Reg.AXIS_STAT_SAT (i : Nat) : Field := ⟨0x201000 + 0x10 * i, 6, 1, .w1c, 0⟩

/-- AXIS_STAT.CONSTRAINED, bits [5:2], RO (loop engine). -/
def Reg.AXIS_STAT_CONSTRAINED (i : Nat) : Field := ⟨0x201000 + 0x10 * i, 2, 4, .ro, 0⟩

/-- AXIS_STAT.WINNER, bits [1:0], RO (loop engine). -/
def Reg.AXIS_STAT_WINNER (i : Nat) : Field := ⟨0x201000 + 0x10 * i, 0, 2, .ro, 0⟩

/-- AXIS_OUT, bits [31:0], RO (loop engine). -/
def Reg.AXIS_OUT (i : Nat) : Field := ⟨0x201004 + 0x10 * i, 0, 32, .ro, 0⟩

/-- AXIS_FE, bits [31:0], RO (loop engine). -/
def Reg.AXIS_FE (i : Nat) : Field := ⟨0x201008 + 0x10 * i, 0, 32, .ro, 0⟩

/-- AXIS_CNT.MISS_RUN, bits [23:16], RO (loop engine). -/
def Reg.AXIS_CNT_MISS_RUN (i : Nat) : Field := ⟨0x20100c + 0x10 * i, 16, 8, .ro, 0⟩

/-- AXIS_CNT.SWITCH_CNT, bits [15:0], RO (loop engine). -/
def Reg.AXIS_CNT_SWITCH_CNT (i : Nat) : Field := ⟨0x20100c + 0x10 * i, 0, 16, .ro, 0⟩

/-- TRC_CTRL.TRIG, bits [2:2], WO (trace control). -/
def Reg.TRC_CTRL_TRIG : Field := ⟨0xf00000, 2, 1, .wo, 0⟩

/-- TRC_CTRL.STOP, bits [1:1], WO (trace control). -/
def Reg.TRC_CTRL_STOP : Field := ⟨0xf00000, 1, 1, .wo, 0⟩

/-- TRC_CTRL.ARM, bits [0:0], WO (trace control). -/
def Reg.TRC_CTRL_ARM : Field := ⟨0xf00000, 0, 1, .wo, 0⟩

/-- TRC_STAT.ARM_BAD, bits [4:4], W1C (trace control). -/
def Reg.TRC_STAT_ARM_BAD : Field := ⟨0xf00004, 4, 1, .w1c, 0⟩

/-- TRC_STAT.CFG_BAD, bits [3:3], W1C (trace control). -/
def Reg.TRC_STAT_CFG_BAD : Field := ⟨0xf00004, 3, 1, .w1c, 0⟩

/-- TRC_STAT.LEN_BUSY, bits [2:2], W1C (trace control). -/
def Reg.TRC_STAT_LEN_BUSY : Field := ⟨0xf00004, 2, 1, .w1c, 0⟩

/-- TRC_STAT.STATE, bits [1:0], RO (trace control). -/
def Reg.TRC_STAT_STATE : Field := ⟨0xf00004, 0, 2, .ro, 0⟩

/-- TRC_FMT.NCH, bits [20:16], RW (trace control). -/
def Reg.TRC_FMT_NCH : Field := ⟨0xf00008, 16, 5, .rw, 1⟩

/-- TRC_FMT.DIV, bits [15:0], RW (trace control). -/
def Reg.TRC_FMT_DIV : Field := ⟨0xf00008, 0, 16, .rw, 1⟩

/-- TRC_BASE, bits [20:0], RW (trace control). -/
def Reg.TRC_BASE : Field := ⟨0xf0000c, 0, 21, .rw, 0⟩

/-- TRC_LEN, bits [17:0], RW (trace control). -/
def Reg.TRC_LEN : Field := ⟨0xf00010, 0, 18, .rw, 1⟩

/-- TRC_PRE, bits [17:0], RW (trace control). -/
def Reg.TRC_PRE : Field := ⟨0xf00014, 0, 18, .rw, 0⟩

/-- TRC_POST, bits [17:0], RW (trace control). -/
def Reg.TRC_POST : Field := ⟨0xf00018, 0, 18, .rw, 1⟩

/-- TRC_TRIG.SRC, bits [2:0], RW (trace control). -/
def Reg.TRC_TRIG_SRC : Field := ⟨0xf0001c, 0, 3, .rw, 0⟩

/-- TRC_TRIG.DIR, bits [3:3], RW (trace control). -/
def Reg.TRC_TRIG_DIR : Field := ⟨0xf0001c, 3, 1, .rw, 0⟩

/-- TRC_TRIG.CH, bits [7:4], RW (trace control). -/
def Reg.TRC_TRIG_CH : Field := ⟨0xf0001c, 4, 4, .rw, 0⟩

/-- TRC_TRIG.INDEX, bits [19:8], RW (trace control). -/
def Reg.TRC_TRIG_INDEX : Field := ⟨0xf0001c, 8, 12, .rw, 0⟩

/-- TRC_TRIG_X, bits [31:0], RW (trace control). -/
def Reg.TRC_TRIG_X : Field := ⟨0xf00020, 0, 32, .rw, 0⟩

/-- TRC_WR_PTR, bits [17:0], RO (trace control). -/
def Reg.TRC_WR_PTR : Field := ⟨0xf00024, 0, 18, .ro, 0⟩

/-- TRC_MARK, bits [17:0], RO (trace control). -/
def Reg.TRC_MARK : Field := ⟨0xf00028, 0, 18, .ro, 0⟩

/-- TRC_TRIG_ROW, bits [31:0], RO (trace control). -/
def Reg.TRC_TRIG_ROW : Field := ⟨0xf0002c, 0, 32, .ro, 0⟩

/-- TRC_PRE_TRUNC, bits [17:0], RO (trace control). -/
def Reg.TRC_PRE_TRUNC : Field := ⟨0xf00030, 0, 18, .ro, 0⟩

/-- TRC_VALID_ROWS, bits [17:0], RO (trace control). -/
def Reg.TRC_VALID_ROWS : Field := ⟨0xf00034, 0, 18, .ro, 0⟩

/-- TRC_TRIG_EPOCH, bits [63:0], RO (trace control). -/
def Reg.TRC_TRIG_EPOCH : Field := ⟨0xf00038, 0, 64, .ro, 0⟩

/-- TRC_WR_IGN, bits [31:0], RO (trace control). -/
def Reg.TRC_WR_IGN : Field := ⟨0xf00040, 0, 32, .ro, 0⟩

/-- TRC_ECC_CNT.CORR, bits [15:0], RO (trace control). -/
def Reg.TRC_ECC_CNT_CORR : Field := ⟨0xf00044, 0, 16, .ro, 0⟩

/-- TRC_ECC_CNT.UNCORR, bits [31:16], RO (trace control). -/
def Reg.TRC_ECC_CNT_UNCORR : Field := ⟨0xf00044, 16, 16, .ro, 0⟩

/-- TRC_CH.SRC, bits [31:28], RW (trace control). -/
def Reg.TRC_CH_SRC (i : Nat) : Field := ⟨0xf00100 + 0x4 * i, 28, 4, .rw, 0⟩

/-- TRC_CH.SEL, bits [27:0], RW (trace control). -/
def Reg.TRC_CH_SEL (i : Nat) : Field := ⟨0xf00100 + 0x4 * i, 0, 28, .rw, 0⟩

/-- INJ_CTRL.WAVE, bits [1:0], RW (trace control). -/
def Reg.INJ_CTRL_WAVE (i : Nat) : Field := ⟨0xf00200 + 0x20 * i, 0, 2, .rw, 0⟩

/-- INJ_NODE.AXIS, bits [6:0], RW (trace control). -/
def Reg.INJ_NODE_AXIS (i : Nat) : Field := ⟨0xf00204 + 0x20 * i, 0, 7, .rw, 0⟩

/-- INJ_NODE.CAND, bits [9:7], RW (trace control). -/
def Reg.INJ_NODE_CAND (i : Nat) : Field := ⟨0xf00204 + 0x20 * i, 7, 3, .rw, 0⟩

/-- INJ_NODE.POINT, bits [11:10], RW (trace control). -/
def Reg.INJ_NODE_POINT (i : Nat) : Field := ⟨0xf00204 + 0x20 * i, 10, 2, .rw, 0⟩

/-- INJ_AMP, bits [15:0], RW (trace control). -/
def Reg.INJ_AMP (i : Nat) : Field := ⟨0xf00208 + 0x20 * i, 0, 16, .rw, 0⟩

/-- INJ_P0, bits [31:0], RW (trace control). -/
def Reg.INJ_P0 (i : Nat) : Field := ⟨0xf0020c + 0x20 * i, 0, 32, .rw, 0⟩

/-- INJ_P1, bits [31:0], RW (trace control). -/
def Reg.INJ_P1 (i : Nat) : Field := ⟨0xf00210 + 0x20 * i, 0, 32, .rw, 0⟩

/-- INJ_COUNT, bits [31:0], RW (trace control). -/
def Reg.INJ_COUNT (i : Nat) : Field := ⟨0xf00214 + 0x20 * i, 0, 32, .rw, 0⟩

/-- INJ_STAT.ACTIVE, bits [0:0], RO (trace control). -/
def Reg.INJ_STAT_ACTIVE (i : Nat) : Field := ⟨0xf00218 + 0x20 * i, 0, 1, .ro, 0⟩

/-- INJ_STAT.ABORTED, bits [1:1], W1C (trace control). -/
def Reg.INJ_STAT_ABORTED (i : Nat) : Field := ⟨0xf00218 + 0x20 * i, 1, 1, .w1c, 0⟩

/-- INJ_DONE, bits [31:0], RO (trace control). -/
def Reg.INJ_DONE (i : Nat) : Field := ⟨0xf0021c + 0x20 * i, 0, 32, .ro, 0⟩

/-- PRF_CTRL.RUN, bits [0:0], RW (profile generator). -/
def Reg.PRF_CTRL_RUN : Field := ⟨0x300000, 0, 1, .rw, 0⟩

/-- PRF_STAT.PARAM_BAD, bits [2:2], W1C (profile generator). -/
def Reg.PRF_STAT_PARAM_BAD : Field := ⟨0x300004, 2, 1, .w1c, 0⟩

/-- PRF_STAT.OVERRUN, bits [1:1], W1C (profile generator). -/
def Reg.PRF_STAT_OVERRUN : Field := ⟨0x300004, 1, 1, .w1c, 0⟩

/-- PRF_STAT.RUNNING, bits [0:0], RO (profile generator). -/
def Reg.PRF_STAT_RUNNING : Field := ⟨0x300004, 0, 1, .ro, 0⟩

/-- PRF_BUSY.REPLANS, bits [23:16], RO (profile generator). -/
def Reg.PRF_BUSY_REPLANS : Field := ⟨0x300008, 16, 8, .ro, 0⟩

/-- PRF_BUSY.END_NS, bits [15:0], RO (profile generator). -/
def Reg.PRF_BUSY_END_NS : Field := ⟨0x300008, 0, 16, .ro, 0⟩

/-- PRF_WDRAW_CNT, bits [31:0], RO (profile generator). -/
def Reg.PRF_WDRAW_CNT : Field := ⟨0x30000c, 0, 32, .ro, 0⟩

/-- AX_PRF_STAT.DONE, bits [23:23], RO (profile generator). -/
def Reg.AX_PRF_STAT_DONE (i : Nat) : Field := ⟨0x301000 + 0x40 * i, 23, 1, .ro, 0⟩

/-- AX_PRF_STAT.REVERSAL_PENDING, bits [22:22], RO (profile generator). -/
def Reg.AX_PRF_STAT_REVERSAL_PENDING (i : Nat) : Field := ⟨0x301000 + 0x40 * i, 22, 1, .ro, 0⟩

/-- AX_PRF_STAT.BLENDING, bits [21:21], RO (profile generator). -/
def Reg.AX_PRF_STAT_BLENDING (i : Nat) : Field := ⟨0x301000 + 0x40 * i, 21, 1, .ro, 0⟩

/-- AX_PRF_STAT.CAPPED, bits [20:20], RO (profile generator). -/
def Reg.AX_PRF_STAT_CAPPED (i : Nat) : Field := ⟨0x301000 + 0x40 * i, 20, 1, .ro, 0⟩

/-- AX_PRF_STAT.STOP_KIND, bits [19:16], RO (profile generator). -/
def Reg.AX_PRF_STAT_STOP_KIND (i : Nat) : Field := ⟨0x301000 + 0x40 * i, 16, 4, .ro, 0⟩

/-- AX_PRF_STAT.OUTSIDE, bits [15:15], RO (profile generator). -/
def Reg.AX_PRF_STAT_OUTSIDE (i : Nat) : Field := ⟨0x301000 + 0x40 * i, 15, 1, .ro, 0⟩

/-- AX_PRF_STAT.PLAN_MISMATCH, bits [10:10], W1C (profile generator). -/
def Reg.AX_PRF_STAT_PLAN_MISMATCH (i : Nat) : Field := ⟨0x301000 + 0x40 * i, 10, 1, .w1c, 0⟩

/-- AX_PRF_STAT.COORD_LOST, bits [9:9], W1C (profile generator). -/
def Reg.AX_PRF_STAT_COORD_LOST (i : Nat) : Field := ⟨0x301000 + 0x40 * i, 9, 1, .w1c, 0⟩

/-- AX_PRF_STAT.CAP_BREAK, bits [8:8], W1C (profile generator). -/
def Reg.AX_PRF_STAT_CAP_BREAK (i : Nat) : Field := ⟨0x301000 + 0x40 * i, 8, 1, .w1c, 0⟩

/-- AX_PRF_STAT.VLIM_CLAMP, bits [7:7], W1C (profile generator). -/
def Reg.AX_PRF_STAT_VLIM_CLAMP (i : Nat) : Field := ⟨0x301000 + 0x40 * i, 7, 1, .w1c, 0⟩

/-- AX_PRF_STAT.VLIM_HIT, bits [6:6], W1C (profile generator). -/
def Reg.AX_PRF_STAT_VLIM_HIT (i : Nat) : Field := ⟨0x301000 + 0x40 * i, 6, 1, .w1c, 0⟩

/-- AX_PRF_STAT.TARGET_OVERRUN, bits [5:5], W1C (profile generator). -/
def Reg.AX_PRF_STAT_TARGET_OVERRUN (i : Nat) : Field := ⟨0x301000 + 0x40 * i, 5, 1, .w1c, 0⟩

/-- AX_PRF_STAT.DECEL_RAISED, bits [4:4], W1C (profile generator). -/
def Reg.AX_PRF_STAT_DECEL_RAISED (i : Nat) : Field := ⟨0x301000 + 0x40 * i, 4, 1, .w1c, 0⟩

/-- AX_PRF_STAT.MODE, bits [2:0], RO (profile generator). -/
def Reg.AX_PRF_STAT_MODE (i : Nat) : Field := ⟨0x301000 + 0x40 * i, 0, 3, .ro, 0⟩

/-- AX_PRF_CNT.WDRAW, bits [15:0], RO (profile generator). -/
def Reg.AX_PRF_CNT_WDRAW (i : Nat) : Field := ⟨0x301004 + 0x40 * i, 0, 16, .ro, 0⟩

/-- AX_PRF_CNT.REPLAN, bits [31:16], RO (profile generator). -/
def Reg.AX_PRF_CNT_REPLAN (i : Nat) : Field := ⟨0x301004 + 0x40 * i, 16, 16, .ro, 0⟩

/-- AX_SP, bits [63:0], RO (profile generator). -/
def Reg.AX_SP (i : Nat) : Field := ⟨0x301008 + 0x40 * i, 0, 64, .ro, 0⟩

/-- AX_VEL, bits [63:0], RO (profile generator). -/
def Reg.AX_VEL (i : Nat) : Field := ⟨0x301010 + 0x40 * i, 0, 64, .ro, 0⟩

/-- AX_ACC, bits [63:0], RO (profile generator). -/
def Reg.AX_ACC (i : Nat) : Field := ⟨0x301018 + 0x40 * i, 0, 64, .ro, 0⟩

/-- AX_TARGET, bits [63:0], RO (profile generator). -/
def Reg.AX_TARGET (i : Nat) : Field := ⟨0x301020 + 0x40 * i, 0, 64, .ro, 0⟩

/-- AX_CAP, bits [31:0], RO (profile generator). -/
def Reg.AX_CAP (i : Nat) : Field := ⟨0x301028 + 0x40 * i, 0, 32, .ro, 4294967295⟩

/-- AX_GEAR.ENTRY, bits [3:0], RO (profile generator). -/
def Reg.AX_GEAR_ENTRY (i : Nat) : Field := ⟨0x30102c + 0x40 * i, 0, 4, .ro, 0⟩

/-- AX_GEAR.COORD, bits [6:4], RO (profile generator). -/
def Reg.AX_GEAR_COORD (i : Nat) : Field := ⟨0x30102c + 0x40 * i, 4, 3, .ro, 0⟩

/-- AX_DECEL_EFF, bits [63:0], RO (profile generator). -/
def Reg.AX_DECEL_EFF (i : Nat) : Field := ⟨0x301030 + 0x40 * i, 0, 64, .ro, 0⟩

/-- TEAM_TRIPPED, bits [23:0], RO (power teams, ADC, encoders). -/
def Reg.TEAM_TRIPPED : Field := ⟨0x400000, 0, 24, .ro, 0⟩

/-- TEAM_STO, bits [23:0], RO (power teams, ADC, encoders). -/
def Reg.TEAM_STO : Field := ⟨0x400004, 0, 24, .ro, 0⟩

/-- GTRIP_CFG, bits [3:0], RW (power teams, ADC, encoders). -/
def Reg.GTRIP_CFG : Field := ⟨0x400008, 0, 4, .rw, 0⟩

/-- GTRIP_MASK, bits [23:0], RW (power teams, ADC, encoders). -/
def Reg.GTRIP_MASK (i : Nat) : Field := ⟨0x400010 + 0x4 * i, 0, 24, .rw, 0⟩

/-- TEAM_CFG.HOLD_EPOCHS, bits [20:16], RW (power teams, ADC, encoders). -/
def Reg.TEAM_CFG_HOLD_EPOCHS (i : Nat) : Field := ⟨0x401000 + 0x100 * i, 16, 5, .rw, 4⟩

/-- TEAM_CFG.PDIV, bits [15:9], RW (power teams, ADC, encoders). -/
def Reg.TEAM_CFG_PDIV (i : Nat) : Field := ⟨0x401000 + 0x100 * i, 9, 7, .rw, 1⟩

/-- TEAM_CFG.SAFE_STATE, bits [5:5], RW (power teams, ADC, encoders). -/
def Reg.TEAM_CFG_SAFE_STATE (i : Nat) : Field := ⟨0x401000 + 0x100 * i, 5, 1, .rw, 0⟩

/-- TEAM_CFG.OPEN_WIND, bits [4:4], RW (power teams, ADC, encoders). -/
def Reg.TEAM_CFG_OPEN_WIND (i : Nat) : Field := ⟨0x401000 + 0x100 * i, 4, 1, .rw, 0⟩

/-- TEAM_CFG.CENTRE, bits [3:3], RW (power teams, ADC, encoders). -/
def Reg.TEAM_CFG_CENTRE (i : Nat) : Field := ⟨0x401000 + 0x100 * i, 3, 1, .rw, 0⟩

/-- TEAM_CFG.MODE, bits [2:0], RW (power teams, ADC, encoders). -/
def Reg.TEAM_CFG_MODE (i : Nat) : Field := ⟨0x401000 + 0x100 * i, 0, 3, .rw, 0⟩

/-- TEAM_DT.DT, bits [9:0], RW (power teams, ADC, encoders). -/
def Reg.TEAM_DT_DT (i : Nat) : Field := ⟨0x401004 + 0x100 * i, 0, 10, .rw, 0⟩

/-- TEAM_DT.MIN_PULSE, bits [25:16], RW (power teams, ADC, encoders). -/
def Reg.TEAM_DT_MIN_PULSE (i : Nat) : Field := ⟨0x401004 + 0x100 * i, 16, 10, .rw, 0⟩

/-- TEAM_POL, bits [7:0], RW (power teams, ADC, encoders). -/
def Reg.TEAM_POL (i : Nat) : Field := ⟨0x401008 + 0x100 * i, 0, 8, .rw, 0⟩

/-- TEAM_DEM_SRC, bits [3:0], RW (power teams, ADC, encoders). -/
def Reg.TEAM_DEM_SRC (i : Nat) : Field := ⟨0x40100c + 0x100 * i, 0, 4, .rw, 0⟩

/-- DEM_SIG, bits [17:0], RW (power teams, ADC, encoders). -/
def Reg.DEM_SIG (i : Nat) (j : Nat) : Field := ⟨0x401010 + 0x100 * i + 0x4 * j, 0, 18, .rw, 0⟩

/-- TEAM_TRIP_CFG.TRIP_QUIET, bits [15:0], RW (power teams, ADC, encoders). -/
def Reg.TEAM_TRIP_CFG_TRIP_QUIET (i : Nat) : Field := ⟨0x401020 + 0x100 * i, 0, 16, .rw, 100⟩

/-- TEAM_TRIP_CFG.PIN_EN, bits [16:16], RW (power teams, ADC, encoders). -/
def Reg.TEAM_TRIP_CFG_PIN_EN (i : Nat) : Field := ⟨0x401020 + 0x100 * i, 16, 1, .rw, 1⟩

/-- TEAM_TRIP_CFG.PIN_ACTIVE_LOW, bits [17:17], RW (power teams, ADC, encoders). -/
def Reg.TEAM_TRIP_CFG_PIN_ACTIVE_LOW (i : Nat) : Field := ⟨0x401020 + 0x100 * i, 17, 1, .rw, 0⟩

/-- TEAM_TRIP_CFG.EN_ON_TRIP, bits [18:18], RW (power teams, ADC, encoders). -/
def Reg.TEAM_TRIP_CFG_EN_ON_TRIP (i : Nat) : Field := ⟨0x401020 + 0x100 * i, 18, 1, .rw, 0⟩

/-- TEAM_COMM.SRC, bits [1:0], RW (power teams, ADC, encoders). -/
def Reg.TEAM_COMM_SRC (i : Nat) : Field := ⟨0x401050 + 0x100 * i, 0, 2, .rw, 0⟩

/-- TEAM_COMM.ENC, bits [6:2], RW (power teams, ADC, encoders). -/
def Reg.TEAM_COMM_ENC (i : Nat) : Field := ⟨0x401050 + 0x100 * i, 2, 5, .rw, 0⟩

/-- TEAM_COMM.HALL_FILT, bits [14:7], RW (power teams, ADC, encoders). -/
def Reg.TEAM_COMM_HALL_FILT (i : Nat) : Field := ⟨0x401050 + 0x100 * i, 7, 8, .rw, 0⟩

/-- TEAM_COMM_TAB, bits [63:0], RW (power teams, ADC, encoders). -/
def Reg.TEAM_COMM_TAB (i : Nat) : Field := ⟨0x401054 + 0x100 * i, 0, 64, .rw, 0⟩

/-- TEAM_COMM_SIG, bits [17:0], RW (power teams, ADC, encoders). -/
def Reg.TEAM_COMM_SIG (i : Nat) : Field := ⟨0x40105c + 0x100 * i, 0, 18, .rw, 0⟩

/-- TEAM_CTRL.FORCE_TRIP, bits [1:1], WO (power teams, ADC, encoders). -/
def Reg.TEAM_CTRL_FORCE_TRIP (i : Nat) : Field := ⟨0x401024 + 0x100 * i, 1, 1, .wo, 0⟩

/-- TEAM_CTRL.TRIP_CLEAR, bits [0:0], WO (power teams, ADC, encoders). -/
def Reg.TEAM_CTRL_TRIP_CLEAR (i : Nat) : Field := ⟨0x401024 + 0x100 * i, 0, 1, .wo, 0⟩

/-- TEAM_STAT.OUT_STATE, bits [21:20], RO (power teams, ADC, encoders). -/
def Reg.TEAM_STAT_OUT_STATE (i : Nat) : Field := ⟨0x401028 + 0x100 * i, 20, 2, .ro, 0⟩

/-- TEAM_STAT.TRIP_SRC, bits [19:14], RO (power teams, ADC, encoders). -/
def Reg.TEAM_STAT_TRIP_SRC (i : Nat) : Field := ⟨0x401028 + 0x100 * i, 14, 6, .ro, 0⟩

/-- TEAM_STAT.FORCED, bits [13:13], RO (power teams, ADC, encoders). -/
def Reg.TEAM_STAT_FORCED (i : Nat) : Field := ⟨0x401028 + 0x100 * i, 13, 1, .ro, 0⟩

/-- TEAM_STAT.CFG_BUSY, bits [12:12], W1C (power teams, ADC, encoders). -/
def Reg.TEAM_STAT_CFG_BUSY (i : Nat) : Field := ⟨0x401028 + 0x100 * i, 12, 1, .w1c, 0⟩

/-- TEAM_STAT.STO_SEEN, bits [11:11], RO (power teams, ADC, encoders). -/
def Reg.TEAM_STAT_STO_SEEN (i : Nat) : Field := ⟨0x401028 + 0x100 * i, 11, 1, .ro, 0⟩

/-- TEAM_STAT.DROP, bits [10:10], W1C (power teams, ADC, encoders). -/
def Reg.TEAM_STAT_DROP (i : Nat) : Field := ⟨0x401028 + 0x100 * i, 10, 1, .w1c, 0⟩

/-- TEAM_STAT.CLEAR_REFUSED, bits [9:9], W1C (power teams, ADC, encoders). -/
def Reg.TEAM_STAT_CLEAR_REFUSED (i : Nat) : Field := ⟨0x401028 + 0x100 * i, 9, 1, .w1c, 0⟩

/-- TEAM_STAT.DEMAND_LOST, bits [8:8], RO (power teams, ADC, encoders). -/
def Reg.TEAM_STAT_DEMAND_LOST (i : Nat) : Field := ⟨0x401028 + 0x100 * i, 8, 1, .ro, 0⟩

/-- TEAM_STAT.HOLDING, bits [7:7], RO (power teams, ADC, encoders). -/
def Reg.TEAM_STAT_HOLDING (i : Nat) : Field := ⟨0x401028 + 0x100 * i, 7, 1, .ro, 0⟩

/-- TEAM_STAT.STO, bits [3:3], RO (power teams, ADC, encoders). -/
def Reg.TEAM_STAT_STO (i : Nat) : Field := ⟨0x401028 + 0x100 * i, 3, 1, .ro, 0⟩

/-- TEAM_STAT.TRIPPED, bits [2:2], RO (power teams, ADC, encoders). -/
def Reg.TEAM_STAT_TRIPPED (i : Nat) : Field := ⟨0x401028 + 0x100 * i, 2, 1, .ro, 0⟩

/-- TEAM_STAT.EN_PIN, bits [1:1], RO (power teams, ADC, encoders). -/
def Reg.TEAM_STAT_EN_PIN (i : Nat) : Field := ⟨0x401028 + 0x100 * i, 1, 1, .ro, 0⟩

/-- TEAM_STAT.ENABLED, bits [0:0], RO (power teams, ADC, encoders). -/
def Reg.TEAM_STAT_ENABLED (i : Nat) : Field := ⟨0x401028 + 0x100 * i, 0, 1, .ro, 0⟩

/-- TEAM_TON, bits [25:0], RO (power teams, ADC, encoders). -/
def Reg.TEAM_TON (i : Nat) (j : Nat) : Field := ⟨0x401030 + 0x100 * i + 0x4 * j, 0, 26, .ro, 0⟩

/-- TEAM_ADC_CMP.TICK, bits [18:0], RW (power teams, ADC, encoders). -/
def Reg.TEAM_ADC_CMP_TICK (i : Nat) (j : Nat) : Field := ⟨0x401040 + 0x100 * i + 0x4 * j, 0, 19, .rw, 0⟩

/-- TEAM_ADC_CMP.INPUT, bits [24:19], RW (power teams, ADC, encoders). -/
def Reg.TEAM_ADC_CMP_INPUT (i : Nat) (j : Nat) : Field := ⟨0x401040 + 0x100 * i + 0x4 * j, 19, 6, .rw, 0⟩

/-- TEAM_ADC_CMP.EVERY, bits [25:25], RW (power teams, ADC, encoders). -/
def Reg.TEAM_ADC_CMP_EVERY (i : Nat) (j : Nat) : Field := ⟨0x401040 + 0x100 * i + 0x4 * j, 25, 1, .rw, 0⟩

/-- TEAM_ADC_CMP.ENABLE, bits [26:26], RW (power teams, ADC, encoders). -/
def Reg.TEAM_ADC_CMP_ENABLE (i : Nat) (j : Nat) : Field := ⟨0x401040 + 0x100 * i + 0x4 * j, 26, 1, .rw, 0⟩

/-- TEAM_DROP_CNT, bits [31:0], RO (power teams, ADC, encoders). -/
def Reg.TEAM_DROP_CNT (i : Nat) : Field := ⟨0x401060 + 0x100 * i, 0, 32, .ro, 0⟩

/-- TEAM_TRIP_CNT, bits [31:0], RO (power teams, ADC, encoders). -/
def Reg.TEAM_TRIP_CNT (i : Nat) : Field := ⟨0x401064 + 0x100 * i, 0, 32, .ro, 0⟩

/-- TEAM_CLR_REF_CNT, bits [31:0], RO (power teams, ADC, encoders). -/
def Reg.TEAM_CLR_REF_CNT (i : Nat) : Field := ⟨0x401068 + 0x100 * i, 0, 32, .ro, 0⟩

/-- TEAM_HALL_ERR_CNT, bits [31:0], RO (power teams, ADC, encoders). -/
def Reg.TEAM_HALL_ERR_CNT (i : Nat) : Field := ⟨0x40106c + 0x100 * i, 0, 32, .ro, 0⟩

/-- ADC_CFG.ZERO, bits [15:0], RW (power teams, ADC, encoders). -/
def Reg.ADC_CFG_ZERO (i : Nat) : Field := ⟨0x404000 + 0x20 * i, 0, 16, .rw, 32768⟩

/-- ADC_CFG.GAIN, bits [31:16], RW (power teams, ADC, encoders). -/
def Reg.ADC_CFG_GAIN (i : Nat) : Field := ⟨0x404000 + 0x20 * i, 16, 16, .rw, 16384⟩

/-- ADC_LIM.LO, bits [15:0], RW (power teams, ADC, encoders). -/
def Reg.ADC_LIM_LO (i : Nat) : Field := ⟨0x404004 + 0x20 * i, 0, 16, .rw, 32768⟩

/-- ADC_LIM.HI, bits [31:16], RW (power teams, ADC, encoders). -/
def Reg.ADC_LIM_HI (i : Nat) : Field := ⟨0x404004 + 0x20 * i, 16, 16, .rw, 32767⟩

/-- ADC_LIM_MASK.TEAMS, bits [23:0], RW (power teams, ADC, encoders). -/
def Reg.ADC_LIM_MASK_TEAMS (i : Nat) : Field := ⟨0x404008 + 0x20 * i, 0, 24, .rw, 0⟩

/-- ADC_LIM_MASK.LIM_EN, bits [24:24], RW (power teams, ADC, encoders). -/
def Reg.ADC_LIM_MASK_LIM_EN (i : Nat) : Field := ⟨0x404008 + 0x20 * i, 24, 1, .rw, 0⟩

/-- ADC_LAST.SAMPLE, bits [15:0], RO (power teams, ADC, encoders). -/
def Reg.ADC_LAST_SAMPLE (i : Nat) : Field := ⟨0x40400c + 0x20 * i, 0, 16, .ro, 0⟩

/-- ADC_LAST.RAW, bits [31:16], RO (power teams, ADC, encoders). -/
def Reg.ADC_LAST_RAW (i : Nat) : Field := ⟨0x40400c + 0x20 * i, 16, 16, .ro, 0⟩

/-- ADC_EPOCH.SAMPLE, bits [15:0], RO (power teams, ADC, encoders). -/
def Reg.ADC_EPOCH_SAMPLE (i : Nat) : Field := ⟨0x404010 + 0x20 * i, 0, 16, .ro, 0⟩

/-- ADC_EPOCH.VALID, bits [16:16], RO (power teams, ADC, encoders). -/
def Reg.ADC_EPOCH_VALID (i : Nat) : Field := ⟨0x404010 + 0x20 * i, 16, 1, .ro, 0⟩

/-- ADC_EPOCH.SHIFTED, bits [17:17], RO (power teams, ADC, encoders). -/
def Reg.ADC_EPOCH_SHIFTED (i : Nat) : Field := ⟨0x404010 + 0x20 * i, 17, 1, .ro, 0⟩

/-- ADC_CONV_STAT.TRIG_DROP, bits [15:0], RO (power teams, ADC, encoders). -/
def Reg.ADC_CONV_STAT_TRIG_DROP (i : Nat) : Field := ⟨0x405000 + 0x10 * i, 0, 16, .ro, 0⟩

/-- ADC_CONV_STAT.SHIFTED, bits [31:16], RO (power teams, ADC, encoders). -/
def Reg.ADC_CONV_STAT_SHIFTED (i : Nat) : Field := ⟨0x405000 + 0x10 * i, 16, 16, .ro, 0⟩

/-- ENC_CFG.MODE, bits [2:0], RW (power teams, ADC, encoders). -/
def Reg.ENC_CFG_MODE (i : Nat) : Field := ⟨0x406000 + 0x40 * i, 0, 3, .rw, 0⟩

/-- ENC_CFG.FILT, bits [10:3], RW (power teams, ADC, encoders). -/
def Reg.ENC_CFG_FILT (i : Nat) : Field := ⟨0x406000 + 0x40 * i, 3, 8, .rw, 0⟩

/-- ENC_CFG.BITS, bits [16:11], RW (power teams, ADC, encoders). -/
def Reg.ENC_CFG_BITS (i : Nat) : Field := ⟨0x406000 + 0x40 * i, 11, 6, .rw, 0⟩

/-- ENC_CFG.GRAY, bits [17:17], RW (power teams, ADC, encoders). -/
def Reg.ENC_CFG_GRAY (i : Nat) : Field := ⟨0x406000 + 0x40 * i, 17, 1, .rw, 0⟩

/-- ENC_CFG.IB, bits [21:18], RW (power teams, ADC, encoders). -/
def Reg.ENC_CFG_IB (i : Nat) : Field := ⟨0x406000 + 0x40 * i, 18, 4, .rw, 0⟩

/-- ENC_SSI, bits [13:0], RW (power teams, ADC, encoders). -/
def Reg.ENC_SSI (i : Nat) : Field := ⟨0x406004 + 0x40 * i, 0, 14, .rw, 1000⟩

/-- ENC_SINCOS.SIN_IN, bits [5:0], RW (power teams, ADC, encoders). -/
def Reg.ENC_SINCOS_SIN_IN (i : Nat) : Field := ⟨0x406008 + 0x40 * i, 0, 6, .rw, 0⟩

/-- ENC_SINCOS.COS_IN, bits [11:6], RW (power teams, ADC, encoders). -/
def Reg.ENC_SINCOS_COS_IN (i : Nat) : Field := ⟨0x406008 + 0x40 * i, 6, 6, .rw, 0⟩

/-- ENC_SINCOS.AMP_LO, bits [21:12], RW (power teams, ADC, encoders). -/
def Reg.ENC_SINCOS_AMP_LO (i : Nat) : Field := ⟨0x406008 + 0x40 * i, 12, 10, .rw, 0⟩

/-- ENC_SINCOS.AMP_HI, bits [31:22], RW (power teams, ADC, encoders). -/
def Reg.ENC_SINCOS_AMP_HI (i : Nat) : Field := ⟨0x406008 + 0x40 * i, 22, 10, .rw, 0⟩

/-- ENC_COUNT, bits [31:0], RO (power teams, ADC, encoders). -/
def Reg.ENC_COUNT (i : Nat) : Field := ⟨0x40600c + 0x40 * i, 0, 32, .ro, 0⟩

/-- ENC_INDEX, bits [31:0], RO (power teams, ADC, encoders). -/
def Reg.ENC_INDEX (i : Nat) : Field := ⟨0x406010 + 0x40 * i, 0, 32, .ro, 0⟩

/-- ENC_STAT.FAULT, bits [0:0], RO (power teams, ADC, encoders). -/
def Reg.ENC_STAT_FAULT (i : Nat) : Field := ⟨0x406014 + 0x40 * i, 0, 1, .ro, 0⟩

/-- ENC_STAT.FAULT_SEEN, bits [1:1], W1C (power teams, ADC, encoders). -/
def Reg.ENC_STAT_FAULT_SEEN (i : Nat) : Field := ⟨0x406014 + 0x40 * i, 1, 1, .w1c, 0⟩

/-- ENC_STAT.INDEX_SEEN, bits [2:2], W1C (power teams, ADC, encoders). -/
def Reg.ENC_STAT_INDEX_SEEN (i : Nat) : Field := ⟨0x406014 + 0x40 * i, 2, 1, .w1c, 0⟩

/-- STEP_CFG.TSTILL, bits [31:16], RW (stepper teams). -/
def Reg.STEP_CFG_TSTILL (i : Nat) : Field := ⟨0x401080 + 0x100 * i, 16, 16, .rw, 3200⟩

/-- STEP_CFG.SW_DWELL, bits [15:8], RW (stepper teams). -/
def Reg.STEP_CFG_SW_DWELL (i : Nat) : Field := ⟨0x401080 + 0x100 * i, 8, 8, .rw, 32⟩

/-- STEP_CFG.DECAY, bits [7:7], RW (stepper teams). -/
def Reg.STEP_CFG_DECAY (i : Nat) : Field := ⟨0x401080 + 0x100 * i, 7, 1, .rw, 1⟩

/-- STEP_CFG.MODE_SEL, bits [6:5], RW (stepper teams). -/
def Reg.STEP_CFG_MODE_SEL (i : Nat) : Field := ⟨0x401080 + 0x100 * i, 5, 2, .rw, 0⟩

/-- STEP_CFG.EPC_LOG, bits [4:0], RW (stepper teams). -/
def Reg.STEP_CFG_EPC_LOG (i : Nat) : Field := ⟨0x401080 + 0x100 * i, 0, 5, .rw, 10⟩

/-- STEP_CUR.IRUN, bits [14:0], RW (stepper teams). -/
def Reg.STEP_CUR_IRUN (i : Nat) : Field := ⟨0x401084 + 0x100 * i, 0, 15, .rw, 0⟩

/-- STEP_CUR.IHOLD, bits [30:16], RW (stepper teams). -/
def Reg.STEP_CUR_IHOLD (i : Nat) : Field := ⟨0x401084 + 0x100 * i, 16, 15, .rw, 0⟩

/-- STEP_SW.V_UP, bits [15:0], RW (stepper teams). -/
def Reg.STEP_SW_V_UP (i : Nat) : Field := ⟨0x401088 + 0x100 * i, 0, 16, .rw, 2048⟩

/-- STEP_SW.V_DN, bits [31:16], RW (stepper teams). -/
def Reg.STEP_SW_V_DN (i : Nat) : Field := ⟨0x401088 + 0x100 * i, 16, 16, .rw, 1536⟩

/-- STEP_CHOP.BLANK, bits [9:0], RW (stepper teams). -/
def Reg.STEP_CHOP_BLANK (i : Nat) : Field := ⟨0x40108c + 0x100 * i, 0, 10, .rw, 40⟩

/-- STEP_CHOP.FAST_T, bits [19:10], RW (stepper teams). -/
def Reg.STEP_CHOP_FAST_T (i : Nat) : Field := ⟨0x40108c + 0x100 * i, 10, 10, .rw, 80⟩

/-- STEP_QUIET.QGAIN, bits [15:0], RW (stepper teams). -/
def Reg.STEP_QUIET_QGAIN (i : Nat) : Field := ⟨0x401090 + 0x100 * i, 0, 16, .rw, 0⟩

/-- STEP_QUIET.QVC, bits [31:16], RW (stepper teams). -/
def Reg.STEP_QUIET_QVC (i : Nat) : Field := ⟨0x401090 + 0x100 * i, 16, 16, .rw, 0⟩

/-- STEP_ZERO, bits [63:0], RW (stepper teams). -/
def Reg.STEP_ZERO (i : Nat) : Field := ⟨0x401094 + 0x100 * i, 0, 64, .rw, 0⟩

/-- STEP_EST.W_EST, bits [15:0], RW (stepper teams). -/
def Reg.STEP_EST_W_EST (i : Nat) : Field := ⟨0x40109c + 0x100 * i, 0, 16, .rw, 0⟩

/-- STEP_EST.LA_FILT, bits [19:16], RW (stepper teams). -/
def Reg.STEP_EST_LA_FILT (i : Nat) : Field := ⟨0x40109c + 0x100 * i, 16, 4, .rw, 0⟩

/-- STEP_EST.STALL_N, bits [23:20], RW (stepper teams). -/
def Reg.STEP_EST_STALL_N (i : Nat) : Field := ⟨0x40109c + 0x100 * i, 20, 4, .rw, 0⟩

/-- STEP_EST.STALL_REACT, bits [25:24], RW (stepper teams). -/
def Reg.STEP_EST_STALL_REACT (i : Nat) : Field := ⟨0x40109c + 0x100 * i, 24, 2, .rw, 0⟩

/-- STEP_STALL.STALL_ANG, bits [9:0], RW (stepper teams). -/
def Reg.STEP_STALL_STALL_ANG (i : Nat) : Field := ⟨0x4010a0 + 0x100 * i, 0, 10, .rw, 0⟩

/-- STEP_STALL.E_RATIO, bits [25:16], RW (stepper teams). -/
def Reg.STEP_STALL_E_RATIO (i : Nat) : Field := ⟨0x4010a0 + 0x100 * i, 16, 10, .rw, 0⟩

/-- STEP_R, bits [31:0], RW (stepper teams). -/
def Reg.STEP_R (i : Nat) : Field := ⟨0x4010a4 + 0x100 * i, 0, 32, .rw, 0⟩

/-- STEP_L, bits [31:0], RW (stepper teams). -/
def Reg.STEP_L (i : Nat) : Field := ⟨0x4010a8 + 0x100 * i, 0, 32, .rw, 0⟩

/-- STEP_KE, bits [31:0], RW (stepper teams). -/
def Reg.STEP_KE (i : Nat) : Field := ⟨0x4010ac + 0x100 * i, 0, 32, .rw, 0⟩

/-- STEP_IFS, bits [31:0], RW (stepper teams). -/
def Reg.STEP_IFS (i : Nat) : Field := ⟨0x4010b0 + 0x100 * i, 0, 32, .rw, 0⟩

/-- STEP_VFS, bits [31:0], RW (stepper teams). -/
def Reg.STEP_VFS (i : Nat) : Field := ⟨0x4010b4 + 0x100 * i, 0, 32, .rw, 0⟩

/-- STEP_VBUS, bits [5:0], RW (stepper teams). -/
def Reg.STEP_VBUS (i : Nat) : Field := ⟨0x4010b8 + 0x100 * i, 0, 6, .rw, 0⟩

/-- STEP_STAT.ADDR, bits [25:16], RO (stepper teams). -/
def Reg.STEP_STAT_ADDR (i : Nat) : Field := ⟨0x4010bc + 0x100 * i, 16, 10, .ro, 0⟩

/-- STEP_STAT.CHOP_MAX, bits [5:5], W1C (stepper teams). -/
def Reg.STEP_STAT_CHOP_MAX (i : Nat) : Field := ⟨0x4010bc + 0x100 * i, 5, 1, .w1c, 0⟩

/-- STEP_STAT.EST_MISS, bits [4:4], W1C (stepper teams). -/
def Reg.STEP_STAT_EST_MISS (i : Nat) : Field := ⟨0x4010bc + 0x100 * i, 4, 1, .w1c, 0⟩

/-- STEP_STAT.STALL, bits [3:3], W1C (stepper teams). -/
def Reg.STEP_STAT_STALL (i : Nat) : Field := ⟨0x4010bc + 0x100 * i, 3, 1, .w1c, 0⟩

/-- STEP_STAT.EST_VALID, bits [2:2], RO (stepper teams). -/
def Reg.STEP_STAT_EST_VALID (i : Nat) : Field := ⟨0x4010bc + 0x100 * i, 2, 1, .ro, 0⟩

/-- STEP_STAT.STILL, bits [1:1], RO (stepper teams). -/
def Reg.STEP_STAT_STILL (i : Nat) : Field := ⟨0x4010bc + 0x100 * i, 1, 1, .ro, 0⟩

/-- STEP_STAT.STRONG, bits [0:0], RO (stepper teams). -/
def Reg.STEP_STAT_STRONG (i : Nat) : Field := ⟨0x4010bc + 0x100 * i, 0, 1, .ro, 0⟩

/-- STEP_ANGLE, bits [15:0], RO (stepper teams). -/
def Reg.STEP_ANGLE (i : Nat) : Field := ⟨0x4010c0 + 0x100 * i, 0, 16, .ro, 0⟩

/-- STEP_SPEED, bits [31:0], RO (stepper teams). -/
def Reg.STEP_SPEED (i : Nat) : Field := ⟨0x4010c4 + 0x100 * i, 0, 32, .ro, 0⟩

/-- STEP_POS, bits [63:0], RO (stepper teams). -/
def Reg.STEP_POS (i : Nat) : Field := ⟨0x4010c8 + 0x100 * i, 0, 64, .ro, 0⟩

/-- STEP_CNT.SWITCH_CNT, bits [15:0], RO (stepper teams). -/
def Reg.STEP_CNT_SWITCH_CNT (i : Nat) : Field := ⟨0x4010d0 + 0x100 * i, 0, 16, .ro, 0⟩

/-- STEP_CNT.STALL_CNT, bits [31:16], RO (stepper teams). -/
def Reg.STEP_CNT_STALL_CNT (i : Nat) : Field := ⟨0x4010d0 + 0x100 * i, 16, 16, .ro, 0⟩

/-- STEP_EMF, bits [31:0], RO (stepper teams). -/
def Reg.STEP_EMF (i : Nat) : Field := ⟨0x4010d4 + 0x100 * i, 0, 32, .ro, 0⟩

/-- STEP_CHOP_MAX_CNT, bits [31:0], RO (stepper teams). -/
def Reg.STEP_CHOP_MAX_CNT (i : Nat) : Field := ⟨0x4010d8 + 0x100 * i, 0, 32, .ro, 0⟩

/-- PDK_STAT.SENS_STALE, bits [5:5], RO (Paddock monitor). -/
def Reg.PDK_STAT_SENS_STALE : Field := ⟨0x500000, 5, 1, .ro, 0⟩

/-- PDK_STAT.OVERFLOW, bits [4:4], W1C (Paddock monitor). -/
def Reg.PDK_STAT_OVERFLOW : Field := ⟨0x500000, 4, 1, .w1c, 0⟩

/-- PDK_STAT.CYCLE_LATE, bits [3:3], W1C (Paddock monitor). -/
def Reg.PDK_STAT_CYCLE_LATE : Field := ⟨0x500000, 3, 1, .w1c, 0⟩

/-- PDK_STAT.CODED_FAULT, bits [2:2], W1C (Paddock monitor). -/
def Reg.PDK_STAT_CODED_FAULT : Field := ⟨0x500000, 2, 1, .w1c, 0⟩

/-- PDK_STAT.STATE, bits [1:0], RO (Paddock monitor). -/
def Reg.PDK_STAT_STATE : Field := ⟨0x500000, 0, 2, .ro, 0⟩

/-- PDK_CFG.INTR_MAX, bits [6:0], RO (Paddock monitor). Its value comes from the configuration image; before stage CFG it is the one of log entry 4. -/
def Reg.PDK_CFG_INTR_MAX : Field := ⟨0x500004, 0, 7, .ro, 0⟩

/-- PDK_CFG.ARMS, bits [11:7], RO (Paddock monitor). Its value comes from the configuration image; before stage CFG it is the one of log entry 4. -/
def Reg.PDK_CFG_ARMS : Field := ⟨0x500004, 7, 5, .ro, 0⟩

/-- PDK_CFG.CAPSULES, bits [19:12], RO (Paddock monitor). Its value comes from the configuration image; before stage CFG it is the one of log entry 4. -/
def Reg.PDK_CFG_CAPSULES : Field := ⟨0x500004, 12, 8, .ro, 0⟩

/-- PDK_CFG.PADDOCKS, bits [25:20], RO (Paddock monitor). Its value comes from the configuration image; before stage CFG it is the one of log entry 4. -/
def Reg.PDK_CFG_PADDOCKS : Field := ⟨0x500004, 20, 6, .ro, 0⟩

/-- PDK_TCALC, bits [31:0], RO (Paddock monitor). -/
def Reg.PDK_TCALC : Field := ⟨0x500008, 0, 32, .ro, 0⟩

/-- PDK_TCALC_MAX, bits [31:0], RW (Paddock monitor). -/
def Reg.PDK_TCALC_MAX : Field := ⟨0x50000c, 0, 32, .rw, 0⟩

/-- PDK_CYCLE, bits [63:0], RO (Paddock monitor). -/
def Reg.PDK_CYCLE : Field := ⟨0x500010, 0, 64, .ro, 0⟩

/-- PDK_PSTOP, bits [15:0], RO (Paddock monitor). -/
def Reg.PDK_PSTOP : Field := ⟨0x500018, 0, 16, .ro, 0⟩

/-- PDK_FAULT_CNT, bits [31:0], RO (Paddock monitor). -/
def Reg.PDK_FAULT_CNT : Field := ⟨0x50001c, 0, 32, .ro, 0⟩

/-- PDK_INTR_CNT.NOW, bits [6:0], RO (Paddock monitor). -/
def Reg.PDK_INTR_CNT_NOW : Field := ⟨0x500020, 0, 7, .ro, 0⟩

/-- PDK_INTR_CNT.MAX, bits [22:16], RO (Paddock monitor). -/
def Reg.PDK_INTR_CNT_MAX : Field := ⟨0x500020, 16, 7, .ro, 0⟩

/-- PDK_PUB, bits [17:0], RO (Paddock monitor). Its value comes from the configuration image; before stage CFG it is the one of log entry 4. -/
def Reg.PDK_PUB : Field := ⟨0x500024, 0, 18, .ro, 0⟩

/-- PDK_PAIRS, bits [12:0], RO (Paddock monitor). Its value comes from the configuration image; before stage CFG it is the one of log entry 4. -/
def Reg.PDK_PAIRS : Field := ⟨0x500028, 0, 13, .ro, 0⟩

/-- ARM_STAT.REL_PENDING, bits [19:19], RO (Paddock monitor). -/
def Reg.ARM_STAT_REL_PENDING (i : Nat) : Field := ⟨0x500100 + 0x20 * i, 19, 1, .ro, 0⟩

/-- ARM_STAT.MOVING, bits [18:18], RO (Paddock monitor). -/
def Reg.ARM_STAT_MOVING (i : Nat) : Field := ⟨0x500100 + 0x20 * i, 18, 1, .ro, 0⟩

/-- ARM_STAT.PSTOP, bits [17:17], RO (Paddock monitor). -/
def Reg.ARM_STAT_PSTOP (i : Nat) : Field := ⟨0x500100 + 0x20 * i, 17, 1, .ro, 1⟩

/-- ARM_STAT.CAUSE, bits [16:8], RO (Paddock monitor). -/
def Reg.ARM_STAT_CAUSE (i : Nat) : Field := ⟨0x500100 + 0x20 * i, 8, 9, .ro, 0⟩

/-- ARM_STAT.NEAR, bits [7:0], RO (Paddock monitor). -/
def Reg.ARM_STAT_NEAR (i : Nat) : Field := ⟨0x500100 + 0x20 * i, 0, 8, .ro, 0⟩

/-- ARM_CAP, bits [31:0], RO (Paddock monitor). -/
def Reg.ARM_CAP (i : Nat) : Field := ⟨0x500104 + 0x20 * i, 0, 32, .ro, 0⟩

/-- ARM_VMEAS, bits [31:0], RO (Paddock monitor). -/
def Reg.ARM_VMEAS (i : Nat) : Field := ⟨0x500108 + 0x20 * i, 0, 32, .ro, 0⟩

/-- ARM_DMIN, bits [31:0], RO (Paddock monitor). -/
def Reg.ARM_DMIN (i : Nat) : Field := ⟨0x50010c + 0x20 * i, 0, 32, .ro, 2147483647⟩

/-- ARM_PDK, bits [31:0], RO (Paddock monitor). -/
def Reg.ARM_PDK (i : Nat) : Field := ⟨0x500110 + 0x20 * i, 0, 32, .ro, 0⟩

/-- PDK_PADDOCK_STAT.OCC, bits [15:0], RO (Paddock monitor). -/
def Reg.PDK_PADDOCK_STAT_OCC (i : Nat) : Field := ⟨0x500400 + 0x4 * i, 0, 16, .ro, 0⟩

/-- PDK_PADDOCK_STAT.INTR, bits [22:16], RO (Paddock monitor). -/
def Reg.PDK_PADDOCK_STAT_INTR (i : Nat) : Field := ⟨0x500400 + 0x4 * i, 16, 7, .ro, 0⟩

/-- PDK_SENS_STAT.AGE, bits [7:0], RO (Paddock monitor). -/
def Reg.PDK_SENS_STAT_AGE (i : Nat) : Field := ⟨0x500500 + 0x4 * i, 0, 8, .ro, 0⟩

/-- PDK_SENS_STAT.COUNT, bits [14:8], RO (Paddock monitor). -/
def Reg.PDK_SENS_STAT_COUNT (i : Nat) : Field := ⟨0x500500 + 0x4 * i, 8, 7, .ro, 0⟩

/-- PDK_SENS_STAT.STALE, bits [15:15], RO (Paddock monitor). -/
def Reg.PDK_SENS_STAT_STALE (i : Nat) : Field := ⟨0x500500 + 0x4 * i, 15, 1, .ro, 0⟩

/-- PDK_SENS_STAT.FAULT, bits [16:16], RO (Paddock monitor). -/
def Reg.PDK_SENS_STAT_FAULT (i : Nat) : Field := ⟨0x500500 + 0x4 * i, 16, 1, .ro, 0⟩

/-- SAGE_CTRL.COLD_NEXT, bits [1:1], W1S (Sage). -/
def Reg.SAGE_CTRL_COLD_NEXT : Field := ⟨0x600000, 1, 1, .w1s, 0⟩

/-- SAGE_CTRL.RUN, bits [0:0], RW (Sage). -/
def Reg.SAGE_CTRL_RUN : Field := ⟨0x600000, 0, 1, .rw, 0⟩

/-- SAGE_STAT.PARAM_BAD, bits [12:12], W1C (Sage). -/
def Reg.SAGE_STAT_PARAM_BAD : Field := ⟨0x600004, 12, 1, .w1c, 0⟩

/-- SAGE_STAT.MEM_ERR, bits [11:11], W1C (Sage). -/
def Reg.SAGE_STAT_MEM_ERR : Field := ⟨0x600004, 11, 1, .w1c, 0⟩

/-- SAGE_STAT.BAD_DATA, bits [10:10], W1C (Sage). -/
def Reg.SAGE_STAT_BAD_DATA : Field := ⟨0x600004, 10, 1, .w1c, 0⟩

/-- SAGE_STAT.COMMIT_LATE, bits [9:9], W1C (Sage). -/
def Reg.SAGE_STAT_COMMIT_LATE : Field := ⟨0x600004, 9, 1, .w1c, 0⟩

/-- SAGE_STAT.DELTA_OVF, bits [8:8], W1C (Sage). -/
def Reg.SAGE_STAT_DELTA_OVF : Field := ⟨0x600004, 8, 1, .w1c, 0⟩

/-- SAGE_STAT.DELTA_STALE, bits [7:7], W1C (Sage). -/
def Reg.SAGE_STAT_DELTA_STALE : Field := ⟨0x600004, 7, 1, .w1c, 0⟩

/-- SAGE_STAT.WARM_REJECTED, bits [6:6], W1C (Sage). -/
def Reg.SAGE_STAT_WARM_REJECTED : Field := ⟨0x600004, 6, 1, .w1c, 0⟩

/-- SAGE_STAT.SINGULAR, bits [5:5], W1C (Sage). -/
def Reg.SAGE_STAT_SINGULAR : Field := ⟨0x600004, 5, 1, .w1c, 0⟩

/-- SAGE_STAT.MISS, bits [4:4], W1C (Sage). -/
def Reg.SAGE_STAT_MISS : Field := ⟨0x600004, 4, 1, .w1c, 0⟩

/-- SAGE_STAT.SOLVING, bits [3:3], RO (Sage). -/
def Reg.SAGE_STAT_SOLVING : Field := ⟨0x600004, 3, 1, .ro, 0⟩

/-- SAGE_STAT.ANALYSING, bits [2:2], RO (Sage). -/
def Reg.SAGE_STAT_ANALYSING : Field := ⟨0x600004, 2, 1, .ro, 0⟩

/-- SAGE_STAT.ACTIVE, bits [1:1], RO (Sage). -/
def Reg.SAGE_STAT_ACTIVE : Field := ⟨0x600004, 1, 1, .ro, 0⟩

/-- SAGE_STAT.RUNNING, bits [0:0], RO (Sage). -/
def Reg.SAGE_STAT_RUNNING : Field := ⟨0x600004, 0, 1, .ro, 0⟩

/-- SAGE_CFG.MARGIN_US, bits [25:16], RO (Sage). Its value comes from the configuration image; before stage CFG it is the one of log entry 4. -/
def Reg.SAGE_CFG_MARGIN_US : Field := ⟨0x600008, 16, 10, .ro, 0⟩

/-- SAGE_CFG.KC, bits [9:0], RO (Sage). Its value comes from the configuration image; before stage CFG it is the one of log entry 4. -/
def Reg.SAGE_CFG_KC : Field := ⟨0x600008, 0, 10, .ro, 1⟩

/-- SAGE_ITER.SHIFT_MAX, bits [13:8], RW (Sage). -/
def Reg.SAGE_ITER_SHIFT_MAX : Field := ⟨0x60000c, 8, 6, .rw, 4⟩

/-- SAGE_ITER.ITER_MAX, bits [7:0], RW (Sage). -/
def Reg.SAGE_ITER_ITER_MAX : Field := ⟨0x60000c, 0, 8, .rw, 32⟩

/-- SAGE_EPS_P, bits [63:0], RW (Sage). -/
def Reg.SAGE_EPS_P : Field := ⟨0x600010, 0, 64, .rw, 4517329193108106637⟩

/-- SAGE_EPS_D, bits [63:0], RW (Sage). -/
def Reg.SAGE_EPS_D : Field := ⟨0x600018, 0, 64, .rw, 4517329193108106637⟩

/-- SAGE_EPS_G, bits [63:0], RW (Sage). -/
def Reg.SAGE_EPS_G : Field := ⟨0x600020, 0, 64, .rw, 4487126258331716666⟩

/-- SAGE_PIVOT_TOL, bits [63:0], RW (Sage). -/
def Reg.SAGE_PIVOT_TOL : Field := ⟨0x600028, 0, 64, .rw, 4427038433705197568⟩

/-- SAGE_RHO, bits [63:0], RW (Sage). -/
def Reg.SAGE_RHO : Field := ⟨0x600030, 0, 64, .rw, 4472406533629990549⟩

/-- SAGE_DELTA, bits [63:0], RW (Sage). -/
def Reg.SAGE_DELTA : Field := ⟨0x600038, 0, 64, .rw, 4472406533629990549⟩

/-- SAGE_WARM_PUSH, bits [63:0], RW (Sage). -/
def Reg.SAGE_WARM_PUSH : Field := ⟨0x600040, 0, 64, .rw, 4547007122018943789⟩

/-- SAGE_RES.LANES, bits [23:22], RO (Sage). -/
def Reg.SAGE_RES_LANES : Field := ⟨0x600048, 22, 2, .ro, 0⟩

/-- SAGE_RES.BLOCK, bits [21:16], RO (Sage). -/
def Reg.SAGE_RES_BLOCK : Field := ⟨0x600048, 16, 6, .ro, 0⟩

/-- SAGE_RES.ITERS, bits [15:8], RO (Sage). -/
def Reg.SAGE_RES_ITERS : Field := ⟨0x600048, 8, 8, .ro, 0⟩

/-- SAGE_RES.WARM, bits [7:7], RO (Sage). -/
def Reg.SAGE_RES_WARM : Field := ⟨0x600048, 7, 1, .ro, 0⟩

/-- SAGE_RES.OVERFLOW, bits [6:6], RO (Sage). -/
def Reg.SAGE_RES_OVERFLOW : Field := ⟨0x600048, 6, 1, .ro, 0⟩

/-- SAGE_RES.INERTIA, bits [5:5], RO (Sage). -/
def Reg.SAGE_RES_INERTIA : Field := ⟨0x600048, 5, 1, .ro, 0⟩

/-- SAGE_RES.SMALL_PIVOT, bits [4:4], RO (Sage). -/
def Reg.SAGE_RES_SMALL_PIVOT : Field := ⟨0x600048, 4, 1, .ro, 0⟩

/-- SAGE_RES.CODE, bits [3:0], RO (Sage). -/
def Reg.SAGE_RES_CODE : Field := ⟨0x600048, 0, 4, .ro, 7⟩

/-- SAGE_CYCLE, bits [63:0], RO (Sage). -/
def Reg.SAGE_CYCLE : Field := ⟨0x60004c, 0, 64, .ro, 0⟩

/-- SAGE_NAN, bits [63:0], RO (Sage). -/
def Reg.SAGE_NAN : Field := ⟨0x600054, 0, 64, .ro, 0⟩

/-- SAGE_ACTIVE_ID, bits [31:0], RO (Sage). -/
def Reg.SAGE_ACTIVE_ID : Field := ⟨0x60005c, 0, 32, .ro, 0⟩

/-- SAGE_STAGED_ID, bits [31:0], RO (Sage). -/
def Reg.SAGE_STAGED_ID : Field := ⟨0x600060, 0, 32, .ro, 0⟩

/-- SAGE_STAGED_STAT.STATE, bits [1:0], RO (Sage). -/
def Reg.SAGE_STAGED_STAT_STATE : Field := ⟨0x600064, 0, 2, .ro, 0⟩

/-- SAGE_STAGED_STAT.COMMIT_PENDING, bits [2:2], RO (Sage). -/
def Reg.SAGE_STAGED_STAT_COMMIT_PENDING : Field := ⟨0x600064, 2, 1, .ro, 0⟩

/-- SAGE_STAGED_STAT.REASON, bits [15:8], RO (Sage). -/
def Reg.SAGE_STAGED_STAT_REASON : Field := ⟨0x600064, 8, 8, .ro, 0⟩

/-- SAGE_COMMIT_CYCLE, bits [63:0], RO (Sage). -/
def Reg.SAGE_COMMIT_CYCLE : Field := ⟨0x600068, 0, 64, .ro, 0⟩

/-- SAGE_ITER_NS, bits [31:0], RO (Sage). -/
def Reg.SAGE_ITER_NS : Field := ⟨0x600070, 0, 32, .ro, 0⟩

/-- SAGE_SOLVE_NS, bits [31:0], RO (Sage). -/
def Reg.SAGE_SOLVE_NS : Field := ⟨0x600074, 0, 32, .ro, 0⟩

/-- SAGE_SOLVE_MAX, bits [31:0], RW (Sage). -/
def Reg.SAGE_SOLVE_MAX : Field := ⟨0x600078, 0, 32, .rw, 0⟩

/-- SAGE_MISS_CNT, bits [31:0], RO (Sage). -/
def Reg.SAGE_MISS_CNT : Field := ⟨0x60007c, 0, 32, .ro, 0⟩

/-- SAGE_SING_CNT, bits [31:0], RO (Sage). -/
def Reg.SAGE_SING_CNT : Field := ⟨0x600080, 0, 32, .ro, 0⟩

/-- SAGE_WARM_REJ_CNT, bits [31:0], RO (Sage). -/
def Reg.SAGE_WARM_REJ_CNT : Field := ⟨0x600084, 0, 32, .ro, 0⟩

/-- SAGE_DELTA_STALE_CNT, bits [31:0], RO (Sage). -/
def Reg.SAGE_DELTA_STALE_CNT : Field := ⟨0x600088, 0, 32, .ro, 0⟩

/-- SAGE_DELTA_OVF_CNT, bits [31:0], RO (Sage). -/
def Reg.SAGE_DELTA_OVF_CNT : Field := ⟨0x60008c, 0, 32, .ro, 0⟩

/-- SAGE_SHIFT_RUN, bits [7:0], RO (Sage). -/
def Reg.SAGE_SHIFT_RUN : Field := ⟨0x600090, 0, 8, .ro, 0⟩

/-- SAGE_SWM.BASE, bits [7:0], RO (Sage). Its value comes from the configuration image; before stage CFG it is the one of log entry 4. -/
def Reg.SAGE_SWM_BASE : Field := ⟨0x600094, 0, 8, .ro, 0⟩

/-- SAGE_SWM.SIZE, bits [15:8], RO (Sage). Its value comes from the configuration image; before stage CFG it is the one of log entry 4. -/
def Reg.SAGE_SWM_SIZE : Field := ⟨0x600094, 8, 8, .ro, 0⟩

/-- SAGE_PUB, bits [17:0], RO (Sage). Its value comes from the configuration image; before stage CFG it is the one of log entry 4. -/
def Reg.SAGE_PUB : Field := ⟨0x600098, 0, 18, .ro, 0⟩

/-- SAGE_DELTA_PEND, bits [14:0], RO (Sage). -/
def Reg.SAGE_DELTA_PEND : Field := ⟨0x60009c, 0, 15, .ro, 0⟩

/-- CRD_CFG.ETHERTYPE, bits [15:0], RW (Cerid). -/
def Reg.CRD_CFG_ETHERTYPE : Field := ⟨0x700000, 0, 16, .rw, 34997⟩

/-- CRD_STAT.CFG_BUSY, bits [12:12], W1C (Cerid). -/
def Reg.CRD_STAT_CFG_BUSY : Field := ⟨0x700004, 12, 1, .w1c, 0⟩

/-- CRD_STAT.CLOSED, bits [11:8], RO (Cerid). -/
def Reg.CRD_STAT_CLOSED : Field := ⟨0x700004, 8, 4, .ro, 0⟩

/-- CRD_STAT.BREAK, bits [7:4], RO (Cerid). -/
def Reg.CRD_STAT_BREAK : Field := ⟨0x700004, 4, 4, .ro, 0⟩

/-- CRD_STAT.RUNNING, bits [3:0], RO (Cerid). -/
def Reg.CRD_STAT_RUNNING : Field := ⟨0x700004, 0, 4, .ro, 0⟩

/-- CRD_PORT_CFG.NODES, bits [15:9], RW (Cerid). Its value comes from the configuration image; before stage CFG it is the one of log entry 4. -/
def Reg.CRD_PORT_CFG_NODES (i : Nat) : Field := ⟨0x701000 + 0x100 * i, 9, 7, .rw, 1⟩

/-- CRD_PORT_CFG.HOLD, bits [8:4], RW (Cerid). Its value comes from the configuration image; before stage CFG it is the one of log entry 4. -/
def Reg.CRD_PORT_CFG_HOLD (i : Nat) : Field := ⟨0x701000 + 0x100 * i, 4, 5, .rw, 1⟩

/-- CRD_PORT_CFG.CLOSE_EN, bits [3:3], RW (Cerid). -/
def Reg.CRD_PORT_CFG_CLOSE_EN (i : Nat) : Field := ⟨0x701000 + 0x100 * i, 3, 1, .rw, 0⟩

/-- CRD_PORT_CFG.PAIRED, bits [2:2], RW (Cerid). -/
def Reg.CRD_PORT_CFG_PAIRED (i : Nat) : Field := ⟨0x701000 + 0x100 * i, 2, 1, .rw, 0⟩

/-- CRD_PORT_CFG.SPEED, bits [1:1], RW (Cerid). -/
def Reg.CRD_PORT_CFG_SPEED (i : Nat) : Field := ⟨0x701000 + 0x100 * i, 1, 1, .rw, 0⟩

/-- CRD_LEAD, bits [9:0], RW (Cerid). -/
def Reg.CRD_LEAD (i : Nat) : Field := ⟨0x701004 + 0x100 * i, 0, 10, .rw, 200⟩

/-- CRD_APPLY, bits [19:0], RW (Cerid). -/
def Reg.CRD_APPLY (i : Nat) : Field := ⟨0x701008 + 0x100 * i, 0, 20, .rw, 13000⟩

/-- CRD_PORT_LAT.RX_LAT, bits [15:0], RW (Cerid). -/
def Reg.CRD_PORT_LAT_RX_LAT (i : Nat) : Field := ⟨0x70100c + 0x100 * i, 0, 16, .rw, 0⟩

/-- CRD_PORT_LAT.TX_LAT, bits [31:16], RW (Cerid). -/
def Reg.CRD_PORT_LAT_TX_LAT (i : Nat) : Field := ⟨0x70100c + 0x100 * i, 16, 16, .rw, 0⟩

/-- CRD_PORT_STAT.FAIL, bits [31:28], RO (Cerid). -/
def Reg.CRD_PORT_STAT_FAIL (i : Nat) : Field := ⟨0x701010 + 0x100 * i, 28, 4, .ro, 0⟩

/-- CRD_PORT_STAT.FCS_ERR, bits [25:25], W1C (Cerid). -/
def Reg.CRD_PORT_STAT_FCS_ERR (i : Nat) : Field := ⟨0x701010 + 0x100 * i, 25, 1, .w1c, 0⟩

/-- CRD_PORT_STAT.LOST, bits [24:24], W1C (Cerid). -/
def Reg.CRD_PORT_STAT_LOST (i : Nat) : Field := ⟨0x701010 + 0x100 * i, 24, 1, .w1c, 0⟩

/-- CRD_PORT_STAT.HOP, bits [22:16], RO (Cerid). -/
def Reg.CRD_PORT_STAT_HOP (i : Nat) : Field := ⟨0x701010 + 0x100 * i, 16, 7, .ro, 0⟩

/-- CRD_PORT_STAT.TURN_POS, bits [14:8], RO (Cerid). -/
def Reg.CRD_PORT_STAT_TURN_POS (i : Nat) : Field := ⟨0x701010 + 0x100 * i, 8, 7, .ro, 0⟩

/-- CRD_PORT_STAT.MASTER, bits [6:6], RO (Cerid). -/
def Reg.CRD_PORT_STAT_MASTER (i : Nat) : Field := ⟨0x701010 + 0x100 * i, 6, 1, .ro, 0⟩

/-- CRD_PORT_STAT.CLOSED, bits [5:5], RO (Cerid). -/
def Reg.CRD_PORT_STAT_CLOSED (i : Nat) : Field := ⟨0x701010 + 0x100 * i, 5, 1, .ro, 0⟩

/-- CRD_PORT_STAT.BREAK, bits [4:4], RO (Cerid). -/
def Reg.CRD_PORT_STAT_BREAK (i : Nat) : Field := ⟨0x701010 + 0x100 * i, 4, 1, .ro, 0⟩

/-- CRD_PORT_STAT.LINK, bits [3:3], RO (Cerid). -/
def Reg.CRD_PORT_STAT_LINK (i : Nat) : Field := ⟨0x701010 + 0x100 * i, 3, 1, .ro, 0⟩

/-- CRD_PORT_STAT.STATE, bits [2:0], RO (Cerid). -/
def Reg.CRD_PORT_STAT_STATE (i : Nat) : Field := ⟨0x701010 + 0x100 * i, 0, 3, .ro, 0⟩

/-- CRD_RET_NS, bits [15:0], RO (Cerid). -/
def Reg.CRD_RET_NS (i : Nat) : Field := ⟨0x701014 + 0x100 * i, 0, 16, .ro, 0⟩

/-- CRD_RET_MAX, bits [15:0], RW (Cerid). -/
def Reg.CRD_RET_MAX (i : Nat) : Field := ⟨0x701018 + 0x100 * i, 0, 16, .rw, 0⟩

/-- CRD_RT0, bits [31:0], RO (Cerid). -/
def Reg.CRD_RT0 (i : Nat) : Field := ⟨0x70101c + 0x100 * i, 0, 32, .ro, 0⟩

/-- CRD_LOST_CNT, bits [31:0], RO (Cerid). -/
def Reg.CRD_LOST_CNT (i : Nat) : Field := ⟨0x701020 + 0x100 * i, 0, 32, .ro, 0⟩

/-- CRD_FCS_CNT, bits [31:0], RO (Cerid). -/
def Reg.CRD_FCS_CNT (i : Nat) : Field := ⟨0x701024 + 0x100 * i, 0, 32, .ro, 0⟩

/-- CRD_BREAK_CNT, bits [31:0], RO (Cerid). -/
def Reg.CRD_BREAK_CNT (i : Nat) : Field := ⟨0x701028 + 0x100 * i, 0, 32, .ro, 0⟩

/-- CRD_TALLY_CNT, bits [31:0], RO (Cerid). -/
def Reg.CRD_TALLY_CNT (i : Nat) : Field := ⟨0x70102c + 0x100 * i, 0, 32, .ro, 0⟩

/-- CRD_TIMED_OVF_CNT, bits [31:0], RO (Cerid). -/
def Reg.CRD_TIMED_OVF_CNT (i : Nat) : Field := ⟨0x701030 + 0x100 * i, 0, 32, .ro, 0⟩

/-- CRD_FAR_CNT, bits [31:0], RO (Cerid). -/
def Reg.CRD_FAR_CNT (i : Nat) : Field := ⟨0x701034 + 0x100 * i, 0, 32, .ro, 0⟩

/-- CRD_SLOT_STAT.FAR, bits [25:25], RO (Cerid). -/
def Reg.CRD_SLOT_STAT_FAR (i : Nat) (j : Nat) : Field := ⟨0x720000 + 0x400 * i + 0x4 * j, 25, 1, .ro, 0⟩

/-- CRD_SLOT_STAT.EMPTY, bits [24:24], RO (Cerid). -/
def Reg.CRD_SLOT_STAT_EMPTY (i : Nat) (j : Nat) : Field := ⟨0x720000 + 0x400 * i + 0x4 * j, 24, 1, .ro, 0⟩

/-- CRD_SLOT_STAT.TALLY_ERR, bits [23:16], RO (Cerid). -/
def Reg.CRD_SLOT_STAT_TALLY_ERR (i : Nat) (j : Nat) : Field := ⟨0x720000 + 0x400 * i + 0x4 * j, 16, 8, .ro, 0⟩

/-- CRD_SLOT_STAT.EMPTY_CNT, bits [15:0], RO (Cerid). -/
def Reg.CRD_SLOT_STAT_EMPTY_CNT (i : Nat) (j : Nat) : Field := ⟨0x720000 + 0x400 * i + 0x4 * j, 0, 16, .ro, 0⟩

/-- TLB_CFG.VID, bits [30:19], RW (Tilbor). -/
def Reg.TLB_CFG_VID : Field := ⟨0x800000, 19, 12, .rw, 1⟩

/-- TLB_CFG.PCP, bits [18:16], RW (Tilbor). -/
def Reg.TLB_CFG_PCP : Field := ⟨0x800000, 16, 3, .rw, 5⟩

/-- TLB_CFG.ETHERTYPE, bits [15:0], RW (Tilbor). -/
def Reg.TLB_CFG_ETHERTYPE : Field := ⟨0x800000, 0, 16, .rw, 34998⟩

/-- TLB_STAT.NET_UP, bits [7:6], RO (Tilbor). -/
def Reg.TLB_STAT_NET_UP : Field := ⟨0x800004, 6, 2, .ro, 0⟩

/-- TLB_STAT.CFG_BUSY, bits [5:5], W1C (Tilbor). -/
def Reg.TLB_STAT_CFG_BUSY : Field := ⟨0x800004, 5, 1, .w1c, 0⟩

/-- TLB_STAT.TX_ACTIVE, bits [4:4], RO (Tilbor). -/
def Reg.TLB_STAT_TX_ACTIVE : Field := ⟨0x800004, 4, 1, .ro, 0⟩

/-- TLB_STAT.MUTE, bits [3:3], RO (Tilbor). -/
def Reg.TLB_STAT_MUTE : Field := ⟨0x800004, 3, 1, .ro, 0⟩

/-- TLB_STAT.STATE, bits [2:0], RO (Tilbor). -/
def Reg.TLB_STAT_STATE : Field := ⟨0x800004, 0, 3, .ro, 0⟩

/-- TLB_DOMAIN.KD, bits [9:0], RO (Tilbor). Its value comes from the configuration image; before stage CFG it is the one of log entry 4. -/
def Reg.TLB_DOMAIN_KD : Field := ⟨0x800008, 0, 10, .ro, 1⟩

/-- TLB_DOMAIN.SELF, bits [21:10], RO (Tilbor). Its value comes from the configuration image; before stage CFG it is the one of log entry 4. -/
def Reg.TLB_DOMAIN_SELF : Field := ⟨0x800008, 10, 12, .ro, 0⟩

/-- TLB_GUARD.GUARD, bits [12:0], RO (Tilbor). Its value comes from the configuration image; before stage CFG it is the one of log entry 4. -/
def Reg.TLB_GUARD_GUARD : Field := ⟨0x80000c, 0, 13, .ro, 0⟩

/-- TLB_GUARD.JOIN_CYCLES, bits [23:16], RO (Tilbor). Its value comes from the configuration image; before stage CFG it is the one of log entry 4. -/
def Reg.TLB_GUARD_JOIN_CYCLES : Field := ⟨0x80000c, 16, 8, .ro, 1⟩

/-- TLB_DCYCLE, bits [63:0], RO (Tilbor). -/
def Reg.TLB_DCYCLE : Field := ⟨0x800010, 0, 64, .ro, 0⟩

/-- TLB_MUTE_CNT, bits [31:0], RO (Tilbor). -/
def Reg.TLB_MUTE_CNT : Field := ⟨0x800018, 0, 32, .ro, 0⟩

/-- TLB_WAIT_DROP_CNT, bits [31:0], RO (Tilbor). -/
def Reg.TLB_WAIT_DROP_CNT : Field := ⟨0x80001c, 0, 32, .ro, 0⟩

/-- TLB_INCOMPLETE_CNT, bits [31:0], RO (Tilbor). -/
def Reg.TLB_INCOMPLETE_CNT : Field := ⟨0x800020, 0, 32, .ro, 0⟩

/-- TLB_NOT_ADM_CNT, bits [31:0], RO (Tilbor). -/
def Reg.TLB_NOT_ADM_CNT : Field := ⟨0x800024, 0, 32, .ro, 0⟩

/-- TLB_SAFE_UNK_CNT, bits [31:0], RO (Tilbor). -/
def Reg.TLB_SAFE_UNK_CNT : Field := ⟨0x800028, 0, 32, .ro, 0⟩

/-- TLB_NULL_TX_CNT, bits [31:0], RO (Tilbor). -/
def Reg.TLB_NULL_TX_CNT : Field := ⟨0x80002c, 0, 32, .ro, 0⟩

/-- TLB_NULL_RX_CNT, bits [31:0], RO (Tilbor). -/
def Reg.TLB_NULL_RX_CNT : Field := ⟨0x800030, 0, 32, .ro, 0⟩

/-- TLB_RX_OK, bits [31:0], RO (Tilbor). -/
def Reg.TLB_RX_OK (i : Nat) : Field := ⟨0x800100 + 0x40 * i, 0, 32, .ro, 0⟩

/-- TLB_EARLY, bits [31:0], RO (Tilbor). -/
def Reg.TLB_EARLY (i : Nat) : Field := ⟨0x800104 + 0x40 * i, 0, 32, .ro, 0⟩

/-- TLB_LATE, bits [31:0], RO (Tilbor). -/
def Reg.TLB_LATE (i : Nat) : Field := ⟨0x800108 + 0x40 * i, 0, 32, .ro, 0⟩

/-- TLB_FCS, bits [31:0], RO (Tilbor). -/
def Reg.TLB_FCS (i : Nat) : Field := ⟨0x80010c + 0x40 * i, 0, 32, .ro, 0⟩

/-- TLB_DUP, bits [31:0], RO (Tilbor). -/
def Reg.TLB_DUP (i : Nat) : Field := ⟨0x800110 + 0x40 * i, 0, 32, .ro, 0⟩

/-- TLB_FWD_DROP, bits [31:0], RO (Tilbor). -/
def Reg.TLB_FWD_DROP (i : Nat) : Field := ⟨0x800114 + 0x40 * i, 0, 32, .ro, 0⟩

/-- TLB_HOPS_DROP, bits [31:0], RO (Tilbor). -/
def Reg.TLB_HOPS_DROP (i : Nat) : Field := ⟨0x800118 + 0x40 * i, 0, 32, .ro, 0⟩

/-- TLB_TX_FRAMES, bits [31:0], RO (Tilbor). -/
def Reg.TLB_TX_FRAMES (i : Nat) : Field := ⟨0x80011c + 0x40 * i, 0, 32, .ro, 0⟩

/-- TLB_TX_ABORT, bits [31:0], RO (Tilbor). -/
def Reg.TLB_TX_ABORT (i : Nat) : Field := ⟨0x800120 + 0x40 * i, 0, 32, .ro, 0⟩

/-- TLB_PORT_STAT.LINK, bits [0:0], RO (Tilbor). -/
def Reg.TLB_PORT_STAT_LINK (i : Nat) : Field := ⟨0x800124 + 0x40 * i, 0, 1, .ro, 0⟩

/-- TLB_PORT_STAT.SPEED, bits [2:1], RO (Tilbor). -/
def Reg.TLB_PORT_STAT_SPEED (i : Nat) : Field := ⟨0x800124 + 0x40 * i, 1, 2, .ro, 0⟩

/-- TLB_PEER.AGE, bits [31:16], RO (Tilbor). -/
def Reg.TLB_PEER_AGE (i : Nat) : Field := ⟨0x810000 + 0x4 * i, 16, 16, .ro, 65535⟩

/-- TLB_PEER.WHICH, bits [4:4], RO (Tilbor). -/
def Reg.TLB_PEER_WHICH (i : Nat) : Field := ⟨0x810000 + 0x4 * i, 4, 1, .ro, 0⟩

/-- TLB_PEER.CFG_CHANGED, bits [3:3], W1C (Tilbor). -/
def Reg.TLB_PEER_CFG_CHANGED (i : Nat) : Field := ⟨0x810000 + 0x4 * i, 3, 1, .w1c, 0⟩

/-- TLB_PEER.REPLACED, bits [2:2], RO (Tilbor). -/
def Reg.TLB_PEER_REPLACED (i : Nat) : Field := ⟨0x810000 + 0x4 * i, 2, 1, .ro, 0⟩

/-- TLB_PEER.STATE, bits [1:0], RO (Tilbor). -/
def Reg.TLB_PEER_STATE (i : Nat) : Field := ⟨0x810000 + 0x4 * i, 0, 2, .ro, 0⟩

/-- HK_STAT.ITEM, bits [27:16], RO (Hackney cores). -/
def Reg.HK_STAT_ITEM (i : Nat) : Field := ⟨0xa0c000 + 0x100 * i, 16, 12, .ro, 0⟩

/-- HK_STAT.IN_HANDLER, bits [3:3], RO (Hackney cores). -/
def Reg.HK_STAT_IN_HANDLER (i : Nat) : Field := ⟨0xa0c000 + 0x100 * i, 3, 1, .ro, 0⟩

/-- HK_STAT.IN_REP, bits [2:2], RO (Hackney cores). -/
def Reg.HK_STAT_IN_REP (i : Nat) : Field := ⟨0xa0c000 + 0x100 * i, 2, 1, .ro, 0⟩

/-- HK_STAT.STATE, bits [1:0], RO (Hackney cores). -/
def Reg.HK_STAT_STATE (i : Nat) : Field := ⟨0xa0c000 + 0x100 * i, 0, 2, .ro, 0⟩

/-- HK_PC, bits [31:0], RO (Hackney cores). -/
def Reg.HK_PC (i : Nat) : Field := ⟨0xa0c004 + 0x100 * i, 0, 32, .ro, 0⟩

/-- HK_FAULT.CAUSE, bits [3:0], RO (Hackney cores). -/
def Reg.HK_FAULT_CAUSE (i : Nat) : Field := ⟨0xa0c008 + 0x100 * i, 0, 4, .ro, 0⟩

/-- HK_FAULT.DESC, bits [27:16], RO (Hackney cores). -/
def Reg.HK_FAULT_DESC (i : Nat) : Field := ⟨0xa0c008 + 0x100 * i, 16, 12, .ro, 0⟩

/-- HK_FAULT_PC, bits [31:0], RO (Hackney cores). -/
def Reg.HK_FAULT_PC (i : Nat) : Field := ⟨0xa0c00c + 0x100 * i, 0, 32, .ro, 0⟩

/-- HK_FAULT_ADDR, bits [31:0], RO (Hackney cores). -/
def Reg.HK_FAULT_ADDR (i : Nat) : Field := ⟨0xa0c010 + 0x100 * i, 0, 32, .ro, 0⟩

/-- HK_ITEMS, bits [31:0], RO (Hackney cores). -/
def Reg.HK_ITEMS (i : Nat) : Field := ⟨0xa0c014 + 0x100 * i, 0, 32, .ro, 0⟩

/-- HK_FAULT_CNT, bits [31:0], RO (Hackney cores). -/
def Reg.HK_FAULT_CNT (i : Nat) : Field := ⟨0xa0c018 + 0x100 * i, 0, 32, .ro, 0⟩

/-- HK_ERR_EXIT, bits [31:0], RO (Hackney cores). -/
def Reg.HK_ERR_EXIT (i : Nat) : Field := ⟨0xa0c01c + 0x100 * i, 0, 32, .ro, 0⟩

/-- HK_ECC_CNT.CORR, bits [15:0], RO (Hackney cores). -/
def Reg.HK_ECC_CNT_CORR (i : Nat) : Field := ⟨0xa0c020 + 0x100 * i, 0, 16, .ro, 0⟩

/-- HK_ECC_CNT.UNCORR, bits [31:16], RO (Hackney cores). -/
def Reg.HK_ECC_CNT_UNCORR (i : Nat) : Field := ⟨0xa0c020 + 0x100 * i, 16, 16, .ro, 0⟩

/-- HK_SWM_IGN, bits [31:0], RO (Hackney cores). -/
def Reg.HK_SWM_IGN (i : Nat) : Field := ⟨0xa0c024 + 0x100 * i, 0, 32, .ro, 0⟩

/-- HK_HOLDOFF_MAX, bits [15:0], RW (Hackney cores). -/
def Reg.HK_HOLDOFF_MAX (i : Nat) : Field := ⟨0xa0c028 + 0x100 * i, 0, 16, .rw, 0⟩

/-- HK_CYC_MAX, bits [31:0], RW (Hackney cores). -/
def Reg.HK_CYC_MAX (i : Nat) : Field := ⟨0xa0c02c + 0x100 * i, 0, 32, .rw, 0⟩

/-- OST_CTRL.RUN, bits [0:0], RW (Ostler and Girth). -/
def Reg.OST_CTRL_RUN : Field := ⟨0xa00000, 0, 1, .rw, 0⟩

/-- OST_STAT.CFG_BUSY, bits [3:3], W1C (Ostler and Girth). -/
def Reg.OST_STAT_CFG_BUSY : Field := ⟨0xa00004, 3, 1, .w1c, 0⟩

/-- OST_STAT.DROP, bits [2:2], W1C (Ostler and Girth). -/
def Reg.OST_STAT_DROP : Field := ⟨0xa00004, 2, 1, .w1c, 0⟩

/-- OST_STAT.DLY_FULL, bits [1:1], W1C (Ostler and Girth). -/
def Reg.OST_STAT_DLY_FULL : Field := ⟨0xa00004, 1, 1, .w1c, 0⟩

/-- OST_STAT.RUNNING, bits [0:0], RO (Ostler and Girth). -/
def Reg.OST_STAT_RUNNING : Field := ⟨0xa00004, 0, 1, .ro, 0⟩

/-- OST_CORE_CYC, bits [15:0], RO (Ostler and Girth). Its value comes from the configuration image; before stage CFG it is the one of log entry 4. -/
def Reg.OST_CORE_CYC : Field := ⟨0xa00008, 0, 16, .ro, 0⟩

/-- OST_DLY_CNT.NOW, bits [10:0], RO (Ostler and Girth). -/
def Reg.OST_DLY_CNT_NOW : Field := ⟨0xa0000c, 0, 11, .ro, 0⟩

/-- OST_DLY_CNT.MAX, bits [26:16], RO (Ostler and Girth). -/
def Reg.OST_DLY_CNT_MAX : Field := ⟨0xa0000c, 16, 11, .ro, 0⟩

/-- OST_OVR_CNT, bits [31:0], RO (Ostler and Girth). -/
def Reg.OST_OVR_CNT : Field := ⟨0xa00010, 0, 32, .ro, 0⟩

/-- OST_DROP_CNT, bits [31:0], RO (Ostler and Girth). -/
def Reg.OST_DROP_CNT : Field := ⟨0xa00014, 0, 32, .ro, 0⟩

/-- OST_FAIL_CNT, bits [31:0], RO (Ostler and Girth). -/
def Reg.OST_FAIL_CNT : Field := ⟨0xa00018, 0, 32, .ro, 0⟩

/-- OST_DISPATCH_CNT, bits [31:0], RO (Ostler and Girth). -/
def Reg.OST_DISPATCH_CNT : Field := ⟨0xa0001c, 0, 32, .ro, 0⟩

/-- OST_TRC_CTRL.EN, bits [0:0], RW (Ostler and Girth). -/
def Reg.OST_TRC_CTRL_EN : Field := ⟨0xa00020, 0, 1, .rw, 0⟩

/-- OST_TRC_CTRL.STOP_ON_OVR, bits [1:1], RW (Ostler and Girth). -/
def Reg.OST_TRC_CTRL_STOP_ON_OVR : Field := ⟨0xa00020, 1, 1, .rw, 0⟩

/-- OST_TRC_CTRL.KIND_MASK, bits [12:8], RW (Ostler and Girth). -/
def Reg.OST_TRC_CTRL_KIND_MASK : Field := ⟨0xa00020, 8, 5, .rw, 0⟩

/-- OST_TRC_WR.NEXT, bits [11:0], RO (Ostler and Girth). -/
def Reg.OST_TRC_WR_NEXT : Field := ⟨0xa00024, 0, 12, .ro, 0⟩

/-- OST_TRC_WR.WRAPS, bits [31:16], RO (Ostler and Girth). -/
def Reg.OST_TRC_WR_WRAPS : Field := ⟨0xa00024, 16, 16, .ro, 0⟩

/-- OST_TRC_LOST, bits [31:0], RO (Ostler and Girth). -/
def Reg.OST_TRC_LOST : Field := ⟨0xa00028, 0, 32, .ro, 0⟩

/-- OST_IDLE, bits [15:0], RO (Ostler and Girth). -/
def Reg.OST_IDLE : Field := ⟨0xa0002c, 0, 16, .ro, 65535⟩

/-- GIRTH_BUDGET.BUDGET_MW, bits [15:0], RW (Ostler and Girth). Its value comes from the configuration image; before stage CFG it is the one of log entry 4. -/
def Reg.GIRTH_BUDGET_BUDGET_MW : Field := ⟨0xa00100, 0, 16, .rw, 12000⟩

/-- GIRTH_STAT.F16, bits [12:8], RO (Ostler and Girth). -/
def Reg.GIRTH_STAT_F16 : Field := ⟨0xa00108, 8, 5, .ro, 16⟩

/-- GIRTH_STAT.DENIED, bits [3:3], W1C (Ostler and Girth). -/
def Reg.GIRTH_STAT_DENIED : Field := ⟨0xa00108, 3, 1, .w1c, 0⟩

/-- GIRTH_STAT.BAD_BUDGET, bits [2:2], W1C (Ostler and Girth). -/
def Reg.GIRTH_STAT_BAD_BUDGET : Field := ⟨0xa00108, 2, 1, .w1c, 0⟩

/-- GIRTH_STAT.THERM_CRIT, bits [1:1], W1C (Ostler and Girth). -/
def Reg.GIRTH_STAT_THERM_CRIT : Field := ⟨0xa00108, 1, 1, .w1c, 0⟩

/-- GIRTH_STAT.DERATING, bits [0:0], RO (Ostler and Girth). -/
def Reg.GIRTH_STAT_DERATING : Field := ⟨0xa00108, 0, 1, .ro, 0⟩

/-- GIRTH_FLOOR, bits [15:0], RO (Ostler and Girth). Its value comes from the configuration image; before stage CFG it is the one of log entry 4. -/
def Reg.GIRTH_FLOOR : Field := ⟨0xa00104, 0, 16, .ro, 2500⟩

/-- GIRTH_POOL.PSHF, bits [15:0], RO (Ostler and Girth). -/
def Reg.GIRTH_POOL_PSHF : Field := ⟨0xa0010c, 0, 16, .ro, 0⟩

/-- GIRTH_POOL.U, bits [31:16], RO (Ostler and Girth). -/
def Reg.GIRTH_POOL_U : Field := ⟨0xa0010c, 16, 16, .ro, 0⟩

/-- GIRTH_TJ.NOW, bits [15:0], RO (Ostler and Girth). -/
def Reg.GIRTH_TJ_NOW : Field := ⟨0xa00110, 0, 16, .ro, 0⟩

/-- GIRTH_TJ.MAX, bits [31:16], RO (Ostler and Girth). -/
def Reg.GIRTH_TJ_MAX : Field := ⟨0xa00110, 16, 16, .ro, 0⟩

/-- GIRTH_STAND.P_IO, bits [15:0], RO (Ostler and Girth). -/
def Reg.GIRTH_STAND_P_IO : Field := ⟨0xa00114, 0, 16, .ro, 0⟩

/-- GIRTH_STAND.P_CYC, bits [31:16], RO (Ostler and Girth). -/
def Reg.GIRTH_STAND_P_CYC : Field := ⟨0xa00114, 16, 16, .ro, 0⟩

/-- GIRTH_BASE.P_BASE, bits [15:0], RO (Ostler and Girth). Its value comes from the configuration image; before stage CFG it is the one of log entry 4. -/
def Reg.GIRTH_BASE_P_BASE : Field := ⟨0xa00118, 0, 16, .ro, 0⟩

/-- GIRTH_BASE.P_LOOP, bits [31:16], RO (Ostler and Girth). -/
def Reg.GIRTH_BASE_P_LOOP : Field := ⟨0xa00118, 16, 16, .ro, 2500⟩

/-- GIRTH_CLASS, bits [15:0], RW (Ostler and Girth). -/
def Reg.GIRTH_CLASS (i : Nat) : Field := ⟨0xa00120 + 0x4 * i, 0, 16, .rw, [120, 180, 240, 300, 360, 420, 500, 600].getD i 0⟩

/-- GIRTH_SAGE0.P8, bits [15:0], RW (Ostler and Girth). -/
def Reg.GIRTH_SAGE0_P8 : Field := ⟨0xa00140, 0, 16, .rw, 2000⟩

/-- GIRTH_SAGE0.P16, bits [31:16], RW (Ostler and Girth). -/
def Reg.GIRTH_SAGE0_P16 : Field := ⟨0xa00140, 16, 16, .rw, 3800⟩

/-- GIRTH_SAGE1.P32, bits [15:0], RW (Ostler and Girth). -/
def Reg.GIRTH_SAGE1_P32 : Field := ⟨0xa00144, 0, 16, .rw, 7200⟩

/-- GIRTH_SAGE1.SAGE_CLASS, bits [18:16], RW (Ostler and Girth). -/
def Reg.GIRTH_SAGE1_SAGE_CLASS : Field := ⟨0xa00144, 16, 3, .rw, 7⟩

/-- GIRTH_IO0.SGMII, bits [15:0], RW (Ostler and Girth). -/
def Reg.GIRTH_IO0_SGMII : Field := ⟨0xa00148, 0, 16, .rw, 150⟩

/-- GIRTH_IO0.USX, bits [31:16], RW (Ostler and Girth). -/
def Reg.GIRTH_IO0_USX : Field := ⟨0xa00148, 16, 16, .rw, 450⟩

/-- GIRTH_IO1.TACK, bits [15:0], RW (Ostler and Girth). -/
def Reg.GIRTH_IO1_TACK : Field := ⟨0xa0014c, 0, 16, .rw, 400⟩

/-- GIRTH_IO1.ADC, bits [31:16], RW (Ostler and Girth). -/
def Reg.GIRTH_IO1_ADC : Field := ⟨0xa0014c, 16, 16, .rw, 120⟩

/-- GIRTH_DENY_CNT.CORE, bits [15:0], RO (Ostler and Girth). -/
def Reg.GIRTH_DENY_CNT_CORE : Field := ⟨0xa00150, 0, 16, .ro, 0⟩

/-- GIRTH_DENY_CNT.SAGE, bits [31:16], RO (Ostler and Girth). -/
def Reg.GIRTH_DENY_CNT_SAGE : Field := ⟨0xa00150, 16, 16, .ro, 0⟩

/-- GIRTH_GRANT, bits [1:0], RO (Ostler and Girth). -/
def Reg.GIRTH_GRANT : Field := ⟨0xa00154, 0, 2, .ro, 0⟩

/-- BRD_STAT.ANY_DEMAND, bits [7:7], RO (Bridle). -/
def Reg.BRD_STAT_ANY_DEMAND : Field := ⟨0xb00000, 7, 1, .ro, 1⟩

/-- BRD_STAT.SPS_STAGED, bits [6:6], RO (Bridle). -/
def Reg.BRD_STAT_SPS_STAGED : Field := ⟨0xb00000, 6, 1, .ro, 0⟩

/-- BRD_STAT.PDK_LOST, bits [5:5], RO (Bridle). -/
def Reg.BRD_STAT_PDK_LOST : Field := ⟨0xb00000, 5, 1, .ro, 0⟩

/-- BRD_STAT.REALIGN, bits [4:4], W1C (Bridle). -/
def Reg.BRD_STAT_REALIGN : Field := ⟨0xb00000, 4, 1, .w1c, 0⟩

/-- BRD_STAT.STATE, bits [2:0], RO (Bridle). -/
def Reg.BRD_STAT_STATE : Field := ⟨0xb00000, 0, 3, .ro, 0⟩

/-- BRD_FAULT, bits [3:0], RO (Bridle). -/
def Reg.BRD_FAULT : Field := ⟨0xb00004, 0, 4, .ro, 0⟩

/-- BRD_TICK, bits [63:0], RO (Bridle). -/
def Reg.BRD_TICK : Field := ⟨0xb00008, 0, 64, .ro, 0⟩

/-- BRD_ZONE_DEM, bits [31:0], RO (Bridle). -/
def Reg.BRD_ZONE_DEM : Field := ⟨0xb00010, 0, 32, .ro, 4294967295⟩

/-- BRD_ZONE_STO, bits [31:0], RO (Bridle). -/
def Reg.BRD_ZONE_STO : Field := ⟨0xb00014, 0, 32, .ro, 4294967295⟩

/-- BRD_IN, bits [63:0], RO (Bridle). -/
def Reg.BRD_IN : Field := ⟨0xb00018, 0, 64, .ro, 0⟩

/-- BRD_IN_FAULT, bits [63:0], RO (Bridle). -/
def Reg.BRD_IN_FAULT : Field := ⟨0xb00020, 0, 64, .ro, 0⟩

/-- BRD_OUT, bits [31:0], RO (Bridle). -/
def Reg.BRD_OUT : Field := ⟨0xb00028, 0, 32, .ro, 0⟩

/-- BRD_OUT_RB, bits [31:0], RO (Bridle). -/
def Reg.BRD_OUT_RB : Field := ⟨0xb0002c, 0, 32, .ro, 0⟩

/-- BRD_OUT_FAULT, bits [31:0], RO (Bridle). -/
def Reg.BRD_OUT_FAULT : Field := ⟨0xb00030, 0, 32, .ro, 0⟩

/-- BRD_TP.ON, bits [7:0], RO (Bridle). -/
def Reg.BRD_TP_ON : Field := ⟨0xb00034, 0, 8, .ro, 0⟩

/-- BRD_TP.FAULT, bits [15:8], RO (Bridle). -/
def Reg.BRD_TP_FAULT : Field := ⟨0xb00034, 8, 8, .ro, 0⟩

/-- BRD_TP.CUT, bits [19:16], RO (Bridle). -/
def Reg.BRD_TP_CUT : Field := ⟨0xb00034, 16, 4, .ro, 0⟩

/-- BRD_SPS_ID, bits [31:0], RO (Bridle). -/
def Reg.BRD_SPS_ID : Field := ⟨0xb00038, 0, 32, .ro, 0⟩

/-- BRD_SPS_CRC, bits [31:0], RO (Bridle). -/
def Reg.BRD_SPS_CRC : Field := ⟨0xb0003c, 0, 32, .ro, 0⟩

/-- BRD_SPS_VER, bits [31:0], RO (Bridle). -/
def Reg.BRD_SPS_VER : Field := ⟨0xb00040, 0, 32, .ro, 0⟩

/-- BRD_RPT_DROP, bits [31:0], RO (Bridle). -/
def Reg.BRD_RPT_DROP : Field := ⟨0xb00044, 0, 32, .ro, 0⟩

/-- BRD_DEMAND_CNT, bits [31:0], RO (Bridle). -/
def Reg.BRD_DEMAND_CNT : Field := ⟨0xb00048, 0, 32, .ro, 0⟩

/-- BRD_FUNC_STAT.COUNT, bits [31:16], RO (Bridle). -/
def Reg.BRD_FUNC_STAT_COUNT (i : Nat) : Field := ⟨0xb00100 + 0x4 * i, 16, 16, .ro, 0⟩

/-- BRD_FUNC_STAT.INPUT, bits [5:5], RO (Bridle). -/
def Reg.BRD_FUNC_STAT_INPUT (i : Nat) : Field := ⟨0xb00100 + 0x4 * i, 5, 1, .ro, 0⟩

/-- BRD_FUNC_STAT.SYNC, bits [4:4], RO (Bridle). -/
def Reg.BRD_FUNC_STAT_SYNC (i : Nat) : Field := ⟨0xb00100 + 0x4 * i, 4, 1, .ro, 0⟩

/-- BRD_FUNC_STAT.DISC, bits [3:3], RO (Bridle). -/
def Reg.BRD_FUNC_STAT_DISC (i : Nat) : Field := ⟨0xb00100 + 0x4 * i, 3, 1, .ro, 0⟩

/-- BRD_FUNC_STAT.STATE, bits [1:0], RO (Bridle). -/
def Reg.BRD_FUNC_STAT_STATE (i : Nat) : Field := ⟨0xb00100 + 0x4 * i, 0, 2, .ro, 0⟩

/-- BRD_ZONE_STAT.SS1_LEFT, bits [31:16], RO (Bridle). -/
def Reg.BRD_ZONE_STAT_SS1_LEFT (i : Nat) : Field := ⟨0xb00300 + 0x4 * i, 16, 16, .ro, 0⟩

/-- BRD_ZONE_STAT.SPEED_FAULT, bits [7:7], W1C (Bridle). -/
def Reg.BRD_ZONE_STAT_SPEED_FAULT (i : Nat) : Field := ⟨0xb00300 + 0x4 * i, 7, 1, .w1c, 0⟩

/-- BRD_ZONE_STAT.STO_UNCONF, bits [6:6], W1C (Bridle). -/
def Reg.BRD_ZONE_STAT_STO_UNCONF (i : Nat) : Field := ⟨0xb00300 + 0x4 * i, 6, 1, .w1c, 0⟩

/-- BRD_ZONE_STAT.RAMP_VIOL, bits [5:5], W1C (Bridle). -/
def Reg.BRD_ZONE_STAT_RAMP_VIOL (i : Nat) : Field := ⟨0xb00300 + 0x4 * i, 5, 1, .w1c, 0⟩

/-- BRD_ZONE_STAT.SLS_VIOL, bits [4:4], W1C (Bridle). -/
def Reg.BRD_ZONE_STAT_SLS_VIOL (i : Nat) : Field := ⟨0xb00300 + 0x4 * i, 4, 1, .w1c, 0⟩

/-- BRD_ZONE_STAT.SLS_ACTIVE, bits [3:3], RO (Bridle). -/
def Reg.BRD_ZONE_STAT_SLS_ACTIVE (i : Nat) : Field := ⟨0xb00300 + 0x4 * i, 3, 1, .ro, 0⟩

/-- BRD_ZONE_STAT.STO, bits [2:2], RO (Bridle). -/
def Reg.BRD_ZONE_STAT_STO (i : Nat) : Field := ⟨0xb00300 + 0x4 * i, 2, 1, .ro, 1⟩

/-- BRD_ZONE_STAT.SS1, bits [1:1], RO (Bridle). -/
def Reg.BRD_ZONE_STAT_SS1 (i : Nat) : Field := ⟨0xb00300 + 0x4 * i, 1, 1, .ro, 0⟩

/-- BRD_ZONE_STAT.DEMAND, bits [0:0], RO (Bridle). -/
def Reg.BRD_ZONE_STAT_DEMAND (i : Nat) : Field := ⟨0xb00300 + 0x4 * i, 0, 1, .ro, 1⟩

/-- FIO_IN, bits [63:0], RO (field I/O). -/
def Reg.FIO_IN : Field := ⟨0xc00000, 0, 64, .ro, 0⟩

/-- FIO_OUT, bits [31:0], RO (field I/O). -/
def Reg.FIO_OUT : Field := ⟨0xc00008, 0, 32, .ro, 0⟩

/-- FIO_RB, bits [31:0], RO (field I/O). -/
def Reg.FIO_RB : Field := ⟨0xc0000c, 0, 32, .ro, 0⟩

/-- FIO_PUB, bits [17:0], RO (field I/O). Its value comes from the configuration image; before stage CFG it is the one of log entry 4. -/
def Reg.FIO_PUB : Field := ⟨0xc00010, 0, 18, .ro, 0⟩

/-- FIO_STAT.CFG_BUSY, bits [0:0], W1C (field I/O). -/
def Reg.FIO_STAT_CFG_BUSY : Field := ⟨0xc00014, 0, 1, .w1c, 0⟩

/-- FIO_GRP_CFG.T_SILENT2, bits [31:16], RW (field I/O). -/
def Reg.FIO_GRP_CFG_T_SILENT2 (i : Nat) : Field := ⟨0xc01000 + 0x100 * i, 16, 16, .rw, 0⟩

/-- FIO_GRP_CFG.FAULT_PIN, bits [11:11], RW (field I/O). -/
def Reg.FIO_GRP_CFG_FAULT_PIN (i : Nat) : Field := ⟨0xc01000 + 0x100 * i, 11, 1, .rw, 1⟩

/-- FIO_GRP_CFG.AUTO_REARM, bits [10:10], RW (field I/O). -/
def Reg.FIO_GRP_CFG_AUTO_REARM (i : Nat) : Field := ⟨0xc01000 + 0x100 * i, 10, 1, .rw, 0⟩

/-- FIO_GRP_CFG.T_SILENT1, bits [9:0], RW (field I/O). -/
def Reg.FIO_GRP_CFG_T_SILENT1 (i : Nat) : Field := ⟨0xc01000 + 0x100 * i, 0, 10, .rw, 10⟩

/-- FIO_GRP_STAT.SILENT_OFF, bits [7:7], RO (field I/O). -/
def Reg.FIO_GRP_STAT_SILENT_OFF (i : Nat) : Field := ⟨0xc01004 + 0x100 * i, 7, 1, .ro, 0⟩

/-- FIO_GRP_STAT.OUT_FAULT, bits [6:6], RO (field I/O). -/
def Reg.FIO_GRP_STAT_OUT_FAULT (i : Nat) : Field := ⟨0xc01004 + 0x100 * i, 6, 1, .ro, 0⟩

/-- FIO_GRP_STAT.CUT_OPEN, bits [5:5], RO (field I/O). -/
def Reg.FIO_GRP_STAT_CUT_OPEN (i : Nat) : Field := ⟨0xc01004 + 0x100 * i, 5, 1, .ro, 0⟩

/-- FIO_GRP_STAT.SILENT1, bits [4:4], RO (field I/O). -/
def Reg.FIO_GRP_STAT_SILENT1 (i : Nat) : Field := ⟨0xc01004 + 0x100 * i, 4, 1, .ro, 0⟩

/-- FIO_GRP_STAT.SUPPLY_LOST, bits [3:3], RO (field I/O). -/
def Reg.FIO_GRP_STAT_SUPPLY_LOST (i : Nat) : Field := ⟨0xc01004 + 0x100 * i, 3, 1, .ro, 0⟩

/-- FIO_GRP_STAT.SUPPLY_LOW, bits [2:2], RO (field I/O). -/
def Reg.FIO_GRP_STAT_SUPPLY_LOW (i : Nat) : Field := ⟨0xc01004 + 0x100 * i, 2, 1, .ro, 0⟩

/-- FIO_GRP_STAT.REARM_WAIT, bits [1:1], RO (field I/O). -/
def Reg.FIO_GRP_STAT_REARM_WAIT (i : Nat) : Field := ⟨0xc01004 + 0x100 * i, 1, 1, .ro, 0⟩

/-- FIO_GRP_STAT.FAULT, bits [0:0], RO (field I/O). -/
def Reg.FIO_GRP_STAT_FAULT (i : Nat) : Field := ⟨0xc01004 + 0x100 * i, 0, 1, .ro, 0⟩

/-- FIO_VFIELD.LAST, bits [15:0], RO (field I/O). -/
def Reg.FIO_VFIELD_LAST (i : Nat) : Field := ⟨0xc01008 + 0x100 * i, 0, 16, .ro, 0⟩

/-- FIO_VFIELD.LOWEST, bits [31:16], RW (field I/O). -/
def Reg.FIO_VFIELD_LOWEST (i : Nat) : Field := ⟨0xc01008 + 0x100 * i, 16, 16, .rw, 0⟩

/-- FIO_GRP_CNT.LOST, bits [15:0], RO (field I/O). -/
def Reg.FIO_GRP_CNT_LOST (i : Nat) : Field := ⟨0xc0100c + 0x100 * i, 0, 16, .ro, 0⟩

/-- FIO_GRP_CNT.SILENT1, bits [31:16], RO (field I/O). -/
def Reg.FIO_GRP_CNT_SILENT1 (i : Nat) : Field := ⟨0xc0100c + 0x100 * i, 16, 16, .ro, 0⟩

/-- FIO_IN_CFG.FILT, bits [7:0], RW (field I/O). -/
def Reg.FIO_IN_CFG_FILT (i : Nat) : Field := ⟨0xc02000 + 0x4 * i, 0, 8, .rw, 3⟩

/-- FIO_IN_TS, bits [63:0], RO (field I/O). -/
def Reg.FIO_IN_TS (i : Nat) : Field := ⟨0xc02200 + 0x8 * i, 0, 64, .ro, 0⟩

/-- FIO_OUT_CFG.OWNER, bits [1:0], RW (field I/O). Its value comes from the configuration image; before stage CFG it is the one of log entry 4. -/
def Reg.FIO_OUT_CFG_OWNER (i : Nat) : Field := ⟨0xc03000 + 0x10 * i, 0, 2, .rw, 0⟩

/-- FIO_OUT_CFG.SAFE_VAL, bits [3:2], RW (field I/O). -/
def Reg.FIO_OUT_CFG_SAFE_VAL (i : Nat) : Field := ⟨0xc03000 + 0x10 * i, 2, 2, .rw, 0⟩

/-- FIO_OUT_CFG.OUT_BIT, bits [8:4], RW (field I/O). -/
def Reg.FIO_OUT_CFG_OUT_BIT (i : Nat) : Field := ⟨0xc03000 + 0x10 * i, 4, 5, .rw, 0⟩

/-- FIO_OUT_CFG.RB_BLANK, bits [16:9], RW (field I/O). -/
def Reg.FIO_OUT_CFG_RB_BLANK (i : Nat) : Field := ⟨0xc03000 + 0x10 * i, 9, 8, .rw, 10⟩

/-- FIO_OUT_SIG.OUT_SIG, bits [17:0], RW (field I/O). -/
def Reg.FIO_OUT_SIG_OUT_SIG (i : Nat) : Field := ⟨0xc03004 + 0x10 * i, 0, 18, .rw, 0⟩

/-- FIO_OUT_STAT.RB_HIGH, bits [5:5], W1C (field I/O). -/
def Reg.FIO_OUT_STAT_RB_HIGH (i : Nat) : Field := ⟨0xc03008 + 0x10 * i, 5, 1, .w1c, 0⟩

/-- FIO_OUT_STAT.RB_LOW, bits [4:4], W1C (field I/O). -/
def Reg.FIO_OUT_STAT_RB_LOW (i : Nat) : Field := ⟨0xc03008 + 0x10 * i, 4, 1, .w1c, 0⟩

/-- FIO_OUT_STAT.THERMAL, bits [3:3], RO (field I/O). -/
def Reg.FIO_OUT_STAT_THERMAL (i : Nat) : Field := ⟨0xc03008 + 0x10 * i, 3, 1, .ro, 0⟩

/-- FIO_OUT_STAT.OVERLOAD, bits [2:2], RO (field I/O). -/
def Reg.FIO_OUT_STAT_OVERLOAD (i : Nat) : Field := ⟨0xc03008 + 0x10 * i, 2, 1, .ro, 0⟩

/-- FIO_OUT_STAT.RB, bits [1:1], RO (field I/O). -/
def Reg.FIO_OUT_STAT_RB (i : Nat) : Field := ⟨0xc03008 + 0x10 * i, 1, 1, .ro, 0⟩

/-- FIO_OUT_STAT.ON, bits [0:0], RO (field I/O). -/
def Reg.FIO_OUT_STAT_ON (i : Nat) : Field := ⟨0xc03008 + 0x10 * i, 0, 1, .ro, 0⟩

/-- PAIR_CFG.PAIRED, bits [15:15], RO (pair). Its value comes from the configuration image; before stage CFG it is the one of log entry 4. -/
def Reg.PAIR_CFG_PAIRED : Field := ⟨0xd00000, 15, 1, .ro, 0⟩

/-- PAIR_CFG.AUTO_REVERT, bits [14:14], RO (pair). Its value comes from the configuration image; before stage CFG it is the one of log entry 4. -/
def Reg.PAIR_CFG_AUTO_REVERT : Field := ⟨0xd00000, 14, 1, .ro, 0⟩

/-- PAIR_CFG.QUIET_EN, bits [13:13], RO (pair). Its value comes from the configuration image; before stage CFG it is the one of log entry 4. -/
def Reg.PAIR_CFG_QUIET_EN : Field := ⟨0xd00000, 13, 1, .ro, 0⟩

/-- PAIR_CFG.PREF, bits [12:12], RO (pair). Its value comes from the configuration image; before stage CFG it is the one of log entry 4. -/
def Reg.PAIR_CFG_PREF : Field := ⟨0xd00000, 12, 1, .ro, 0⟩

/-- PAIR_CFG.SNAP_PERIOD, bits [11:4], RO (pair). Its value comes from the configuration image; before stage CFG it is the one of log entry 4. -/
def Reg.PAIR_CFG_SNAP_PERIOD : Field := ⟨0xd00000, 4, 8, .ro, 1⟩

/-- PAIR_CFG.REIN_WD, bits [3:0], RO (pair). Its value comes from the configuration image; before stage CFG it is the one of log entry 4. -/
def Reg.PAIR_CFG_REIN_WD : Field := ⟨0xd00000, 0, 4, .ro, 1⟩

/-- PAIR_QUIET.QUIET_BIT, bits [22:18], RO (pair). Its value comes from the configuration image; before stage CFG it is the one of log entry 4. -/
def Reg.PAIR_QUIET_QUIET_BIT : Field := ⟨0xd00004, 18, 5, .ro, 0⟩

/-- PAIR_QUIET.QUIET_SIG, bits [17:0], RO (pair). Its value comes from the configuration image; before stage CFG it is the one of log entry 4. -/
def Reg.PAIR_QUIET_QUIET_SIG : Field := ⟨0xd00004, 0, 18, .ro, 0⟩

/-- PAIR_TIMES.START_WAIT, bits [31:16], RW (pair). -/
def Reg.PAIR_TIMES_START_WAIT : Field := ⟨0xd00008, 16, 16, .rw, 50⟩

/-- PAIR_TIMES.REVERT_DWELL, bits [15:0], RW (pair). -/
def Reg.PAIR_TIMES_REVERT_DWELL : Field := ⟨0xd00008, 0, 16, .rw, 600⟩

/-- PAIR_STAT.REBASE_FAIL, bits [16:16], W1C (pair). -/
def Reg.PAIR_STAT_REBASE_FAIL : Field := ⟨0xd0000c, 16, 1, .w1c, 0⟩

/-- PAIR_STAT.SNAP_LATE, bits [15:15], W1C (pair). -/
def Reg.PAIR_STAT_SNAP_LATE : Field := ⟨0xd0000c, 15, 1, .w1c, 0⟩

/-- PAIR_STAT.SHADOW_DIFF, bits [14:14], W1C (pair). -/
def Reg.PAIR_STAT_SHADOW_DIFF : Field := ⟨0xd0000c, 14, 1, .w1c, 0⟩

/-- PAIR_STAT.NOT_READY_DROP, bits [13:13], W1C (pair). -/
def Reg.PAIR_STAT_NOT_READY_DROP : Field := ⟨0xd0000c, 13, 1, .w1c, 0⟩

/-- PAIR_STAT.TACK_LOST, bits [12:12], W1C (pair). -/
def Reg.PAIR_STAT_TACK_LOST : Field := ⟨0xd0000c, 12, 1, .w1c, 0⟩

/-- PAIR_STAT.REVERT_PEND, bits [11:11], RO (pair). -/
def Reg.PAIR_STAT_REVERT_PEND : Field := ⟨0xd0000c, 11, 1, .ro, 0⟩

/-- PAIR_STAT.TACK_UP, bits [10:9], RO (pair). -/
def Reg.PAIR_STAT_TACK_UP : Field := ⟨0xd0000c, 9, 2, .ro, 0⟩

/-- PAIR_STAT.READY, bits [8:8], RO (pair). -/
def Reg.PAIR_STAT_READY : Field := ⟨0xd0000c, 8, 1, .ro, 0⟩

/-- PAIR_STAT.PEER_HOLD, bits [7:7], RO (pair). -/
def Reg.PAIR_STAT_PEER_HOLD : Field := ⟨0xd0000c, 7, 1, .ro, 0⟩

/-- PAIR_STAT.HOLDER, bits [6:6], RO (pair). -/
def Reg.PAIR_STAT_HOLDER : Field := ⟨0xd0000c, 6, 1, .ro, 0⟩

/-- PAIR_STAT.ROLE, bits [5:5], RO (pair). Strapped; sampled at nRST release. -/
def Reg.PAIR_STAT_ROLE : Field := ⟨0xd0000c, 5, 1, .ro, 0⟩

/-- PAIR_STAT.STATE, bits [3:0], RO (pair). -/
def Reg.PAIR_STAT_STATE : Field := ⟨0xd0000c, 0, 4, .ro, 1⟩

/-- PAIR_LAST.CAUSE, bits [3:0], RO (pair). -/
def Reg.PAIR_LAST_CAUSE : Field := ⟨0xd00010, 0, 4, .ro, 0⟩

/-- PAIR_LAST.GAP, bits [15:8], RO (pair). -/
def Reg.PAIR_LAST_GAP : Field := ⟨0xd00010, 8, 8, .ro, 0⟩

/-- PAIR_SNAP_TX, bits [63:0], RO (pair). -/
def Reg.PAIR_SNAP_TX : Field := ⟨0xd00014, 0, 64, .ro, 18446744073709551615⟩

/-- PAIR_SNAP_RX, bits [63:0], RO (pair). -/
def Reg.PAIR_SNAP_RX : Field := ⟨0xd0001c, 0, 64, .ro, 18446744073709551615⟩

/-- PAIR_SNAP_SIZE, bits [19:0], RO (pair). -/
def Reg.PAIR_SNAP_SIZE : Field := ⟨0xd00024, 0, 20, .ro, 0⟩

/-- PAIR_SNAP_NS, bits [31:0], RO (pair). -/
def Reg.PAIR_SNAP_NS : Field := ⟨0xd00028, 0, 32, .ro, 0⟩

/-- PAIR_TAKEOVER_CNT, bits [31:0], RO (pair). -/
def Reg.PAIR_TAKEOVER_CNT : Field := ⟨0xd0002c, 0, 32, .ro, 0⟩

/-- PAIR_REVERT_CNT, bits [31:0], RO (pair). -/
def Reg.PAIR_REVERT_CNT : Field := ⟨0xd00030, 0, 32, .ro, 0⟩

/-- PAIR_SNAP_BAD_CNT, bits [31:0], RO (pair). -/
def Reg.PAIR_SNAP_BAD_CNT : Field := ⟨0xd00034, 0, 32, .ro, 0⟩

/-- PAIR_TACK_CRC_CNT, bits [31:0], RO (pair). -/
def Reg.PAIR_TACK_CRC_CNT : Field := ⟨0xd00038, 0, 32, .ro, 0⟩

/-- PAIR_SELFTEST_FAIL_CNT, bits [31:0], RO (pair). -/
def Reg.PAIR_SELFTEST_FAIL_CNT : Field := ⟨0xd0003c, 0, 32, .ro, 0⟩

/-- PAIR_SELFTEST.PASS, bits [0:0], RO (pair). -/
def Reg.PAIR_SELFTEST_PASS : Field := ⟨0xd00040, 0, 1, .ro, 0⟩

/-- PAIR_SELFTEST.RUNNING, bits [1:1], RO (pair). -/
def Reg.PAIR_SELFTEST_RUNNING : Field := ⟨0xd00040, 1, 1, .ro, 0⟩

/-- PAIR_SELFTEST.CODE, bits [15:8], RO (pair). -/
def Reg.PAIR_SELFTEST_CODE : Field := ⟨0xd00040, 8, 8, .ro, 0⟩

/-- PAIR_PEER_HEALTH, bits [31:0], RO (pair). -/
def Reg.PAIR_PEER_HEALTH : Field := ⟨0xd00044, 0, 32, .ro, 0⟩

/-- GLB_HOST_CFG.BB_CMD_EN, bits [2:2], RO (host). Its value comes from the configuration image; before stage CFG it is the one of log entry 4. -/
def Reg.GLB_HOST_CFG_BB_CMD_EN : Field := ⟨0x10, 2, 1, .ro, 0⟩

/-- GLB_HOST_CFG.SPI_EN, bits [1:1], RO (host). Its value comes from the configuration image; before stage CFG it is the one of log entry 4. -/
def Reg.GLB_HOST_CFG_SPI_EN : Field := ⟨0x10, 1, 1, .ro, 0⟩

/-- GLB_HOST_CFG.SPI_PRIV, bits [0:0], RO (host). Its value comes from the configuration image; before stage CFG it is the one of log entry 4. -/
def Reg.GLB_HOST_CFG_SPI_PRIV : Field := ⟨0x10, 0, 1, .ro, 0⟩

/-- PRIV_VIOL_CNT.PF0, bits [15:0], RO (host). -/
def Reg.PRIV_VIOL_CNT_PF0 : Field := ⟨0x14, 0, 16, .ro, 0⟩

/-- PRIV_VIOL_CNT.OTHER, bits [31:16], RO (host). -/
def Reg.PRIV_VIOL_CNT_OTHER : Field := ⟨0x14, 16, 16, .ro, 0⟩

/-- HOST_ERR_CNT.PARTIAL, bits [15:0], RO (host). -/
def Reg.HOST_ERR_CNT_PARTIAL : Field := ⟨0x18, 0, 16, .ro, 0⟩

/-- HOST_ERR_CNT.UNMAPPED, bits [31:16], RO (host). -/
def Reg.HOST_ERR_CNT_UNMAPPED : Field := ⟨0x18, 16, 16, .ro, 0⟩

/-- BB_CMD_CNT.EXEC, bits [15:0], RO (host). -/
def Reg.BB_CMD_CNT_EXEC : Field := ⟨0x1c, 0, 16, .ro, 0⟩

/-- BB_CMD_CNT.LATE, bits [31:16], RO (host). -/
def Reg.BB_CMD_CNT_LATE : Field := ⟨0x1c, 16, 16, .ro, 0⟩

/-- GLB_HEALTH.THERM, bits [4:4], RO (host). -/
def Reg.GLB_HEALTH_THERM : Field := ⟨0x20, 4, 1, .ro, 0⟩

/-- GLB_HEALTH.BRIDLE_CHANGE, bits [3:3], W1C (host). -/
def Reg.GLB_HEALTH_BRIDLE_CHANGE : Field := ⟨0x20, 3, 1, .w1c, 0⟩

/-- GLB_HEALTH.PAIR_CHANGE, bits [2:2], W1C (host). -/
def Reg.GLB_HEALTH_PAIR_CHANGE : Field := ⟨0x20, 2, 1, .w1c, 0⟩

/-- GLB_HEALTH.SAFE, bits [1:1], RO (host). -/
def Reg.GLB_HEALTH_SAFE : Field := ⟨0x20, 1, 1, .ro, 0⟩

/-- GLB_HEALTH.FAULT, bits [0:0], RO (host). -/
def Reg.GLB_HEALTH_FAULT : Field := ⟨0x20, 0, 1, .ro, 0⟩

/-- SEC_STAT.FLASH_BUSY, bits [7:7], RO (security). -/
def Reg.SEC_STAT_FLASH_BUSY : Field := ⟨0xe00000, 7, 1, .ro, 0⟩

/-- SEC_STAT.FW_NONE, bits [6:6], RO (security). -/
def Reg.SEC_STAT_FW_NONE : Field := ⟨0xe00000, 6, 1, .ro, 0⟩

/-- SEC_STAT.PARTNER_REPLACED, bits [5:5], RO (security). -/
def Reg.SEC_STAT_PARTNER_REPLACED : Field := ⟨0xe00000, 5, 1, .ro, 0⟩

/-- SEC_STAT.SELF_REPLACED, bits [4:4], RO (security). -/
def Reg.SEC_STAT_SELF_REPLACED : Field := ⟨0xe00000, 4, 1, .ro, 0⟩

/-- SEC_STAT.DEBUG_OPENED, bits [3:3], RO (security). -/
def Reg.SEC_STAT_DEBUG_OPENED : Field := ⟨0xe00000, 3, 1, .ro, 0⟩

/-- SEC_STAT.DEBUG_OPEN, bits [2:2], RO (security). -/
def Reg.SEC_STAT_DEBUG_OPEN : Field := ⟨0xe00000, 2, 1, .ro, 0⟩

/-- SEC_STAT.LIFECYCLE, bits [1:0], RO (security). Fused; the value here is the one of log entry 5. -/
def Reg.SEC_STAT_LIFECYCLE : Field := ⟨0xe00000, 0, 2, .ro, 0⟩

/-- SEC_BOOT.SPS1, bits [31:28], RO (security). -/
def Reg.SEC_BOOT_SPS1 : Field := ⟨0xe00004, 28, 4, .ro, 0⟩

/-- SEC_BOOT.SPS0, bits [27:24], RO (security). -/
def Reg.SEC_BOOT_SPS0 : Field := ⟨0xe00004, 24, 4, .ro, 0⟩

/-- SEC_BOOT.CFG1, bits [23:20], RO (security). -/
def Reg.SEC_BOOT_CFG1 : Field := ⟨0xe00004, 20, 4, .ro, 0⟩

/-- SEC_BOOT.CFG0, bits [19:16], RO (security). -/
def Reg.SEC_BOOT_CFG0 : Field := ⟨0xe00004, 16, 4, .ro, 0⟩

/-- SEC_BOOT.FW1, bits [15:12], RO (security). -/
def Reg.SEC_BOOT_FW1 : Field := ⟨0xe00004, 12, 4, .ro, 0⟩

/-- SEC_BOOT.FW0, bits [11:8], RO (security). -/
def Reg.SEC_BOOT_FW0 : Field := ⟨0xe00004, 8, 4, .ro, 0⟩

/-- SEC_BOOT.BANK, bits [2:0], RO (security). -/
def Reg.SEC_BOOT_BANK : Field := ⟨0xe00004, 0, 3, .ro, 0⟩

/-- SEC_FW_VER, bits [31:0], RO (security). -/
def Reg.SEC_FW_VER : Field := ⟨0xe00008, 0, 32, .ro, 0⟩

/-- SEC_CFG_VER, bits [31:0], RO (security). -/
def Reg.SEC_CFG_VER : Field := ⟨0xe0000c, 0, 32, .ro, 0⟩

/-- SEC_SPS_VER, bits [31:0], RO (security). -/
def Reg.SEC_SPS_VER : Field := ⟨0xe00010, 0, 32, .ro, 0⟩

/-- SEC_RB.FW, bits [5:0], RO (security). Fused; the value here is the one of log entry 5. -/
def Reg.SEC_RB_FW : Field := ⟨0xe00014, 0, 6, .ro, 0⟩

/-- SEC_RB.CFG, bits [13:8], RO (security). Fused; the value here is the one of log entry 5. -/
def Reg.SEC_RB_CFG : Field := ⟨0xe00014, 8, 6, .ro, 0⟩

/-- SEC_RB.SPS, bits [21:16], RO (security). Fused; the value here is the one of log entry 5. -/
def Reg.SEC_RB_SPS : Field := ⟨0xe00014, 16, 6, .ro, 0⟩

/-- SEC_OWNER.PROGRAMMED, bits [3:0], RO (security). Fused; the value here is the one of log entry 5. -/
def Reg.SEC_OWNER_PROGRAMMED : Field := ⟨0xe00018, 0, 4, .ro, 0⟩

/-- SEC_OWNER.REVOKED, bits [7:4], RO (security). Fused; the value here is the one of log entry 5. -/
def Reg.SEC_OWNER_REVOKED : Field := ⟨0xe00018, 4, 4, .ro, 0⟩

/-- SEC_OWNER.CFG_SLOT, bits [9:8], RO (security). Fused; the value here is the one of log entry 5. -/
def Reg.SEC_OWNER_CFG_SLOT : Field := ⟨0xe00018, 8, 2, .ro, 0⟩

/-- SEC_OWNER.SPS_SLOT, bits [11:10], RO (security). Fused; the value here is the one of log entry 5. -/
def Reg.SEC_OWNER_SPS_SLOT : Field := ⟨0xe00018, 10, 2, .ro, 0⟩

/-- SEC_BOOT_CNT, bits [31:0], RO (security). -/
def Reg.SEC_BOOT_CNT : Field := ⟨0xe0001c, 0, 32, .ro, 0⟩

/-- SEC_SIGN_CNT.REPORTS, bits [15:0], RO (security). -/
def Reg.SEC_SIGN_CNT_REPORTS : Field := ⟨0xe00020, 0, 16, .ro, 0⟩

/-- SEC_SIGN_CNT.JOIN, bits [31:16], RO (security). -/
def Reg.SEC_SIGN_CNT_JOIN : Field := ⟨0xe00020, 16, 16, .ro, 0⟩

/-- SEC_DBG_REF_CNT, bits [31:0], RO (security). -/
def Reg.SEC_DBG_REF_CNT : Field := ⟨0xe00024, 0, 32, .ro, 0⟩

/-- SEC_COMPAT.CFG_COMPAT, bits [15:0], RO (security). -/
def Reg.SEC_COMPAT_CFG_COMPAT : Field := ⟨0xe00028, 0, 16, .ro, 0⟩

/-- SEC_COMPAT.SNAP_FMT, bits [31:16], RO (security). -/
def Reg.SEC_COMPAT_SNAP_FMT : Field := ⟨0xe00028, 16, 16, .ro, 0⟩

/-- SEC_FPRINT, bits [31:0], RO (security). Fused; the value here is the one of log entry 5. -/
def Reg.SEC_FPRINT (i : Nat) : Field := ⟨0xe00040 + 0x4 * i, 0, 32, .ro, 0⟩

/-- SEC_CFG_HASH, bits [31:0], RO (security). -/
def Reg.SEC_CFG_HASH (i : Nat) : Field := ⟨0xe00080 + 0x4 * i, 0, 32, .ro, 0⟩

/-- SEC_FW_HASH, bits [31:0], RO (security). -/
def Reg.SEC_FW_HASH (i : Nat) : Field := ⟨0xe000c0 + 0x4 * i, 0, 32, .ro, 0⟩

/-- GLB_RST_CAUSE.REIN_CAUSE, bits [11:8], RO (reset and boot). -/
def Reg.GLB_RST_CAUSE_REIN_CAUSE : Field := ⟨0x30, 8, 4, .ro, 0⟩

/-- GLB_RST_CAUSE.CMD, bits [4:4], RO (reset and boot). -/
def Reg.GLB_RST_CAUSE_CMD : Field := ⟨0x30, 4, 1, .ro, 0⟩

/-- GLB_RST_CAUSE.MODULE, bits [3:3], RO (reset and boot). -/
def Reg.GLB_RST_CAUSE_MODULE : Field := ⟨0x30, 3, 1, .ro, 0⟩

/-- GLB_RST_CAUSE.BROWNOUT, bits [2:2], RO (reset and boot). -/
def Reg.GLB_RST_CAUSE_BROWNOUT : Field := ⟨0x30, 2, 1, .ro, 0⟩

/-- GLB_RST_CAUSE.NRST, bits [1:1], RO (reset and boot). -/
def Reg.GLB_RST_CAUSE_NRST : Field := ⟨0x30, 1, 1, .ro, 0⟩

/-- GLB_RST_CAUSE.POR, bits [0:0], RO (reset and boot). -/
def Reg.GLB_RST_CAUSE_POR : Field := ⟨0x30, 0, 1, .ro, 1⟩

/-- GLB_BOOT.BG_VERIFY, bits [18:18], RO (reset and boot). -/
def Reg.GLB_BOOT_BG_VERIFY : Field := ⟨0x34, 18, 1, .ro, 0⟩

/-- GLB_BOOT.SPS_NONE, bits [17:17], RO (reset and boot). -/
def Reg.GLB_BOOT_SPS_NONE : Field := ⟨0x34, 17, 1, .ro, 0⟩

/-- GLB_BOOT.FAIL_CODE, bits [15:8], RO (reset and boot). -/
def Reg.GLB_BOOT_FAIL_CODE : Field := ⟨0x34, 8, 8, .ro, 0⟩

/-- GLB_BOOT.FAIL_STAGE, bits [7:4], RO (reset and boot). -/
def Reg.GLB_BOOT_FAIL_STAGE : Field := ⟨0x34, 4, 4, .ro, 0⟩

/-- GLB_BOOT.STAGE, bits [3:0], RO (reset and boot). -/
def Reg.GLB_BOOT_STAGE : Field := ⟨0x34, 0, 4, .ro, 1⟩

/-- GLB_BOOT_MS.COMMIT, bits [15:0], RO (reset and boot). -/
def Reg.GLB_BOOT_MS_COMMIT : Field := ⟨0x38, 0, 16, .ro, 0⟩

/-- GLB_BOOT_MS.CFG, bits [31:16], RO (reset and boot). -/
def Reg.GLB_BOOT_MS_CFG : Field := ⟨0x38, 16, 16, .ro, 0⟩

/-- GLB_SUPPLY.RAILS, bits [7:0], RO (reset and boot). -/
def Reg.GLB_SUPPLY_RAILS : Field := ⟨0x3c, 0, 8, .ro, 0⟩

/-- GLB_SUPPLY.VFIELD, bits [11:8], RO (reset and boot). -/
def Reg.GLB_SUPPLY_VFIELD : Field := ⟨0x3c, 8, 4, .ro, 0⟩

/-- GLB_SUPPLY.VFIELD_TP, bits [12:12], RO (reset and boot). -/
def Reg.GLB_SUPPLY_VFIELD_TP : Field := ⟨0x3c, 12, 1, .ro, 0⟩

/-- GLB_RST_CNT.MODULE, bits [15:0], RO (reset and boot). -/
def Reg.GLB_RST_CNT_MODULE : Field := ⟨0x40, 0, 16, .ro, 0⟩

/-- GLB_RST_CNT.NRST, bits [31:16], RO (reset and boot). -/
def Reg.GLB_RST_CNT_NRST : Field := ⟨0x40, 16, 16, .ro, 0⟩


/-- The register words of the identity/global registers. -/
def regRows00 : List RegRow := [
  ⟨0x0, 0x0, 1, 0x0, 1, false, false, fun _ _ => [Reg.GLB_IDENT_DEVICE, Reg.GLB_IDENT_GRADE, Reg.GLB_IDENT_STEP_LETTER, Reg.GLB_IDENT_STEP_DIGIT]⟩,
  ⟨0x4, 0x0, 1, 0x0, 1, false, false, fun _ _ => [Reg.GLB_CAPS0_SAGE_LANES, Reg.GLB_CAPS0_INTRUDERS, Reg.GLB_CAPS0_ARMS, Reg.GLB_CAPS0_AXES]⟩,
  ⟨0x8, 0x0, 1, 0x0, 1, false, false, fun _ _ => [Reg.GLB_CAPS1_JOINTS, Reg.GLB_CAPS1_SAGE_FITTED, Reg.GLB_CAPS1_TEAMS, Reg.GLB_CAPS1_CERID_PORTS]⟩]


/-- The register words of the epoch and image control registers. -/
def regRows01 : List RegRow := [
  ⟨0x100000, 0x0, 1, 0x0, 1, false, false, fun _ _ => [Reg.EPK_CFG_K]⟩,
  ⟨0x100004, 0x0, 1, 0x0, 1, true, false, fun _ _ => [Reg.EPK_DEADLINE_MARGIN_NS]⟩,
  ⟨0x100008, 0x0, 1, 0x0, 1, false, true, fun _ _ => [Reg.EPK_NOW]⟩,
  ⟨0x100010, 0x0, 1, 0x0, 1, false, true, fun _ _ => [Reg.EPK_ORIGIN]⟩,
  ⟨0x100018, 0x0, 1, 0x0, 1, false, false, fun _ _ => [Reg.EPK_STAT_RESTEP_WAIT, Reg.EPK_STAT_HELD, Reg.EPK_STAT_BAD_MARGIN, Reg.EPK_STAT_OVERRUN, Reg.EPK_STAT_RUNNING]⟩,
  ⟨0x10001c, 0x0, 1, 0x0, 1, false, false, fun _ _ => [Reg.EPK_OVR_CNT]⟩,
  ⟨0x100020, 0x0, 1, 0x0, 1, false, true, fun _ _ => [Reg.IMG_FRONT]⟩,
  ⟨0x10002c, 0x0, 1, 0x0, 1, true, false, fun _ _ => [Reg.IMG_CFG_HOLD_MAX]⟩,
  ⟨0x100030, 0x0, 1, 0x0, 1, true, false, fun _ _ => [Reg.IMG_CUT_MAX_CUT_MAX]⟩,
  ⟨0x100034, 0x0, 1, 0x0, 1, false, false, fun _ _ => [Reg.IMG_CUT_STAT_EXPIRED, Reg.IMG_CUT_STAT_SLIPPED, Reg.IMG_CUT_STAT_STATE]⟩,
  ⟨0x100038, 0x0, 1, 0x0, 1, false, false, fun _ _ => [Reg.IMG_CUT_ID]⟩,
  ⟨0x10003c, 0x0, 1, 0x0, 1, false, true, fun _ _ => [Reg.IMG_CUT_EPOCH]⟩,
  ⟨0x100044, 0x0, 1, 0x0, 1, false, false, fun _ _ => [Reg.IMG_HELD_TOTAL]⟩,
  ⟨0x100048, 0x0, 1, 0x0, 1, false, false, fun _ _ => [Reg.IMG_WR_IGN]⟩]


/-- The register words of the master coordinates and event calendar registers. -/
def regRows02 : List RegRow := [
  ⟨0x308000, 0x40, 8, 0x0, 1, false, false, fun i _ => [Reg.COORD_CFG_ENABLE i, Reg.COORD_CFG_PRED_EN i, Reg.COORD_CFG_VEL_SPAN i, Reg.COORD_CFG_HOLD i, Reg.COORD_CFG_KIND i]⟩,
  ⟨0x308004, 0x40, 8, 0x0, 1, false, false, fun i _ => [Reg.COORD_SRC_SEL i]⟩,
  ⟨0x308008, 0x40, 8, 0x0, 1, false, true, fun i _ => [Reg.COORD_SCALE i]⟩,
  ⟨0x308010, 0x40, 8, 0x0, 1, false, true, fun i _ => [Reg.COORD_MOD i]⟩,
  ⟨0x308018, 0x40, 8, 0x0, 1, false, true, fun i _ => [Reg.COORD_VAL i]⟩,
  ⟨0x308020, 0x40, 8, 0x0, 1, false, true, fun i _ => [Reg.COORD_VEL i]⟩,
  ⟨0x308028, 0x40, 8, 0x0, 1, false, false, fun i _ => [Reg.COORD_STAT_LOST_SEEN i, Reg.COORD_STAT_BAD_CFG i, Reg.COORD_STAT_PRESET i, Reg.COORD_STAT_LOST i, Reg.COORD_STAT_EXTRAP i, Reg.COORD_STAT_VALID i]⟩,
  ⟨0x309000, 0x0, 1, 0x0, 1, false, false, fun _ _ => [Reg.CAL_CTRL_RUN]⟩,
  ⟨0x309004, 0x0, 1, 0x0, 1, false, false, fun _ _ => [Reg.CAL_STAT_CONFLICT, Reg.CAL_STAT_SCHED_OVF, Reg.CAL_STAT_EDIT_REFUSED, Reg.CAL_STAT_BAD_ENABLE]⟩,
  ⟨0x309008, 0x0, 1, 0x0, 1, false, false, fun _ _ => [Reg.CAL_RETRACTED]⟩,
  ⟨0x30900c, 0x0, 1, 0x0, 1, false, false, fun _ _ => [Reg.CAL_LATE_CNT]⟩,
  ⟨0x309010, 0x0, 1, 0x0, 1, false, false, fun _ _ => [Reg.CAL_OVF_CNT]⟩,
  ⟨0x309014, 0x0, 1, 0x0, 1, false, false, fun _ _ => [Reg.CAL_CONFLICT_CNT]⟩,
  ⟨0x309018, 0x0, 1, 0x0, 1, false, false, fun _ _ => [Reg.CAL_FIRED_CNT]⟩,
  ⟨0x30901c, 0x0, 1, 0x0, 1, false, false, fun _ _ => [Reg.CAL_ENABLED]⟩]


/-- The register words of the timebase registers. -/
def regRows03 : List RegRow := [
  ⟨0x900000, 0x0, 1, 0x0, 1, false, true, fun _ _ => [Reg.TB_COUNT]⟩,
  ⟨0x900008, 0x0, 1, 0x0, 1, false, true, fun _ _ => [Reg.TB_DT]⟩,
  ⟨0x900010, 0x0, 1, 0x0, 1, false, false, fun _ _ => [Reg.TB_DT_FRAC_FRAC]⟩,
  ⟨0x900014, 0x0, 1, 0x0, 1, false, false, fun _ _ => [Reg.TB_STATE_RESTEPPED, Reg.TB_STATE_OUT_OF_BOUND, Reg.TB_STATE_RATE_CLAMP, Reg.TB_STATE_LOCKED, Reg.TB_STATE_STATE]⟩,
  ⟨0x900018, 0x0, 1, 0x0, 1, false, false, fun _ _ => [Reg.TB_RATE]⟩,
  ⟨0x90001c, 0x0, 1, 0x0, 1, false, false, fun _ _ => [Reg.TB_OFFS_ERR]⟩,
  ⟨0x900020, 0x0, 1, 0x0, 1, false, false, fun _ _ => [Reg.TB_ERR_EST]⟩,
  ⟨0x900024, 0x0, 1, 0x0, 1, true, false, fun _ _ => [Reg.TB_SERVO_LOCK_NS, Reg.TB_SERVO_LOCK_N, Reg.TB_SERVO_KI_SHIFT, Reg.TB_SERVO_KP_SHIFT]⟩,
  ⟨0x900028, 0x0, 1, 0x0, 1, true, false, fun _ _ => [Reg.TB_LIMITS_HOLDOVER_DRIFT, Reg.TB_LIMITS_UNLOCK_NS]⟩,
  ⟨0x90002c, 0x0, 1, 0x0, 1, true, false, fun _ _ => [Reg.TB_PTP_CFG_GM_SETTLE, Reg.TB_PTP_CFG_ANN_TIMEOUT, Reg.TB_PTP_CFG_LOG_PDELAY, Reg.TB_PTP_CFG_LOG_ANN, Reg.TB_PTP_CFG_LOG_SYNC, Reg.TB_PTP_CFG_NET_PREF, Reg.TB_PTP_CFG_SLAVE_ONLY, Reg.TB_PTP_CFG_DOMAIN]⟩,
  ⟨0x900030, 0x0, 1, 0x0, 1, true, false, fun _ _ => [Reg.TB_PTP_PRIO_CLOCK_ACCURACY, Reg.TB_PTP_PRIO_CLOCK_CLASS, Reg.TB_PTP_PRIO_PRIORITY2, Reg.TB_PTP_PRIO_PRIORITY1]⟩,
  ⟨0x900034, 0x0, 1, 0x0, 1, true, false, fun _ _ => [Reg.TB_GM_FLAGS_TIME_SOURCE, Reg.TB_GM_FLAGS_UTC]⟩,
  ⟨0x900038, 0x0, 1, 0x0, 1, false, true, fun _ _ => [Reg.TB_CLOCK_ID]⟩,
  ⟨0x900040, 0x0, 1, 0x0, 1, false, true, fun _ _ => [Reg.TB_GM_ID]⟩,
  ⟨0x900048, 0x0, 1, 0x0, 1, true, true, fun _ _ => [Reg.TB_SEED_FLOOR]⟩,
  ⟨0x900050, 0x0, 1, 0x0, 1, false, false, fun _ _ => [Reg.TB_RESTEP_CNT]⟩,
  ⟨0x900054, 0x0, 1, 0x0, 1, false, false, fun _ _ => [Reg.TB_PTP_IGN]⟩,
  ⟨0x900058, 0x0, 1, 0x0, 1, false, false, fun _ _ => [Reg.TB_PTP_DUP]⟩,
  ⟨0x90005c, 0x0, 1, 0x0, 1, false, false, fun _ _ => [Reg.TB_TLV_IGN]⟩,
  ⟨0x900060, 0x0, 1, 0x0, 1, true, false, fun _ _ => [Reg.TB_PATH_ERR]⟩,
  ⟨0x900100, 0x20, 4, 0x0, 1, true, false, fun i _ => [Reg.PORT_LAT_TX_LAT i, Reg.PORT_LAT_RX_LAT i]⟩,
  ⟨0x900104, 0x20, 4, 0x0, 1, true, false, fun i _ => [Reg.PORT_ASYM i]⟩,
  ⟨0x900108, 0x20, 4, 0x0, 1, false, false, fun i _ => [Reg.PORT_LINK_DELAY i]⟩,
  ⟨0x90010c, 0x20, 4, 0x0, 1, true, false, fun i _ => [Reg.TB_PDELAY_MAX i]⟩,
  ⟨0x900110, 0x20, 4, 0x0, 1, false, false, fun i _ => [Reg.PORT_STAT_DELAY_HIGH i, Reg.PORT_STAT_AS_CAPABLE i, Reg.PORT_STAT_ROLE i]⟩]


/-- The register words of the loop engine registers. -/
def regRows04 : List RegRow := [
  ⟨0x200000, 0x0, 1, 0x0, 1, true, false, fun _ _ => [Reg.LOOP_CTRL_RUN]⟩,
  ⟨0x200004, 0x0, 1, 0x0, 1, false, false, fun _ _ => [Reg.LOOP_STAT_LOCAL_LATE, Reg.LOOP_STAT_ECC_CORR, Reg.LOOP_STAT_FAULT, Reg.LOOP_STAT_SWAP_DONE, Reg.LOOP_STAT_SWAP_PENDING, Reg.LOOP_STAT_STATE_WR, Reg.LOOP_STAT_ACTIVE_WR, Reg.LOOP_STAT_OVERRUN, Reg.LOOP_STAT_RUNNING]⟩,
  ⟨0x200008, 0x0, 1, 0x0, 1, true, false, fun _ _ => [Reg.LOOP_LOCAL_READY_NS]⟩,
  ⟨0x20000c, 0x0, 1, 0x0, 1, false, false, fun _ _ => [Reg.LOOP_BUSY_PASSES, Reg.LOOP_BUSY_END_NS]⟩,
  ⟨0x200010, 0x0, 1, 0x0, 1, false, false, fun _ _ => [Reg.LOOP_BUSY_MAX_END_MAX]⟩,
  ⟨0x200014, 0x0, 1, 0x0, 1, false, false, fun _ _ => [Reg.LOOP_OVR_CNT]⟩,
  ⟨0x200018, 0x0, 1, 0x0, 1, false, false, fun _ _ => [Reg.LOOP_WR_IGN]⟩,
  ⟨0x20001c, 0x0, 1, 0x0, 1, false, false, fun _ _ => [Reg.LOOP_ECC_CNT_CORR, Reg.LOOP_ECC_CNT_UNCORR]⟩,
  ⟨0x200020, 0x0, 1, 0x0, 1, false, false, fun _ _ => [Reg.LOOP_PUB_BASE_ID, Reg.LOOP_PUB_AXES]⟩,
  ⟨0x200024, 0x0, 1, 0x0, 1, false, true, fun _ _ => [Reg.LOOP_SWAP_EPOCH]⟩,
  ⟨0x201000, 0x10, 128, 0x0, 1, false, false, fun i _ => [Reg.AXIS_STAT_FE_CNT i, Reg.AXIS_STAT_ENABLED i, Reg.AXIS_STAT_BANK i, Reg.AXIS_STAT_EVALUATED i, Reg.AXIS_STAT_FAULT i, Reg.AXIS_STAT_MISSED i, Reg.AXIS_STAT_SAT i, Reg.AXIS_STAT_CONSTRAINED i, Reg.AXIS_STAT_WINNER i]⟩,
  ⟨0x201004, 0x10, 128, 0x0, 1, false, false, fun i _ => [Reg.AXIS_OUT i]⟩,
  ⟨0x201008, 0x10, 128, 0x0, 1, false, false, fun i _ => [Reg.AXIS_FE i]⟩,
  ⟨0x20100c, 0x10, 128, 0x0, 1, false, false, fun i _ => [Reg.AXIS_CNT_MISS_RUN i, Reg.AXIS_CNT_SWITCH_CNT i]⟩]


/-- The register words of the trace control registers. -/
def regRows05 : List RegRow := [
  ⟨0xf00000, 0x0, 1, 0x0, 1, false, false, fun _ _ => [Reg.TRC_CTRL_TRIG, Reg.TRC_CTRL_STOP, Reg.TRC_CTRL_ARM]⟩,
  ⟨0xf00004, 0x0, 1, 0x0, 1, false, false, fun _ _ => [Reg.TRC_STAT_ARM_BAD, Reg.TRC_STAT_CFG_BAD, Reg.TRC_STAT_LEN_BUSY, Reg.TRC_STAT_STATE]⟩,
  ⟨0xf00008, 0x0, 1, 0x0, 1, false, false, fun _ _ => [Reg.TRC_FMT_NCH, Reg.TRC_FMT_DIV]⟩,
  ⟨0xf0000c, 0x0, 1, 0x0, 1, false, false, fun _ _ => [Reg.TRC_BASE]⟩,
  ⟨0xf00010, 0x0, 1, 0x0, 1, false, false, fun _ _ => [Reg.TRC_LEN]⟩,
  ⟨0xf00014, 0x0, 1, 0x0, 1, false, false, fun _ _ => [Reg.TRC_PRE]⟩,
  ⟨0xf00018, 0x0, 1, 0x0, 1, false, false, fun _ _ => [Reg.TRC_POST]⟩,
  ⟨0xf0001c, 0x0, 1, 0x0, 1, false, false, fun _ _ => [Reg.TRC_TRIG_SRC, Reg.TRC_TRIG_DIR, Reg.TRC_TRIG_CH, Reg.TRC_TRIG_INDEX]⟩,
  ⟨0xf00020, 0x0, 1, 0x0, 1, false, false, fun _ _ => [Reg.TRC_TRIG_X]⟩,
  ⟨0xf00024, 0x0, 1, 0x0, 1, false, false, fun _ _ => [Reg.TRC_WR_PTR]⟩,
  ⟨0xf00028, 0x0, 1, 0x0, 1, false, false, fun _ _ => [Reg.TRC_MARK]⟩,
  ⟨0xf0002c, 0x0, 1, 0x0, 1, false, false, fun _ _ => [Reg.TRC_TRIG_ROW]⟩,
  ⟨0xf00030, 0x0, 1, 0x0, 1, false, false, fun _ _ => [Reg.TRC_PRE_TRUNC]⟩,
  ⟨0xf00034, 0x0, 1, 0x0, 1, false, false, fun _ _ => [Reg.TRC_VALID_ROWS]⟩,
  ⟨0xf00038, 0x0, 1, 0x0, 1, false, true, fun _ _ => [Reg.TRC_TRIG_EPOCH]⟩,
  ⟨0xf00040, 0x0, 1, 0x0, 1, false, false, fun _ _ => [Reg.TRC_WR_IGN]⟩,
  ⟨0xf00044, 0x0, 1, 0x0, 1, false, false, fun _ _ => [Reg.TRC_ECC_CNT_CORR, Reg.TRC_ECC_CNT_UNCORR]⟩,
  ⟨0xf00100, 0x4, 16, 0x0, 1, false, false, fun i _ => [Reg.TRC_CH_SRC i, Reg.TRC_CH_SEL i]⟩,
  ⟨0xf00200, 0x20, 4, 0x0, 1, true, false, fun i _ => [Reg.INJ_CTRL_WAVE i]⟩,
  ⟨0xf00204, 0x20, 4, 0x0, 1, true, false, fun i _ => [Reg.INJ_NODE_AXIS i, Reg.INJ_NODE_CAND i, Reg.INJ_NODE_POINT i]⟩,
  ⟨0xf00208, 0x20, 4, 0x0, 1, true, false, fun i _ => [Reg.INJ_AMP i]⟩,
  ⟨0xf0020c, 0x20, 4, 0x0, 1, true, false, fun i _ => [Reg.INJ_P0 i]⟩,
  ⟨0xf00210, 0x20, 4, 0x0, 1, true, false, fun i _ => [Reg.INJ_P1 i]⟩,
  ⟨0xf00214, 0x20, 4, 0x0, 1, true, false, fun i _ => [Reg.INJ_COUNT i]⟩,
  ⟨0xf00218, 0x20, 4, 0x0, 1, true, false, fun i _ => [Reg.INJ_STAT_ACTIVE i, Reg.INJ_STAT_ABORTED i]⟩,
  ⟨0xf0021c, 0x20, 4, 0x0, 1, true, false, fun i _ => [Reg.INJ_DONE i]⟩]


/-- The register words of the profile generator registers. -/
def regRows06 : List RegRow := [
  ⟨0x300000, 0x0, 1, 0x0, 1, true, false, fun _ _ => [Reg.PRF_CTRL_RUN]⟩,
  ⟨0x300004, 0x0, 1, 0x0, 1, false, false, fun _ _ => [Reg.PRF_STAT_PARAM_BAD, Reg.PRF_STAT_OVERRUN, Reg.PRF_STAT_RUNNING]⟩,
  ⟨0x300008, 0x0, 1, 0x0, 1, false, false, fun _ _ => [Reg.PRF_BUSY_REPLANS, Reg.PRF_BUSY_END_NS]⟩,
  ⟨0x30000c, 0x0, 1, 0x0, 1, false, false, fun _ _ => [Reg.PRF_WDRAW_CNT]⟩,
  ⟨0x301000, 0x40, 128, 0x0, 1, false, false, fun i _ => [Reg.AX_PRF_STAT_DONE i, Reg.AX_PRF_STAT_REVERSAL_PENDING i, Reg.AX_PRF_STAT_BLENDING i, Reg.AX_PRF_STAT_CAPPED i, Reg.AX_PRF_STAT_STOP_KIND i, Reg.AX_PRF_STAT_OUTSIDE i, Reg.AX_PRF_STAT_PLAN_MISMATCH i, Reg.AX_PRF_STAT_COORD_LOST i, Reg.AX_PRF_STAT_CAP_BREAK i, Reg.AX_PRF_STAT_VLIM_CLAMP i, Reg.AX_PRF_STAT_VLIM_HIT i, Reg.AX_PRF_STAT_TARGET_OVERRUN i, Reg.AX_PRF_STAT_DECEL_RAISED i, Reg.AX_PRF_STAT_MODE i]⟩,
  ⟨0x301004, 0x40, 128, 0x0, 1, false, false, fun i _ => [Reg.AX_PRF_CNT_WDRAW i, Reg.AX_PRF_CNT_REPLAN i]⟩,
  ⟨0x301008, 0x40, 128, 0x0, 1, false, true, fun i _ => [Reg.AX_SP i]⟩,
  ⟨0x301010, 0x40, 128, 0x0, 1, false, true, fun i _ => [Reg.AX_VEL i]⟩,
  ⟨0x301018, 0x40, 128, 0x0, 1, false, true, fun i _ => [Reg.AX_ACC i]⟩,
  ⟨0x301020, 0x40, 128, 0x0, 1, false, true, fun i _ => [Reg.AX_TARGET i]⟩,
  ⟨0x301028, 0x40, 128, 0x0, 1, false, false, fun i _ => [Reg.AX_CAP i]⟩,
  ⟨0x30102c, 0x40, 128, 0x0, 1, false, false, fun i _ => [Reg.AX_GEAR_ENTRY i, Reg.AX_GEAR_COORD i]⟩,
  ⟨0x301030, 0x40, 128, 0x0, 1, false, true, fun i _ => [Reg.AX_DECEL_EFF i]⟩]


/-- The register words of the power teams, ADC, encoders registers. -/
def regRows07 : List RegRow := [
  ⟨0x400000, 0x0, 1, 0x0, 1, false, false, fun _ _ => [Reg.TEAM_TRIPPED]⟩,
  ⟨0x400004, 0x0, 1, 0x0, 1, false, false, fun _ _ => [Reg.TEAM_STO]⟩,
  ⟨0x400008, 0x0, 1, 0x0, 1, true, false, fun _ _ => [Reg.GTRIP_CFG]⟩,
  ⟨0x400010, 0x4, 4, 0x0, 1, true, false, fun i _ => [Reg.GTRIP_MASK i]⟩,
  ⟨0x401000, 0x100, 24, 0x0, 1, true, false, fun i _ => [Reg.TEAM_CFG_HOLD_EPOCHS i, Reg.TEAM_CFG_PDIV i, Reg.TEAM_CFG_SAFE_STATE i, Reg.TEAM_CFG_OPEN_WIND i, Reg.TEAM_CFG_CENTRE i, Reg.TEAM_CFG_MODE i]⟩,
  ⟨0x401004, 0x100, 24, 0x0, 1, true, false, fun i _ => [Reg.TEAM_DT_DT i, Reg.TEAM_DT_MIN_PULSE i]⟩,
  ⟨0x401008, 0x100, 24, 0x0, 1, true, false, fun i _ => [Reg.TEAM_POL i]⟩,
  ⟨0x40100c, 0x100, 24, 0x0, 1, true, false, fun i _ => [Reg.TEAM_DEM_SRC i]⟩,
  ⟨0x401010, 0x100, 24, 0x4, 4, true, false, fun i j => [Reg.DEM_SIG i j]⟩,
  ⟨0x401020, 0x100, 24, 0x0, 1, true, false, fun i _ => [Reg.TEAM_TRIP_CFG_TRIP_QUIET i, Reg.TEAM_TRIP_CFG_PIN_EN i, Reg.TEAM_TRIP_CFG_PIN_ACTIVE_LOW i, Reg.TEAM_TRIP_CFG_EN_ON_TRIP i]⟩,
  ⟨0x401050, 0x100, 24, 0x0, 1, true, false, fun i _ => [Reg.TEAM_COMM_SRC i, Reg.TEAM_COMM_ENC i, Reg.TEAM_COMM_HALL_FILT i]⟩,
  ⟨0x401054, 0x100, 24, 0x0, 1, true, true, fun i _ => [Reg.TEAM_COMM_TAB i]⟩,
  ⟨0x40105c, 0x100, 24, 0x0, 1, true, false, fun i _ => [Reg.TEAM_COMM_SIG i]⟩,
  ⟨0x401024, 0x100, 24, 0x0, 1, true, false, fun i _ => [Reg.TEAM_CTRL_FORCE_TRIP i, Reg.TEAM_CTRL_TRIP_CLEAR i]⟩,
  ⟨0x401028, 0x100, 24, 0x0, 1, false, false, fun i _ => [Reg.TEAM_STAT_OUT_STATE i, Reg.TEAM_STAT_TRIP_SRC i, Reg.TEAM_STAT_FORCED i, Reg.TEAM_STAT_CFG_BUSY i, Reg.TEAM_STAT_STO_SEEN i, Reg.TEAM_STAT_DROP i, Reg.TEAM_STAT_CLEAR_REFUSED i, Reg.TEAM_STAT_DEMAND_LOST i, Reg.TEAM_STAT_HOLDING i, Reg.TEAM_STAT_STO i, Reg.TEAM_STAT_TRIPPED i, Reg.TEAM_STAT_EN_PIN i, Reg.TEAM_STAT_ENABLED i]⟩,
  ⟨0x401030, 0x100, 24, 0x4, 4, false, false, fun i j => [Reg.TEAM_TON i j]⟩,
  ⟨0x401040, 0x100, 24, 0x4, 4, false, false, fun i j => [Reg.TEAM_ADC_CMP_TICK i j, Reg.TEAM_ADC_CMP_INPUT i j, Reg.TEAM_ADC_CMP_EVERY i j, Reg.TEAM_ADC_CMP_ENABLE i j]⟩,
  ⟨0x401060, 0x100, 24, 0x0, 1, false, false, fun i _ => [Reg.TEAM_DROP_CNT i]⟩,
  ⟨0x401064, 0x100, 24, 0x0, 1, false, false, fun i _ => [Reg.TEAM_TRIP_CNT i]⟩,
  ⟨0x401068, 0x100, 24, 0x0, 1, false, false, fun i _ => [Reg.TEAM_CLR_REF_CNT i]⟩,
  ⟨0x40106c, 0x100, 24, 0x0, 1, false, false, fun i _ => [Reg.TEAM_HALL_ERR_CNT i]⟩,
  ⟨0x404000, 0x20, 48, 0x0, 1, true, false, fun i _ => [Reg.ADC_CFG_ZERO i, Reg.ADC_CFG_GAIN i]⟩,
  ⟨0x404004, 0x20, 48, 0x0, 1, true, false, fun i _ => [Reg.ADC_LIM_LO i, Reg.ADC_LIM_HI i]⟩,
  ⟨0x404008, 0x20, 48, 0x0, 1, true, false, fun i _ => [Reg.ADC_LIM_MASK_TEAMS i, Reg.ADC_LIM_MASK_LIM_EN i]⟩,
  ⟨0x40400c, 0x20, 48, 0x0, 1, false, false, fun i _ => [Reg.ADC_LAST_SAMPLE i, Reg.ADC_LAST_RAW i]⟩,
  ⟨0x404010, 0x20, 48, 0x0, 1, false, false, fun i _ => [Reg.ADC_EPOCH_SAMPLE i, Reg.ADC_EPOCH_VALID i, Reg.ADC_EPOCH_SHIFTED i]⟩,
  ⟨0x405000, 0x10, 12, 0x0, 1, false, false, fun i _ => [Reg.ADC_CONV_STAT_TRIG_DROP i, Reg.ADC_CONV_STAT_SHIFTED i]⟩,
  ⟨0x406000, 0x40, 24, 0x0, 1, true, false, fun i _ => [Reg.ENC_CFG_MODE i, Reg.ENC_CFG_FILT i, Reg.ENC_CFG_BITS i, Reg.ENC_CFG_GRAY i, Reg.ENC_CFG_IB i]⟩,
  ⟨0x406004, 0x40, 24, 0x0, 1, true, false, fun i _ => [Reg.ENC_SSI i]⟩,
  ⟨0x406008, 0x40, 24, 0x0, 1, true, false, fun i _ => [Reg.ENC_SINCOS_SIN_IN i, Reg.ENC_SINCOS_COS_IN i, Reg.ENC_SINCOS_AMP_LO i, Reg.ENC_SINCOS_AMP_HI i]⟩,
  ⟨0x40600c, 0x40, 24, 0x0, 1, false, false, fun i _ => [Reg.ENC_COUNT i]⟩,
  ⟨0x406010, 0x40, 24, 0x0, 1, false, false, fun i _ => [Reg.ENC_INDEX i]⟩,
  ⟨0x406014, 0x40, 24, 0x0, 1, false, false, fun i _ => [Reg.ENC_STAT_FAULT i, Reg.ENC_STAT_FAULT_SEEN i, Reg.ENC_STAT_INDEX_SEEN i]⟩]


/-- The register words of the stepper teams registers. -/
def regRows08 : List RegRow := [
  ⟨0x401080, 0x100, 24, 0x0, 1, true, false, fun i _ => [Reg.STEP_CFG_TSTILL i, Reg.STEP_CFG_SW_DWELL i, Reg.STEP_CFG_DECAY i, Reg.STEP_CFG_MODE_SEL i, Reg.STEP_CFG_EPC_LOG i]⟩,
  ⟨0x401084, 0x100, 24, 0x0, 1, true, false, fun i _ => [Reg.STEP_CUR_IRUN i, Reg.STEP_CUR_IHOLD i]⟩,
  ⟨0x401088, 0x100, 24, 0x0, 1, true, false, fun i _ => [Reg.STEP_SW_V_UP i, Reg.STEP_SW_V_DN i]⟩,
  ⟨0x40108c, 0x100, 24, 0x0, 1, true, false, fun i _ => [Reg.STEP_CHOP_BLANK i, Reg.STEP_CHOP_FAST_T i]⟩,
  ⟨0x401090, 0x100, 24, 0x0, 1, true, false, fun i _ => [Reg.STEP_QUIET_QGAIN i, Reg.STEP_QUIET_QVC i]⟩,
  ⟨0x401094, 0x100, 24, 0x0, 1, true, true, fun i _ => [Reg.STEP_ZERO i]⟩,
  ⟨0x40109c, 0x100, 24, 0x0, 1, true, false, fun i _ => [Reg.STEP_EST_W_EST i, Reg.STEP_EST_LA_FILT i, Reg.STEP_EST_STALL_N i, Reg.STEP_EST_STALL_REACT i]⟩,
  ⟨0x4010a0, 0x100, 24, 0x0, 1, true, false, fun i _ => [Reg.STEP_STALL_STALL_ANG i, Reg.STEP_STALL_E_RATIO i]⟩,
  ⟨0x4010a4, 0x100, 24, 0x0, 1, true, false, fun i _ => [Reg.STEP_R i]⟩,
  ⟨0x4010a8, 0x100, 24, 0x0, 1, true, false, fun i _ => [Reg.STEP_L i]⟩,
  ⟨0x4010ac, 0x100, 24, 0x0, 1, true, false, fun i _ => [Reg.STEP_KE i]⟩,
  ⟨0x4010b0, 0x100, 24, 0x0, 1, true, false, fun i _ => [Reg.STEP_IFS i]⟩,
  ⟨0x4010b4, 0x100, 24, 0x0, 1, true, false, fun i _ => [Reg.STEP_VFS i]⟩,
  ⟨0x4010b8, 0x100, 24, 0x0, 1, true, false, fun i _ => [Reg.STEP_VBUS i]⟩,
  ⟨0x4010bc, 0x100, 24, 0x0, 1, false, false, fun i _ => [Reg.STEP_STAT_ADDR i, Reg.STEP_STAT_CHOP_MAX i, Reg.STEP_STAT_EST_MISS i, Reg.STEP_STAT_STALL i, Reg.STEP_STAT_EST_VALID i, Reg.STEP_STAT_STILL i, Reg.STEP_STAT_STRONG i]⟩,
  ⟨0x4010c0, 0x100, 24, 0x0, 1, false, false, fun i _ => [Reg.STEP_ANGLE i]⟩,
  ⟨0x4010c4, 0x100, 24, 0x0, 1, false, false, fun i _ => [Reg.STEP_SPEED i]⟩,
  ⟨0x4010c8, 0x100, 24, 0x0, 1, false, true, fun i _ => [Reg.STEP_POS i]⟩,
  ⟨0x4010d0, 0x100, 24, 0x0, 1, false, false, fun i _ => [Reg.STEP_CNT_SWITCH_CNT i, Reg.STEP_CNT_STALL_CNT i]⟩,
  ⟨0x4010d4, 0x100, 24, 0x0, 1, false, false, fun i _ => [Reg.STEP_EMF i]⟩,
  ⟨0x4010d8, 0x100, 24, 0x0, 1, false, false, fun i _ => [Reg.STEP_CHOP_MAX_CNT i]⟩]


/-- The register words of the Paddock monitor registers. -/
def regRows09 : List RegRow := [
  ⟨0x500000, 0x0, 1, 0x0, 1, false, false, fun _ _ => [Reg.PDK_STAT_SENS_STALE, Reg.PDK_STAT_OVERFLOW, Reg.PDK_STAT_CYCLE_LATE, Reg.PDK_STAT_CODED_FAULT, Reg.PDK_STAT_STATE]⟩,
  ⟨0x500004, 0x0, 1, 0x0, 1, false, false, fun _ _ => [Reg.PDK_CFG_INTR_MAX, Reg.PDK_CFG_ARMS, Reg.PDK_CFG_CAPSULES, Reg.PDK_CFG_PADDOCKS]⟩,
  ⟨0x500008, 0x0, 1, 0x0, 1, false, false, fun _ _ => [Reg.PDK_TCALC]⟩,
  ⟨0x50000c, 0x0, 1, 0x0, 1, false, false, fun _ _ => [Reg.PDK_TCALC_MAX]⟩,
  ⟨0x500010, 0x0, 1, 0x0, 1, false, true, fun _ _ => [Reg.PDK_CYCLE]⟩,
  ⟨0x500018, 0x0, 1, 0x0, 1, false, false, fun _ _ => [Reg.PDK_PSTOP]⟩,
  ⟨0x50001c, 0x0, 1, 0x0, 1, false, false, fun _ _ => [Reg.PDK_FAULT_CNT]⟩,
  ⟨0x500020, 0x0, 1, 0x0, 1, false, false, fun _ _ => [Reg.PDK_INTR_CNT_NOW, Reg.PDK_INTR_CNT_MAX]⟩,
  ⟨0x500024, 0x0, 1, 0x0, 1, false, false, fun _ _ => [Reg.PDK_PUB]⟩,
  ⟨0x500028, 0x0, 1, 0x0, 1, false, false, fun _ _ => [Reg.PDK_PAIRS]⟩,
  ⟨0x500100, 0x20, 16, 0x0, 1, false, false, fun i _ => [Reg.ARM_STAT_REL_PENDING i, Reg.ARM_STAT_MOVING i, Reg.ARM_STAT_PSTOP i, Reg.ARM_STAT_CAUSE i, Reg.ARM_STAT_NEAR i]⟩,
  ⟨0x500104, 0x20, 16, 0x0, 1, false, false, fun i _ => [Reg.ARM_CAP i]⟩,
  ⟨0x500108, 0x20, 16, 0x0, 1, false, false, fun i _ => [Reg.ARM_VMEAS i]⟩,
  ⟨0x50010c, 0x20, 16, 0x0, 1, false, false, fun i _ => [Reg.ARM_DMIN i]⟩,
  ⟨0x500110, 0x20, 16, 0x0, 1, false, false, fun i _ => [Reg.ARM_PDK i]⟩,
  ⟨0x500400, 0x4, 32, 0x0, 1, false, false, fun i _ => [Reg.PDK_PADDOCK_STAT_OCC i, Reg.PDK_PADDOCK_STAT_INTR i]⟩,
  ⟨0x500500, 0x4, 16, 0x0, 1, false, false, fun i _ => [Reg.PDK_SENS_STAT_AGE i, Reg.PDK_SENS_STAT_COUNT i, Reg.PDK_SENS_STAT_STALE i, Reg.PDK_SENS_STAT_FAULT i]⟩]


/-- The register words of the Sage registers. -/
def regRows10 : List RegRow := [
  ⟨0x600000, 0x0, 1, 0x0, 1, true, false, fun _ _ => [Reg.SAGE_CTRL_COLD_NEXT, Reg.SAGE_CTRL_RUN]⟩,
  ⟨0x600004, 0x0, 1, 0x0, 1, false, false, fun _ _ => [Reg.SAGE_STAT_PARAM_BAD, Reg.SAGE_STAT_MEM_ERR, Reg.SAGE_STAT_BAD_DATA, Reg.SAGE_STAT_COMMIT_LATE, Reg.SAGE_STAT_DELTA_OVF, Reg.SAGE_STAT_DELTA_STALE, Reg.SAGE_STAT_WARM_REJECTED, Reg.SAGE_STAT_SINGULAR, Reg.SAGE_STAT_MISS, Reg.SAGE_STAT_SOLVING, Reg.SAGE_STAT_ANALYSING, Reg.SAGE_STAT_ACTIVE, Reg.SAGE_STAT_RUNNING]⟩,
  ⟨0x600008, 0x0, 1, 0x0, 1, false, false, fun _ _ => [Reg.SAGE_CFG_MARGIN_US, Reg.SAGE_CFG_KC]⟩,
  ⟨0x60000c, 0x0, 1, 0x0, 1, true, false, fun _ _ => [Reg.SAGE_ITER_SHIFT_MAX, Reg.SAGE_ITER_ITER_MAX]⟩,
  ⟨0x600010, 0x0, 1, 0x0, 1, true, true, fun _ _ => [Reg.SAGE_EPS_P]⟩,
  ⟨0x600018, 0x0, 1, 0x0, 1, true, true, fun _ _ => [Reg.SAGE_EPS_D]⟩,
  ⟨0x600020, 0x0, 1, 0x0, 1, true, true, fun _ _ => [Reg.SAGE_EPS_G]⟩,
  ⟨0x600028, 0x0, 1, 0x0, 1, true, true, fun _ _ => [Reg.SAGE_PIVOT_TOL]⟩,
  ⟨0x600030, 0x0, 1, 0x0, 1, true, true, fun _ _ => [Reg.SAGE_RHO]⟩,
  ⟨0x600038, 0x0, 1, 0x0, 1, true, true, fun _ _ => [Reg.SAGE_DELTA]⟩,
  ⟨0x600040, 0x0, 1, 0x0, 1, true, true, fun _ _ => [Reg.SAGE_WARM_PUSH]⟩,
  ⟨0x600048, 0x0, 1, 0x0, 1, false, false, fun _ _ => [Reg.SAGE_RES_LANES, Reg.SAGE_RES_BLOCK, Reg.SAGE_RES_ITERS, Reg.SAGE_RES_WARM, Reg.SAGE_RES_OVERFLOW, Reg.SAGE_RES_INERTIA, Reg.SAGE_RES_SMALL_PIVOT, Reg.SAGE_RES_CODE]⟩,
  ⟨0x60004c, 0x0, 1, 0x0, 1, false, true, fun _ _ => [Reg.SAGE_CYCLE]⟩,
  ⟨0x600054, 0x0, 1, 0x0, 1, false, true, fun _ _ => [Reg.SAGE_NAN]⟩,
  ⟨0x60005c, 0x0, 1, 0x0, 1, false, false, fun _ _ => [Reg.SAGE_ACTIVE_ID]⟩,
  ⟨0x600060, 0x0, 1, 0x0, 1, false, false, fun _ _ => [Reg.SAGE_STAGED_ID]⟩,
  ⟨0x600064, 0x0, 1, 0x0, 1, false, false, fun _ _ => [Reg.SAGE_STAGED_STAT_STATE, Reg.SAGE_STAGED_STAT_COMMIT_PENDING, Reg.SAGE_STAGED_STAT_REASON]⟩,
  ⟨0x600068, 0x0, 1, 0x0, 1, false, true, fun _ _ => [Reg.SAGE_COMMIT_CYCLE]⟩,
  ⟨0x600070, 0x0, 1, 0x0, 1, false, false, fun _ _ => [Reg.SAGE_ITER_NS]⟩,
  ⟨0x600074, 0x0, 1, 0x0, 1, false, false, fun _ _ => [Reg.SAGE_SOLVE_NS]⟩,
  ⟨0x600078, 0x0, 1, 0x0, 1, false, false, fun _ _ => [Reg.SAGE_SOLVE_MAX]⟩,
  ⟨0x60007c, 0x0, 1, 0x0, 1, false, false, fun _ _ => [Reg.SAGE_MISS_CNT]⟩,
  ⟨0x600080, 0x0, 1, 0x0, 1, false, false, fun _ _ => [Reg.SAGE_SING_CNT]⟩,
  ⟨0x600084, 0x0, 1, 0x0, 1, false, false, fun _ _ => [Reg.SAGE_WARM_REJ_CNT]⟩,
  ⟨0x600088, 0x0, 1, 0x0, 1, false, false, fun _ _ => [Reg.SAGE_DELTA_STALE_CNT]⟩,
  ⟨0x60008c, 0x0, 1, 0x0, 1, false, false, fun _ _ => [Reg.SAGE_DELTA_OVF_CNT]⟩,
  ⟨0x600090, 0x0, 1, 0x0, 1, false, false, fun _ _ => [Reg.SAGE_SHIFT_RUN]⟩,
  ⟨0x600094, 0x0, 1, 0x0, 1, false, false, fun _ _ => [Reg.SAGE_SWM_BASE, Reg.SAGE_SWM_SIZE]⟩,
  ⟨0x600098, 0x0, 1, 0x0, 1, false, false, fun _ _ => [Reg.SAGE_PUB]⟩,
  ⟨0x60009c, 0x0, 1, 0x0, 1, false, false, fun _ _ => [Reg.SAGE_DELTA_PEND]⟩]


/-- The register words of the Cerid registers. -/
def regRows11 : List RegRow := [
  ⟨0x700000, 0x0, 1, 0x0, 1, true, false, fun _ _ => [Reg.CRD_CFG_ETHERTYPE]⟩,
  ⟨0x700004, 0x0, 1, 0x0, 1, false, false, fun _ _ => [Reg.CRD_STAT_CFG_BUSY, Reg.CRD_STAT_CLOSED, Reg.CRD_STAT_BREAK, Reg.CRD_STAT_RUNNING]⟩,
  ⟨0x701000, 0x100, 4, 0x0, 1, true, false, fun i _ => [Reg.CRD_PORT_CFG_NODES i, Reg.CRD_PORT_CFG_HOLD i, Reg.CRD_PORT_CFG_CLOSE_EN i, Reg.CRD_PORT_CFG_PAIRED i, Reg.CRD_PORT_CFG_SPEED i]⟩,
  ⟨0x701004, 0x100, 4, 0x0, 1, true, false, fun i _ => [Reg.CRD_LEAD i]⟩,
  ⟨0x701008, 0x100, 4, 0x0, 1, true, false, fun i _ => [Reg.CRD_APPLY i]⟩,
  ⟨0x70100c, 0x100, 4, 0x0, 1, true, false, fun i _ => [Reg.CRD_PORT_LAT_RX_LAT i, Reg.CRD_PORT_LAT_TX_LAT i]⟩,
  ⟨0x701010, 0x100, 4, 0x0, 1, false, false, fun i _ => [Reg.CRD_PORT_STAT_FAIL i, Reg.CRD_PORT_STAT_FCS_ERR i, Reg.CRD_PORT_STAT_LOST i, Reg.CRD_PORT_STAT_HOP i, Reg.CRD_PORT_STAT_TURN_POS i, Reg.CRD_PORT_STAT_MASTER i, Reg.CRD_PORT_STAT_CLOSED i, Reg.CRD_PORT_STAT_BREAK i, Reg.CRD_PORT_STAT_LINK i, Reg.CRD_PORT_STAT_STATE i]⟩,
  ⟨0x701014, 0x100, 4, 0x0, 1, false, false, fun i _ => [Reg.CRD_RET_NS i]⟩,
  ⟨0x701018, 0x100, 4, 0x0, 1, false, false, fun i _ => [Reg.CRD_RET_MAX i]⟩,
  ⟨0x70101c, 0x100, 4, 0x0, 1, false, false, fun i _ => [Reg.CRD_RT0 i]⟩,
  ⟨0x701020, 0x100, 4, 0x0, 1, false, false, fun i _ => [Reg.CRD_LOST_CNT i]⟩,
  ⟨0x701024, 0x100, 4, 0x0, 1, false, false, fun i _ => [Reg.CRD_FCS_CNT i]⟩,
  ⟨0x701028, 0x100, 4, 0x0, 1, false, false, fun i _ => [Reg.CRD_BREAK_CNT i]⟩,
  ⟨0x70102c, 0x100, 4, 0x0, 1, false, false, fun i _ => [Reg.CRD_TALLY_CNT i]⟩,
  ⟨0x701030, 0x100, 4, 0x0, 1, false, false, fun i _ => [Reg.CRD_TIMED_OVF_CNT i]⟩,
  ⟨0x701034, 0x100, 4, 0x0, 1, false, false, fun i _ => [Reg.CRD_FAR_CNT i]⟩,
  ⟨0x720000, 0x400, 4, 0x4, 256, false, false, fun i j => [Reg.CRD_SLOT_STAT_FAR i j, Reg.CRD_SLOT_STAT_EMPTY i j, Reg.CRD_SLOT_STAT_TALLY_ERR i j, Reg.CRD_SLOT_STAT_EMPTY_CNT i j]⟩]


/-- The register words of the Tilbor registers. -/
def regRows12 : List RegRow := [
  ⟨0x800000, 0x0, 1, 0x0, 1, true, false, fun _ _ => [Reg.TLB_CFG_VID, Reg.TLB_CFG_PCP, Reg.TLB_CFG_ETHERTYPE]⟩,
  ⟨0x800004, 0x0, 1, 0x0, 1, false, false, fun _ _ => [Reg.TLB_STAT_NET_UP, Reg.TLB_STAT_CFG_BUSY, Reg.TLB_STAT_TX_ACTIVE, Reg.TLB_STAT_MUTE, Reg.TLB_STAT_STATE]⟩,
  ⟨0x800008, 0x0, 1, 0x0, 1, false, false, fun _ _ => [Reg.TLB_DOMAIN_KD, Reg.TLB_DOMAIN_SELF]⟩,
  ⟨0x80000c, 0x0, 1, 0x0, 1, false, false, fun _ _ => [Reg.TLB_GUARD_GUARD, Reg.TLB_GUARD_JOIN_CYCLES]⟩,
  ⟨0x800010, 0x0, 1, 0x0, 1, false, true, fun _ _ => [Reg.TLB_DCYCLE]⟩,
  ⟨0x800018, 0x0, 1, 0x0, 1, false, false, fun _ _ => [Reg.TLB_MUTE_CNT]⟩,
  ⟨0x80001c, 0x0, 1, 0x0, 1, false, false, fun _ _ => [Reg.TLB_WAIT_DROP_CNT]⟩,
  ⟨0x800020, 0x0, 1, 0x0, 1, false, false, fun _ _ => [Reg.TLB_INCOMPLETE_CNT]⟩,
  ⟨0x800024, 0x0, 1, 0x0, 1, false, false, fun _ _ => [Reg.TLB_NOT_ADM_CNT]⟩,
  ⟨0x800028, 0x0, 1, 0x0, 1, false, false, fun _ _ => [Reg.TLB_SAFE_UNK_CNT]⟩,
  ⟨0x80002c, 0x0, 1, 0x0, 1, false, false, fun _ _ => [Reg.TLB_NULL_TX_CNT]⟩,
  ⟨0x800030, 0x0, 1, 0x0, 1, false, false, fun _ _ => [Reg.TLB_NULL_RX_CNT]⟩,
  ⟨0x800100, 0x40, 4, 0x0, 1, false, false, fun i _ => [Reg.TLB_RX_OK i]⟩,
  ⟨0x800104, 0x40, 4, 0x0, 1, false, false, fun i _ => [Reg.TLB_EARLY i]⟩,
  ⟨0x800108, 0x40, 4, 0x0, 1, false, false, fun i _ => [Reg.TLB_LATE i]⟩,
  ⟨0x80010c, 0x40, 4, 0x0, 1, false, false, fun i _ => [Reg.TLB_FCS i]⟩,
  ⟨0x800110, 0x40, 4, 0x0, 1, false, false, fun i _ => [Reg.TLB_DUP i]⟩,
  ⟨0x800114, 0x40, 4, 0x0, 1, false, false, fun i _ => [Reg.TLB_FWD_DROP i]⟩,
  ⟨0x800118, 0x40, 4, 0x0, 1, false, false, fun i _ => [Reg.TLB_HOPS_DROP i]⟩,
  ⟨0x80011c, 0x40, 4, 0x0, 1, false, false, fun i _ => [Reg.TLB_TX_FRAMES i]⟩,
  ⟨0x800120, 0x40, 4, 0x0, 1, false, false, fun i _ => [Reg.TLB_TX_ABORT i]⟩,
  ⟨0x800124, 0x40, 4, 0x0, 1, false, false, fun i _ => [Reg.TLB_PORT_STAT_LINK i, Reg.TLB_PORT_STAT_SPEED i]⟩,
  ⟨0x810000, 0x4, 4096, 0x0, 1, false, false, fun i _ => [Reg.TLB_PEER_AGE i, Reg.TLB_PEER_WHICH i, Reg.TLB_PEER_CFG_CHANGED i, Reg.TLB_PEER_REPLACED i, Reg.TLB_PEER_STATE i]⟩]


/-- The register words of the Hackney cores registers. -/
def regRows13 : List RegRow := [
  ⟨0xa0c000, 0x100, 16, 0x0, 1, false, false, fun i _ => [Reg.HK_STAT_ITEM i, Reg.HK_STAT_IN_HANDLER i, Reg.HK_STAT_IN_REP i, Reg.HK_STAT_STATE i]⟩,
  ⟨0xa0c004, 0x100, 16, 0x0, 1, false, false, fun i _ => [Reg.HK_PC i]⟩,
  ⟨0xa0c008, 0x100, 16, 0x0, 1, false, false, fun i _ => [Reg.HK_FAULT_CAUSE i, Reg.HK_FAULT_DESC i]⟩,
  ⟨0xa0c00c, 0x100, 16, 0x0, 1, false, false, fun i _ => [Reg.HK_FAULT_PC i]⟩,
  ⟨0xa0c010, 0x100, 16, 0x0, 1, false, false, fun i _ => [Reg.HK_FAULT_ADDR i]⟩,
  ⟨0xa0c014, 0x100, 16, 0x0, 1, false, false, fun i _ => [Reg.HK_ITEMS i]⟩,
  ⟨0xa0c018, 0x100, 16, 0x0, 1, false, false, fun i _ => [Reg.HK_FAULT_CNT i]⟩,
  ⟨0xa0c01c, 0x100, 16, 0x0, 1, false, false, fun i _ => [Reg.HK_ERR_EXIT i]⟩,
  ⟨0xa0c020, 0x100, 16, 0x0, 1, false, false, fun i _ => [Reg.HK_ECC_CNT_CORR i, Reg.HK_ECC_CNT_UNCORR i]⟩,
  ⟨0xa0c024, 0x100, 16, 0x0, 1, false, false, fun i _ => [Reg.HK_SWM_IGN i]⟩,
  ⟨0xa0c028, 0x100, 16, 0x0, 1, false, false, fun i _ => [Reg.HK_HOLDOFF_MAX i]⟩,
  ⟨0xa0c02c, 0x100, 16, 0x0, 1, false, false, fun i _ => [Reg.HK_CYC_MAX i]⟩]


/-- The register words of the Ostler and Girth registers. -/
def regRows14 : List RegRow := [
  ⟨0xa00000, 0x0, 1, 0x0, 1, true, false, fun _ _ => [Reg.OST_CTRL_RUN]⟩,
  ⟨0xa00004, 0x0, 1, 0x0, 1, false, false, fun _ _ => [Reg.OST_STAT_CFG_BUSY, Reg.OST_STAT_DROP, Reg.OST_STAT_DLY_FULL, Reg.OST_STAT_RUNNING]⟩,
  ⟨0xa00008, 0x0, 1, 0x0, 1, false, false, fun _ _ => [Reg.OST_CORE_CYC]⟩,
  ⟨0xa0000c, 0x0, 1, 0x0, 1, false, false, fun _ _ => [Reg.OST_DLY_CNT_NOW, Reg.OST_DLY_CNT_MAX]⟩,
  ⟨0xa00010, 0x0, 1, 0x0, 1, false, false, fun _ _ => [Reg.OST_OVR_CNT]⟩,
  ⟨0xa00014, 0x0, 1, 0x0, 1, false, false, fun _ _ => [Reg.OST_DROP_CNT]⟩,
  ⟨0xa00018, 0x0, 1, 0x0, 1, false, false, fun _ _ => [Reg.OST_FAIL_CNT]⟩,
  ⟨0xa0001c, 0x0, 1, 0x0, 1, false, false, fun _ _ => [Reg.OST_DISPATCH_CNT]⟩,
  ⟨0xa00020, 0x0, 1, 0x0, 1, true, false, fun _ _ => [Reg.OST_TRC_CTRL_EN, Reg.OST_TRC_CTRL_STOP_ON_OVR, Reg.OST_TRC_CTRL_KIND_MASK]⟩,
  ⟨0xa00024, 0x0, 1, 0x0, 1, false, false, fun _ _ => [Reg.OST_TRC_WR_NEXT, Reg.OST_TRC_WR_WRAPS]⟩,
  ⟨0xa00028, 0x0, 1, 0x0, 1, false, false, fun _ _ => [Reg.OST_TRC_LOST]⟩,
  ⟨0xa0002c, 0x0, 1, 0x0, 1, false, false, fun _ _ => [Reg.OST_IDLE]⟩,
  ⟨0xa00100, 0x0, 1, 0x0, 1, true, false, fun _ _ => [Reg.GIRTH_BUDGET_BUDGET_MW]⟩,
  ⟨0xa00108, 0x0, 1, 0x0, 1, false, false, fun _ _ => [Reg.GIRTH_STAT_F16, Reg.GIRTH_STAT_DENIED, Reg.GIRTH_STAT_BAD_BUDGET, Reg.GIRTH_STAT_THERM_CRIT, Reg.GIRTH_STAT_DERATING]⟩,
  ⟨0xa00104, 0x0, 1, 0x0, 1, false, false, fun _ _ => [Reg.GIRTH_FLOOR]⟩,
  ⟨0xa0010c, 0x0, 1, 0x0, 1, false, false, fun _ _ => [Reg.GIRTH_POOL_PSHF, Reg.GIRTH_POOL_U]⟩,
  ⟨0xa00110, 0x0, 1, 0x0, 1, false, false, fun _ _ => [Reg.GIRTH_TJ_NOW, Reg.GIRTH_TJ_MAX]⟩,
  ⟨0xa00114, 0x0, 1, 0x0, 1, false, false, fun _ _ => [Reg.GIRTH_STAND_P_IO, Reg.GIRTH_STAND_P_CYC]⟩,
  ⟨0xa00118, 0x0, 1, 0x0, 1, false, false, fun _ _ => [Reg.GIRTH_BASE_P_BASE, Reg.GIRTH_BASE_P_LOOP]⟩,
  ⟨0xa00120, 0x4, 8, 0x0, 1, true, false, fun i _ => [Reg.GIRTH_CLASS i]⟩,
  ⟨0xa00140, 0x0, 1, 0x0, 1, true, false, fun _ _ => [Reg.GIRTH_SAGE0_P8, Reg.GIRTH_SAGE0_P16]⟩,
  ⟨0xa00144, 0x0, 1, 0x0, 1, true, false, fun _ _ => [Reg.GIRTH_SAGE1_P32, Reg.GIRTH_SAGE1_SAGE_CLASS]⟩,
  ⟨0xa00148, 0x0, 1, 0x0, 1, true, false, fun _ _ => [Reg.GIRTH_IO0_SGMII, Reg.GIRTH_IO0_USX]⟩,
  ⟨0xa0014c, 0x0, 1, 0x0, 1, true, false, fun _ _ => [Reg.GIRTH_IO1_TACK, Reg.GIRTH_IO1_ADC]⟩,
  ⟨0xa00150, 0x0, 1, 0x0, 1, false, false, fun _ _ => [Reg.GIRTH_DENY_CNT_CORE, Reg.GIRTH_DENY_CNT_SAGE]⟩,
  ⟨0xa00154, 0x0, 1, 0x0, 1, false, false, fun _ _ => [Reg.GIRTH_GRANT]⟩]


/-- The register words of the Bridle registers. -/
def regRows15 : List RegRow := [
  ⟨0xb00000, 0x0, 1, 0x0, 1, true, false, fun _ _ => [Reg.BRD_STAT_ANY_DEMAND, Reg.BRD_STAT_SPS_STAGED, Reg.BRD_STAT_PDK_LOST, Reg.BRD_STAT_REALIGN, Reg.BRD_STAT_STATE]⟩,
  ⟨0xb00004, 0x0, 1, 0x0, 1, true, false, fun _ _ => [Reg.BRD_FAULT]⟩,
  ⟨0xb00008, 0x0, 1, 0x0, 1, true, true, fun _ _ => [Reg.BRD_TICK]⟩,
  ⟨0xb00010, 0x0, 1, 0x0, 1, true, false, fun _ _ => [Reg.BRD_ZONE_DEM]⟩,
  ⟨0xb00014, 0x0, 1, 0x0, 1, true, false, fun _ _ => [Reg.BRD_ZONE_STO]⟩,
  ⟨0xb00018, 0x0, 1, 0x0, 1, true, true, fun _ _ => [Reg.BRD_IN]⟩,
  ⟨0xb00020, 0x0, 1, 0x0, 1, true, true, fun _ _ => [Reg.BRD_IN_FAULT]⟩,
  ⟨0xb00028, 0x0, 1, 0x0, 1, true, false, fun _ _ => [Reg.BRD_OUT]⟩,
  ⟨0xb0002c, 0x0, 1, 0x0, 1, true, false, fun _ _ => [Reg.BRD_OUT_RB]⟩,
  ⟨0xb00030, 0x0, 1, 0x0, 1, true, false, fun _ _ => [Reg.BRD_OUT_FAULT]⟩,
  ⟨0xb00034, 0x0, 1, 0x0, 1, true, false, fun _ _ => [Reg.BRD_TP_ON, Reg.BRD_TP_FAULT, Reg.BRD_TP_CUT]⟩,
  ⟨0xb00038, 0x0, 1, 0x0, 1, true, false, fun _ _ => [Reg.BRD_SPS_ID]⟩,
  ⟨0xb0003c, 0x0, 1, 0x0, 1, true, false, fun _ _ => [Reg.BRD_SPS_CRC]⟩,
  ⟨0xb00040, 0x0, 1, 0x0, 1, true, false, fun _ _ => [Reg.BRD_SPS_VER]⟩,
  ⟨0xb00044, 0x0, 1, 0x0, 1, true, false, fun _ _ => [Reg.BRD_RPT_DROP]⟩,
  ⟨0xb00048, 0x0, 1, 0x0, 1, true, false, fun _ _ => [Reg.BRD_DEMAND_CNT]⟩,
  ⟨0xb00100, 0x4, 128, 0x0, 1, true, false, fun i _ => [Reg.BRD_FUNC_STAT_COUNT i, Reg.BRD_FUNC_STAT_INPUT i, Reg.BRD_FUNC_STAT_SYNC i, Reg.BRD_FUNC_STAT_DISC i, Reg.BRD_FUNC_STAT_STATE i]⟩,
  ⟨0xb00300, 0x4, 32, 0x0, 1, true, false, fun i _ => [Reg.BRD_ZONE_STAT_SS1_LEFT i, Reg.BRD_ZONE_STAT_SPEED_FAULT i, Reg.BRD_ZONE_STAT_STO_UNCONF i, Reg.BRD_ZONE_STAT_RAMP_VIOL i, Reg.BRD_ZONE_STAT_SLS_VIOL i, Reg.BRD_ZONE_STAT_SLS_ACTIVE i, Reg.BRD_ZONE_STAT_STO i, Reg.BRD_ZONE_STAT_SS1 i, Reg.BRD_ZONE_STAT_DEMAND i]⟩]


/-- The register words of the field I/O registers. -/
def regRows16 : List RegRow := [
  ⟨0xc00000, 0x0, 1, 0x0, 1, false, true, fun _ _ => [Reg.FIO_IN]⟩,
  ⟨0xc00008, 0x0, 1, 0x0, 1, false, false, fun _ _ => [Reg.FIO_OUT]⟩,
  ⟨0xc0000c, 0x0, 1, 0x0, 1, false, false, fun _ _ => [Reg.FIO_RB]⟩,
  ⟨0xc00010, 0x0, 1, 0x0, 1, false, false, fun _ _ => [Reg.FIO_PUB]⟩,
  ⟨0xc00014, 0x0, 1, 0x0, 1, false, false, fun _ _ => [Reg.FIO_STAT_CFG_BUSY]⟩,
  ⟨0xc01000, 0x100, 4, 0x0, 1, true, false, fun i _ => [Reg.FIO_GRP_CFG_T_SILENT2 i, Reg.FIO_GRP_CFG_FAULT_PIN i, Reg.FIO_GRP_CFG_AUTO_REARM i, Reg.FIO_GRP_CFG_T_SILENT1 i]⟩,
  ⟨0xc01004, 0x100, 4, 0x0, 1, false, false, fun i _ => [Reg.FIO_GRP_STAT_SILENT_OFF i, Reg.FIO_GRP_STAT_OUT_FAULT i, Reg.FIO_GRP_STAT_CUT_OPEN i, Reg.FIO_GRP_STAT_SILENT1 i, Reg.FIO_GRP_STAT_SUPPLY_LOST i, Reg.FIO_GRP_STAT_SUPPLY_LOW i, Reg.FIO_GRP_STAT_REARM_WAIT i, Reg.FIO_GRP_STAT_FAULT i]⟩,
  ⟨0xc01008, 0x100, 4, 0x0, 1, false, false, fun i _ => [Reg.FIO_VFIELD_LAST i, Reg.FIO_VFIELD_LOWEST i]⟩,
  ⟨0xc0100c, 0x100, 4, 0x0, 1, false, false, fun i _ => [Reg.FIO_GRP_CNT_LOST i, Reg.FIO_GRP_CNT_SILENT1 i]⟩,
  ⟨0xc02000, 0x4, 64, 0x0, 1, true, false, fun i _ => [Reg.FIO_IN_CFG_FILT i]⟩,
  ⟨0xc02200, 0x8, 64, 0x0, 1, false, true, fun i _ => [Reg.FIO_IN_TS i]⟩,
  ⟨0xc03000, 0x10, 32, 0x0, 1, true, false, fun i _ => [Reg.FIO_OUT_CFG_OWNER i, Reg.FIO_OUT_CFG_SAFE_VAL i, Reg.FIO_OUT_CFG_OUT_BIT i, Reg.FIO_OUT_CFG_RB_BLANK i]⟩,
  ⟨0xc03004, 0x10, 32, 0x0, 1, true, false, fun i _ => [Reg.FIO_OUT_SIG_OUT_SIG i]⟩,
  ⟨0xc03008, 0x10, 32, 0x0, 1, false, false, fun i _ => [Reg.FIO_OUT_STAT_RB_HIGH i, Reg.FIO_OUT_STAT_RB_LOW i, Reg.FIO_OUT_STAT_THERMAL i, Reg.FIO_OUT_STAT_OVERLOAD i, Reg.FIO_OUT_STAT_RB i, Reg.FIO_OUT_STAT_ON i]⟩]


/-- The register words of the pair registers. -/
def regRows17 : List RegRow := [
  ⟨0xd00000, 0x0, 1, 0x0, 1, true, false, fun _ _ => [Reg.PAIR_CFG_PAIRED, Reg.PAIR_CFG_AUTO_REVERT, Reg.PAIR_CFG_QUIET_EN, Reg.PAIR_CFG_PREF, Reg.PAIR_CFG_SNAP_PERIOD, Reg.PAIR_CFG_REIN_WD]⟩,
  ⟨0xd00004, 0x0, 1, 0x0, 1, true, false, fun _ _ => [Reg.PAIR_QUIET_QUIET_BIT, Reg.PAIR_QUIET_QUIET_SIG]⟩,
  ⟨0xd00008, 0x0, 1, 0x0, 1, true, false, fun _ _ => [Reg.PAIR_TIMES_START_WAIT, Reg.PAIR_TIMES_REVERT_DWELL]⟩,
  ⟨0xd0000c, 0x0, 1, 0x0, 1, true, false, fun _ _ => [Reg.PAIR_STAT_REBASE_FAIL, Reg.PAIR_STAT_SNAP_LATE, Reg.PAIR_STAT_SHADOW_DIFF, Reg.PAIR_STAT_NOT_READY_DROP, Reg.PAIR_STAT_TACK_LOST, Reg.PAIR_STAT_REVERT_PEND, Reg.PAIR_STAT_TACK_UP, Reg.PAIR_STAT_READY, Reg.PAIR_STAT_PEER_HOLD, Reg.PAIR_STAT_HOLDER, Reg.PAIR_STAT_ROLE, Reg.PAIR_STAT_STATE]⟩,
  ⟨0xd00010, 0x0, 1, 0x0, 1, true, false, fun _ _ => [Reg.PAIR_LAST_CAUSE, Reg.PAIR_LAST_GAP]⟩,
  ⟨0xd00014, 0x0, 1, 0x0, 1, true, true, fun _ _ => [Reg.PAIR_SNAP_TX]⟩,
  ⟨0xd0001c, 0x0, 1, 0x0, 1, true, true, fun _ _ => [Reg.PAIR_SNAP_RX]⟩,
  ⟨0xd00024, 0x0, 1, 0x0, 1, true, false, fun _ _ => [Reg.PAIR_SNAP_SIZE]⟩,
  ⟨0xd00028, 0x0, 1, 0x0, 1, true, false, fun _ _ => [Reg.PAIR_SNAP_NS]⟩,
  ⟨0xd0002c, 0x0, 1, 0x0, 1, true, false, fun _ _ => [Reg.PAIR_TAKEOVER_CNT]⟩,
  ⟨0xd00030, 0x0, 1, 0x0, 1, true, false, fun _ _ => [Reg.PAIR_REVERT_CNT]⟩,
  ⟨0xd00034, 0x0, 1, 0x0, 1, true, false, fun _ _ => [Reg.PAIR_SNAP_BAD_CNT]⟩,
  ⟨0xd00038, 0x0, 1, 0x0, 1, true, false, fun _ _ => [Reg.PAIR_TACK_CRC_CNT]⟩,
  ⟨0xd0003c, 0x0, 1, 0x0, 1, true, false, fun _ _ => [Reg.PAIR_SELFTEST_FAIL_CNT]⟩,
  ⟨0xd00040, 0x0, 1, 0x0, 1, true, false, fun _ _ => [Reg.PAIR_SELFTEST_PASS, Reg.PAIR_SELFTEST_RUNNING, Reg.PAIR_SELFTEST_CODE]⟩,
  ⟨0xd00044, 0x0, 1, 0x0, 1, true, false, fun _ _ => [Reg.PAIR_PEER_HEALTH]⟩]


/-- The register words of the host registers. -/
def regRows18 : List RegRow := [
  ⟨0x10, 0x0, 1, 0x0, 1, true, false, fun _ _ => [Reg.GLB_HOST_CFG_BB_CMD_EN, Reg.GLB_HOST_CFG_SPI_EN, Reg.GLB_HOST_CFG_SPI_PRIV]⟩,
  ⟨0x14, 0x0, 1, 0x0, 1, false, false, fun _ _ => [Reg.PRIV_VIOL_CNT_PF0, Reg.PRIV_VIOL_CNT_OTHER]⟩,
  ⟨0x18, 0x0, 1, 0x0, 1, false, false, fun _ _ => [Reg.HOST_ERR_CNT_PARTIAL, Reg.HOST_ERR_CNT_UNMAPPED]⟩,
  ⟨0x1c, 0x0, 1, 0x0, 1, false, false, fun _ _ => [Reg.BB_CMD_CNT_EXEC, Reg.BB_CMD_CNT_LATE]⟩,
  ⟨0x20, 0x0, 1, 0x0, 1, false, false, fun _ _ => [Reg.GLB_HEALTH_THERM, Reg.GLB_HEALTH_BRIDLE_CHANGE, Reg.GLB_HEALTH_PAIR_CHANGE, Reg.GLB_HEALTH_SAFE, Reg.GLB_HEALTH_FAULT]⟩]


/-- The register words of the security registers. -/
def regRows19 : List RegRow := [
  ⟨0xe00000, 0x0, 1, 0x0, 1, true, false, fun _ _ => [Reg.SEC_STAT_FLASH_BUSY, Reg.SEC_STAT_FW_NONE, Reg.SEC_STAT_PARTNER_REPLACED, Reg.SEC_STAT_SELF_REPLACED, Reg.SEC_STAT_DEBUG_OPENED, Reg.SEC_STAT_DEBUG_OPEN, Reg.SEC_STAT_LIFECYCLE]⟩,
  ⟨0xe00004, 0x0, 1, 0x0, 1, true, false, fun _ _ => [Reg.SEC_BOOT_SPS1, Reg.SEC_BOOT_SPS0, Reg.SEC_BOOT_CFG1, Reg.SEC_BOOT_CFG0, Reg.SEC_BOOT_FW1, Reg.SEC_BOOT_FW0, Reg.SEC_BOOT_BANK]⟩,
  ⟨0xe00008, 0x0, 1, 0x0, 1, true, false, fun _ _ => [Reg.SEC_FW_VER]⟩,
  ⟨0xe0000c, 0x0, 1, 0x0, 1, true, false, fun _ _ => [Reg.SEC_CFG_VER]⟩,
  ⟨0xe00010, 0x0, 1, 0x0, 1, true, false, fun _ _ => [Reg.SEC_SPS_VER]⟩,
  ⟨0xe00014, 0x0, 1, 0x0, 1, true, false, fun _ _ => [Reg.SEC_RB_FW, Reg.SEC_RB_CFG, Reg.SEC_RB_SPS]⟩,
  ⟨0xe00018, 0x0, 1, 0x0, 1, true, false, fun _ _ => [Reg.SEC_OWNER_PROGRAMMED, Reg.SEC_OWNER_REVOKED, Reg.SEC_OWNER_CFG_SLOT, Reg.SEC_OWNER_SPS_SLOT]⟩,
  ⟨0xe0001c, 0x0, 1, 0x0, 1, true, false, fun _ _ => [Reg.SEC_BOOT_CNT]⟩,
  ⟨0xe00020, 0x0, 1, 0x0, 1, true, false, fun _ _ => [Reg.SEC_SIGN_CNT_REPORTS, Reg.SEC_SIGN_CNT_JOIN]⟩,
  ⟨0xe00024, 0x0, 1, 0x0, 1, true, false, fun _ _ => [Reg.SEC_DBG_REF_CNT]⟩,
  ⟨0xe00028, 0x0, 1, 0x0, 1, true, false, fun _ _ => [Reg.SEC_COMPAT_CFG_COMPAT, Reg.SEC_COMPAT_SNAP_FMT]⟩,
  ⟨0xe00040, 0x4, 16, 0x0, 1, true, false, fun i _ => [Reg.SEC_FPRINT i]⟩,
  ⟨0xe00080, 0x4, 16, 0x0, 1, true, false, fun i _ => [Reg.SEC_CFG_HASH i]⟩,
  ⟨0xe000c0, 0x4, 16, 0x0, 1, true, false, fun i _ => [Reg.SEC_FW_HASH i]⟩]


/-- The register words of the reset and boot registers. -/
def regRows20 : List RegRow := [
  ⟨0x30, 0x0, 1, 0x0, 1, false, false, fun _ _ => [Reg.GLB_RST_CAUSE_REIN_CAUSE, Reg.GLB_RST_CAUSE_CMD, Reg.GLB_RST_CAUSE_MODULE, Reg.GLB_RST_CAUSE_BROWNOUT, Reg.GLB_RST_CAUSE_NRST, Reg.GLB_RST_CAUSE_POR]⟩,
  ⟨0x34, 0x0, 1, 0x0, 1, false, false, fun _ _ => [Reg.GLB_BOOT_BG_VERIFY, Reg.GLB_BOOT_SPS_NONE, Reg.GLB_BOOT_FAIL_CODE, Reg.GLB_BOOT_FAIL_STAGE, Reg.GLB_BOOT_STAGE]⟩,
  ⟨0x38, 0x0, 1, 0x0, 1, false, false, fun _ _ => [Reg.GLB_BOOT_MS_COMMIT, Reg.GLB_BOOT_MS_CFG]⟩,
  ⟨0x3c, 0x0, 1, 0x0, 1, false, false, fun _ _ => [Reg.GLB_SUPPLY_RAILS, Reg.GLB_SUPPLY_VFIELD, Reg.GLB_SUPPLY_VFIELD_TP]⟩,
  ⟨0x40, 0x0, 1, 0x0, 1, false, false, fun _ _ => [Reg.GLB_RST_CNT_MODULE, Reg.GLB_RST_CNT_NRST]⟩]


/-- All register words. -/
def regRows : List RegRow :=
  regRows00 ++ regRows01 ++ regRows02 ++ regRows03 ++ regRows04 ++ regRows05 ++ regRows06 ++ regRows07 ++ regRows08 ++ regRows09 ++ regRows10 ++ regRows11 ++ regRows12 ++ regRows13 ++ regRows14 ++ regRows15 ++ regRows16 ++ regRows17 ++ regRows18 ++ regRows19 ++ regRows20

end Sys2Proof.Machine
end

