-- ==== Sys2Proof/Machine/State.lean ====
section
/-!
DEFINITION. Machine/State.lean: the whole state of the block as plain data: the register file, the memories, the state
of every engine (Machine/Types.lean), and the queue of commands that wait. `State.reset` is the machine right after a
power-on reset.
-/
namespace Sys2Proof.Machine

/-- No rule of the spec stops the block: an access that finds nothing reads 0 (R513), a command that cannot act answers
a status (R532). No meaning raises this fault; the type is here because the interface asks for one (safe). -/
inductive Fault where
  | none
deriving DecidableEq, Repr

/-- Why a command has no meaning here. -/
inductive Refusal where
  /-- A row of the opcode table that the model does not give a meaning yet, by its mnemonic (safe: the run stops). -/
  | notModelled (mnemonic : String)
deriving DecidableEq, Repr

/-- Everything that commands change but the queue of waiting commands. -/
structure Dev where
  /-- The register file: every register field of the spec's tables (Machine/Regs.lean). -/
  regs : Regs := []
  /-- The block's own record memories and windows, by host address (R513). -/
  mem : Mem := []
  host : HostState := {}
  time : TimeState := {}
  ep : EpochState := {}
  tlb : TlbState := {}
  cal : CalState := {}
  fio : FioState := {}
  loop : LoopState := {}
  trc : TraceState := {}
  prf : PrfState := {}
  team : TeamState := {}
  crd : CrdState := {}
  hk : HkState := {}
  ost : OstState := {}
  sage : SageState := {}
  pair : PairState := {}
  pdk : PdkState := {}
  brd : BrdState := {}
  sec : SecState := {}
  boot : BootState := {}
deriving DecidableEq, Repr

/-- The state of the block: the fused grade (R1), the device, and the commands that wait, first in first out. -/
structure State where
  grade : Grade
  dev : Dev
  pending : List Instr
deriving DecidableEq, Repr

/-- The machine right after a power-on reset. -/
def State.reset : State := { grade := .fx8_128, dev := {}, pending := [] }

end Sys2Proof.Machine
end

