-- ==== Sys2Proof/Machine/Ops.lean ====
section
/-!
DEFINITION. Machine/Ops.lean: the named operations over the register file, the memories and the host interfaces that
every family uses: reading and setting a field, counting, reading and writing memory words, taking and answering a
command packet (R525 … R537), and the grade's counts (R2).
-/
namespace Sys2Proof.Machine

/-! ### Grades (R2) -/

/-- Servo axes of the grade. -/
def axesOf : Grade → Nat
  | .fx8_128 => 128
  | .fx8_064 => 64
  | .fx8_032 => 32

/-- Arms of the grade. -/
def armsOf : Grade → Nat
  | .fx8_128 => 16
  | .fx8_064 => 8
  | .fx8_032 => 4

/-- Tracked intruders of the grade. -/
def intrudersOf : Grade → Nat
  | .fx8_128 => 64
  | .fx8_064 => 32
  | .fx8_032 => 16

/-- Sage lanes of the grade; 0 where the solver is absent. -/
def lanesOf : Grade → Nat
  | .fx8_128 => 32
  | .fx8_064 => 16
  | .fx8_032 => 0

/-- Sage is fitted. -/
def sageFitted (g : Grade) : Bool := lanesOf g != 0

/-- Power teams of the grade. -/
def teamsOf : Grade → Nat
  | .fx8_032 => 12
  | _ => 24

/-- Cerid ring ports of the grade. -/
def ringsOf : Grade → Nat
  | .fx8_032 => 2
  | _ => 4

/-! ### The register file -/

/-- The value stored under a key, or the reset value. -/
def Regs.get (rs : Regs) (k dflt : Nat) : Nat :=
  match rs with
  | [] => dflt
  | (j, v) :: r => if k = j then v else Regs.get r k dflt

/-- Store `v` under key `k`, keeping the canonical form: a field at its reset value is not listed. -/
def Regs.set (rs : Regs) (k dflt v : Nat) : Regs :=
  match rs with
  | [] => if v = dflt then [] else [(k, v)]
  | (j, x) :: r =>
    if k < j then (if v = dflt then (j, x) :: r else (k, v) :: (j, x) :: r)
    else if k = j then (if v = dflt then r else (k, v) :: r)
    else (j, x) :: Regs.set r k dflt v

/-- The value of a field. -/
def Dev.r (d : Dev) (f : Field) : Nat := Regs.get d.regs f.key f.reset

/-- Set a field to `v` modulo its width. -/
def Dev.w (d : Dev) (f : Field) (v : Nat) : Dev :=
  { d with regs := Regs.set d.regs f.key f.reset (v % 2 ^ f.width) }

/-- The value of a one-bit field. -/
def Dev.b (d : Dev) (f : Field) : Bool := d.r f == 1

/-- Set a one-bit field. -/
def Dev.wb (d : Dev) (f : Field) (v : Bool) : Dev := d.w f (b2n v)

/-- Set a flag. -/
def Dev.flag (d : Dev) (f : Field) : Dev := d.w f 1

/-- Set a flag when the condition holds. -/
def Dev.flagIf (d : Dev) (c : Bool) (f : Field) : Dev := if c then d.flag f else d

/-- Add to a saturating counter. -/
def Dev.add (d : Dev) (f : Field) (n : Nat) : Dev := d.w f (satU f.width (d.r f + n))

/-- Count one, saturating. -/
def Dev.inc (d : Dev) (f : Field) : Dev := d.add f 1

/-- Count one, wrapping. -/
def Dev.incWrap (d : Dev) (f : Field) : Dev := d.w f (d.r f + 1)

/-- The signed value of a field. -/
def Dev.rs (d : Dev) (f : Field) : Int := sx f.width (d.r f)

/-- Set a field to a signed value (two's complement). -/
def Dev.ws (d : Dev) (f : Field) (z : Int) : Dev := d.w f (un f.width z)

/-- Set a field to the larger of its value and `v` ("largest seen" registers). -/
def Dev.wmax (d : Dev) (f : Field) (v : Nat) : Dev := d.w f (max (d.r f) v)

/-- Repeat an action for each element of a list, left to right. -/
def Dev.each {α : Type} (d : Dev) (l : List α) (f : α → Dev → Dev) : Dev := l.foldl (fun d x => f x d) d

/-- The fields of the register word at host address `a` in one row of the tables, and whether `a` is the high word of a
64-bit pair (R10). -/
def RegRow.at (r : RegRow) (a : Nat) : Option (List Field × Bool) :=
  if a < r.base then none
  else
    let o := a - r.base
    let i := if r.count ≤ 1 then 0 else o / r.stride
    let o1 := if r.count ≤ 1 then o else o % r.stride
    let j := if r.count2 ≤ 1 then 0 else o1 / r.stride2
    let o2 := if r.count2 ≤ 1 then o1 else o1 % r.stride2
    if i < r.count ∧ j < r.count2 ∧ (o2 = 0 ∨ (r.wide ∧ o2 = 4)) then some (r.fields i j, o2 == 4) else none

/-- The register word at host address `a`: its row, its fields there, and whether `a` is a high word. -/
def regAt (a : Nat) : Option (RegRow × List Field × Bool) :=
  regRows.findSome? (fun r => (r.at a).map (fun x => (r, x.1, x.2)))

/-- Write the RW fields of a register word from a 32-bit value; a 64-bit pair takes it into one half (R8, R10). -/
def Dev.putFields (d : Dev) (fs : List Field) (hi : Bool) (v : Nat) : Dev :=
  d.each fs (fun f d =>
    if f.access != .rw then d
    else if f.width = 64 then
      (if hi then d.w f (pair64 (d.r f) v) else d.w f (pair64 v (hiW (d.r f))))
    else d.w f (bits v f.lo f.width))

/-- Write the RW fields of the register word at a host address. -/
def Dev.putReg (d : Dev) (a v : Nat) : Dev :=
  match regAt a with
  | some (_, fs, hi) => d.putFields fs hi v
  | none => d

/-- The value of a register word, WO fields reading 0 (R8). -/
def Dev.wordOf (d : Dev) (fs : List Field) (hi : Bool) : Nat :=
  fs.foldl (fun n f =>
    if f.access == .wo then n
    else if f.width = 64 then n + (if hi then hiW (d.r f) else loW (d.r f))
    else n + d.r f * 2 ^ f.lo) 0

/-- The value of the register word at a host address; 0 where there is none (R513). -/
def Dev.regWord (d : Dev) (a : Nat) : Nat :=
  match regAt a with
  | some (_, fs, hi) => d.wordOf fs hi
  | none => 0

/-! ### Memories -/

/-- The byte at an address. -/
def Mem.get (m : Mem) (a : Nat) : Byte :=
  match m with
  | [] => 0
  | (b, v) :: r => if a = b then v else Mem.get r a

/-- Store a byte, keeping the canonical form. -/
def Mem.set (m : Mem) (a : Nat) (v : Byte) : Mem :=
  match m with
  | [] => if v = 0 then [] else [(a, v)]
  | (b, x) :: r =>
    if a < b then (if v = 0 then (b, x) :: r else (a, v) :: (b, x) :: r)
    else if a = b then (if v = 0 then r else (a, v) :: r)
    else (b, x) :: Mem.set r a v

/-- The canonical form: addresses strictly rising, no byte 0 listed. -/
def Mem.wf : Mem → Bool
  | [] => true
  | [(_, v)] => v != 0
  | (a, v) :: (b, x) :: r => v != 0 && decide (a < b) && Mem.wf ((b, x) :: r)

/-- The `n` bytes at `a`, little-endian, as a number (R7). -/
def Mem.read (m : Mem) (a : Nat) : Nat → Nat
  | 0 => 0
  | n + 1 => (Mem.get m a).toNat + 256 * Mem.read m (a + 1) n

/-- Store the low `n` bytes of `v` at `a`, little-endian (R7). -/
def Mem.write (m : Mem) (a : Nat) : Nat → Nat → Mem
  | 0, _ => m
  | n + 1, v => Mem.write (Mem.set m a (BitVec.ofNat 8 v)) (a + 1) n (v / 256)

/-- The 32-bit word at byte address `a`. -/
def Mem.word (m : Mem) (a : Nat) : Nat := Mem.read m a 4

/-- Store a 32-bit word at byte address `a`. -/
def Mem.putWord (m : Mem) (a v : Nat) : Mem := Mem.write m a 4 v

/-- Store a list of words from byte address `a` on. -/
def Mem.putWords (m : Mem) (a : Nat) : List Nat → Mem
  | [] => m
  | v :: r => Mem.putWords (Mem.putWord m a v) (a + 4) r

/-- `n` words from byte address `a` on. -/
def Mem.words (m : Mem) (a n : Nat) : List Nat := (List.range n).map (fun i => Mem.word m (a + 4 * i))

/-- A word of the block's own record memories, by host address. -/
def Dev.mw (d : Dev) (a : Nat) : Nat := Mem.word d.mem a

/-- Store a word of the block's own record memories, by host address. -/
def Dev.putMw (d : Dev) (a v : Nat) : Dev := { d with mem := Mem.putWord d.mem a v }

/-- The 64-bit value at host address `a`, low word first. -/
def Dev.mw2 (d : Dev) (a : Nat) : Nat := Mem.read d.mem a 8

/-! ### Replies and packets (R525 … R537) -/

/-- What a command answers: status, detail and reply data. -/
structure Res where
  status : Nat
  detail : Nat := 0
  data : List Nat := []
deriving DecidableEq, Repr

def Res.ok (data : List Nat) : Res := ⟨0, 0, data⟩
def Res.busy : Res := ⟨1, 0, []⟩
def Res.notFitted : Res := ⟨2, 0, []⟩
def Res.denied : Res := ⟨3, 0, []⟩
/-- BAD_PARAM; the detail is the index of the first offending word in the packet, or 0. -/
def Res.badParam (word : Nat) : Res := ⟨4, word, []⟩
def Res.past : Res := ⟨5, 0, []⟩
def Res.failed (code : Nat) : Res := ⟨6, code, []⟩
def Res.timeout : Res := ⟨7, 0, []⟩
def Res.badOpcode : Res := ⟨8, 0, []⟩
def Res.badLength (required : Nat) : Res := ⟨9, required, []⟩
def Res.eccErr : Res := ⟨10, 0, []⟩
def Res.tooLong (words : Nat) : Res := ⟨11, words, []⟩
def Res.plainOnly : Res := ⟨12, 0, []⟩

/-- What a command's table row says of its packet (R530, R533). `need` answers none for a right length and otherwise
the required LENGTH, 0 when there is no single one. -/
structure CmdSpec where
  opcode : Nat
  priv : Bool := false
  plainOnly : Origin → Bool := fun _ => false
  fitted : Grade → List Nat → Bool := fun _ _ => true
  need : List Nat → Option Nat
  replyLen : List Nat → Nat := fun _ => 3
  /-- Answered on a standby and after a boot failure (R500, R575). -/
  always : Bool := false

/-- The length rule of a command with `n` parameter words. -/
def needN (n : Nat) (ps : List Nat) : Option Nat := if ps.length = n then none else some (n + 2)

/-- The length rule of a command with `n` fixed words, the last of them a count of further entries of `k` words. -/
def needCount (n k : Nat) (ps : List Nat) : Option Nat :=
  if ps.length < n then some 0
  else
    let want := n + k * ps.getD (n - 1) 0
    if ps.length = want then none else if want + 2 ≤ 1024 then some (want + 2) else some 0

/-- The set of queues that a source belongs to. -/
def Dev.hostSet (d : Dev) : Origin → HostSet
  | .pf1 _ => d.host.pf1
  | .pf0 _ => d.host.pf0
  | _ => d.host.spi

/-- Change the set of queues of a source. -/
def Dev.setHostSet (d : Dev) (o : Origin) (h : HostSet) : Dev :=
  match o with
  | .pf1 _ => { d with host := { d.host with pf1 := h } }
  | .pf0 _ => { d with host := { d.host with pf0 := h } }
  | .spi _ _ => { d with host := { d.host with spi := h } }
  | _ => d

/-- The command queue number of a source, if it is a queue. -/
def queueOf : Origin → Option Nat
  | .pf1 q => some q.val
  | .pf0 q => some q.val
  | .spi q _ => some q.val
  | _ => none

/-- Two sources belong to the same function or path. -/
def sameFunction : Origin → Origin → Bool
  | .pf1 _, .pf1 _ => true
  | .pf0 _, .pf0 _ => true
  | .spi _ _, .spi _ _ => true
  | _, _ => false

/-- Two sources are the same queue, or the same port. -/
def sameQueue (a b : Origin) : Bool := a == b || (sameFunction a b && queueOf a == queueOf b)

/-- Queue `q` of a set. -/
def HostSet.queue (h : HostSet) (q : Nat) : HQueue := Tab.look {} q h.queues

/-- Set queue `q` of a set. -/
def HostSet.setQueue (h : HostSet) (q : Nat) (x : HQueue) : HostSet := { h with queues := Tab.put q x h.queues }

/-- The rights of a source (R517). -/
def Dev.privileged (d : Dev) : Origin → Bool
  | .pf1 _ => true
  | .pf0 _ => false
  | .spi _ asked => asked && d.b Reg.GLB_HOST_CFG_SPI_PRIV
  | .backbone p _ pr => pr && d.tlb.commanders.contains p
  | .hackney _ => false

/-- Count one refused access (R518). -/
def Dev.countViolation (d : Dev) : Origin → Dev
  | .pf0 _ => d.inc Reg.PRIV_VIOL_CNT_PF0
  | .pf1 _ => d
  | _ => d.inc Reg.PRIV_VIOL_CNT_OTHER

/-- A trigger of an MSI-X vector (R539, R540): masked, it sets the pending bit; else one message is sent. While the
endpoint is held in reset or in D3hot no message leaves (R520, R596). -/
def HostSet.trigger (h : HostSet) (v : Nat) : HostSet :=
  if h.d3hot then h
  else if bitOf h.masked v then { h with pend := setBit h.pend v true }
  else { h with sent := Tab.put v (Tab.look 0 v h.sent + 1) h.sent }

/-- A trigger on the set of a source; on the SPI set it raises SPI_IRQ_n (R541). -/
def Dev.trigger (d : Dev) (o : Origin) (v : Nat) : Dev :=
  match o with
  | .spi _ _ => { d with host := { d.host with spiPend := setBit d.host.spiPend v true } }
  | .pf0 _ => { d with host := { d.host with pf0 := d.host.pf0.trigger v } }
  | .pf1 _ => { d with host := { d.host with pf1 := d.host.pf1.trigger v } }
  | _ => d

/-- The words of a reply (R531). -/
def Reply.words (r : Reply) : List Word :=
  [W (r.opcode * 2 ^ 20 + (3 + r.data.length)), W r.tag, W (r.status + r.detail * 2 ^ 16)] ++ r.data

/-- Hand a reply to its source: a reply queue (where it waits until REPLY_WRITE finds room, R525), a CMD envelope back
to the origin (R545), or the Hackney command port (R404). -/
def Dev.postReply (d : Dev) (o : Origin) (r : Reply) : Dev :=
  match o with
  | .backbone p seq _ =>
    { d with tlb := { d.tlb with envOut := d.tlb.envOut ++
        [{ dest := p, origin := d.r Reg.TLB_DOMAIN_SELF, isReply := true, priv := false, seq := seq.toNat,
           words := r.words }] } }
  | .hackney c =>
    let core := Tab.look {} c.val d.hk.cores
    let core := if d.r (Reg.HK_STAT_STATE c.val) = 0 then core else { core with ipend := setBit core.ipend 2 true }
    { d with
      host := { d.host with hkReplies := Tab.put c.val (Tab.look [] c.val d.host.hkReplies ++ r.words) d.host.hkReplies },
      hk := { d.hk with cores := Tab.put c.val core d.hk.cores } }
  | _ =>
    match queueOf o with
    | some q =>
      let h := d.hostSet o
      d.setHostSet o { h with waiting := Tab.put (q + 4) (Tab.look [] (q + 4) h.waiting ++ [r]) h.waiting }
    | none => d

/-- Answer a packet (R531): no reply for status OK with QUIET_OK. -/
def Dev.answer (d : Dev) (o : Origin) (opcode : Nat) (tag : Word) (quietOk : Bool) (res : Res) : Dev :=
  if quietOk && res.status == 0 then d
  else d.postReply o ⟨opcode, tag.toNat, res.status, res.detail, res.data.map W⟩

/-- A packet may be taken from its source now: no reply of that queue waits for room (R525), the queue's earlier packet
is not outstanding (R536), and a BARRIER waits for every outstanding packet of the function's other queues (R537). -/
def Dev.canTake (d : Dev) (p : Packet) : Bool :=
  (match queueOf p.origin with
    | some q => (Tab.look [] (q + 4) (d.hostSet p.origin).waiting).isEmpty
    | none => true) &&
  !(d.host.outstanding.any (fun x => sameQueue x.origin p.origin)) &&
  !(p.barrier && d.host.outstanding.any (fun x => sameFunction x.origin p.origin))

/-- The words of a packet (R530). -/
def packetWords (p : Packet) (opcode : Nat) : List Word :=
  [W (opcode * 2 ^ 20 + p.rsv % 4 * 2 ^ 18 + b2n p.barrier * 2 ^ 17 + b2n p.quietOk * 2 ^ 16 + (2 + p.params.length)),
   p.tag] ++ p.params

/-- Take the packet's words off a Hackney command port when they stand at its front (R404). -/
def Dev.takePort (d : Dev) (c : Nat) (ws : List Word) : Dev :=
  let core := Tab.look {} c d.hk.cores
  if core.cmdq.take ws.length = ws then
    { d with hk := { d.hk with cores := Tab.put c { core with cmdq := core.cmdq.drop ws.length } d.hk.cores } }
  else d

/-- A range of `n` entries from `i` on, within the table; none or the offending word. -/
def rangeBad (i n lim total : Nat) : Option Nat :=
  if total ≤ i then some 2 else if n < 1 ∨ lim < n then some 3 else if total < i + n then some 0 else none

/-- Take the packet out of the envelopes received (R545). -/
def Dev.takeEnvelope (d : Dev) (origin seq : Nat) (priv : Bool) (ws : List Word) : Dev :=
  { d with tlb := { d.tlb with envIn := d.tlb.envIn.filter (fun e =>
      !(e.origin == origin && e.seq == seq && e.priv == priv && e.words == ws)) } }

/-- Take the packet's words off its command queue when they stand at its front; answers the marks of the words taken. -/
def Dev.takeWords (d : Dev) (p : Packet) (opcode : Nat) : Dev × List EccMark :=
  match queueOf p.origin with
  | none =>
    (match p.origin with
      | .hackney c => d.takePort c.val (packetWords p opcode)
      | .backbone o seq pr => d.takeEnvelope o seq.toNat pr (packetWords p opcode)
      | _ => d, [])
  | some q =>
    let h := d.hostSet p.origin
    let qu := h.queue q
    let ws := packetWords p opcode
    if (qu.words.take ws.length).map (·.1) = ws then
      let marks := (qu.words.take ws.length).map (·.2)
      let corr := (marks.filter (· == .corr)).length
      let bad := (marks.filter (· == .uncorr)).length
      (d.setHostSet p.origin (h.setQueue q { qu with
          words := qu.words.drop ws.length,
          corrCnt := satU 16 (qu.corrCnt + corr), uncorrCnt := satU 16 (qu.uncorrCnt + bad) }), marks)
    else (d, [])

/-- The checks of R533 and the states in which Farrier answers BUSY (R500, R575); none when the command may run. -/
def Dev.precheck (d : Dev) (g : Grade) (spec : CmdSpec) (p : Packet) : Option Res :=
  let ps := p.params.map BitVec.toNat
  let limit := match p.origin with
    | .backbone _ _ _ => 367
    | _ => 1024
  if p.rsv % 4 != 0 then some (.badParam 0)
  else if p.tag.toNat ≥ 0xFFFF_FFF0 then some (.badParam 1)
  else if spec.plainOnly p.origin then some .plainOnly
  else if spec.priv && !d.privileged p.origin then some .denied
  else if !spec.fitted g ps then some .notFitted
  else match spec.need ps with
    | some n => some (.badLength n)
    | none =>
      if spec.replyLen ps > limit then some (.tooLong (spec.replyLen ps))
      else if !spec.always && d.r Reg.GLB_BOOT_FAIL_STAGE != 0 then some .busy
      else if !spec.always && d.r Reg.PAIR_STAT_STATE == 3 && standbyRefuses spec.opcode then some .busy
      else none
where
  /-- On a standby, commands that change the state of the groups 0x2xx … 0x8xx and 0xAxx … 0xCxx answer BUSY (R500). -/
  standbyRefuses (op : Nat) : Bool :=
    stateChanging.contains op
  stateChanging : List Nat :=
    [0x201, 0x202, 0x203, 0x301, 0x302, 0x303, 0x304, 0x305, 0x306, 0x307, 0x308, 0x30A, 0x361, 0x362, 0x364,
     0x401, 0x402, 0x403, 0x404, 0x406, 0x407, 0x504, 0x505, 0x601, 0x602, 0x603, 0x605,
     0x701, 0x702, 0x706, 0x707, 0x803, 0x804, 0x806,
     0xA01, 0xA02, 0xA03, 0xA04, 0xA06, 0xA21, 0xB08, 0xB09, 0xB10, 0xB11, 0xC02, 0xC03, 0xC04]

/-- Farrier executes a packet (R525 … R537): take its words, make the checks of R533, run the command and answer. `body`
answers none when the command waits for an event; it then has made its own entry among the outstanding packets. -/
def Dev.runPacketW (d : Dev) (g : Grade) (spec : CmdSpec) (p : Packet) (body : Dev → List Nat → Dev × Option Res) :
    Dev :=
  if !d.canTake p then d
  else
    let (d1, marks) := d.takeWords p spec.opcode
    if marks.getD 1 .good == .uncorr then d1.answer p.origin spec.opcode 0xFFFF_FFFE#32 false .eccErr
    else if marks.contains .uncorr then d1.answer p.origin spec.opcode p.tag false .eccErr
    else
      match d1.precheck g spec p with
      | some res =>
        (if res.status == 3 then d1.countViolation p.origin else d1).answer p.origin spec.opcode p.tag p.quietOk res
      | none =>
        match body d1 (p.params.map BitVec.toNat) with
        | (d2, some res) => d2.answer p.origin spec.opcode p.tag p.quietOk res
        | (d2, none) => d2

/-- Farrier executes a packet that answers at once. -/
def Dev.runPacket (d : Dev) (g : Grade) (spec : CmdSpec) (p : Packet) (body : Dev → List Nat → Dev × Res) : Dev :=
  d.runPacketW g spec p (fun d ps => ((body d ps).1, some (body d ps).2))

/-- Put a packet among the outstanding ones (R536). -/
def Dev.wait (d : Dev) (spec : CmdSpec) (p : Packet) (key aux : Nat) : Dev :=
  { d with host := { d.host with outstanding := d.host.outstanding ++
      [⟨p.origin, spec.opcode, p.tag, p.quietOk, key, aux, false⟩] } }

/-- Answer an outstanding packet under an opcode, unless its queue was reset meanwhile (R529). -/
def Dev.answerOut (d : Dev) (x : Outstanding) (opcode : Nat) (res : Res) : Dev :=
  if x.dropped then d else d.answer x.origin opcode x.tag x.quietOk res

/-- Answer every outstanding packet with this opcode and key, and drop it from the list. -/
def Dev.settle (d : Dev) (opcode key : Nat) (res : Res) : Dev :=
  let hit := d.host.outstanding.filter (fun x => x.opcode == opcode && x.key == key)
  let d1 := { d with host := { d.host with
    outstanding := d.host.outstanding.filter (fun x => !(x.opcode == opcode && x.key == key)) } }
  d1.each hit (fun x d => d.answerOut x x.opcode res)

/-! ### Host paths and notices -/

/-- The rights of a register access path (R517). -/
def Dev.pathPriv (d : Dev) : Path → Bool
  | .pf1 => true
  | .pf0 => false
  | .spi asked => asked && d.b Reg.GLB_HOST_CFG_SPI_PRIV

/-- Count one refused register access (R11, R518). -/
def Dev.countPath (d : Dev) : Path → Dev
  | .pf0 => d.inc Reg.PRIV_VIOL_CNT_PF0
  | .pf1 => d
  | .spi _ => d.inc Reg.PRIV_VIOL_CNT_OTHER

/-- A path reaches the device: PCI Express unless its endpoint is held in reset (R596), SPI when it is enabled (R541). -/
def Dev.pathOpen (d : Dev) : Path → Bool
  | .spi _ => d.b Reg.GLB_HOST_CFG_SPI_EN
  | _ => !d.host.perst

/-- A register access that a path makes: refused and counted where the register is privileged and the path is not (R11), ignored where
the grade lacks the instance (R3). -/
def Dev.access (d : Dev) (path : Path) (priv present : Bool) (f : Dev → Dev) : Dev :=
  if !d.pathOpen path then d
  else if priv && !d.pathPriv path then d.countPath path
  else if present then f d else d

/-- Free words of a queue (R522). -/
def HQueue.free (q : HQueue) : Nat := 1024 - q.words.length

/-- Pop the front word (R523), which reads back as `m` says (R527): the queue after it and the word. -/
def HQueue.popOne (x : HQueue) (m : EccMark) : HQueue × Word :=
  match x.words with
  | [] => (x, 0xFFFF_FFFF#32)
  | (w, _) :: r =>
    let left := if x.headLeft = 0 then w.toNat % 2 ^ 16 - 1 else x.headLeft - 1
    ({ x with words := r, headLeft := left,
              corrCnt := if m == .corr then satU 16 (x.corrCnt + 1) else x.corrCnt,
              uncorrCnt := if m == .uncorr then satU 16 (x.uncorrCnt + 1) else x.uncorrCnt,
              uncorr := x.uncorr || m == .uncorr }, w)

/-- Pop `n` words after those that the read has brought already; at an empty queue the pop waits (R526). Answers the words of the
read once it is complete. -/
def HQueue.pop (x : HQueue) (got : List Word) (marks : List EccMark) : Nat → HQueue × Option (List Word)
  | 0 => ({ x with stall := none, got := [] }, some got)
  | n + 1 =>
    if x.words.isEmpty then ({ x with stall := some (n + 1), got := got }, none)
    else
      let (y, w) := x.popOne (marks.headD .good)
      HQueue.pop y (got ++ [w]) marks.tail n

/-- The trigger of vector 0 by queue `q` (R539): on the SPI set it is kept by queue, since reading the queue clears it (R541). -/
def Dev.queueTrigger (d : Dev) (o : Origin) (q : Nat) : Dev :=
  match o with
  | .spi _ _ => d.trigger o (8 + q)
  | _ => d.trigger o 0

/-- Put queue `q` of a source's set back; a rise of one of its flags triggers vector 0 (R539). -/
def Dev.putQueue (d : Dev) (o : Origin) (q : Nat) (x : HQueue) : Dev :=
  let h := d.hostSet o
  let y := h.queue q
  let d := d.setHostSet o (h.setQueue q x)
  if (x.overrun && !y.overrun) || (x.halted && !y.halted) || (x.stallExp && !y.stallExp) || (x.uncorr && !y.uncorr) ||
      (x.noticeLost && !y.noticeLost) then d.queueTrigger o q
  else d

/-- The words of a read go to the reader; over SPI they follow 0xA5 (R542). -/
def Dev.readerGets (d : Dev) (o : Origin) (ws : List Word) : Dev :=
  { d with host := { d.host with rsp := ws, spiByte := match o with
      | .spi _ _ => 0xA5
      | _ => d.host.spiByte } }

/-- A read of `n` words from reply queue `q` (R523, R526): its words go to the reader when all have arrived. -/
def Dev.popRead (d : Dev) (o : Origin) (q : Nat) (got : List Word) (marks : List EccMark) (n : Nat) : Dev :=
  let (x, res) := ((d.hostSet o).queue q).pop got marks n
  let d := d.putQueue o q x
  match res with
  | some ws => d.readerGets o ws
  | none => d

/-- Write the words of a whole reply or notice into reply queue `q` of a source's set: visible at once, with the trigger
of vector q (R525, R539); a pop that waits goes on. -/
def Dev.writeReply (d : Dev) (o : Origin) (q : Nat) (ws : List Word) : Dev :=
  let h := d.hostSet o
  let qu := h.queue q
  let d := (d.setHostSet o (h.setQueue q { qu with words := qu.words ++ ws.map (fun w => (w, EccMark.good)) })).trigger o q
  match qu.stall with
  | some n => d.popRead o q qu.got [] n
  | none => d

/-- A notice of R538 into reply queue 7: discarded with NOTICE_LOST when it does not fit; none leaves in D3hot (R520). -/
def Dev.notice (d : Dev) (o : Origin) (kind : Nat) (data : List Nat) : Dev :=
  let h := d.hostSet o
  let ws := Reply.words ⟨0x0FF, 0xFFFF_FFFF, 0, kind, data.map W⟩
  if h.d3hot then d
  else if ws.length ≤ (h.queue 7).free then d.writeReply o 7 ws
  else
    d.putQueue o 7 { h.queue 7 with noticeLost := true }

/-- The word of GLB_HEALTH. -/
def Dev.healthWord (d : Dev) : Nat :=
  d.r Reg.GLB_HEALTH_FAULT + d.r Reg.GLB_HEALTH_SAFE * 2 + d.r Reg.GLB_HEALTH_PAIR_CHANGE * 4 +
    d.r Reg.GLB_HEALTH_BRIDLE_CHANGE * 8 + d.r Reg.GLB_HEALTH_THERM * 16

/-- HEALTH_NOTICE (R538, R539): after a change of GLB_HEALTH, vector 1 and the health notice of every function that
enables it. -/
def Dev.withHealth (d : Dev) (f : Dev → Dev) : Dev :=
  let was := d.healthWord
  let d := f d
  let now := d.healthWord
  if now = was then d
  else
    d.each [Origin.pf1 0, .pf0 0, .spi 0 false] (fun o d =>
      let d := d.trigger o 1
      if (d.hostSet o).healthNotice then
        d.notice o 1 [now, loW (d.r Reg.EPK_NOW), hiW (d.r Reg.EPK_NOW)] else d)

/-- The FAULT_n pin is low (R571, R597). -/
def Dev.faultLow (d : Dev) : Bool :=
  !d.ep.committedOnce || d.r Reg.GLB_BOOT_FAIL_STAGE != 0 || d.r Reg.BRD_STAT_STATE == 4 ||
    d.r Reg.PDK_STAT_STATE == 3 || d.b Reg.GIRTH_STAT_THERM_CRIT ||
    [0, 1, 2, 3].any (fun g => d.b (Reg.FIO_GRP_STAT_FAULT g) && d.b (Reg.FIO_GRP_CFG_FAULT_PIN g))

/-- The SAFE_n pin is low (R597). -/
def Dev.safeLow (d : Dev) : Bool := d.r Reg.BRD_STAT_STATE != 3

/-- FAULT_n and SAFE_n follow their conditions (R571, R597); GLB_HEALTH shows them. -/
def Dev.pins (d : Dev) : Dev :=
  d.withHealth (fun d => (d.wb Reg.GLB_HEALTH_FAULT d.faultLow).wb Reg.GLB_HEALTH_SAFE d.safeLow)

/-- The engines stand still (R20, R500, R504, R509): while the device waits after a backward re-step, on a standby, during a
planned handover, and in a takeover before its rebase epoch. -/
def Dev.enginesStill (d : Dev) : Bool :=
  d.b Reg.EPK_STAT_RESTEP_WAIT || match d.r Reg.PAIR_STAT_STATE with
  | 3 => true
  | 5 => true
  | 4 => (d.pair.takeover.map (fun t => decide (d.r Reg.EPK_NOW < t.rebase))).getD true
  | _ => false

/-! ### Outcomes -/

/-- The next state with the device changed; grade and waiting commands stay. -/
def ok (s : State) (f : Grade → Dev → Dev) : Host.Outcome State Fault Refusal :=
  .next { s with dev := f s.grade s.dev }

end Sys2Proof.Machine
end

