-- ==== Sys2Proof/Machine/Time.lean ====
section
/-!
DEFINITION. Machine/Time.lean: the timebase counter, domain time, the servo, best-master selection and the PTP messages
of "Timebase, Timestamps and Domain Time" (R82 … R105).
-/
namespace Sys2Proof.Machine

/-! ### Domain time (R84 … R86) -/

/-- Domain time at a count under an anchor, in 2^-32 ns, truncated; the count is given in sixteenths of a ns after the
anchor (20 per count), so that port latencies can be taken off (R84, R98). -/
def anchorTime (a : Anchor) (q : Int) : Int := (a.d : Int) + q * (2 ^ 40 + a.r) / 2 ^ 12

/-- The newest anchor. -/
def Dev.anchor (d : Dev) : Anchor := d.time.anchors.headD ⟨0, 0, 0⟩

/-- The anchor that converts a count: the newest one not later than it. -/
def Dev.anchorOf (d : Dev) (c : Nat) : Anchor := (d.time.anchors.find? (fun a => a.c ≤ c)).getD d.anchor

/-- Domain time at count `c`, in 2^-32 ns (R84). -/
def Dev.timeAt (d : Dev) (c : Nat) : Nat :=
  let a := d.anchorOf c
  (anchorTime a (20 * ((c : Int) - a.c))).toNat

/-- Domain time now, in 2^-32 ns. -/
def Dev.now (d : Dev) : Nat := d.timeAt d.time.c

/-- Domain time now, whole ns. -/
def Dev.nowNs (d : Dev) : Nat := d.now / 2 ^ 32

/-- The first count whose domain time reaches `ns` under the newest anchor (R85, R87). -/
def Dev.countAt (d : Dev) (ns : Nat) : Nat :=
  let a := d.anchor
  a.c + cdiv ((ns * 2 ^ 32 - a.d) * 1024) (5 * (2 ^ 40 + a.r).toNat)

/-- The three reply words of a domain time (R104): low and high word of the whole ns, and the 16-bit fraction. -/
def timeWords (t : Nat) : List Nat := [loW (t / 2 ^ 32), hiW (t / 2 ^ 32), t / 2 ^ 16 % 2 ^ 16]

/-- Bring the counter forward to a count (time never runs back, R82). -/
def Dev.reach (d : Dev) (c : Nat) : Dev := { d with time := { d.time with c := max d.time.c c } }

/-! ### Time state (R88, R89) -/

/-- The state code of R88. -/
def Dev.tstate (d : Dev) : Nat := d.r Reg.TB_STATE_STATE

/-- Domain time is locked: LOCKED, HOLDOVER or GM (R88). -/
def Dev.locked (d : Dev) : Bool := d.b Reg.TB_STATE_LOCKED

/-- Enter a time state; LOCKED, HOLDOVER and GM are remembered (R90). -/
def Dev.enter (d : Dev) (st : Nat) : Dev :=
  let l := st == 2 || st == 3 || st == 5
  let d := (d.w Reg.TB_STATE_STATE st).wb Reg.TB_STATE_LOCKED l
  { d with time := { d.time with everLocked := d.time.everLocked || l } }

/-- The offset bound of R94, in ns. -/
def Dev.errEst (d : Dev) : Nat :=
  let base := d.r Reg.TB_PATH_ERR + cdiv (d.time.lastE.foldl max 0) (2 ^ 16)
  let st := d.tstate
  if st == 5 then 0
  else if st == 0 || st == 4 then 0xFFFF_FFFF
  else if st == 3 then
    satU 32 (base + cdiv (d.r Reg.TB_LIMITS_HOLDOVER_DRIFT * ((d.time.c - d.time.lastSyncC) * 5)) (4 * 1000000000))
  else satU 32 base

/-- The limit of r in R84. -/
def rateLimit : Int := 549755813

/-- Ask for a rate at the next rate point; a rate outside the limit is clamped and flagged (R85). -/
def Dev.setRate (d : Dev) (r : Int) : Dev :=
  let d := { d with time := { d.time with pendR := some (clampI (-rateLimit) rateLimit r) } }
  d.flagIf (decide (r < -rateLimit ∨ rateLimit < r)) Reg.TB_STATE_RATE_CLAMP

/-- The domain time of the next rate point: the next whole multiple of 15 625 ns (R85). -/
def Dev.ratePointNs (d : Dev) : Nat := (d.nowNs / 15625 + 1) * 15625

/-- The epoch period in ns (R17). -/
def Dev.te (d : Dev) : Nat := d.r Reg.EPK_CFG_K * 15625

/-- The boundary of the present epoch, ns. -/
def Dev.boundaryNs (d : Dev) : Nat := d.r Reg.EPK_ORIGIN + d.r Reg.EPK_NOW * d.te

/-- The 1 µs ticks of an epoch (R409, R470). -/
def Dev.ticksPerEpoch (d : Dev) : Nat := cdiv d.te 1000

/-- The number of the last 1 µs tick at or before count `c`; the grid restarts at every boundary (R409, R470). -/
def Dev.tickIndex (d : Dev) (c : Nat) : Nat :=
  if d.ep.placed then
    let off := d.timeAt c / 2 ^ 32 - d.r Reg.EPK_ORIGIN
    off / d.te * d.ticksPerEpoch + off % d.te / 1000
  else c / 800

/-- The count of the `n`-th 1 µs tick after a boundary at count `c`. -/
def Dev.tickAfter (d : Dev) (c n : Nat) : Nat :=
  if d.ep.placed then
    d.countAt (d.timeAt c / 2 ^ 32 + n / d.ticksPerEpoch * d.te + 1000 * (n % d.ticksPerEpoch))
  else c + 800 * n

/-- The epoch that holds the present domain time; meaningful once D ≥ T0 (R18). -/
def Dev.epochOfNow (d : Dev) : Nat := (d.nowNs - d.r Reg.EPK_ORIGIN) / d.te

/-- What a re-step does to the epochs (R20, R48): backward, the device waits for the epoch after the last committed
one; forward, the epochs skipped are held with cause re-step. -/
def Dev.epochsAfterRestep (d : Dev) : Dev :=
  if !d.ep.placed then d
  else
    let n := d.epochOfNow
    if d.ep.committedOnce && n ≤ d.ep.lastCommitted then
      ((d.flag Reg.EPK_STAT_RESTEP_WAIT).w Reg.EPK_NOW n).w Reg.EPK_STAT_RUNNING 0
    else
      let d := d.w Reg.EPK_STAT_RESTEP_WAIT 0
      let skips := d.ep.committedOnce && d.ep.lastCommitted + 1 < n
      let d := if skips then
          { d with ep := { d.ep with heldRun := some (d.ep.lastCommitted + 1, 2) } } else d
      d.w Reg.EPK_NOW n

/-- What the block does while no command waits: the counter counts once (R82); it stands still while nRST holds the module in
reset. -/
def Dev.idle (d : Dev) : Dev := if d.boot.nrstLow then d else d.reach (d.time.c + 1)

/-- RATE_POINT (R85, R86, R103): at the next multiple of 15 625 ns of domain time the pending step and the pending rate
take effect under a new anchor; D is continuous but for the step. Nothing pending: nothing changes but the time. -/
def Dev.ratePoint (d : Dev) : Dev :=
  let cx := max d.time.c (d.countAt d.ratePointNs)
  let d := d.reach cx
  if d.time.pendR == none && d.time.pendStep == none then d
  else
    let dx : Int := d.timeAt cx
    let dNew : Int := match d.time.pendStep with
      | none => dx
      | some (.by z) => dx + z
      | some (.to ns) => (ns : Int) * 2 ^ 32
    let rNew := d.time.pendR.getD d.anchor.r
    let stepped := d.time.pendStep.isSome
    let re := d.time.pendRestep
    let d := { d with time := { d.time with
      anchors := ((Anchor.mk cx dNew.toNat rNew) :: d.time.anchors).take 16,
      pendR := none, pendStep := none, pendRestep := false,
      newestE := if stepped then none else d.time.newestE } }
    let d := d.ws Reg.TB_RATE rNew
    if re then ((d.inc Reg.TB_RESTEP_CNT).flag Reg.TB_STATE_RESTEPPED).epochsAfterRestep else d

/-- Meaning of RATE_POINT. -/
def execRatePoint (s : State) : Host.Outcome State Fault Refusal := ok s (fun _ d => d.ratePoint)

/-! ### Ports and messages (R95 … R100) -/

/-- PTP port `p` (0 … 3). -/
def Dev.ptp (d : Dev) (p : Nat) : PtpPort := Tab.look {} p d.time.ports

/-- Change PTP port `p`. -/
def Dev.setPtp (d : Dev) (p : Nat) (x : PtpPort) : Dev := { d with time := { d.time with ports := Tab.put p x d.time.ports } }

/-- The other port of the same network: 0 and 1 are network A, 2 and 3 network B (R95). -/
def twinPort (p : Nat) : Nat := if p % 2 = 0 then p + 1 else p - 1

/-- The link of a backbone port. -/
def Dev.portLink (d : Dev) (p : Nat) : Bool := d.b (Reg.TLB_PORT_STAT_LINK p)

/-- Send a message on a port. -/
def Dev.ptpSend (d : Dev) (p : Nat) (m : PtpMsg) : Dev := { d with time := { d.time with tx := d.time.tx ++ [⟨p, m⟩] } }

/-- The header and domain checks of R96, with the TLVs counted; false when the message is dropped. Nothing is taken before boot
stage CFG has started the timebase servo (R572). -/
def Dev.ptpAccept (d : Dev) (m : PtpMsg) : Dev × Bool :=
  if !d.boot.servo then (d, false)
  else
  let d := d.add Reg.TB_TLV_IGN m.tlvs
  if m.version == 2 && m.domain == d.r Reg.TB_PTP_CFG_DOMAIN && !m.unicast then (d, true)
  else (d.inc Reg.TB_PTP_IGN, false)

/-- A span of sixteenths of a ns on the counter, in 2^-16 ns of domain time under the present rate (R99). -/
def Dev.spanTime (d : Dev) (q : Int) : Int := q * (2 ^ 40 + d.anchor.r) / 2 ^ 28

/-- The span from ingress count `ci` on port `pi` to egress count `co` on port `po`, latencies corrected, in sixteenths
of a ns (R98). -/
def Dev.span (d : Dev) (pi ci po co : Nat) : Int :=
  20 * ((co : Int) - ci) + d.r (Reg.PORT_LAT_RX_LAT pi) + d.r (Reg.PORT_LAT_TX_LAT po)

/-- Forward a message unchanged to the other port of the network, both ports usable (R95, R98). -/
def Dev.ptpForward (d : Dev) (p : Nat) (m : PtpMsg) : Dev :=
  if d.b (Reg.PORT_STAT_AS_CAPABLE p) && d.b (Reg.PORT_STAT_AS_CAPABLE (twinPort p)) then d.ptpSend (twinPort p) m
  else d

/-! ### Best-master selection (R97) -/

/-- Lexicographic comparison of two priority vectors: the first is better. -/
def better : List Nat → List Nat → Bool
  | [], [] => false
  | [], _ => true
  | _, [] => false
  | x :: a, y :: b => if x < y then true else if y < x then false else better a b

/-- This device's own priority vector: priority1, clockClass (255 when SLAVE_ONLY), accuracy, variance, priority2 and
identity (R96). -/
def Dev.ownVector (d : Dev) : List Nat :=
  [d.r Reg.TB_PTP_PRIO_PRIORITY1,
   if d.b Reg.TB_PTP_CFG_SLAVE_ONLY then 255 else d.r Reg.TB_PTP_PRIO_CLOCK_CLASS,
   d.r Reg.TB_PTP_PRIO_CLOCK_ACCURACY, Config.ownVariance, d.r Reg.TB_PTP_PRIO_PRIORITY2, d.r Reg.TB_CLOCK_ID]

/-- The better of two ports by their Announce, then fewer steps, then the lower port number (R97). -/
def Dev.betterPort (d : Dev) (p q : Nat) : Bool :=
  match (d.ptp p).foreign, (d.ptp q).foreign with
  | some f, some h => better (f.vector ++ [f.steps, p]) (h.vector ++ [h.steps, q])
  | some _, none => true
  | _, _ => false

/-- The best port of a network that hears a master and is usable for time. -/
def Dev.netBest (d : Dev) (net : Nat) : Option Nat :=
  let cand := [2 * net, 2 * net + 1].filter
    (fun p => (d.ptp p).foreign.isSome && d.b (Reg.PORT_STAT_AS_CAPABLE p))
  match cand with
  | [] => none
  | [p] => some p
  | p :: q :: _ => some (if d.betterPort p q then p else q)

/-- The port of the master that the device would follow: network NET_PREF while it has one, else the other (R97). -/
def Dev.bestPort (d : Dev) : Option Nat :=
  let pref := d.r Reg.TB_PTP_CFG_NET_PREF
  match d.netBest pref with
  | some p => some p
  | none => d.netBest (1 - pref)

/-- The master on a port is better than this device. -/
def Dev.foreignWins (d : Dev) (p : Nat) : Bool :=
  match (d.ptp p).foreign with
  | some f => better f.vector d.ownVector
  | none => false

/-- The roles that PORT_STAT shows: disabled without link; in GM_SETTLE and GM master; else the slave port, its twin
master, the other network passive. -/
def Dev.showRoles (d : Dev) : Dev :=
  d.each [0, 1, 2, 3] (fun p d =>
    let gm := d.tstate == 4 || d.tstate == 5
    let role :=
      if !d.portLink p then 0
      else if gm then 1
      else match d.time.slavePort with
        | some q => if p = q then 2 else if p = twinPort q then 1 else 3
        | none => 3
    d.w (Reg.PORT_STAT_ROLE p) role)

/-- BEST_MASTER_SELECT (R89, R97): choose slave port and grandmaster, with the state changes that follow. -/
def Dev.bestMaster (d : Dev) : Dev :=
  let st := d.tstate
  let d := match d.bestPort with
    | some p =>
      if d.foreignWins p then
        let d := { d with time := { d.time with slavePort := some p } }
        let d := match (d.ptp p).foreign with
          | some f => d.w Reg.TB_GM_ID f.gmId
          | none => d
        if st == 4 then d.enter 0 else if st == 5 then d.enter 2 else d
      else selfSelected d st
    | none => selfSelected d st
  d.showRoles
where
  /-- Selection picks this device: FREE enters GM_SETTLE, HOLDOVER becomes GM at once (R89, R90). -/
  selfSelected (d : Dev) (st : Nat) : Dev :=
    let d := { d with time := { d.time with slavePort := none } }
    if d.b Reg.TB_PTP_CFG_SLAVE_ONLY then d
    else if st == 0 && !d.time.everLocked then
      ({ d with time := { d.time with settleCnt := 0 } }).enter 4
    else if st == 3 then (d.enter 5).w Reg.TB_GM_ID (d.r Reg.TB_CLOCK_ID)
    else d

/-! ### Sync and the servo (R92) -/

/-- The Sync interval in ns for a logarithm of seconds. -/
def syncNs (l : Int) : Nat := if l < 0 then 1000000000 / 2 ^ l.natAbs else 1000000000 * 2 ^ l.natAbs

/-- The offset e of R92 in 2^-16 ns. -/
def Dev.offsetOf (d : Dev) (p : Nat) (m : PtpMsg) (cMac : Nat) : Int :=
  let a := d.anchorOf cMac
  let q : Int := 20 * ((cMac : Int) - a.c) - d.r (Reg.PORT_LAT_RX_LAT p)
  anchorTime a q / 2 ^ 16 -
    ((m.ts : Int) * 2 ^ 16 + m.corr + d.r (Reg.PORT_LINK_DELAY p) + d.rs (Reg.PORT_ASYM p))

/-- SERVO_UPDATE (R92): the integral and the rate for the next rate point. -/
def Dev.servo (d : Dev) (e : Int) (s : Nat) : Dev :=
  let u := (-e * 2 ^ 40) / ((2 ^ 16 * s : Nat) : Int)
  let ri := d.time.ri + ashr u (d.r Reg.TB_SERVO_KI_SHIFT)
  let d := { d with time := { d.time with ri := ri } }
  d.setRate (ri + ashr u (d.r Reg.TB_SERVO_KP_SHIFT))

/-- R90: four consecutive Syncs with |e| ≥ UNLOCK_NS set OUT_OF_BOUND. -/
def Dev.boundCount (d : Dev) (out : Bool) : Dev :=
  let run := if out then d.time.boundRun + 1 else 0
  let d := { d with time := { d.time with boundRun := run } }
  d.flagIf (decide (run ≥ 4)) Reg.TB_STATE_OUT_OF_BOUND

/-- A valid Sync on the slave port (R89, R90, R92). -/
def Dev.useSync (d : Dev) (m : PtpMsg) (e : Int) (cMac : Nat) : Dev :=
  let st := d.tstate
  let ae := e.natAbs
  let d := d.ws Reg.TB_OFFS_ERR (satS 32 (e / 2 ^ 16))
  let d := { d with time := { d.time with
    lastE := (ae :: d.time.lastE).take 4, newestE := some e, lastSyncC := cMac } }
  let s := syncNs m.logInterval
  let inLock := decide (ae < d.r Reg.TB_SERVO_LOCK_NS * 2 ^ 16)
  let ovr := decide (ae ≥ d.r Reg.TB_LIMITS_UNLOCK_NS * 2 ^ 16)
  match st with
  | 0 =>
    ({ d with time := { d.time with pendStep := some (.by (-e * 2 ^ 16)), lockRun := 0 } }).enter 1
  | 1 =>
    let d := d.servo e s
    let run := if inLock then d.time.lockRun + 1 else 0
    let d := { d with time := { d.time with lockRun := run } }
    if run ≥ d.r Reg.TB_SERVO_LOCK_N then d.enter 2 else d
  | 2 => (d.servo e s).boundCount ovr
  | 3 => ((d.servo e s).boundCount ovr).enter 2
  | _ => d

/-- SYNC_FORWARD (R99): to the other port of the network, the correction updated on the fly, saturating. -/
def Dev.forwardSync (d : Dev) (p : Nat) (m : PtpMsg) (cMac cOut : Nat) : Dev :=
  let corr := m.corr + d.r (Reg.PORT_LINK_DELAY p) + d.rs (Reg.PORT_ASYM p) +
    d.spanTime (d.span p cMac (twinPort p) cOut)
  d.ptpForward p { m with corr := min corr 0x7FFF_FFFF_FFFF_FFFF }

/-- SYNC_RECEIVE (R92, R95 … R100) on port `p`, at MAC count `cMac`, forwarded at MAC count `cOut`. -/
def Dev.syncReceive (d : Dev) (p : Nat) (m : PtpMsg) (cMac cOut : Nat) : Dev :=
  let d := d.reach cMac
  let (d, good) := d.ptpAccept m
  if !good then d
  else if m.twoStep then d.inc Reg.TB_PTP_IGN
  else
    let net := p / 2
    let key := (m.srcId, m.srcPort, m.seq)
    let seen := Tab.look [] net d.time.fwd
    if seen.contains key then d.inc Reg.TB_PTP_DUP
    else
      let cap := d.b (Reg.PORT_STAT_AS_CAPABLE p)
      let fromMaster := match (d.ptp p).foreign with
        | some f => f.srcId == m.srcId
        | none => false
      let use := cap && d.time.slavePort == some p && fromMaster
      let e := d.offsetOf p m cMac
      let d := if use then d.useSync m e cMac else d
      if cap && d.b (Reg.PORT_STAT_AS_CAPABLE (twinPort p)) then
        let d := d.forwardSync p m cMac cOut
        { d with time := { d.time with fwd := Tab.put net ((key :: seen).take 8) d.time.fwd } }
      else d

/-- Meaning of SYNC_RECEIVE. -/
def execSyncReceive (p : Fin 4) (m : PtpMsg) (cMac cOut : Nat) (s : State) : Host.Outcome State Fault Refusal :=
  ok s (fun _ d => d.syncReceive p.val m cMac cOut)

/-- SYNC_TIMEOUT (R89): SLEW falls back to FREE with r 0, LOCKED goes to HOLDOVER with r frozen. -/
def Dev.syncTimeout (d : Dev) : Dev :=
  match d.tstate with
  | 1 => ((d.enter 0).setRate 0).bestMaster
  | 2 => d.enter 3
  | _ => d

/-- Meaning of SYNC_TIMEOUT. -/
def execSyncTimeout (s : State) : Host.Outcome State Fault Refusal := ok s (fun _ d => d.syncTimeout)

/-- ANNOUNCE_RECEIVE (R95 … R97): the master heard on the port is kept, selection runs, and the message goes on. -/
def Dev.announceReceive (d : Dev) (p : Nat) (m : PtpMsg) : Dev :=
  let (d, good) := d.ptpAccept m
  if !good then d
  else
    let f : Foreign := ⟨[m.priority1, m.clockClass, m.accuracy, m.variance, m.priority2, m.gmId],
      m.gmId, m.steps, m.srcId, m.srcPort⟩
    let own := m.gmId == d.r Reg.TB_CLOCK_ID
    let d := if own then d else (d.setPtp p { d.ptp p with foreign := some f }).bestMaster
    d.ptpForward p m

/-- Meaning of ANNOUNCE_RECEIVE. -/
def execAnnounceReceive (p : Fin 4) (m : PtpMsg) (s : State) : Host.Outcome State Fault Refusal :=
  ok s (fun _ d => d.announceReceive p.val m)

/-- ANNOUNCE_TIMEOUT (R97): no Announce on the port for ANN_TIMEOUT intervals; the master there is forgotten and
selection runs. -/
def Dev.announceTimeout (d : Dev) (p : Nat) : Dev :=
  if d.boot.servo then (d.setPtp p { d.ptp p with foreign := none }).bestMaster else d

/-- Meaning of ANNOUNCE_TIMEOUT. -/
def execAnnounceTimeout (p : Fin 4) (s : State) : Host.Outcome State Fault Refusal :=
  ok s (fun _ d => d.announceTimeout p.val)

/-- GM_SETTLE_END (R89): with a seed written, D_A steps to the seed at a rate point and the device is grandmaster. -/
def Dev.gmSettleEnd (d : Dev) : Dev :=
  match d.tstate, d.time.seed with
  | 4, some ns =>
    let d := { d with time := { d.time with pendStep := some (.to ns) } }
    ((d.enter 5).w Reg.TB_GM_ID (d.r Reg.TB_CLOCK_ID)).showRoles
  | _, _ => d

/-- Meaning of GM_SETTLE_END. -/
def execGmSettleEnd (s : State) : Host.Outcome State Fault Refusal := ok s (fun _ d => d.gmSettleEnd)

/-- The header that the device sends (R96). -/
def Dev.ptpHeader (d : Dev) (p kind seq : Nat) (logInterval : Int) : PtpMsg :=
  { version := 2, domain := d.r Reg.TB_PTP_CFG_DOMAIN, srcId := d.r Reg.TB_CLOCK_ID, srcPort := p + 1, seq := seq,
    kind := kind, logInterval := logInterval }

/-- SYNC_SEND (R95): as grandmaster, a one-step Sync with the domain time of its egress on every port with a link. -/
def Dev.syncSend (d : Dev) : Dev :=
  if d.tstate != 5 then d
  else d.each ([0, 1, 2, 3].filter d.portLink) (fun p d =>
    let pt := d.ptp p
    let a := d.anchor
    let t := anchorTime a (20 * ((d.time.c : Int) - a.c) + d.r (Reg.PORT_LAT_TX_LAT p))
    let m := d.ptpHeader p 0 pt.seqSync (d.rs Reg.TB_PTP_CFG_LOG_SYNC)
    (d.ptpSend p { m with ts := (t / 2 ^ 32).toNat, corr := t / 2 ^ 16 % 2 ^ 16 }).setPtp p
      { pt with seqSync := (pt.seqSync + 1) % 2 ^ 16 })

/-- Meaning of SYNC_SEND. -/
def execSyncSend (s : State) : Host.Outcome State Fault Refusal := ok s (fun _ d => d.syncSend)

/-- ANNOUNCE_SEND (R95): in GM_SETTLE and GM, an Announce with TB_PTP_PRIO on every port with a link; the intervals in
GM_SETTLE are counted (R89). -/
def Dev.announceSend (d : Dev) : Dev :=
  if d.tstate != 4 && d.tstate != 5 then d
  else
    let d := if d.tstate == 4 then { d with time := { d.time with settleCnt := d.time.settleCnt + 1 } } else d
    d.each ([0, 1, 2, 3].filter d.portLink) (fun p d =>
      let pt := d.ptp p
      let m := d.ptpHeader p 0xB pt.seqAnn (d.rs Reg.TB_PTP_CFG_LOG_ANN)
      (d.ptpSend p { m with
        priority1 := d.r Reg.TB_PTP_PRIO_PRIORITY1, clockClass := d.ownVector.getD 1 0,
        accuracy := d.r Reg.TB_PTP_PRIO_CLOCK_ACCURACY, variance := Config.ownVariance,
        priority2 := d.r Reg.TB_PTP_PRIO_PRIORITY2, gmId := d.r Reg.TB_CLOCK_ID, steps := 0 }).setPtp p
        { pt with seqAnn := (pt.seqAnn + 1) % 2 ^ 16 })

/-- Meaning of ANNOUNCE_SEND. -/
def execAnnounceSend (s : State) : Host.Outcome State Fault Refusal := ok s (fun _ d => d.announceSend)

/-- PDELAY_REQ_SEND (R95, R98): a Pdelay_Req leaves a port; its egress count is kept until the answer. -/
def Dev.pdelayReqSend (d : Dev) (p : Nat) : Dev :=
  if !d.portLink p then d
  else
    let pt := d.ptp p
    let m := d.ptpHeader p 2 pt.seqPdelay (d.rs Reg.TB_PTP_CFG_LOG_PDELAY)
    (d.ptpSend p m).setPtp p { pt with
      req := some (pt.seqPdelay, d.time.c), twoStep := none, seqPdelay := (pt.seqPdelay + 1) % 2 ^ 16 }

/-- Meaning of PDELAY_REQ_SEND. -/
def execPdelayReqSend (p : Fin 4) (s : State) : Host.Outcome State Fault Refusal :=
  ok s (fun _ d => d.pdelayReqSend p.val)

/-- PDELAY_REQ_RECEIVE (R95, R96): answered on the port by a one-step Pdelay_Resp that carries the turnaround time. -/
def Dev.pdelayReqReceive (d : Dev) (p : Nat) (m : PtpMsg) (cMac cOut : Nat) : Dev :=
  let d := d.reach cMac
  let (d, good) := d.ptpAccept m
  if !good then d
  else
    let h := d.ptpHeader p 3 m.seq 0x7F
    d.ptpSend p { h with
      corr := m.corr + d.spanTime (d.span p cMac p cOut), reqId := m.srcId, reqPort := m.srcPort }

/-- Meaning of PDELAY_REQ_RECEIVE. -/
def execPdelayReqReceive (p : Fin 4) (m : PtpMsg) (cMac cOut : Nat) (s : State) :
    Host.Outcome State Fault Refusal := ok s (fun _ d => d.pdelayReqReceive p.val m cMac cOut)

/-- A completed peer delay measurement, in 2^-16 ns (R98): the mean of the last 16 valid ones, or DELAY_HIGH. -/
def Dev.pdelayDone (d : Dev) (p : Nat) (meas : Int) : Dev :=
  let pt := { d.ptp p with req := none, twoStep := none }
  if meas > (d.r (Reg.TB_PDELAY_MAX p) : Int) * 2 ^ 16 then
    (((d.setPtp p pt).wb (Reg.PORT_STAT_AS_CAPABLE p) false).flag (Reg.PORT_STAT_DELAY_HIGH p)).bestMaster
  else
    let ds := (meas.toNat :: pt.delays).take 16
    let mean := ds.foldl (· + ·) 0 / ds.length
    ((((d.setPtp p { pt with delays := ds }).w (Reg.PORT_LINK_DELAY p) (satU 32 mean)).wb
      (Reg.PORT_STAT_AS_CAPABLE p) true)).showRoles

/-- The answer matches the port's outstanding request. -/
def Dev.pdelayMatches (d : Dev) (p : Nat) (m : PtpMsg) : Bool :=
  match (d.ptp p).req with
  | some (seq, _) => seq == m.seq && m.reqId == d.r Reg.TB_CLOCK_ID && m.reqPort == p + 1
  | none => false

/-- PDELAY_RESP_RECEIVE (R95, R98): a one-step answer completes the measurement; a two-step one waits for its
follow-up. -/
def Dev.pdelayRespReceive (d : Dev) (p : Nat) (m : PtpMsg) (cMac : Nat) : Dev :=
  let d := d.reach cMac
  let (d, good) := d.ptpAccept m
  if !good then d
  else if !d.pdelayMatches p m then d.inc Reg.TB_PTP_IGN
  else
    let sent := ((d.ptp p).req.getD (0, 0)).2
    if m.twoStep then d.setPtp p { d.ptp p with twoStep := some (cMac, m.ts, m.corr) }
    else
      let trip := d.spanTime (20 * ((cMac : Int) - sent) - d.r (Reg.PORT_LAT_RX_LAT p) - d.r (Reg.PORT_LAT_TX_LAT p))
      d.pdelayDone p ((trip - m.corr) / 2)

/-- Meaning of PDELAY_RESP_RECEIVE. -/
def execPdelayRespReceive (p : Fin 4) (m : PtpMsg) (cMac : Nat) (s : State) : Host.Outcome State Fault Refusal :=
  ok s (fun _ d => d.pdelayRespReceive p.val m cMac)

/-- PDELAY_RESP_FOLLOW_UP_RECEIVE (R95, R98): completes a two-step measurement. -/
def Dev.pdelayFollowUp (d : Dev) (p : Nat) (m : PtpMsg) : Dev :=
  let (d, good) := d.ptpAccept m
  if !good then d
  else
    match d.pdelayMatches p m, (d.ptp p).twoStep with
    | true, some (cMac, t2, corr1) =>
      let sent := ((d.ptp p).req.getD (0, 0)).2
      let trip := d.spanTime (20 * ((cMac : Int) - sent) - d.r (Reg.PORT_LAT_RX_LAT p) - d.r (Reg.PORT_LAT_TX_LAT p))
      d.pdelayDone p ((trip - (((m.ts : Int) - t2) * 2 ^ 16 + corr1 + m.corr)) / 2)
    | _, _ => d.inc Reg.TB_PTP_IGN

/-- Meaning of PDELAY_RESP_FOLLOW_UP_RECEIVE. -/
def execPdelayRespFollowUpReceive (p : Fin 4) (m : PtpMsg) (s : State) : Host.Outcome State Fault Refusal :=
  ok s (fun _ d => d.pdelayFollowUp p.val m)

/-- PTP_OTHER_RECEIVE (R95): Delay_Req, Follow_Up and Delay_Resp are ignored, Signaling and Management go on unchanged,
reserved types are dropped; all are counted, since none is used. -/
def Dev.ptpOther (d : Dev) (p : Nat) (m : PtpMsg) : Dev :=
  let (d, good) := d.ptpAccept m
  if !good then d
  else
    let d := d.inc Reg.TB_PTP_IGN
    if m.kind == 0xC || m.kind == 0xD then d.ptpForward p m else d

/-- Meaning of PTP_OTHER_RECEIVE. -/
def execPtpOtherReceive (p : Fin 4) (m : PtpMsg) (s : State) : Host.Outcome State Fault Refusal :=
  ok s (fun _ d => d.ptpOther p.val m)

/-! ### Time commands (R103 … R105) -/

/-- The word of TB_STATE. -/
def Dev.tbStateWord (d : Dev) : Nat :=
  d.r Reg.TB_STATE_RESTEPPED * 64 + d.r Reg.TB_STATE_OUT_OF_BOUND * 32 + d.r Reg.TB_STATE_RATE_CLAMP * 16 +
    d.r Reg.TB_STATE_LOCKED * 8 + d.r Reg.TB_STATE_STATE

/-- Meaning of TIME_INFO (R104). -/
def execTimeInfo (p : Packet) (s : State) : Host.Outcome State Fault Refusal :=
  ok s (fun g d => d.runPacket g { opcode := 0x900, need := needN 0 } p (fun d _ =>
    (d, .ok ([d.tbStateWord] ++ timeWords d.now ++ [loW d.time.c, hiW d.time.c, d.r Reg.TB_RATE,
      d.r Reg.TB_OFFS_ERR, d.errEst]))))

/-- TIME_SEED (R91, R105). -/
def Dev.timeSeed (d : Dev) (ns : Nat) : Dev × Res :=
  if d.tstate != 0 && d.tstate != 4 then (d, .busy)
  else if ns < d.r Reg.TB_SEED_FLOOR then (d, .badParam 0)
  else ({ d with time := { d.time with seed := some ns } }, .ok [])

/-- Meaning of TIME_SEED. -/
def execTimeSeed (p : Packet) (s : State) : Host.Outcome State Fault Refusal :=
  ok s (fun g d => d.runPacket g { opcode := 0x901, priv := true, need := needN 2 } p (fun d ps =>
    d.timeSeed (pair64 (ps.getD 0 0) (ps.getD 1 0))))

/-- TIME_RESTEP (R103, R105): mode 0 steps by −e of the newest valid Sync, mode 1 in GM to the given value. -/
def Dev.timeRestep (d : Dev) (mode : Nat) (ns : Nat) : Dev × Res :=
  let at' := d.countAt d.ratePointNs
  let accept (st : TimeStep) (stepNs : Int) : Dev × Res :=
    ({ d with time := { d.time with pendStep := some st, pendRestep := true } },
      .ok [loW (un 64 stepNs), hiW (un 64 stepNs), loW at', hiW at'])
  if d.time.pendRestep then (d, .busy)
  else if mode == 0 && (d.tstate == 2 || d.tstate == 3) then
    match d.time.newestE with
    | some e => accept (.by (-e * 2 ^ 16)) (-e / 2 ^ 16)
    | none => (d, .busy)
  else if mode == 1 && d.tstate == 5 then accept (.to ns) ((ns : Int) - (d.timeAt at' / 2 ^ 32 : Nat))
  else (d, .busy)

/-- Meaning of TIME_RESTEP. -/
def execTimeRestep (p : Packet) (s : State) : Host.Outcome State Fault Refusal :=
  ok s (fun g d => d.runPacket g
    { opcode := 0x902, priv := true, need := fun ps => if ps.getD 0 0 = 1 then needN 3 ps else needN 1 ps } p
    (fun d ps => d.timeRestep (ps.getD 0 0) (pair64 (ps.getD 1 0) (ps.getD 2 0))))

/-- Meaning of PTP_STATUS (R104). -/
def execPtpStatus (p : Packet) (s : State) : Host.Outcome State Fault Refusal :=
  ok s (fun g d => d.runPacket g { opcode := 0x903, need := needN 1 } p (fun d ps =>
    let n := ps.getD 0 0
    if n ≥ 4 then (d, .badParam 2)
    else (d, .ok [d.r (Reg.PORT_STAT_DELAY_HIGH n) * 8 + d.r (Reg.PORT_STAT_AS_CAPABLE n) * 4 +
        d.r (Reg.PORT_STAT_ROLE n), d.r (Reg.PORT_LINK_DELAY n), loW (d.r Reg.TB_GM_ID), hiW (d.r Reg.TB_GM_ID),
      d.r Reg.TB_RESTEP_CNT, d.r Reg.TB_PTP_IGN, d.r Reg.TB_PTP_DUP, d.r Reg.TB_TLV_IGN])))

/-- TIME_CONVERT (R105): a count between the oldest kept anchor and the present count. -/
def Dev.timeConvert (d : Dev) (c : Nat) : Res :=
  let oldest := (d.time.anchors.getLast?.getD ⟨0, 0, 0⟩).c
  if c < oldest || d.time.c < c then .badParam 0 else .ok (timeWords (d.timeAt c))

/-- Meaning of TIME_CONVERT. -/
def execTimeConvert (p : Packet) (s : State) : Host.Outcome State Fault Refusal :=
  ok s (fun g d => d.runPacket g { opcode := 0x904, need := needN 2 } p (fun d ps =>
    (d, d.timeConvert (pair64 (ps.getD 0 0) (ps.getD 1 0)))))

/-- DOMAIN_TIME_READ (R84): a read of TB_DT_LO computes D and latches TB_DT_HI and TB_DT_FRAC. -/
def Dev.readTime (d : Dev) : Dev × Nat :=
  let t := d.now
  ({ d with time := { d.time with dtHi := hiW (t / 2 ^ 32), dtFrac := t / 2 ^ 16 % 2 ^ 16 } }, loW (t / 2 ^ 32))

end Sys2Proof.Machine
end

