-- ==== Sys2Proof/Machine/Epoch.lean ====
section
/-!
DEFINITION. Machine/Epoch.lean: the coherent image of "Epochs and the Coherent Image" (R17 … R51): publications, records,
holds, cuts, held runs, the image window and the image commands. The commit point itself, which every block takes part
in, is put together in Machine/Commit.lean.
-/
namespace Sys2Proof.Machine

/-- All ones in 64 bits: the epoch of a front that holds none (R33). -/
def noEpoch : Nat := 0xFFFF_FFFF_FFFF_FFFF

/-! ### Publications (R29, R35) -/

/-- The local publication with this first signal. -/
def Dev.pubAt (d : Dev) (base : Nat) : Option LocalPub := d.ep.pubs.find? (fun p => p.base == base)

/-- Change the local publication with this first signal. -/
def Dev.setPub (d : Dev) (base : Nat) (f : LocalPub → LocalPub) : Dev :=
  { d with ep := { d.ep with pubs := d.ep.pubs.map (fun p => if p.base == base then f p else p) } }

/-- A source writes one of its signals for the epoch being executed. -/
def Dev.stageSignal (d : Dev) (id v : Nat) : Dev :=
  { d with ep := { d.ep with staged := Mem.putWord d.ep.staged (4 * id) v } }

/-- A source commits its publication for the epoch being executed: all its values at once (R30). -/
def Dev.publish (d : Dev) (base : Nat) (vals : List Nat) : Dev :=
  match d.pubAt base with
  | none => d
  | some p =>
    let d := { d with ep := { d.ep with staged := Mem.putWords d.ep.staged (4 * base) (vals.take p.count) } }
    d.setPub base (fun p => { p with produced := true })

/-- OVERRUN (R23): one source has not finished at the deadline. -/
def Dev.overrun (d : Dev) : Dev :=
  let d := (d.flag Reg.EPK_STAT_OVERRUN).inc Reg.EPK_OVR_CNT
  { d with ep := { d.ep with overrunNow := true }, trc := { d.trc with overrunNow := true } }

/-- The publication of an overrun source is not committed in this epoch (R23, R35). -/
def Dev.overrunPub (d : Dev) (base : Nat) : Dev := d.setPub base (fun p => { p with overran := true })

/-! ### Subscriptions (R36 … R38) -/

/-- P(N): the newest producer epoch that ends no later than subscriber epoch N − L (R36). -/
def Sub.required (u : Sub) (k n : Nat) : Int := ((n : Int) - u.lag + 1) * k / u.kProd - 1

/-- E(N): the newest producer epoch not later than P(N) that the schedule publishes (R36). -/
def Sub.expected (u : Sub) (k n : Nat) : Int :=
  let p := u.required k n
  p - (p - u.phase) % u.period

/-- A subscription at the commit of image epoch `n` (R37, R38). -/
def Sub.commit (u : Sub) (k n : Nat) : Sub × Option (List Word) :=
  let p := u.required k n
  let e := u.expected k n
  let elig := u.waiting.filter (fun x => (x.epoch : Int) ≤ p)
  let newer := elig.filter (fun x => !x.null && (u.held.prodEpoch == noEpoch || u.held.prodEpoch < x.epoch))
  let best := newer.foldl (fun (b : Option RecvPub) x => match b with
    | some y => if y.epoch < x.epoch then some x else some y
    | none => some x) none
  let nulls := (elig.filter (·.null)).foldl (fun (b : Option Nat) x => some (max x.epoch (b.getD 0))) u.nullEpoch
  let held1 := match best with
    | some x => { u.held with prodEpoch := x.epoch, held := x.held }
    | none => u.held
  let current := held1.prodEpoch != noEpoch && decide ((held1.prodEpoch : Int) = e)
  let null := !current && (match nulls with
    | some x => decide ((x : Int) = e)
    | none => false)
  ({ u with
    waiting := u.waiting.filter (fun x => p < (x.epoch : Int)) ++ u.late, late := [], nullEpoch := nulls,
    held := { held1 with current := current, null := null, missed := !current && !null } },
   best.map (·.vals))

/-- A publication (or a null frame) received complete and verified reaches its subscription (R24, R37); a third waiting
one discards the oldest and is counted. -/
def Dev.deliverPub (d : Dev) (producer base : Nat) (x : RecvPub) : Dev :=
  let k := d.r Reg.EPK_CFG_K
  let n := d.r Reg.EPK_NOW
  let drops (u : Sub) : Bool :=
    decide (u.required k n < (x.epoch : Int)) &&
      decide (((u.waiting ++ u.late).filter (fun y => decide (u.required k n < (y.epoch : Int)))).length ≥ 2)
  let dropOld (u : Sub) (l : List RecvPub) : List RecvPub :=
    match l.find? (fun y => decide (u.required k n < (y.epoch : Int))) with
    | some y => l.erase y
    | none => l
  let hit := d.ep.subs.filter (fun u => u.producer == producer && u.base == base)
  let d := d.add Reg.TLB_WAIT_DROP_CNT (hit.filter drops).length
  { d with ep := { d.ep with subs := d.ep.subs.map (fun u =>
      if u.producer == producer && u.base == base then
        let u := if drops u then { u with waiting := dropOld u u.waiting } else u
        if d.ep.intakeClosed then { u with late := u.late ++ [x] } else { u with waiting := u.waiting ++ [x] }
      else u) } }

/-! ### Holders (R41 … R43) -/

/-- A holder other than the cut is active. -/
def Dev.hostPinned (d : Dev) : Bool := d.ep.pf0Hold || d.ep.pf1Hold || decide (0 < d.ep.cmdCount)

/-- Any holder pins the front (R41). -/
def Dev.pinned (d : Dev) : Bool := d.hostPinned || d.ep.cutHold

/-- The function whose holder a path acts on: PF1 its own, PF0 and SPI that of PF0 (R41). -/
def actsOnPf1 : Path → Bool
  | .pf1 => true
  | _ => false

/-- Set or release the holder of a path; a hold that is set again keeps its count. -/
def Dev.setHold (d : Dev) (p : Path) (on : Bool) : Dev :=
  if actsOnPf1 p then
    { d with ep := { d.ep with pf1Hold := on, pf1Age := if on && d.ep.pf1Hold then d.ep.pf1Age else 0 } }
  else
    { d with ep := { d.ep with pf0Hold := on, pf0Age := if on && d.ep.pf0Hold then d.ep.pf0Age else 0 } }

/-- IMG_HOLD as a path reads it. -/
def Dev.imgHoldWord (d : Dev) (p : Path) : Nat :=
  let (h, e) := if actsOnPf1 p then (d.ep.pf1Hold, d.ep.pf1Expired) else (d.ep.pf0Hold, d.ep.pf0Expired)
  d.ep.cmdCount * 16 + b2n d.ep.cmdExpired * 8 + b2n d.pinned * 4 + b2n e * 2 + b2n h

/-- A write of IMG_HOLD: HOLD sets or releases the holder, EXPIRED and CMD_EXPIRED clear with 1 (R41, R43). -/
def Dev.imgHoldWrite (d : Dev) (p : Path) (v : Nat) : Dev :=
  let d := d.setHold p (bitOf v 0)
  let d := if bitOf v 1 then
      (if actsOnPf1 p then { d with ep := { d.ep with pf1Expired := false } }
       else { d with ep := { d.ep with pf0Expired := false } })
    else d
  if bitOf v 3 then { d with ep := { d.ep with cmdExpired := false } } else d

/-- Meaning of HOST_HOLD_SET. -/
def execHostHoldSet (p : Path) (s : State) : Host.Outcome State Fault Refusal :=
  ok s (fun _ d => d.access p false true (fun d => d.setHold p true))

/-- Meaning of HOST_HOLD_CLEAR: the front flips at the next commit point (R42). -/
def execHostHoldClear (p : Path) (s : State) : Host.Outcome State Fault Refusal :=
  ok s (fun _ d => d.access p false true (fun d => d.setHold p false))

/-- HOLD_EXPIRE (R43): a function's hold that has lasted HOLD_MAX epochs releases itself. -/
def Dev.holdExpire (d : Dev) (pf1 : Bool) : Dev :=
  let m := d.r Reg.IMG_CFG_HOLD_MAX
  if pf1 then
    if d.ep.pf1Hold && decide (m ≤ d.ep.pf1Age + 1) then
      { d with ep := { d.ep with pf1Hold := false, pf1Age := 0, pf1Expired := true } } else d
  else
    if d.ep.pf0Hold && decide (m ≤ d.ep.pf0Age + 1) then
      { d with ep := { d.ep with pf0Hold := false, pf0Age := 0, pf0Expired := true } } else d

/-- Meaning of HOLD_EXPIRE. -/
def execHoldExpire (pf1 : Bool) (s : State) : Host.Outcome State Fault Refusal := ok s (fun _ d => d.holdExpire pf1)

/-- CMD_HOLD_EXPIRE (R43): the standing command hold has lasted HOLD_MAX epochs since the last IMG_HOLD. -/
def Dev.cmdHoldExpire (d : Dev) : Dev :=
  if 0 < d.ep.cmdCount ∧ d.r Reg.IMG_CFG_HOLD_MAX ≤ d.ep.cmdAge + 1 then
    { d with ep := { d.ep with cmdCount := 0, cmdAge := 0, cmdExpired := true } } else d

/-- Meaning of CMD_HOLD_EXPIRE. -/
def execCmdHoldExpire (s : State) : Host.Outcome State Fault Refusal := ok s (fun _ d => d.cmdHoldExpire)

/-! ### Consistent cuts (R45 … R47) -/

/-- STATE returns to idle: CUT_ID and SLIPPED read 0, the epoch keeps its value (R46). -/
def Dev.cutIdle (d : Dev) : Dev :=
  let d := ((d.w Reg.IMG_CUT_STAT_STATE 0).w Reg.IMG_CUT_STAT_SLIPPED 0).w Reg.IMG_CUT_ID 0
  { d with ep := { d.ep with cutHold := false, cutAge := 0 } }

/-- CUT_EXPIRE (R46): a cut frozen for IMG_CUT_MAX epochs releases and sets EXPIRED. -/
def Dev.cutExpire (d : Dev) : Dev :=
  if d.r Reg.IMG_CUT_STAT_STATE = 2 ∧ d.r Reg.IMG_CUT_MAX_CUT_MAX ≤ d.ep.cutAge + 1 then
    d.cutIdle.flag Reg.IMG_CUT_STAT_EXPIRED else d

/-- Meaning of CUT_EXPIRE. -/
def execCutExpire (s : State) : Host.Outcome State Fault Refusal := ok s (fun _ d => d.cutExpire)

/-- CUT_ARM (R45): its ordered checks. -/
def Dev.cutArm (d : Dev) (id b : Nat) : Dev × Res :=
  let st := d.r Reg.IMG_CUT_STAT_STATE
  let n := b / d.r Reg.EPK_CFG_K
  if st ≠ 0 ∧ d.r Reg.IMG_CUT_ID = id then
    (d, .ok [loW (d.r Reg.IMG_CUT_EPOCH), hiW (d.r Reg.IMG_CUT_EPOCH)])
  else if st ≠ 0 then (d, .busy)
  else if n ≤ d.r Reg.EPK_NOW then (d, .past)
  else (((d.w Reg.IMG_CUT_STAT_STATE 1).w Reg.IMG_CUT_ID id).w Reg.IMG_CUT_EPOCH n, .ok [loW n, hiW n])

/-- Meaning of CUT_ARM. -/
def execCutArm (p : Packet) (s : State) : Host.Outcome State Fault Refusal :=
  ok s (fun g d => d.runPacket g { opcode := 0x110, need := needN 3 } p (fun d ps =>
    d.cutArm (ps.getD 0 0) (pair64 (ps.getD 1 0) (ps.getD 2 0))))

/-- CUT_RELEASE (R46). -/
def Dev.cutRelease (d : Dev) (id : Nat) : Dev × Res :=
  if d.r Reg.IMG_CUT_STAT_STATE = 0 then (d, .ok [])
  else if d.r Reg.IMG_CUT_ID = id then (d.cutIdle, .ok [])
  else (d, .badParam 2)

/-- Meaning of CUT_RELEASE. -/
def execCutRelease (p : Packet) (s : State) : Host.Outcome State Fault Refusal :=
  ok s (fun g d => d.runPacket g { opcode := 0x111, need := needN 1 } p (fun d ps => d.cutRelease (ps.getD 0 0)))

/-- The word of IMG_CUT_STAT. -/
def Dev.cutStatWord (d : Dev) : Nat :=
  d.r Reg.IMG_CUT_STAT_EXPIRED * 8 + d.r Reg.IMG_CUT_STAT_SLIPPED * 4 + d.r Reg.IMG_CUT_STAT_STATE

/-- Meaning of CUT_STATUS. -/
def execCutStatus (p : Packet) (s : State) : Host.Outcome State Fault Refusal :=
  ok s (fun g d => d.runPacket g { opcode := 0x112, need := needN 0 } p (fun d _ =>
    (d, .ok [d.cutStatWord, d.r Reg.IMG_CUT_ID, loW (d.r Reg.IMG_CUT_EPOCH), hiW (d.r Reg.IMG_CUT_EPOCH)])))

/-! ### The image (R30 … R38, R42, R48) -/

/-- Copy `count` signals from `base` on from one value memory to another. -/
def copySignals (src dst : Mem) (base count : Nat) : Mem :=
  let inside (c : Host.Cell) : Bool := decide (4 * base ≤ c.1) && decide (c.1 < 4 * (base + count))
  (src.filter inside).foldl (fun m c => Mem.set m c.1 c.2) (dst.filter (fun c => !inside c))

/-- Image epoch `n`: what the local sources committed and what the subscriptions hold (R35, R37), with the held run that
ends here (R48). -/
def Dev.buildImage (d : Dev) (n : Nat) : Dev :=
  let k := d.r Reg.EPK_CFG_K
  let run := d.ep.heldRun
  let d := match run with
    | some (a, cause) =>
      let d := (d.flag Reg.EPK_STAT_HELD).add Reg.IMG_HELD_TOTAL (n - a)
      { d with ep := { d.ep with heldFrom := a, heldCount := n - a, heldCause := cause } }
    | none => d
  let prev := d.ep.newest
  let done := d.ep.pubs.filter (fun p => p.produced && !p.overran)
  let vals := done.foldl (fun m p => copySignals d.ep.staged m p.base p.count) prev.vals
  let localRec (p : LocalPub) : PubRec :=
    let old := (prev.recs.find? (fun r => r.isLocal && r.base == p.base)).getD { base := p.base, count := p.count }
    if p.produced && !p.overran then
      { base := p.base, count := p.count, producer := d.r Reg.TLB_DOMAIN_SELF, current := true, held := run.isSome,
        prodEpoch := n }
    else { old with producer := d.r Reg.TLB_DOMAIN_SELF, current := false }
  let subs := d.ep.subs.map (fun u => u.commit k n)
  let vals := (d.ep.subs.zip subs).foldl (fun m x => match x.2.2 with
    | some ws => Mem.putWords m (4 * x.1.base) ((ws.take x.1.count).map BitVec.toNat)
    | none => m) vals
  let recs := sortBy (·.base) (d.ep.pubs.map localRec ++ subs.map (fun x => x.1.held))
  let img : Image := {
    valid := true, epoch := n, held := run.isSome, heldCause := if run.isSome then d.ep.heldCause else 0,
    overrun := d.ep.overrunNow, k := k, heldFrom := d.ep.heldFrom, heldCount := d.ep.heldCount,
    heldTotal := d.r Reg.IMG_HELD_TOTAL, recs := recs, vals := vals }
  { d with ep := { d.ep with
    newest := img, before := prev, heldRun := none, subs := subs.map (·.1), staged := [], overrunNow := false,
    pubs := d.ep.pubs.map (fun p => { p with produced := false, overran := false }),
    committedOnce := true, lastCommitted := n, intakeClosed := false, deadlinePassed := false } }

/-- CUT_FREEZE (R46, R47): an armed cut freezes at the first commit of an epoch not earlier than N_cut at which no other
holder is active. -/
def Dev.cutFreeze (d : Dev) (n : Nat) : Dev :=
  if d.r Reg.IMG_CUT_STAT_STATE = 1 ∧ d.r Reg.IMG_CUT_EPOCH ≤ n ∧ ¬ d.hostPinned then
    let d := ((d.w Reg.IMG_CUT_STAT_STATE 2).wb Reg.IMG_CUT_STAT_SLIPPED (decide (d.r Reg.IMG_CUT_EPOCH < n))).w
      Reg.IMG_CUT_EPOCH n
    { d with ep := { d.ep with cutHold := true, cutAge := 0 } }
  else d

/-- IMAGE_FLIP (R42): unless a holder pins it, the front becomes the newest committed epoch. -/
def Dev.flip (d : Dev) : Dev :=
  if d.pinned then d
  else ({ d with ep := { d.ep with front := d.ep.newest } }).w Reg.IMG_FRONT
    (if d.ep.newest.valid then d.ep.newest.epoch else noEpoch)

/-- The epochs that the holders have lasted (R43, R46). -/
def Dev.ageHolds (d : Dev) : Dev :=
  { d with ep := { d.ep with
    pf0Age := if d.ep.pf0Hold then d.ep.pf0Age + 1 else 0,
    pf1Age := if d.ep.pf1Hold then d.ep.pf1Age + 1 else 0,
    cmdAge := if 0 < d.ep.cmdCount then d.ep.cmdAge + 1 else 0,
    cutAge := if d.ep.cutHold then d.ep.cutAge + 1 else 0 } }

/-- The image side of the commit of epoch `n`: build it, flip the front, freeze a due cut on it (R42, R46). -/
def Dev.commitImage (d : Dev) (n : Nat) : Dev := ((d.ageHolds.buildImage n).flip).cutFreeze n

/-- A signal of the current image (R32, R44). -/
def Dev.signal (d : Dev) (id : Nat) : Nat := Mem.word d.ep.newest.vals (4 * id)

/-- The record of the current image that holds a signal. -/
def Image.recOf (m : Image) (id : Nat) : Option PubRec :=
  m.recs.find? (fun r => decide (r.base ≤ id) && decide (id < r.base + r.count))

/-- The four words of a record (R34). -/
def PubRec.words (r : PubRec) : List Nat :=
  [r.base % 2 ^ 18 + r.producer % 2 ^ 12 * 2 ^ 18 + b2n r.isLocal * 2 ^ 30 + 2 ^ 31,
   r.count % 2 ^ 15 + r.lag % 2 ^ 8 * 2 ^ 16 + b2n r.current * 2 ^ 24 + b2n r.null * 2 ^ 25 +
     b2n r.missed * 2 ^ 26 + b2n r.held * 2 ^ 27,
   loW r.prodEpoch, hiW r.prodEpoch]

/-- The front's epoch is the frozen cut's. -/
def Dev.frontIsCut (d : Dev) : Bool := d.ep.cutHold && d.ep.front.epoch == d.r Reg.IMG_CUT_EPOCH

/-- A word of the image header (R33). -/
def Dev.headerWord (d : Dev) (off : Nat) : Nat :=
  let f := d.ep.front
  if !f.valid then
    match off with
    | 0x00 => 0xFFFF_FFFF
    | 0x04 => 0xFFFF_FFFF
    | 0x0C => d.r Reg.EPK_CFG_K
    | 0x1C => d.r Reg.IMG_HELD_TOTAL
    | _ => 0
  else
    match off with
    | 0x00 => loW f.epoch
    | 0x04 => hiW f.epoch
    | 0x08 => 1 + b2n f.held * 2 + f.heldCause % 4 * 4 + b2n d.pinned * 16 + b2n d.frontIsCut * 32 +
        b2n (d.frontIsCut && d.b Reg.IMG_CUT_STAT_SLIPPED) * 64 + b2n f.overrun * 128 +
        b2n (f.recs.any (fun r => !r.current)) * 256
    | 0x0C => f.k % 128 + f.recs.length % 2 ^ 14 * 2 ^ 16
    | 0x10 => loW f.heldFrom
    | 0x14 => hiW f.heldFrom
    | 0x18 => f.heldCount % 2 ^ 32
    | 0x1C => f.heldTotal
    | 0x20 => if d.frontIsCut then d.r Reg.IMG_CUT_ID else 0
    | 0x24 => (f.recs.filter (fun r => !r.current)).length
    | 0x28 => (f.recs.filter (·.null)).length
    | 0x2C => (f.recs.filter (fun r => r.isLocal && r.prodEpoch != f.epoch)).length
    | _ => 0

/-- A word of the signal image window at a window offset (R31, R33). -/
def Dev.imageWord (d : Dev) (off : Nat) : Nat :=
  if off < 0x40 then d.headerWord off
  else if !d.ep.front.valid then 0
  else if 0x1_0000 ≤ off ∧ off < 0x1_0000 + 16 * d.ep.front.recs.length then
    match d.ep.front.recs[(off - 0x1_0000) / 16]? with
    | some r => r.words.getD (off / 4 % 4) 0
    | none => 0
  else if 0x10_0000 ≤ off ∧ off < 0x20_0000 then Mem.word d.ep.front.vals (off - 0x10_0000)
  else 0

/-- The epoch of the front as replies show it: all ones when it holds none. -/
def Dev.frontEpoch (d : Dev) : Nat := if d.ep.front.valid then d.ep.front.epoch else noEpoch

/-- The device with the registers of the front's epoch, for commands that read values of one epoch (R41, R43); before the first
committed epoch, as it stands. -/
def Dev.ofFront (d : Dev) : Dev := if d.ep.front.valid then { d with regs := d.ep.frontRegs } else d

/-- The epoch that such a reply names, as two words. -/
def Dev.frontWords (d : Dev) : List Nat :=
  let e := if d.ep.front.valid then d.ep.front.epoch else d.r Reg.EPK_NOW
  [loW e, hiW e]

/-! ### Image commands (R50, R51) -/

/-- Meaning of EPOCH_INFO. -/
def execEpochInfo (p : Packet) (s : State) : Host.Outcome State Fault Refusal :=
  ok s (fun g d => d.runPacket g { opcode := 0x100, need := needN 0 } p (fun d _ =>
    (d, .ok [loW (d.r Reg.EPK_NOW), hiW (d.r Reg.EPK_NOW), loW d.frontEpoch, hiW d.frontEpoch, d.r Reg.EPK_CFG_K,
      loW (d.r Reg.EPK_ORIGIN), hiW (d.r Reg.EPK_ORIGIN)])))

/-- IMG_HOLD (R43): one more standing hold, up to 255; the count of HOLD_MAX starts again. -/
def Dev.standingHold (d : Dev) : Dev × Res :=
  ({ d with ep := { d.ep with cmdCount := min 255 (d.ep.cmdCount + 1), cmdAge := 0 } },
    .ok [loW d.frontEpoch, hiW d.frontEpoch])

/-- Meaning of IMG_HOLD. -/
def execImgHold (p : Packet) (s : State) : Host.Outcome State Fault Refusal :=
  ok s (fun g d => d.runPacket g { opcode := 0x101, need := needN 0 } p (fun d _ => d.standingHold))

/-- Meaning of IMG_RELEASE. -/
def execImgRelease (p : Packet) (s : State) : Host.Outcome State Fault Refusal :=
  ok s (fun g d => d.runPacket g { opcode := 0x102, need := needN 0 } p (fun d _ =>
    ({ d with ep := { d.ep with cmdCount := d.ep.cmdCount - 1 } }, .ok [])))

/-- IMG_READ (R51): a range of signals of the front. -/
def Dev.imgRead (d : Dev) (id n : Nat) : Res :=
  if 262144 ≤ id then .badParam 2
  else if n < 1 ∨ 1000 < n then .badParam 3
  else if 262144 < id + n then .badParam 0
  else .ok ([loW d.frontEpoch, hiW d.frontEpoch] ++
    (List.range n).map (fun i => if d.ep.front.valid then Mem.word d.ep.front.vals (4 * (id + i)) else 0))

/-- Meaning of IMG_READ. -/
def execImgRead (p : Packet) (s : State) : Host.Outcome State Fault Refusal :=
  ok s (fun g d => d.runPacket g { opcode := 0x103, need := needN 2, replyLen := fun ps => 5 + ps.getD 1 0 } p
    (fun d ps => (d, d.imgRead (ps.getD 0 0) (ps.getD 1 0))))

/-- IMG_READ_REC (R51): the record that holds a signal, or zeros. -/
def Dev.imgReadRec (d : Dev) (id : Nat) : Res :=
  if 262144 ≤ id then .badParam 2
  else if !d.ep.front.valid then .ok [0, 0, 0, 0]
  else match d.ep.front.recOf id with
    | some r => .ok r.words
    | none => .ok [0, 0, 0, 0]

/-- Meaning of IMG_READ_REC. -/
def execImgReadRec (p : Packet) (s : State) : Host.Outcome State Fault Refusal :=
  ok s (fun g d => d.runPacket g { opcode := 0x104, need := needN 1 } p (fun d ps => (d, d.imgReadRec (ps.getD 0 0))))

/-- D is within 1 000 … T_E/2 ns (R22). -/
def Dev.marginOk (d : Dev) (ns : Nat) : Bool := decide (1000 ≤ ns) && decide (2 * ns ≤ d.te)

/-- A deadline margin takes effect at the next epoch boundary (R22). -/
def Dev.setMargin (d : Dev) (ns : Nat) : Dev :=
  let d := d.w Reg.EPK_DEADLINE_MARGIN_NS ns
  { d with ep := { d.ep with marginPending := some ns } }

/-- Meaning of EPOCH_SET_MARGIN. -/
def execEpochSetMargin (p : Packet) (s : State) : Host.Outcome State Fault Refusal :=
  ok s (fun g d => d.runPacket g { opcode := 0x120, priv := true, need := needN 1 } p (fun d ps =>
    if d.marginOk (ps.getD 0 0) then (d.setMargin (ps.getD 0 0), .ok []) else (d, .badParam 2)))

/-- INTAKE_CLOSE (R24): the remote intake window of the image epoch closes; publications still incomplete are discarded
and counted (R350). -/
def Dev.intakeClose (d : Dev) : Dev :=
  let d := d.add Reg.TLB_INCOMPLETE_CNT d.tlb.partials.length
  { d with ep := { d.ep with intakeClosed := true }, tlb := { d.tlb with partials := [] } }

/-- Meaning of INTAKE_CLOSE. -/
def execIntakeClose (s : State) : Host.Outcome State Fault Refusal := ok s (fun _ d => d.intakeClose)

end Sys2Proof.Machine
end

