-- ==== Sys2Proof/Machine/FieldIo.lean ====
section
/-!
DEFINITION. Machine/FieldIo.lean: the 24 V field inputs and outputs, their writers, supply sag and logic silence of "24 V
Field I/O" (R469 … R488).
-/
namespace Sys2Proof.Machine

/-- The group of an output (R5). -/
def groupOf (o : Nat) : Nat := o / 8

/-- The level that an output's writer asks for, by OWNER (R474). -/
def Dev.writerLevel (d : Dev) (o : Nat) : Bool :=
  match d.r (Reg.FIO_OUT_CFG_OWNER o) with
  | 0 => bitOf d.fio.sigLevels o
  | 1 => bitOf d.fio.calLevels o
  | 2 => bitOf d.fio.safeLevels o && !bitOf d.fio.rearm o && !bitOf d.brd.dark o
  | _ => bitOf d.fio.hostLevels o

/-- What the output stage is at now, by the precedence of R478, R479 and R482 … R485; off while the field dies do not drive
(R491). -/
def Dev.stageOf (d : Dev) (o : Nat) : Bool :=
  let g := groupOf o
  let safe := d.r (Reg.FIO_OUT_CFG_OWNER o) == 2
  let now := bitOf (d.r Reg.FIO_OUT) o
  if !d.pair.driving || !d.fio.started || !bitOf d.fio.given o then false
  else if d.b (Reg.FIO_OUT_STAT_OVERLOAD o) || d.b (Reg.FIO_OUT_STAT_THERMAL o) then false
  else if d.b (Reg.FIO_GRP_STAT_SUPPLY_LOST g) || d.b (Reg.FIO_GRP_STAT_SILENT_OFF g) ||
      d.b (Reg.FIO_GRP_STAT_CUT_OPEN g) then false
  else if d.b (Reg.FIO_GRP_STAT_SILENT1 g) then
    if safe then false
    else match d.r (Reg.FIO_OUT_CFG_SAFE_VAL o) with
      | 1 => true
      | 2 => now
      | _ => false
  else if !safe && bitOf d.fio.resume g then now
  else d.writerLevel o

/-- An output fault of R477 or R478. -/
def Dev.outFault (d : Dev) (o : Nat) : Bool :=
  d.b (Reg.FIO_OUT_STAT_RB_LOW o) || d.b (Reg.FIO_OUT_STAT_RB_HIGH o) || d.b (Reg.FIO_OUT_STAT_OVERLOAD o) ||
    d.b (Reg.FIO_OUT_STAT_THERMAL o)

/-- The status of a group that follows from the rest (R486). -/
def Dev.showGroup (d : Dev) (g : Nat) : Dev :=
  let outs := (List.range 8).map (· + 8 * g)
  let d := d.wb (Reg.FIO_GRP_STAT_OUT_FAULT g) (outs.any d.outFault)
  let d := d.wb (Reg.FIO_GRP_STAT_REARM_WAIT g) (outs.any (bitOf d.fio.rearm))
  d.wb (Reg.FIO_GRP_STAT_FAULT g) (d.b (Reg.FIO_GRP_STAT_SUPPLY_LOW g) || d.b (Reg.FIO_GRP_STAT_SUPPLY_LOST g) ||
    d.b (Reg.FIO_GRP_STAT_SILENT1 g) || d.b (Reg.FIO_GRP_STAT_SILENT_OFF g) || d.b (Reg.FIO_GRP_STAT_CUT_OPEN g) ||
    d.b (Reg.FIO_GRP_STAT_OUT_FAULT g))

/-- Bring the output stages of a group to what their writers and states give, the readbacks with them. -/
def Dev.driveGroup (d : Dev) (g : Nat) : Dev :=
  let d := d.each ((List.range 8).map (· + 8 * g)) (fun o d =>
    let v := d.stageOf o
    if v = bitOf (d.r Reg.FIO_OUT) o then d
    else
      let d := (d.w Reg.FIO_OUT (setBit (d.r Reg.FIO_OUT) o v)).w Reg.FIO_RB (setBit (d.r Reg.FIO_RB) o v)
      (d.wb (Reg.FIO_OUT_STAT_ON o) v).wb (Reg.FIO_OUT_STAT_RB o) v)
  d.showGroup g

/-- Bring every output stage to its level. -/
def Dev.driveOutputs (d : Dev) : Dev := d.each [0, 1, 2, 3] (fun g d => d.driveGroup g)

/-- The safe outputs of a group now need FIO_REARM (R481, R483). -/
def Dev.safeNeedRearm (d : Dev) (g : Nat) : Dev :=
  d.each ((List.range 8).map (· + 8 * g)) (fun o d =>
    if d.r (Reg.FIO_OUT_CFG_OWNER o) = 2 then { d with fio := { d.fio with rearm := setBit d.fio.rearm o true } } else d)

/-- The calendar sets the level of an output with OWNER 1 (R73, R474). -/
def Dev.calendarOutput (d : Dev) (o : Nat) (lv : Bool) : Dev :=
  ({ d with fio := { d.fio with
    calLevels := setBit d.fio.calLevels o lv,
    given := if d.r (Reg.FIO_OUT_CFG_OWNER o) = 1 then setBit d.fio.given o true else d.fio.given } }).driveGroup
      (groupOf o)

/-- Bridle commands its safe outputs (R453): the mask of those on. -/
def Dev.safeOutputs (d : Dev) (on : Nat) : Dev :=
  let outs := (List.range 32).filter (fun o => d.r (Reg.FIO_OUT_CFG_OWNER o) == 2)
  ({ d with fio := { d.fio with
    safeLevels := on, given := outs.foldl (fun m o => setBit m o true) d.fio.given } }).driveOutputs

/-- The commit token of R482 and R483: it clears SILENT1 where SILENT_OFF is not latched. -/
def Dev.commitToken (d : Dev) : Dev :=
  let d := { d with fio := { d.fio with tokenC := d.time.c, tokenRun := d.fio.tokenRun + 1 } }
  d.each [0, 1, 2, 3] (fun g d =>
    if d.b (Reg.FIO_GRP_STAT_SILENT1 g) && !d.b (Reg.FIO_GRP_STAT_SILENT_OFF g) then
      (({ d with fio := { d.fio with resume := setBit d.fio.resume g true } }).wb
        (Reg.FIO_GRP_STAT_SILENT1 g) false).showGroup g
    else d)

/-- The inputs, stages and readbacks at a boundary are kept for publication (R473). `rb` holds the readbacks there: an edge
of that instant reaches no readback yet (R476). -/
def Dev.fieldKeep (d : Dev) (rb : Nat) : Dev :=
  { d with fio := { d.fio with bndOut := d.r Reg.FIO_OUT, bndRb := rb, bndIn := d.r Reg.FIO_IN } }

/-- A boundary without a commit. -/
def Dev.fieldSample (d : Dev) : Dev := d.fieldKeep (d.r Reg.FIO_RB)

/-- The field I/O at a boundary, after the commit (R471, R473, R474, R488): signal-owned and host-owned levels take
effect, resumed groups go on, and the boundary's inputs, stages and readbacks are kept for publication. -/
def Dev.fieldBoundary (d : Dev) : Dev :=
  let outs := List.range 32
  let sigs := outs.foldl (fun m o =>
    if d.r (Reg.FIO_OUT_CFG_OWNER o) = 0 then
      setBit m o (bitOf (d.signal (d.r (Reg.FIO_OUT_SIG_OUT_SIG o))) (d.r (Reg.FIO_OUT_CFG_OUT_BIT o)))
    else m) d.fio.sigLevels
  let host := outs.foldl (fun m o =>
    if bitOf d.fio.hostMask o then setBit m o (bitOf d.fio.hostNext o) else m) d.fio.hostLevels
  let given := outs.foldl (fun m o =>
    let own := d.r (Reg.FIO_OUT_CFG_OWNER o)
    if own = 0 ∨ (own = 3 ∧ bitOf d.fio.hostMask o) then setBit m o true else m) d.fio.given
  ({ d with fio := { d.fio with
    sigLevels := sigs, hostLevels := host, given := given, hostMask := 0, hostNext := 0, resume := 0,
    started := true } }).driveOutputs.fieldKeep (d.r Reg.FIO_RB)

/-- The field I/O values of an epoch (R473): inputs, output stages and readbacks at its boundary, and the state of each group. -/
def Dev.fieldValues (d : Dev) : List Nat :=
  let grp (g : Nat) : Nat :=
    b2n (d.b (Reg.FIO_GRP_STAT_FAULT g)) + 2 * b2n (d.b (Reg.FIO_GRP_STAT_REARM_WAIT g)) +
      4 * b2n (d.b (Reg.FIO_GRP_STAT_SUPPLY_LOW g)) + 8 * b2n (d.b (Reg.FIO_GRP_STAT_SUPPLY_LOST g)) +
      16 * b2n (d.b (Reg.FIO_GRP_STAT_SILENT1 g)) + 32 * b2n (d.b (Reg.FIO_GRP_STAT_CUT_OPEN g)) +
      64 * b2n (d.b (Reg.FIO_GRP_STAT_OUT_FAULT g)) + 128 * b2n (d.b (Reg.FIO_GRP_STAT_SILENT_OFF g))
  [loW d.fio.bndIn, hiW d.fio.bndIn, d.fio.bndOut, d.fio.bndRb, grp 0, grp 1, grp 2, grp 3]

/-- The field I/O publication of R473. -/
def Dev.publishField (d : Dev) : Dev :=
  let v (i : Nat) : Nat := d.fieldValues.getD i 0
  d.publish (d.r Reg.FIO_PUB) [v 0, v 1, v 2, v 3, v 4 + v 5 * 2 ^ 8 + v 6 * 2 ^ 16 + v 7 * 2 ^ 24]

/-- A switch at the instant of the boundary stands in the stage at the boundary (R473). -/
def Dev.publishSwitch (d : Dev) (o : Nat) : Dev :=
  { d with fio := { d.fio with bndOut := setBit d.fio.bndOut o (bitOf (d.r Reg.FIO_OUT) o) } }

/-- A switch made at or before the boundary has been retracted: the publication leaves it out (R473). -/
def Dev.unpublishSwitch (d : Dev) (o : Nat) (before : Bool) : Dev :=
  { d with fio := { d.fio with bndOut := setBit d.fio.bndOut o before, bndRb := setBit d.fio.bndRb o before } }

/-! ### Events -/

/-- Meaning of FIO_INPUT_CHANGE (R471): the filtered state changes and the count of the sample is latched. -/
def execFioInputChange (i : Fin 64) (level : Bool) (s : State) : Host.Outcome State Fault Refusal :=
  ok s (fun _ d =>
    let d := { d with fio := { d.fio with raw := setBit d.fio.raw i.val level } }
    if bitOf (d.r Reg.FIO_IN) i.val = level then d
    else (d.w Reg.FIO_IN (setBit (d.r Reg.FIO_IN) i.val level)).w (Reg.FIO_IN_TS i.val) d.time.c)

/-- FIO_RB_FAULT (R477): the readback disagrees with the stage; reported for outputs with OWNER 0, 1 or 3. -/
def Dev.readbackFault (d : Dev) (o : Nat) : Dev :=
  if d.r (Reg.FIO_OUT_CFG_OWNER o) = 2 ∨ ¬ d.pair.driving then d
  else
    let on := bitOf (d.r Reg.FIO_OUT) o
    let d := (d.w Reg.FIO_RB (setBit (d.r Reg.FIO_RB) o (!on))).wb (Reg.FIO_OUT_STAT_RB o) (!on)
    (d.flag (if on then Reg.FIO_OUT_STAT_RB_LOW o else Reg.FIO_OUT_STAT_RB_HIGH o)).showGroup (groupOf o)

/-- Meaning of FIO_RB_FAULT. -/
def execFioRbFault (o : Fin 32) (s : State) : Host.Outcome State Fault Refusal := ok s (fun _ d => d.readbackFault o.val)

/-- Meaning of FIO_OVERLOAD (R478): an output on in current limit for 200 µs turns off and latches. -/
def execFioOverload (o : Fin 32) (s : State) : Host.Outcome State Fault Refusal :=
  ok s (fun _ d =>
    if bitOf (d.r Reg.FIO_OUT) o.val then (d.flag (Reg.FIO_OUT_STAT_OVERLOAD o.val)).driveGroup (groupOf o.val) else d)

/-- Meaning of FIO_THERMAL (R478): over its thermal limit, the output turns off and latches; `over` false reports that
the limit is no longer exceeded, which FIO_OUT_CLEAR needs. -/
def execFioThermal (o : Fin 32) (ovr : Bool) (s : State) : Host.Outcome State Fault Refusal :=
  ok s (fun _ d =>
    let d := { d with fio := { d.fio with hot := setBit d.fio.hot o.val ovr } }
    if ovr then (d.flag (Reg.FIO_OUT_STAT_THERMAL o.val)).driveGroup (groupOf o.val) else d)

/-- VFIELD_SAMPLE (R480): one measurement of a group supply, in mV. -/
def Dev.vfieldSample (d : Dev) (g mv : Nat) : Dev :=
  let low := d.r (Reg.FIO_VFIELD_LOWEST g)
  let d := (d.w (Reg.FIO_VFIELD_LAST g) (satU 16 mv)).w (Reg.FIO_VFIELD_LOWEST g)
    (if low = 0 then satU 16 mv else min low (satU 16 mv))
  let good := if 19200 ≤ mv then Tab.look 0 g d.fio.goodRun + 1 else 0
  let bad := if mv < 15000 then Tab.look 0 g d.fio.badRun + 1 else 0
  let d := { d with fio := { d.fio with goodRun := Tab.put g good d.fio.goodRun, badRun := Tab.put g bad d.fio.badRun } }
  let d := if mv < 19200 then d.flag (Reg.FIO_GRP_STAT_SUPPLY_LOW g)
    else if 10 ≤ good then d.wb (Reg.FIO_GRP_STAT_SUPPLY_LOW g) false else d
  (d.w Reg.GLB_SUPPLY_VFIELD (setBit (d.r Reg.GLB_SUPPLY_VFIELD) g (decide (15000 ≤ mv)))).showGroup g

/-- Meaning of VFIELD_SAMPLE. -/
def execVfieldSample (group : Fin 4) (mv : Nat) (s : State) : Host.Outcome State Fault Refusal :=
  ok s (fun _ d => (d.vfieldSample group.val mv).pins)

/-- SUPPLY_LOST (R480): after 100 consecutive samples below 15.0 V the group's outputs turn off and the state latches. -/
def Dev.loseSupply (d : Dev) (g : Nat) : Dev :=
  if Tab.look 0 g d.fio.badRun < 100 ∨ d.b (Reg.FIO_GRP_STAT_SUPPLY_LOST g) then d
  else (((d.flag (Reg.FIO_GRP_STAT_SUPPLY_LOST g)).inc (Reg.FIO_GRP_CNT_LOST g)).safeNeedRearm g).driveGroup g

/-- Meaning of SUPPLY_LOST. -/
def execSupplyLost (group : Fin 4) (s : State) : Host.Outcome State Fault Refusal :=
  ok s (fun _ d => d.loseSupply group.val)

/-- Clear SUPPLY_LOST or the silence latches of a group; outputs resume at the next boundary (R481, R483). -/
def Dev.clearGroup (d : Dev) (g : Nat) (supply silence : Bool) : Dev :=
  let d := if supply then d.wb (Reg.FIO_GRP_STAT_SUPPLY_LOST g) false else d
  let d := if silence then (d.wb (Reg.FIO_GRP_STAT_SILENT_OFF g) false).wb (Reg.FIO_GRP_STAT_SILENT1 g) false else d
  ({ d with fio := { d.fio with resume := setBit d.fio.resume g true } }).driveGroup g

/-- SUPPLY_AUTO_REARM (R481, R483): with AUTO_REARM = 1, 10 000 good samples clear SUPPLY_LOST, and 100 ms of
uninterrupted tokens clear SILENT_OFF. -/
def Dev.autoRearm (d : Dev) (g : Nat) : Dev :=
  if !d.b (Reg.FIO_GRP_CFG_AUTO_REARM g) then d
  else
    let sup := d.b (Reg.FIO_GRP_STAT_SUPPLY_LOST g) && decide (10000 ≤ Tab.look 0 g d.fio.goodRun)
    let sil := d.b (Reg.FIO_GRP_STAT_SILENT_OFF g) && decide (100000000 ≤ d.fio.tokenRun * d.te)
    if sup || sil then d.clearGroup g sup sil else d

/-- Meaning of SUPPLY_AUTO_REARM. -/
def execSupplyAutoRearm (group : Fin 4) (s : State) : Host.Outcome State Fault Refusal :=
  ok s (fun _ d => d.autoRearm group.val)

/-- Meaning of SILENT1_TIMEOUT (R482): T_SILENT1 without a token; outputs take SAFE_VAL, safe outputs turn off. -/
def execSilent1Timeout (group : Fin 4) (s : State) : Host.Outcome State Fault Refusal :=
  ok s (fun _ d =>
    let g := group.val
    if d.b (Reg.FIO_GRP_STAT_SILENT1 g) then d
    else
      let d := d.reach (d.tickAfter d.fio.tokenC (1000 * d.r (Reg.FIO_GRP_CFG_T_SILENT1 g)))
      let d := { d with fio := { d.fio with tokenRun := 0 } }
      (((d.flag (Reg.FIO_GRP_STAT_SILENT1 g)).inc (Reg.FIO_GRP_CNT_SILENT1 g)).safeNeedRearm g).driveGroup g)

/-- Meaning of SILENT_OFF_TIMEOUT (R482): T_SILENT2 without a token, unless it is infinite; all outputs off, latched. -/
def execSilentOffTimeout (group : Fin 4) (s : State) : Host.Outcome State Fault Refusal :=
  ok s (fun _ d =>
    let g := group.val
    if d.r (Reg.FIO_GRP_CFG_T_SILENT2 g) = 0 then d
    else
      let d := d.reach (d.tickAfter d.fio.tokenC (1000 * d.r (Reg.FIO_GRP_CFG_T_SILENT2 g)))
      let d := { d with fio := { d.fio with tokenRun := 0 } }
      ((d.flag (Reg.FIO_GRP_STAT_SILENT_OFF g)).safeNeedRearm g).driveGroup g)

/-- A write of FIO_OUT_CFG or FIO_OUT_SIG (R475): only while the stage is off and no OWNER is 2. -/
def Dev.outCfgWrite (d : Dev) (o : Nat) (sig : Bool) (v : Nat) : Dev :=
  if bitOf (d.r Reg.FIO_OUT) o || d.r (Reg.FIO_OUT_CFG_OWNER o) == 2 || (!sig && v % 4 == 2) then
    d.flag Reg.FIO_STAT_CFG_BUSY
  else if sig then d.w (Reg.FIO_OUT_SIG_OUT_SIG o) v
  else
    let old := d.r (Reg.FIO_OUT_CFG_OWNER o)
    let rb := bits v 9 8
    let d := (((d.w (Reg.FIO_OUT_CFG_OWNER o) v).w (Reg.FIO_OUT_CFG_SAFE_VAL o) (bits v 2 2)).w
      (Reg.FIO_OUT_CFG_OUT_BIT o) (bits v 4 5)).w (Reg.FIO_OUT_CFG_RB_BLANK o) (if rb = 0 then d.r (Reg.FIO_OUT_CFG_RB_BLANK o) else rb)
    if old = v % 4 then d else { d with fio := { d.fio with given := setBit d.fio.given o false } }

/-- Meaning of FIO_OUT_CFG_WRITE: `sig` names FIO_OUT_SIG. Both registers are privileged (R11). -/
def execFioOutCfgWrite (path : Path) (o : Fin 32) (sig : Bool) (v : Word) (s : State) :
    Host.Outcome State Fault Refusal :=
  ok s (fun _ d => d.access path true true (fun d => d.outCfgWrite o.val sig v.toNat))

/-! ### Commands (R487, R488) -/

/-- The word of FIO_GRP_STAT. -/
def Dev.grpStatWord (d : Dev) (g : Nat) : Nat :=
  d.r (Reg.FIO_GRP_STAT_SILENT_OFF g) * 128 + d.r (Reg.FIO_GRP_STAT_OUT_FAULT g) * 64 +
    d.r (Reg.FIO_GRP_STAT_CUT_OPEN g) * 32 + d.r (Reg.FIO_GRP_STAT_SILENT1 g) * 16 +
    d.r (Reg.FIO_GRP_STAT_SUPPLY_LOST g) * 8 + d.r (Reg.FIO_GRP_STAT_SUPPLY_LOW g) * 4 +
    d.r (Reg.FIO_GRP_STAT_REARM_WAIT g) * 2 + d.r (Reg.FIO_GRP_STAT_FAULT g)

/-- The word of FIO_OUT_STAT. -/
def Dev.outStatWord (d : Dev) (o : Nat) : Nat :=
  d.r (Reg.FIO_OUT_STAT_RB_HIGH o) * 32 + d.r (Reg.FIO_OUT_STAT_RB_LOW o) * 16 +
    d.r (Reg.FIO_OUT_STAT_THERMAL o) * 8 + d.r (Reg.FIO_OUT_STAT_OVERLOAD o) * 4 +
    d.r (Reg.FIO_OUT_STAT_RB o) * 2 + d.r (Reg.FIO_OUT_STAT_ON o)

/-- Meaning of FIO_INFO: the front's values where the field I/O publication is in it, with the front's epoch (R488). -/
def execFioInfo (p : Packet) (s : State) : Host.Outcome State Fault Refusal :=
  ok s (fun g d => d.runPacket g { opcode := 0xC00, need := needN 0 } p (fun d _ =>
    (d, .ok ((if d.ep.front.valid then d.ep.frontFio else d.fieldValues) ++ d.frontWords))))

/-- Meaning of FIO_GRP_READ. -/
def execFioGrpRead (p : Packet) (s : State) : Host.Outcome State Fault Refusal :=
  ok s (fun g d => d.runPacket g { opcode := 0xC01, need := needN 1 } p (fun d ps =>
    let n := ps.getD 0 0
    if n ≥ 4 then (d, .badParam 2)
    else (d, .ok ([d.grpStatWord n, d.r (Reg.FIO_VFIELD_LAST n) + d.r (Reg.FIO_VFIELD_LOWEST n) * 2 ^ 16,
      d.r (Reg.FIO_GRP_CNT_LOST n) + d.r (Reg.FIO_GRP_CNT_SILENT1 n) * 2 ^ 16] ++
      (List.range 8).map (fun o => d.outStatWord (8 * n + o))))))

/-- FIO_OUT_WRITE (R474, R488). -/
def Dev.outWrite (d : Dev) (mask lv : Nat) : Dev × Res :=
  if (onesOf 32 mask).any (fun o => d.r (Reg.FIO_OUT_CFG_OWNER o) != 3) then (d, .badParam 2)
  else
    let next := (onesOf 32 mask).foldl (fun m o => setBit m o (bitOf lv o)) d.fio.hostNext
    let e := d.r Reg.EPK_NOW + 1
    ({ d with fio := { d.fio with hostMask := Nat.lor d.fio.hostMask mask, hostNext := next } }, .ok [loW e, hiW e])

/-- Meaning of FIO_OUT_WRITE. -/
def execFioOutWrite (p : Packet) (s : State) : Host.Outcome State Fault Refusal :=
  ok s (fun g d => d.runPacket g { opcode := 0xC02, priv := true, need := needN 2 } p (fun d ps =>
    d.outWrite (ps.getD 0 0) (ps.getD 1 0)))

/-- FIO_OUT_CLEAR (R478): refused while the thermal limit is still exceeded. -/
def Dev.outClear (d : Dev) (mask : Nat) : Dev × Res :=
  let l := onesOf 32 mask
  let d1 := d.each (l.filter (fun o => !bitOf d.fio.hot o)) (fun o d =>
    ((d.wb (Reg.FIO_OUT_STAT_OVERLOAD o) false).wb (Reg.FIO_OUT_STAT_THERMAL o) false).driveGroup (groupOf o))
  (d1, .ok [l.foldl (fun m o => if bitOf d.fio.hot o then setBit m o true else m) 0])

/-- Meaning of FIO_OUT_CLEAR. -/
def execFioOutClear (p : Packet) (s : State) : Host.Outcome State Fault Refusal :=
  ok s (fun g d => d.runPacket g { opcode := 0xC03, priv := true, need := needN 1 } p (fun d ps =>
    d.outClear (ps.getD 0 0)))

/-- FIO_REARM of one group (R481, R483, R485): clear every latch whose condition is gone; the safe outputs are re-armed
when none remains. -/
def Dev.rearmGroup (d : Dev) (g : Nat) : Dev :=
  let sup := d.b (Reg.FIO_GRP_STAT_SUPPLY_LOST g) && decide (19200 ≤ d.r (Reg.FIO_VFIELD_LAST g))
  let sil := d.b (Reg.FIO_GRP_STAT_SILENT_OFF g) && decide (0 < d.fio.tokenRun)
  let d := if sup || sil then d.clearGroup g sup sil else d
  if latched d g then d
  else
    let left := ((List.range 8).map (· + 8 * g)).foldl (fun m o => setBit m o false) d.fio.rearm
    ({ d with fio := { d.fio with rearm := left } }).driveGroup g
where
  /-- A latch of the group remains. -/
  latched (d : Dev) (g : Nat) : Bool :=
    d.b (Reg.FIO_GRP_STAT_SUPPLY_LOST g) || d.b (Reg.FIO_GRP_STAT_SILENT_OFF g) || d.b (Reg.FIO_GRP_STAT_CUT_OPEN g)

/-- Meaning of FIO_REARM. -/
def execFioRearm (p : Packet) (s : State) : Host.Outcome State Fault Refusal :=
  ok s (fun g d => d.runPacket g { opcode := 0xC04, priv := true, need := needN 1 } p (fun d ps =>
    let l := onesOf 4 (ps.getD 0 0)
    let d := d.each l (fun n d => d.rearmGroup n)
    (d, .ok [l.foldl (fun m n => if Dev.rearmGroup.latched d n then setBit m n true else m) 0])))

end Sys2Proof.Machine
end

