-- ==== Sys2Proof/Machine/Float.lean ====
section
/-!
DEFINITION. Machine/Float.lean: IEEE 754 arithmetic on bit patterns, exact in integers and rounded once to nearest with
ties to even, for binary32 and binary64.
-/
namespace Sys2Proof.Machine

/-- A binary format: exponent bits and mantissa bits. -/
structure FpFmt where
  eb : Nat
  mb : Nat
deriving DecidableEq, Repr

def f32 : FpFmt := ⟨8, 23⟩
def f64 : FpFmt := ⟨11, 52⟩

/-- A decoded number: (−1)^neg × m × 2^e when finite. -/
inductive FpVal where
  | nan (signaling : Bool)
  | inf (neg : Bool)
  | fin (neg : Bool) (m : Nat) (e : Int)
deriving DecidableEq, Repr

/-- The largest finite exponent, also the bias. -/
def FpFmt.bias (f : FpFmt) : Nat := 2 ^ (f.eb - 1) - 1

/-- The exponent of the least significant bit of a subnormal. -/
def FpFmt.lsbMin (f : FpFmt) : Int := 1 - (f.bias : Int) - f.mb

/-- The pattern of positive infinity. -/
def FpFmt.infBits (f : FpFmt) : Nat := (2 ^ f.eb - 1) * 2 ^ f.mb

/-- The pattern of the canonical quiet NaN. -/
def FpFmt.nanBits (f : FpFmt) : Nat := f.infBits + 2 ^ (f.mb - 1)

/-- The sign bit. -/
def FpFmt.signBit (f : FpFmt) : Nat := 2 ^ (f.eb + f.mb)

/-- Decode a pattern. -/
def FpFmt.dec (f : FpFmt) (x : Nat) : FpVal :=
  let neg := bitOf x (f.eb + f.mb)
  let ex := bits x f.mb f.eb
  let m := bits x 0 f.mb
  if ex = 2 ^ f.eb - 1 then (if m = 0 then .inf neg else .nan (!bitOf m (f.mb - 1)))
  else if ex = 0 then .fin neg m f.lsbMin
  else .fin neg (m + 2 ^ f.mb) ((ex : Int) - 1 + f.lsbMin)

/-- The exception flags of one operation. -/
structure FpFlags where
  invalid : Bool := false
  divZero : Bool := false
  overflow : Bool := false
  underflow : Bool := false
  inexact : Bool := false
deriving DecidableEq, Repr

/-- The flags of two operations together. -/
def FpFlags.or (a b : FpFlags) : FpFlags :=
  ⟨a.invalid || b.invalid, a.divZero || b.divZero, a.overflow || b.overflow, a.underflow || b.underflow,
    a.inexact || b.inexact⟩

/-- Attach a sign to a magnitude pattern. -/
def FpFmt.sign (f : FpFmt) (neg : Bool) (x : Nat) : Nat := x + b2n neg * f.signBit

/-- Round m × 2^e, with `sticky` for a lower part that was cut off, to nearest even. With `sticky` the caller gives at
least two bits more than the precision. -/
def FpFmt.round (f : FpFmt) (neg : Bool) (m : Nat) (e : Int) (sticky : Bool) : Nat × FpFlags :=
  if m = 0 then (f.sign neg 0, { inexact := sticky, underflow := sticky })
  else
    let lsb := max ((Nat.log2 m : Int) + e - f.mb) f.lsbMin
    let (q, inex, up) :=
      if lsb ≤ e then (m * 2 ^ (e - lsb).toNat, sticky, false)
      else
        let sh := (lsb - e).toNat
        let r := m % 2 ^ sh
        let half := 2 ^ (sh - 1)
        let q := m / 2 ^ sh
        (q, r != 0 || sticky, decide (half < r) || (r == half && (sticky || q % 2 == 1)))
    let q := q + b2n up
    let x := (lsb - f.lsbMin).toNat * 2 ^ f.mb + q
    if f.infBits ≤ x then (f.sign neg f.infBits, { overflow := true, inexact := true })
    else (f.sign neg x, { inexact := inex, underflow := inex && decide (x < 2 ^ f.mb) })

/-- Round the quotient n / den × 2^e. -/
def FpFmt.roundRat (f : FpFmt) (neg : Bool) (n den : Nat) (e : Int) : Nat × FpFlags :=
  let t := f.mb + 4 + Nat.log2 den - Nat.log2 n
  f.round neg (n * 2 ^ t / den) (e - t) (n * 2 ^ t % den != 0)

/-- The result of an operation on a NaN, or of an invalid operation. -/
def FpFmt.nanResult (f : FpFmt) (invalid : Bool) : Nat × FpFlags := (f.nanBits, { invalid := invalid })

/-- A decoded value is a signaling NaN. -/
def FpVal.signaling : FpVal → Bool
  | .nan s => s
  | _ => false

/-- The sign of a signed sum that may be 0: with a zero sum of unlike signs, plus. -/
def FpFmt.roundSum (f : FpFmt) (z : Int) (e : Int) (zeroNeg : Bool) : Nat × FpFlags :=
  if z = 0 then (f.sign zeroNeg 0, {}) else f.round (decide (z < 0)) z.natAbs e false

/-- A signed mantissa. -/
def signed (neg : Bool) (m : Nat) : Int := if neg then -(m : Int) else m

/-- Addition of decoded values. -/
def FpFmt.addV (f : FpFmt) (a b : FpVal) : Nat × FpFlags :=
  match a, b with
  | .nan s, y => f.nanResult (s || y.signaling)
  | x, .nan s => f.nanResult (s || x.signaling)
  | .inf s, .inf t => if s == t then (f.sign s f.infBits, {}) else f.nanResult true
  | .inf s, .fin _ _ _ => (f.sign s f.infBits, {})
  | .fin _ _ _, .inf t => (f.sign t f.infBits, {})
  | .fin s m e, .fin t n g =>
    let lo := min e g
    f.roundSum (signed s m * 2 ^ (e - lo).toNat + signed t n * 2 ^ (g - lo).toNat) lo (s && t)

/-- Negate a pattern. -/
def FpFmt.neg (f : FpFmt) (x : Nat) : Nat := if bitOf x (f.eb + f.mb) then x - f.signBit else x + f.signBit

/-- The magnitude of a pattern. -/
def FpFmt.abs (f : FpFmt) (x : Nat) : Nat := x % f.signBit

def FpFmt.add (f : FpFmt) (a b : Nat) : Nat × FpFlags := f.addV (f.dec a) (f.dec b)

/-- Flip the sign of a decoded value. -/
def FpVal.negate : FpVal → FpVal
  | .nan s => .nan s
  | .inf n => .inf (!n)
  | .fin n m e => .fin (!n) m e

def FpFmt.sub (f : FpFmt) (a b : Nat) : Nat × FpFlags := f.addV (f.dec a) (f.dec b).negate

def FpFmt.mul (f : FpFmt) (a b : Nat) : Nat × FpFlags :=
  match f.dec a, f.dec b with
  | .nan s, y => f.nanResult (s || y.signaling)
  | x, .nan s => f.nanResult (s || x.signaling)
  | .inf s, .inf t => (f.sign (s != t) f.infBits, {})
  | .inf s, .fin t n _ => if n = 0 then f.nanResult true else (f.sign (s != t) f.infBits, {})
  | .fin s m _, .inf t => if m = 0 then f.nanResult true else (f.sign (s != t) f.infBits, {})
  | .fin s m e, .fin t n g => f.round (s != t) (m * n) (e + g) false

def FpFmt.div (f : FpFmt) (a b : Nat) : Nat × FpFlags :=
  match f.dec a, f.dec b with
  | .nan s, y => f.nanResult (s || y.signaling)
  | x, .nan s => f.nanResult (s || x.signaling)
  | .inf _, .inf _ => f.nanResult true
  | .inf s, .fin t _ _ => (f.sign (s != t) f.infBits, {})
  | .fin s _ _, .inf t => (f.sign (s != t) 0, {})
  | .fin s m e, .fin t n g =>
    if n = 0 then
      (if m = 0 then f.nanResult true else (f.sign (s != t) f.infBits, { divZero := true }))
    else if m = 0 then (f.sign (s != t) 0, {})
    else f.roundRat (s != t) m n (e - g)

/-- Fused multiply-add a × b + c, rounded once. -/
def FpFmt.fma (f : FpFmt) (a b c : Nat) : Nat × FpFlags :=
  match f.dec a, f.dec b, f.dec c with
  | .nan s, y, z => f.nanResult (s || y.signaling || z.signaling)
  | x, .nan s, z => f.nanResult (s || x.signaling || z.signaling)
  | .inf s, .inf t, z => infTimes (s != t) z
  | .inf s, .fin t n _, z => if n = 0 then f.nanResult true else infTimes (s != t) z
  | .fin s m _, .inf t, z => if m = 0 then f.nanResult true else infTimes (s != t) z
  | .fin _ _ _, .fin _ _ _, .nan s => f.nanResult s
  | .fin _ _ _, .fin _ _ _, .inf t => (f.sign t f.infBits, {})
  | .fin s m e, .fin t n g, .fin u k h => f.addV (.fin (s != t) (m * n) (e + g)) (.fin u k h)
where
  /-- A product that is infinite plus the addend. -/
  infTimes (neg : Bool) (z : FpVal) : Nat × FpFlags :=
    match z with
    | .nan s => f.nanResult s
    | .inf t => if neg == t then (f.sign neg f.infBits, {}) else f.nanResult true
    | .fin _ _ _ => (f.sign neg f.infBits, {})

def FpFmt.sqrt (f : FpFmt) (a : Nat) : Nat × FpFlags :=
  match f.dec a with
  | .nan s => f.nanResult s
  | .inf s => if s then f.nanResult true else (f.infBits, {})
  | .fin s m e =>
    if m = 0 then (f.sign s 0, {})
    else if s then f.nanResult true
    else
      let t := 2 * (f.mb + 4)
      let t := if (e - t) % 2 = 0 then t else t + 1
      let n := m * 2 ^ t
      let r := isqrt n
      f.round false r ((e - t) / 2) (r * r != n)

/-- An integer rounded to the format. -/
def FpFmt.ofInt (f : FpFmt) (z : Int) : Nat × FpFlags := f.roundSum z 0 false

/-- z × 2^e rounded to the format. -/
def FpFmt.ofScaled (f : FpFmt) (z : Int) (e : Int) : Nat := (f.roundSum z e false).1

/-- The exact value as an integer scaled by 2^k and floored; none for NaN and infinities. -/
def FpFmt.floorScaled (f : FpFmt) (x : Nat) (k : Int) : Option Int :=
  match f.dec x with
  | .fin s m e =>
    some (if 0 ≤ e + k then signed s m * 2 ^ (e + k).toNat else signed s m / 2 ^ (-(e + k)).toNat)
  | _ => none

/-- The exact value as an integer scaled by 2^k and rounded to nearest even. -/
def FpFmt.nearScaled (f : FpFmt) (x : Nat) (k : Int) : Option Int :=
  match f.dec x with
  | .fin s m e =>
    some (if 0 ≤ e + k then signed s m * 2 ^ (e + k).toNat
      else
        let sh := (-(e + k)).toNat
        let q := m / 2 ^ sh
        let r := m % 2 ^ sh
        let up := decide (2 ^ sh < 2 * r) || (2 * r == 2 ^ sh && q % 2 == 1)
        signed s (q + b2n up))
  | _ => none

/-- Finite. -/
def FpFmt.isFinite (f : FpFmt) (x : Nat) : Bool := bits x f.mb f.eb != 2 ^ f.eb - 1

/-- NaN. -/
def FpFmt.isNan (f : FpFmt) (x : Nat) : Bool := !f.isFinite x && bits x 0 f.mb != 0

/-- Finite and greater than 0. -/
def FpFmt.isPos (f : FpFmt) (x : Nat) : Bool := f.isFinite x && decide (0 < x ∧ x < f.signBit)

/-- Comparison: none when unordered, else the ordering. -/
def FpFmt.cmp (f : FpFmt) (a b : Nat) : Option Ordering :=
  if f.isNan a || f.isNan b then none
  else
    let v (x : Nat) : Int := if bitOf x (f.eb + f.mb) then -(f.abs x : Int) else (f.abs x : Int)
    some (compare (v a) (v b))

/-- a < b, false when unordered. -/
def FpFmt.lt (f : FpFmt) (a b : Nat) : Bool := f.cmp a b == some .lt

/-- a ≤ b, false when unordered. -/
def FpFmt.le (f : FpFmt) (a b : Nat) : Bool := f.cmp a b == some .lt || f.cmp a b == some .eq

/-! ### Sines in fixed point -/

/-- 2π × 2^80, truncated. -/
def twoPiQ80 : Nat := 0x6487ED5110B4611A62633

/-- Terms of the sine series of x (units of 2^-80) from term k on. -/
def sinSeries : Nat → Nat → Int → Int → Int
  | 0, _, _, _ => 0
  | n + 1, k, x2, t => t + sinSeries n (k + 2) x2 (-(t * x2 / 2 ^ 80) / ((k + 1) * (k + 2) : Nat))

/-- sin(2π a / b) in units of 2^-80, for a / b in the first quarter turn. -/
def sinQ80 (a b : Nat) : Int :=
  let x : Int := (twoPiQ80 * a / b : Nat)
  sinSeries 20 1 (x * x / 2 ^ 80) x

/-- The sine table of R156: round(32 767 × sin(2π m / 1 024)). -/
def sinTab (m : Nat) : Int :=
  let m := m % 1024
  let q (i : Nat) : Int := (2 * 32767 * sinQ80 i 1024 + 2 ^ 80) / 2 ^ 81
  if m ≤ 256 then q m
  else if m ≤ 512 then q (512 - m)
  else if m ≤ 768 then -q (m - 512)
  else -q (1024 - m)

/-- The number of steps of 1/n turn below the first-quadrant angle of (c, s): bitwise search, `k` bits left. -/
def angleSearch (n : Nat) (c s : Nat) : Nat → Nat → Nat
  | 0, acc => acc
  | k + 1, acc =>
    let i := acc + 2 ^ k
    let ge : Bool := if n / 4 ≤ i then false
      else if 8 * i = n then decide (c ≤ s)
      else decide ((c : Int) * sinQ80 i n ≤ (s : Int) * sinQ80 (n / 4 - i) n)
    angleSearch n c s k (if ge then i else acc)

/-- floor(atan2(s, c) / 2π × 2^ib), in 0 … 2^ib − 1, for ib ≥ 2; 0 at the origin. -/
def angleOf (s c : Int) (ib : Nat) : Nat :=
  let n := 2 ^ ib
  let go (a b : Int) : Nat := angleSearch n a.toNat b.toNat ib 0
  if s = 0 ∧ c = 0 then 0
  else if 0 < c ∧ 0 ≤ s then go c s
  else if c ≤ 0 ∧ 0 < s then n / 4 + go s (-c)
  else if c < 0 ∧ s ≤ 0 then n / 2 + go (-c) (-s)
  else 3 * (n / 4) + go (-s) c

end Sys2Proof.Machine
end

