-- ==== Sys2Proof/Machine/Feeds.lean ====
section
/-!
DEFINITION. Machine/Feeds.lean: what blocks read of one another: the loop memory's records (R129 … R132), ring words and
slots (R313, R316), ADC samples, encoder counts and axis positions (R108).
-/
namespace Sys2Proof.Machine

/-- What the loop engine keeps of axis `a`. -/
def Dev.lp (d : Dev) (a : Nat) : LoopAx := Tab.look {} a d.loop.axes

/-- Change what the loop engine keeps of axis `a`. -/
def Dev.setLp (d : Dev) (a : Nat) (x : LoopAx) : Dev := { d with loop := { d.loop with axes := Tab.put a x d.loop.axes } }

/-- Host address of a bank of axis `a` in the coefficient window (R129). -/
def bankBase (a bank : Nat) : Nat := 0x28_0000 + 0x1000 * a + 0x400 * bank

/-- Word `w` of the axis header (R131). -/
def Dev.headWord (d : Dev) (a bank w : Nat) : Nat := d.mw (bankBase a bank + 0x300 + 4 * w)

/-- Word `w` of candidate record `c` (R132). -/
def Dev.candWord (d : Dev) (a bank c w : Nat) : Nat := d.mw (bankBase a bank + 0x340 + 32 * c + 4 * w)

/-- Word `w` of section record `j` (R130). -/
def Dev.secWord (d : Dev) (a bank j w : Nat) : Nat := d.mw (bankBase a bank + 16 * j + 4 * w)

/-- The active bank of an axis. -/
def Dev.bankOf (d : Dev) (a : Nat) : Nat := d.r (Reg.AXIS_STAT_BANK a)

/-- An axis is enabled in the loop engine. -/
def Dev.axisOn (d : Dev) (a : Nat) : Bool := d.b (Reg.AXIS_STAT_ENABLED a)

/-- The destination of a bank: OUT_KIND and OUT_TARGET (R124, R131). -/
def Dev.outOf (d : Dev) (a bank : Nat) : Nat × Nat :=
  let w := d.headWord a bank 2
  let k := w % 4
  (k, if k = 3 then bits w 2 18 else bits w 2 15)

/-- Word `w` of the axis parameter record of the profile generator (R189). -/
def Dev.paramWord (d : Dev) (a w : Nat) : Nat := d.mw (0x37_0000 + 0x40 * a + 4 * w)

/-- What the profile generator keeps of axis `a`. -/
def Dev.px (d : Dev) (a : Nat) : PrfAx := Tab.look {} a d.prf.axes

/-- Change what the profile generator keeps of axis `a`. -/
def Dev.setPx (d : Dev) (a : Nat) (x : PrfAx) : Dev := { d with prf := { d.prf with axes := Tab.put a x d.prf.axes } }

/-- What the field die keeps of team `t`. -/
def Dev.tx (d : Dev) (t : Nat) : TeamX := Tab.look {} t d.team.teams

/-- Change what the field die keeps of team `t`. -/
def Dev.setTx (d : Dev) (t : Nat) (x : TeamX) : Dev := { d with team := { d.team with teams := Tab.put t x d.team.teams } }

/-- Encoder interface `e`. -/
def Dev.ex (d : Dev) (e : Nat) : EncX := Tab.look {} e d.team.enc

/-- Change encoder interface `e`. -/
def Dev.setEx (d : Dev) (e : Nat) (x : EncX) : Dev := { d with team := { d.team with enc := Tab.put e x d.team.enc } }

/-- Ring port `p`. -/
def Dev.rp (d : Dev) (p : Nat) : RingPort := Tab.look {} p d.crd.ports

/-- Change ring port `p`. -/
def Dev.setRp (d : Dev) (p : Nat) (x : RingPort) : Dev := { d with crd := { d.crd with ports := Tab.put p x d.crd.ports } }

/-- A slot of a ring's slot table. -/
structure SlotCfg where
  index : Nat
  node : Nat
  slot : Nat
  kind : Nat
  firstOut : Nat
  firstIn : Nat
  outWords : Nat
  inWords : Nat
  spFrac : Nat
  outSig : Option Nat
  inSig : Option Nat
deriving DecidableEq, Repr

/-- Word `w` of slot table entry `i` of ring `p`. -/
def Dev.slotWord (d : Dev) (p i w : Nat) : Nat := d.mw (0x71_0000 + 0x1000 * p + 0x10 * i + 4 * w)

/-- Slot table entry `i` of ring `p`, when in use. -/
def Dev.slotCfg (d : Dev) (p i : Nat) : Option SlotCfg :=
  let w0 := d.slotWord p i 0
  let w1 := d.slotWord p i 1
  let w2 := d.slotWord p i 2
  let w3 := d.slotWord p i 3
  if bitOf w0 13 then
    some { index := i, node := bits w0 0 7, slot := bits w0 7 4, kind := bits w0 11 2, firstOut := bits w0 14 6,
           firstIn := bits w0 20 6, outWords := bits w1 0 7, inWords := bits w1 7 7, spFrac := bits w1 14 5,
           outSig := if bitOf w2 18 then some (bits w2 0 18) else none,
           inSig := if bitOf w3 18 then some (bits w3 0 18) else none }
  else none

/-- The slots of ring `p`, in slot table order (R312). -/
def Dev.ringSlots (d : Dev) (p : Nat) : List SlotCfg := (List.range 256).filterMap (d.slotCfg p)

/-- In word `word` of `node` in the present epoch; none when its slot is empty or no slot covers it (R315). -/
def Dev.ringWord (d : Dev) (ring node word : Nat) : Option Nat :=
  ((d.rp ring).ins.find? (fun e => e.1 == 64 * node + word)).map (·.2)

/-- The 32-bit value of two consecutive in words, low word first (R313). -/
def Dev.ringNow (d : Dev) (ring node word : Nat) : Option Nat :=
  match d.ringWord ring node word, d.ringWord ring node (word + 1) with
  | some lo, some hi => some (lo + hi * 2 ^ 16)
  | _, _ => none

/-- The node has a TIMED slot (R316). -/
def Dev.ringHasTimed (d : Dev) (ring node : Nat) : Bool :=
  (d.ringSlots ring).any (fun s => s.node == node && s.kind == 2)

/-- The epoch sample of an ADC input (R209). -/
def Dev.adcNow (d : Dev) (i : Nat) : Option Int :=
  if d.b (Reg.ADC_EPOCH_VALID i) then some (sx 16 (d.r (Reg.ADC_EPOCH_SAMPLE i))) else none

/-- The count of an encoder latched at the boundary of this epoch; none when it is missing (R212, R213). -/
def Dev.encoderNow (d : Dev) (e : Nat) : Option Nat := if d.b (Reg.ENC_STAT_FAULT e) then none else (d.ex e).latched

/-- The stepper team that takes the set-points of an axis (R222). -/
def Dev.stepperOf (d : Dev) (a : Nat) : Option Nat :=
  let w := d.paramWord a 0
  if w % 8 = 2 then some (bits w 3 5) else none

/-- The axis position of the present epoch (R108, R223). -/
def Dev.axisNow (d : Dev) (a : Nat) : Option Int :=
  if bits (d.headWord a (d.bankOf a) 1) 0 2 = 0 then
    (d.stepperOf a).map (fun t => sx 64 (d.r (Reg.STEP_POS t)))
  else if (d.lp a).posNow then some (d.lp a).pos else none

/-- A loop axis targets this demand input: the active bank of an enabled axis names it (R199). -/
def Dev.demandTargeted (d : Dev) (t input : Nat) : Bool :=
  (List.range 128).any (fun a => d.axisOn a && d.outOf a (d.bankOf a) == (2, t + 32 * input))

end Sys2Proof.Machine
end

