-- ==== Sys2Proof/Machine/Calendar.lean ====
section
/-!
DEFINITION. Machine/Calendar.lean: the master coordinates and the event calendar of "Master Coordinates and the Event
Calendar" (R52 … R81, R612).
-/
namespace Sys2Proof.Machine

/-! ### Coordinates (R52 … R60) -/

/-- Coordinate `n`. -/
def Dev.coord (d : Dev) (n : Nat) : Coord := Tab.look {} n d.cal.coords

/-- Change coordinate `n`. -/
def Dev.setCoord (d : Dev) (n : Nat) (x : Coord) : Dev :=
  { d with cal := { d.cal with coords := Tab.put n x d.cal.coords } }

/-- The modulus of coordinate `n`, 0 for a linear one. -/
def Dev.modulus (d : Dev) (n : Nat) : Nat := d.r (Reg.COORD_MOD n)

/-- A value reduced into [0, MOD) on a modulo coordinate (R55); a linear one wraps at 64 bits. -/
def reduceC (m : Nat) (z : Int) : Int := if m = 0 then sx 64 (un 64 z) else z % m

/-- The difference of two samples: on a modulo coordinate the shortest signed distance in [−MOD/2, MOD/2) (R55). -/
def diffC (m : Nat) (a b : Int) : Int :=
  if m = 0 then a - b
  else
    let r := (a - b) % m
    if 2 * r < m then r else r - m

/-- The exact product of a quantity `num / den` with SCALE (Q32.32), truncated once (R54). -/
def scaled (num : Int) (den : Nat) (scale : Int) : Int := num * scale / den

/-- The backbone source extrapolated to the boundary of epoch `n` (R56): the exact value, as numerator and denominator,
in Q32.32. DEDUCED: with one production value so far there is no slope, and the sample, which R59 does not call missing, is that
value. -/
def Dev.remoteNow (d : Dev) (c : Coord) (kProd n : Nat) : Option (Int × Nat) :=
  match c.remote with
  | (e1, v1) :: (e0, v0) :: _ =>
    -- time in base periods: the boundary of epoch n is n × k, producer epoch e starts at e × kProd
    let k := d.r Reg.EPK_CFG_K
    let span : Int := ((e1 : Int) - e0) * kProd
    let ahead : Int := (n * k : Nat) - (e1 * kProd : Nat)
    if span > 0 then some (v1 * span + (v1 - v0) * ahead, span.toNat) else some (v1, 1)
  | [(_, v)] => some (v, 1)
  | [] => none

/-- The product count × SCALE of a real sample of coordinate `n`, with the unwrapped count it rests on; none when the
sample is missing (R53, R54, R59). -/
def Dev.coordProduct (d : Dev) (n : Nat) (c : Coord) : Option (Coord × Int) :=
  let sel := d.r (Reg.COORD_SRC_SEL n)
  let fromRaw (raw : Nat) : Coord × Int :=
    let cnt : Int := if c.taken = 0 then sx 32 raw else c.count + sx 32 (raw + 2 ^ 32 - c.lastRaw)
    let cnt := sx 64 (un 64 cnt)
    ({ c with count := cnt, lastRaw := raw }, scaled cnt 1 c.scale)
  match d.r (Reg.COORD_CFG_KIND n) with
  | 1 => (d.encoderNow (sel % 32)).map fromRaw
  | 2 => (d.axisNow (sel % 128)).map (fun p => (c, scaled p (2 ^ 24) c.scale))
  | 3 => (d.ringNow (sel % 4) (sel / 4 % 128) (sel / 512 % 64)).map fromRaw
  | 4 =>
    match d.ep.newest.recOf sel, d.ep.subs.find? (fun u => decide (u.base ≤ sel) && decide (sel < u.base + u.count)) with
    | some r, some u =>
      if r.null || r.missed || r.prodEpoch == noEpoch then none
      else
        let v := sx 64 (pair64 (d.signal sel) (d.signal (sel + 1)))
        let rem := match c.remote with
          | (e, _) :: _ => if e = r.prodEpoch then c.remote else ((r.prodEpoch, v) :: c.remote).take 2
          | [] => [(r.prodEpoch, v)]
        let c := { c with remote := rem }
        (d.remoteNow c u.kProd (d.r Reg.EPK_NOW)).map (fun x => (c, scaled x.1 (2 ^ 32 * x.2) c.scale))
    | _, _ => none
  | 5 => some (c, 0)
  | _ => none

/-- v_f of R60 in Q32.32 user units per second, truncated. -/
def Dev.filtered (d : Dev) (n : Nat) (c : Coord) : Int :=
  let h := c.hist.length - 1
  let j := min (2 ^ d.r (Reg.COORD_CFG_VEL_SPAN n)) h
  if j = 0 ∨ d.b (Reg.COORD_STAT_LOST n) then 0
  else diffC (d.modulus n) (c.hist.getD 0 0) (c.hist.getD j 0) * 1000000000 / ((j * d.te : Nat) : Int)

/-- Show a coordinate in its registers. -/
def Dev.showCoord (d : Dev) (n : Nat) : Dev :=
  let c := d.coord n
  (d.ws (Reg.COORD_VAL n) c.cur).ws (Reg.COORD_VEL n) (d.filtered n c)

/-- A sample `s` enters a coordinate that is not LOST. -/
def Coord.take (c : Coord) (s : Int) : Coord :=
  { c with prev := c.cur, cur := s, hist := (s :: c.hist).take 257, taken := c.taken + 1 }

/-- The first real sample after a takeover: the restored history is shifted so that its last step leads to it. -/
def Coord.bridge (old : Coord) (m : Nat) (s : Int) (new : Coord) : Coord :=
  let h0 := old.hist.getD 0 s
  let h1 := old.hist.getD 1 h0
  let delta := diffC m s (reduceC m (h0 + diffC m h0 h1))
  { new with gap := false, hist := s :: (old.hist.map (fun z => reduceC m (z + delta))).take 256 }

/-- COORD_PRESET_APPLY (R57): OFFSET changes so that the sample equals the preset, and every stored sample shifts. -/
def Dev.applyPreset (d : Dev) (n : Nat) : Dev :=
  let c := d.coord n
  match c.presetDue with
  | none => d
  | some v =>
    if c.taken = 0 then d
    else
      let m := d.modulus n
      let v := reduceC m v
      let delta := v - c.cur
      let sh (z : Int) : Int := reduceC m (z + delta)
      let c := { c with
        offset := sx 64 (un 64 (c.offset + delta)), cur := v, prev := sh c.prev, hist := c.hist.map sh,
        presetDue := none, presetNow := true, firstReal := sh c.firstReal }
      (d.setCoord n c).flag (Reg.COORD_STAT_PRESET n)

/-- COORD_SAMPLE, COORD_EXTRAPOLATE, COORD_LOST and COORD_VALID (R54, R58, R59): one coordinate at its latch. -/
def Dev.latchCoord (d : Dev) (n : Nat) : Dev :=
  if !d.b (Reg.COORD_CFG_ENABLE n) then d
  else
    let c := { d.coord n with presetNow := false, sampleEpoch := d.r Reg.EPK_NOW }
    let m := d.modulus n
    let lost := d.b (Reg.COORD_STAT_LOST n)
    let d := match d.coordProduct n c with
      | some (c1, prod) =>
        let s := if d.r (Reg.COORD_CFG_KIND n) = 5 then
            (if c1.taken = 0 then reduceC m c1.offset else reduceC m (c1.cur + c1.scale))
          else reduceC m (prod + c1.offset)
        if lost then
          -- frozen until two real samples in a row (R59, R60)
          if c1.realRun = 0 then
            d.setCoord n { c1 with realRun := 1, firstReal := s, missRun := 0, taken := c1.taken + 1 }
          else
            let c2 := { c1 with
              prev := c1.firstReal, cur := s, hist := [s, c1.firstReal], realRun := 0, missRun := 0,
              taken := c1.taken + 1 }
            ((d.setCoord n c2).wb (Reg.COORD_STAT_LOST n) false).wb (Reg.COORD_STAT_VALID n) true
        else
          let c2 := { c1.take s with missRun := 0 }
          let c2 := if c1.gap then c1.bridge m s c2 else c2
          let d := (d.setCoord n c2).wb (Reg.COORD_STAT_EXTRAP n) false
          if c2.taken ≥ 2 then d.wb (Reg.COORD_STAT_VALID n) true else d
      | none =>
        if lost then d.setCoord n { c with realRun := 0 }
        else if c.taken = 0 then d.setCoord n c
        else if c.missRun ≥ d.r (Reg.COORD_CFG_HOLD n) then
          let d := d.setCoord n { c with missRun := c.missRun + 1, realRun := 0, prev := c.cur }
          (((d.wb (Reg.COORD_STAT_LOST n) true).wb (Reg.COORD_STAT_VALID n) false).wb
            (Reg.COORD_STAT_EXTRAP n) false).flag (Reg.COORD_STAT_LOST_SEEN n)
        else
          let step := if c.taken = 1 then 0 else diffC m c.cur c.prev
          let c2 := { c.take (reduceC m (c.cur + step)) with missRun := c.missRun + 1 }
          let d := (d.setCoord n c2).wb (Reg.COORD_STAT_EXTRAP n) true
          if c2.taken ≥ 2 then d.wb (Reg.COORD_STAT_VALID n) true else d
    (d.applyPreset n).showCoord n

/-- What the boundary itself does for the coordinates and the calendar: presets and scales written before it become due
(R57, COORD_SCALE), and CAL_CTRL.RUN takes effect (R78). -/
def Dev.calendarBoundary (d : Dev) : Dev :=
  let d := d.each [0, 1, 2, 3, 4, 5, 6, 7] (fun n d =>
    let c := d.coord n
    let c := if c.scalePending then { c with scale := sx 64 (d.r (Reg.COORD_SCALE n)), scalePending := false } else c
    let c := if d.b (Reg.COORD_CFG_ENABLE n) then
        (match c.presetNew with
          | some v => { c with presetDue := some v, presetNew := none }
          | none => c)
      else c
    if c = d.coord n then d else d.setCoord n c)
  let run := d.b Reg.CAL_CTRL_RUN
  { d with cal := { d.cal with run := run, stopping := d.cal.stopping || (d.cal.run && !run) } }

/-- Meaning of CALENDAR_LATCH (R61). -/
def execCalendarLatch (s : State) : Host.Outcome State Fault Refusal :=
  ok s (fun _ d => if d.enginesStill then d else d.each [0, 1, 2, 3, 4, 5, 6, 7] (fun n d => d.latchCoord n))

/-! ### Event entries (R69, R70, R81) -/

/-- Host address of word `w` of entry `i`. -/
def entryAddr (i w : Nat) : Nat := 0x32_0000 + 32 * i + 4 * w

/-- The fields of an entry as the evaluation uses them. -/
structure Entry where
  w0 : Nat
  action : Nat
  kind : Nat
  dir : Nat
  rearm : Nat
  pred : Bool
  speedQ : Bool
  gateEn : Bool
  coord : Nat
  x : Int
  y : Int
  vmax : Nat
  level : Bool
  target : Nat
  gateId : Nat
  gateBit : Nat
  gatePol : Bool
deriving DecidableEq, Repr

/-- Entry `i` as stored. -/
def Dev.entry (d : Dev) (i : Nat) : Entry :=
  let w0 := d.mw (entryAddr i 0)
  let w6 := d.mw (entryAddr i 6)
  let w7 := d.mw (entryAddr i 7)
  { w0 := w0, action := bits w0 20 4, kind := bits w0 18 2, dir := bits w0 16 2, rearm := bits w0 14 2,
    pred := bitOf w0 13, speedQ := bitOf w0 12, gateEn := bitOf w0 11, coord := bits w0 8 3,
    x := sx 64 (d.mw2 (entryAddr i 1)), y := sx 64 (d.mw2 (entryAddr i 3)), vmax := d.mw (entryAddr i 5),
    level := bitOf w6 31, target := bits w6 0 31, gateId := bits w7 0 18, gateBit := bits w7 18 5,
    gatePol := bitOf w7 23 }

/-- Set a bit of word 0 of an entry: 31 ENABLE, 30 FIRED, 29 PENDING, 28 ARMED. -/
def Dev.entryBit (d : Dev) (i bit : Nat) (v : Bool) : Dev :=
  d.putMw (entryAddr i 0) (setBit (d.mw (entryAddr i 0)) bit v)

/-- The checks of R81 on one entry. -/
def Dev.entryRefused (d : Dev) (i : Nat) : Bool :=
  let e := d.entry i
  let modulo := d.modulus e.coord != 0
  let reservedCode := decide (8 < e.action) || e.kind == 3 ||
    (e.kind == 0 && (e.dir == 3 || e.rearm == 3)) ||
    (e.kind == 2 && !(decide (1 ≤ e.action) && decide (e.action ≤ 3)))
  let window := e.kind != 0 && (e.x == e.y || (!modulo && decide (e.y < e.x)))
  let pitch := e.kind == 0 && e.rearm == 2 &&
    (e.y == 0 || (e.dir == 0 && decide (e.y < 0)) || (e.dir == 1 && decide (0 < e.y)))
  let hyst := e.kind == 0 && e.rearm == 1 && decide (e.y < 0)
  let out1 := e.action == 1 && d.r (Reg.FIO_OUT_CFG_OWNER (e.target % 32)) != 1
  let out2 := e.action == 2 && !d.ringHasTimed (e.target % 4) (e.target / 4 % 128)
  let sig := e.action == 3 && (match d.cal.pub with
    | some (b, n) => !(decide (b ≤ e.target % 2 ^ 18) && decide (e.target % 2 ^ 18 < b + n))
    | none => true)
  reservedCode || window || pitch || hyst || out1 || out2 || sig

/-- The enabled entries are counted in CAL_ENABLED. -/
def Dev.countEnabled (d : Dev) : Dev := d.w Reg.CAL_ENABLED d.cal.enabled.length

/-- Enable an entry that passed the checks: evaluated from the next evaluation; a GEAR action is handed to the profile
generator now (R73). -/
def Dev.enableEntry (d : Dev) (i : Nat) : Dev :=
  let e := d.entry i
  let d := (d.entryBit i 31 true).entryBit i 28 false
  let on := if d.cal.enabled.contains i then d.cal.enabled else insertBy id i d.cal.enabled
  let d := { d with cal := { d.cal with enabled := on, events := Tab.put i {} d.cal.events } }
  let d := if e.action = 4 then
      { d with cal := { d.cal with gearOut := d.cal.gearOut ++ [(e.target % 128, e.target / 128 % 16, e.x, e.coord)] } }
    else d
  d.countEnabled

/-- Disable an entry: its scheduled switches are cancelled, and an unconfirmed one that has occurred is retracted at the
next evaluation (R77). -/
def Dev.disableEntry (d : Dev) (i : Nat) : Dev :=
  let mine := d.cal.switches.filter (fun w => w.event == i)
  let d := { d with cal := { d.cal with
    enabled := d.cal.enabled.filter (· != i),
    switches := d.cal.switches.filter (fun w => w.event != i),
    orphans := d.cal.orphans ++ mine.filter (fun (w : Switch) => w.occurred) } }
  ((d.entryBit i 31 false).entryBit i 29 false).countEnabled

/-- Entry `i` is enabled. -/
def Dev.entryOn (d : Dev) (i : Nat) : Bool := bitOf (d.mw (entryAddr i 0)) 31

/-- The writable fields of word 0 beside ENABLE and FIRED. -/
def word0Mask : Nat := 0x00FF_FF00

/-- A register write to word `w` of entry `i` (R69, R77, R81). -/
def Dev.entryWrite (d : Dev) (i w v : Nat) : Dev :=
  let old := d.mw (entryAddr i 0)
  if d.entryOn i then
    if w = 0 then
      let d := if bitOf v 30 then d.entryBit i 30 false else d
      if bitOf v 31 then d else d.disableEntry i
    else d.flag Reg.CAL_STAT_EDIT_REFUSED
  else if w = 0 then
    let keep := old % 2 ^ 31 / 2 ^ 28 * 2 ^ 28
    let d := d.putMw (entryAddr i 0) (keep + Nat.land v word0Mask)
    let d := if bitOf v 30 then d.entryBit i 30 false else d
    if bitOf v 31 then
      (if d.entryRefused i then d.flag Reg.CAL_STAT_BAD_ENABLE else d.enableEntry i)
    else d
  else if w = 7 then d.putMw (entryAddr i 7) (v % 2 ^ 24)
  else d.putMw (entryAddr i w) v

/-- Meaning of CAL_ENTRY_WRITE. -/
def execCalEntryWrite (path : Path) (i : Fin 4096) (w : Fin 8) (v : Word) (s : State) : Host.Outcome State Fault Refusal :=
  ok s (fun _ d => d.access path false true (fun d => d.entryWrite i.val w.val v.toNat))

/-- Meaning of CAL_ENTRY_ENABLE_WRITE: a write of word 0 that sets ENABLE. -/
def execCalEntryEnableWrite (path : Path) (i : Fin 4096) (v : Word) (s : State) : Host.Outcome State Fault Refusal :=
  ok s (fun _ d => d.access path false true (fun d => d.entryWrite i.val 0 (setBit v.toNat 31 true)))

/-! ### Actions (R73, R75) -/

/-- The target key of actions 1 to 3, to see conflicts (R75). -/
def Entry.targetKey (e : Entry) : Nat := e.action * 2 ^ 32 + e.target

/-- The level that an output or signal of the calendar has now. -/
def Dev.calLevel (d : Dev) (e : Entry) : Bool :=
  match e.action with
  | 1 => bitOf d.fio.calLevels (e.target % 32)
  | 2 => Tab.look false (e.target % 2 ^ 13) d.cal.ringBits
  | 3 => decide (Mem.word d.cal.sigs (4 * (e.target % 2 ^ 18)) ≠ 0)
  | _ => false

/-- Set the level of an output or signal of the calendar (FIELD_OUT, RING_OUT, SIGNAL of R73), at `instant` ns. -/
def Dev.setCalLevel (d : Dev) (e : Entry) (lv : Bool) (instant : Nat) : Dev :=
  match e.action with
  | 1 => d.calendarOutput (e.target % 32) lv
  | 2 =>
    let old := Tab.look false (e.target % 2 ^ 13) d.cal.ringBits
    let d := { d with cal := { d.cal with ringBits := Tab.put (e.target % 2 ^ 13) lv d.cal.ringBits } }
    if old = lv then d
    else { d with cal := { d.cal with ringOut := d.cal.ringOut ++
      [(e.target % 4, e.target / 4 % 128, e.target / 512 % 16, instant, lv, false)] } }
  | 3 => { d with cal := { d.cal with sigs := Mem.putWord d.cal.sigs (4 * (e.target % 2 ^ 18)) (b2n lv) } }
  | _ => d

/-- A calendar notice (R73, R538): event index, sample epoch and S_N, to the function of the target. -/
def Dev.calNotice (d : Dev) (pf1 : Bool) (i : Nat) (c : Coord) : Dev :=
  let o : Origin := if pf1 then .pf1 0 else .pf0 0
  if (d.hostSet o).calNotice then
    d.notice o 0 [i, loW c.sampleEpoch, hiW c.sampleEpoch, loW (un 64 c.cur), hiW (un 64 c.cur)]
  else d

/-- Actions 5 to 8 of R73 at a firing (0 has none, and 4 was handed over at enable). -/
def Dev.fireAction (d : Dev) (i : Nat) (e : Entry) : Dev :=
  match e.action with
  | 5 => { d with cal := { d.cal with profileOut := d.cal.profileOut ++ [(e.target % 128, e.target / 128 % 16)] } }
  | 6 => { d with cal := { d.cal with workOut := d.cal.workOut ++ [e.target % 4096] } }
  | 7 => d.calNotice (bitOf e.target 0) i (d.coord e.coord)
  | 8 =>
    let j := e.target % 4096
    if d.entryOn j then d
    else if d.entryRefused j then d.flag Reg.CAL_STAT_BAD_ENABLE
    else d.enableEntry j
  | _ => d

/-- FIRED and the firing counter; trace trigger 3 sees it (R149). -/
def Dev.markFired (d : Dev) (i : Nat) : Dev :=
  let d := (d.entryBit i 30 true).inc Reg.CAL_FIRED_CNT
  { d with trc := { d.trc with firedNow := i :: d.trc.firedNow } }

/-- What a firing does to a CROSS event (R71, R612): one-shot clears ENABLE, periodic moves X and stays armed, the
others clear ARMED. -/
def Dev.afterCross (d : Dev) (i : Nat) (e : Entry) : Dev :=
  match e.rearm with
  | 0 => (d.entryBit i 28 false).disableEntry i
  | 2 =>
    let nx := un 64 (e.x + e.y)
    (d.putMw (entryAddr i 1) (loW nx)).putMw (entryAddr i 2) (hiW nx)
  | _ =>
    let d := d.entryBit i 28 false
    let em := Tab.look {} i d.cal.events
    { d with cal := { d.cal with events := Tab.put i { em with away := e.rearm == 1 } d.cal.events } }

/-! ### Evaluation (R61 … R66, R70 … R72) -/

/-- The domain time of the evaluation instant of the present epoch, ns (R61). -/
def Dev.evalInstant (d : Dev) : Nat := d.r Reg.EPK_ORIGIN + d.r Reg.EPK_NOW * d.te + 13000

/-- The newest two samples show a crossing of `x` in this direction (R62). -/
def crosses (m : Nat) (c : Coord) (x : Int) (rising : Bool) : Bool :=
  let v := diffC m c.cur c.prev
  let dx := diffC m x c.prev
  if rising then decide (0 < dx ∧ dx ≤ v) else decide (v < dx ∧ dx ≤ 0)

/-- The coordinate lies in [X, Y); X > Y on a modulo coordinate denotes [X, MOD) ∪ [0, Y) (R70). -/
def insideWindow (s x y : Int) : Bool :=
  if x ≤ y then decide (x ≤ s ∧ s < y) else decide (x ≤ s ∨ s < y)

/-- The qualifiers of R72: |v_f| below VMAX, and the gate bit of the current image. -/
def Dev.qualified (d : Dev) (e : Entry) : Bool :=
  (!e.speedQ || decide ((d.rs (Reg.COORD_VEL e.coord)).natAbs < e.vmax * 2 ^ 16)) &&
  (!e.gateEn || bitOf (d.signal e.gateId) e.gateBit == e.gatePol)

/-- The prediction of an event is effective (R66). -/
def Dev.predicts (d : Dev) (e : Entry) : Bool :=
  e.pred && (e.action == 1 || e.action == 2) && d.b (Reg.COORD_CFG_PRED_EN e.coord) && e.kind != 1

/-- SWITCH_PREDICT (R63, R68, R76): schedule the switch at which the extrapolated coordinate reaches `x`. `base` is the
start of the horizon after the boundary, 13 µs, or one epoch more for a ring output. -/
def Dev.predict (d : Dev) (i : Nat) (e : Entry) (c : Coord) (m : Nat) (x : Int) (rising : Bool) (lv : Bool) : Dev :=
  let v := diffC m c.cur c.prev
  let dx := diffC m x c.cur
  let toward := if rising then decide (0 < v ∧ 0 < dx) else decide (v < 0 ∧ dx ≤ 0)
  if !toward then d
  else
    let base := if e.action = 2 then d.te + 13000 else 13000
    let t := cdiv (d.te * dx.natAbs) (10 * v.natAbs) * 10
    let late := decide (t < base)
    let t := max t base
    if t ≥ base + d.te then d
    else if (d.cal.switches.filter (fun w => !w.occurred)).length ≥ 256 then
      (d.inc Reg.CAL_OVF_CNT).flag Reg.CAL_STAT_SCHED_OVF
    else
      let d := if late then d.inc Reg.CAL_LATE_CNT else d
      let boundary := d.r Reg.EPK_ORIGIN + d.r Reg.EPK_NOW * d.te
      let w : Switch := {
        event := i, instant := boundary + t, level := lv, before := d.calLevel e, threshold := x,
        rising := rising, lastEpoch := cdiv (boundary + t - d.r Reg.EPK_ORIGIN) d.te }
      let d := if e.action = 2 then
          { d with cal := { d.cal with ringOut := d.cal.ringOut ++
            [(e.target % 4, e.target / 4 % 128, e.target / 512 % 16, boundary + t, lv, false)] } }
        else d
      ({ d with cal := { d.cal with switches := d.cal.switches ++ [w] } }).entryBit i 29 true

/-- A switch is no longer pending. -/
def Dev.dropSwitch (d : Dev) (w : Switch) : Dev :=
  let d := { d with cal := { d.cal with switches := d.cal.switches.erase w } }
  if d.cal.switches.any (fun x => x.event == w.event) then d else d.entryBit w.event 29 false

/-- SWITCH_RETRACT (R64): the output reverts and CAL_RETRACTED counts; a ring output travels as a withdrawn mark. -/
def Dev.retract (d : Dev) (w : Switch) : Dev :=
  let e := d.entry w.event
  let d := (d.dropSwitch w).inc Reg.CAL_RETRACTED
  let d := if e.action = 2 then
      { d with cal := { d.cal with ringOut := d.cal.ringOut ++
        [(e.target % 4, e.target / 4 % 128, e.target / 512 % 16, w.instant, w.before, true)] } }
    else d
  if w.occurred ∧ e.action = 2 then
    { d with cal := { d.cal with ringBits := Tab.put (e.target % 2 ^ 13) w.before d.cal.ringBits } }
  else if w.occurred then
    let d := if e.action = 1 ∧ w.instant ≤ d.r Reg.EPK_ORIGIN + d.r Reg.EPK_NOW * d.te then
        d.unpublishSwitch (e.target % 32) w.before else d
    d.setCalLevel e w.before d.evalInstant
  else d

/-- What one evaluation has set so far: the targets of actions 1 to 3, and whether two events met on one (R75). -/
structure EvalAcc where
  acted : List Nat := []
  conflict : Bool := false
deriving DecidableEq, Repr

/-- Set a level at the evaluation instant, noting the target. -/
def evalLevel (x : Dev × EvalAcc) (e : Entry) (lv : Bool) : Dev × EvalAcc :=
  let (d, a) := x
  (d.setCalLevel e lv d.evalInstant,
    { acted := e.targetKey :: a.acted, conflict := a.conflict || a.acted.contains e.targetKey })

/-- A firing of a CROSS event, or an edge of a CAM, at the evaluation: `now` says that no switch had been made for it,
so that the action happens at the evaluation instant. -/
def evalFire (x : Dev × EvalAcc) (i : Nat) (e : Entry) (lv now : Bool) : Dev × EvalAcc :=
  let x := if now && decide (1 ≤ e.action ∧ e.action ≤ 3) then evalLevel x e lv
    else if e.action = 3 then evalLevel x e lv else x
  let d := (x.1.markFired i).fireAction i e
  (if e.kind = 0 then d.afterCross i e else d, x.2)

/-- Decide the pending switch of an event at this evaluation (R64, R65): confirmed and fired, retracted, or still
pending. `redo` predicts again after a retraction, so that R65 can compare the two. -/
def decideSwitch (x : Dev × EvalAcc) (i : Nat) (e : Entry) (c : Coord) (m : Nat) (q : Bool) (w : Switch)
    (redo : Dev → Dev) : Dev × EvalAcc :=
  let (d, a) := x
  let shown := !c.presetNow && crosses m c w.threshold w.rising
  if shown && q then evalFire (d.dropSwitch w, a) i e w.level false
  else if shown || decide (w.lastEpoch ≤ d.r Reg.EPK_NOW) || c.presetNow then
    -- retracted, unless a new switch of the event on this very tick sets the level it had set (R65)
    let trial := redo (d.dropSwitch w)
    let again := trial.cal.switches.find? (fun n => n.event == i && n.instant == d.evalInstant)
    match again with
    | some n =>
      if n.level = w.level ∧ w.occurred then
        ({ trial with cal := { trial.cal with
          switches := trial.cal.switches.map (fun y => if y = n then { y with occurred := true, before := w.before } else y) } },
          a)
      else (redo (d.retract w), a)
    | none => (redo (d.retract w), a)
  else x

/-- The near side of a CROSS event (R612). -/
def nearSide (m : Nat) (e : Entry) (c : Coord) : Bool :=
  match e.dir with
  | 0 => decide (diffC m c.cur e.x < 0)
  | 1 => decide (0 ≤ diffC m c.cur e.x)
  | _ => true

/-- The coordinate has returned far enough for hysteresis (R71). -/
def returned (m : Nat) (e : Entry) (c : Coord) : Bool :=
  match e.dir with
  | 0 => decide (diffC m c.cur (e.x - e.y) < 0)
  | 1 => decide (0 ≤ diffC m c.cur (e.x + e.y))
  | _ => decide (diffC m c.cur (e.x - e.y) < 0) || decide (0 ≤ diffC m c.cur (e.x + e.y))

/-- The crossing that a CROSS event's direction asks for, with its sense. -/
def crossShown (m : Nat) (e : Entry) (c : Coord) : Bool :=
  (e.dir != 1 && crosses m c e.x true) || (e.dir != 0 && crosses m c e.x false)

/-- Predict the next switch of a CROSS event. -/
def Dev.predictCross (d : Dev) (i : Nat) (e : Entry) (c : Coord) (m : Nat) : Dev :=
  let up := decide (0 < diffC m c.cur c.prev)
  if (up && e.dir != 1) || (!up && e.dir != 0) then d.predict i e c m e.x up e.level else d

/-- Evaluate a CROSS event (R63 … R66, R71, R72, R612). -/
def evalCross (x : Dev × EvalAcc) (i : Nat) (e : Entry) (c : Coord) (m : Nat) (em : EventMem) (q : Bool) :
    Dev × EvalAcc :=
  let (d, a) := x
  let fresh := !em.seen || c.presetNow
  let wasArmed := if fresh then nearSide m e c else bitOf (d.mw (entryAddr i 0)) 28
  let rearmed := !fresh && !wasArmed && (if em.away then returned m e c else nearSide m e c)
  let d := d.entryBit i 28 (wasArmed || rearmed)
  let em := { em with seen := true, away := em.away && !rearmed && !fresh }
  let d := { d with cal := { d.cal with events := Tab.put i em d.cal.events } }
  let redo (d : Dev) : Dev :=
    if q && d.predicts e && bitOf (d.mw (entryAddr i 0)) 28 && d.entryOn i then d.predictCross i e c m else d
  match d.cal.switches.find? (fun w => w.event == i) with
  | some w => decideSwitch (d, a) i e c m q w redo
  | none =>
    if wasArmed && q && !c.presetNow && crossShown m e c then
      let d := if d.predicts e then d.inc Reg.CAL_LATE_CNT else d
      evalFire (d, a) i e e.level true
    else (redo d, a)

/-- Evaluate a WINDOW event (R70, R72). -/
def evalWindow (x : Dev × EvalAcc) (i : Nat) (e : Entry) (c : Coord) (em : EventMem) (q : Bool) : Dev × EvalAcc :=
  let (d, a) := x
  let now := q && insideWindow c.cur e.x e.y
  let fresh := !em.seen || c.presetNow
  let d := { d with cal := { d.cal with events := Tab.put i { em with seen := true, inside := now } d.cal.events } }
  let entry := !fresh && now && !em.inside
  let x := if decide (1 ≤ e.action ∧ e.action ≤ 3) && (fresh || now != em.inside) then
      evalLevel (d, a) e (if now then e.level else !e.level) else (d, a)
  if entry then ((x.1.markFired i).fireAction i e, x.2) else x

/-- Predict the next edge of a CAM event: entry or exit at X or Y, by the direction of motion. -/
def Dev.predictCam (d : Dev) (i : Nat) (e : Entry) (c : Coord) (m : Nat) (inside : Bool) : Dev :=
  let up := decide (0 < diffC m c.cur c.prev)
  let x := if inside == up then e.y else e.x
  d.predict i e c m x up (if inside then !e.level else e.level)

/-- Evaluate a CAM event (R64 … R66, R70, R72). -/
def evalCam (x : Dev × EvalAcc) (i : Nat) (e : Entry) (c : Coord) (m : Nat) (em : EventMem) (q : Bool) :
    Dev × EvalAcc :=
  let (d, a) := x
  let now := q && insideWindow c.cur e.x e.y
  let fresh := !em.seen || c.presetNow
  let d := { d with cal := { d.cal with events := Tab.put i { em with seen := true, inside := now } d.cal.events } }
  let redo (d : Dev) : Dev := if q && d.predicts e then d.predictCam i e c m now else d
  match d.cal.switches.find? (fun w => w.event == i) with
  | some w =>
    let x := decideSwitch (d, a) i e c m q w redo
    -- with the qualifiers false the output is at not LEVEL from this evaluation (R72)
    if fresh || !q then evalLevel x e (if now then e.level else !e.level) else x
  | none =>
    let lv := if now then e.level else !e.level
    if fresh then let x := evalLevel (d, a) e lv; (redo x.1, x.2)
    else if now != em.inside then
      let d := if d.predicts e && q then d.inc Reg.CAL_LATE_CNT else d
      let x := evalFire (d, a) i e lv true
      (redo x.1, x.2)
    else (redo d, a)

/-- Evaluate one enabled event (R58, R59, R61). -/
def evalEvent (x : Dev × EvalAcc) (i : Nat) : Dev × EvalAcc :=
  let (d, a) := x
  if !d.entryOn i then x
  else
    let e := d.entry i
    let c := d.coord e.coord
    if !d.b (Reg.COORD_STAT_VALID e.coord) then
      if d.b (Reg.COORD_STAT_LOST e.coord) then
        (d.each (d.cal.switches.filter (fun w => w.event == i)) (fun w d => d.retract w), a)
      else x
    else
      let m := d.modulus e.coord
      let em := Tab.look {} i d.cal.events
      let q := d.qualified e
      match e.kind with
      | 0 => evalCross x i e c m em q
      | 1 => evalWindow x i e c em q
      | _ => evalCam x i e c m em q

/-- The calendar publishes its signals (R74). -/
def Dev.publishCalendar (d : Dev) : Dev :=
  match d.cal.pub with
  | some (b, n) => d.publish b (Mem.words d.cal.sigs (4 * b) n)
  | none => d

/-- CALENDAR_EVALUATION (R61, R75, R77, R78). -/
def Dev.calendarEvaluate (d : Dev) : Dev :=
  if d.enginesStill then d
  else
  let d := d.each d.cal.orphans (fun w d => d.retract w)
  let d := { d with cal := { d.cal with orphans := [] } }
  if d.cal.stopping then
    let d := d.each (d.cal.switches.filter (·.occurred)) (fun w d => d.retract w)
    let d := d.each d.cal.switches (fun w d => d.dropSwitch w)
    ({ d with cal := { d.cal with stopping := false } }).publishCalendar
  else if !d.cal.run then d.publishCalendar
  else
    let (d, a) := d.cal.enabled.foldl evalEvent (d, {})
    let d := if a.conflict then (d.inc Reg.CAL_CONFLICT_CNT).flag Reg.CAL_STAT_CONFLICT else d
    d.publishCalendar

/-- Meaning of CALENDAR_EVALUATION. -/
def execCalendarEvaluation (s : State) : Host.Outcome State Fault Refusal := ok s (fun _ d => d.calendarEvaluate)

/-- SWITCH_INSTANT (R63, R75): the scheduled switches of the earliest tick are made, in ascending event index, so that
the highest index sets the level of a shared target. -/
def Dev.switchInstant (d : Dev) : Dev :=
  let due := d.cal.switches.filter (fun w => !w.occurred)
  match due.foldl (fun (b : Option Nat) w => some (match b with
      | some t => min t w.instant
      | none => w.instant)) none with
  | none => d
  | some t =>
    let group := sortBy (·.event) (due.filter (fun w => w.instant == t))
    let keys := group.map (fun w => (d.entry w.event).targetKey)
    let clash := decide (keys.eraseDups.length < keys.length)
    let d := d.each group (fun w d =>
      let e := d.entry w.event
      if e.action = 1 then
        let d := d.setCalLevel e w.level t
        -- the stage at a boundary has the switches of that instant (R473)
        if t ≤ d.boundaryNs then d.publishSwitch (e.target % 32) else d
      else { d with cal := { d.cal with ringBits := Tab.put (e.target % 2 ^ 13) w.level d.cal.ringBits } })
    let d := { d with cal := { d.cal with
      switches := d.cal.switches.map (fun w => if w.instant == t then { w with occurred := true } else w) } }
    if clash then (d.inc Reg.CAL_CONFLICT_CNT).flag Reg.CAL_STAT_CONFLICT else d

/-- Meaning of SWITCH_INSTANT. -/
def execSwitchInstant (s : State) : Host.Outcome State Fault Refusal := ok s (fun _ d => d.switchInstant)

/-! ### Coordinate registers and commands (R53, R57, R80, R81) -/

/-- The source that a KIND and a SEL name exists in this grade (R53). -/
def coordSourceOk (g : Grade) (kind sel : Nat) : Bool :=
  match kind with
  | 1 => decide (sel % 32 < 24)
  | 2 => decide (sel % 128 < axesOf g)
  | 3 => decide (sel % 4 < ringsOf g) && decide (1 ≤ sel / 4 % 128) && decide (sel / 4 % 128 ≤ 125)
  | 4 => decide (sel ≠ 262143)
  | _ => true

/-- A write of COORD_CFG (R53): ignored entirely with BAD_CFG, or taken. -/
def Dev.coordCfgWrite (d : Dev) (g : Grade) (n v : Nat) : Dev :=
  let kind := v % 8
  let on := bitOf v 31
  let was := d.b (Reg.COORD_CFG_ENABLE n)
  if (was && on) || decide (6 ≤ kind) || decide (8 < bits v 26 4) || decide (16 < bits v 21 5) ||
      (on && !coordSourceOk g kind (d.r (Reg.COORD_SRC_SEL n))) then d.flag (Reg.COORD_STAT_BAD_CFG n)
  else
    let d := ((((d.wb (Reg.COORD_CFG_ENABLE n) on).w (Reg.COORD_CFG_PRED_EN n) (bits v 30 1)).w
      (Reg.COORD_CFG_VEL_SPAN n) (bits v 26 4)).w (Reg.COORD_CFG_HOLD n) (bits v 21 5)).w (Reg.COORD_CFG_KIND n) kind
    let c := d.coord n
    let c := if on then { c with taken := 0, hist := [], missRun := 0, realRun := 0, remote := [], presetNow := false }
      else c
    ((((d.setCoord n c).wb (Reg.COORD_STAT_VALID n) false).wb (Reg.COORD_STAT_EXTRAP n) false).wb
      (Reg.COORD_STAT_LOST n) false)

/-- Meaning of COORD_CFG_WRITE. -/
def execCoordCfgWrite (path : Path) (n : Fin 8) (v : Word) (s : State) : Host.Outcome State Fault Refusal :=
  ok s (fun g d => d.access path false true (fun d => d.coordCfgWrite g n.val v.toNat))

/-- The word of COORD_STAT. -/
def Dev.coordStatWord (d : Dev) (n : Nat) : Nat :=
  d.r (Reg.COORD_STAT_LOST_SEEN n) * 32 + d.r (Reg.COORD_STAT_BAD_CFG n) * 16 + d.r (Reg.COORD_STAT_PRESET n) * 8 +
    d.r (Reg.COORD_STAT_LOST n) * 4 + d.r (Reg.COORD_STAT_EXTRAP n) * 2 + d.r (Reg.COORD_STAT_VALID n)

/-- Meaning of COORD_READ. -/
def execCoordRead (p : Packet) (s : State) : Host.Outcome State Fault Refusal :=
  ok s (fun g d => d.runPacket g { opcode := 0x360, need := needN 1 } p (fun d ps =>
    let n := ps.getD 0 0
    if n ≥ 8 then (d, .badParam 2)
    else
      let v := d.r (Reg.COORD_VAL n)
      let f := d.r (Reg.COORD_VEL n)
      let e := (d.coord n).sampleEpoch
      (d, .ok [loW v, hiW v, loW f, hiW f, d.coordStatWord n, loW e, hiW e])))

/-- COORD_PRESET (R57, R81). -/
def Dev.coordPreset (d : Dev) (n : Nat) (v : Int) : Dev × Res :=
  let c := d.coord n
  if n ≥ 8 then (d, .badParam 2)
  else if c.presetNew.isSome || c.presetDue.isSome then (d, .busy)
  else
    let e := if d.b (Reg.COORD_CFG_ENABLE n) then d.r Reg.EPK_NOW + 1 else noEpoch
    (d.setCoord n { c with presetNew := some v }, .ok [loW e, hiW e])

/-- Meaning of COORD_PRESET. -/
def execCoordPreset (p : Packet) (s : State) : Host.Outcome State Fault Refusal :=
  ok s (fun g d => d.runPacket g { opcode := 0x361, need := needN 3 } p (fun d ps =>
    d.coordPreset (ps.getD 0 0) (sx 64 (pair64 (ps.getD 1 0) (ps.getD 2 0)))))

/-- CAL_WRITE (R81): a disabled entry takes words 1 to 7 and the configuration fields of word 0. -/
def Dev.calWrite (d : Dev) (i : Nat) (ws : List Nat) : Dev × Res :=
  if i ≥ 4096 then (d, .badParam 2)
  else if d.entryOn i then (d, .busy)
  else
    let keep := d.mw (entryAddr i 0) / 2 ^ 28 * 2 ^ 28
    let d := d.putMw (entryAddr i 0) (keep + Nat.land (ws.getD 0 0) word0Mask)
    let d := d.each [1, 2, 3, 4, 5, 6] (fun w d => d.putMw (entryAddr i w) (ws.getD w 0))
    (d.putMw (entryAddr i 7) (ws.getD 7 0 % 2 ^ 24), .ok [])

/-- Meaning of CAL_WRITE. -/
def execCalWrite (p : Packet) (s : State) : Host.Outcome State Fault Refusal :=
  ok s (fun g d => d.runPacket g { opcode := 0x362, need := needN 9 } p (fun d ps =>
    d.calWrite (ps.getD 0 0) (ps.drop 1)))

/-- Meaning of CAL_READ. -/
def execCalRead (p : Packet) (s : State) : Host.Outcome State Fault Refusal :=
  ok s (fun g d => d.runPacket g { opcode := 0x363, need := needN 2, replyLen := fun ps => 3 + 8 * ps.getD 1 0 } p
    (fun d ps =>
      match rangeBad (ps.getD 0 0) (ps.getD 1 0) 32 4096 with
      | some w => (d, .badParam w)
      | none => (d, .ok (Mem.words d.mem (entryAddr (ps.getD 0 0) 0) (8 * ps.getD 1 0)))))

/-- CAL_ENABLE (R81): all or nothing. -/
def Dev.calEnable (d : Dev) (i n on : Nat) : Dev × Res :=
  match rangeBad i n 4096 4096 with
  | some w => (d, .badParam w)
  | none =>
    if on > 1 then (d, .badParam 4)
    else
      let l := (List.range n).map (· + i)
      if on = 0 then (d.each (l.filter d.entryOn) (fun j d => d.disableEntry j), .ok [0xFFFF_FFFF])
      else
        match l.find? d.entryRefused with
        | some j => (d.flag Reg.CAL_STAT_BAD_ENABLE, ⟨4, 0, [j]⟩)
        | none => (d.each (l.filter (fun j => !d.entryOn j)) (fun j d => d.enableEntry j), .ok [0xFFFF_FFFF])

/-- Meaning of CAL_ENABLE. -/
def execCalEnable (p : Packet) (s : State) : Host.Outcome State Fault Refusal :=
  ok s (fun g d => d.runPacket g { opcode := 0x364, need := needN 3, replyLen := fun _ => 4 } p (fun d ps =>
    d.calEnable (ps.getD 0 0) (ps.getD 1 0) (ps.getD 2 0)))

/-- Meaning of CAL_COUNTERS. -/
def execCalCounters (p : Packet) (s : State) : Host.Outcome State Fault Refusal :=
  ok s (fun g d => d.runPacket g { opcode := 0x365, need := needN 0 } p (fun d _ =>
    (d, .ok [d.r Reg.CAL_RETRACTED, d.r Reg.CAL_LATE_CNT, d.r Reg.CAL_OVF_CNT, d.r Reg.CAL_CONFLICT_CNT,
      d.r Reg.CAL_FIRED_CNT, d.r Reg.CAL_ENABLED])))

end Sys2Proof.Machine
end

