-- ==== Sys2Proof/Machine/Team.lean ====
section
/-!
DEFINITION. Machine/Team.lean: PWM periods, demands, dead time, commutation, ADC inputs, encoders, trips and STO of "Power
Teams: PWM, Current Sensing and Trips" (R192 … R221), with the phase targets, modes and missing set-points that stepper
teams add (R222 … R230, R234, R235).
-/
namespace Sys2Proof.Machine

/-! ### Configuration of a team (R193, R196) -/

/-- The field die of a team, or of an encoder: 0 North, 1 South (R192, R211). -/
def dieOf (t : Nat) : Nat := t / 12

/-- The field die of an ADC input (R206). -/
def dieOfInput (i : Nat) : Nat := i / 24

/-- The converter of an ADC input (R206). -/
def convOf (i : Nat) : Nat := i / 6

/-- P in units of 25 ps (R196). -/
def Dev.periodUnits (d : Dev) (t : Nat) : Nat := d.r Reg.EPK_CFG_K * 625000 / d.r (Reg.TEAM_CFG_PDIV t)

/-- A PDIV that gives a whole number of ticks (R196). -/
def pdivOk (k pdiv : Nat) : Bool := decide (1 ≤ pdiv) && decide (pdiv ≤ 64) && k * 6250 % pdiv == 0

/-- Pairs that the mode uses (R193). -/
def Dev.pairsUsed (d : Dev) (t : Nat) : List Nat :=
  match d.r (Reg.TEAM_CFG_MODE t) with
  | 1 => if d.b (Reg.TEAM_CFG_OPEN_WIND t) then [0, 1, 2, 3] else [0, 1, 2]
  | 2 => [0, 1]
  | 3 => [0, 1, 2, 3]
  | _ => []

/-- Demand inputs in use (R193, R200). -/
def Dev.demandsUsed (d : Dev) (t : Nat) : List Nat :=
  match d.r (Reg.TEAM_CFG_MODE t) with
  | 1 => if d.r (Reg.TEAM_COMM_SRC t) = 0 then d.pairsUsed t else [0]
  | 2 => [0]
  | _ => []

/-- The action of pair `p` under the active table entry: 0 off, 1 PWM, 2 low side on, 3 high side on (R204). -/
def Dev.pairAction (d : Dev) (t p : Nat) : Nat :=
  if !(d.pairsUsed t).contains p then 0
  else if d.r (Reg.TEAM_CFG_MODE t) = 1 ∧ d.r (Reg.TEAM_COMM_SRC t) ≠ 0 then
    bits (d.tx t).tab (8 * (d.tx t).sector + 2 * p) 2
  else 1

/-! ### Edges (R197, R200, R202, R203) -/

/-- t_on of a requested n (R200). -/
def tOn (n per : Nat) : Nat := n * per / 2 ^ 16

/-- The waves of the high and low side of a PWM pair, and how many sides are dropped (R197, R202, R203). `dt` and `drop`
are DT and DT + MIN_PULSE in units. -/
def pairWaves (per ton dt drop : Nat) (centre : Bool) : Wave × Wave × Nat :=
  let s := if centre then (per - ton) / 2 else 0
  let low := per - ton
  let hDrop := decide (0 < ton) && decide (ton < drop)
  let lDrop := decide (0 < low) && decide (low < drop)
  let h := if ton = 0 ∨ hDrop then Wave.off else if low = 0 then .on else .window (s + dt) (s + ton)
  let l := if low = 0 ∨ lDrop then Wave.off else if ton = 0 then .on else .window (s + ton + dt) (s + per)
  (h, l, b2n hDrop + b2n lDrop)

/-- n of pair `p` from the active demands (R200); pairs of a stepper phase in quiet mode work as in DC mode (R227). -/
def Dev.pairN (d : Dev) (t p : Nat) : Nat :=
  let x := d.tx t
  let mode := d.r (Reg.TEAM_CFG_MODE t)
  let i := if mode = 1 then (if d.r (Reg.TEAM_COMM_SRC t) = 0 then p else 0) else if mode = 3 then p / 2 else 0
  let v := x.act.getD i 0
  if mode = 1 ∨ p % 2 = 0 then (v + 32768).toNat else (32767 - v).toNat

/-- The sides that a chopped phase turns on in a bridge state: high of pair 0, low of pair 0, high of pair 1, low of
pair 1 (R228). -/
def bridgeSides (st : Nat) (neg : Bool) : Bool × Bool × Bool × Bool :=
  match st, neg with
  | 1, false => (true, false, false, true)
  | 1, true => (false, true, true, false)
  | 2, false => (false, true, true, false)
  | 2, true => (true, false, false, true)
  | _, _ => (false, true, false, true)

/-- A wave that is steady. -/
def steady (b : Bool) : Wave := if b then .on else .off

/-- A stepper team in strong mode. -/
def Dev.strong (d : Dev) (t : Nat) : Bool := d.r (Reg.TEAM_CFG_MODE t) == 3 && d.b (Reg.STEP_STAT_STRONG t)

/-- The eight waves of a running team, H0 … H3 then L0 … L3, and the sides dropped per period. -/
def Dev.runWaves (d : Dev) (t : Nat) : List Wave × Nat :=
  let per := d.periodUnits t
  let dt := 100 * d.r (Reg.TEAM_DT_DT t)
  let drop := dt + 100 * d.r (Reg.TEAM_DT_MIN_PULSE t)
  let centre := d.b (Reg.TEAM_CFG_CENTRE t)
  let x := d.tx t
  let one (p : Nat) : Wave × Wave × Nat :=
    if d.strong t then
      let ph := if p < 2 then x.step.a else x.step.b
      let (h0, l0, h1, l1) := bridgeSides ph.st (decide (ph.target < 0))
      if p % 2 = 0 then (steady h0, steady l0, 0) else (steady h1, steady l1, 0)
    else match d.pairAction t p with
      | 1 => pairWaves per (tOn (d.pairN t p) per) dt drop centre
      | 2 => (.off, .on, 0)
      | 3 => (.on, .off, 0)
      | _ => (.off, .off, 0)
  let ws := [0, 1, 2, 3].map one
  (ws.map (·.1) ++ ws.map (·.2.1), ws.foldl (fun n w => n + w.2.2) 0)

/-- The eight waves of the safe state (R215). -/
def Dev.safeWaves (d : Dev) (t : Nat) : List Wave :=
  let used := d.pairsUsed t
  [.off, .off, .off, .off] ++
    [0, 1, 2, 3].map (fun p => if d.b (Reg.TEAM_CFG_SAFE_STATE t) && used.contains p then Wave.on else .off)

/-- All eight outputs off. -/
def allOff : List Wave := [.off, .off, .off, .off, .off, .off, .off, .off]

/-- Bring outputs, TMt_EN and OUT_STATE to what the team's state gives (R194, R215, R219); while the field dies do not drive,
the lands are high impedance (R491). -/
def Dev.driveTeam (d : Dev) (t : Nat) : Dev :=
  let x := d.tx t
  let on := d.b (Reg.TEAM_STAT_ENABLED t)
  let sto := bitOf d.team.sto t
  let en := d.pair.driving && on && !sto && !(d.b (Reg.TEAM_STAT_TRIPPED t) && d.b (Reg.TEAM_TRIP_CFG_EN_ON_TRIP t))
  let (ws, st) :=
    if !d.pair.driving || !on || sto || x.safe == 1 then (allOff, 0)
    else if x.safe == 2 then (d.safeWaves t, 3)
    else ((d.runWaves t).1, if x.missing then 2 else 1)
  ((d.setTx t { x with out := ws }).wb (Reg.TEAM_STAT_EN_PIN t) en).w (Reg.TEAM_STAT_OUT_STATE t) st

/-- Count the sides dropped in a period that starts now (R203). -/
def Dev.countDrops (d : Dev) (t : Nat) : Dev :=
  if d.r (Reg.TEAM_STAT_OUT_STATE t) = 1 ∨ d.r (Reg.TEAM_STAT_OUT_STATE t) = 2 then
    let n := (d.runWaves t).2
    if n = 0 then d else (d.add (Reg.TEAM_DROP_CNT t) n).flag (Reg.TEAM_STAT_DROP t)
  else d

/-! ### Trips, STO and clears (R214 … R219) -/

/-- A source bit of TRIP_SRC: 0 pin, 1 … 4 GTRIP, 5 ADC; FORCE_TRIP sets FORCED. -/
inductive TripSrc where
  | source (bit : Nat)
  | force
deriving DecidableEq, Repr

/-- TEAM_TRIP (R214, R217): latch TRIPPED, record the source, count the trip once, and take the safe state. -/
def Dev.tripTeam (d : Dev) (t : Nat) (src : TripSrc) : Dev :=
  let x := d.tx t
  let was := d.b (Reg.TEAM_STAT_TRIPPED t)
  let d := match src with
    | .source b => d.w (Reg.TEAM_STAT_TRIP_SRC t) (setBit (d.r (Reg.TEAM_STAT_TRIP_SRC t)) b true)
    | .force => d.flag (Reg.TEAM_STAT_FORCED t)
  let d := if was then d else ((d.flag (Reg.TEAM_STAT_TRIPPED t)).inc (Reg.TEAM_TRIP_CNT t)).w Reg.TEAM_TRIPPED
    (setBit (d.r Reg.TEAM_TRIPPED) t true)
  let d := { d with trc := { d.trc with trippedNow := if was then d.trc.trippedNow else t :: d.trc.trippedNow } }
  (d.setTx t { x with
    safe := if x.safe = 1 then 1 else 2, resume := false,
    quietC := some d.time.c }).driveTeam t

/-- Some trip source of the team is active now (R214, R218). -/
def Dev.tripActive (d : Dev) (t : Nat) : Bool :=
  let x := d.tx t
  (x.pin && d.b (Reg.TEAM_TRIP_CFG_PIN_EN t)) ||
    [0, 1, 2, 3].any (fun g => bitOf d.team.gtrip g && bitOf (d.r (Reg.GTRIP_MASK g)) t) ||
    x.adcOut != 0

/-- Meaning of TRIP_PIN (R214, R216): a qualified pulse on TMt_TRIP. -/
def execTripPin (t : Fin 24) (s : State) : Host.Outcome State Fault Refusal :=
  ok s (fun _ d =>
    let d := d.setTx t.val { d.tx t.val with pin := true }
    if d.b (Reg.TEAM_TRIP_CFG_PIN_EN t.val) then d.tripTeam t.val (.source 0) else d)

/-- Meaning of GTRIP_INPUT (R214): every team that the mask names trips. -/
def execGtripInput (g : Fin 4) (s : State) : Host.Outcome State Fault Refusal :=
  ok s (fun _ d =>
    let d := { d with team := { d.team with gtrip := setBit d.team.gtrip g.val true } }
    d.each (onesOf 24 (d.r (Reg.GTRIP_MASK g.val))) (fun t d => d.tripTeam t (.source (1 + g.val))))

/-- Meaning of TRIP_INPUT_RELEASE (R218): a pin (0 … 23) or a global trip (24 … 27) goes inactive. -/
def execTripInputRelease (input : Fin 28) (s : State) : Host.Outcome State Fault Refusal :=
  ok s (fun _ d =>
    let i := input.val
    if i < 24 then d.setTx i { d.tx i with pin := false, quietC := some d.time.c }
    else
      let g := i - 24
      let d := { d with team := { d.team with gtrip := setBit d.team.gtrip g false } }
      d.each (onesOf 24 (d.r (Reg.GTRIP_MASK g))) (fun t d => d.setTx t { d.tx t with quietC := some d.time.c }))

/-- The set-point of a stepper team is there, or every used demand is (R201, R234). -/
def Dev.demandsPresent (d : Dev) (t : Nat) : Bool := !(d.tx t).missing

/-- The clear conditions of R218 now: TRIP_QUIET whole ticks lie between the first tick after the sources went inactive and the
last one up to now. -/
def Dev.clearOk (d : Dev) (t : Nat) : Bool :=
  !d.tripActive t &&
    (match (d.tx t).quietC with
      | some c0 => decide (d.r (Reg.TEAM_TRIP_CFG_TRIP_QUIET t) + (d.tickIndex c0 + 1) ≤ d.tickIndex d.time.c)
      | none => true) &&
    !bitOf d.team.sto t && (!d.b (Reg.TEAM_STAT_DEMAND_LOST t) || d.demandsPresent t)

/-- TEAM_TRIP_CLEAR of one team (R218). -/
def Dev.clearTrip (d : Dev) (t : Nat) : Dev :=
  if d.clearOk t then
    let d := ((((d.w (Reg.TEAM_STAT_TRIPPED t) 0).w (Reg.TEAM_STAT_TRIP_SRC t) 0).w (Reg.TEAM_STAT_FORCED t) 0).w
      (Reg.TEAM_STAT_DEMAND_LOST t) 0).w (Reg.TEAM_STAT_STO_SEEN t) 0
    let d := d.w Reg.TEAM_TRIPPED (setBit (d.r Reg.TEAM_TRIPPED) t false)
    (d.setTx t { d.tx t with resume := true, held := 0 }).driveTeam t
  else (d.flag (Reg.TEAM_STAT_CLEAR_REFUSED t)).inc (Reg.TEAM_CLR_REF_CNT t)

/-- Bridle drives the STO line of a team (R219). -/
def Dev.setSto (d : Dev) (t : Nat) (on : Bool) : Dev :=
  let d := ({ d with team := { d.team with sto := setBit d.team.sto t on } }).wb (Reg.TEAM_STAT_STO t) on
  let d := d.w Reg.TEAM_STO (setBit (d.r Reg.TEAM_STO) t on)
  let d := if on then
      (d.flag (Reg.TEAM_STAT_STO_SEEN t)).setTx t { d.tx t with safe := 1, resume := false } else d
  d.driveTeam t

/-- Demand loss (R201): the safe state, DEMAND_LOST latched. -/
def Dev.loseDemand (d : Dev) (t : Nat) : Dev :=
  let x := d.tx t
  (((d.flag (Reg.TEAM_STAT_DEMAND_LOST t)).w (Reg.TEAM_STAT_HOLDING t) 0).setTx t
    { x with safe := if x.safe = 1 then 1 else 2, resume := false }).driveTeam t

/-- Meaning of DEMAND_HOLD_EXPIRE (R201, R234). -/
def execDemandHoldExpire (t : Fin 24) (s : State) : Host.Outcome State Fault Refusal :=
  ok s (fun _ d =>
    if d.b (Reg.TEAM_STAT_HOLDING t.val) && decide (d.r (Reg.TEAM_CFG_HOLD_EPOCHS t.val) ≤ (d.tx t.val).held) then
      d.loseDemand t.val else d)

/-- Meaning of TEAM_CTRL_FORCE_TRIP (R214). -/
def execTeamCtrlForceTrip (path : Path) (t : Fin 24) (s : State) : Host.Outcome State Fault Refusal :=
  ok s (fun g d => d.access path true (decide (t.val < teamsOf g)) (fun d => d.tripTeam t.val .force))

/-- Meaning of TEAM_CTRL_TRIP_CLEAR (R218). -/
def execTeamCtrlTripClear (path : Path) (t : Fin 24) (s : State) : Host.Outcome State Fault Refusal :=
  ok s (fun g d => d.access path true (decide (t.val < teamsOf g)) (fun d => d.clearTrip t.val))

/-! ### Stepper phases in a period (R223 … R230) -/

/-- q_j with 24 fraction bits (R223). -/
def stepQ (sp0 sp1 : Int) (j pdiv : Nat) : Int := sp0 + (sp1 - sp0) * ((j : Int) + 1) / (max pdiv 1 : Nat)

/-- The unwrapped table address (R224). -/
def Dev.stepAddr (d : Dev) (t : Nat) (q : Int) : Int :=
  ashr (q - sx 64 (d.r (Reg.STEP_ZERO t))) (d.r (Reg.STEP_CFG_EPC_LOG t) + 14)

/-- The comparator threshold of a phase on ADC input `i` for target `ix` (R229): truncated toward ZERO, then to a multiple
of 64 toward ZERO. -/
def Dev.chopThreshold (d : Dev) (i : Nat) (ix : Int) : Int :=
  let zero : Int := d.r (Reg.ADC_CFG_ZERO i)
  let gain : Int := max (d.r (Reg.ADC_CFG_GAIN i)) 1
  let off := ix.natAbs * 16384 / gain.toNat
  let raw : Int := if ix < 0 then zero - off else zero + off
  if ix < 0 then min zero (-((-raw) / 64 * 64)) else max zero (raw / 64 * 64)

/-- A phase at a period start in strong mode (R228). -/
def Phase.begin (p : Phase) (target thr : Int) : Phase :=
  { p with st := if target = 0 then 0 else 1, armed := false, target := target, thr := thr, drive := 0, fast := 0 }

/-- A period of a stepper team starts: address, targets, and either the quiet-mode duties or the chopped phases. -/
def Dev.stepPeriod (d : Dev) (t j : Nat) : Dev :=
  let x := d.tx t
  let st := x.step
  let q := stepQ st.spPrev st.sp j (d.r (Reg.TEAM_CFG_PDIV t))
  let addr := d.stepAddr t q
  let m := (addr % 1024).toNat
  let i : Int := st.amp
  let ia := ashr (i * sinTab m) 15
  let ib := ashr (i * sinTab (m + 256)) 15
  let w8 := min (st.w / 2 ^ 8) 65535
  let u : Int := min 32767 (ashr (i * d.r (Reg.STEP_QUIET_QGAIN t)) 15 + ashr ((w8 * d.r (Reg.STEP_QUIET_QVC t) : Nat) : Int) 8)
  let da := ashr (u * sinTab m) 15
  let db := ashr (u * sinTab (m + 256)) 15
  let strong := d.b (Reg.STEP_STAT_STRONG t)
  let st := { st with
    addrFirst := if j = 0 then addr else st.addrFirst, addrLast := addr,
    a := if strong then st.a.begin ia (d.chopThreshold (2 * t) ia) else { st.a with target := da, drive := 0, fast := 0 },
    b := if strong then st.b.begin ib (d.chopThreshold (2 * t + 1) ib) else { st.b with target := db, drive := 0, fast := 0 } }
  ((d.setTx t { x with step := st, act := [da, db] }).w (Reg.STEP_STAT_ADDR t) m).ws (Reg.STEP_POS t) q

/-- The overlap of two waves within a period. -/
def overlap (per : Nat) : Wave → Wave → Nat
  | .off, _ => 0
  | _, .off => 0
  | .on, .on => per
  | .on, .window a b => b - a
  | .window a b, .on => b - a
  | .window a b, .window c e =>
    (min b e - max a c) + (min (b - per) e - max (a - per) c) + (min b (e - per) - max a (c - per))

/-- The times of the period that ends, with the bus forward and reversed relative to the phase's target (R231), added
to the totals. A phase in strong mode that is still in DRIVE has not switched: CHOP_MAX (R228). -/
def Dev.stepPeriodEnd (d : Dev) (t : Nat) : Dev :=
  let x := d.tx t
  let per := d.periodUnits t
  let dt := 100 * d.r (Reg.TEAM_DT_DT t)
  let running := d.r (Reg.TEAM_STAT_OUT_STATE t) == 1 || d.r (Reg.TEAM_STAT_OUT_STATE t) == 2
  if !running then d
  else if d.strong t then
    let fin (p : Phase) : Phase × Bool :=
      let stuck := p.st == 1
      let drv := if stuck then per - dt else p.drive
      ({ p with fwd := p.fwd + drv, rev := p.rev + p.fast, st := 0, armed := false }, stuck)
    let (a, sa) := fin x.step.a
    let (b, sb) := fin x.step.b
    let d := d.setTx t { x with step := { x.step with a := a, b := b } }
    let d := if sa || sb then d.flag (Reg.STEP_STAT_CHOP_MAX t) else d
    d.add (Reg.STEP_CHOP_MAX_CNT t) (b2n sa + b2n sb)
  else
    let w (i : Nat) : Wave := x.out.getD i .off
    let fin (p : Phase) (h0 l0 h1 l1 : Wave) : Phase :=
      let plus := overlap per h0 l1
      let minus := overlap per l0 h1
      let (f, r) := if p.target < 0 then (minus, plus) else (plus, minus)
      { p with fwd := p.fwd + f, rev := p.rev + r }
    d.setTx t { x with step := { x.step with
      a := fin x.step.a (w 0) (w 4) (w 1) (w 5), b := fin x.step.b (w 2) (w 6) (w 3) (w 7) } }

/-- The mode of a stepper team for the epoch that starts (R230). -/
def Dev.stepMode (d : Dev) (t : Nat) : Dev :=
  let x := d.tx t
  let st := x.step
  let now := d.b (Reg.STEP_STAT_STRONG t)
  let w8 := st.w / 2 ^ 8
  let up := decide (d.r (Reg.STEP_SW_V_UP t) ≤ w8)
  let dn := decide (w8 < d.r (Reg.STEP_SW_V_DN t))
  let want := match d.r (Reg.STEP_CFG_MODE_SEL t) with
    | 1 => false
    | 2 => true
    | _ => if up then true else if dn then false else if st.modeKnown then now else false
  let auto := d.r (Reg.STEP_CFG_MODE_SEL t) = 0
  if !st.modeKnown then
    (d.setTx t { x with step := { st with modeKnown := true, inMode := 1 } }).wb (Reg.STEP_STAT_STRONG t) want
  else if want = now ∨ (auto ∧ st.inMode < d.r (Reg.STEP_CFG_SW_DWELL t)) then
    d.setTx t { x with step := { st with inMode := st.inMode + 1 } }
  else
    ((d.setTx t { x with step := { st with inMode := 1 } }).wb (Reg.STEP_STAT_STRONG t) want).incWrap
      (Reg.STEP_CNT_SWITCH_CNT t)

/-- The epoch-aligned boundary of a stepper team (R223, R225, R226, R230, R234). -/
def Dev.stepEpoch (d : Dev) (t : Nat) : Dev :=
  let x := d.tx t
  let st := x.step
  let cur := st.curNext.getD (st.irun + st.ihold * 2 ^ 16)
  let st := { st with
    curNext := none, irun := bits cur 0 15, ihold := bits cur 16 15, wPrev := st.w, sPrev := st.s,
    addrFirstPrev := st.addrFirst, addrLastPrev := st.addrLast,
    a := { st.a with fwdPrev := st.a.fwd, revPrev := st.a.rev, fwd := 0, rev := 0 },
    b := { st.b with fwdPrev := st.b.fwd, revPrev := st.b.rev, fwd := 0, rev := 0 } }
  match st.delivered with
  | none =>
    let d := d.setTx t { x with step := { st with spPrev := st.sp, w := 0, s := 0 } }
    d.w (Reg.STEP_SPEED t) 0
  | some v =>
    let diff := v - st.sp
    let w := satU 32 (diff.natAbs / 2 ^ (d.r (Reg.STEP_CFG_EPC_LOG t) - 2))
    let still := if diff = 0 then st.still + 1 else 0
    let isStill := decide (d.r (Reg.STEP_CFG_TSTILL t) ≤ still)
    let st := { st with
      spPrev := st.sp, sp := v, delivered := none, w := w, s := if diff < 0 then -1 else if diff = 0 then 0 else 1,
      still := still, amp := if isStill then st.ihold else st.irun }
    let d := (d.setTx t { x with step := st }).w (Reg.STEP_SPEED t) w
    (d.wb (Reg.STEP_STAT_STILL t) isStill).stepMode t

/-- Meaning of TSTILL_EXPIRE (R226): TSTILL epochs without a change; the amplitude is IHOLD. -/
def execTstillExpire (t : Fin 24) (s : State) : Host.Outcome State Fault Refusal :=
  ok s (fun _ d =>
    let x := d.tx t.val
    if d.r (Reg.TEAM_CFG_MODE t.val) = 3 ∧ d.r (Reg.STEP_CFG_TSTILL t.val) ≤ x.step.still then
      (d.setTx t.val { x with step := { x.step with amp := x.step.ihold } }).flag (Reg.STEP_STAT_STILL t.val)
    else d)

/-! ### Period boundaries (R195, R198, R199, R201) -/

/-- The commit point hands the demands of the epoch over (R199, R201): source 0 from the loop engine, source 1 from the
image just committed. -/
def Dev.stageTeam (d : Dev) (t : Nat) : Dev :=
  let x := d.tx t
  let src := d.r (Reg.TEAM_DEM_SRC t)
  let one (i : Nat) : Option Int :=
    if bitOf src i then
      let id := d.r (Reg.DEM_SIG t i)
      match d.ep.newest.recOf id with
      | some r => if r.current then some (sx 16 (d.signal id)) else none
      | none => none
    else (x.dem.find? (fun e => e.1 == i)).map (·.2)
  d.setTx t { x with
    staged := [0, 1, 2, 3].map one, dem := [], due := true,
    step := if d.r (Reg.TEAM_CFG_MODE t) = 3 then
      { x.step with ixPrev := [d.adcNow (2 * t), d.adcNow (2 * t + 1)] } else x.step }

/-- Period shadows: ADC compares and the commutation table (R198). -/
def Dev.loadShadows (d : Dev) (t : Nat) : Dev :=
  let x := d.tx t
  let cmp (j : Nat) : Nat := d.r (Reg.TEAM_ADC_CMP_TICK t j) + d.r (Reg.TEAM_ADC_CMP_INPUT t j) * 2 ^ 19 +
    d.r (Reg.TEAM_ADC_CMP_EVERY t j) * 2 ^ 25 + d.r (Reg.TEAM_ADC_CMP_ENABLE t j) * 2 ^ 26
  d.setTx t { x with cmps := [0, 1, 2, 3].map cmp, tab := d.r (Reg.TEAM_COMM_TAB t) }

/-- Enabling or disabling takes effect (R195). -/
def Dev.applyEnable (d : Dev) (t : Nat) : Dev :=
  let x := d.tx t
  match x.enNext with
  | none => d
  | some on =>
    let d := (d.wb (Reg.TEAM_STAT_ENABLED t) on).setTx t { x with
      enNext := none, held := 0, missing := false, act := [], step := { x.step with modeKnown := false } }
    d.w (Reg.TEAM_STAT_HOLDING t) 0

/-- The demands of the team load, or it holds its edges, or it loses its demand (R198, R201, R234). -/
def Dev.loadDemands (d : Dev) (t : Nat) : Dev :=
  if !d.b (Reg.TEAM_STAT_ENABLED t) then
    d.setTx t { d.tx t with
      staged := [], step := { (d.tx t).step with
        sp := (d.tx t).step.delivered.getD (d.tx t).step.sp, delivered := none } }
  else
    let stepper := d.r (Reg.TEAM_CFG_MODE t) = 3
    let x := d.tx t
    let miss := if stepper then x.step.delivered.isNone
      else (d.demandsUsed t).any (fun i => (x.staged.getD i none).isNone)
    let d := if stepper then d.stepEpoch t else d
    let x := d.tx t
    if miss then
      let d := d.setTx t { x with missing := true, staged := [] }
      if d.b (Reg.TEAM_STAT_DEMAND_LOST t) then d
      else if x.held < d.r (Reg.TEAM_CFG_HOLD_EPOCHS t) then
        (d.setTx t { d.tx t with held := x.held + 1 }).flag (Reg.TEAM_STAT_HOLDING t)
      else d.loseDemand t
    else
      let act := if stepper then x.act else [0, 1, 2, 3].map (fun i => (x.staged.getD i none).getD 0)
      (d.setTx t { x with act := act, staged := [], missing := false, held := 0 }).w (Reg.TEAM_STAT_HOLDING t) 0

/-- The commutation sector from local signal COMM_SIG (R204). -/
def Dev.loadSector (d : Dev) (t : Nat) : Dev :=
  if d.r (Reg.TEAM_COMM_SRC t) = 2 then d.setTx t { d.tx t with sector := d.signal (d.r (Reg.TEAM_COMM_SIG t)) % 8 }
  else d

/-- A period starts: shadows, resumption after a clear, stepper phases, on-times, drops and outputs. -/
def Dev.startPeriod (d : Dev) (t j : Nat) : Dev :=
  let d := d.loadShadows t
  let d := d.setTx t { d.tx t with period := j }
  let x := d.tx t
  let d := if x.resume then d.setTx t { x with resume := false, safe := 0 } else d
  let d := if d.r (Reg.TEAM_CFG_MODE t) = 3 ∧ d.b (Reg.TEAM_STAT_ENABLED t) ∧ ¬ (d.tx t).missing then d.stepPeriod t j
    else d
  let per := d.periodUnits t
  let d := d.each [0, 1, 2, 3] (fun p d =>
    d.w (Reg.TEAM_TON t p) (if d.b (Reg.TEAM_STAT_ENABLED t) && !d.strong t && d.pairAction t p == 1 then
      tOn (d.pairN t p) per else 0))
  (d.driveTeam t).countDrops t

/-- The epoch-aligned period boundary of a team (R195, R198, R201). -/
def Dev.epochPeriod (d : Dev) (t : Nat) : Dev :=
  let d := d.stepPeriodEnd t
  let d := d.setTx t { d.tx t with due := false }
  (((d.applyEnable t).loadDemands t).loadSector t).startPeriod t 0

/-- PERIOD_BOUNDARY (R198): the epoch-aligned one when a commit point is due or the last period of the epoch has ended (the
field die counts on by itself, R201), else the next period of the epoch. -/
def Dev.periodBoundary (d : Dev) (t : Nat) : Dev :=
  let x := d.tx t
  if x.due ∨ d.r (Reg.TEAM_CFG_PDIV t) ≤ x.period + 1 then d.epochPeriod t
  else (d.stepPeriodEnd t).startPeriod t (x.period + 1)

/-- Meaning of PERIOD_BOUNDARY. -/
def execPeriodBoundary (t : Fin 24) (s : State) : Host.Outcome State Fault Refusal := ok s (fun _ d => d.periodBoundary t.val)

/-- The teams at the commit point: a boundary still due is run first, then the demands are handed over. -/
def Dev.teamsCommit (d : Dev) : Dev :=
  d.each (List.range 24) (fun t d => (if (d.tx t).due then d.epochPeriod t else d).stageTeam t)

/-! ### Commutation (R204, R205) -/

/-- Meaning of HALL_CODE_CHANGE (R205): a code of interface `e` has been stable for HALL_FILT. -/
def execHallCodeChange (e : Fin 24) (code : Fin 8) (s : State) : Host.Outcome State Fault Refusal :=
  ok s (fun _ d =>
    let d := d.setEx e.val { d.ex e.val with hall := code.val }
    if d.r (Reg.ENC_CFG_MODE e.val) ≠ 4 then d
    else d.each ((List.range 24).filter (fun t => d.r (Reg.TEAM_CFG_MODE t) == 1 && d.r (Reg.TEAM_COMM_SRC t) == 1 &&
        d.r (Reg.TEAM_COMM_ENC t) == e.val)) (fun t d =>
      let d := if code.val = 0 ∨ code.val = 7 then d.inc (Reg.TEAM_HALL_ERR_CNT t) else d
      (d.setTx t { d.tx t with sector := code.val }).driveTeam t))

/-! ### ADC (R206 … R210) -/

/-- Start a conversion of an input now. -/
def Dev.startConv (d : Dev) (i : Nat) (shifted : Bool) : Dev :=
  let c := convOf i
  let first := !bitOf d.team.sampled i
  let x : ConvX := Tab.look {} c d.team.conv
  let d := { d with team := { d.team with
    sampled := setBit d.team.sampled i true,
    conv := Tab.put c { x with busy := some ⟨i, shifted, d.r Reg.EPK_NOW, first⟩ } d.team.conv } }
  if shifted then d.inc (Reg.ADC_CONV_STAT_SHIFTED c) else d

/-- A trigger for an input: it starts, waits in the queue of three, or is dropped (R208). -/
def Dev.adcTrigger (d : Dev) (i : Nat) : Dev :=
  let c := convOf i
  let x : ConvX := Tab.look {} c d.team.conv
  if 48 ≤ i then d
  else match x.busy with
    | none => d.startConv i false
    | some _ =>
      if x.queue.length < 3 then
        { d with team := { d.team with conv := Tab.put c { x with queue := x.queue ++ [i] } d.team.conv } }
      else d.inc (Reg.ADC_CONV_STAT_TRIG_DROP c)

/-- Meaning of ADC_TRIGGER (R207): compare `j` of team `t` is reached in the present period. -/
def execAdcTrigger (t : Fin 24) (j : Fin 4) (s : State) : Host.Outcome State Fault Refusal :=
  ok s (fun _ d =>
    let w := (d.tx t.val).cmps.getD j.val 0
    if bitOf w 26 && decide (100 * bits w 0 19 < d.periodUnits t.val) && (bitOf w 25 || (d.tx t.val).period == 0) then
      d.adcTrigger (bits w 19 6)
    else d)

/-- A sample of an input (R209). -/
def Dev.adcSample (d : Dev) (i raw : Nat) : Int :=
  satS 16 (ashr (((raw : Int) - d.r (Reg.ADC_CFG_ZERO i)) * d.r (Reg.ADC_CFG_GAIN i)) 14)

/-- The limit check of R210, and the activity of this input as a trip source (R218). -/
def Dev.adcLimit (d : Dev) (i : Nat) (a : Int) : Dev :=
  if !d.b (Reg.ADC_LIM_MASK_LIM_EN i) then d
  else
    let bad := decide (a < sx 16 (d.r (Reg.ADC_LIM_LO i)) ∨ sx 16 (d.r (Reg.ADC_LIM_HI i)) ≤ a)
    d.each (onesOf 24 (d.r (Reg.ADC_LIM_MASK_TEAMS i))) (fun t d =>
      let x := d.tx t
      if bad then (d.setTx t { x with adcOut := setBit x.adcOut i true }).tripTeam t (.source 5)
      else if bitOf x.adcOut i then
        d.setTx t { x with adcOut := setBit x.adcOut i false, quietC := some d.time.c }
      else d)

/-! ### Encoders (R211 … R213) -/

/-- An encoder fault of the epoch (R213). -/
def Dev.encFault (d : Dev) (e : Nat) : Dev := (d.flag (Reg.ENC_STAT_FAULT e)).flag (Reg.ENC_STAT_FAULT_SEEN e)

/-- SINCOS: both samples of the epoch are there, so the count of the boundary is formed (R212, R213). -/
def Dev.sincosCount (d : Dev) (e : Nat) : Dev :=
  let si := d.r (Reg.ENC_SINCOS_SIN_IN e)
  let ci := d.r (Reg.ENC_SINCOS_COS_IN e)
  match d.adcNow si, d.adcNow ci with
  | some s, some c =>
    let ib := d.r (Reg.ENC_CFG_IB e)
    let amp := (s * s + c * c) * 1024
    let full : Int := 2 ^ 30
    let x := d.ex e
    let ang := angleOf s c ib
    let qa := ang * 4 / 2 ^ ib
    let qb := (x.atBoundary % 4).toNat
    let cyc := x.atBoundary / 4
    if decide (amp < full * d.r (Reg.ENC_SINCOS_AMP_LO e)) || decide (full * d.r (Reg.ENC_SINCOS_AMP_HI e) ≤ amp) ||
        (qa + 2) % 4 == qb then d.encFault e
    else
      let cyc := if qa = 3 ∧ qb = 0 then cyc - 1 else if qa = 0 ∧ qb = 3 then cyc + 1 else cyc
      let n := un 32 (cyc * 2 ^ ib + ang)
      (d.setEx e { x with latched := some n }).w (Reg.ENC_COUNT e) n
  | _, _ => d

/-- Meaning of ADC_CONVERSION_DONE (R206 … R210): a converter delivers its raw value; the next queued trigger starts. -/
def execAdcConversionDone (c : Fin 8) (raw : BitVec 16) (s : State) : Host.Outcome State Fault Refusal :=
  ok s (fun _ d =>
    let x : ConvX := Tab.look {} c.val d.team.conv
    match x.busy with
    | none => d
    | some v =>
      let a := d.adcSample v.input raw.toNat
      let d := (d.ws (Reg.ADC_LAST_SAMPLE v.input) a).w (Reg.ADC_LAST_RAW v.input) raw.toNat
      let d := if v.first ∧ v.epoch = d.r Reg.EPK_NOW then
          ((d.ws (Reg.ADC_EPOCH_SAMPLE v.input) a).w (Reg.ADC_EPOCH_VALID v.input) 1).wb
            (Reg.ADC_EPOCH_SHIFTED v.input) v.shifted
        else d
      let d := { d with team := { d.team with conv := Tab.put c.val { x with busy := none } d.team.conv } }
      let d := d.adcLimit v.input a
      let d := d.each ((List.range 24).filter (fun e => d.r (Reg.ENC_CFG_MODE e) == 3 && (d.ex e).latched.isNone &&
          (d.r (Reg.ENC_SINCOS_SIN_IN e) == v.input || d.r (Reg.ENC_SINCOS_COS_IN e) == v.input)))
        (fun e d => d.sincosCount e)
      match x.queue with
      | [] => d
      | i :: r =>
        ({ d with team := { d.team with conv := Tab.put c.val { busy := none, queue := r } d.team.conv } }).startConv i
          true)

/-- The quadrature state of A and B as 0 … 3, A leading B when it rises. -/
def quadState (a b : Bool) : Nat := if a then (if b then 2 else 1) else if b then 3 else 0

/-- ENC_QUAD_EDGE (R211, R213): the filtered levels after an edge. Both changed: a fault; else one count. -/
def Dev.quadEdge (d : Dev) (e : Nat) (a b : Bool) : Dev :=
  let x := d.ex e
  let mode := d.r (Reg.ENC_CFG_MODE e)
  let step := (quadState a b + 4 - quadState x.a x.b) % 4
  let d := d.setEx e { x with
    a := a, b := b, seen := true,
    count := if mode = 1 ∨ mode = 3 then (if !x.seen then x.count else if step = 1 then x.count + 1
      else if step = 3 then x.count - 1 else x.count) else x.count }
  if x.seen ∧ step = 2 ∧ mode = 1 then d.encFault e else d

/-- Meaning of ENC_QUAD_EDGE. -/
def execEncQuadEdge (e : Fin 24) (a b : Bool) (s : State) : Host.Outcome State Fault Refusal :=
  ok s (fun _ d => d.quadEdge e.val a b)

/-- Meaning of ENC_INDEX_LATCH (R211): a rising edge of Z in QUAD latches the count. -/
def execEncIndexLatch (e : Fin 24) (s : State) : Host.Outcome State Fault Refusal :=
  ok s (fun _ d =>
    if d.r (Reg.ENC_CFG_MODE e.val) = 1 then
      (d.ws (Reg.ENC_INDEX e.val) (d.ex e.val).count).flag (Reg.ENC_STAT_INDEX_SEEN e.val)
    else d)

/-- Gray to binary, `w` bits. -/
def ungray (w x : Nat) : Nat :=
  ((List.range w).reverse.foldl (fun (acc : Nat × Bool) i =>
    let b := acc.2 != bitOf x i
    (setBit acc.1 i b, b)) (0, false)).1

/-- Meaning of SSI_FRAME_DONE (R212, R213): the frame of the boundary, or a fault when the line was not idle before it or
the frame was not complete at READY_NS. -/
def execSsiFrameDone (e : Fin 24) (data : Word) (good : Bool) (s : State) : Host.Outcome State Fault Refusal :=
  ok s (fun _ d =>
    if d.r (Reg.ENC_CFG_MODE e.val) ≠ 2 then d
    else if !good then d.encFault e.val
    else
      let w := d.r (Reg.ENC_CFG_BITS e.val)
      let v := data.toNat % 2 ^ w
      let v := if d.b (Reg.ENC_CFG_GRAY e.val) then ungray w v else v
      (d.setEx e.val { d.ex e.val with latched := some v }).w (Reg.ENC_COUNT e.val) v)

/-- ADC inputs and encoders at a boundary (R209, R211, R212). -/
def Dev.senseBoundary (d : Dev) : Dev :=
  let d := { d with team := { d.team with sampled := 0 } }
  let d := d.each (List.range 48) (fun i d =>
    if d.b (Reg.ADC_EPOCH_VALID i) then (d.w (Reg.ADC_EPOCH_VALID i) 0).w (Reg.ADC_EPOCH_SHIFTED i) 0 else d)
  d.each (List.range 24) (fun e d =>
    let mode := d.r (Reg.ENC_CFG_MODE e)
    if mode = 0 then d
    else
      let d := d.w (Reg.ENC_STAT_FAULT e) 0
      let x := d.ex e
      match mode with
      | 1 => (d.setEx e { x with latched := some (un 32 x.count) }).ws (Reg.ENC_COUNT e) x.count
      | 3 =>
        let d := d.setEx e { x with latched := none, atBoundary := x.count }
        (d.adcTrigger (d.r (Reg.ENC_SINCOS_SIN_IN e))).adcTrigger (d.r (Reg.ENC_SINCOS_COS_IN e))
      | 4 => (d.setEx e { x with latched := some 0 }).w (Reg.ENC_COUNT e) 0
      | _ => d.setEx e { x with latched := none })

/-- The interface is a source of an enabled axis, coordinate or team. -/
def Dev.encInUse (d : Dev) (e : Nat) : Bool :=
  (List.range 128).any (fun a => d.axisOn a &&
    (let w := d.headWord a (d.bankOf a) 1
     bits w 0 2 == 2 && bits w 2 5 == e)) ||
  (List.range 8).any (fun n => d.b (Reg.COORD_CFG_ENABLE n) && d.r (Reg.COORD_CFG_KIND n) == 1 &&
    d.r (Reg.COORD_SRC_SEL n) % 32 == e) ||
  (List.range 24).any (fun t => d.b (Reg.TEAM_STAT_ENABLED t) && d.r (Reg.TEAM_COMM_SRC t) == 1 &&
    d.r (Reg.TEAM_COMM_ENC t) == e)

/-- Values of ENC_CFG, ENC_SSI or ENC_SINCOS that R211 and R213 refuse. -/
def Dev.encBad (d : Dev) (e off v : Nat) : Bool :=
  match off with
  | 0x00 => decide (5 ≤ v % 8) ||
      (v % 8 == 2 && (decide (bits v 11 6 < 8) || decide (32 < bits v 11 6))) ||
      (v % 8 == 3 && (decide (bits v 18 4 < 4) || decide (12 < bits v 18 4) ||
        sincosBad e (d.r (Reg.ENC_SINCOS_SIN_IN e)) (d.r (Reg.ENC_SINCOS_COS_IN e))))
  | 0x04 => decide (bits v 0 14 < 100) || decide (10000 < bits v 0 14)
  | _ => d.r (Reg.ENC_CFG_MODE e) == 3 && sincosBad e (bits v 0 6) (bits v 6 6)
where
  /-- Both inputs on one converter, or an input on the other die or absent. -/
  sincosBad (e si ci : Nat) : Bool :=
    decide (48 ≤ si) || decide (48 ≤ ci) || convOf si == convOf ci || dieOfInput si != dieOf e || dieOfInput ci != dieOf e

/-- A write of ENC_CFG (0x00), ENC_SSI (0x04) or ENC_SINCOS (0x08). -/
def Dev.encWrite (d : Dev) (e off v : Nat) : Dev :=
  let a := 0x40_6000 + 0x40 * e + off
  if off ≠ 4 ∧ (d.encInUse e ∨ d.encBad e off v) then d.flag (Reg.ENC_STAT_FAULT_SEEN e)
  else if off = 4 ∧ d.encBad e off v then d
  else
    let d := d.putReg a v
    if off = 0 then d.setEx e { d.ex e with latched := none } else d

/-! ### Register writes and commands (R195, R220, R221) -/

/-- Offsets of the team registers that accept writes only while the team is disabled (R195), stepper configuration with
them. -/
def lockedTeamReg (off : Nat) : Bool :=
  [0x00, 0x04, 0x08, 0x0C, 0x10, 0x14, 0x18, 0x1C, 0x20, 0x50, 0x5C].contains off ||
    (decide (0x80 ≤ off) && decide (off ≤ 0xB8) && off != 0x84)

/-- A write into the registers of team `t` at offset `off` from its window. -/
def Dev.teamWrite (d : Dev) (t off v : Nat) : Dev :=
  let a := 0x40_1000 + 0x100 * t + off
  if lockedTeamReg off ∧ d.b (Reg.TEAM_STAT_ENABLED t) then d.flag (Reg.TEAM_STAT_CFG_BUSY t)
  else if off = 0x84 then
    let d := d.putReg a v
    d.setTx t { d.tx t with step := { (d.tx t).step with curNext := some v } }
  else
    let d := d.putReg a v
    -- while the team is disabled the table applies without a shadow (R205)
    if (off = 0x54 ∨ off = 0x58) ∧ ¬ d.b (Reg.TEAM_STAT_ENABLED t) then
      d.setTx t { d.tx t with tab := d.r (Reg.TEAM_COMM_TAB t) } else d

/-- TEAM_CTRL (R214, R218). -/
def Dev.teamCtrl (d : Dev) (t v : Nat) : Dev :=
  let d := if bitOf v 1 then d.tripTeam t .force else d
  if bitOf v 0 then d.clearTrip t else d

/-- Meaning of TEAM_REG_WRITE: a write at offset 4 × `w` of the team's window. -/
def execTeamRegWrite (path : Path) (t : Fin 24) (w : Fin 64) (v : Word) (s : State) :
    Host.Outcome State Fault Refusal :=
  ok s (fun g d =>
    let off := 4 * w.val
    let p := lockedTeamReg off || [0x24, 0x54, 0x58, 0x84].contains off
    d.access path p (decide (t.val < teamsOf g)) (fun d =>
      if off = 0x24 then d.teamCtrl t.val v.toNat else d.teamWrite t.val off v.toNat))

/-- No named team is absent from the grade (R220). -/
def maskFitted (g : Grade) (ps : List Nat) : Bool :=
  (onesOf 24 (ps.getD 0 0)).all (fun t => decide (t < teamsOf g))

/-- A single named team is fitted; numbers above 23 are left to BAD_PARAM. -/
def teamFitted (g : Grade) (ps : List Nat) : Bool := decide (ps.getD 0 0 < teamsOf g) || decide (24 ≤ ps.getD 0 0)

/-- Meaning of TEAM_INFO. -/
def execTeamInfo (p : Packet) (s : State) : Host.Outcome State Fault Refusal :=
  ok s (fun g d => d.runPacket g { opcode := 0x400, need := needN 0 } p (fun d _ =>
    (d, .ok [d.r Reg.TEAM_TRIPPED, d.r Reg.TEAM_STO])))

/-- What R221 refuses in TEAM_CONFIG for team `t` with the words `ws`. -/
def Dev.teamConfigBad (d : Dev) (t : Nat) (ws : List Nat) : Option Nat :=
  let w (i : Nat) : Nat := ws.getD i 0
  let mode := w 0 % 8
  let pdiv := bits (w 0) 9 7
  let src := w 3 % 16
  let comm := w 9
  let targeted := (List.range 4).any (fun i => d.demandTargeted t i && (bitOf src i || !(mode == 1 || mode == 2)))
  let cmpBad := (List.range 4).find? (fun i =>
    let c := w (13 + i)
    bitOf c 26 && (decide (48 ≤ bits c 19 6) || dieOfInput (bits c 19 6) != dieOf t))
  if 4 ≤ mode ∨ !pdivOk (d.r Reg.EPK_CFG_K) pdiv ∨ 16 < bits (w 0) 16 5 then some 3
  else if targeted then some (if mode == 1 || mode == 2 then 6 else 3)
  else if bits (w 8) 0 16 = 0 then some 11
  else if comm % 4 = 3 then some 12
  else if comm % 4 = 1 ∧ (24 ≤ bits comm 2 5 ∨ dieOf (bits comm 2 5) ≠ dieOf t) then some 12
  else cmpBad.map (16 + ·)

/-- TEAM_CONFIG (R221): the words of R220 in order, into the team's registers. -/
def Dev.teamConfig (d : Dev) (t : Nat) (ws : List Nat) : Dev × Res :=
  if 24 ≤ t then (d, .badParam 2)
  else if d.b (Reg.TEAM_STAT_ENABLED t) then (d, .busy)
  else match d.teamConfigBad t ws with
    | some i => (d, .badParam i)
    | none =>
      let offs := [0x00, 0x04, 0x08, 0x0C, 0x10, 0x14, 0x18, 0x1C, 0x20, 0x50, 0x54, 0x58, 0x5C, 0x40, 0x44, 0x48, 0x4C]
      (d.each (offs.zip ws) (fun x d => d.teamWrite t x.1 x.2), .ok [])

/-- Meaning of TEAM_CONFIG. -/
def execTeamConfig (p : Packet) (s : State) : Host.Outcome State Fault Refusal :=
  ok s (fun g d => d.runPacket g { opcode := 0x401, priv := true, fitted := teamFitted, need := needN 18 } p
    (fun d ps => d.teamConfig (ps.getD 0 0) (ps.drop 1)))

/-- The epoch at whose boundary a change asked for now applies. -/
def Dev.nextEpoch (d : Dev) : Nat := if d.ep.placed then d.r Reg.EPK_NOW + 1 else 0

/-- TEAM_ENABLE (R195, R221). -/
def Dev.teamEnable (d : Dev) (mask on : Nat) : Dev × Res :=
  if 2 ^ 24 ≤ mask then (d, .badParam 2)
  else if 1 < on then (d, .badParam 3)
  else if on = 1 ∧ (onesOf 24 mask).any (fun t => d.r (Reg.TEAM_CFG_MODE t) == 0) then (d, .badParam 2)
  else
    let d := d.each (onesOf 24 mask) (fun t d => d.setTx t { d.tx t with enNext := some (on == 1) })
    (d, .ok [loW d.nextEpoch, hiW d.nextEpoch])

/-- Meaning of TEAM_ENABLE. -/
def execTeamEnable (p : Packet) (s : State) : Host.Outcome State Fault Refusal :=
  ok s (fun g d => d.runPacket g { opcode := 0x402, priv := true, fitted := maskFitted, need := needN 2 } p
    (fun d ps => d.teamEnable (ps.getD 0 0) (ps.getD 1 0)))

/-- Clear the named teams; answers those that were refused. -/
def Dev.clearTrips (d : Dev) (mask : Nat) : Dev × Res :=
  let ts := onesOf 24 mask
  let refused := (ts.filter (fun t => !d.clearOk t)).foldl (fun m t => setBit m t true) 0
  (d.each ts (fun t d => d.clearTrip t), .ok [refused])

/-- Meaning of TEAM_TRIP_CLEAR. -/
def execTeamTripClear (p : Packet) (s : State) : Host.Outcome State Fault Refusal :=
  ok s (fun g d => d.runPacket g { opcode := 0x403, priv := true, fitted := maskFitted, need := needN 1 } p
    (fun d ps => d.clearTrips (ps.getD 0 0)))

/-- Meaning of TEAM_FORCE_TRIP. -/
def execTeamForceTrip (p : Packet) (s : State) : Host.Outcome State Fault Refusal :=
  ok s (fun g d => d.runPacket g { opcode := 0x404, priv := true, fitted := maskFitted, need := needN 1 } p
    (fun d ps => (d.each (onesOf 24 (ps.getD 0 0)) (fun t d => d.tripTeam t .force), .ok [])))

/-- The word of TEAM_STAT. -/
def Dev.teamStatWord (d : Dev) (t : Nat) : Nat := d.regWord (0x40_1028 + 0x100 * t)

/-- Meaning of TEAM_READ. -/
def execTeamRead (p : Packet) (s : State) : Host.Outcome State Fault Refusal :=
  ok s (fun g d => d.runPacket g { opcode := 0x405, fitted := teamFitted, need := needN 1 } p (fun d ps =>
    let t := ps.getD 0 0
    if 24 ≤ t then (d, .badParam 2)
    else
      let f := d.ofFront
      (d, .ok ([f.teamStatWord t] ++ (List.range 4).map (fun i => f.r (Reg.TEAM_TON t i)) ++
        [f.r (Reg.TEAM_DROP_CNT t), f.r (Reg.TEAM_TRIP_CNT t), f.r (Reg.TEAM_CLR_REF_CNT t),
          f.r (Reg.TEAM_HALL_ERR_CNT t)] ++ d.frontWords))))

/-- Meaning of ADC_READ. -/
def execAdcRead (p : Packet) (s : State) : Host.Outcome State Fault Refusal :=
  ok s (fun g d => d.runPacket g { opcode := 0x410, need := needN 2, replyLen := fun ps => 5 + ps.getD 1 0 } p
    (fun d ps =>
      let i := ps.getD 0 0
      let n := ps.getD 1 0
      if 48 ≤ i then (d, .badParam 2)
      else if n < 1 ∨ 48 < n then (d, .badParam 3)
      else if 48 < i + n then (d, .badParam 0)
      else (d, .ok (d.frontWords ++ (List.range n).map (fun j => d.ofFront.regWord (0x40_4010 + 0x20 * (i + j)))))))

/-- Meaning of ENC_READ. -/
def execEncRead (p : Packet) (s : State) : Host.Outcome State Fault Refusal :=
  ok s (fun g d => d.runPacket g { opcode := 0x420, need := needN 1 } p (fun d ps =>
    let e := ps.getD 0 0
    if 24 ≤ e then (d, .badParam 2)
    else (d, .ok [d.r (Reg.ENC_COUNT e), d.r (Reg.ENC_INDEX e), d.regWord (0x40_6014 + 0x40 * e),
      loW (d.r Reg.EPK_NOW), hiW (d.r Reg.EPK_NOW)])))

end Sys2Proof.Machine
end

