-- ==== Sys2Proof/Machine/Stepper.lean ====
section
/-!
DEFINITION. Machine/Stepper.lean: the chopper events, the load-angle estimate and the commands of "Stepper Teams" (R228,
R231 … R237).
-/
namespace Sys2Proof.Machine

/-! ### The chopper (R228) -/

/-- A phase of a stepper team. -/
def StepX.phase (x : StepX) (b : Bool) : Phase := if b then x.b else x.a

/-- Change a phase of a stepper team and bring the outputs to it. -/
def Dev.setPhase (d : Dev) (t : Nat) (b : Bool) (p : Phase) : Dev :=
  let x := d.tx t
  (d.setTx t { x with step := if b then { x.step with b := p } else { x.step with a := p } }).driveTeam t

/-- Meaning of CHOP_BLANK_END: the comparator of a phase in DRIVE is armed. -/
def execChopBlankEnd (t : Fin 24) (phaseB : Bool) (s : State) : Host.Outcome State Fault Refusal :=
  ok s (fun _ d =>
    let p := (d.tx t.val).step.phase phaseB
    if d.strong t.val && p.st == 1 then d.setPhase t.val phaseB { p with armed := true } else d)

/-- Meaning of CHOP_COMPARATOR_SWITCH: an armed phase goes to FAST (DECAY 1) or SLOW; `tick` is the tick of the period. -/
def execChopComparatorSwitch (t : Fin 24) (phaseB : Bool) (tick : Nat) (s : State) :
    Host.Outcome State Fault Refusal :=
  ok s (fun _ d =>
    let p := (d.tx t.val).step.phase phaseB
    if d.strong t.val && p.st == 1 && p.armed then
      d.setPhase t.val phaseB { p with
        armed := false, st := if d.b (Reg.STEP_CFG_DECAY t.val) then 2 else 0,
        drive := 100 * (tick - d.r (Reg.TEAM_DT_DT t.val)),
        fast := if d.b (Reg.STEP_CFG_DECAY t.val) then
          min (100 * (d.r (Reg.STEP_CHOP_FAST_T t.val) - d.r (Reg.TEAM_DT_DT t.val)))
            (d.periodUnits t.val - 100 * tick) else 0 }
    else d)

/-- Meaning of CHOP_FAST_END: after FAST_T ticks the phase goes to SLOW. -/
def execChopFastEnd (t : Fin 24) (phaseB : Bool) (s : State) : Host.Outcome State Fault Refusal :=
  ok s (fun _ d =>
    let p := (d.tx t.val).step.phase phaseB
    if d.strong t.val && p.st == 2 then d.setPhase t.val phaseB { p with st := 0 } else d)

/-! ### Load angle and stall (R231 … R233) -/

/-- A rational n × mul / den in binary32. -/
def ratio32 (z : Int) (mul den : Nat) : Nat :=
  if z = 0 then 0 else (f32.roundRat (decide (z < 0)) (z.natAbs * mul) den 0).1

/-- An integer in binary32. -/
def int32 (z : Int) : Nat := (f32.ofInt z).1

/-- The estimate of R231: the filtered angle df, |e| and omega, all binary32. -/
def Dev.loadAngle (d : Dev) (t : Nat) (aA aB pA pB vb : Int) : Nat × Nat × Nat :=
  let st := (d.tx t).step
  let mul (a b : Nat) : Nat := (f32.mul a b).1
  let dvd (a b : Nat) : Nat := (f32.div a b).1
  let add (a b : Nat) : Nat := (f32.add a b).1
  let sub (a b : Nat) : Nat := (f32.sub a b).1
  let k15 := int32 32768
  let twoPi : Nat := 0x40C90FDB
  let te := ratio32 (d.r Reg.EPK_CFG_K : Nat) 1 64000
  let amps (a : Int) : Nat := dvd (mul (int32 a) (d.r (Reg.STEP_IFS t))) k15
  let vbus := dvd (mul (int32 vb) (d.r (Reg.STEP_VFS t))) k15
  let emf (p : Phase) (a b : Int) : Nat :=
    let u := dvd (mul vbus (ratio32 ((p.fwdPrev : Int) - p.revPrev) 1 40000000000)) te
    let i1 := amps a
    let i0 := amps b
    let r := dvd (mul (d.r (Reg.STEP_R t)) (add i1 i0)) (int32 2)
    let l := dvd (mul (d.r (Reg.STEP_L t)) (sub i1 i0)) te
    sub (sub u r) l
  let eA := emf st.a aA pA
  let eB := emf st.b aB pB
  let th := mul twoPi (ratio32 (st.addrFirstPrev + st.addrLastPrev) 1 2048)
  let sn := Config.sin32 th
  let cs := Config.cos32 th
  let ed := add (mul eA sn) (mul eB cs)
  let eq := sub (mul eA cs) (mul eB sn)
  let s := int32 st.sPrev
  let delta := dvd (mul (mul s (Config.atan32 (mul s ed) (mul s eq))) (int32 1024)) twoPi
  let df := add st.df (dvd (sub delta st.df) (int32 (2 ^ d.r (Reg.STEP_EST_LA_FILT t))))
  let om := dvd (mul (mul s twoPi) (int32 st.wPrev)) (mul (int32 (65536 * 1024)) te)
  (df, (f32.sqrt (add (mul ed ed) (mul eq eq))).1, om)

/-- Request the QSTOP kind on the axis that drives a team (R233). -/
def Dev.stopStepperAxis (d : Dev) (t : Nat) : Dev :=
  match (List.range 128).find? (fun a => d.stepperOf a == some t) with
  | some a => d.setPx a { d.px a with stopReq := (d.px a).stopReq ++ [7] }
  | none => d

/-- A stall estimate (R233): count it, and at STALL_N set STALL and take the reaction. -/
def Dev.stallEstimate (d : Dev) (t : Nat) : Dev :=
  let x := d.tx t
  let n := x.step.stallCnt + 1
  if n < d.r (Reg.STEP_EST_STALL_N t) then d.setTx t { x with step := { x.step with stallCnt := n } }
  else
    let d := d.setTx t { x with step := { x.step with stallCnt := 0 } }
    let d := (d.flag (Reg.STEP_STAT_STALL t)).inc (Reg.STEP_CNT_STALL_CNT t)
    match d.r (Reg.STEP_EST_STALL_REACT t) with
    | 1 => d.stopStepperAxis t
    | 2 => (d.stopStepperAxis t).tripTeam t .force
    | _ => d

/-- LOAD_ANGLE_ESTIMATE (R231 … R233). -/
def Dev.estimate (d : Dev) (t : Nat) : Dev :=
  if d.r (Reg.TEAM_CFG_MODE t) ≠ 3 ∨ ¬ d.b (Reg.TEAM_STAT_ENABLED t) then d
  else
    let st := (d.tx t).step
    match d.adcNow (2 * t), d.adcNow (2 * t + 1), st.ixPrev.getD 0 none, st.ixPrev.getD 1 none,
      d.adcNow (d.r (Reg.STEP_VBUS t)) with
    | some a, some b, some pa, some pb, some v =>
      let (df, e, om) := d.loadAngle t a b pa pb v
      let d := d.setTx t { d.tx t with step := { st with df := df } }
      let d := (d.w (Reg.STEP_EMF t) e).ws (Reg.STEP_ANGLE t) (satS 16 ((f32.floorScaled df 6).getD 0))
      let valid := decide (d.r (Reg.STEP_EST_W_EST t) ≤ st.wPrev / 2 ^ 8)
      let d := d.wb (Reg.STEP_STAT_EST_VALID t) valid
      let lim := (f32.mul (f32.mul (ratio32 (d.r (Reg.STEP_STALL_E_RATIO t) : Nat) 1 1024) (d.r (Reg.STEP_KE t))).1
        (f32.abs om)).1
      let stall := f32.le (int32 (d.r (Reg.STEP_STALL_STALL_ANG t) : Nat)) (f32.abs df) || f32.lt e lim
      if valid && stall then d.stallEstimate t
      else d.setTx t { d.tx t with step := { (d.tx t).step with stallCnt := 0 } }
    | _, _, _, _, _ => d.flag (Reg.STEP_STAT_EST_MISS t)

/-- Meaning of LOAD_ANGLE_ESTIMATE. -/
def execLoadAngleEstimate (t : Fin 24) (s : State) : Host.Outcome State Fault Refusal := ok s (fun _ d => d.estimate t.val)

/-! ### Commands (R236, R237) -/

/-- What R237 refuses in STEP_CONFIG, as the index of the first offending word, for the words after the team. -/
def Dev.stepConfigBad (d : Dev) (t : Nat) (ws : List Nat) : Option Nat :=
  let w (i : Nat) : Nat := ws.getD i 0
  let epc := w 0 % 32
  let blank := w 3 % 1024
  let nonNeg (x : Nat) : Bool := f32.isFinite x && decide (x < f32.signBit)
  if bits (w 0) 5 2 = 3 ∨ epc < 2 ∨ 20 < epc ∨ bits (w 0) 16 16 = 0 then some 3
  else if w 2 % 2 ^ 16 < w 2 / 2 ^ 16 then some 5
  else if blank = 0 ∨ blank < d.r (Reg.TEAM_DT_MIN_PULSE t) ∨
      ¬ 100 * (d.r (Reg.TEAM_DT_DT t) + blank) < d.periodUnits t then some 6
  else if bits (w 7) 20 4 = 0 ∨ bits (w 7) 24 2 = 3 then some 10
  else if w 8 % 1024 = 0 ∨ 511 < w 8 % 1024 then some 11
  else if !nonNeg (w 9) then some 12
  else if !nonNeg (w 10) then some 13
  else if !f32.isPos (w 11) then some 14
  else if !f32.isPos (w 12) then some 15
  else if !f32.isPos (w 13) then some 16
  else if 48 ≤ w 14 % 64 ∨ dieOfInput (w 14 % 64) ≠ dieOf t then some 17
  else none

/-- STEP_CONFIG (R237). -/
def Dev.stepConfig (d : Dev) (t : Nat) (ws : List Nat) : Dev × Res :=
  if 24 ≤ t then (d, .badParam 2)
  else if d.b (Reg.TEAM_STAT_ENABLED t) then (d, .busy)
  else if d.r (Reg.TEAM_CFG_MODE t) ≠ 3 then (d, .badParam 2)
  else match d.stepConfigBad t ws with
    | some i => (d, .badParam i)
    | none =>
      let offs := [0x80, 0x84, 0x88, 0x8C, 0x90, 0x94, 0x98, 0x9C, 0xA0, 0xA4, 0xA8, 0xAC, 0xB0, 0xB4, 0xB8]
      (d.each (offs.zip ws) (fun x d => d.teamWrite t x.1 x.2), .ok [])

/-- Meaning of STEP_CONFIG. -/
def execStepConfig (p : Packet) (s : State) : Host.Outcome State Fault Refusal :=
  ok s (fun g d => d.runPacket g { opcode := 0x406, priv := true, fitted := teamFitted, need := needN 16 } p
    (fun d ps => d.stepConfig (ps.getD 0 0) (ps.drop 1)))

/-- STEP_CURRENT (R236, R237): IRUN and IHOLD of the named teams from the next boundary. -/
def Dev.stepCurrent (d : Dev) (mask irun ihold : Nat) : Dev × Res :=
  if 2 ^ 24 ≤ mask ∨ (onesOf 24 mask).any (fun t => d.r (Reg.TEAM_CFG_MODE t) != 3) then (d, .badParam 2)
  else if 2 ^ 15 ≤ irun then (d, .badParam 3)
  else if 2 ^ 15 ≤ ihold then (d, .badParam 4)
  else (d.each (onesOf 24 mask) (fun t d => d.teamWrite t 0x84 (irun + ihold * 2 ^ 16)),
    .ok [loW d.nextEpoch, hiW d.nextEpoch])

/-- Meaning of STEP_CURRENT. -/
def execStepCurrent (p : Packet) (s : State) : Host.Outcome State Fault Refusal :=
  ok s (fun g d => d.runPacket g { opcode := 0x407, priv := true, fitted := maskFitted, need := needN 3 } p
    (fun d ps => d.stepCurrent (ps.getD 0 0) (ps.getD 1 0) (ps.getD 2 0)))

/-- Meaning of STEP_READ. -/
def execStepRead (p : Packet) (s : State) : Host.Outcome State Fault Refusal :=
  ok s (fun g d => d.runPacket g { opcode := 0x408, fitted := teamFitted, need := needN 1 } p (fun d ps =>
    let t := ps.getD 0 0
    if 24 ≤ t then (d, .badParam 2)
    else
      let f := d.ofFront
      let q := f.r (Reg.STEP_POS t)
      (d, .ok ([f.regWord (0x40_10BC + 0x100 * t), loW q, hiW q, f.r (Reg.STEP_SPEED t), f.r (Reg.STEP_ANGLE t),
        f.r (Reg.STEP_EMF t), f.regWord (0x40_10D0 + 0x100 * t)] ++ d.frontWords))))

end Sys2Proof.Machine
end

