-- ==== Sys2Proof/Machine/Loop.lean ====
section
/-!
DEFINITION. Machine/Loop.lean: the loop engine of "Loop Engine" (R106 … R141), with the injectors of "Trace Memory and
Frequency Response" that act in its evaluations (R154 … R156).
-/
namespace Sys2Proof.Machine

/-! ### Number helpers -/

/-- sat16 of R109, and whether it acted. -/
def sat16 (z : Int) : Int × Bool := (satS 16 z, satS 16 z != z)

/-- A Q1.15 field. -/
def q15 (x : Nat) : Int := sx 16 x

/-- An axis mask of four words as a list of axes, rising (R140). -/
def axisList (ws : List Nat) : List Nat := (List.range 128).filter (fun a => bitOf (ws.getD (a / 32) 0) (a % 32))

/-- Packet index of the axis mask word (from word 2) that names the first axis the grade lacks. -/
def maskWord (g : Grade) (axes : List Nat) : Nat := 2 + ((axes.find? (fun a => decide (axesOf g ≤ a))).getD 0) / 32

/-- A list of axes as the four words of a mask. -/
def axisMask (l : List Nat) : List Nat :=
  [0, 1, 2, 3].map (fun i => l.foldl (fun m a => if a / 32 = i then setBit m (a % 32) true else m) 0)

/-! ### Records (R130 … R132) -/

/-- The candidates of a bank: stage and record index, in stage order (R129). -/
def Dev.candidates (d : Dev) (a bank : Nat) : List (Nat × Nat) :=
  let w := d.headWord a bank 0
  let n := w % 4
  let sel := bits w 2 2
  let cnt (s : Nat) : Nat := if s = sel then bits w 4 3 else 1
  let base (s : Nat) : Nat := ((List.range s).map cnt).foldl (· + ·) 0
  (List.range n).flatMap (fun s => (List.range (cnt s)).map (fun i => (s, base s + i)))

/-- The divider of a bank. -/
def Dev.divOf (d : Dev) (a bank : Nat) : Nat := 2 ^ bits (d.headWord a bank 0) 8 2

/-- The feedback group of a bank (R119). -/
def Dev.groupOfAxis (d : Dev) (a bank : Nat) : Nat := bits (d.headWord a bank 0) 13 3

/-- The bank that decides an evaluation in epoch `n` (R135). -/
def Dev.evalBank (d : Dev) (a n : Nat) : Nat :=
  if d.loop.swapAxes.contains a && decide (d.r Reg.LOOP_SWAP_EPOCH ≤ n) then 1 - d.bankOf a else d.bankOf a

/-- The axis is due in epoch `n` (R107). -/
def Dev.axisDue (d : Dev) (a n : Nat) : Bool :=
  let bank := d.evalBank a n
  let x := d.lp a
  d.axisOn a && !x.off && !x.resumeNext && n % d.divOf a bank == bits (d.headWord a bank 0) 10 3

/-- Host address of section state `j` of an axis (R129). -/
def stateAddr (a j : Nat) : Nat := 0x28_0000 + 0x1000 * a + 0x800 + 8 * j

/-- Zero all section states of an axis. -/
def Dev.zeroStates (d : Dev) (a : Nat) : Dev := d.each (List.range 96) (fun i d => d.putMw (stateAddr a 0 + 4 * i) 0)

/-! ### Feedback (R108, R109, R123) -/

/-- The raw value of an axis's position source in this epoch, and its fraction bits. -/
def Dev.posRaw (d : Dev) (a bank : Nat) : Option (Nat × Nat) :=
  let w := d.headWord a bank 1
  match w % 4 with
  | 1 => (d.ringNow (bits w 2 2) (bits w 4 7) (bits w 11 6)).map (fun v => (v, bits w 17 5))
  | 2 => (d.encoderNow (bits w 2 5)).map (fun v => (v, 0))
  | _ => none

/-- Take the axis position of the epoch (R108): unwrapped, aligned to 24 fraction bits. -/
def Dev.takePosition (d : Dev) (a : Nat) : Dev :=
  let x := d.lp a
  match d.posRaw a (d.bankOf a) with
  | none => d
  | some (raw, frac) =>
    let c : Int := if x.taken then x.count + sx 32 (raw + 2 ^ 32 - x.lastRaw) else sx 32 raw
    let pos := ashl c (24 - frac)
    let d := d.setLp a { x with count := c, lastRaw := raw, taken := true, pos := pos, posNow := true }
    -- the profile generator starts in HOLD at the position latched at this boundary (R161)
    let y := d.px a
    if y.grab ∧ d.prf.run then
      let d := d.setPx a { y with
        grab := false, sp := pos, spPrev := pos, spNext := pos, vf := 0, af := 0, star := none, plan := none, gear := none }
      ((d.ws (Reg.AX_SP a) pos).ws (Reg.AX_TARGET a) pos).w (Reg.AX_PRF_STAT_MODE a) 0
    else d

/-- ADC sample `i` for an axis of group `g` (R119). -/
def Dev.adcFor (d : Dev) (g i : Nat) : Option Int :=
  if g = 4 ∧ ¬ bitOf d.loop.adcReady i then none else d.adcNow i

/-- The 16-bit feedback term of FB_KIND 3 … 5 before FB_NEG; none when it is missing. -/
def Dev.fbTerm (d : Dev) (a bank c : Nat) : Option Int :=
  let w := d.candWord a bank c 3
  let sel := bits w 3 18
  match w % 8 with
  | 3 => (d.ringWord (sel % 4) (sel / 4 % 128) (sel / 512 % 64)).map (fun v => sx 16 v)
  | 4 => d.adcFor (d.groupOfAxis a bank) (sel % 64)
  | 5 => some (sx 16 (d.signal sel))
  | _ => some 0

/-- Every feedback that the evaluation of a bank uses is there (R123). -/
def Dev.fbPresent (d : Dev) (a bank : Nat) : Bool :=
  (d.candidates a bank).all (fun sc =>
    let k := d.candWord a bank sc.2 3 % 8
    if k = 1 ∨ k = 2 then (d.axisNow a).isSome else (d.fbTerm a bank sc.2).isSome)

/-! ### Injectors (R154 … R156) -/

/-- Injector `n`. -/
def Dev.injector (d : Dev) (n : Nat) : Injector := Tab.look {} n d.trc.inj

/-- Change injector `n`. -/
def Dev.setInjector (d : Dev) (n : Nat) (x : Injector) : Dev :=
  { d with trc := { d.trc with inj := Tab.put n x d.trc.inj } }

/-- The feedback tap of a PRBS order (R156). -/
def prbsTap : Nat → Option Nat
  | 7 => some 6
  | 9 => some 5
  | 11 => some 9
  | 15 => some 14
  | 23 => some 18
  | 31 => some 28
  | _ => none

/-- INJECTOR_SAMPLE (R156): the next sample of injector `n`, with its state after it. -/
def Dev.injSample (d : Dev) (n : Nat) : Injector × Int :=
  let x := d.injector n
  let amp := q15 (d.r (Reg.INJ_AMP n))
  match d.r (Reg.INJ_CTRL_WAVE n) with
  | 0 => (x, amp)
  | 1 =>
    ({ x with phase := (x.phase + x.inc) % 2 ^ 32, inc := (x.inc + d.r (Reg.INJ_P1 n)) % 2 ^ 32 },
      ashr (amp * sinTab (x.phase / 2 ^ 22)) 15)
  | _ =>
    let p1 := d.r (Reg.INJ_P1 n)
    let order := p1 % 32
    let tap := (prbsTap order).getD 1
    let x := if x.held = 0 then
        let f := bitOf x.lfsr (order - 1) != bitOf x.lfsr (tap - 1)
        { x with lfsr := (x.lfsr * 2 + b2n f) % 2 ^ order, bit := f }
      else x
    ({ x with held := (x.held + 1) % (bits p1 8 4 + 1) }, if x.bit then amp else -amp)

/-- Injectors that act in an evaluation of axis `a` in epoch `n`. -/
def Dev.injectorsOf (d : Dev) (a n : Nat) : List Nat :=
  [0, 1, 2, 3].filter (fun i => d.b (Reg.INJ_STAT_ACTIVE i) && d.r (Reg.INJ_NODE_AXIS i) == a &&
    decide ((d.injector i).start ≤ n))

/-- The sum injected at a point (0 error, 1 candidate output, 2 stage reference, 3 axis output), `at` naming the candidate
or stage. -/
def Dev.injected (d : Dev) (a n point idx : Nat) : Int :=
  sumI (((d.injectorsOf a n).filter (fun i => d.r (Reg.INJ_NODE_POINT i) == point &&
    (point == 3 || (if point = 2 then d.r (Reg.INJ_NODE_CAND i) / 2 % 4 else d.r (Reg.INJ_NODE_CAND i)) == idx))).map
    (fun i => (d.injSample i).2))

/-- INJECTOR_STOP (R155): ABORTED unless all samples were produced. -/
def Dev.injStop (d : Dev) (n : Nat) (aborted : Bool) : Dev :=
  if d.b (Reg.INJ_STAT_ACTIVE n) then
    let d := d.w (Reg.INJ_STAT_ACTIVE n) 0
    if aborted then d.flag (Reg.INJ_STAT_ABORTED n) else d
  else d

/-- Stop the injectors of an axis (R155). -/
def Dev.injStopAxis (d : Dev) (a : Nat) : Dev :=
  d.each ([0, 1, 2, 3].filter (fun i => d.b (Reg.INJ_STAT_ACTIVE i) && d.r (Reg.INJ_NODE_AXIS i) == a))
    (fun i d => d.injStop i true)

/-- After an evaluation its injectors advance one sample (R155). -/
def Dev.injAdvance (d : Dev) (a n : Nat) : Dev :=
  d.each (d.injectorsOf a n) (fun i d =>
    let (x, v) := d.injSample i
    let d := (d.setInjector i { x with value := v, now := true }).w (Reg.INJ_DONE i) (d.r (Reg.INJ_DONE i) + 1)
    if d.r (Reg.INJ_COUNT i) ≤ d.r (Reg.INJ_DONE i) then d.injStop i false else d)

/-! ### One evaluation (R109 … R117) -/

/-- The result of one candidate. -/
structure CandRes where
  stage : Nat
  idx : Nat
  e : Int
  xs : List Int
  ys : List Int
  o : Int
  gsat : Bool
  lim : Bool
  sat : Bool
  vel : Option Int
deriving DecidableEq, Repr

/-- The output of one section for input `x` (R112), and whether it saturated. -/
def Dev.secOut (d : Dev) (a bank j : Nat) (x : Int) : Int × Bool :=
  let w0 := d.secWord a bank j 0
  let w1 := d.secWord a bank j 1
  let w2 := d.secWord a bank j 2
  let s0 := d.mw (stateAddr a j)
  let s1 := d.mw (stateAddr a j + 4)
  let acc := 2 * (q15 w0 * x + q15 (w0 / 2 ^ 16) * q15 s0 + q15 w1 * q15 (s0 / 2 ^ 16) + q15 (w1 / 2 ^ 16) * q15 s1 +
    q15 w2 * q15 (s1 / 2 ^ 16))
  sat16 (ashr acc (16 - bits w2 16 3))

/-- Run the sections of a candidate in ascending slot order (R113): inputs, outputs, last output, saturation. -/
def Dev.sections (d : Dev) (a bank : Nat) : List Nat → Int → List Int × List Int × Int × Bool
  | [], u => ([], [], u, false)
  | j :: r, u =>
    let (y, s) := d.secOut a bank j u
    let (xs, ys, o, t) := d.sections a bank r y
    (u :: xs, y :: ys, o, s || t)

/-- The section slots of a candidate. -/
def Dev.slotsOf (d : Dev) (a bank c : Nat) : List Nat :=
  let w := d.candWord a bank c 0
  (List.range (bits w 6 4)).map (fun i => bits w 0 6 + i)

/-- The error of a candidate (R109 … R111) for stage reference `sref`, with the velocity feedback it used. -/
def Dev.candError (d : Dev) (a bank n stage c : Nat) (sref : Int) : Int × Bool × Option Int :=
  let x := d.lp a
  let w1 := d.candWord a bank c 1
  let w3 := d.candWord a bank c 3
  let sh := bits w3 21 6
  let kind := w3 % 8
  let pos := (d.axisNow a).getD 0
  let refv : Int := match w1 % 4 with
    | 0 => sref
    | 1 => q15 (d.candWord a bank c 2)
    | _ => sx 16 (d.signal (bits w1 2 18))
  let neg (f : Int) : Int := if bitOf w3 27 then (if f = -32768 then 32767 else -f) else f
  match kind with
  | 0 => ((sat16 refv).1, (sat16 refv).2, none)
  | 1 =>
    let z := ashr (sx 64 (d.r (Reg.AX_SP a)) - pos) sh + (if stage = 0 then d.injected a n 2 0 else 0)
    ((sat16 z).1, (sat16 z).2, none)
  | 2 =>
    let (v, s) := if x.first then (Tab.look 0 c x.lastVel, false) else sat16 (ashr (pos - x.prevPos) sh)
    let z := sat16 (refv - neg v)
    (z.1, s || z.2, some v)
  | _ =>
    let z := sat16 (refv - neg ((d.fbTerm a bank c).getD 0))
    (z.1, z.2, none)

/-- Evaluate one candidate (R109 … R113). -/
def Dev.evalCand (d : Dev) (a bank n stage c : Nat) (sref : Int) : CandRes :=
  let (e0, s0, vel) := d.candError a bank n stage c sref
  let (e, s1) := sat16 (e0 + d.injected a n 0 c)
  let (xs, ys, u, s2) := d.sections a bank (d.slotsOf a bank c) e
  let w4 := d.candWord a bank c 4
  let w5 := d.candWord a bank c 5
  let (g, s3) := sat16 (ashr (u * q15 w4) (15 - bits w4 16 4))
  let (g2, s4) := sat16 (g + d.injected a n 1 c)
  let o := clampI (q15 w5) (q15 (w5 / 2 ^ 16)) g2
  { stage := stage, idx := c, e := e, xs := xs, ys := ys, o := o, gsat := s3, lim := o != g2,
    sat := s0 || s1 || s2 || s3 || s4, vel := vel }

/-- The winner among candidates (R114): the lowest (or highest) output, the lowest index among equals. -/
def selectWinner (highest : Bool) : List CandRes → Option CandRes
  | [] => none
  | c :: r =>
    match selectWinner highest r with
    | none => some c
    | some b => if (if highest then b.o > c.o else b.o < c.o) then some b else some c

/-- The stage reference (R110): zero for stage 0, else the previous output with the feed-forward; injection point 2. -/
def Dev.stageRef (d : Dev) (a bank n stage : Nat) (prev : Int) : Int × Bool :=
  if stage = 0 then (0, false)
  else
    let w := d.headWord a bank (4 + stage)
    let q := sx 64 (if stage = 1 then d.r (Reg.AX_VEL a) else d.r (Reg.AX_ACC a))
    let g := q15 w
    let ff := if g = 0 then 0 else (sat16 (ashr (ashr q (bits w 20 6) * g) (15 - bits w 16 4))).1
    let (r, s) := sat16 ((sat16 (prev + ff)).1 + d.injected a n 2 stage)
    (r, s && d.injected a n 2 stage != 0)

/-- Evaluate the stages from `stage` on, `k` of them left: results, winners and outputs by stage. -/
def Dev.evalStages (d : Dev) (a bank n : Nat) : Nat → Nat → Int → List CandRes × List CandRes × Bool
  | 0, _, _ => ([], [], false)
  | k + 1, stage, prev =>
    let (sref, s) := d.stageRef a bank n stage prev
    let rs := ((d.candidates a bank).filter (fun sc => sc.1 == stage)).map (fun sc => d.evalCand a bank n stage sc.2 sref)
    match selectWinner (bitOf (d.headWord a bank 0) 7) rs with
    | none => (rs, [], s)
    | some w =>
      let (rs2, ws, s2) := d.evalStages a bank n k (stage + 1) w.o
      (rs ++ rs2, w :: ws, s || s2)

/-- The winner of a stage is constrained (R115), innermost first, from the winners of this stage and the inner ones. -/
def winnerConstrained (w0 : Nat) : Nat → List CandRes → Bool
  | _, [] => false
  | stage, w :: r => w.gsat || w.lim || ((bitOf w0 (16 + stage) && decide (stage < 2)) && winnerConstrained w0 (stage + 1) r)

/-- How a candidate is constrained (R115): by its own loss, gain or limiter, or only through AW_UP. -/
def constraintOf (w0 : Nat) (ws : List CandRes) (c : CandRes) : Bool × Bool :=
  let own := (match ws[c.stage]? with
    | some w => w.idx != c.idx
    | none => true) || c.gsat || c.lim
  let up := bitOf w0 (16 + c.stage) && decide (c.stage < 2) && winnerConstrained w0 (c.stage + 1) (ws.drop (c.stage + 1))
  (own, up)

/-- Write back the section states of a candidate (R116, R117). -/
def Dev.writeBack (d : Dev) (a bank : Nat) (ws : List CandRes) (c : CandRes) : Dev :=
  let w0 := d.candWord a bank c.idx 0
  let mode := bits w0 13 2
  let sec := bits w0 10 3
  let (own, up) := constraintOf (d.headWord a bank 0) ws c
  let w6 := d.candWord a bank c.idx 6
  let os := match ws[c.stage]? with
    | some w => w.o
    | none => 0
  let t := satS 16 (ashr (os * q15 w6) (15 - bits w6 16 4))
  let slots := d.slotsOf a bank c.idx
  d.each (List.range slots.length) (fun k d =>
    let j := slots.getD k 0
    let s0 := d.mw (stateAddr a j)
    let s1 := d.mw (stateAddr a j + 4)
    let aw := (own || up) && decide (mode ≠ 0) && k == sec
    let freeze := aw && (mode == 1 || !own)
    if freeze then d
    else
      let x1 := un 16 (c.xs.getD k 0)
      let (y1, y2) := if aw then (un 16 t, un 16 t) else (un 16 (c.ys.getD k 0), s1 % 2 ^ 16)
      (d.putMw (stateAddr a j) (x1 + s0 % 2 ^ 16 * 2 ^ 16)).putMw (stateAddr a j + 4) (y1 + y2 * 2 ^ 16))

/-- Fault an axis with a code, 1 FE, 2 FB_LOST, 3 MEM_ERR, and take OFF when asked (R127). -/
def Dev.faultAxis (d : Dev) (a code : Nat) (off : Bool) : Dev :=
  let old := d.r (Reg.AXIS_STAT_FAULT a)
  if old = 2 ∨ old = 3 ∨ (old = 1 ∧ code = 1) then d
  else
    let d := ((d.w (Reg.AXIS_STAT_FAULT a) code).flag Reg.LOOP_STAT_FAULT).injStopAxis a
    let d := { d with trc := { d.trc with faultedNow := a :: d.trc.faultedNow } }
    if off then
      let x := d.lp a
      ((d.setLp a { x with off := true, out := 0 }).w (Reg.AXIS_OUT a) 0).zeroStates a
    else d

/-- The following error monitor (R126, R127), after an evaluation. -/
def Dev.followError (d : Dev) (a bank : Nat) : Dev :=
  let mon := (d.candidates a bank).any (fun sc => sc.1 == 0 && d.candWord a bank sc.2 3 % 8 == 1)
  let fe := if mon then sx 64 (d.r (Reg.AX_SP a)) - (d.axisNow a).getD 0 else 0
  let d := d.ws (Reg.AXIS_FE a) (satS 32 (ashr fe 16))
  let lim := d.headWord a bank 3
  let w4 := d.headWord a bank 4
  let time := w4 % 2 ^ 16
  if !mon || lim == 0 || time == 0 then d
  else
    let inside := decide (-(ashl lim 16) ≤ fe ∧ fe < ashl lim 16)
    if inside then d.w (Reg.AXIS_STAT_FE_CNT a) 0
    else
      let d := d.inc (Reg.AXIS_STAT_FE_CNT a)
      if d.r (Reg.AXIS_STAT_FE_CNT a) = time ∧ d.r (Reg.AXIS_STAT_FAULT a) = 0 then
        let react := bits w4 16 2
        let d := d.faultAxis a 1 (react == 2)
        if react = 1 then d.setPx a { d.px a with stopReq := (d.px a).stopReq ++ [7] } else d
      else d

/-- BANK_SWAP (R135, R136): a named axis changes to its other bank. -/
def Dev.swapAxis (d : Dev) (a : Nat) : Dev :=
  let d := d.w (Reg.AXIS_STAT_BANK a) (1 - d.bankOf a)
  let d := if d.loop.swapMode = 1 then (d.zeroStates a).injStopAxis a else d
  let left := d.loop.swapAxes.filter (· != a)
  let d := { d with loop := { d.loop with swapAxes := left } }
  if left.isEmpty then (d.w Reg.LOOP_STAT_SWAP_PENDING 0).flag Reg.LOOP_STAT_SWAP_DONE else d

/-- AXIS_EVALUATION (R117): one axis in epoch `n`. -/
def Dev.evalAxis (d : Dev) (a n : Nat) : Dev :=
  let d := if d.evalBank a n ≠ d.bankOf a then d.swapAxis a else d
  let bank := d.bankOf a
  let w0 := d.headWord a bank 0
  let sel := bits w0 2 2
  let (rs, ws, s) := d.evalStages a bank n (w0 % 4) 0 0
  let (out, s2) := sat16 ((match ws.getLast? with
    | some w => w.o
    | none => 0) + d.injected a n 3 0)
  let selW := ws[sel]?
  let base := ((rs.filter (fun c => decide (c.stage < sel))).length)
  let win := (selW.map (fun w => w.idx - base)).getD 0
  let con := (rs.filter (fun c => c.stage == sel)).foldl (fun m c =>
    let k := constraintOf w0 ws c
    setBit m (c.idx - base) (k.1 || k.2)) 0
  let x := d.lp a
  let switched := match x.prevWinner with
    | some p => p != win
    | none => false
  let nodes := rs.foldl (fun t c => (c.ys.zip (List.range 8)).foldl (fun t y => Tab.put (16 * c.idx + 1 + y.2) y.1 t)
    (Tab.put (16 * c.idx + 9) c.o (Tab.put (16 * c.idx) c.e t))) ([] : Tab Int)
  let nodes := (ws.zip (List.range 3)).foldl (fun t w => Tab.put (96 + w.2) w.1.o t) nodes
  let d1 := d.each rs (fun c d => d.writeBack a bank ws c)
  let d1 := d1.injAdvance a n
  let pos := (d.axisNow a).getD 0
  let d1 := d1.setLp a { x with
    prevPos := pos, first := false, prevWinner := some win, out := out, nodes := nodes, evalNow := true,
    selOut := (selW.map (·.o)).getD 0,
    lastVel := rs.foldl (fun t c => match c.vel with
      | some v => Tab.put c.idx v t
      | none => t) x.lastVel }
  let d1 := d1.ws (Reg.AXIS_OUT a) out
  let d1 := ((d1.w (Reg.AXIS_STAT_WINNER a) win).w (Reg.AXIS_STAT_CONSTRAINED a) con).w (Reg.AXIS_STAT_MISSED a) 0
  let d1 := d1.w (Reg.AXIS_CNT_MISS_RUN a) 0
  let d1 := if switched then d1.incWrap (Reg.AXIS_CNT_SWITCH_CNT a) else d1
  let d1 := d1.flagIf (s || s2 || rs.any (·.sat)) (Reg.AXIS_STAT_SAT a)
  d1.followError a bank

/-- AXIS_MISSED (R123): not evaluated for want of feedback; at MISS_MAX the axis faults with FB_LOST. -/
def Dev.missAxis (d : Dev) (a n : Nat) : Dev :=
  let d := (d.flag (Reg.AXIS_STAT_MISSED a)).inc (Reg.AXIS_CNT_MISS_RUN a)
  let d := d.setLp a { d.lp a with first := true }
  let m := bits (d.headWord a (d.evalBank a n) 4) 18 5
  if m ≤ d.r (Reg.AXIS_CNT_MISS_RUN a) then d.faultAxis a 2 true else d

/-! ### Passes (R119 … R122) -/

/-- The engine cycles of one evaluation (R121). -/
def Dev.evalCost (d : Dev) (a bank : Nat) : Nat :=
  let w0 := d.headWord a bank 0
  let cs := d.candidates a bank
  8 + (cs.map (fun sc => 4 + 8 * bits (d.candWord a bank sc.2 0) 6 4)).foldl (· + ·) 0 + (if 1 < bits w0 4 3 then 4 else 0)

/-- The group becomes ready `ns` after the boundary: its axes take their positions (R108, R119). -/
def Dev.groupReady (d : Dev) (g ns : Nat) : Dev :=
  let d := { d with loop := { d.loop with ready := Tab.put g ns d.loop.ready } }
  d.each ((List.range 128).filter (fun a => d.groupOfAxis a (d.bankOf a) == g)) (fun a d => d.takePosition a)

/-- Axes due in the present epoch whose feedback group is `g`. -/
def Dev.dueAxes (d : Dev) (g : Nat) : List Nat :=
  let n := d.r Reg.EPK_NOW
  if d.loop.run && !d.enginesStill then
    (List.range 128).filter (fun a => d.axisDue a n && d.groupOfAxis a (d.evalBank a n) == g) else []

/-- The next pass: the group that was ready first, the lowest number among equals (R120). -/
def Dev.nextPass (d : Dev) : Option (Nat × Nat) :=
  (d.loop.ready.filter (fun e => !d.loop.passed.contains e.1)).foldl (fun (b : Option (Nat × Nat)) e => match b with
    | some x => if e.2 < x.2 then some e else some x
    | none => some e) none

/-- One axis of a pass (R121, R122): `cum` cycles of its lane spent before it. A memory error faults it before it writes;
one that would end after the deadline is abandoned. -/
def Dev.passAxis (d : Dev) (a endNs deadline : Nat) (memErr : List Nat) : Dev :=
  let n := d.r Reg.EPK_NOW
  if deadline < endNs then { d with loop := { d.loop with abandoned := true } }
  else if memErr.contains a then d.faultAxis a 3 true
  else d.evalAxis a n

/-- LOOP_PASS (R120): the pass of group `g`, ready at `ns`. `corr` and `memErr` are the corrected and the uncorrectable
memory errors that it meets (R138). -/
def Dev.runPass (d : Dev) (g ns corr : Nat) (memErr : List Nat) : Dev :=
  let due := d.dueAxes g
  let n := d.r Reg.EPK_NOW
  let d := { d with loop := { d.loop with passed := g :: d.loop.passed } }
  if due.isEmpty then d
  else
    let ok := due.filter (fun a => d.fbPresent a (d.evalBank a n))
    let bad := due.filter (fun a => !d.fbPresent a (d.evalBank a n))
    let start := max ns d.loop.endNs
    let deadline := d.te - d.ep.margin
    let costs := ok.map (fun a => d.evalCost a (d.evalBank a n))
    let cum (i : Nat) : Nat := ((List.range (i + 1)).filter (fun j => j % 16 == i % 16)).foldl (fun t j => t + costs.getD j 0) 0
    let passEnd := start + 40 + 2 * ((List.range ok.length).map cum).foldl max 0
    let was := d.loop.abandoned
    let d := d.each (List.range ok.length) (fun i d => d.passAxis (ok.getD i 0) (start + 40 + 2 * cum i) deadline memErr)
    let d := d.each bad (fun a d => d.missAxis a n)
    let d := { d with loop := { d.loop with endNs := min passEnd (max deadline start), passes := d.loop.passes + 1 } }
    let errs := (memErr.filter ok.contains).length
    let d := (d.add Reg.LOOP_ECC_CNT_CORR corr).add Reg.LOOP_ECC_CNT_UNCORR errs
    let d := d.flagIf (decide (0 < corr)) Reg.LOOP_STAT_ECC_CORR
    if d.loop.abandoned && !was then
      (((d.inc Reg.LOOP_OVR_CNT).flag Reg.LOOP_STAT_OVERRUN).overrun).overrunPub (d.r Reg.LOOP_PUB_BASE_ID)
    else d

/-- Meaning of LOOP_PASS: the next pass, if a group is ready; `corr` and `memErr` report what its reads of the loop memory
met (R138). -/
def execLoopPass (corr : Nat) (memErr : List Nat) (s : State) : Host.Outcome State Fault Refusal :=
  ok s (fun _ d =>
    match d.nextPass with
    | some (g, ns) => d.runPass g ns corr memErr
    | none => d)

/-- An ADC input that a due LOCAL axis uses was triggered in the epoch and is not complete (R119). -/
def Dev.localLate (d : Dev) : Bool :=
  (d.dueAxes 4).any (fun a =>
    let bank := d.evalBank a (d.r Reg.EPK_NOW)
    (d.candidates a bank).any (fun sc =>
      let w := d.candWord a bank sc.2 3
      let i := bits w 3 6
      w % 8 == 4 && bitOf d.team.sampled i && (d.adcNow i).isNone))

/-- LOCAL_READY (R119, R213): the LOCAL group is ready; an SSI frame that is not complete is an encoder fault. -/
def Dev.localReady (d : Dev) : Dev :=
  if (d.loop.ready.find? (fun e => e.1 == 4)).isSome then d
  else
    let ns := d.loop.readyNs
    let d := if d.ep.placed then d.reach (d.countAt (d.r Reg.EPK_ORIGIN + d.r Reg.EPK_NOW * d.te + ns)) else d
    let d := d.each (List.range 24) (fun e d =>
      if d.r (Reg.ENC_CFG_MODE e) = 2 ∧ (d.ex e).latched.isNone then d.encFault e else d)
    let mask := ((List.range 48).filter (fun i => (d.adcNow i).isSome)).foldl (fun m i => setBit m i true) 0
    let d := { d with loop := { d.loop with adcReady := mask } }
    (d.flagIf d.localLate Reg.LOOP_STAT_LOCAL_LATE).groupReady 4 ns

/-- Meaning of LOCAL_READY. -/
def execLocalReady (s : State) : Host.Outcome State Fault Refusal := ok s (fun _ d => d.localReady)

/-- The loop engine at the epoch deadline (R122, R123): passes that are ready run (their late evaluations are abandoned),
and the axes of rings that have not returned miss. -/
def Dev.loopDeadline (d : Dev) : Dev :=
  let d := d.each [0, 1, 2, 3, 4] (fun _ d => match d.nextPass with
    | some (g, ns) => d.runPass g ns 0 []
    | none => d)
  let n := d.r Reg.EPK_NOW
  d.each ([0, 1, 2, 3, 4].filter (fun g => !d.loop.passed.contains g)) (fun g d =>
    let d1 := { d with loop := { d.loop with passed := g :: d.loop.passed } }
    d1.each (d.dueAxes g) (fun a d => d.missAxis a n))

/-! ### Epoch boundaries (R124, R125, R128, R135, R137, R139) -/

/-- A source writes one signal outside a range of its own: its publication is produced (R30). -/
def Dev.produceSignal (d : Dev) (id v : Nat) : Dev :=
  let d := d.stageSignal id v
  { d with ep := { d.ep with pubs := d.ep.pubs.map (fun p =>
      if p.base ≤ id ∧ id < p.base + p.count then { p with produced := true } else p) } }

/-- Deliver the output of an axis to its destination (R124, R125). -/
def Dev.deliverOut (d : Dev) (a : Nat) : Dev :=
  let (k, tgt) := d.outOf a (d.bankOf a)
  let v := (d.lp a).out
  match k with
  | 1 =>
    let p := tgt % 4
    let x := d.rp p
    d.setRp p { x with outs := Tab.put (64 * (tgt / 4 % 128) + tgt / 512 % 64) (un 16 v) x.outs }
  | 2 =>
    let x := d.tx (tgt % 32)
    d.setTx (tgt % 32) { x with dem := Tab.put (tgt / 32 % 4) v x.dem }
  | 3 => if d.loop.abandoned then d else d.produceSignal tgt (un 32 v)
  | _ => d

/-- The position of an axis, 64 bits: of this epoch, else the last one. -/
def Dev.axisPos (d : Dev) (a : Nat) : Nat := un 64 ((d.axisNow a).getD (d.lp a).pos)

/-- AXIS_STAT.EVALUATED of the axes that the engine keeps: evaluated in the epoch that ends. -/
def Dev.showEvaluated (d : Dev) : Dev :=
  d.each (d.loop.axes.map (·.1)) (fun a d => d.wb (Reg.AXIS_STAT_EVALUATED a) (d.lp a).evalNow)

/-- The loop engine at the commit point, before the image is built (R124, R139): outputs to their destinations, its
publication, and the figures of the epoch. -/
def Dev.loopCommit (d : Dev) : Dev :=
  let d := d.showEvaluated
  let on := (List.range 128).filter d.axisOn
  let d := if d.loop.run then d.each on (fun a d => d.deliverOut a) else d
  let vals := d.loop.pubAxes.flatMap (fun a =>
    [un 32 (d.lp a).out, d.r (Reg.AXIS_FE a), d.regWord (0x20_1000 + 0x10 * a), un 32 (d.lp a).selOut])
  let d := if d.loop.abandoned || d.loop.pubAxes.isEmpty then d else d.publish (d.r Reg.LOOP_PUB_BASE_ID) vals
  let d := (d.w Reg.LOOP_BUSY_PASSES (min 7 d.loop.passes)).w Reg.LOOP_BUSY_END_NS (satU 16 d.loop.endNs)
  d.wmax Reg.LOOP_BUSY_MAX_END_MAX (satU 16 d.loop.endNs)

/-- LOOP_ENABLE takes effect on one axis (R137). -/
def Dev.applyAxisEnable (d : Dev) (a : Nat) : Dev :=
  let x := d.lp a
  match x.enNext with
  | none => d
  | some 0 => ((d.setLp a { x with enNext := none }).w (Reg.AXIS_STAT_ENABLED a) 0).injStopAxis a
  | some m =>
    let d := d.setLp a { x with enNext := none, first := true, lastVel := [], prevWinner := none, out := if m = 1 then 0 else x.out }
    let d := d.w (Reg.AXIS_STAT_ENABLED a) 1
    if m = 1 then d.zeroStates a else d

/-- The loop engine at a boundary, in the epoch that starts: RUN, READY_NS, enables, resumptions and the swaps of disabled
axes take effect. -/
def Dev.loopBoundary (d : Dev) : Dev :=
  let run := d.b Reg.LOOP_CTRL_RUN
  let keys := (d.loop.axes.map (·.1))
  let d := d.each keys (fun a d =>
    let x := d.lp a
    let fb := if d.r (Reg.AXIS_STAT_FAULT a) = 2 then
        (if (d.loop.ready.find? (fun e => e.1 == d.groupOfAxis a (d.bankOf a))).isSome then d.fbPresent a (d.bankOf a)
          else false) else false
    let d := d.wb (Reg.AXIS_STAT_EVALUATED a) x.evalNow
    (d.setLp a { x with posNow := false, evalNow := false, resumeNext := false, fbBefore := fb }).applyAxisEnable a)
  let d := d.each [0, 1, 2, 3] (fun i d => d.setInjector i { d.injector i with now := false })
  let d := { d with loop := { d.loop with
    run := run, readyNs := d.r Reg.LOOP_LOCAL_READY_NS, ready := [], passed := [], endNs := 0, passes := 0,
    abandoned := false, adcReady := 0 } }
  let d := d.wb Reg.LOOP_STAT_RUNNING run
  let d : Dev := if run then d else d.each [0, 1, 2, 3] (fun i d => d.injStop i true)
  if d.loop.swapAxes.isEmpty || decide (d.r Reg.EPK_NOW < d.r Reg.LOOP_SWAP_EPOCH) then d
  else d.each (d.loop.swapAxes.filter (fun a => !d.axisOn a)) (fun a d => d.swapAxis a)

/-! ### Validity of a bank (R133) -/

/-- Words in which a reserved bit is set: header, candidates and sections of a bank. -/
def Dev.bankRsv (d : Dev) (a bank : Nat) : Bool :=
  let h := d.headWord a bank
  let k := h 2 % 4
  let cs := d.candidates a bank
  h 0 / 2 ^ 18 != 0 || h 1 / 2 ^ 22 != 0 || (if k = 3 then h 2 / 2 ^ 20 else h 2 / 2 ^ 17) != 0 || h 4 / 2 ^ 23 != 0 ||
    h 5 / 2 ^ 26 != 0 || h 6 / 2 ^ 26 != 0 || (List.range 9).any (fun i => h (7 + i) != 0) ||
    cs.any (fun sc =>
      let c := d.candWord a bank sc.2
      c 0 / 2 ^ 15 != 0 || c 1 / 2 ^ 20 != 0 || c 2 / 2 ^ 16 != 0 || c 3 / 2 ^ 28 != 0 || c 4 / 2 ^ 20 != 0 ||
        c 6 / 2 ^ 20 != 0 || c 7 != 0 ||
        (d.slotsOf a bank sc.2).any (fun j => d.secWord a bank j 2 / 2 ^ 19 != 0 || d.secWord a bank j 3 != 0))

/-- A ring number and a node number that exist. -/
def ringNodeOk (g : Grade) (ring node : Nat) : Bool := decide (ring < ringsOf g) && decide (1 ≤ node) && decide (node ≤ 125)

/-- The axis header is invalid by itself. -/
def Dev.headBad (d : Dev) (g : Grade) (a bank : Nat) : Bool :=
  let h := d.headWord a bank
  let n := h 0 % 4
  let grp := bits (h 0) 13 3
  let pk := h 1 % 4
  let ps := bits (h 1) 2 15
  let (k, tgt) := d.outOf a bank
  let nc := bits (h 0) 4 3
  n == 0 || decide (n ≤ bits (h 0) 2 2) || nc == 0 || decide (4 < nc) || decide (4 < grp) ||
    decide (2 ^ bits (h 0) 8 2 ≤ bits (h 0) 10 3) || pk == 3 || decide (16 < bits (h 1) 17 5) ||
    (pk == 1 && (ps % 4 != grp || !ringNodeOk g (ps % 4) (ps / 4 % 128))) ||
    (pk == 2 && decide (24 ≤ ps % 32)) ||
    (k == 1 && (tgt % 4 != grp || !ringNodeOk g (tgt % 4) (tgt / 4 % 128))) ||
    (k == 2 && (decide (teamsOf g ≤ tgt % 32) || decide (128 ≤ tgt))) ||
    bits (h 4) 16 2 == 3 || bits (h 4) 18 5 == 0 || decide (16 < bits (h 4) 18 5)

/-- A candidate record is invalid by itself. -/
def Dev.candBad (d : Dev) (g : Grade) (a bank stage c : Nat) : Bool :=
  let w := d.candWord a bank c
  let first := bits (w 0) 0 6
  let nsec := bits (w 0) 6 4
  let aw := bits (w 0) 13 2
  let rk := w 1 % 4
  let fk := w 3 % 8
  let sel := bits (w 3) 3 18
  decide (48 ≤ first) || decide (8 < nsec) || decide (48 < first + nsec) || aw == 3 ||
    (aw != 0 && decide (nsec ≤ bits (w 0) 10 3)) || rk == 3 || decide (6 ≤ fk) ||
    decide (q15 (w 5 / 2 ^ 16) < q15 (w 5)) || (fk == 1 && (stage != 0 || rk != 0)) ||
    (stage == 0 && rk == 0 && fk != 1) ||
    (fk == 3 && (sel % 4 != d.groupOfAxis a bank || !ringNodeOk g (sel % 4) (sel / 4 % 128))) ||
    (fk == 4 && decide (48 ≤ sel % 64))

/-- Two candidates share a section slot. -/
def Dev.slotsClash (d : Dev) (a bank : Nat) : Bool :=
  let all := (d.candidates a bank).flatMap (fun sc => d.slotsOf a bank sc.2)
  decide (all.eraseDups.length < all.length)

/-- The destination belongs to another enabled (or named) axis, or to another block (R133, R316). -/
def Dev.destTaken (d : Dev) (a bank : Nat) (named : List Nat) : Bool :=
  let dest := d.outOf a bank
  let others := (List.range 128).any (fun b => b != a && (d.axisOn b || named.contains b) && d.outOf b (d.bankOf b) == dest)
  match dest.1 with
  | 0 => false
  | 1 =>
    let node := dest.2 / 4 % 128
    let word := dest.2 / 512 % 64
    others || (d.ringSlots (dest.2 % 4)).any (fun s => s.node == node && s.kind != 0 && decide (s.firstOut ≤ word) &&
      decide (word < s.firstOut + s.outWords))
  | 2 =>
    let t := dest.2 % 32
    let m := d.r (Reg.TEAM_CFG_MODE t)
    others || !(m == 1 || m == 2) || bitOf (d.r (Reg.TEAM_DEM_SRC t)) (dest.2 / 32)
  | _ =>
    others || decide (d.r Reg.FIO_PUB ≤ dest.2 ∧ dest.2 < d.r Reg.FIO_PUB + 5 ∧ (d.pubAt (d.r Reg.FIO_PUB)).isSome) ||
      (match d.cal.pub with
        | some (b, n) => decide (b ≤ dest.2) && decide (dest.2 < b + n)
        | none => false)

/-- The bank of an axis is invalid under R133. -/
def Dev.bankBad (d : Dev) (g : Grade) (a bank : Nat) (named : List Nat) : Bool :=
  d.headBad g a bank || d.bankRsv a bank || d.slotsClash a bank ||
    (d.candidates a bank).any (fun sc => d.candBad g a bank sc.1 sc.2) || d.destTaken a bank named

/-! ### Window writes and commands (R134 … R141) -/

/-- A write of loop memory at window offset `off` (R134). -/
def Dev.loopMemWrite (d : Dev) (off v : Nat) : Dev :=
  let a := off / 0x1000
  let o := off % 0x1000
  if d.axisOn a && decide (o < 0x800) && o / 0x400 == d.bankOf a then
    (d.inc Reg.LOOP_WR_IGN).flag Reg.LOOP_STAT_ACTIVE_WR
  else if d.axisOn a && decide (0x800 ≤ o ∧ o < 0x980) then (d.inc Reg.LOOP_WR_IGN).flag Reg.LOOP_STAT_STATE_WR
  else if 0x980 ≤ o then d
  else d.putMw (0x28_0000 + off / 4 * 4) v

/-- Meaning of COEFF_WINDOW_WRITE: a host write of the word at window offset 4 × `w`. -/
def execCoeffWindowWrite (path : Path) (w : Fin 131072) (v : Word) (s : State) : Host.Outcome State Fault Refusal :=
  ok s (fun g d => d.access path true (decide (w.val / 1024 < axesOf g)) (fun d => d.loopMemWrite (4 * w.val) v.toNat))

/-- Meaning of LOOP_INFO. -/
def execLoopInfo (p : Packet) (s : State) : Host.Outcome State Fault Refusal :=
  ok s (fun g d => d.runPacket g { opcode := 0x200, need := needN 0 } p (fun d _ =>
    (d, .ok [d.regWord 0x20_0004, d.regWord 0x20_000C, d.regWord 0x20_0010, d.r Reg.LOOP_OVR_CNT,
      d.regWord 0x20_001C])))

/-- The enabled axes with the pending changes and `more` added. -/
def Dev.willBeOn (d : Dev) (more : List Nat) : List Nat :=
  (List.range 128).filter (fun a => more.contains a || (match (d.lp a).enNext with
    | some m => m != 0
    | none => d.axisOn a))

/-- The evaluation limit of R107 would be passed in some epoch. -/
def Dev.evalsOver (d : Dev) (on : List Nat) : Bool :=
  let lim := if d.r Reg.EPK_CFG_K = 1 then 64 else 128
  (List.range 8).any (fun r => decide (lim < (on.filter (fun a =>
    r % d.divOf a (d.bankOf a) == bits (d.headWord a (d.bankOf a) 0) 10 3)).length))

/-- LOOP_ENABLE (R137, R141). -/
def Dev.loopEnable (d : Dev) (g : Grade) (axes : List Nat) (mode : Nat) : Dev × Res :=
  if 2 < mode then (d, .badParam 6)
  else match axes.find? (fun a => decide (axesOf g ≤ a) || (mode != 0 && d.bankBad g a (d.bankOf a) axes)) with
    | some a => (d, ⟨4, 0, [a]⟩)
    | none =>
      if mode ≠ 0 ∧ d.evalsOver (d.willBeOn axes) then (d, .busy)
      else
        let d := d.each axes (fun a d => d.setLp a { d.lp a with enNext := some mode })
        (d, .ok [loW d.nextEpoch, hiW d.nextEpoch, 0xFFFF_FFFF])

/-- Meaning of LOOP_ENABLE. -/
def execLoopEnable (p : Packet) (s : State) : Host.Outcome State Fault Refusal :=
  ok s (fun g d => d.runPacket g { opcode := 0x201, priv := true, need := needN 5 } p (fun d ps =>
    d.loopEnable g (axisList ps) (ps.getD 4 0)))

/-- LOOP_SWAP (R135, R141). -/
def Dev.loopSwap (d : Dev) (g : Grade) (axes : List Nat) (e mode : Nat) : Dev × Res :=
  if axes.isEmpty then (d, .badParam 0)
  else if 1 < mode then (d, .badParam 8)
  else if e ≤ d.r Reg.EPK_NOW then (d, .past)
  else if d.b Reg.LOOP_STAT_SWAP_PENDING then (d, .busy)
  else match axes.find? (fun a => decide (axesOf g ≤ a) || d.bankBad g a (1 - d.bankOf a) []) with
    | some a => (d, ⟨4, 0, [a]⟩)
    | none =>
      let d := { d with loop := { d.loop with swapAxes := axes, swapMode := mode } }
      ((d.w Reg.LOOP_SWAP_EPOCH e).flag Reg.LOOP_STAT_SWAP_PENDING, .ok [0xFFFF_FFFF])

/-- Meaning of LOOP_SWAP. -/
def execLoopSwap (p : Packet) (s : State) : Host.Outcome State Fault Refusal :=
  ok s (fun g d => d.runPacket g { opcode := 0x202, priv := true, need := needN 7 } p (fun d ps =>
    d.loopSwap g (axisList ps) (pair64 (ps.getD 4 0) (ps.getD 5 0)) (ps.getD 6 0)))

/-- Whether LOOP_FAULT_CLEAR is refused for an axis (R128). -/
def Dev.clearRefused (d : Dev) (a : Nat) : Bool :=
  d.r (Reg.AXIS_STAT_FAULT a) == 2 &&
    !(if (d.loop.ready.find? (fun e => e.1 == d.groupOfAxis a (d.bankOf a))).isSome then d.fbPresent a (d.bankOf a)
      else (d.lp a).fbBefore)

/-- Clear the fault of one axis (R128): it resumes at the next boundary with zeroed states. -/
def Dev.clearAxis (d : Dev) (a : Nat) : Dev :=
  if d.r (Reg.AXIS_STAT_FAULT a) = 0 then d
  else
    let x := d.lp a
    let d := (d.w (Reg.AXIS_STAT_FAULT a) 0).w (Reg.AXIS_STAT_FE_CNT a) 0
    let d := (d.w (Reg.AXIS_CNT_MISS_RUN a) 0).zeroStates a
    let d := d.setLp a { x with off := false, resumeNext := true, first := true, prevWinner := none }
    let d := if x.off then d.setPx a { d.px a with grab := true } else d
    d.wb Reg.LOOP_STAT_FAULT ((List.range 128).any (fun b => d.r (Reg.AXIS_STAT_FAULT b) != 0))

/-- Meaning of LOOP_FAULT_CLEAR. -/
def execLoopFaultClear (p : Packet) (s : State) : Host.Outcome State Fault Refusal :=
  ok s (fun g d => d.runPacket g { opcode := 0x203, priv := true, need := needN 4 } p (fun d ps =>
    let axes := axisList ps
    let refused := axes.filter d.clearRefused
    (d.each (axes.filter (fun a => !refused.contains a)) (fun a d => d.clearAxis a), .ok (axisMask refused))))

/-- Meaning of LOOP_AXIS_READ: values of one epoch (R141). -/
def execLoopAxisRead (p : Packet) (s : State) : Host.Outcome State Fault Refusal :=
  ok s (fun g d => d.runPacket g { opcode := 0x204, need := needN 1 } p (fun d ps =>
    let a := ps.getD 0 0
    if axesOf g ≤ a then (d, .badParam 2)
    else
      let b := 0x20_1000 + 0x10 * a
      let f := d.ofFront
      let pos := if d.ep.front.valid then Tab.look 0 a d.ep.frontPos else d.axisPos a
      let sp := f.r (Reg.AX_SP a)
      (d, .ok ([f.regWord b, f.regWord (b + 4), f.regWord (b + 8), f.regWord (b + 12), loW pos, hiW pos, loW sp, hiW sp] ++
        d.frontWords))))

end Sys2Proof.Machine
end

