-- ==== Sys2Proof/Machine/Plan.lean ====
section
/-!
DEFINITION. Machine/Plan.lean: the binary64 arithmetic of "Planning a move" (R167 … R170), in the order in which the
manual writes it.
-/
namespace Sys2Proof.Machine

/-! ### binary64 operators -/

def fadd (a b : Nat) : Nat := (f64.add a b).1
def fsub (a b : Nat) : Nat := (f64.sub a b).1
def fmul (a b : Nat) : Nat := (f64.mul a b).1
def fdiv (a b : Nat) : Nat := (f64.div a b).1
def fsqrt (a : Nat) : Nat := (f64.sqrt a).1
def flt (a b : Nat) : Bool := f64.lt a b
def fle (a b : Nat) : Bool := f64.le a b

/-- An integer in binary64. -/
def fint (z : Int) : Nat := (f64.ofInt z).1

/-- Units of 2^-24 counts as a binary64 number of counts. -/
def fq24 (z : Int) : Nat := f64.ofScaled z (-24)

/-- floor(x × 2^24) of a finite binary64 number; 0 otherwise. -/
def q24 (x : Nat) : Int := (f64.floorScaled x 24).getD 0

/-- max(0, x). -/
def fmax0 (x : Nat) : Nat := if flt 0 x then x else 0

/-- The smaller of two numbers. -/
def fmin (a b : Nat) : Nat := if flt b a then b else a

/-- The sign of a number as an integer. -/
def fsign (x : Nat) : Int := if flt 0 x then 1 else if flt x 0 then -1 else 0

/-! ### Segments (R168) -/

/-- Distance, velocity and acceleration after time `s` in a segment of jerk `j` that starts with velocity `v` and
acceleration `a`: distance from the segment's start distance `dl`. -/
def segAt (dl v a j s : Nat) : Nat × Nat × Nat :=
  (fadd dl (fmul (fadd (fmul (fadd (fmul (fdiv j (fint 6)) s) (fdiv a (fint 2))) s) v) s),
    fadd v (fmul (fadd (fmul (fdiv j (fint 2)) s) a) s),
    fadd a (fmul j s))

/-- State at the end of a list of segments. -/
def segsEnd : List Seg → Nat × Nat × Nat → Nat × Nat × Nat
  | [], s => s
  | g :: r, (dl, v, a) => segsEnd r (segAt dl v a g.j g.t)

/-- dist(…): the distance that the segments reach from velocity and acceleration (R169). -/
def segDist (segs : List Seg) (v a : Nat) : Nat := (segsEnd segs (0, v, a)).1

/-- The end of a list of segments. -/
def segsTime (segs : List Seg) : Nat := segs.foldl (fun t g => fadd t g.t) 0

/-- State at parameter `tau`, walking the segments from `start`; past the end, an endless cruise or none. -/
def segsAt (cruise : Bool) : List Seg → Nat → Nat × Nat × Nat → Nat → Option (Nat × Nat × Nat)
  | [], start, (dl, v, a), tau => if cruise then some (segAt dl v a 0 (fsub tau start)) else none
  | g :: r, start, (dl, v, a), tau =>
    let next := fadd start g.t
    if flt tau next then some (segAt dl v a g.j (fsub tau start))
    else segsAt cruise r next (segAt dl v a g.j g.t) tau

/-- The state of a plan at `tau`; none past its end. -/
def Plan.at (p : Plan) (tau : Nat) : Option (Nat × Nat × Nat) := segsAt p.cruise p.segs 0 (0, p.v0, p.a0) tau

/-- The set-point where the segments of a plan end. -/
def Plan.stopPoint (p : Plan) : Int := p.org + q24 (segsEnd p.segs (0, p.v0, p.a0)).1

/-- The set-point on which a plan ends (R171, R175). -/
def Plan.final (p : Plan) : Int :=
  match p.target with
  | some t => if p.rev then p.stopPoint else t
  | none => p.stopPoint

/-! ### Velocity changes and moves (R169, R170) -/

/-- vchange(v0, a0, v1) with the limit and jerk: three segments. -/
def vchange (v0 a0 v1 lim j : Nat) : List Seg :=
  let vz := fadd v0 (fdiv (fmul a0 (f64.abs a0)) (fmul (fint 2) j))
  let s : Int := if fle vz v1 then 1 else -1
  let js := fmul j (fint s)
  let arg := fadd (fmul js (fsub v1 v0)) (fdiv (fmul a0 a0) (fint 2))
  let ap := fmul (fint s) (fmin lim (fsqrt (fmax0 arg)))
  let t1 := fdiv (f64.abs (fsub ap a0)) j
  let t3 := fdiv (f64.abs ap) j
  let dv := fadd (fmul (fdiv (fadd a0 ap) (fint 2)) t1) (fmul (fdiv ap (fint 2)) t3)
  let t2 := if fsign ap = 0 then 0 else fmax0 (fdiv (fsub (fsub v1 v0) dv) ap)
  [⟨t1, fmul (fint (fsign (fsub ap a0))) j⟩, ⟨t2, 0⟩, ⟨t3, fmul (fint (-s)) j⟩]

/-- The limits of a plan in its unit of time: vm, A, D, J. -/
structure Lims where
  vm : Nat
  a : Nat
  d : Nat
  j : Nat
  /-- The deceleration limit of the first velocity change: SOFT_D where a cap forces the speed down (R178), else D. -/
  d1 : Nat
deriving DecidableEq, Repr

/-- vchange with A when the speed rises and D otherwise. -/
def Lims.change (l : Lims) (v0 a0 v1 : Nat) : List Seg :=
  vchange v0 a0 v1 (if flt (f64.abs v0) (f64.abs v1) then l.a else l.d) l.j

/-- The first velocity change of a plan. -/
def Lims.first (l : Lims) (v0 a0 v1 : Nat) : List Seg :=
  vchange v0 a0 v1 (if flt (f64.abs v0) (f64.abs v1) then l.a else l.d1) l.j

/-- f(w) of R170. -/
def Lims.reach (l : Lims) (v a w : Nat) : Nat := fadd (segDist (l.first v a w) v a) (segDist (l.change w 0 0) w 0)

/-- The bisection of R170: `k` steps left on [lo, hi]. -/
def Lims.bisect (l : Lims) (v a r : Nat) : Nat → Nat → Nat → Nat
  | 0, lo, _ => lo
  | k + 1, lo, hi =>
    let m := fdiv (fadd lo hi) (fint 2)
    if fle (l.reach v a m) r then l.bisect v a r k m hi else l.bisect v a r k lo m

/-- The direction of travel of a plan to `x` (R170). -/
def planDir (x v0 : Nat) : Int := if fsign x = 0 then (if fsign v0 = 0 then 1 else fsign v0) else fsign x

/-- Turn the jerks of normalised segments back by the direction. -/
def turnSegs (dir : Int) (segs : List Seg) : List Seg := segs.map (fun g => { g with j := fmul (fint dir) g.j })

/-- The segments of a plan to target `x`, and whether it is the stop before a reversal (R170). -/
def Lims.build (l : Lims) (x v0 a0 : Nat) : List Seg × Bool :=
  let dir := planDir x v0
  let v := fmul (fint dir) v0
  let a := fmul (fint dir) a0
  let r := fmul (fint dir) x
  let stop := l.change v a 0
  if flt v 0 || flt r (segDist stop v a) then (turnSegs dir stop, true)
  else
    let w := if fle (l.reach v a l.vm) r then l.vm else l.bisect v a r 60 0 l.vm
    let cruise := if fsign w = 0 then 0 else fdiv (fsub r (l.reach v a w)) w
    (turnSegs dir (l.first v a w ++ [⟨cruise, 0⟩] ++ l.change w 0 0), false)

/-- A velocity-kind plan: vchange to ±V, then an endless cruise (R170). -/
def Lims.cruiseTo (l : Lims) (v0 a0 : Nat) (neg : Bool) : List Seg := l.first v0 a0 (if neg then f64.neg l.vm else l.vm)

end Sys2Proof.Machine
end

