-- ==== Sys2Proof/Machine/Profile.lean ====
section
/-!
DEFINITION. Machine/Profile.lean: the profile generator of "Profile Generator, Gearing and Virtual Limits" (R160 … R191,
R613) and the interpolation of Sage knots (R295 … R297).
-/
namespace Sys2Proof.Machine

/-! ### Records -/

/-- Host address of profile slot `s` of axis `a`, of gear entry `g`, and of the parameter record. -/
def slotAddr (a s : Nat) : Nat := 0x34_0000 + 0x400 * a + 0x40 * s
def gearAddr (a g : Nat) : Nat := 0x36_0000 + 0x200 * a + 0x20 * g
def paramAddr (a : Nat) : Nat := 0x37_0000 + 0x40 * a

/-- The 64-bit value at words `w` and `w + 1` of the parameter record. -/
def Dev.param64 (d : Dev) (a w : Nat) : Nat := d.mw2 (paramAddr a + 4 * w)

def Dev.limLo (d : Dev) (a : Nat) : Int := sx 64 (d.param64 a 1)
def Dev.limHi (d : Dev) (a : Nat) : Int := sx 64 (d.param64 a 3)
def Dev.hardD (d : Dev) (a : Nat) : Nat := d.param64 a 5
def Dev.hardJ (d : Dev) (a : Nat) : Nat := d.param64 a 7
def Dev.softD (d : Dev) (a : Nat) : Nat := d.param64 a 9
def Dev.limDecel (d : Dev) (a : Nat) : Nat := d.param64 a 11
def Dev.planTol (d : Dev) (a : Nat) : Nat := d.param64 a 13

/-- VLIM_EN and LOST_REACT of the parameter record. -/
def Dev.vlimEn (d : Dev) (a : Nat) : Bool := bitOf (d.paramWord a 0) 19
def Dev.lostHard (d : Dev) (a : Nat) : Bool := bitOf (d.paramWord a 0) 18

/-- The mode of an axis (R160): 0 HOLD, 1 TIME, 2 COORD, 3 GEAR, 4 PLAN. -/
def Dev.modeOf (d : Dev) (a : Nat) : Nat := d.r (Reg.AX_PRF_STAT_MODE a)
def Dev.setMode (d : Dev) (a m : Nat) : Dev := d.w (Reg.AX_PRF_STAT_MODE a) m

/-- A stop kind that needs PRF_RELEASE (R176). -/
def needsRelease (k : Nat) : Bool := k == 2 || k == 3 || k == 4 || k == 6 || k == 7

/-- Commands that start motion are denied: a stop to be released is shown (R176). -/
def Dev.motionDenied (d : Dev) (a : Nat) : Bool := needsRelease (d.r (Reg.AX_PRF_STAT_STOP_KIND a))

/-- At rest as the last row of R172 has it. -/
def Dev.atRest (d : Dev) (a : Nat) : Bool :=
  d.modeOf a == 0 || (d.modeOf a == 2 && d.b (Reg.AX_PRF_STAT_DONE a) && decide (1 ≤ (d.px a).still))

/-- The gear law stands at ratio 0 and the set-point has been unchanged for an epoch (R184). -/
def Dev.gearRest (d : Dev) (a : Nat) : Bool :=
  decide (1 ≤ (d.px a).still) && (match (d.px a).gear with
    | some l => l.gnew == 0
    | none => true)

/-! ### Units (R167) -/

/-- T_E in seconds, binary64: k / 64 000 correctly rounded. -/
def Dev.teF (d : Dev) : Nat := (f64.roundRat false (d.r Reg.EPK_CFG_K) 64000 0).1
def Dev.te2F (d : Dev) : Nat := fmul d.teF d.teF
def Dev.te3F (d : Dev) : Nat := fmul d.te2F d.teF

/-- A cap in 2^-16 counts per epoch as counts per epoch. -/
def capF (c : Nat) : Nat := f64.ofScaled (c : Int) (-16)

/-- The axis moves along a coordinate: a COORD plan that is not a stop. -/
def Dev.alongCoord (d : Dev) (a : Nat) : Bool := d.modeOf a == 2

/-- The step of the predicted coordinate in this epoch, Q32.32: Ŝ(N+1) − Ŝ(N), and Ŝ(N) and Ŝ(N+1) (R164). -/
def Dev.predicted (d : Dev) (n : Nat) : Int × Int × Int :=
  let c := d.coord n
  let m := d.modulus n
  let s0 := c.hist.getD 0 c.cur
  let s1 := c.hist.getD 1 s0
  let s2 := c.hist.getD 2 s1
  let now := reduceC m (s1 + diffC m s1 s2)
  let next := reduceC m (s0 + diffC m s0 s1)
  (diffC m next now, now, next)

/-- The cap in the plan's unit of time, none when there is none: in COORD mode counts per epoch over the coordinate step. -/
def Dev.capIn (d : Dev) (a : Nat) : Option Nat :=
  let x := d.px a
  if x.cap = 0xFFFF_FFFF then none
  else if d.alongCoord a || x.coordMode && d.modeOf a == 2 then
    let st := (d.predicted x.coord).1
    if st = 0 then none else some (fdiv (capF x.cap) (f64.ofScaled (st.natAbs : Int) (-32)))
  else some (capF x.cap)

/-- The limits in force in the plan's unit of time (R167, R173, R178). -/
def Dev.limsOf (d : Dev) (a : Nat) : Lims :=
  let x := d.px a
  let dd := x.dEff.getD x.ld
  let l : Lims := if x.coordMode then ⟨x.lv, x.la, dd, x.lj, dd⟩
    else ⟨fmul x.lv d.teF, fmul x.la d.te2F, fmul dd d.te2F, fmul x.lj d.te3F, fmul dd d.te2F⟩
  match d.capIn a with
  | some c => if flt c l.vm then { l with vm := c } else l
  | none => l

/-- The limits when a cap forces the speed down: SOFT_D in place of D (R178). -/
def Dev.limsCapped (d : Dev) (a : Nat) : Lims :=
  let l := d.limsOf a
  { l with d1 := if (d.px a).coordMode then d.softD a else fmul (d.softD a) d.te2F }

/-! ### Replans (R170, R172, R173) -/

/-- Count one replan. -/
def Dev.countReplan (d : Dev) (a : Nat) : Dev :=
  let d := d.incWrap (Reg.AX_PRF_CNT_REPLAN a)
  { d with prf := { d.prf with replans := d.prf.replans + 1 } }

/-- Velocity and acceleration of sp(N) in the plan's own unit of time. -/
def Dev.startState (d : Dev) (a : Nat) : Nat × Nat :=
  let x := d.px a
  if x.coordMode && d.modeOf a == 2 then
    match x.plan with
    | some p =>
      match p.at (fmax0 (f64.ofScaled (x.sun - p.start) (-32))) with
      | some (_, v, acc) => (v, acc)
      | none => (0, 0)
    | none => (0, 0)
  else (x.vf, x.af)

/-- Where the plan's time starts: the epoch, or the predicted coordinate of sp(N). -/
def Dev.planStart (d : Dev) (a n : Nat) : Int := if (d.px a).coordMode then (d.px a).sun else n

/-- Build a plan of axis `a` in epoch `n` to its target with the limits `l` (R170). -/
def Dev.buildPlan (d : Dev) (a n : Nat) (target : Int) (l : Lims) (v0 a0 : Nat) : Dev :=
  let x := d.px a
  let (segs, rev) := l.build (fq24 (target - x.sp)) v0 a0
  let p : Plan := { org := x.sp, v0 := v0, a0 := a0, segs := segs, target := some target, rev := rev, start := d.planStart a n }
  let d := d.setPx a { x with plan := some p, vm := l.vm }
  let d := (d.ws (Reg.AX_TARGET a) target).wb (Reg.AX_PRF_STAT_REVERSAL_PENDING a) rev
  d.countReplan a

/-- Replan the present slot from the state of sp(N) (R172). -/
def Dev.replanAxis (d : Dev) (a n : Nat) (l : Lims) : Dev :=
  let x := d.px a
  let (v0, a0) := d.startState a
  if x.velKind then
    let p : Plan := {
      org := x.sp, v0 := v0, a0 := a0, segs := l.cruiseTo v0 a0 x.vneg, cruise := true, start := d.planStart a n }
    (d.setPx a { x with plan := some p, vm := l.vm }).countReplan a
  else d.buildPlan a n (sx 64 (d.r (Reg.AX_TARGET a))) l v0 a0

/-- The distance left in the direction of travel and the normalised start state. -/
def Dev.stopRoom (d : Dev) (a : Nat) : Nat × Nat × Nat × Int :=
  let x := d.px a
  let (v0, a0) := d.startState a
  let r0 := fq24 (sx 64 (d.r (Reg.AX_TARGET a)) - x.sp)
  let dir := planDir r0 v0
  (fmul (fint dir) r0, fmul (fint dir) v0, fmul (fint dir) a0, dir)

/-- Bisection of R173 on [lo, hi] in written units: the smallest limit whose stop fits in r. -/
def Dev.raiseSearch (d : Dev) (a : Nat) (r v acc j : Nat) : Nat → Nat → Nat → Nat
  | 0, _, hi => hi
  | k + 1, lo, hi =>
    let m := fdiv (fadd lo hi) (fint 2)
    let lim := if (d.px a).coordMode then m else fmul m d.te2F
    if fle (segDist (vchange v acc 0 lim j) v acc) r then d.raiseSearch a r v acc j k lo m
    else d.raiseSearch a r v acc j k m hi

/-- Limits have changed (R172, R173): replan, with the raise rule where the stop no longer fits. -/
def Dev.limitsChanged (d : Dev) (a n : Nat) : Dev :=
  let d := d.setPx a { d.px a with dEff := none }
  let x := d.px a
  let l := d.limsOf a
  if x.velKind || !(d.modeOf a == 1 || d.modeOf a == 2) then d.replanAxis a n l
  else
    let (r, v, acc, dir) := d.stopRoom a
    if flt v 0 || fle (segDist (l.change v acc 0) v acc) r || flt r 0 then d.replanAxis a n l
    else
      let hard := if x.coordMode then d.hardD a else fmul (d.hardD a) d.te2F
      let d := d.flag (Reg.AX_PRF_STAT_DECEL_RAISED a)
      if fle (segDist (vchange v acc 0 hard l.j) v acc) r then
        let m := d.raiseSearch a r v acc l.j 60 x.ld (d.hardD a)
        let d := (d.setPx a { x with dEff := some m }).w (Reg.AX_DECEL_EFF a) m
        d.replanAxis a n (d.limsOf a)
      else
        let (v0, a0) := d.startState a
        let p : Plan := {
          org := x.sp, v0 := v0, a0 := a0, segs := turnSegs dir (vchange v acc 0 hard l.j), ovr := true,
          start := d.planStart a n }
        ((d.setPx a { x with plan := some p, dEff := some (d.hardD a) }).w (Reg.AX_DECEL_EFF a) (d.hardD a)).countReplan a

/-! ### Stops (R176, R613) -/

/-- The deceleration and jerk of a stop kind, as written (R176). -/
def Dev.stopLimits (d : Dev) (a k : Nat) : Nat × Nat :=
  let x := d.px a
  let planned := (d.modeOf a == 1 || d.modeOf a == 2) && (match x.plan with
    | some p => p.kind == 0
    | none => false)
  let pj := if planned then x.lj else d.hardJ a
  match k with
  | 1 => if planned then (x.dEff.getD x.ld, x.lj) else (d.softD a, d.hardJ a)
  | 2 => if d.lostHard a then (d.hardD a, d.hardJ a) else (d.softD a, pj)
  | 3 => (d.limDecel a, d.hardJ a)
  | 4 => (d.softD a, pj)
  | 5 => (d.softD a, pj)
  | _ => (d.hardD a, d.hardJ a)

/-- The axis enters HOLD at its set-point. -/
def Dev.enterHold (d : Dev) (a : Nat) : Dev :=
  (d.setMode a 0).setPx a { d.px a with plan := none, gear := none, implicit := none, coordMode := false }

/-- STOP_APPLY (R176, R613): kind `k` takes over from the state of sp(N), unless a stop of the same or a higher kind is
shown. -/
def Dev.applyStop (d : Dev) (a n k : Nat) : Dev :=
  if k ≤ d.r (Reg.AX_PRF_STAT_STOP_KIND a) then d
  else
    let x := d.px a
    let (dec, jrk) := d.stopLimits a k
    let d := (d.w (Reg.AX_PRF_STAT_STOP_KIND a) k).w (Reg.AX_PRF_STAT_DONE a) 0
    let d := d.w (Reg.AX_PRF_STAT_REVERSAL_PENDING a) 0
    let wait := k == 5
    if !f64.isPos dec || !f64.isPos jrk then
      let d := d.enterHold a
      d.setPx a { d.px a with vf := 0, af := 0, planWait := wait }
    else
      let segs := vchange x.vf x.af 0 (fmul dec d.te2F) (fmul jrk d.te3F)
      let p : Plan := { org := x.sp, v0 := x.vf, a0 := x.af, segs := segs, kind := k, start := n }
      let d := ((d.enterHold a).setMode a 1).w (Reg.AX_DECEL_EFF a) dec
      (d.setPx a { d.px a with plan := some p, velKind := false, planWait := wait }).countReplan a

/-! ### Motion of one epoch -/

/-- The set-point of an epoch with its velocity and acceleration: sp(N+1), sp*(N+2), and their binary64 v and a. -/
structure Motion where
  sp : Int
  star : Int
  vel : Int
  acc : Int
  vf : Nat
  af : Nat
deriving DecidableEq, Repr

/-- A motion given by its set-points alone: velocity and acceleration are differences (R161). -/
def Dev.byDifference (d : Dev) (a : Nat) (sp star : Int) : Motion :=
  let x := d.px a
  let v := sp - x.sp
  let c := sp - 2 * x.sp + x.spPrev
  { sp := sp, star := star, vel := v, acc := c, vf := fq24 v, af := fq24 c }

/-- The plan of a TIME move or stop has ended at sp(N+1) (R171, R173, R176). -/
def Dev.endPlan (d : Dev) (a : Nat) (p : Plan) : Dev :=
  let d := d.enterHold a
  if p.kind ≠ 0 then d
  else if p.ovr then d.flag (Reg.AX_PRF_STAT_TARGET_OVERRUN a)
  else d.flag (Reg.AX_PRF_STAT_DONE a)

/-- TIME mode (R168, R171, R175): the motion of epoch n + 1. -/
def Dev.timeMotion (d : Dev) (a n : Nat) : Dev × Motion :=
  let x := d.px a
  match x.plan with
  | none => (d.enterHold a, { sp := x.sp, star := x.sp, vel := 0, acc := 0, vf := 0, af := 0 })
  | some p =>
    let tau (m : Nat) : Nat := fint ((m : Int) - p.start)
    let spAt (m : Nat) : Int := match p.at (tau m) with
      | some s => p.org + q24 s.1
      | none => p.final
    match p.at (tau (n + 1)) with
    | some (dl, v, acc) => (d, { sp := p.org + q24 dl, star := spAt (n + 2), vel := q24 v, acc := q24 acc, vf := v, af := acc })
    | none =>
      if p.rev then
        -- REVERSAL (R175): at rest at the stop point; replan from there toward the target
        let st := p.stopPoint
        let t := p.target.getD st
        let l := d.limsOf a
        let (segs, rev) := l.build (fq24 (t - st)) 0 0
        let p2 : Plan := { org := st, v0 := 0, a0 := 0, segs := segs, target := some t, rev := rev, start := (n : Int) + 1 }
        let d := (d.setPx a { x with plan := some p2, vm := l.vm }).wb (Reg.AX_PRF_STAT_REVERSAL_PENDING a) rev
        let star := match p2.at (fint 1) with
          | some s => st + q24 s.1
          | none => p2.final
        (d.countReplan a, { sp := st, star := star, vel := 0, acc := 0, vf := 0, af := 0 })
      else (d.endPlan a p, { sp := p.final, star := p.final, vel := 0, acc := 0, vf := 0, af := 0 })

/-- COORD mode (R164, R168, R171, R175): the plan follows the predicted coordinate, clamped to its range. -/
def Dev.coordMotion (d : Dev) (a : Nat) : Dev × Motion :=
  let x := d.px a
  match x.plan with
  | none => (d, d.byDifference a x.sp x.sp)
  | some p =>
    let st := (d.predicted x.coord).1
    let pos (s : Int) : Int × Bool :=
      let tau := fmax0 (f64.ofScaled (s - p.start) (-32))
      match p.at tau with
      | some r => (p.org + q24 r.1, false)
      | none => (p.final, true)
    let (sp, fin) := pos (x.sun + st)
    let (star, _) := pos (x.sun + 2 * st)
    if fin && p.rev then
      let t := p.target.getD sp
      let l := d.limsOf a
      let (segs, rev) := l.build (fq24 (t - sp)) 0 0
      let p2 : Plan := { org := sp, v0 := 0, a0 := 0, segs := segs, target := some t, rev := rev, start := x.sun + st }
      let d := (d.setPx a { x with plan := some p2, vm := l.vm }).wb (Reg.AX_PRF_STAT_REVERSAL_PENDING a) rev
      (d.countReplan a, d.byDifference a sp sp)
    else
      let d := if fin then d.flag (Reg.AX_PRF_STAT_DONE a) else d
      (d, d.byDifference a sp star)

/-- The value of a gear law at a coordinate, 24 fraction bits, truncated once (R181). -/
def GearLaw.value (l : GearLaw) (s : Int) : Int :=
  let u := l.sigma * (s - l.x)
  if u < 0 then l.px + ashr (l.sigma * l.gx * u) 40
  else if u < l.b then
    l.px + (l.sigma * (l.gx * u * (2 * l.b) + (l.gnew - l.gx) * u * u)) / (2 * l.b * (2 : Int) ^ 40)
  else l.px + ashr (l.sigma * ((l.gx + l.gnew) * l.b + 2 * l.gnew * (u - l.b))) 41

/-- The slope of a gear law at a coordinate, Q32.32, truncated (R183). -/
def GearLaw.slope (l : GearLaw) (s : Int) : Int :=
  let u := l.sigma * (s - l.x)
  if u < 0 then l.gx else if u < l.b then l.gx + (l.gnew - l.gx) * u / l.b else l.gnew

/-- An armed entry of an axis: index (none for the implicit one), X, ratio, B, DIR. -/
structure GearEntry where
  index : Option Nat
  x : Int
  ratio : Int
  b : Int
  dir : Nat
deriving DecidableEq, Repr

/-- The armed entries of an axis, the implicit one first (R183, R184). -/
def Dev.armedEntries (d : Dev) (a : Nat) : List GearEntry :=
  let imp := match (d.px a).implicit with
    | some (x, g, b, dir) => [GearEntry.mk none x g (b : Int) dir]
    | none => []
  imp ++ ((List.range 16).filter (fun g => bitOf (d.mw (gearAddr a g)) 0)).map (fun g =>
    { index := some g, x := sx 64 (d.mw2 (gearAddr a g + 4)), ratio := sx 64 (d.mw2 (gearAddr a g + 12)),
      b := (d.mw2 (gearAddr a g + 20) : Int), dir := bits (d.mw (gearAddr a g)) 1 2 })

/-- GEAR_ENTRY_TAKEN (R183): the entry fixes the law from X on, and is disarmed. `xs` is X on the unwrapped coordinate. -/
def Dev.takeEntry (d : Dev) (a : Nat) (e : GearEntry) (xs sigma : Int) : Dev :=
  let x := d.px a
  let old := x.gear.getD ⟨xs, x.sp, 0, 0, 0, 1⟩
  let law : GearLaw := ⟨xs, old.value xs, old.slope xs, e.ratio, e.b, sigma⟩
  let d := d.setPx a { x with gear := some law, implicit := if e.index.isNone then none else x.implicit }
  match e.index with
  | some g => (d.putMw (gearAddr a g) (setBit (d.mw (gearAddr a g)) 0 false)).w (Reg.AX_GEAR_ENTRY a) g
  | none => d

/-- GEAR mode (R164, R181 … R184). -/
def Dev.gearMotion (d : Dev) (a : Nat) : Dev × Motion :=
  let x := d.px a
  let m := d.modulus x.coord
  let (st, now, next) := d.predicted x.coord
  let c : Coord := { prev := now, cur := next }
  let up := decide (0 < st)
  let hit := (d.armedEntries a).filter (fun e =>
    (e.dir != 1 && up && crosses m c e.x true) || (e.dir != 0 && !up && crosses m c e.x false))
  let off (e : GearEntry) : Int := diffC m e.x now
  let hit := sortBy (fun e => (off e).natAbs) hit
  let sigma : Int := if up then 1 else -1
  let d := d.each hit (fun e d => d.takeEntry a e (x.sun + off e) sigma)
  let y := d.px a
  let s1 := y.sun + st
  match y.gear with
  | none => (d, d.byDifference a y.sp y.sp)
  | some l =>
    let u := l.sigma * (s1 - l.x)
    let d := d.wb (Reg.AX_PRF_STAT_BLENDING a) (decide (0 ≤ u ∧ u < l.b))
    (d, d.byDifference a (l.value s1) (l.value (s1 + st)))

/-- The value of Sage knots at epoch `n` (R296); none for NaN. -/
def KnotSet.value (k : KnotSet) (n : Nat) : Option Int :=
  let s := fdiv (fint ((n : Int) - k.start)) (fint k.kc)
  let s2 := fmul s s
  let s3 := fmul s2 s
  let two := fint 2
  let three := fint 3
  let p := if k.velEn then
      fadd (fadd (fadd (fmul (fadd (fsub (fmul two s3) (fmul three s2)) (fint 1)) k.p0)
        (fmul (fmul (fadd (fsub s3 (fmul two s2)) s) k.tc) k.v0))
        (fmul (fadd (f64.neg (fmul two s3)) (fmul three s2)) k.p1))
        (fmul (fmul (fsub s3 s2) k.tc) k.v1)
    else fadd k.p0 (fmul s (fsub k.p1 k.p0))
  (f64.floorScaled p 24).map (fun z => k.koff + z)

/-- The set-point that the plan in force gives at epoch `n`, or the present one (R180). -/
def Dev.planned (d : Dev) (a n : Nat) : Int :=
  let x := d.px a
  match x.knots with
  | some k => if n ≤ k.start + k.kc then (k.value n).getD x.sp else x.sp
  | none => x.sp

/-- PLAN_ADOPT (R180): at a cycle boundary the new knots are adopted when the first lies within PLAN_TOL. -/
def Dev.adoptPlan (d : Dev) (a n : Nat) : Dev :=
  let x := d.px a
  match x.nextKnots with
  | some k =>
    if k.start ≠ n + 1 ∨ ¬ (d.modeOf a = 4 ∨ x.planWait) then d
    else
      let d := d.setPx a { x with nextKnots := none }
      match k.value (n + 1) with
      | none => if d.modeOf a = 4 then d.setPx a { d.px a with knots := none, stopReq := (d.px a).stopReq ++ [5] } else d
      | some v =>
        let tol := (f64.floorScaled (d.planTol a) 24).getD 0
        if (v - d.planned a (n + 1)).natAbs ≤ tol.toNat then
          let d := if d.r (Reg.AX_PRF_STAT_STOP_KIND a) = 5 then d.w (Reg.AX_PRF_STAT_STOP_KIND a) 0 else d
          (d.setMode a 4).setPx a { d.px a with knots := some k, planWait := false, plan := none }
        else
          let moving := d.modeOf a = 4 ∧ x.knots.isSome
          let d := d.flag (Reg.AX_PRF_STAT_PLAN_MISMATCH a)
          if moving then d.setPx a { d.px a with knots := none, stopReq := (d.px a).stopReq ++ [5] }
          else (d.enterHold a).setPx a { (d.enterHold a).px a with planWait := true }
  | none => d

/-- PLAN mode (R180, R296); past its knots or at a NaN the axis takes the NO_PLAN stop. -/
def Dev.planMotion (d : Dev) (a n : Nat) : Dev × Option Motion :=
  let x := d.px a
  match x.knots with
  | none => (d, some (d.byDifference a x.sp x.sp))
  | some k =>
    if k.start + k.kc ≤ n + 1 then (d, none)
    else match k.value (n + 1) with
      | none => (d, none)
      | some v => (d, some (d.byDifference a v ((k.value (n + 2)).getD v)))

/-- The motion of axis `a` in epoch n + 1 in its mode. -/
def Dev.motionOf (d : Dev) (a n : Nat) : Dev × Motion :=
  let x := d.px a
  let rest : Motion := { sp := x.sp, star := x.sp, vel := 0, acc := 0, vf := 0, af := 0 }
  match d.modeOf a with
  | 1 => d.timeMotion a n
  | 2 => d.coordMotion a
  | 3 => d.gearMotion a
  | 4 =>
    match d.planMotion a n with
    | (d, some m) => (d, m)
    | (d, none) =>
      let d := d.applyStop a n 5
      if d.modeOf a = 1 then d.timeMotion a n else (d, rest)
  | _ => (d, rest)

/-! ### Caps and limits (R178, R186 … R188) -/

/-- Speed caps in TIME and COORD modes (R178): a change of the vm in force replans. -/
def Dev.applyCap (d : Dev) (a n : Nat) : Dev :=
  let x := d.px a
  let planned := (d.modeOf a == 1 || d.modeOf a == 2) && (match x.plan with
    | some p => p.kind == 0 && !p.ovr
    | none => false)
  if !planned then d.w (Reg.AX_PRF_STAT_CAPPED a) 0
  else
    let l := d.limsOf a
    let full := if x.coordMode then x.lv else fmul x.lv d.teF
    let d := d.wb (Reg.AX_PRF_STAT_CAPPED a) (flt l.vm full)
    if l.vm = x.vm then d
    else d.replanAxis a n (if flt l.vm x.vm then d.limsCapped a else l)

/-- CAP_BREAK (R178): in GEAR and PLAN a first difference beyond the cap becomes a stop. -/
def Dev.capBreak (d : Dev) (a n : Nat) (r : Dev × Motion) : Dev × Motion :=
  let (d1, m) := r
  let x := d.px a
  if (d1.modeOf a = 3 ∨ d1.modeOf a = 4) ∧ x.cap ≠ 0xFFFF_FFFF ∧ x.cap * 2 ^ 8 < (m.sp - x.sp).natAbs then
    ((d1.flag (Reg.AX_PRF_STAT_CAP_BREAK a)).applyStop a n 4).motionOf a n
  else r

/-- LIMIT_STOP and VLIM_CLAMP (R186, R187), and OUTSIDE (R188). -/
def Dev.virtualLimits (d : Dev) (a n : Nat) (r : Dev × Motion) : Dev × Motion :=
  if !d.vlimEn a then (r.1.w (Reg.AX_PRF_STAT_OUTSIDE a) 0, r.2)
  else
    let lo := d.limLo a
    let hi := d.limHi a
    let (d1, m) := r
    let x := d.px a
    let dec := fmul (d.limDecel a) d.te2F
    let jrk := fmul (d.hardJ a) d.te3F
    let stp := if f64.isPos dec && f64.isPos jrk then m.sp + q24 (segDist (vchange m.vf m.af 0 dec jrk) m.vf m.af) else m.sp
    let way : Int := if stp ≠ m.sp then stp - m.sp else if fsign m.vf ≠ 0 then fsign m.vf else fsign m.af
    let moving := fsign m.vf ≠ 0 ∨ fsign m.af ≠ 0
    let hit := decide moving && decide (d1.r (Reg.AX_PRF_STAT_STOP_KIND a) < 3) &&
      (if 0 < way then decide (hi ≤ stp) else decide (stp < lo))
    let (d2, m2) := if hit then
        ((d1.flag (Reg.AX_PRF_STAT_VLIM_HIT a)).applyStop a n 3).motionOf a n
      else (d1, m)
    let inside (s : Int) : Bool := decide (lo ≤ s ∧ s < hi)
    let (d3, m3) := if d2.r (Reg.AX_PRF_STAT_STOP_KIND a) = 3 ∧ inside x.sp then
        let c := clampI lo (hi - 1) m2.sp
        (if c = m2.sp then d2 else d2.flag (Reg.AX_PRF_STAT_VLIM_CLAMP a),
          { m2 with sp := c, star := clampI lo (hi - 1) m2.star })
      else (d2, m2)
    (d3.wb (Reg.AX_PRF_STAT_OUTSIDE a) (!inside m3.sp), m3)

/-! ### The generator instant (R161 … R166) -/

/-- HOLD with the set-point at the axis position (R161). -/
def Dev.grabPosition (d : Dev) (a : Nat) (p : Int) : Dev :=
  let d := d.enterHold a
  let d := d.setPx a { d.px a with
    grab := false, sp := p, spPrev := p, spNext := p, vf := 0, af := 0, star := none, starNext := none, still := 0 }
  ((d.ws (Reg.AX_SP a) p).ws (Reg.AX_TARGET a) p).w (Reg.AX_VEL a) 0

/-- The words of a profile slot as a record (R172). -/
structure SlotRec where
  kind : Nat
  coordMode : Bool
  coord : Nat
  vneg : Bool
  target : Int
  v : Nat
  a : Nat
  d : Nat
  j : Nat
deriving DecidableEq, Repr

/-- The 64-bit value of two words of a list. -/
def pairAt (ws : List Nat) (i : Nat) : Nat := pair64 (ws.getD i 0) (ws.getD (i + 1) 0)

/-- A slot from its words. -/
def slotOf (ws : List Nat) : SlotRec :=
  let w := ws.getD 0 0
  { kind := w % 4, coordMode := bitOf w 2, coord := bits w 3 3, vneg := bitOf w 6, target := sx 64 (pairAt ws 1),
    v := pairAt ws 3, a := pairAt ws 5, d := pairAt ws 7, j := pairAt ws 9 }

/-- The words of a slot as stored. -/
def Dev.slotWords (d : Dev) (a s : Nat) : List Nat := Mem.words d.mem (slotAddr a s) 16

/-- The target of a slot: absolute, or relative to the present target. -/
def Dev.slotTarget (d : Dev) (a : Nat) (s : SlotRec) : Int :=
  if s.kind = 1 then sx 64 (un 64 (sx 64 (d.r (Reg.AX_TARGET a)) + s.target)) else s.target

/-- A target is too far from the set-point (R167). -/
def Dev.tooFar (d : Dev) (a : Nat) (t : Int) : Bool := decide (2 ^ 64 ≤ (t - (d.px a).sp).natAbs)

/-- What refuses the start of a slot (R167, R172, R176, R184, R186, R188). -/
def Dev.startRefused (d : Dev) (a : Nat) (s : SlotRec) : Option Res :=
  let t := d.slotTarget a s
  let inRange := decide (d.limLo a ≤ t ∧ t < d.limHi a)
  if d.motionDenied a then some .denied
  else if d.b (Reg.AX_PRF_STAT_OUTSIDE a) && !(!s.coordMode && s.kind != 2 && inRange) then some .denied
  else if s.kind = 3 ∨ !(f64.isPos s.v && f64.isPos s.a && f64.isPos s.d && f64.isPos s.j) ∨
      (s.kind ≠ 2 ∧ (d.tooFar a t ∨ (d.vlimEn a ∧ ¬ inRange))) then some (.badParam 0)
  else if s.coordMode && !d.b (Reg.COORD_STAT_VALID s.coord) then some (.badParam 0)
  else if s.coordMode && !d.atRest a then some .busy
  else if d.modeOf a == 3 && !d.gearRest a then some .busy
  else none

/-- New motion begins: a stop that needs no release is no longer shown. -/
def Dev.clearStop (d : Dev) (a : Nat) : Dev :=
  let d := if d.motionDenied a then d else d.w (Reg.AX_PRF_STAT_STOP_KIND a) 0
  (d.w (Reg.AX_PRF_STAT_DONE a) 0).setPx a { d.px a with planWait := false, dEff := none }

/-- A slot starts from the state of sp(N) (R172). -/
def Dev.startSlot (d : Dev) (a n : Nat) (s : SlotRec) : Dev :=
  let t := d.slotTarget a s
  let d := d.clearStop a
  let x := d.px a
  -- state in the new plan's unit of time: at rest along a coordinate, counts per epoch in time
  let keep := !s.coordMode
  let d := d.setPx a { x with
    velKind := s.kind == 2, vneg := s.vneg, coordMode := s.coordMode, coord := s.coord, lv := s.v, la := s.a, ld := s.d,
    lj := s.j, gear := none, implicit := none, plan := none, knots := none,
    sun := if s.coordMode then (d.predicted s.coord).2.1 else x.sun }
  let d := ((d.setMode a (if s.coordMode then 2 else 1)).ws (Reg.AX_TARGET a) t).w (Reg.AX_DECEL_EFF a) s.d
  let d := d.w (Reg.AX_PRF_STAT_BLENDING a) 0
  let l := d.limsOf a
  if keep then d.replanAxis a n l
  else if s.kind = 2 then
    let y := d.px a
    let p : Plan := { org := y.sp, v0 := 0, a0 := 0, segs := l.cruiseTo 0 0 s.vneg, cruise := true, start := y.sun }
    (d.setPx a { y with plan := some p, vm := l.vm }).countReplan a
  else d.buildPlan a n t l 0 0

/-- A command that Farrier has executed takes effect (R166, step 1): axis, opcode, words. -/
def Dev.applyPrfCmd (d : Dev) (n : Nat) (c : Nat × Nat × List Nat) : Dev :=
  let (a, op, ws) := c
  let planned := d.modeOf a == 1 || d.modeOf a == 2
  match op with
  | 0x301 => d.startSlot a n (slotOf ws)
  | 0x302 =>
    if planned then
      let d := d.clearStop a
      let d := (d.setPx a { d.px a with velKind := false }).ws (Reg.AX_TARGET a) (sx 64 (pairAt ws 0))
      d.replanAxis a n (d.limsOf a)
    else d
  | 0x303 =>
    if planned then
      let d := d.setPx a { d.px a with lv := pairAt ws 0, la := pairAt ws 2, ld := pairAt ws 4, lj := pairAt ws 6 }
      (d.w (Reg.AX_DECEL_EFF a) (pairAt ws 4)).limitsChanged a n
    else d
  | 0x305 =>
    let co := ws.getD 0 0 % 8
    let d := d.clearStop a
    let x := d.px a
    let now := (d.predicted co).2.1
    let d := d.setPx a { x with
      coord := co, coordMode := false, plan := none, knots := none, sun := now,
      gear := some ⟨now, x.sp, 0, 0, 0, 1⟩,
      implicit := some (sx 64 (pairAt ws 2), sx 64 (pairAt ws 4), pairAt ws 6, ws.getD 1 0) }
    (d.setMode a 3).w (Reg.AX_GEAR_COORD a) co
  | 0x307 => ((d.clearStop a).setMode a 4).setPx a { (d.clearStop a).px a with plan := none, gear := none, knots := none }
  | _ => d

/-! ### Rebase after a takeover (R505) -/

/-- The fresh position that an axis resumes from: for a stepper team the applied position (R235). -/
def Dev.freshPos (d : Dev) (a : Nat) : Int :=
  match d.stepperOf a with
  | some t => sx 64 (d.r (Reg.STEP_POS t))
  | none => (d.axisNow a).getD (d.px a).sp

/-- The unwrapped coordinate of an axis follows the fresh sample. -/
def Dev.freshCoord (d : Dev) (a : Nat) : Int :=
  let x := d.px a
  let m := d.modulus x.coord
  x.sun + diffC m (d.predicted x.coord).2.1 (reduceC m x.sun)

/-- The axis stands at position `p` in the rebase epoch. -/
def Dev.standAt (d : Dev) (a : Nat) (p : Int) : Dev :=
  (d.setPx a { d.px a with sp := p, spPrev := p, spNext := p, vf := 0, af := 0, star := none, starNext := none }).ws
    (Reg.AX_SP a) p

/-- `v` differs from `p` by PLAN_TOL or more. -/
def Dev.beyondTol (d : Dev) (a : Nat) (v p : Int) : Bool :=
  decide (((f64.floorScaled (d.planTol a) 24).getD 0).toNat ≤ (v - p).natAbs)

/-- The generator instant of the rebase epoch (R505): an axis that moves by a plan waits for its speed; laws and results that
no longer fit end. -/
def Dev.rebaseAxis (d : Dev) (a n : Nat) : Dev :=
  let p := d.freshPos a
  let x := d.px a
  match d.modeOf a with
  | 0 => d.standAt a p
  | 3 =>
    let sun := d.freshCoord a
    let v := (x.gear.map (fun l => l.value sun)).getD p
    if d.beyondTol a v p then
      let d := ((d.flag Reg.PAIR_STAT_REBASE_FAIL).enterHold a).standAt a p
      d.setPx a { d.px a with fresh := some p, stopReq := (d.px a).stopReq ++ [7] }
    else (d.standAt a v).setPx a { (d.standAt a v).px a with sun := sun }
  | 4 =>
    match (match x.knots with
      | some k => if n ≤ k.start + k.kc then k.value n else none
      | none => some p) with
    | some v =>
      if d.beyondTol a v p && x.knots.isSome then
        let d := ((d.flag (Reg.AX_PRF_STAT_PLAN_MISMATCH a)).enterHold a).standAt a p
        d.setPx a { d.px a with planWait := true, knots := none }
      else d.standAt a v
    | none =>
      let d := ((d.flag (Reg.AX_PRF_STAT_PLAN_MISMATCH a)).enterHold a).standAt a p
      d.setPx a { d.px a with planWait := true, knots := none }
  | _ => (d.standAt a p).setPx a { (d.standAt a p).px a with fresh := some p }

/-- The generator instant after the rebase epoch (R505): the speed is measured, and a plan is built again from there. -/
def Dev.resumeAxis (d : Dev) (a n : Nat) : Dev :=
  match (d.px a).fresh with
  | none => d
  | some p0 =>
    let p := d.freshPos a
    let v := fq24 (p - p0)
    let d := d.standAt a p
    let d := d.setPx a { d.px a with fresh := none, vf := v, sun := d.freshCoord a }
    let x := d.px a
    let k := (x.plan.map (·.kind)).getD 0
    if k ≠ 0 then (d.w (Reg.AX_PRF_STAT_STOP_KIND a) 0).applyStop a n k
    else if d.modeOf a = 2 then
      let st := (d.predicted x.coord).1
      let w := if st = 0 then 0 else fdiv v (f64.ofScaled st (-32))
      let l := d.limsOf a
      if x.velKind then
        let q : Plan := { org := p, v0 := w, a0 := 0, segs := l.cruiseTo w 0 x.vneg, cruise := true, start := x.sun }
        (d.setPx a { x with plan := some q, vm := l.vm }).countReplan a
      else d.buildPlan a n (sx 64 (d.r (Reg.AX_TARGET a))) l w 0
    else if d.modeOf a = 1 then d.replanAxis a n (d.limsOf a)
    else d

/-- One axis at the generator instant, after commands and calendar actions: knots, caps, stops, motion and limits. -/
def Dev.genAxis (d : Dev) (a n : Nat) : Dev :=
  let d := if (d.px a).grab then d.grabPosition a ((d.axisNow a).getD (d.px a).sp) else d
  let d := d.adoptPlan a n
  let d := d.applyCap a n
  let x := d.px a
  let lost := (d.modeOf a == 2 || d.modeOf a == 3) && d.b (Reg.COORD_STAT_LOST x.coord)
  let d := if lost then d.flag (Reg.AX_PRF_STAT_COORD_LOST a) else d
  let reqs := x.stopReq ++ (if lost then [2] else []) ++ (if d.prf.pstop.contains a then [6] else [])
  let d := if reqs.isEmpty then d else (d.setPx a { d.px a with stopReq := [] }).applyStop a n (reqs.foldl max 0)
  let (d, m) := d.virtualLimits a n (d.capBreak a n (d.motionOf a n))
  let y := d.px a
  let ring := d.paramWord a 0 % 8 == 1
  let bad := match y.star with
    | some s => s != m.sp
    | none => true
  let counted := ring && y.star.isSome && bad
  let d := if counted then (d.incWrap (Reg.AX_PRF_CNT_WDRAW a)).inc Reg.PRF_WDRAW_CNT else d
  let along := d.modeOf a == 2 || d.modeOf a == 3
  d.setPx a { y with
    spNext := m.sp, starNext := if ring then some m.star else none, wdraw := bad, velNext := m.vel, accNext := m.acc,
    vfNext := m.vf, afNext := m.af, computed := true,
    sun := if along then y.sun + (d.predicted y.coord).1 else y.sun }

/-- The steps of a rebase that are due at this instant. -/
def Dev.rebaseAll (d : Dev) (axes : List Nat) (n : Nat) : Dev :=
  match d.prf.rebase with
  | 1 => d.each axes (fun a d => d.rebaseAxis a n)
  | 2 => d.each axes (fun a d => d.resumeAxis a n)
  | _ => d

/-- An axis that waits out the rebase epoch keeps its position. -/
def Dev.waitAxis (d : Dev) (a : Nat) : Dev :=
  let x := d.px a
  d.setPx a { x with spNext := x.sp, velNext := 0, accNext := 0, vfNext := 0, afNext := 0, computed := true }

/-- Hand sp(N+1) to the stepper team of an axis (R223). -/
def Dev.deliverStep (d : Dev) (a : Nat) : Dev :=
  match d.stepperOf a with
  | some t =>
    let x := d.tx t
    d.setTx t { x with step := { x.step with delivered := some (d.px a).spNext } }
  | none => d

/-- The offset of the generator instant from the boundary, ns (R162). -/
def Dev.genOffset (d : Dev) : Nat := if d.r Reg.EPK_CFG_K = 1 then 10500 else 13000

/-- GENERATOR_INSTANT (R162 … R166). -/
def Dev.generate (d : Dev) (g : Grade) : Dev :=
  if d.enginesStill then d
  else
  let n := d.r Reg.EPK_NOW
  let d := if d.ep.placed then d.reach (d.countAt (d.r Reg.EPK_ORIGIN + n * d.te + d.genOffset)) else d
  let d := d.each d.prf.paramNext (fun p d => { d with mem := Mem.putWords d.mem (paramAddr p.1) p.2 })
  let d := { d with prf := { d.prf with paramNext := [] } }
  if !d.prf.run then { d with prf := { d.prf with cmds := [] }, cal := { d.cal with gearOut := [], profileOut := [] } }
  else
    let axes := List.range (axesOf g)
    let d := { d with prf := { d.prf with replans := 0 } }
    let d := d.each d.prf.cmds (fun c d => d.applyPrfCmd n c)
    let d := d.each d.cal.gearOut (fun e d =>
      d.putMw (gearAddr e.1 e.2.1) (setBit (d.mw (gearAddr e.1 e.2.1)) 0 true))
    let d := d.each d.cal.profileOut (fun e d =>
      let s := slotOf (d.slotWords e.1 e.2)
      if (d.startRefused e.1 s).isNone && decide (e.1 < axesOf g) then d.startSlot e.1 n s else d)
    let d := { d with prf := { d.prf with cmds := [] }, cal := { d.cal with gearOut := [], profileOut := [] } }
    let busy := (axes.filter (fun a => d.modeOf a != 0)).length
    let d := d.rebaseAll axes n
    let d := d.each axes (fun a d => if d.prf.rebase = 1 ∧ (d.px a).fresh.isSome then d.waitAxis a else d.genAxis a n)
    let d := { d with prf := { d.prf with rebase := if d.prf.rebase = 1 then 2 else 0 } }
    let endNs := d.genOffset + 300 + 10 * busy + 120 * cdiv d.prf.replans 4
    let ovr := decide (d.te - d.ep.margin < endNs)
    let d := (d.w Reg.PRF_BUSY_REPLANS (satU 8 d.prf.replans)).w Reg.PRF_BUSY_END_NS (satU 16 endNs)
    let d := if ovr then
        (d.flag Reg.PRF_STAT_OVERRUN).overrun.each axes (fun a d =>
          let x := d.px a
          d.setPx a { x with spNext := x.sp, starNext := none, velNext := 0, accNext := 0, vfNext := 0, afNext := 0 })
      else d
    d.each axes (fun a d => d.deliverStep a)

/-- Meaning of GENERATOR_INSTANT. -/
def execGeneratorInstant (s : State) : Host.Outcome State Fault Refusal := ok s (fun g d => d.generate g)

/-- The generator at a boundary: sp(N+1) becomes the set-point of the epoch that starts, caps are latched, RUN takes
effect (R161, R178). -/
def Dev.prfBoundary (d : Dev) : Dev :=
  let run := d.b Reg.PRF_CTRL_RUN
  let rise := run && !d.prf.run
  let d := d.each (d.prf.axes.map (·.1)) (fun a d =>
    let x := d.px a
    let same := x.computed && x.spNext == x.sp
    let nx := if x.computed then
        { x with
          spPrev := x.sp, sp := x.spNext, star := x.starNext, starNext := none, vf := x.vfNext, af := x.afNext,
          computed := false, still := if same then x.still + 1 else 0 }
      else { x with spPrev := x.sp, star := none, vf := 0, af := 0 }
    let vel := if x.computed then x.velNext else 0
    let acc := if x.computed then x.accNext else 0
    let nx := { nx with cap := Tab.look 0xFFFF_FFFF a d.prf.caps }
    (((d.setPx a nx).ws (Reg.AX_SP a) nx.sp).ws (Reg.AX_VEL a) vel).ws (Reg.AX_ACC a) acc)
  let d := d.each (d.prf.caps.map (·.1)) (fun a d =>
    (d.setPx a { d.px a with cap := Tab.look 0xFFFF_FFFF a d.prf.caps }).w (Reg.AX_CAP a) (Tab.look 0xFFFF_FFFF a d.prf.caps))
  let d := if rise && d.prf.rebase == 0 then d.each (List.range 128) (fun a d => d.setPx a { d.px a with grab := true, star := none }) else d
  ({ d with prf := { d.prf with run := run } }).wb Reg.PRF_STAT_RUNNING run

/-! ### Record writes and commands (R189 … R191) -/

/-- What refuses a parameter record (R189): not at rest (BUSY), or the offending word. -/
def Dev.paramBad (d : Dev) (g : Grade) (a : Nat) (ws : List Nat) : Option Nat :=
  let w0 := ws.getD 0 0
  let out := w0 % 8
  let tgt := bits w0 3 15
  let fin := [5, 7, 9, 11, 13].find? (fun i => !f64.isPos (pairAt ws i))
  let clash := (List.range 128).any (fun b => b != a && d.paramWord b 0 % 8 == out && bits (d.paramWord b 0) 3 15 == tgt)
  let ring := tgt % 4
  let node := tgt / 4 % 128
  let word := tgt / 512 % 64
  let other := (d.ringSlots ring).any (fun s => s.node == node && s.kind != 1 && decide (s.firstOut ≤ word) &&
    decide (word < s.firstOut + s.outWords))
  if 3 ≤ out ∨ (out = 1 ∧ !ringNodeOk g ring node) ∨ (out = 2 ∧ teamsOf g ≤ tgt % 32) then some 0
  else if out ≠ 0 ∧ (clash ∨ (out = 1 ∧ other)) then some 0
  else match fin with
    | some i => some i
    | none =>
      if bitOf w0 19 ∧ sx 64 (pairAt ws 3) ≤ sx 64 (pairAt ws 1) then some 1
      else if flt (pairAt ws 5) (pairAt ws 11) then some 11
      else none

/-- The axis is in HOLD at rest (R189). -/
def Dev.holdRest (d : Dev) (a : Nat) : Bool := d.modeOf a == 0 && fsign (d.px a).vf == 0

/-- PRF_PARAM_RECORD_WRITE (R189): a host write of `vs` from word `w` of the record on. -/
def Dev.paramWrite (d : Dev) (g : Grade) (a w : Nat) (vs : List Nat) : Dev :=
  let old := Mem.words d.mem (paramAddr a) 16
  let ws := ((old.take w) ++ vs ++ old.drop (w + vs.length)).take 15 ++ [0]
  if !d.holdRest a || (d.paramBad g a ws).isSome then d.flag Reg.PRF_STAT_PARAM_BAD
  else { d with prf := { d.prf with paramNext := d.prf.paramNext ++ [(a, ws)] } }

/-- Meaning of PRF_PARAM_RECORD_WRITE. -/
def execPrfParamRecordWrite (path : Path) (a : Fin 128) (w : Fin 16) (vs : List Word) (s : State) :
    Host.Outcome State Fault Refusal :=
  ok s (fun g d => d.access path true (decide (a.val < axesOf g)) (fun d =>
    d.paramWrite g a.val w.val (vs.map BitVec.toNat)))

/-- A host write of a profile slot word, or of a gear entry word: an armed entry ignores it. -/
def Dev.gearWrite (d : Dev) (a g w v : Nat) : Dev :=
  if bitOf (d.mw (gearAddr a g)) 0 ∨ 7 ≤ w then d
  else if w = 0 then d.putMw (gearAddr a g) (v % 8 / 2 * 2) else d.putMw (gearAddr a g + 4 * w) v

/-- The epoch of sp(N+1), N being the epoch of the generator instant that applies the command (R166, DEDUCED): the
present epoch's, or the next one's when the present instant has passed. -/
def Dev.spEpoch (d : Dev) (a : Nat) : List Nat :=
  let e := d.r Reg.EPK_NOW + (if (d.px a).computed then 2 else 1)
  [loW e, hiW e]

/-- Put a command into the list for the next generator instant (R166). -/
def Dev.prfQueue (d : Dev) (a op : Nat) (ws : List Nat) : Dev :=
  { d with prf := { d.prf with cmds := d.prf.cmds ++ [(a, op, ws)] } }

/-- Meaning of PRF_INFO. -/
def execPrfInfo (p : Packet) (s : State) : Host.Outcome State Fault Refusal :=
  ok s (fun g d => d.runPacket g { opcode := 0x300, need := needN 0 } p (fun d _ =>
    (d, .ok [d.regWord 0x30_0004, d.regWord 0x30_0008, d.r Reg.PRF_WDRAW_CNT])))

/-- PRF_START (R172, R191). -/
def Dev.prfStart (d : Dev) (g : Grade) (a sl : Nat) : Dev × Res :=
  if axesOf g ≤ a then (d, .badParam 2)
  else if 16 ≤ sl then (d, .badParam 3)
  else
    let ws := d.slotWords a sl
    match d.startRefused a (slotOf ws) with
    | some r => (d, r)
    | none => (d.prfQueue a 0x301 ws, .ok (d.spEpoch a))

/-- Meaning of PRF_START. -/
def execPrfStart (p : Packet) (s : State) : Host.Outcome State Fault Refusal :=
  ok s (fun g d => d.runPacket g { opcode := 0x301, need := needN 2 } p (fun d ps => d.prfStart g (ps.getD 0 0) (ps.getD 1 0)))

/-- PRF_TARGET (R191). -/
def Dev.prfTarget (d : Dev) (g : Grade) (a : Nat) (ws : List Nat) : Dev × Res :=
  let t := sx 64 (pairAt ws 0)
  if axesOf g ≤ a then (d, .badParam 2)
  else if d.motionDenied a || d.b (Reg.AX_PRF_STAT_OUTSIDE a) then (d, .denied)
  else if !(d.modeOf a == 1 || d.modeOf a == 2) then (d, .busy)
  else if d.tooFar a t || (d.vlimEn a && !(decide (d.limLo a ≤ t ∧ t < d.limHi a))) then (d, .badParam 0)
  else (d.prfQueue a 0x302 ws, .ok (d.spEpoch a))

/-- Meaning of PRF_TARGET. -/
def execPrfTarget (p : Packet) (s : State) : Host.Outcome State Fault Refusal :=
  ok s (fun g d => d.runPacket g { opcode := 0x302, need := needN 3 } p (fun d ps => d.prfTarget g (ps.getD 0 0) (ps.drop 1)))

/-- PRF_LIMITS (R191). -/
def Dev.prfLimits (d : Dev) (g : Grade) (a : Nat) (ws : List Nat) : Dev × Res :=
  if axesOf g ≤ a then (d, .badParam 2)
  else if d.motionDenied a || d.b (Reg.AX_PRF_STAT_OUTSIDE a) then (d, .denied)
  else if !(d.modeOf a == 1 || d.modeOf a == 2) then (d, .busy)
  else match [0, 2, 4, 6].find? (fun i => !f64.isPos (pairAt ws i)) with
    | some _ => (d, .badParam 0)
    | none => (d.prfQueue a 0x303 ws, .ok (d.spEpoch a))

/-- Meaning of PRF_LIMITS. -/
def execPrfLimits (p : Packet) (s : State) : Host.Outcome State Fault Refusal :=
  ok s (fun g d => d.runPacket g { opcode := 0x303, need := needN 9 } p (fun d ps => d.prfLimits g (ps.getD 0 0) (ps.drop 1)))

/-- PRF_STOP (R176): the stop is requested for the next generator instant. -/
def Dev.prfStop (d : Dev) (g : Grade) (axes : List Nat) (mode : Nat) : Dev × Res :=
  if axes.any (fun a => decide (axesOf g ≤ a)) then (d, .badParam (maskWord g axes))
  else if 1 < mode then (d, .badParam 6)
  else (d.each axes (fun a d =>
    d.setPx a { d.px a with stopReq := (d.px a).stopReq ++ [if mode = 0 then 1 else 7] }), .ok [])

/-- Meaning of PRF_STOP. -/
def execPrfStop (p : Packet) (s : State) : Host.Outcome State Fault Refusal :=
  ok s (fun g d => d.runPacket g { opcode := 0x304, need := needN 5 } p (fun d ps =>
    d.prfStop g (axisList ps) (ps.getD 4 0)))

/-- GEAR_START (R184, R191). -/
def Dev.gearStart (d : Dev) (g : Grade) (a : Nat) (ws : List Nat) : Dev × Res :=
  let co := ws.getD 0 0
  let dir := ws.getD 1 0
  let x := sx 64 (pairAt ws 2)
  let cur := (d.coord (co % 8)).cur
  let ahead := diffC (d.modulus (co % 8)) cur x
  if axesOf g ≤ a then (d, .badParam 2)
  else if 8 ≤ co then (d, .badParam 3)
  else if 3 ≤ dir then (d, .badParam 4)
  else if d.motionDenied a || d.b (Reg.AX_PRF_STAT_OUTSIDE a) then (d, .denied)
  else if !d.atRest a then (d, .busy)
  else if !d.b (Reg.COORD_STAT_VALID co) then (d, .badParam 3)
  else if (dir = 0 ∧ 0 ≤ ahead) ∨ (dir = 1 ∧ ahead < 0) then (d, .badParam 5)
  else (d.prfQueue a 0x305 ws, .ok [])

/-- Meaning of GEAR_START. -/
def execGearStart (p : Packet) (s : State) : Host.Outcome State Fault Refusal :=
  ok s (fun g d => d.runPacket g { opcode := 0x305, need := needN 9 } p (fun d ps => d.gearStart g (ps.getD 0 0) (ps.drop 1)))

/-- GEAR_ARM (R183, R191). -/
def Dev.gearArm (d : Dev) (g : Grade) (a e on : Nat) : Dev × Res :=
  if axesOf g ≤ a then (d, .badParam 2)
  else if 16 ≤ e then (d, .badParam 3)
  else if 1 < on then (d, .badParam 4)
  else if d.modeOf a ≠ 3 then (d, .busy)
  else if on = 1 ∧ bits (d.mw (gearAddr a e)) 1 2 = 3 then (d, .badParam 3)
  else (d.putMw (gearAddr a e) (setBit (d.mw (gearAddr a e)) 0 (on == 1)), .ok [])

/-- Meaning of GEAR_ARM. -/
def execGearArm (p : Packet) (s : State) : Host.Outcome State Fault Refusal :=
  ok s (fun g d => d.runPacket g { opcode := 0x306, need := needN 3 } p (fun d ps =>
    d.gearArm g (ps.getD 0 0) (ps.getD 1 0) (ps.getD 2 0)))

/-- PLAN_START (R172, R176, R297). -/
def Dev.planStartCmd (d : Dev) (g : Grade) (axes : List Nat) : Dev × Res :=
  if axes.any (fun a => decide (axesOf g ≤ a)) then (d, .badParam (maskWord g axes))
  else
    let bad (a : Nat) : Bool := !sageFitted g || !(d.sage.map.any (fun k => k.axis == a)) || !d.atRest a ||
      d.motionDenied a || d.b (Reg.AX_PRF_STAT_OUTSIDE a)
    (d.each (axes.filter (fun a => !bad a)) (fun a d => d.prfQueue a 0x307 []), .ok (axisMask (axes.filter bad)))

/-- Meaning of PLAN_START. -/
def execPlanStart (p : Packet) (s : State) : Host.Outcome State Fault Refusal :=
  ok s (fun g d => d.runPacket g { opcode := 0x307, need := needN 4 } p (fun d ps => d.planStartCmd g (axisList ps)))

/-- PRF_RELEASE (R176). -/
def Dev.prfRelease (d : Dev) (axes : List Nat) : Dev × Res :=
  let bad (a : Nat) : Bool := !d.holdRest a || (d.r (Reg.AX_PRF_STAT_STOP_KIND a) == 6 && d.prf.pstop.contains a)
  (d.each (axes.filter (fun a => !bad a)) (fun a d => d.w (Reg.AX_PRF_STAT_STOP_KIND a) 0), .ok (axisMask (axes.filter bad)))

/-- Meaning of PRF_RELEASE. -/
def execPrfRelease (p : Packet) (s : State) : Host.Outcome State Fault Refusal :=
  ok s (fun g d => d.runPacket g { opcode := 0x308, need := needN 4 } p (fun d ps =>
    d.prfRelease ((axisList ps).filter (fun a => decide (a < axesOf g)))))

/-- Meaning of PRF_AXIS_READ. -/
def execPrfAxisRead (p : Packet) (s : State) : Host.Outcome State Fault Refusal :=
  ok s (fun g d => d.runPacket g { opcode := 0x309, need := needN 1 } p (fun d ps =>
    let a := ps.getD 0 0
    if axesOf g ≤ a then (d, .badParam 2)
    else
      let two (v : Nat) : List Nat := [loW v, hiW v]
      let f := d.ofFront
      (d, .ok ([f.regWord (0x30_1000 + 0x40 * a)] ++ two (f.r (Reg.AX_SP a)) ++ two (f.r (Reg.AX_VEL a)) ++
        two (f.r (Reg.AX_ACC a)) ++ two (f.r (Reg.AX_TARGET a)) ++ [f.r (Reg.AX_CAP a)] ++ d.frontWords))))

/-- PRF_PARAM_WRITE (R189). -/
def Dev.prfParamWrite (d : Dev) (g : Grade) (a : Nat) (ws : List Nat) : Dev × Res :=
  if axesOf g ≤ a then (d, .badParam 2)
  else if !d.holdRest a then (d, .busy)
  else match d.paramBad g a ws with
    | some i => (d, .badParam (if i = 0 then 3 else 0))
    | none => ({ d with prf := { d.prf with paramNext := d.prf.paramNext ++ [(a, ws.take 15 ++ [0])] } }, .ok [])

/-- Meaning of PRF_PARAM_WRITE. -/
def execPrfParamWrite (p : Packet) (s : State) : Host.Outcome State Fault Refusal :=
  ok s (fun g d => d.runPacket g { opcode := 0x30A, priv := true, need := needN 17 } p (fun d ps =>
    d.prfParamWrite g (ps.getD 0 0) (ps.drop 1)))

end Sys2Proof.Machine
end

