-- ==== Sys2Proof/Machine/Trace.lean ====
section
/-!
DEFINITION. Machine/Trace.lean: trace capture and the injector commands of "Trace Memory and Frequency Response"
(R142 … R159). The evaluations into which injectors add are in Machine/Loop.lean.
-/
namespace Sys2Proof.Machine

/-! ### Geometry (R144, R145, R147) -/

/-- The bytes of a row with `nch` channels (R142). -/
def rowBytes (nch : Nat) : Nat := 4 * (2 + nch)

/-- The capture state: 0 IDLE, 1 ARMED, 2 TRIGGERED, 3 DONE (R146). -/
def Dev.trcState (d : Dev) : Nat := d.r Reg.TRC_STAT_STATE

/-- A capture is in progress. -/
def Dev.trcBusy (d : Dev) : Bool := d.trcState == 1 || d.trcState == 2

/-- A channel selection that R144 refuses. -/
def chanBad (w : Nat) : Bool :=
  match w / 2 ^ 28 with
  | 0 => false
  | 1 => decide (5 < bits w 7 3) || decide (9 < bits w 10 4)
  | 2 => bits w 7 2 == 3
  | 3 | 4 | 8 => bits w 8 2 == 3
  | 6 => decide (48 ≤ bits w 0 6)
  | 7 => decide (24 ≤ bits w 0 5)
  | 5 | 9 | 10 => false
  | _ => true

/-- A geometry that R145 refuses: its fields, or an end past 2 MiB. -/
def geometryBad (nch div base len : Nat) : Bool :=
  nch == 0 || decide (16 < nch) || div == 0 || base % 8 != 0 || len == 0 || decide (174762 < len) ||
    decide (2 ^ 21 < base + len * rowBytes nch)

/-- Reset the pointers of the capture (R147). -/
def Dev.trcPointers (d : Dev) : Dev :=
  let d := (((d.w Reg.TRC_WR_PTR 0).w Reg.TRC_MARK 0).w Reg.TRC_TRIG_ROW 0).w Reg.TRC_VALID_ROWS 0
  { d with trc := { d.trc with rows := 0, post := 0, pre := 0, trigPending := false } }

/-- What a geometry write in IDLE or DONE does beside the write (R147): IDLE, with the previous contents invalid. -/
def Dev.trcReset (d : Dev) : Dev :=
  let d := d.trcPointers.w Reg.TRC_STAT_STATE 0
  { d with trc := { d.trc with armPending := false, stopPending := false } }

/-- TRC_GEOMETRY_WRITE (R145, R147): register 0 TRC_FMT, 1 TRC_BASE, 2 TRC_LEN, 3 + c TRC_CHc. -/
def Dev.trcGeometryWrite (d : Dev) (sel v : Nat) : Dev :=
  if d.trcBusy then d.flag Reg.TRC_STAT_LEN_BUSY
  else
    let nch := if sel = 0 then bits v 16 5 else d.r Reg.TRC_FMT_NCH
    let div := if sel = 0 then v % 2 ^ 16 else d.r Reg.TRC_FMT_DIV
    let base := if sel = 1 then v % 2 ^ 21 else d.r Reg.TRC_BASE
    let len := if sel = 2 then v % 2 ^ 18 else d.r Reg.TRC_LEN
    let bad := if sel < 3 then geometryBad nch div base len else chanBad v
    if bad then d.flag Reg.TRC_STAT_CFG_BAD
    else
      let d := (((d.w Reg.TRC_FMT_NCH nch).w Reg.TRC_FMT_DIV div).w Reg.TRC_BASE base).w Reg.TRC_LEN len
      let d := if sel < 3 then d
        else (d.w (Reg.TRC_CH_SRC (sel - 3)) (v / 2 ^ 28)).w (Reg.TRC_CH_SEL (sel - 3)) v
      d.trcReset

/-- Meaning of TRC_GEOMETRY_WRITE. -/
def execTrcGeometryWrite (sel : Fin 19) (v : Word) (s : State) : Host.Outcome State Fault Refusal :=
  ok s (fun _ d => d.trcGeometryWrite sel.val v.toNat)

/-- A write of TRC_PRE, TRC_POST or TRC_TRIG, accepted in IDLE and DONE only. -/
def Dev.trcParamWrite (d : Dev) (a v : Nat) : Dev := if d.trcBusy then d.flag Reg.TRC_STAT_LEN_BUSY else d.putReg a v

/-! ### Arm, trigger, stop (R148 … R151) -/

/-- TRC_ARM (R148). -/
def Dev.trcArm (d : Dev) : Dev × Res :=
  let len := d.r Reg.TRC_LEN
  if d.trcBusy then (d.flag Reg.TRC_STAT_ARM_BAD, .busy)
  else if len ≤ d.r Reg.TRC_PRE ∨ d.r Reg.TRC_POST = 0 ∨ len < d.r Reg.TRC_POST then
    (d.flag Reg.TRC_STAT_ARM_BAD, .badParam 0)
  else
    let d := d.trcPointers
    ({ d with trc := { d.trc with armPending := true } }, .ok [loW d.nextEpoch, hiW d.nextEpoch])

/-- Meaning of TRC_CTRL_ARM. -/
def execTrcCtrlArm (s : State) : Host.Outcome State Fault Refusal := ok s (fun _ d => d.trcArm.1)

/-- Meaning of TRC_ARM. -/
def execTrcArm (p : Packet) (s : State) : Host.Outcome State Fault Refusal :=
  ok s (fun g d => d.runPacket g { opcode := 0xF02, need := needN 0 } p (fun d _ => d.trcArm))

/-- A stop takes effect at the next commit point (R151). -/
def Dev.trcStop (d : Dev) : Dev := { d with trc := { d.trc with stopPending := true } }

/-- Meaning of TRC_CTRL_STOP. -/
def execTrcCtrlStop (s : State) : Host.Outcome State Fault Refusal := ok s (fun _ d => d.trcStop)

/-- Meaning of TRC_STOP. -/
def execTrcStop (p : Packet) (s : State) : Host.Outcome State Fault Refusal :=
  ok s (fun g d => d.runPacket g { opcode := 0xF04, need := needN 0 } p (fun d _ => (d.trcStop, .ok [])))

/-- A command trigger: accepted in ARMED (R149, R159). -/
def Dev.trcTrigger (d : Dev) : Dev × Res :=
  if d.trcState = 1 then ({ d with trc := { d.trc with trigPending := true } }, .ok []) else (d, .busy)

/-- Meaning of TRC_CTRL_TRIG. -/
def execTrcCtrlTrig (s : State) : Host.Outcome State Fault Refusal := ok s (fun _ d => d.trcTrigger.1)

/-- Meaning of TRC_TRIGGER. -/
def execTrcTrigger (p : Packet) (s : State) : Host.Outcome State Fault Refusal :=
  ok s (fun g d => d.runPacket g { opcode := 0xF03, need := needN 0 } p (fun d _ => d.trcTrigger))

/-- A capture in progress is not preserved (R152): the capture state is IDLE. -/
def Dev.trcDrop (d : Dev) : Dev := if d.trcBusy then d.trcReset else d

/-! ### Rows (R142 … R144, R149 … R151) -/

/-- Bits of a 64-bit value that WORD selects (R144). -/
def wordSel (sel : Nat) (z : Int) : Nat := bits (un 64 z) (16 * (if sel = 2 then 2 else sel)) 32

/-- The node of a channel in the epoch `n` that commits: its value and whether it was produced in it; none repeats the
previous value (R143, R144). -/
def Dev.traceNode (d : Dev) (n w : Nat) : Option (Nat × Bool) :=
  let a := w % 128
  match w / 2 ^ 28 with
  | 0 => some (0, true)
  | 1 =>
    let c := bits w 7 3
    let k := bits w 10 4
    let x := d.lp a
    if 1 ≤ k ∧ k ≤ 8 ∧ bits (d.candWord a (d.bankOf a) c 0) 6 4 < k then some (0, false)
    else if x.evalNow then (x.nodes.find? (fun e => e.1 == 16 * c + k)).map (fun e => (un 32 e.2, true))
    else none
  | 2 => if (d.lp a).evalNow then ((d.lp a).nodes.find? (fun e => e.1 == 96 + bits w 7 2)).map (fun e => (un 32 e.2, true))
    else none
  | 3 => (d.axisNow a).map (fun z => (wordSel (bits w 8 2) z, true))
  | 4 => if d.prf.run then some (wordSel (bits w 8 2) (sx 64 (d.r (Reg.AX_SP a))), true) else none
  | 5 => if (d.lp a).evalNow then some (d.r (Reg.AXIS_FE a), true) else none
  | 6 => (d.adcNow (w % 64)).map (fun z => (un 32 z, true))
  | 7 => (d.encoderNow (w % 32)).map (fun z => (z % 2 ^ 32, true))
  | 8 =>
    let c := d.coord (w % 8)
    if 0 < c.taken ∧ c.sampleEpoch = n then some (wordSel (bits w 8 2) c.cur, true) else none
  | 9 =>
    let id := w % 2 ^ 18
    match d.ep.newest.recOf id with
    | some r => if r.isLocal && r.current then some (d.signal id, true) else none
    | none => none
  | _ =>
    let i := w % 4
    let x := d.injector i
    if x.now then some (un 32 x.value, true)
    else if (d.lp (d.r (Reg.INJ_NODE_AXIS i))).evalNow then some (0, true)
    else none

/-- The channel words of a row with FRESH (R142, R143). -/
def Dev.traceRow (d : Dev) (n : Nat) : List (Nat × Bool) :=
  (List.range (d.r Reg.TRC_FMT_NCH)).map (fun c =>
    (d.traceNode n (d.regWord (0xF0_0100 + 4 * c))).getD (Tab.look 0 c d.trc.last, false))

/-- The level trigger of source 1 between two successive captured rows (R62, R149). -/
def Dev.levelTrigger (d : Dev) (row : List (Nat × Bool)) : Bool :=
  let ch := d.r Reg.TRC_TRIG_CH
  let x := d.rs Reg.TRC_TRIG_X
  let prev := sx 32 (Tab.look 0 ch d.trc.last)
  match row[ch]? with
  | none => false
  | some v =>
    let cur := sx 32 v.1
    d.r Reg.TRC_TRIG_SRC == 1 && decide (0 < d.trc.rows) &&
      (if d.b Reg.TRC_TRIG_DIR then decide (cur < x ∧ x ≤ prev) else decide (prev < x ∧ x ≤ cur))

/-- An injector gave its first sample in this epoch. -/
def Dev.injStarted (d : Dev) (i : Nat) : Bool := (d.injector i).now && d.r (Reg.INJ_DONE i) == 1

/-- The selected condition occurred in the epoch that commits (R149). -/
def Dev.trcCondition (d : Dev) : Bool :=
  let i := d.r Reg.TRC_TRIG_INDEX
  match d.r Reg.TRC_TRIG_SRC with
  | 2 => d.trc.faultedNow.contains i
  | 3 => d.trc.firedNow.contains i
  | 4 => decide (i < 4) && d.injStarted i
  | 5 => d.trc.trippedNow.contains i
  | 6 => d.trc.overrunNow
  | _ => false

/-- Write a row at the write pointer and step the pointer (R142, R145). -/
def Dev.writeRow (d : Dev) (n : Nat) (row : List (Nat × Bool)) (trig : Bool) : Dev :=
  let fresh := (row.zip (List.range 16)).foldl (fun m e => setBit m e.2 e.1.2) 0
  let inj := [0, 1, 2, 3].any (fun i => (d.injector i).now)
  let w1 := fresh + b2n trig * 2 ^ 16 + b2n inj * 2 ^ 17 + b2n d.trc.overrunNow * 2 ^ 18
  let ptr := d.r Reg.TRC_WR_PTR
  let at' := d.r Reg.TRC_BASE + ptr * rowBytes (d.r Reg.TRC_FMT_NCH)
  let d := { d with trc := { d.trc with
    tmem := Mem.putWords d.trc.tmem at' (loW n :: w1 :: row.map (fun (e : Nat × Bool) => e.1)),
    last := (row.zip (List.range 16)).foldl (fun t (e : (Nat × Bool) × Nat) => Tab.put e.2 e.1.1 t) d.trc.last } }
  d.w Reg.TRC_WR_PTR ((ptr + 1) % d.r Reg.TRC_LEN)

/-- TRACE_TRIGGER (R150): the row at `row` is the trigger row of epoch `n`. -/
def Dev.trcFire (d : Dev) (n row : Nat) : Dev :=
  let len := d.r Reg.TRC_LEN
  let pre := d.r Reg.TRC_PRE
  let p := min d.trc.rows (min pre (len - d.r Reg.TRC_POST))
  let d := ((((d.w Reg.TRC_PRE_TRUNC (pre - p)).w Reg.TRC_MARK ((row + len - p) % len)).w Reg.TRC_TRIG_ROW row).w
    Reg.TRC_TRIG_EPOCH n).w Reg.TRC_STAT_STATE 2
  { d with trc := { d.trc with pre := p, post := 1, trigPending := false } }

/-- TRACE_ROW (R142 … R150): the row of epoch `n`, when the epoch is captured. -/
def Dev.captureRow (d : Dev) (n : Nat) : Dev :=
  let cond := d.trcState == 1 && (d.trc.trigPending || d.trcCondition)
  if (n - d.trc.nArm) % d.r Reg.TRC_FMT_DIV ≠ 0 then { d with trc := { d.trc with trigPending := cond } }
  else
    let row := d.traceRow n
    let fire := d.trcState == 1 && (cond || d.levelTrigger row)
    let at' := d.r Reg.TRC_WR_PTR
    let d := d.writeRow n row fire
    let d := if fire then d.trcFire n at'
      else if d.trcState = 1 then { d with trc := { d.trc with rows := d.trc.rows + 1 } }
      else { d with trc := { d.trc with post := d.trc.post + 1 } }
    if d.trcState = 2 ∧ d.r Reg.TRC_POST ≤ d.trc.post then
      (d.w Reg.TRC_STAT_STATE 3).w Reg.TRC_VALID_ROWS (d.trc.pre + d.trc.post)
    else d

/-- TRACE_STOP (R151). -/
def Dev.captureStop (d : Dev) : Dev :=
  let len := d.r Reg.TRC_LEN
  match d.trcState with
  | 2 => (d.w Reg.TRC_STAT_STATE 3).w Reg.TRC_VALID_ROWS (d.trc.pre + d.trc.post)
  | 1 =>
    let v := min d.trc.rows len
    (((d.w Reg.TRC_STAT_STATE 3).w Reg.TRC_VALID_ROWS v).w Reg.TRC_TRIG_ROW 0xFFFF_FFFF).w Reg.TRC_MARK
      ((d.r Reg.TRC_WR_PTR + len - v) % len)
  | _ => d

/-- Trace capture at the commit point of epoch `n`, after the image is built: the row, then a stop. -/
def Dev.traceCommit (d : Dev) (n : Nat) : Dev :=
  let d := if d.trcBusy && decide (d.trc.nArm ≤ n) then d.captureRow n else d
  let d := if d.trc.stopPending then d.captureStop else d
  { d with trc := { d.trc with
    stopPending := false, firedNow := [], trippedNow := [], faultedNow := [], overrunNow := false } }

/-- Trace capture at the boundary that begins epoch `n`: an arm takes effect (R148). -/
def Dev.traceBoundary (d : Dev) (n : Nat) : Dev :=
  if d.trc.armPending then
    let d := { d with trc := { d.trc with armPending := false, nArm := n } }
    d.w Reg.TRC_STAT_STATE 1
  else d

/-! ### Commands (R153, R158, R159) -/

/-- Meaning of TRC_INFO. -/
def execTrcInfo (p : Packet) (s : State) : Host.Outcome State Fault Refusal :=
  ok s (fun g d => d.runPacket g { opcode := 0xF00, need := needN 0 } p (fun d _ =>
    (d, .ok [d.regWord 0xF0_0004, d.r Reg.TRC_WR_PTR, d.r Reg.TRC_MARK, d.r Reg.TRC_TRIG_ROW, d.r Reg.TRC_PRE_TRUNC,
      d.r Reg.TRC_VALID_ROWS, loW (d.r Reg.TRC_TRIG_EPOCH), hiW (d.r Reg.TRC_TRIG_EPOCH)])))

/-- The first parameter of a TRC_SETUP that is refused, as its packet word. -/
def setupBad (ps : List Nat) : Option Nat :=
  let nch := bits (ps.getD 0 0) 16 5
  let div := ps.getD 0 0 % 2 ^ 16
  let base := ps.getD 1 0
  let len := ps.getD 2 0
  if nch == 0 || decide (16 < nch) || div == 0 then some 2
  else if base % 8 != 0 || decide (2 ^ 21 ≤ base) then some 3
  else if len == 0 || decide (174762 < len) || decide (2 ^ 21 < base + len * rowBytes nch) then some 4
  else if 2 ^ 18 ≤ ps.getD 3 0 then some 5
  else if 2 ^ 18 ≤ ps.getD 4 0 then some 6
  else if ps.getD 5 0 % 8 = 7 then some 7
  else ((List.range nch).find? (fun c => chanBad (ps.getD (7 + c) 0))).map (fun c => 9 + c)

/-- TRC_SETUP (R147, R159): all or nothing. -/
def Dev.trcSetup (d : Dev) (ps : List Nat) : Dev × Res :=
  if d.trcBusy then (d.flag Reg.TRC_STAT_LEN_BUSY, .busy)
  else match setupBad ps with
    | some w => (d.flag Reg.TRC_STAT_CFG_BAD, .badParam w)
    | none =>
      let d := d.each (List.range 7) (fun i d =>
        d.putReg ([0xF0_0008, 0xF0_000C, 0xF0_0010, 0xF0_0014, 0xF0_0018, 0xF0_001C, 0xF0_0020].getD i 0) (ps.getD i 0))
      let d := d.each (List.range (d.r Reg.TRC_FMT_NCH)) (fun c d => d.putReg (0xF0_0100 + 4 * c) (ps.getD (7 + c) 0))
      (d.trcReset, .ok [])

/-- Meaning of TRC_SETUP. -/
def execTrcSetup (p : Packet) (s : State) : Host.Outcome State Fault Refusal :=
  ok s (fun g d => d.runPacket g
    { opcode := 0xF01, need := fun ps => if ps.length < 7 then some 0 else needN (7 + bits (ps.getD 0 0) 16 5) ps } p
    (fun d ps => d.trcSetup ps))

/-- TRC_READ (R153): rows in time order from the mark; `unc` is the number of its rows with an uncorrectable memory
error. -/
def Dev.trcRead (d : Dev) (first count unc limit : Nat) : Dev × Res :=
  let nch := d.r Reg.TRC_FMT_NCH
  let words := 3 + count * (2 + nch)
  if limit < words then (d, .tooLong words)
  else if d.trcState ≠ 3 then (d, .busy)
  else if count = 0 ∨ 64 < count then (d, .badParam 3)
  else if d.r Reg.TRC_VALID_ROWS < first + count then (d, .badParam 2)
  else
    let len := d.r Reg.TRC_LEN
    let rows := (List.range count).flatMap (fun i =>
      Mem.words d.trc.tmem (d.r Reg.TRC_BASE + (d.r Reg.TRC_MARK + first + i) % len * rowBytes nch) (2 + nch))
    (d.add Reg.TRC_ECC_CNT_UNCORR (min unc count), .ok rows)

/-- Meaning of TRC_READ. -/
def execTrcRead (p : Packet) (unc : Nat) (s : State) : Host.Outcome State Fault Refusal :=
  ok s (fun g d => d.runPacket g { opcode := 0xF05, need := needN 2 } p (fun d ps =>
    d.trcRead (ps.getD 0 0) (ps.getD 1 0) unc (match p.origin with
      | .backbone _ _ _ => 367
      | _ => 1024)))

/-- INJ_START (R155, R156, R159). -/
def Dev.injStart (d : Dev) (i e : Nat) : Dev × Res :=
  let a := d.r (Reg.INJ_NODE_AXIS i)
  let wave := d.r (Reg.INJ_CTRL_WAVE i)
  let order := d.r (Reg.INJ_P1 i) % 32
  let seed := d.r (Reg.INJ_P0 i) % 2 ^ order
  if 4 ≤ i then (d, .badParam 2)
  else if d.b (Reg.INJ_STAT_ACTIVE i) then (d, .busy)
  else if e ≤ d.r Reg.EPK_NOW then (d, .past)
  else if !d.axisOn a || d.r (Reg.AXIS_STAT_FAULT a) != 0 || wave == 3 || d.r (Reg.INJ_COUNT i) == 0 ||
      (wave == 2 && ((prbsTap order).isNone || seed == 0)) ||
      [0, 1, 2, 3].any (fun j => j != i && d.b (Reg.INJ_STAT_ACTIVE j) && d.r (Reg.INJ_NODE_AXIS j) == a &&
        d.r (Reg.INJ_NODE_POINT j) == d.r (Reg.INJ_NODE_POINT i)) then (d, .badParam 0)
  else
    let d := d.setInjector i { start := e, inc := d.r (Reg.INJ_P0 i), lfsr := seed }
    ((d.flag (Reg.INJ_STAT_ACTIVE i)).w (Reg.INJ_DONE i) 0, .ok [])

/-- Meaning of INJ_START. -/
def execInjStart (p : Packet) (s : State) : Host.Outcome State Fault Refusal :=
  ok s (fun g d => d.runPacket g { opcode := 0xF10, priv := true, need := needN 3 } p (fun d ps =>
    d.injStart (ps.getD 0 0) (pair64 (ps.getD 1 0) (ps.getD 2 0))))

/-- Meaning of INJ_STOP. -/
def execInjStop (p : Packet) (s : State) : Host.Outcome State Fault Refusal :=
  ok s (fun g d => d.runPacket g { opcode := 0xF11, priv := true, need := needN 1 } p (fun d ps =>
    let i := ps.getD 0 0
    if 4 ≤ i then (d, .badParam 2) else (d.injStop i true, .ok [d.r (Reg.INJ_DONE i)])))

end Sys2Proof.Machine
end

