-- ==== Sys2Proof/Machine/Cerid.lean ====
section
/-!
DEFINITION. Machine/Cerid.lean: the module side of "Cerid Field Ring" (R305 … R336): the frames that a port sends, the
judgement of the slots that come back, ring starts, acyclic requests, breaks and paired closure.
-/
namespace Sys2Proof.Machine

/-! ### Ports -/

/-- The state of a port: 0 stopped, 1 starting, 2 running, 3 failed. -/
def Dev.crdState (d : Dev) (p : Nat) : Nat := d.r (Reg.CRD_PORT_STAT_STATE p)

/-- The port sends frames: running, or starting from phase 2 on (R331). -/
def Dev.ringSends (d : Dev) (p : Nat) : Bool := d.crdState p == 2 || (d.crdState p == 1 && decide (2 ≤ (d.rp p).phase))

/-- Set a flag of a port in its status and in CRD_STAT. -/
def Dev.portBreak (d : Dev) (p : Nat) (v : Bool) : Dev :=
  (d.wb (Reg.CRD_PORT_STAT_BREAK p) v).w Reg.CRD_STAT_BREAK (setBit (d.r Reg.CRD_STAT_BREAK) p v)

/-- Set the closure flag of a port. -/
def Dev.portClosed (d : Dev) (p : Nat) (v : Bool) : Dev :=
  (d.wb (Reg.CRD_PORT_STAT_CLOSED p) v).w Reg.CRD_STAT_CLOSED (setBit (d.r Reg.CRD_STAT_CLOSED) p v)

/-- Show whether a port sends frames. -/
def Dev.portRunning (d : Dev) (p : Nat) (v : Bool) : Dev :=
  d.w Reg.CRD_STAT_RUNNING (setBit (d.r Reg.CRD_STAT_RUNNING) p v)

/-- A configuration write of a port (CRD_PORT_CFG and the next three registers): only while it is stopped. -/
def Dev.crdCfgWrite (d : Dev) (p a v : Nat) : Dev :=
  if d.crdState p = 0 then d.putReg a v else d.flag Reg.CRD_STAT_CFG_BUSY

/-- A write of CRD_CFG: only while no port runs. -/
def Dev.crdTypeWrite (d : Dev) (v : Nat) : Dev :=
  if d.r Reg.CRD_STAT_RUNNING = 0 then d.putReg 0x70_0000 v else d.flag Reg.CRD_STAT_CFG_BUSY

/-- Meaning of CRD_LINK_CHANGE (R305): a link at another speed or duplex mode counts as down. -/
def execCrdLinkChange (p : Fin 4) (up rightMode : Bool) (s : State) : Host.Outcome State Fault Refusal :=
  ok s (fun _ d => d.wb (Reg.CRD_PORT_STAT_LINK p.val) (up && rightMode))

/-! ### Acyclic requests (R321) -/

/-- Put a request into the queue of a port, with the next sequence number. -/
def Dev.pushAcyc (d : Dev) (p target op addr d0 d1 purpose : Nat) : Dev :=
  let x := d.rp p
  let q := (x.seq + 1) % 256
  d.setRp p { x with seq := q, acyc := x.acyc ++ [⟨target, q, op, addr, d0, d1, purpose, 0, none⟩] }

/-- The key under which a command waits for the request queued last on a port. -/
def Dev.acycKey (d : Dev) (p : Nat) : Nat := 256 * p + (d.rp p).seq

/-- Start jobs are waiting or under way. -/
def RingPort.startBusy (x : RingPort) : Bool := x.acyc.any (fun j => j.purpose == 0x701)

/-- Record a failure of the present start phase (the first one stands). -/
def Dev.startFail (d : Dev) (p code : Nat) : Dev :=
  let x := d.rp p
  d.setRp p { x with startBad := some (x.startBad.getD code) }

/-- A start request is finished with this response (R331). -/
def Dev.startResult (d : Dev) (p : Nat) (j : AcycJob) (rsp : Option AcycRsp) : Dev :=
  let x := d.rp p
  match x.phase, rsp with
  | 2, some _ => if d.r (Reg.CRD_PORT_STAT_HOP p) = d.r (Reg.CRD_PORT_CFG_NODES p) then d else d.startFail p 2
  | 2, none => d.startFail p 2
  | 3, some r =>
    let e : NodeExpect := Tab.look {} j.target x.expect
    let good := r.status == 0 && (if j.addr = 0 then r.d0 == e.vendor && r.d1 == e.product
      else r.d0 % 2 ^ 30 == e.lat % 2 ^ 30)
    if good then d else d.startFail p 3
  | 3, none => d.startFail p 3
  | 4, some r => if r.status = 0 then d else d.startFail p 4
  | 4, none => d.startFail p 4
  | 5, some r => if r.status = 0 then d else d.startFail p 3
  | 5, none => d.startFail p 3
  | 6, some r => if bitOf r.d1 3 then d.setRp p { x with alignedNodes := j.target :: x.alignedNodes } else d
  | 7, some r => if r.status = 0 then d else d.startFail p 4
  | 7, none => d.startFail p 4
  | _, _ => d

/-- A request is finished: with its response, or with none after two retries. -/
def Dev.acycDone (d : Dev) (p : Nat) (j : AcycJob) (rsp : Option AcycRsp) : Dev :=
  let x := d.rp p
  let d := d.setRp p { x with acyc := x.acyc.drop 1 }
  let key := 256 * p + j.seq
  match j.purpose with
  | 0x701 => d.startResult p j rsp
  | 0x702 => (d.setRp p { d.rp p with stopNext := true }).settle 0x702 key (.ok [])
  | 0x705 => d.settle 0x705 key (match rsp with
      | some r => .ok [r.status, r.d0, r.d1]
      | none => .timeout)
  | op => d.settle op key (match rsp with
      | some r => .ok [r.status, r.count]
      | none => .timeout)

/-- The response of a returned frame of epoch `n` reaches the request that waits for it. -/
def Dev.acycReturn (d : Dev) (p n : Nat) (r : AcycRsp) : Dev :=
  match (d.rp p).acyc with
  | j :: _ =>
    if j.respIn == some n && r.valid && r.seq == j.seq && r.node == j.target then d.acycDone p j (some r) else d
  | [] => d

/-- ACYC_TIMEOUT (R321): the frame that should have brought the response of the foremost request is past; it is sent
again, at most twice, and then fails with TIMEOUT. -/
def Dev.acycTimeout (d : Dev) (p : Nat) : Dev :=
  let x := d.rp p
  match x.acyc with
  | j :: r =>
    match j.respIn with
    | some n =>
      if d.r Reg.EPK_NOW < n ∨ (d.r Reg.EPK_NOW = n ∧ x.returned.isNone) then d
      else if 3 ≤ j.sent then d.acycDone p j none
      else d.setRp p { x with acyc := { j with respIn := none } :: r }
    | none => d
  | [] => d

/-- Meaning of ACYC_TIMEOUT. -/
def execAcycTimeout (p : Fin 4) (s : State) : Host.Outcome State Fault Refusal := ok s (fun _ d => d.acycTimeout p.val)

/-! ### The frame that leaves at a boundary (R309 … R319) -/

/-- The active bank of some axis, enabled or not, names this out word (R316). -/
def Dev.loopNames (d : Dev) (p node word : Nat) : Bool :=
  (List.range 128).any (fun a => d.outOf a (d.bankOf a) == (1, p + 4 * node + 512 * word))

/-- Out words of a DATA slot; none when one of them received no value (R316). -/
def Dev.dataOut (d : Dev) (p : Nat) (s : SlotCfg) : Option (List Nat) :=
  let x := d.rp p
  let word (i : Nat) : Option Nat :=
    let w := s.firstOut + i
    if d.loopNames p s.node w then (x.outs.find? (fun e => e.1 == 64 * s.node + w)).map (·.2)
    else match s.outSig with
      | some base =>
        match d.ep.newest.recOf (base + i) with
        | some r => if r.current then some (d.signal (base + i) % 2 ^ 16) else none
        | none => none
      | none => none
  let ws := (List.range s.outWords).map word
  if ws.all Option.isSome then some (ws.map (fun o => o.getD 0)) else none

/-- Out words of a SAFE slot, as Bridle wrote them. -/
def Dev.safeOut (d : Dev) (p : Nat) (s : SlotCfg) : Option (List Nat) :=
  let ws := (List.range s.outWords).map (fun i => (((d.rp p).safeOuts.find? (fun e => e.1 == 64 * s.node + s.firstOut + i)).map
    (·.2)))
  if ws.all Option.isSome then some (ws.map (fun o => o.getD 0)) else none

/-- The axis whose set-points go to this slot (SP_OUT 1, R189). -/
def Dev.axisOfSlot (d : Dev) (p : Nat) (s : SlotCfg) : Option Nat :=
  (List.range 128).find? (fun a =>
    d.paramWord a 0 % 8 == 1 && bits (d.paramWord a 0) 3 15 == p + 4 * s.node + 512 * s.firstOut)

/-- A set-point as two slot words (R318). -/
def spWords (frac : Nat) (sp : Int) : List Nat :=
  let v := un 32 (ashr sp (24 - frac))
  [v % 2 ^ 16, v / 2 ^ 16]

/-- Out words of a SETPOINT slot and whether its mark is COMMIT (R318). -/
def Dev.setpointOut (d : Dev) (p : Nat) (s : SlotCfg) : Option (List Nat × Bool) :=
  match d.axisOfSlot p s with
  | none => none
  | some a =>
    let x := d.px a
    match x.star with
    | some st =>
      if d.prf.run then
        some (spWords s.spFrac x.sp ++ spWords s.spFrac st, !x.wdraw && (d.rp p).starSent.contains s.index)
      else none
    | none => none

/-- One TIMED entry for a frame whose boundary is at `b` ns (R319). -/
def timedWords (b : Nat) (e : TimedEntry) : List Nat :=
  let off := if e.late || e.wdraw then 0 else min ((e.instant - b) / 10) (2 ^ 17 - 1)
  let v := off + e.bit * 2 ^ 17 + b2n e.level * 2 ^ 21 + 2 ^ 22 + b2n e.wdraw * 2 ^ 23 + e.tag * 2 ^ 24
  [v % 2 ^ 16, v / 2 ^ 16]

/-- Entries of a TIMED slot: the first that fit leave, the rest become late switches (R319). -/
def Dev.timedOut (d : Dev) (p b : Nat) (s : SlotCfg) : Dev × List Nat :=
  let x := d.rp p
  let mine := x.timed.filter (fun e => e.node == s.node)
  let room := s.outWords / 2
  let sent := mine.take room
  let left := mine.drop room
  let ovr := (left.filter (fun e => !e.wdraw && !e.late)).length
  let words := sent.flatMap (timedWords b)
  let d := d.setRp p { x with
    timed := x.timed.filter (fun e => e.node != s.node) ++ left.map (fun e => { e with late := true }),
    sentTags := ((sent.filter (fun e => !e.wdraw)).map (fun e => (e.node, e.bit, e.instant, e.tag)) ++ x.sentTags).take 256 }
  ((d.add (Reg.CRD_TIMED_OVF_CNT p) ovr).add Reg.CAL_OVF_CNT ovr,
    words ++ List.replicate (s.outWords - words.length) 0)

/-- One slot of the frame: nothing is filled before the frame of E (R331). -/
def Dev.buildSlot (d : Dev) (p b : Nat) (fill : Bool) (s : SlotCfg) : Dev × FrameSlot :=
  let blank : FrameSlot := {
    node := s.node, outFilled := false, slot := s.slot, words := List.replicate (s.outWords + s.inWords) 0 }
  let full (ws : List Nat) : FrameSlot := { blank with outFilled := true, words := ws ++ List.replicate s.inWords 0 }
  let x := d.rp p
  if !fill then (d.setRp p { x with starSent := x.starSent.filter (· != s.index) }, blank)
  else match s.kind with
    | 0 => (d, (d.dataOut p s).elim blank full)
    | 1 =>
      match d.setpointOut p s with
      | some (ws, commit) =>
        (d.setRp p { x with starSent := s.index :: x.starSent.filter (· != s.index) },
          { full ws with commit := commit, wdraw := !commit })
      | none => (d.setRp p { x with starSent := x.starSent.filter (· != s.index) }, { blank with wdraw := true })
    | 2 =>
      let (d, ws) := d.timedOut p b s
      (d, full ws)
    | _ => (d, (d.safeOut p s).elim blank full)

/-- The timed outputs of the calendar reach the TIMED slots of their nodes (R68, R319); a withdrawal names the tag of its
switch, and one that has not left yet is dropped with it. -/
def Dev.takeTimed (d : Dev) : Dev :=
  let out := d.cal.ringOut
  let d := { d with cal := { d.cal with ringOut := [] } }
  d.each out (fun e d =>
    let (p, node, bit, instant, level, wd) := e
    let x := d.rp p
    let waits (t : TimedEntry) : Bool := t.node == node && t.bit == bit && t.instant == instant && !t.wdraw
    if wd then
      if x.timed.any waits then d.setRp p { x with timed := x.timed.filter (fun t => !waits t) }
      else
        let tag := ((x.sentTags.find? (fun t => t.1 == node && t.2.1 == bit && t.2.2.1 == instant)).map (·.2.2.2)).getD 0
        d.setRp p { x with timed := x.timed ++ [⟨node, bit, level, instant, false, true, tag⟩] }
    else
      let late := decide (instant < d.r Reg.EPK_ORIGIN + d.r Reg.EPK_NOW * d.te)
      d.setRp p { x with tag := (x.tag + 1) % 256, timed := x.timed ++ [⟨node, bit, level, instant, late, false, x.tag⟩] })

/-- An empty request or response area. -/
def noReq : AcycReq := ⟨0, false, 0, 0, 0, 0, 0⟩
def noRsp : AcycRsp := ⟨0, false, 0, 0, 0, 0, 0⟩

/-- The acyclic areas of the frame of epoch `n` (R321): the foremost request, or the response area of the one sent in the
frame before. -/
def Dev.acycAreas (d : Dev) (p n : Nat) : Dev × AcycReq × AcycRsp :=
  let x := d.rp p
  match x.acyc with
  | j :: r =>
    match j.respIn with
    | none =>
      (d.setRp p { x with acyc := { j with sent := j.sent + 1, respIn := some (n + 1) } :: r },
        ⟨j.target, true, j.seq, j.op, j.addr, j.d0, j.d1⟩, noRsp)
    | some m =>
      if m = n ∧ j.target = 127 then (d, noReq, ⟨127, true, j.seq, 0, 0, 0, 0⟩) else (d, noReq, noRsp)
  | [] => (d, noReq, noRsp)

/-- T_SEND of the frame of the present epoch on port `p`, in 2^-16 ns: from the egress count that puts the SFD at the MDI
at boundary + LEAD (R310, R311). -/
def Dev.sendTime (d : Dev) (p : Nat) : Nat :=
  let b := d.r Reg.EPK_ORIGIN + d.r Reg.EPK_NOW * d.te
  let lat := d.r (Reg.CRD_PORT_LAT_TX_LAT p)
  let c := d.countAt (b + d.r (Reg.CRD_LEAD p) - lat / 16)
  let a := d.anchorOf c
  (anchorTime a (20 * ((c : Int) - a.c) + lat) / 2 ^ 16).toNat

/-- TRACE_FRAME_SEND (R309 … R319, R331): the frame of the present epoch leaves port `p`. -/
def Dev.sendFrame (d : Dev) (p : Nat) : Dev :=
  let n := d.r Reg.EPK_NOW
  let b := d.r Reg.EPK_ORIGIN + n * d.te
  let fill := match (d.rp p).runEpoch with
    | some e => decide (e ≤ n) && d.r Reg.PAIR_STAT_STATE != 5
    | none => false
  let (d, slots) := (d.ringSlots p).foldl (fun (acc : Dev × List FrameSlot) s =>
    let (d, f) := acc.1.buildSlot p b fill s
    (d, acc.2 ++ [f])) (d, [])
  let (d, req, rsp) := d.acycAreas p n
  let t := d.sendTime p
  let f : TraceFrame := {
    ring := p, epochLo := loW n, tSend := t, lead := (t / 2 ^ 16 - b) % 2 ^ 16, k := d.r Reg.EPK_CFG_K,
    req := req, rsp := rsp, slots := slots }
  let x := d.rp p
  d.setRp p { x with frame := some f, tackSent := if x.closeFrom.isSome then some (.outData slots) else x.tackSent }

/-- As the partner, a closing frame with the slot content of the REIN holder (R334). -/
def Dev.sendClosing (d : Dev) (p : Nat) (slots : List FrameSlot) : Dev :=
  let n := d.r Reg.EPK_NOW
  let b := d.r Reg.EPK_ORIGIN + n * d.te
  let t := d.sendTime p
  let f : TraceFrame := {
    ring := p, origin := true, epochLo := loW n, tSend := t, lead := (t / 2 ^ 16 - b) % 2 ^ 16, k := d.r Reg.EPK_CFG_K,
    req := noReq, rsp := noRsp, slots := slots }
  d.setRp p { d.rp p with frame := some f, closeOut := none }

/-- A port stops (R336). -/
def Dev.stopPort (d : Dev) (p : Nat) : Dev :=
  let x := d.rp p
  let d := d.setRp p { x with
    stopNext := false, phase := 0, acyc := [], runEpoch := none, starSent := [], timed := [], closeFrom := none, lostRun := 0 }
  let d := d.each x.acyc (fun j d => d.settle j.purpose (256 * p + j.seq) (if j.purpose = 0x702 then .ok [] else .timeout))
  let d := d.settle 0x701 p (.failed 0)
  (((d.w (Reg.CRD_PORT_STAT_STATE p) 0).portRunning p false).portClosed p false).portBreak p false

/-- The ring ports at a boundary, in the epoch that starts. -/
def Dev.ringBoundary (d : Dev) : Dev :=
  let d := d.takeTimed
  d.each [0, 1, 2, 3] (fun p d =>
    let x := d.rp p
    let d := d.setRp p { x with ins := [], frame := none, returned := none, partner := none, judged := false }
    let d := if x.stopNext then d.stopPort p else d
    let sends := d.ringSends p && d.b Reg.PAIR_STAT_HOLDER && !d.b Reg.EPK_STAT_RESTEP_WAIT
    let d := (d.wb (Reg.CRD_PORT_STAT_MASTER p) sends).portRunning p sends
    let d := if sends then d.sendFrame p
      else match x.closeOut with
        | some slots => if d.b Reg.PAIR_STAT_HOLDER then d else d.sendClosing p slots
        | none => d
    -- a word is filled only if it receives a value for the frame (R316)
    d.setRp p { d.rp p with outs := [] })

/-! ### The frame that comes back (R315, R317, R332 … R334) -/

/-- The copy of a slot in a frame. -/
def frameSlotOf (f : TraceFrame) (s : SlotCfg) : Option FrameSlot :=
  f.slots.find? (fun x => x.node == s.node && x.slot == s.slot)

/-- A slot's in words from a returned copy; none when the copy is empty (R315). -/
def inWordsOf (f : Option TraceFrame) (s : SlotCfg) : Option (List Nat) :=
  match f.bind (fun f => frameSlotOf f s) with
  | some x => if x.filled && x.tally == 1 then some ((x.words.drop s.outWords).take s.inWords) else none
  | none => none

/-- The returned copy shows a tally other than 1. -/
def tallyBad (f : Option TraceFrame) (s : SlotCfg) : Bool :=
  match f.bind (fun f => frameSlotOf f s) with
  | some x => x.tally != 1
  | none => false

/-- SLOT_EMPTY (R315, R334): judge one slot from the two copies. -/
def Dev.judgeSlot (d : Dev) (p : Nat) (own far : Option TraceFrame) (s : SlotCfg) : Dev :=
  let i := s.index
  let mine := inWordsOf own s
  let theirs := inWordsOf far s
  let isFar := mine.isNone && theirs.isSome
  let d := d.wb (Reg.CRD_SLOT_STAT_FAR p i) isFar
  let d := if isFar then d.inc (Reg.CRD_FAR_CNT p) else d
  match (if mine.isSome then mine else theirs) with
  | some ws =>
    let x := d.rp p
    let d := d.setRp p { x with ins := (List.range ws.length).foldl (fun t k =>
      Tab.put (64 * s.node + s.firstIn + k) (ws.getD k 0) t) x.ins }
    let d := d.w (Reg.CRD_SLOT_STAT_EMPTY p i) 0
    match s.inSig with
    | some b => d.publish b (ws.map (fun w => un 32 (sx 16 w)))
    | none => d
  | none =>
    let d := (d.flag (Reg.CRD_SLOT_STAT_EMPTY p i)).inc (Reg.CRD_SLOT_STAT_EMPTY_CNT p i)
    if tallyBad own s then (d.inc (Reg.CRD_SLOT_STAT_TALLY_ERR p i)).inc (Reg.CRD_TALLY_CNT p) else d

/-- Judge the slots of the present epoch; with a ready instant the ring's feedback group is ready (R119). -/
def Dev.judgeRing (d : Dev) (p : Nat) (ready : Option Nat) : Dev :=
  let x := d.rp p
  let own := x.returned.map (·.1)
  let far := x.partner.map (·.1)
  let d := d.setRp p { x with judged := true }
  let d := d.each (d.ringSlots p) (fun s d => d.judgeSlot p own far s)
  match ready with
  | some ns => ((d.w (Reg.CRD_RET_NS p) (satU 16 ns)).wmax (Reg.CRD_RET_MAX p) (satU 16 ns)).groupReady p ns
  | none => d

/-- The expected TURN_POS: n in an unpaired ring, 127 in a paired one (R332). -/
def Dev.expectedTurn (d : Dev) (p : Nat) : Nat := if d.b (Reg.CRD_PORT_CFG_PAIRED p) then 127 else d.r (Reg.CRD_PORT_CFG_NODES p)

/-- CLOSURE_START (R334): in a paired ring with CLOSE_EN, with the tack link up and the partner in standby. -/
def Dev.startClosure (d : Dev) (p : Nat) : Dev :=
  let x := d.rp p
  let standby := match d.pair.peer with
    | some h => h.state == 3
    | none => false
  if d.b (Reg.CRD_PORT_CFG_PAIRED p) && d.b (Reg.CRD_PORT_CFG_CLOSE_EN p) && d.r Reg.PAIR_STAT_TACK_UP != 0 && standby &&
      x.closeFrom.isNone then
    (d.setRp p { x with closeFrom := some (d.r Reg.EPK_NOW + 2), goodRun := 0 }).portClosed p true
  else d

/-- The partner's copy is to be waited for in this epoch. -/
def Dev.needsFar (d : Dev) (p : Nat) : Bool :=
  match (d.rp p).closeFrom with
  | some n => decide (n ≤ d.r Reg.EPK_NOW)
  | none => false

/-- RING_BREAK (R332): HOP and TURN_POS of a returned frame are shown and judged. -/
def Dev.judgeLine (d : Dev) (p : Nat) (f : TraceFrame) : Dev :=
  let d := (d.w (Reg.CRD_PORT_STAT_HOP p) f.hop).w (Reg.CRD_PORT_STAT_TURN_POS p) f.turnPos
  let broken := decide (f.turnPos ≠ d.expectedTurn p) || decide (f.hop < d.r (Reg.CRD_PORT_CFG_NODES p))
  let was := d.b (Reg.CRD_PORT_STAT_BREAK p)
  if broken then
    let d := if was then d else (d.portBreak p true).inc (Reg.CRD_BREAK_CNT p)
    (d.setRp p { d.rp p with goodRun := 0 }).startClosure p
  else (d.portBreak p false).setRp p { d.rp p with goodRun := (d.rp p).goodRun + 1 }

/-- TRACE_FRAME_RETURN (R311, R315, R323, R332, R334): a frame comes back to port `p`, its SFD at count `cIn`, its last FCS
byte `readyNs` after the boundary. A frame that is wrong or late counts as lost at the deadline. -/
def Dev.frameReturn (d : Dev) (p : Nat) (f : TraceFrame) (cIn readyNs : Nat) : Dev :=
  let x := d.rp p
  let n := d.r Reg.EPK_NOW
  if x.frame.isNone ∨ x.judged ∨ x.returned.isSome ∨ f.epochLo ≠ loW n then d
  else if !f.fcsOk then (d.inc (Reg.CRD_FCS_CNT p)).flag (Reg.CRD_PORT_STAT_FCS_ERR p)
  else if d.te - d.ep.margin ≤ readyNs then d
  else
    let d := d.reach (max cIn (d.countAt (d.r Reg.EPK_ORIGIN + n * d.te + readyNs)))
    if f.origin then
      -- the partner's own closing frame is back: its in words go to the REIN holder (R334)
      d.setRp p { x with returned := some (f, readyNs), judged := true, tackSent := some (.inData f (readyNs + 1500)) }
    else
      let a := d.anchorOf cIn
      let z : Int := anchorTime a (20 * ((cIn : Int) - a.c) - d.r (Reg.CRD_PORT_LAT_RX_LAT p)) / 2 ^ 16
      let rt := (z - (f.tSend : Int)).toNat
      let rts := (rt :: x.rts).take 16
      let d := d.setRp p { x with returned := some (f, readyNs), lostRun := 0, rts := rts }
      let d := d.w (Reg.CRD_RT0 p) (satU 32 (rts.foldl (· + ·) 0 / rts.length))
      let d := d.judgeLine p f
      let d := d.acycReturn p n f.rsp
      if d.needsFar p then
        match (d.rp p).partner with
        | some (_, r) => d.judgeRing p (some (max r readyNs))
        | none => d
      else d.judgeRing p (some readyNs)

/-- Meaning of TRACE_FRAME_RETURN. -/
def execTraceFrameReturn (p : Fin 4) (f : TraceFrame) (cIn readyNs : Nat) (s : State) :
    Host.Outcome State Fault Refusal := ok s (fun _ d => d.frameReturn p.val f cIn readyNs)

/-- The ring ports at the epoch deadline (R315, R334): a frame that has not returned complete and correct is lost, and
every slot that no copy serves is empty; two lost frames in a row start closure. -/
def Dev.ringDeadline (d : Dev) : Dev :=
  d.each [0, 1, 2, 3] (fun p d =>
    let x := d.rp p
    if x.frame.isNone ∨ x.judged ∨ !d.b (Reg.CRD_PORT_STAT_MASTER p) then d
    else if x.returned.isSome then d.judgeRing p none
    else
      let d := (d.inc (Reg.CRD_LOST_CNT p)).flag (Reg.CRD_PORT_STAT_LOST p)
      let d := d.setRp p { x with lostRun := x.lostRun + 1, goodRun := 0 }
      let d := if x.lostRun + 1 ≥ 2 then d.startClosure p else d
      d.judgeRing p none)

/-- CLOSURE_END (R334): 64 consecutive good returns end closure. -/
def Dev.closureEnd (d : Dev) (p : Nat) : Dev :=
  let x := d.rp p
  if x.closeFrom.isSome ∧ 64 ≤ x.goodRun then (d.setRp p { x with closeFrom := none }).portClosed p false else d

/-- Meaning of CLOSURE_END. -/
def execClosureEnd (p : Fin 4) (s : State) : Host.Outcome State Fault Refusal := ok s (fun _ d => d.closureEnd p.val)

/-- PARTNER_FRAME_TURN (R307, R324): a module that does not hold REIN turns an outbound frame of a paired ring and reports
the MDI egress time over the tack link. -/
def Dev.partnerTurn (d : Dev) (p : Nat) (f : TraceFrame) (cOut : Nat) : Dev :=
  if d.b Reg.PAIR_STAT_HOLDER || !d.b (Reg.CRD_PORT_CFG_PAIRED p) || f.returning then d
  else
    let d := d.reach cOut
    let a := d.anchorOf cOut
    let t := (anchorTime a (20 * ((cOut : Int) - a.c) + d.r (Reg.CRD_PORT_LAT_TX_LAT p)) / 2 ^ 32).toNat
    d.setRp p { d.rp p with turned := some { f with returning := true, turnPos := 127 }, tackSent := some (.turn t) }

/-- Meaning of PARTNER_FRAME_TURN. -/
def execPartnerFrameTurn (p : Fin 4) (f : TraceFrame) (cOut : Nat) (s : State) : Host.Outcome State Fault Refusal :=
  ok s (fun _ d => d.partnerTurn p.val f cOut)

/-- TACK_CLOSURE_RECORD (R324, R334): a turn time or a closure record arrives. -/
def Dev.tackRecord (d : Dev) (p : Nat) (r : TackRec) : Dev :=
  let x := d.rp p
  if !d.b Reg.PAIR_CFG_PAIRED then d
  else match r with
    | .turn t => d.setRp p { x with tTurn := (t :: x.tTurn).take 16 }
    | .outData slots => if d.b Reg.PAIR_STAT_HOLDER then d else d.setRp p { x with closeOut := some slots }
    | .inData f ready =>
      if x.judged ∨ !d.needsFar p ∨ f.epochLo ≠ loW (d.r Reg.EPK_NOW) then d
      else
        let d := d.setRp p { x with partner := some (f, ready) }
        match x.returned with
        | some (_, r) => d.judgeRing p (some (max r ready))
        | none => d

/-- Meaning of TACK_CLOSURE_RECORD. -/
def execTackClosureRecord (p : Fin 4) (r : TackRec) (s : State) : Host.Outcome State Fault Refusal :=
  ok s (fun _ d => d.tackRecord p.val r)

/-! ### Ring start (R323, R324, R331) -/

/-- Numbers of the expected nodes. -/
def Dev.ringNodes (d : Dev) (p : Nat) : List Nat := (List.range (d.r (Reg.CRD_PORT_CFG_NODES p))).map (· + 1)

/-- The requests of a start phase. -/
def Dev.phaseJobs (d : Dev) (p k : Nat) : Dev :=
  let nodes := d.ringNodes p
  match k with
  | 2 => d.pushAcyc p 127 3 0 0 0 0x701
  | 3 => d.each nodes (fun i d => (d.pushAcyc p i 1 0x00 0 0 0x701).pushAcyc p i 1 0x18 0 0 0x701)
  | 4 =>
    let d := d.each (d.ringSlots p) (fun s d =>
      d.pushAcyc p s.node 2 (0x100 + 8 * s.slot)
        (1 + s.kind * 2 + s.firstOut * 2 ^ 3 + s.outWords * 2 ^ 9 + s.firstIn * 2 ^ 16 + s.inWords * 2 ^ 22) s.spFrac 0x701)
    let d := d.each nodes (fun i d =>
      d.pushAcyc p i 2 0x28 (d.r (Reg.CRD_PORT_CFG_HOLD p)) (d.r (Reg.CRD_APPLY p)) 0x701)
    d.pushAcyc p 127 4 2 0 0 0x701
  | 6 => d.each (nodes.filter (fun i => !(d.rp p).alignedNodes.contains i)) (fun i d => d.pushAcyc p i 1 0x20 0 0 0x701)
  | 7 =>
    let e := d.r Reg.EPK_NOW + 8
    let d := d.setRp p { d.rp p with runEpoch := some e }
    d.pushAcyc p 127 4 3 (loW e) (hiW e) 0x701
  | _ => d

/-- Phase `k` begins. -/
def Dev.beginPhase (d : Dev) (p k : Nat) : Dev :=
  (d.setRp p { d.rp p with
    phase := k, phaseC := d.time.c, startBad := none, delaysOut := false,
    rts := if k = 5 then [] else (d.rp p).rts, alignedNodes := if k = 6 then [] else (d.rp p).alignedNodes }).phaseJobs p k

/-- The start fails with a FAIL code (R331, R336). -/
def Dev.failStart (d : Dev) (p code : Nat) : Dev :=
  let x := d.rp p
  let d := d.setRp p { x with phase := 0, acyc := x.acyc.filter (fun j => j.purpose != 0x701), runEpoch := none }
  ((d.w (Reg.CRD_PORT_STAT_STATE p) 3).w (Reg.CRD_PORT_STAT_FAIL p) code).settle 0x701 p (.failed code)

/-- d_p − d_r of a node, ns (R323). -/
def nodeSkew (e : NodeExpect) : Int := (bits e.lat 0 10 : Int) - bits e.lat 10 10

/-- The delays of phase 5 (R323, R324): D_i into NODE_DELAY_U, and F_i into NODE_DELAY_D in a paired ring. `meas` gives for
each node the averages of RT_i and of B_i − T_turn, Q16.16 ns. -/
def Dev.writeDelays (d : Dev) (p : Nat) (meas : List (Int × Int)) : Dev :=
  let x := d.rp p
  let rt0 : Int := (x.rts.foldl (· + ·) 0 / x.rts.length : Nat)
  let nodes := d.ringNodes p
  let skew (l : List Nat) : Int := sumI (l.map (fun j => nodeSkew (Tab.look {} j x.expect) * 2 ^ 16))
  d.each nodes (fun i d =>
    let m := meas.getD (i - 1) (0, 0)
    let du := (rt0 - m.1 + skew (nodes.filter (· < i))) / 2
    let dd := if d.b (Reg.CRD_PORT_CFG_PAIRED p) then m.2 + skew (nodes.filter (i < ·)) else 0
    d.pushAcyc p i 2 0x58 (un 32 du) (un 32 dd) 0x701)

/-- CRD_START_PHASE (R331): the present phase of a ring start completes and the next begins, or the start fails. `timeUp`
says that the phase's time limit is reached; `meas` is what the nodes' timestamps gave in phase 5. -/
def Dev.startPhase (d : Dev) (p : Nat) (timeUp : Bool) (meas : List (Int × Int)) : Dev :=
  let x := d.rp p
  if d.crdState p ≠ 1 then d
  else match x.startBad with
    | some code => if x.startBusy then d else d.failStart p code
    | none =>
      match x.phase with
      | 1 =>
        if d.b (Reg.CRD_PORT_STAT_LINK p) then d.beginPhase p 2
        else if timeUp then (d.reach (x.phaseC + 3200000000)).failStart p 1
        else d
      | 5 =>
        if x.startBusy then d
        else if x.delaysOut then d.beginPhase p 6
        else if x.rts.length < 16 then d
        else (d.setRp p { x with delaysOut := true }).writeDelays p meas
      | 6 =>
        if x.startBusy ∧ ¬ timeUp then d
        else if (d.ringNodes p).all (fun i => x.alignedNodes.contains i) then d.beginPhase p 7
        else if timeUp then (d.reach (x.phaseC + 80000000)).failStart p 5
        else d.phaseJobs p 6
      | 7 =>
        if x.startBusy then d
        else
          let e := x.runEpoch.getD 0
          let d := (d.setRp p { x with phase := 0 }).w (Reg.CRD_PORT_STAT_STATE p) 2
          d.settle 0x701 p (.ok [d.regWord (0x70_1010 + 0x100 * p), loW e, hiW e])
      | k => if x.startBusy then d else d.beginPhase p (k + 1)

/-- Meaning of CRD_START_PHASE. -/
def execCrdStartPhase (p : Fin 4) (timeUp : Bool) (meas : List (Int × Int)) (s : State) :
    Host.Outcome State Fault Refusal := ok s (fun _ d => d.startPhase p.val timeUp meas)

/-! ### Commands (R335, R336) -/

/-- Words of a port's status and counters. -/
def Dev.portWord (d : Dev) (p off : Nat) : Nat := d.regWord (0x70_1000 + 0x100 * p + off)

/-- The port exists in the grade. -/
def portFitted (g : Grade) (ps : List Nat) : Bool := decide (ps.getD 0 0 < ringsOf g)

/-- Meaning of CRD_INFO. -/
def execCrdInfo (p : Packet) (s : State) : Host.Outcome State Fault Refusal :=
  ok s (fun g d => d.runPacket g { opcode := 0x700, need := needN 0 } p (fun d _ =>
    (d, .ok (d.regWord 0x70_0004 :: [0, 1, 2, 3].map (fun n => if n < ringsOf g then d.portWord n 0x10 else 0)))))

/-- CRD_START begins the start of a stopped port (R331); also used at boot (R576). -/
def Dev.startPort (d : Dev) (p : Nat) : Dev :=
  ((d.w (Reg.CRD_PORT_STAT_STATE p) 1).w (Reg.CRD_PORT_STAT_FAIL p) 0).beginPhase p 1

/-- Meaning of CRD_START: it answers when phase 7 completes, or with FAILED and the FAIL code. -/
def execCrdStart (p : Packet) (s : State) : Host.Outcome State Fault Refusal :=
  ok s (fun g d =>
    let spec : CmdSpec := { opcode := 0x701, priv := true, fitted := portFitted, need := needN 1 }
    d.runPacketW g spec p (fun d ps =>
      let n := ps.getD 0 0
      if d.crdState n ≠ 0 then (d, some .busy) else ((d.startPort n).wait spec p n 0, none)))

/-- Meaning of CRD_STOP: a SAFE broadcast, and sending stops at the boundary after its response or its time-out. -/
def execCrdStop (p : Packet) (s : State) : Host.Outcome State Fault Refusal :=
  ok s (fun g d =>
    let spec : CmdSpec := { opcode := 0x702, priv := true, fitted := portFitted, need := needN 1 }
    d.runPacketW g spec p (fun d ps =>
      let n := ps.getD 0 0
      if d.crdState n = 0 then (d, some (.ok []))
      else if !d.ringSends n then (d.setRp n { d.rp n with stopNext := true }, some (.ok []))
      else
        let d := d.pushAcyc n 127 4 5 0 0 0x702
        (d.wait spec p (d.acycKey n) 0, none)))

/-- Meaning of CRD_PORT_READ. -/
def execCrdPortRead (p : Packet) (s : State) : Host.Outcome State Fault Refusal :=
  ok s (fun g d => d.runPacket g { opcode := 0x703, fitted := portFitted, need := needN 1 } p (fun d ps =>
    (d, .ok ([0x10, 0x14, 0x18, 0x1C, 0x20, 0x24, 0x28, 0x2C, 0x30, 0x34].map (d.portWord (ps.getD 0 0))))))

/-- Meaning of CRD_SLOT_READ. -/
def execCrdSlotRead (p : Packet) (s : State) : Host.Outcome State Fault Refusal :=
  ok s (fun g d => d.runPacket g
    { opcode := 0x704, fitted := portFitted, need := needN 3, replyLen := fun ps => 5 + ps.getD 2 0 } p (fun d ps =>
      let i := ps.getD 1 0
      let n := ps.getD 2 0
      if 256 ≤ i then (d, .badParam 3)
      else if n < 1 ∨ 64 < n ∨ 256 < i + n then (d, .badParam 4)
      else
        (d, .ok (d.frontWords ++ (List.range n).map (fun k => d.ofFront.regWord (0x72_0000 + 0x400 * ps.getD 0 0 + 4 * (i + k)))))))

/-- A request to a node that waits for its response; a port that sends no frames can bring none. -/
def Dev.nodeRequest (d : Dev) (spec : CmdSpec) (p : Packet) (port target op addr d0 d1 : Nat) : Dev × Option Res :=
  if !d.ringSends port then (d, some .timeout)
  else
    let d := d.pushAcyc port target op addr d0 d1 spec.opcode
    (d.wait spec p (d.acycKey port) 0, none)

/-- Meaning of CRD_NODE_READ. -/
def execCrdNodeRead (p : Packet) (s : State) : Host.Outcome State Fault Refusal :=
  ok s (fun g d =>
    let spec : CmdSpec := { opcode := 0x705, fitted := portFitted, need := needN 3 }
    d.runPacketW g spec p (fun d ps =>
      let n := ps.getD 1 0
      if n < 1 ∨ 125 < n then (d, some (.badParam 3))
      else d.nodeRequest spec p (ps.getD 0 0) n 1 (ps.getD 2 0) 0 0))

/-- Meaning of CRD_NODE_WRITE. -/
def execCrdNodeWrite (p : Packet) (s : State) : Host.Outcome State Fault Refusal :=
  ok s (fun g d =>
    let spec : CmdSpec := { opcode := 0x706, priv := true, fitted := portFitted, need := needN 5 }
    d.runPacketW g spec p (fun d ps =>
      let n := ps.getD 1 0
      if n ≠ 127 ∧ (n < 1 ∨ 125 < n) then (d, some (.badParam 3))
      else d.nodeRequest spec p (ps.getD 0 0) n 2 (ps.getD 2 0) (ps.getD 3 0) (ps.getD 4 0)))

/-- Meaning of CRD_NODE_STATE: state 2 READY, 3 RUN with its epoch, 5 SAFE. The frame that carries the request is at the
earliest that of the next epoch. -/
def execCrdNodeState (p : Packet) (s : State) : Host.Outcome State Fault Refusal :=
  ok s (fun g d =>
    let spec : CmdSpec := {
      opcode := 0x707, priv := true, fitted := portFitted,
      need := fun ps => if ps.getD 2 0 = 3 then needN 5 ps else needN 3 ps }
    d.runPacketW g spec p (fun d ps =>
      let n := ps.getD 1 0
      let st := ps.getD 2 0
      let e := pair64 (ps.getD 3 0) (ps.getD 4 0)
      if n ≠ 127 ∧ (n < 1 ∨ 125 < n) then (d, some (.badParam 3))
      else if ¬ (st = 2 ∨ st = 3 ∨ st = 5) then (d, some (.badParam 4))
      else if st = 3 ∧ e ≤ d.r Reg.EPK_NOW + 1 then (d, some .past)
      else d.nodeRequest spec p (ps.getD 0 0) n 4 st (loW e) (hiW e)))

end Sys2Proof.Machine
end

