-- ==== Sys2Proof/Machine/RingNode.lean ====
section
/-!
DEFINITION. Machine/RingNode.lean: the node side of "Cerid Field Ring" (R307 … R332): what a node does with a frame, its
slots, clock, acyclic requests, states, holds and safe states.
-/
namespace Sys2Proof.Machine

/-- Node at position `pos` of ring `ring`. -/
def Dev.node (d : Dev) (ring pos : Nat) : NodeX := Tab.look {} (128 * ring + pos) d.crd.nodes

/-- Change a node. -/
def Dev.setNode (d : Dev) (ring pos : Nat) (x : NodeX) : Dev :=
  { d with crd := { d.crd with nodes := Tab.put (128 * ring + pos) x d.crd.nodes } }

/-- Change a node by a function of itself. -/
def Dev.onNode (d : Dev) (ring : Fin 4) (pos : Fin 126) (f : NodeX → NodeX) : Dev :=
  d.setNode ring.val pos.val (f (d.node ring.val pos.val))

/-- A NODE_SLOT register pair (R322). -/
structure NodeSlot where
  index : Nat
  kind : Nat
  firstOut : Nat
  outWords : Nat
  firstIn : Nat
  inWords : Nat
  frac : Nat
deriving DecidableEq, Repr

/-- The valid slots of a node, rising. -/
def NodeX.slotList (x : NodeX) : List NodeSlot :=
  x.slots.filterMap (fun e =>
    let w := e.2.1
    if bitOf w 0 then some ⟨e.1, bits w 1 2, bits w 3 6, bits w 9 7, bits w 16 6, bits w 22 7, bits e.2.2 0 5⟩ else none)

/-- RUN or HOLD: out data is applied (R329). -/
def NodeX.live (x : NodeX) : Bool := x.st == 3 || x.st == 4

/-- The node enters SAFE: its outputs are in the declared safe state (R329). -/
def NodeX.enterSafe (x : NodeX) : NodeX := { x with st := 5, timed := [], wdraws := [], runAt := none }

/-- A number grows by one, saturating at 32 bits. -/
def sat32 (n : Nat) : Nat := min (n + 1) 0xFFFF_FFFF

/-! ### Clock alignment (R325) -/

/-- NODE_CLOCK_ALIGN (R325): the node steps its clock at the first frame with a delay written, then trims its rate and
judges ALIGNED. `t` is the arrival timestamp in 2^-16 ns. -/
def NodeX.align (x : NodeX) (fromU : Bool) (t : Int) (f : TraceFrame) : NodeX :=
  match (if fromU then x.delayU else x.delayD) with
  | none => x
  | some dl =>
    let e := t - (f.tSend + dl : Nat)
    let x := { x with clkErr := satS 32 (e / 2 ^ 16) }
    if !x.stepped then { x with stepped := true, clock := x.clock - e }
    else
      let good := if e.natAbs < 20 * 2 ^ 16 then x.goodClk + 1 else 0
      let bad := if 100 * 2 ^ 16 ≤ e.natAbs then x.badClk + 1 else 0
      let x := { x with
        goodClk := good, badClk := bad, rate := clampI (-500000) 500000 (Config.nodeRate e),
        aligned := (x.aligned || decide (16 ≤ good)) && decide (bad < 4) }
      if bad ≥ 4 ∧ x.live then x.enterSafe else x

/-! ### Frames (R307 … R314, R318, R319, R328) -/

/-- The node forwards or turns an outbound frame (R307, R332). -/
def NodeX.route (x : NodeX) (fromU : Bool) (f : TraceFrame) : NodeX :=
  let ahead := if fromU then x.dLink else x.uLink
  if ahead then { x with fwd := some f }
  else
    { x with fwd := some { f with returning := true, turnPos := if f.version = 1 then x.number else f.turnPos },
             tsZ := if fromU then x.tsA + bits x.lat 20 10 else x.tsZ }

/-- Unwrap a 32-bit value against the previous one (R54, R318). -/
def unwrap32 (prev : Option Int) (w : Nat) : Int :=
  match prev with
  | some p => p + sx 32 (un 32 ((w : Int) - p))
  | none => sx 32 w

/-- The set-points of a SETPOINT slot (R318). -/
def NodeX.takeSetpoint (x : NodeX) (s : Nat) (fs : FrameSlot) : NodeX :=
  let w (i : Nat) : Nat := fs.words.getD i 0
  let old := (x.sp.find? (fun e => e.1 == s)).map (·.2)
  let sp := unwrap32 old (w 0 + w 1 * 2 ^ 16)
  let star := unwrap32 (some sp) (w 2 + w 3 * 2 ^ 16)
  let had := (x.spStar.find? (fun e => e.1 == s)).isSome
  { x with
    sp := Tab.put s sp x.sp, spStar := Tab.put s star x.spStar,
    spDiff := Tab.put s (match old with
      | some o => sp - o
      | none => 0) x.spDiff,
    spKept := if fs.commit && had then s :: x.spKept.filter (· != s) else x.spKept.filter (· != s) }

/-- The entries of a TIMED slot (R319): switches at their instants, not before the apply instant; withdrawals at it. -/
def NodeX.takeTimed (x : NodeX) (fs : FrameSlot) (n : Nat) : NodeX :=
  (List.range (n / 2)).foldl (fun x i =>
    let v := fs.words.getD (2 * i) 0 + fs.words.getD (2 * i + 1) 0 * 2 ^ 16
    let bit := bits v 17 4
    let lv := bitOf v 21
    let tag := bits v 24 8
    if !bitOf v 22 then x
    else if bitOf v 23 then { x with wdraws := x.wdraws ++ [(bit, lv, tag)] }
    else { x with timed := x.timed ++ [(bit, x.boundary + max (10 * bits v 0 17) x.apply, lv, tag)] }) x

/-- SLOT_PROCESS (R314): one own slot of the frame: out words read when the FCS is right, in words written when all of them
are samples of this epoch, TALLY counted. -/
def NodeX.takeSlot (x : NodeX) (good : Bool) (sample : List (Nat × Nat)) (c : NodeSlot) (fs : FrameSlot) :
    NodeX × FrameSlot :=
  let out := good && fs.outFilled
  let x1 := if out then
      { x with
        present := setBit x.present c.index true,
        rx := (List.range c.outWords).foldl (fun t i => Tab.put (c.firstOut + i) (fs.words.getD i 0) t) x.rx }
    else if c.kind = 1 then { x with spStar := Tab.del c.index x.spStar } else x
  let x1 := if out && x1.live then
      (match c.kind with
        | 1 => x1.takeSetpoint c.index fs
        | 2 => x1.takeTimed fs c.outWords
        | _ => x1)
    else x1
  let ins := (List.range c.inWords).map (fun i => (sample.find? (fun e => e.1 == c.firstIn + i)).map (·.2))
  let fill := ins.all Option.isSome && (x.st != 2 || x.aligned)
  (x1, { fs with
    tally := (fs.tally + 1) % 256, filled := fill || fs.filled,
    words := if fill then fs.words.take c.outWords ++ ins.map (fun o => o.getD 0) else fs.words })

/-- Process the slots of a frame in frame order (R314). -/
def NodeX.takeSlots (x : NodeX) (good : Bool) (sample : List (Nat × Nat)) :
    List FrameSlot → NodeX × List FrameSlot
  | [] => (x, [])
  | fs :: r =>
    let mine := if fs.node = x.number then x.slotList.find? (fun c => c.index == fs.slot) else none
    let (x1, fs1) := match mine with
      | some c => x.takeSlot good sample c fs
      | none => (x, fs)
    let (x2, r2) := x1.takeSlots good sample r
    (x2, fs1 :: r2)

/-- A RUN request whose epoch has come takes effect (R329). -/
def NodeX.runDue (x : NodeX) : NodeX :=
  match x.runAt with
  | some e => if x.st = 2 ∧ un 32 ((x.epoch : Int) - e) < 2 ^ 31 then { x with st := 3, runAt := none, noFrame := 0 } else x
  | none => x

/-- The acyclic response prepared before goes into the response area of this frame (R321). -/
def NodeX.putResponse (x : NodeX) (r : AcycRsp) : NodeX × AcycRsp :=
  match x.rsp with
  | none => (x, r)
  | some a =>
    let x1 := { x with rsp := none }
    if a.node = 127 then
      if r.valid && r.node == 127 && r.seq == a.seq then
        (x1, { r with status := r.status ||| a.status, count := r.count + a.count })
      else (x1, r)
    else (x1, a)

/-- The node takes the acyclic request of the frame (R321, R329): only an ADDRESS broadcast while OFFLINE. -/
def NodeX.takeRequest (x : NodeX) (q : AcycReq) (hop : Nat) : NodeX :=
  let mine := q.valid && (q.target == 127 || (x.number != 0 && q.target == x.number))
  if mine && (x.st != 0 || (q.op == 3 && q.target == 127)) then { x with req := some (q, hop) } else x

/-- NODE_FRAME_RECEIVE (R307 … R314, R325, R328): a frame reaches the node on U or D; `ours` says that it carries the
ring's EtherType, `a` is the arrival on the node's free-running clock in 2^-16 ns, `sample` its in words that are samples of
this epoch. -/
def NodeX.receive (x : NodeX) (fromU ours : Bool) (a : Nat) (f : TraceFrame) (sample : List (Nat × Nat)) : NodeX :=
  let t := (a : Int) + x.clock
  let tns := (t / 2 ^ 16).toNat
  if !ours then { x with errCnt := sat32 x.errCnt, fwd := none }
  else if f.returning then
    { x with fwd := some f, tsB := if fromU then x.tsB else tns, tsZ := if fromU then x.tsZ else tns + bits x.lat 10 10 }
  else if f.version ≠ 1 then ({ x with errCnt := sat32 x.errCnt }).route fromU f
  else
    let x := { x with tsA := if fromU then tns else x.tsA, errCnt := if f.fcsOk then x.errCnt else sat32 x.errCnt }
    let f1 := { f with hop := min 127 (f.hop + 1) }
    let (x, rsp) := x.putResponse f1.rsp
    let f1 := { f1 with rsp := rsp }
    let x := if f.fcsOk then x.takeRequest f.req f.hop else x
    let b : Nat := f.tSend / 2 ^ 16 - f.lead
    let again := x.processed && x.epoch == f.epochLo
    if x.st = 0 ∨ again then x.route fromU f1
    else
      let x := if f.fcsOk then x.align fromU t f else x
      let t2 := (a : Int) + x.clock
      let inside := !x.stepped || decide ((b : Int) * 2 ^ 16 ≤ t2 ∧ t2 < ((b + x.apply : Nat) : Int) * 2 ^ 16)
      if !inside then x.route fromU f1
      else
        let x := ({ x with epoch := f.epochLo, boundary := b, processed := true, valid := f.fcsOk }).runDue
        if f.slots.any (fun s => decide (128 < s.words.length)) then ({ x with errCnt := sat32 x.errCnt }).route fromU f1
        else if x.st = 1 then x.route fromU f1
        else
          let (x, slots) := x.takeSlots f.fcsOk sample f1.slots
          x.route fromU { f1 with slots := slots }

/-- Meaning of NODE_FRAME_RECEIVE. -/
def execNodeFrameReceive (ring : Fin 4) (pos : Fin 126) (fromU ours : Bool) (a : Nat) (f : TraceFrame)
    (sample : List (Nat × Nat)) (s : State) : Host.Outcome State Fault Refusal :=
  ok s (fun _ d => d.onNode ring pos (fun x => x.receive fromU ours a f sample))

/-! ### The apply instant (R319, R320, R329, R330) -/

/-- Execute the withdrawals of the apply instant (R319). -/
def NodeX.withdraw (x : NodeX) : NodeX :=
  x.wdraws.foldl (fun x w =>
    { x with timed := x.timed.filter (fun t => !(t.1 == w.1 && t.2.2.2 == w.2.2)), outBits := setBit x.outBits w.1 w.2.1 })
    { x with wdraws := [] }

/-- Slots that carry out data. -/
def NodeX.outSlots (x : NodeX) : List NodeSlot := x.slotList.filter (fun c => decide (0 < c.outWords))

/-- NODE_APPLY (R320, R329, R330): DATA out words become effective, withdrawals are made, and the epoch's frame is judged;
slots without out data are held. -/
def NodeX.applyInstant (x : NodeX) : NodeX :=
  let x := x.runDue
  let good := x.processed && x.valid
  let x := if good || x.st == 0 then { x with noFrame := 0 }
    else { x with noFrame := x.noFrame + 1, lostCnt := sat32 x.lostCnt }
  let x := if !x.live then x
    else
      let here (c : NodeSlot) : Bool := good && bitOf x.present c.index
      let heldNow := x.outSlots.filter (fun c => !here c)
      let x1 := x.outSlots.foldl (fun (x : NodeX) c =>
        if here c then
          { x with
            heldRun := Tab.del c.index x.heldRun, safeSlots := setBit x.safeSlots c.index false,
            outs := if c.kind = 0 ∨ c.kind = 3 then
                (List.range c.outWords).foldl (fun t i => Tab.put (c.firstOut + i) (Tab.look 0 (c.firstOut + i) x.rx) t) x.outs
              else x.outs }
        else
          { x with
            heldRun := Tab.put c.index (Tab.look 0 c.index x.heldRun + 1) x.heldRun,
            spStar := if c.kind = 1 then Tab.del c.index x.spStar else x.spStar,
            sp := if c.kind = 1 then
                (match x.sp.find? (fun e => e.1 == c.index) with
                  | some e => Tab.put c.index (e.2 + Tab.look 0 c.index x.spDiff) x.sp
                  | none => x.sp)
              else x.sp }) x
      let mask := heldNow.foldl (fun m c => setBit m c.index true) 0
      let x1 := x1.withdraw
      { x1 with
        held := mask, st := if good && heldNow.isEmpty then 3 else 4,
        emptyCnt := if heldNow.isEmpty then x1.emptyCnt else sat32 x1.emptyCnt }
  { x with processed := false, valid := false, present := 0, rx := [], epoch := (x.epoch + 1) % 2 ^ 32 }

/-- Meaning of NODE_APPLY. -/
def execNodeApply (ring : Fin 4) (pos : Fin 126) (s : State) : Host.Outcome State Fault Refusal :=
  ok s (fun _ d => d.onNode ring pos NodeX.applyInstant)

/-- NODE_TIMED_SWITCH (R319): the switches of the earliest instant are made, the later entry deciding. -/
def NodeX.timedSwitch (x : NodeX) : NodeX :=
  match x.timed with
  | [] => x
  | e :: r =>
    let t := r.foldl (fun m y => min m y.2.1) e.2.1
    let x1 := if x.live then
        (x.timed.filter (fun y => y.2.1 == t)).foldl (fun (x : NodeX) y => { x with outBits := setBit x.outBits y.1 y.2.2.1 }) x
      else x
    { x1 with timed := x.timed.filter (fun y => y.2.1 != t) }

/-- Meaning of NODE_TIMED_SWITCH. -/
def execNodeTimedSwitch (ring : Fin 4) (pos : Fin 126) (s : State) : Host.Outcome State Fault Refusal :=
  ok s (fun _ d => d.onNode ring pos NodeX.timedSwitch)

/-- NODE_HOLD_EXPIRE (R329, R330): after NODE_HOLD epochs without a valid frame the node enters SAFE; a slot held as long
brings its own outputs to the safe state. -/
def NodeX.holdExpire (x : NodeX) : NodeX :=
  if x.st ≠ 4 then x
  else if 0 < x.noFrame ∧ x.hold ≤ x.noFrame then x.enterSafe
  else
    x.heldRun.foldl (fun (x : NodeX) e => if x.hold ≤ e.2 then { x with safeSlots := setBit x.safeSlots e.1 true } else x) x

/-- Meaning of NODE_HOLD_EXPIRE. -/
def execNodeHoldExpire (ring : Fin 4) (pos : Fin 126) (s : State) : Host.Outcome State Fault Refusal :=
  ok s (fun _ d => d.onNode ring pos NodeX.holdExpire)

/-! ### Links, reset and faults (R307, R329, R332, R457) -/

/-- Set a link of a node. -/
def NodeX.setLink (x : NodeX) (upstream up : Bool) : NodeX := if upstream then { x with uLink := up } else { x with dLink := up }

/-- Meaning of NODE_LINK_DOWN: from now on the node turns what it would send there (R332). -/
def execNodeLinkDown (ring : Fin 4) (pos : Fin 126) (upstream : Bool) (s : State) : Host.Outcome State Fault Refusal :=
  ok s (fun _ d => d.onNode ring pos (fun x => x.setLink upstream false))

/-- Meaning of NODE_LINK_UP (R307). -/
def execNodeLinkUp (ring : Fin 4) (pos : Fin 126) (upstream : Bool) (s : State) : Host.Outcome State Fault Refusal :=
  ok s (fun _ d => d.onNode ring pos (fun x => x.setLink upstream true))

/-- NODE_RESET (R329): OFFLINE; only what is fixed in the node and its links remain. -/
def NodeX.restart (x : NodeX) : NodeX :=
  { vendor := x.vendor, product := x.product, serial := x.serial, rev := x.rev, lat := x.lat,
    uLink := x.uLink, dLink := x.dLink }

/-- Meaning of NODE_RESET. -/
def execNodeReset (ring : Fin 4) (pos : Fin 126) (s : State) : Host.Outcome State Fault Refusal :=
  ok s (fun _ d => d.onNode ring pos NodeX.restart)

/-- NODE_WATCHDOG_EXPIRE (R457): a node with a SAFE slot reaches its safe state, STO for a drive. -/
def NodeX.watchdog (x : NodeX) : NodeX :=
  let safe := x.slotList.filter (fun c => c.kind == 3)
  if safe.isEmpty then x
  else { x with sto := true, safeSlots := safe.foldl (fun m c => setBit m c.index true) x.safeSlots }

/-- Meaning of NODE_WATCHDOG_EXPIRE. -/
def execNodeWatchdogExpire (ring : Fin 4) (pos : Fin 126) (s : State) : Host.Outcome State Fault Refusal :=
  ok s (fun _ d => d.onNode ring pos NodeX.watchdog)

/-- NODE_INTERNAL_FAULT (R329): a node in RUN or HOLD enters SAFE; `persists` says whether the cause stays. -/
def NodeX.internalFault (x : NodeX) (persists : Bool) : NodeX :=
  if x.live then { x.enterSafe with safeCause := persists } else x

/-- Meaning of NODE_INTERNAL_FAULT. -/
def execNodeInternalFault (ring : Fin 4) (pos : Fin 126) (persists : Bool) (s : State) :
    Host.Outcome State Fault Refusal := ok s (fun _ d => d.onNode ring pos (fun x => x.internalFault persists))

/-! ### Acyclic requests at a node (R321, R322, R329) -/

/-- The word of NODE_STATE. -/
def NodeX.stateWord (x : NodeX) : Nat := x.st + b2n x.aligned * 8 + x.held % 2 ^ 16 * 16

/-- The register pair at an address; none where there is no register (R322). -/
def NodeX.regPair (x : NodeX) (a : Nat) : Option (Nat × Nat) :=
  match a with
  | 0x00 => some (x.vendor, x.product)
  | 0x08 => some (loW x.serial, hiW x.serial)
  | 0x10 => some (x.rev, 0)
  | 0x18 => some (x.lat, 0)
  | 0x20 => some (x.number, x.stateWord)
  | 0x28 => some (x.hold, x.apply)
  | 0x30 => some (un 32 x.clkErr, 0)
  | 0x38 => some (loW x.tsA, hiW x.tsA)
  | 0x40 => some (loW x.tsZ, hiW x.tsZ)
  | 0x48 => some (loW x.tsB, hiW x.tsB)
  | 0x50 => some (0, 0)
  | 0x58 => some (x.delayU.getD 0, x.delayD.getD 0)
  | 0x60 => some (x.emptyCnt, x.errCnt)
  | 0x68 => some (x.lostCnt, 0)
  | _ => if 0x100 ≤ a ∧ a < 0x180 ∧ a % 8 = 0 then some (Tab.look (0, 0) ((a - 0x100) / 8) x.slots) else none

/-- A WRITE of a register pair: the node after it and the status (0 OK, 1 BAD_ADDR, 2 REFUSED). -/
def NodeX.writePair (x : NodeX) (a d0 d1 : Nat) : NodeX × Nat :=
  let setup := x.st == 1 || x.st == 2
  if (x.regPair a).isNone then (x, 1)
  else if a = 0x28 then
    if setup && decide (d0 ≤ 16) then ({ x with hold := d0, apply := d1 % 2 ^ 20 }, 0) else (x, 2)
  else if a = 0x58 then (if x.live then (x, 2) else ({ x with delayU := some d0, delayD := some d1 }, 0))
  else if 0x100 ≤ a then
    if setup then ({ x with slots := Tab.put ((a - 0x100) / 8) (d0, d1) x.slots }, 0) else (x, 2)
  else (x, 2)

/-- The slot configuration is valid: slots inside the 64 words, not overlapping, SETPOINT slots of 4 out words, TIMED slots
of whole entries, at most one of them (R313, R316). -/
def NodeX.configOk (x : NodeX) : Bool :=
  let l := x.slotList
  let outs := l.flatMap (fun c => (List.range c.outWords).map (· + c.firstOut))
  let ins := l.flatMap (fun c => (List.range c.inWords).map (· + c.firstIn))
  l.all (fun c => decide (c.firstOut + c.outWords ≤ 64) && decide (c.firstIn + c.inWords ≤ 64) &&
    (c.kind != 1 || c.outWords == 4) && (c.kind != 2 || c.outWords % 2 == 0)) &&
  outs.eraseDups.length == outs.length && ins.eraseDups.length == ins.length &&
  decide ((l.filter (fun c => c.kind == 2)).length ≤ 1)

/-- A STATE request (R329): 2 READY, 3 RUN for an epoch, 5 SAFE; what the table does not allow is REFUSED. -/
def NodeX.stateRequest (x : NodeX) (st e : Nat) : NodeX × Nat :=
  match st with
  | 2 =>
    if (x.st = 1 ∨ x.st = 5) ∧ x.configOk ∧ ¬ x.safeCause then
      ({ x with st := 2, held := 0, heldRun := [], noFrame := 0, safeSlots := 0, sto := false }, 0)
    else (x, 2)
  | 3 => if x.st = 2 ∧ x.aligned then ({ x with runAt := some e }, 0) else (x, 2)
  | 5 => if x.live then (x.enterSafe, 0) else (x, 2)
  | _ => (x, 2)

/-- Prepare the response for the next frame; a broadcast is counted where it was executed. -/
def NodeX.respond (x : NodeX) (q : AcycReq) (status d0 d1 : Nat) : NodeX :=
  let all := q.target == 127
  { x with
    req := none,
    rsp := some ⟨if all then 127 else x.number, true, q.seq, status, if all && status == 0 then 1 else 0, d0, d1⟩ }

/-- The request that waits at the node, when it has this operation. -/
def NodeX.withReq (x : NodeX) (op : Nat) (f : AcycReq → Nat → NodeX) : NodeX :=
  match x.req with
  | some (q, hop) => if q.op = op then f q hop else x
  | none => x

/-- ACYC_READ (R321): two registers; refused in a broadcast with BAD_ADDR. -/
def NodeX.acycRead (x : NodeX) : NodeX :=
  x.withReq 1 (fun q _ =>
    if q.target = 127 then x.respond q 1 0 0
    else match x.regPair q.addr with
      | some (a, b) => x.respond q 0 a b
      | none => x.respond q 1 0 0)

/-- Meaning of ACYC_READ. -/
def execAcycRead (ring : Fin 4) (pos : Fin 126) (s : State) : Host.Outcome State Fault Refusal :=
  ok s (fun _ d => d.onNode ring pos NodeX.acycRead)

/-- ACYC_WRITE (R321, R322). -/
def NodeX.acycWrite (x : NodeX) : NodeX :=
  x.withReq 2 (fun q _ => let (x1, st) := x.writePair q.addr q.d0 q.d1; x1.respond q st 0 0)

/-- Meaning of ACYC_WRITE. -/
def execAcycWrite (ring : Fin 4) (pos : Fin 126) (s : State) : Host.Outcome State Fault Refusal :=
  ok s (fun _ d => d.onNode ring pos NodeX.acycWrite)

/-- ACYC_ADDRESS (R321, R328, R329): as a broadcast every node takes HOP + 1 on arrival as its number, and an OFFLINE node
is ADDRESSED; to a single node it is refused with BAD_ADDR. -/
def NodeX.acycAddress (x : NodeX) : NodeX :=
  x.withReq 3 (fun q hop =>
    if q.target ≠ 127 then x.respond q 1 0 0
    else ({ x with number := hop + 1, st := if x.st = 0 then 1 else x.st }).respond q 0 0 0)

/-- Meaning of ACYC_ADDRESS. -/
def execAcycAddress (ring : Fin 4) (pos : Fin 126) (s : State) : Host.Outcome State Fault Refusal :=
  ok s (fun _ d => d.onNode ring pos NodeX.acycAddress)

/-- ACYC_STATE (R329). -/
def NodeX.acycState (x : NodeX) : NodeX :=
  x.withReq 4 (fun q _ => let (x1, st) := x.stateRequest q.addr q.d0; x1.respond q st 0 0)

/-- Meaning of ACYC_STATE. -/
def execAcycState (ring : Fin 4) (pos : Fin 126) (s : State) : Host.Outcome State Fault Refusal :=
  ok s (fun _ d => d.onNode ring pos NodeX.acycState)

end Sys2Proof.Machine
end

