-- ==== Sys2Proof/Machine/Ostler.lean ====
section
/-!
DEFINITION. Machine/Ostler.lean: work items, their releases, dispatch and end, and the Girth power budget of "Ostler
Scheduling and the Girth Power Budget" (R407 … R428).
-/
namespace Sys2Proof.Machine

/-! ### Descriptors (R407) -/

/-- Host address of word `w` of descriptor `i`. -/
def descAddr (i w : Nat) : Nat := 0xA2_0000 + 32 * i + 4 * w

/-- Word `w` of descriptor `i`. -/
def Dev.descWord (d : Dev) (i w : Nat) : Nat := d.mw (descAddr i w)

/-- The descriptor is of the service class. -/
def Dev.isService (d : Dev) (i : Nat) : Bool := bitOf (d.descWord i 0) 30

/-- The descriptor is enabled. -/
def Dev.descOn (d : Dev) (i : Nat) : Bool := bitOf (d.descWord i 0) 31

def Dev.levelOf (d : Dev) (i : Nat) : Nat := bits (d.descWord i 0) 25 5
def Dev.eclassOf (d : Dev) (i : Nat) : Nat := bits (d.descWord i 0) 22 3
def Dev.homeOf (d : Dev) (i : Nat) : Nat := bits (d.descWord i 0) 18 4

/-- STATE: 0 IDLE, 1 DELAYED, 2 READY, 3 RUNNING. -/
def Dev.descState (d : Dev) (i : Nat) : Nat := d.descWord i 7 % 4

/-- Set STATE. -/
def Dev.setDescState (d : Dev) (i st : Nat) : Dev := d.putMw (descAddr i 7) (putBits (d.descWord i 7) 0 2 st)

/-- The local publications that a descriptor names, first signal and count (R407). -/
def Dev.pubsOf (d : Dev) (i : Nat) : List (Nat × Nat) :=
  let w := d.descWord i 5
  [bits w 0 10, bits w 16 10].filterMap (fun k => if k = 0x3FF then none else (d.ep.pubs[k]?).map (fun p => (p.base, p.count)))

/-! ### Ticks (R409) -/

/-- The domain time of the next tick, ns. -/
def Dev.nextTickNs (d : Dev) : Nat :=
  if d.ost.tick < d.ticksPerEpoch then d.boundaryNs + 1000 * d.ost.tick else d.boundaryNs + d.te

/-- The first tick not earlier than `t` ns. -/
def Dev.tickFrom (d : Dev) (t : Nat) : Nat :=
  let off := t - d.r Reg.EPK_ORIGIN
  let b := d.r Reg.EPK_ORIGIN + off / d.te * d.te
  let i := cdiv (off % d.te) 1000
  if i < d.ticksPerEpoch then b + 1000 * i else b + d.te

/-! ### Dispatch trace (R426) -/

/-- DISPATCH_TRACE_RECORD (R426): a record of an enabled kind, through the queue of 32. -/
def Dev.ostRecord (d : Dev) (desc core kind info code : Nat) : Dev :=
  if !d.b Reg.OST_TRC_CTRL_EN || !bitOf (d.r Reg.OST_TRC_CTRL_KIND_MASK) kind then d
  else
    let c := d.time.c
    let fill := d.ost.trcFill - (c - d.ost.trcC)
    if 32 ≤ fill then ({ d with ost := { d.ost with trcFill := fill, trcC := c } }).inc Reg.OST_TRC_LOST
    else
      let r := d.r Reg.OST_TRC_WR_NEXT
      let seq := d.ost.trcSeq
      let d := { d with
        mem := Mem.putWords d.mem (0xA1_0000 + 16 * r)
          [desc % 2 ^ 12 + core % 16 * 2 ^ 12 + kind * 2 ^ 16 + info % 16 * 2 ^ 20 + code % 256 * 2 ^ 24,
           d.r Reg.EPK_NOW % 2 ^ 16 + seq * 2 ^ 16, loW c, hiW c],
        ost := { d.ost with trcSeq := (seq + 1) % 2 ^ 16, trcFill := fill + 1, trcC := c } }
      let d := d.w Reg.OST_TRC_WR_NEXT (r + 1)
      let d := if r + 1 = 4096 then d.incWrap Reg.OST_TRC_WR_WRAPS else d
      if kind = 2 ∧ (info = 3 ∨ info = 4) ∧ d.b Reg.OST_TRC_CTRL_STOP_ON_OVR then d.w Reg.OST_TRC_CTRL_EN 0 else d

/-! ### Dispatch and end of an item (R373, R400, R412, R415 … R419) -/

/-- A Hackney core. -/
def Dev.core (d : Dev) (c : Nat) : HkCore := Tab.look {} c d.hk.cores

/-- Change a Hackney core. -/
def Dev.setCore (d : Dev) (c : Nat) (x : HkCore) : Dev := { d with hk := { d.hk with cores := Tab.put c x d.hk.cores } }

/-- The core runs no item. -/
def Dev.coreIdle (d : Dev) (c : Nat) : Bool := bitOf (d.r Reg.OST_IDLE) c

/-- Dispatch (R373, R400): the core starts at the item's entry in the state of R400, with the last committed values of its
publications in the staging view. `at'` is the instant of its first instruction. -/
def Dev.dispatch (d : Dev) (c i at' power : Nat) : Dev :=
  let x := d.core c
  let pubs := d.pubsOf i
  let n := d.r Reg.EPK_NOW
  let regs : Tab Nat := [(1, i), (2, d.descWord i 2), (3, loW n), (31, 0x0003_0000)]
  let y : HkCore := {
    imem := x.imem, dmem := x.dmem, regs := regs, pc := bits (d.descWord i 0) 0 16, cmdq := x.cmdq,
    cqOverrun := x.cqOverrun, popLeft := x.popLeft, item := i, relEpoch := n, startC := d.countAt at', pubs := pubs,
    staging := pubs.foldl (fun m p => copySignals d.ep.newest.vals m p.1 p.2) [] }
  let d := (d.setCore c y).setDescState i 3
  let d := ((d.w (Reg.HK_STAT_ITEM c) i).w (Reg.HK_STAT_STATE c) 1).w (Reg.HK_PC c) y.pc
  let d := (d.w Reg.OST_IDLE (setBit (d.r Reg.OST_IDLE) c false)).inc Reg.OST_DISPATCH_CNT
  let d := { d with ost := { d.ost with running := Tab.put c ⟨i, !d.isService i, at', power⟩ d.ost.running } }
  d.ostRecord i c 1 (d.eclassOf i) 0

/-- CYCLIC_DISPATCH (R412): the next cyclic item of the core's queue starts at `at'` when the core is idle. -/
def Dev.cyclicDispatch (d : Dev) (c at' : Nat) : Dev :=
  match Tab.look [] c d.ost.cycq with
  | i :: r =>
    if d.coreIdle c then
      ({ d with ost := { d.ost with cycq := Tab.put c r d.ost.cycq } }).dispatch c i at' 0
    else d
  | [] => d

/-- RELEASE_DROP (R410): a dropped release, with the reason of R426. -/
def Dev.dropRelease (d : Dev) (i why : Nat) : Dev := ((d.inc Reg.OST_DROP_CNT).flag Reg.OST_STAT_DROP).ostRecord i 0 3 why 0

/-- The instance's end in word 7 (R419). -/
def Dev.setEnd (d : Dev) (i code last : Nat) : Dev :=
  let w := d.descWord i 7
  let ovr := bits w 16 16
  let ovr := if code = 3 ∨ code = 4 then satU 16 (ovr + 1) else ovr
  d.putMw (descAddr i 7) (code * 2 ^ 4 + last % 256 * 2 ^ 8 + ovr * 2 ^ 16)

/-- The counters of an end code, and the overrun of its publications (R23, R415, R417). -/
def Dev.countEnd (d : Dev) (i code : Nat) : Dev :=
  if code = 1 ∨ code = 2 then d.inc Reg.OST_FAIL_CNT
  else if code = 3 ∨ code = 4 then
    ((d.inc Reg.OST_OVR_CNT).overrun).each (d.pubsOf i) (fun p d => d.overrunPub p.1)
  else d

/-- An offset of shared work memory lies in the Sage partition (R281). -/
def Dev.inSagePart (d : Dev) (off : Nat) : Bool :=
  let b := d.r Reg.SAGE_SWM_BASE * 2 ^ 16
  decide (b ≤ off ∧ off < b + d.r Reg.SAGE_SWM_SIZE * 2 ^ 16)

/-- A buffered store becomes visible (R374, R375): in shared work memory, or as a word pushed at the command port (R404);
the staging view has it already. -/
def Dev.completeStore (d : Dev) (c : Nat) (s : BufStore) : Dev :=
  if 0x1000_0000 ≤ s.addr ∧ s.addr < 0x10C0_0000 then
    if d.inSagePart (s.addr - 0x1000_0000) then d.inc (Reg.HK_SWM_IGN c)
    else { d with hk := { d.hk with swm := Mem.write d.hk.swm (s.addr - 0x1000_0000) s.size s.val } }
  else if s.addr = 0x4000_0000 then
    let x := d.core c
    if x.cmdq.length < 1024 then d.setCore c { x with cmdq := x.cmdq ++ [W s.val] }
    else d.setCore c { x with cqOverrun := true }
  else d

/-- STORE_BUFFER_DRAIN (R374): the stores that are visible by cycle `t` leave the buffer, oldest first. -/
def Dev.drainTo (d : Dev) (c t : Nat) : Dev :=
  let x := d.core c
  let d := d.setCore c { x with buffer := x.buffer.filter (fun s => decide (t < s.due)) }
  d.each (x.buffer.filter (fun s => decide (s.due ≤ t))) (fun s d => d.completeStore c s)

/-- Every store in the buffer becomes visible. -/
def Dev.drainAll (d : Dev) (c : Nat) : Dev :=
  let l := (d.core c).buffer
  let d := d.setCore c { d.core c with buffer := [] }
  d.each l (fun s d => d.completeStore c s)

/-- An instance ends (R373, R415 … R419): the stores in the buffer complete, a complete item's staged values are
committed, its chain release is made, and the next cyclic item of the core starts 25 ns later. -/
def Dev.ostEnd (d : Dev) (c code last : Nat) : Dev :=
  match d.ost.running.find? (fun e => e.1 == c) with
  | none => d
  | some (_, run) =>
    let i := run.desc
    let d := d.drainAll c
    let x := d.core c
    let d := d.setCore c { x with waiting := .none, inHandler := false, rep := none, slot := 0, ldPend := none }
    let d := (d.wmax (Reg.HK_CYC_MAX c) (satU 32 x.cycle)).w (Reg.HK_STAT_STATE c) 0
    let d := (d.w (Reg.HK_STAT_IN_HANDLER c) 0).w (Reg.HK_STAT_IN_REP c) 0
    let d := d.w Reg.OST_IDLE (setBit (d.r Reg.OST_IDLE) c true)
    let d := { d with ost := { d.ost with running := Tab.del c d.ost.running } }
    let d := (d.setEnd i code last).countEnd i code
    let d := d.ostRecord i c 2 code last
    let d := if code = 0 then
        d.each x.pubs (fun p d => d.publish p.1 ((List.range p.2).map (fun k => Mem.word x.staging (4 * (p.1 + k))))) else d
    let w6 := d.descWord i 6
    let d := if code = 0 ∧ bitOf w6 12 then
        { d with ost := { d.ost with nextTick := d.ost.nextTick ++ [bits w6 0 12] } } else d
    let endNs := max d.nowNs ((d.timeAt (x.startC + x.cycle)) / 2 ^ 32)
    d.cyclicDispatch c (endNs + 25)

/-! ### Girth (R421 … R425) -/

/-- Cyclic cores as a mask, and the largest class power of each (R413, R421). -/
def Dev.cyclicCores (d : Dev) (on : List Nat) : List (Nat × Nat) :=
  let cyc := on.filter (fun i => !d.isService i)
  (List.range 16).filterMap (fun c =>
    let mine := cyc.filter (fun i => d.homeOf i == c)
    if mine.isEmpty then none
    else some (c, (mine.map (fun i => d.r (Reg.GIRTH_CLASS (d.eclassOf i)))).foldl max 0))

/-- P_CYC for a set of enabled descriptors. -/
def Dev.pCyc (d : Dev) (on : List Nat) : Nat := ((d.cyclicCores on).map (·.2)).foldl (· + ·) 0

/-- The floor for a set of enabled descriptors (R422). -/
def Dev.floorFor (d : Dev) (on : List Nat) : Nat :=
  d.r Reg.GIRTH_BASE_P_LOOP + d.r Reg.GIRTH_BASE_P_BASE + d.ost.ioMax + d.pCyc on

/-- P_IO: the standing power of the enabled ports, lanes and converters (R421). -/
def Dev.pIo (d : Dev) : Nat :=
  let rings := ([0, 1, 2, 3].filter (fun p => d.crdState p != 0)).length
  let usx := if d.r Reg.TLB_STAT_STATE = 0 then 0
    else ([0, 1, 2, 3].filter (fun p => d.b (Reg.TLB_PORT_STAT_LINK p))).length
  let tack := if d.b Reg.PAIR_CFG_PAIRED then popcount 2 (d.r Reg.PAIR_STAT_TACK_UP) else 0
  let used (c : Nat) : Bool := (List.range 24).any (fun t => [0, 1, 2, 3].any (fun j =>
    d.b (Reg.TEAM_ADC_CMP_ENABLE t j) && convOf (d.r (Reg.TEAM_ADC_CMP_INPUT t j)) == c))
  let adc := ((List.range 8).filter used).length
  rings * d.r Reg.GIRTH_IO0_SGMII + usx * d.r Reg.GIRTH_IO0_USX + tack * d.r Reg.GIRTH_IO1_TACK + adc * d.r Reg.GIRTH_IO1_ADC

/-- U: the power of the running service items and the present Sage grant (R424). -/
def Dev.girthUsed (d : Dev) : Nat := (d.ost.running.map (fun e => e.2.power)).foldl (· + ·) 0 + d.ost.sagePower

/-- P_SH × f (R421, R423). -/
def Dev.girthPool (d : Dev) : Nat :=
  (d.ost.budget - (d.r Reg.GIRTH_BASE_P_LOOP + d.r Reg.GIRTH_BASE_P_BASE + d.pIo + d.pCyc d.ost.enabled)) *
    d.r Reg.GIRTH_STAT_F16 / 16

/-- Show the figures of Girth. -/
def Dev.showGirth (d : Dev) : Dev :=
  let d := (d.w Reg.GIRTH_STAND_P_IO (satU 16 d.pIo)).w Reg.GIRTH_STAND_P_CYC (satU 16 (d.pCyc d.ost.enabled))
  (d.w Reg.GIRTH_POOL_PSHF (satU 16 d.girthPool)).w Reg.GIRTH_POOL_U (satU 16 d.girthUsed)

/-- The cyclic cores and the floor change with the enabled descriptors. -/
def Dev.showFloor (d : Dev) : Dev :=
  (d.w Reg.OST_CORE_CYC ((d.cyclicCores d.ost.enabled).foldl (fun m e => setBit m e.1 true) 0)).w Reg.GIRTH_FLOOR
    (satU 16 (d.floorFor d.ost.enabled))

/-- A budget within its range and not below the floor (R422). -/
def Dev.budgetOk (d : Dev) (v : Nat) : Bool := decide (12000 ≤ v) && decide (v ≤ 38000) && decide (d.floorFor d.ost.enabled ≤ v)

/-- GIRTH_BUDGET_WRITE (R422): applies at the next tick, or is ignored with BAD_BUDGET. -/
def Dev.budgetWrite (d : Dev) (v : Nat) : Dev :=
  if d.budgetOk (v % 2 ^ 16) then
    ({ d with ost := { d.ost with budgetNext := some (v % 2 ^ 16) } }).w Reg.GIRTH_BUDGET_BUDGET_MW v
  else d.flag Reg.GIRTH_STAT_BAD_BUDGET

/-- Meaning of GIRTH_BUDGET_WRITE. -/
def execGirthBudgetWrite (path : Path) (v : Word) (s : State) : Host.Outcome State Fault Refusal :=
  ok s (fun _ d => d.access path true true (fun d => d.budgetWrite v.toNat))

/-- A write of a class power (R422): ignored when it would raise the floor above the budget. -/
def Dev.classWrite (d : Dev) (k v : Nat) : Dev :=
  let e := d.w (Reg.GIRTH_CLASS k) v
  if e.floorFor d.ost.enabled ≤ d.ost.budget then e.showFloor else d.flag Reg.GIRTH_STAT_BAD_BUDGET

/-- GIRTH_DERATE (R423): T_J, averaged over 1 ms, in sixteenths of a degree. -/
def Dev.derate (d : Dev) (tj : Int) : Dev :=
  let f := (min 16 (max 0 ((1680 - tj) / 10))).toNat
  let d := (d.w Reg.GIRTH_STAT_F16 f).wb Reg.GIRTH_STAT_DERATING (decide (f < 16))
  let d := d.ws Reg.GIRTH_TJ_NOW (satS 16 tj)
  let d := if sx 16 (d.r Reg.GIRTH_TJ_MAX) < satS 16 tj then d.ws Reg.GIRTH_TJ_MAX (satS 16 tj) else d
  if 1840 ≤ tj then
    d.withHealth (fun d => (d.flag Reg.GIRTH_STAT_THERM_CRIT).flag Reg.GLB_HEALTH_THERM) else d

/-- Meaning of GIRTH_DERATE. -/
def execGirthDerate (tj : Int) (s : State) : Host.Outcome State Fault Refusal := ok s (fun _ d => (d.derate tj).pins)

/-- Sage asks for lanes at the tick at `t` ns (R298). -/
def Dev.sageWants (d : Dev) (t : Nat) : Bool := d.sage.laneReq && decide (d.sage.reqNs ≤ t)

/-- SAGE_LANE_GRANT (R424): the largest of 32, 16 and 8 lanes, no more than the grade has, whose power fits; 0 when none
does. -/
def Dev.laneGrant (d : Dev) (g : Grade) : Dev :=
  let pool := d.girthPool
  let u := d.girthUsed
  let power (n : Nat) : Nat := if n = 32 then d.r Reg.GIRTH_SAGE1_P32 else if n = 16 then d.r Reg.GIRTH_SAGE0_P16 else d.r Reg.GIRTH_SAGE0_P8
  let pick := ([32, 16, 8].filter (fun n => decide (n ≤ lanesOf g))).find? (fun n => decide (u + power n ≤ pool))
  let n := pick.getD 0
  let d := { d with
    ost := { d.ost with sagePower := if n = 0 then 0 else power n },
    sage := { d.sage with grant := n, grantNs := d.nowNs, laneReq := decide (n = 0) } }
  let d := d.w Reg.GIRTH_GRANT (if n = 32 then 3 else if n = 16 then 2 else if n = 8 then 1 else 0)
  if n < lanesOf g then
    ((d.inc Reg.GIRTH_DENY_CNT_SAGE).flag Reg.GIRTH_STAT_DENIED).ostRecord 0 0 4 (d.r Reg.GIRTH_SAGE1_SAGE_CLASS) 16
  else d

/-! ### A tick (R409 … R414, R424) -/

/-- A service item becomes READY (R410): dropped when the descriptor is disabled, not IDLE or of the wrong class. -/
def Dev.makeReady (d : Dev) (i : Nat) : Dev :=
  if !d.isService i then d.dropRelease i 4
  else if !d.descOn i then d.dropRelease i 2
  else if 2 ≤ d.descState i then d.dropRelease i 1
  else
    let d := d.setDescState i 2
    ({ d with ost := { d.ost with ready := d.ost.ready ++ [i] } }).ostRecord i 0 0 (d.eclassOf i) 0

/-- CYCLIC_RELEASE (R410, R412): at the boundary tick the due cyclic descriptors join their home cores' queues, in LEVEL
and then in descriptor order, and the first of each idle core starts 40 ns later. -/
def Dev.cyclicRelease (d : Dev) : Dev :=
  let n := d.r Reg.EPK_NOW
  let due := d.ost.enabled.filter (fun i =>
    !d.isService i && n % (bits (d.descWord i 3) 16 8 + 1) == bits (d.descWord i 3) 24 8)
  let d := d.each (sortBy d.levelOf due) (fun i d =>
    if d.descState i ≠ 0 then d.dropRelease i 1
    else
      let h := d.homeOf i
      let d := (d.setDescState i 2).ostRecord i 0 0 (d.eclassOf i) 0
      { d with ost := { d.ost with cycq := Tab.put h (Tab.look [] h d.ost.cycq ++ [i]) d.ost.cycq } })
  d.each (List.range 16) (fun c d => d.cyclicDispatch c (d.boundaryNs + 40))

/-- The candidates of the idle cores at a tick (R414): core and descriptor, cores rising. -/
def Dev.candidatesAt (d : Dev) (t : Nat) : List (Nat × Nat) :=
  let order := sortBy d.levelOf d.ost.ready
  ((List.range 16).foldl (fun (acc : List (Nat × Nat)) c =>
    if !d.coreIdle c || !(Tab.look [] c d.ost.cycq).isEmpty then acc
    else
      let fits (i : Nat) : Bool := !bitOf (d.r Reg.OST_CORE_CYC) c ||
        decide (t + 40 + 1000 * bits (d.descWord i 3) 0 16 ≤ d.boundaryNs + d.te)
      match order.find? (fun i => bitOf (d.descWord i 1) c && !(acc.map (·.2)).contains i && fits i) with
      | some i => acc ++ [(c, i)]
      | none => acc) [])

/-- A request of a tick (R424): its class, requester number, and descriptor (none for Sage). -/
structure GirthReq where
  cls : Nat
  who : Nat
  desc : Nat
deriving DecidableEq, Repr

/-- GIRTH_ADMIT and SERVICE_DISPATCH (R414, R424). -/
def Dev.admission (d : Dev) (g : Grade) (t : Nat) : Dev :=
  let cores := (d.candidatesAt t).map (fun e => (⟨d.eclassOf e.2, e.1, e.2⟩ : GirthReq))
  let sage := if d.sageWants t then [(⟨d.r Reg.GIRTH_SAGE1_SAGE_CLASS, 16, 0⟩ : GirthReq)] else []
  d.each (sortBy (fun q => q.cls) (cores ++ sage)) (fun q d =>
    if q.who = 16 then d.laneGrant g
    else
      let p := d.r (Reg.GIRTH_CLASS q.cls)
      if d.girthUsed + p ≤ d.girthPool then
        ({ d with ost := { d.ost with ready := d.ost.ready.filter (· != q.desc) } }).dispatch q.who q.desc (t + 40) p
      else ((d.inc Reg.GIRTH_DENY_CNT_CORE).flag Reg.GIRTH_STAT_DENIED).ostRecord q.desc q.who 4 q.cls 0)

/-- The number of time-list entries and the largest seen. -/
def Dev.showDelays (d : Dev) : Dev :=
  (d.w Reg.OST_DLY_CNT_NOW d.ost.delays.length).wmax Reg.OST_DLY_CNT_MAX d.ost.delays.length

/-- An instance that waits returns to IDLE. -/
def Dev.unrelease (d : Dev) (i : Nat) : Dev :=
  let d := d.setDescState i 0
  ({ d with ost := { d.ost with
    ready := d.ost.ready.filter (· != i), delays := d.ost.delays.filter (fun e => e.2 != i),
    cycq := d.ost.cycq.map (fun (e : Nat × List Nat) => (e.1, e.2.filter (· != i))) } }).showDelays

/-- OST_RELEASE at the tick at `t` ns (R410, R411, R428). -/
def Dev.cmdRelease (d : Dev) (t : Nat) (ps : List Nat) : Dev × Res :=
  let i := ps.getD 0 0
  let mode := ps.getD 1 0
  let arg := pair64 (ps.getD 2 0) (ps.getD 3 0)
  let answer (at' : Nat) : Res := .ok [loW at', hiW at']
  if d.isService i && !bitOf (d.descWord i 0) 17 then (d, .denied)
  else if !d.isService i then (d.dropRelease i 4, .badParam 2)
  else if !d.descOn i then (d.dropRelease i 2, .badParam 2)
  else if d.descState i ≠ 0 then (d.dropRelease i 1, .badParam 2)
  else if !d.ost.run then (d, .busy)
  else
    let due := if mode = 1 then t + 1000 * arg else if mode = 2 then arg else t
    if due ≤ t then (d.makeReady i, answer t)
    else if 1024 ≤ d.ost.delays.length then
      ((d.flag Reg.OST_STAT_DLY_FULL).ostRecord i 0 3 3 0, .busy)
    else
      let d := d.setDescState i 1
      let key (e : Nat × Nat) : Nat := e.1 * 4096 + e.2
      (({ d with ost := { d.ost with delays := insertBy key (due, i) d.ost.delays } }).showDelays,
        answer (d.tickFrom due))

/-- OST_CANCEL (R411, R428). -/
def Dev.cmdCancel (d : Dev) (i : Nat) : Dev × Res :=
  let st := d.descState i
  if st = 1 ∨ st = 2 then (d.unrelease i, .ok [st]) else (d, .badParam 2)

/-- OST_ABORT (R416, R428): at its tick; an instance whose EXIT completed before it answers its own end code. -/
def Dev.cmdAbort (d : Dev) (i : Nat) (was : Bool) : Dev × Res :=
  match d.ost.running.find? (fun e => e.2.desc == i) with
  | some (c, _) => (d.ostEnd c 6 0, .ok [6])
  | none => if was then (d, .ok [bits (d.descWord i 7) 4 4]) else (d, .badParam 2)

/-- The sum of R413 for one core. -/
def Dev.coreLoad (d : Dev) (on : List Nat) (c : Nat) : Nat :=
  let mine := on.filter (fun i => !d.isService i && d.homeOf i == c)
  40 * 4 + (mine.map (fun i => bits (d.descWord i 4) 0 20 * 5)).foldl (· + ·) 0 + (mine.length - 1) * 25 * 4

/-- A descriptor that OST_ENABLE refuses (R408), with `on` the set enabled after it. -/
def Dev.descRefused (d : Dev) (on : List Nat) (i : Nat) : Bool :=
  let w0 := d.descWord i 0
  let w3 := d.descWord i 3
  let w5 := d.descWord i 5
  let w6 := d.descWord i 6
  let badPub (k : Nat) : Bool := k != 0x3FF && decide (d.ep.pubs.length ≤ k)
  bits w0 0 16 % 4 != 0 ||
    (if d.isService i then decide (d.levelOf i < 16) || d.descWord i 1 % 2 ^ 16 == 0
     else decide (16 ≤ d.levelOf i) || decide (bits w3 16 8 + 1 ≤ bits w3 24 8) ||
       decide ((d.te - d.ep.margin) * 4 < d.coreLoad on (d.homeOf i))) ||
    bits w3 0 16 == 0 || (bitOf w6 12 && !d.isService (bits w6 0 12)) || badPub (bits w5 0 10) || badPub (bits w5 16 10)

/-- OST_ENABLE (R408, R428): all or nothing. -/
def Dev.cmdEnable (d : Dev) (first n on : Nat) : Dev × Res :=
  let ids := (List.range n).map (· + first)
  if on = 0 then
    let d := d.each (ids.filter d.descOn) (fun i d =>
      let d := d.putMw (descAddr i 0) (setBit (d.descWord i 0) 31 false)
      if d.descState i = 1 ∨ d.descState i = 2 then d.unrelease i else d)
    (({ d with ost := { d.ost with enabled := d.ost.enabled.filter (fun i => !ids.contains i) } }).showFloor,
      .ok [0xFFFF_FFFF])
  else
    let all := sortBy id ((d.ost.enabled.filter (fun i => !ids.contains i)) ++ ids)
    match ids.find? (d.descRefused all) with
    | some i => (d, ⟨4, 0, [i]⟩)
    | none =>
      if d.ost.budget < d.floorFor all then (d, .busy)
      else
        let d := d.each ids (fun i d => d.putMw (descAddr i 0) (setBit (d.descWord i 0) 31 true))
        (({ d with ost := { d.ost with enabled := all } }).showFloor, .ok [0xFFFF_FFFF])

/-- One command of the tick at `t` ns. -/
def Dev.ostCmd (d : Dev) (t : Nat) (q : OstCmd) : Dev × Res :=
  let ps := q.words
  match q.opcode with
  | 0xA01 => d.cmdRelease t ps
  | 0xA02 => d.cmdCancel (ps.getD 0 0)
  | 0xA03 => d.cmdAbort (ps.getD 0 0) q.wasRunning
  | _ => d.cmdEnable (ps.getD 0 0) (ps.getD 1 0) (ps.getD 2 0)

/-- OSTLER_TICK (R409): commands, parameters, releases, cyclic dispatch at a boundary tick, then admission and service
dispatch. -/
def Dev.ostTick (d : Dev) (g : Grade) : Dev :=
  if !d.ep.placed ∨ d.ticksPerEpoch ≤ d.ost.tick then d
  else
    let i := d.ost.tick
    let t := d.boundaryNs + 1000 * i
    let d := d.reach (d.countAt t)
    let cmds := d.ost.cmds
    let d := { d with ost := { d.ost with tick := i + 1, cmds := [], budget := d.ost.budgetNext.getD d.ost.budget, budgetNext := none } }
    let d := d.each cmds (fun q d =>
      let (d, res) := d.ostCmd t q
      d.settle q.opcode q.key res)
    let due := d.ost.delays.filter (fun e => decide (e.1 ≤ t))
    let rel := d.ost.nextTick ++ d.cal.workOut
    let d := { d with
      cal := { d.cal with workOut := [] },
      ost := { d.ost with nextTick := [], delays := if d.ost.run then d.ost.delays.filter (fun e => decide (t < e.1)) else d.ost.delays } }
    let d := d.showDelays
    let d : Dev := if d.ost.run then
        let d := d.each (sortBy id (rel ++ due.map (·.2))) (fun i d => d.makeReady i)
        if i = 0 then d.cyclicRelease else d
      else d
    let d := if d.ost.run then d.admission g t else if d.sageWants t then d.laneGrant g else d
    d.showGirth

/-- Meaning of OSTLER_TICK. -/
def execOstlerTick (s : State) : Host.Outcome State Fault Refusal := ok s (fun g d => d.ostTick g)

/-- RUN_LIMIT_EXPIRE (R416): the instance on a core has run RUN_LIMIT µs and is aborted. -/
def Dev.runLimit (d : Dev) (c : Nat) : Dev :=
  match d.ost.running.find? (fun e => e.1 == c) with
  | some (_, run) =>
    (d.reach (d.countAt (run.start + 1000 * bits (d.descWord run.desc 3) 0 16))).ostEnd c 5 0
  | none => d

/-- Meaning of RUN_LIMIT_EXPIRE. -/
def execRunLimitExpire (core : Fin 16) (s : State) : Host.Outcome State Fault Refusal :=
  ok s (fun _ d => d.runLimit core.val)

/-- Ostler at the epoch deadline (R415): the cyclic instances of the epoch that have not ended are ended. -/
def Dev.ostDeadline (d : Dev) : Dev :=
  let waiting := d.ost.cycq.flatMap (·.2)
  let d := { d with ost := { d.ost with cycq := [] } }
  let d := d.each (d.ost.running.filter (fun e => e.2.cyclic)) (fun e d => d.ostEnd e.1 3 0)
  d.each waiting (fun i d => ((d.setEnd i 4 0).countEnd i 4).ostRecord i 0 2 4 0)

/-- Ostler at a boundary: the tick grid restarts, and OST_CTRL.RUN takes effect. -/
def Dev.ostBoundary (d : Dev) : Dev :=
  let run := d.b Reg.OST_CTRL_RUN
  ({ d with ost := { d.ost with tick := 0, run := run } }).wb Reg.OST_STAT_RUNNING run

/-! ### Commands (R427, R428) -/

/-- Meaning of OST_INFO. -/
def execOstInfo (p : Packet) (s : State) : Host.Outcome State Fault Refusal :=
  ok s (fun g d => d.runPacket g { opcode := 0xA00, need := needN 0 } p (fun d _ =>
    (d, .ok ([0xA0_0004, 0xA0_0008, 0xA0_000C, 0xA0_002C, 0xA0_0010, 0xA0_0014, 0xA0_0018, 0xA0_001C].map d.regWord))))

/-- A command that takes effect, and answers, at the next tick; at once while no epoch is placed. -/
def Dev.tickCommand (d : Dev) (spec : CmdSpec) (p : Packet) (ps : List Nat) (was : Bool) : Dev × Option Res :=
  let q : OstCmd := { key := d.ost.cmdKey, opcode := spec.opcode, words := ps, wasRunning := was }
  if !d.ep.placed then ((d.ostCmd d.nowNs q).1, some (d.ostCmd d.nowNs q).2)
  else
    let d := { d with ost := { d.ost with cmds := d.ost.cmds ++ [q], cmdKey := d.ost.cmdKey + 1 } }
    (d.wait spec p q.key 0, none)

/-- Meaning of OST_RELEASE. -/
def execOstRelease (p : Packet) (s : State) : Host.Outcome State Fault Refusal :=
  ok s (fun g d =>
    let spec : CmdSpec := { opcode := 0xA01, need := fun ps => if ps.getD 1 0 = 0 then (if ps.length = 2 then none else needN 4 ps) else needN 4 ps }
    d.runPacketW g spec p (fun d ps =>
      let m := ps.getD 1 0
      if 4096 ≤ ps.getD 0 0 then (d, some (.badParam 2))
      else if 2 < m then (d, some (.badParam 3))
      else if m = 1 ∧ (ps.getD 2 0 = 0 ∨ ps.getD 3 0 ≠ 0) then (d, some (.badParam 4))
      else d.tickCommand spec p ps false))

/-- Meaning of OST_CANCEL. -/
def execOstCancel (p : Packet) (s : State) : Host.Outcome State Fault Refusal :=
  ok s (fun g d =>
    let spec : CmdSpec := { opcode := 0xA02, priv := true, need := needN 1 }
    d.runPacketW g spec p (fun d ps =>
      if 4096 ≤ ps.getD 0 0 then (d, some (.badParam 2)) else d.tickCommand spec p ps false))

/-- Meaning of OST_ABORT. -/
def execOstAbort (p : Packet) (s : State) : Host.Outcome State Fault Refusal :=
  ok s (fun g d =>
    let spec : CmdSpec := { opcode := 0xA03, priv := true, need := needN 1 }
    d.runPacketW g spec p (fun d ps =>
      if 4096 ≤ ps.getD 0 0 then (d, some (.badParam 2))
      else d.tickCommand spec p ps (d.descState (ps.getD 0 0) == 3)))

/-- The writable bits of descriptor word `w` (R407). -/
def descMask (w : Nat) : Nat :=
  match w with
  | 0 => 0x7FFE_FFFF
  | 4 => 0x000F_FFFF
  | 5 => 0x03FF_03FF
  | 6 => 0x0000_1FFF
  | _ => 0xFFFF_FFFF

/-- Meaning of OST_DESC_WRITE. -/
def execOstDescWrite (p : Packet) (s : State) : Host.Outcome State Fault Refusal :=
  ok s (fun g d => d.runPacket g { opcode := 0xA04, priv := true, need := needN 8 } p (fun d ps =>
    let i := ps.getD 0 0
    if 4096 ≤ i then (d, .badParam 2)
    else if d.descOn i then (d.flag Reg.OST_STAT_CFG_BUSY, .busy)
    else (d.each (List.range 7) (fun w d => d.putMw (descAddr i w) (ps.getD (w + 1) 0 &&& descMask w)), .ok [])))

/-- Meaning of OST_DESC_READ. -/
def execOstDescRead (p : Packet) (s : State) : Host.Outcome State Fault Refusal :=
  ok s (fun g d => d.runPacket g { opcode := 0xA05, need := needN 2, replyLen := fun ps => 3 + 8 * ps.getD 1 0 } p
    (fun d ps =>
      match rangeBad (ps.getD 0 0) (ps.getD 1 0) 32 4096 with
      | some w => (d, .badParam w)
      | none => (d, .ok (Mem.words d.mem (descAddr (ps.getD 0 0) 0) (8 * ps.getD 1 0)))))

/-- Meaning of OST_ENABLE. -/
def execOstEnable (p : Packet) (s : State) : Host.Outcome State Fault Refusal :=
  ok s (fun g d =>
    let spec : CmdSpec := { opcode := 0xA06, priv := true, need := needN 3 }
    d.runPacketW g spec p (fun d ps =>
      match rangeBad (ps.getD 0 0) (ps.getD 1 0) 4096 4096 with
      | some w => (d, some (.badParam w))
      | none => if 1 < ps.getD 2 0 then (d, some (.badParam 4)) else d.tickCommand spec p ps false))

/-- Meaning of OST_TRC_READ. -/
def execOstTrcRead (p : Packet) (s : State) : Host.Outcome State Fault Refusal :=
  ok s (fun g d => d.runPacket g { opcode := 0xA07, need := needN 2, replyLen := fun ps => 3 + 4 * ps.getD 1 0 } p
    (fun d ps =>
      match rangeBad (ps.getD 0 0) (ps.getD 1 0) 64 4096 with
      | some w => (d, .badParam w)
      | none => (d, .ok (Mem.words d.mem (0xA1_0000 + 16 * ps.getD 0 0) (4 * ps.getD 1 0)))))

/-- Meaning of GIRTH_INFO. -/
def execGirthInfo (p : Packet) (s : State) : Host.Outcome State Fault Refusal :=
  ok s (fun g d => d.runPacket g { opcode := 0xA20, need := needN 0 } p (fun d _ =>
    (d, .ok ([0xA0_0108, 0xA0_0100, 0xA0_0104, 0xA0_010C, 0xA0_0110, 0xA0_0114, 0xA0_0154, 0xA0_0150].map d.regWord))))

/-- Meaning of GIRTH_SET_BUDGET. -/
def execGirthSetBudget (p : Packet) (s : State) : Host.Outcome State Fault Refusal :=
  ok s (fun g d => d.runPacket g { opcode := 0xA21, priv := true, need := needN 1 } p (fun d ps =>
    let v := ps.getD 0 0
    let t := d.nextTickNs
    if d.budgetOk v then (d.budgetWrite v, .ok [loW t, hiW t]) else (d.flag Reg.GIRTH_STAT_BAD_BUDGET, .badParam 2)))

end Sys2Proof.Machine
end

