-- ==== Sys2Proof/Machine/PaddockMath.lean ====
section
/-!
DEFINITION. Machine/PaddockMath.lean: the geometry and the speed laws of the Paddock monitor (R244 … R262). Lengths are exact
integers with a binary scale; results are truncated where the rules say so.
-/
namespace Sys2Proof.Machine

/-! ### Frames (R244) -/

/-- sin(2π a / 65 536) as Q1.30, with the error of the table below 2^-28 (R244). -/
def pdkSin (a : Nat) : Int :=
  let m := a % 65536
  let q (i : Nat) : Int := (sinQ80 i 65536 + 2 ^ 49) / 2 ^ 50
  let v := if m ≤ 16384 then q m else if m ≤ 32768 then q (32768 - m) else if m ≤ 49152 then -q (m - 32768) else -q (65536 - m)
  v + clampI (-3) 3 (Config.pdkSinErr m)

/-- cos(2π a / 65 536) as Q1.30. -/
def pdkCos (a : Nat) : Int := pdkSin (a + 16384)

/-- A point or vector with coordinates in units of 2^-s mm. -/
structure Vec3 where
  x : Int
  y : Int
  z : Int
deriving DecidableEq, Repr

def Vec3.add (a b : Vec3) : Vec3 := ⟨a.x + b.x, a.y + b.y, a.z + b.z⟩
def Vec3.sub (a b : Vec3) : Vec3 := ⟨a.x - b.x, a.y - b.y, a.z - b.z⟩
def Vec3.dot (a b : Vec3) : Int := a.x * b.x + a.y * b.y + a.z * b.z
def Vec3.cross (a b : Vec3) : Vec3 := ⟨a.y * b.z - a.z * b.y, a.z * b.x - a.x * b.z, a.x * b.y - a.y * b.x⟩
def Vec3.scale (a : Vec3) (k : Int) : Vec3 := ⟨a.x * k, a.y * k, a.z * k⟩

/-- A frame in the cell: rotation rows in units of 2^-rs, translation in units of 2^-(rs + 8) mm. -/
structure Frame where
  rs : Nat
  r0 : Vec3
  r1 : Vec3
  r2 : Vec3
  t : Vec3
deriving DecidableEq, Repr

/-- The cell frame. -/
def Frame.cell : Frame := ⟨0, ⟨1, 0, 0⟩, ⟨0, 1, 0⟩, ⟨0, 0, 1⟩, ⟨0, 0, 0⟩⟩

/-- The rotation of a frame applied to a vector. -/
def Frame.turn (f : Frame) (v : Vec3) : Vec3 := ⟨f.r0.dot v, f.r1.dot v, f.r2.dot v⟩

/-- A point with coordinates in 2^-8 mm, in the cell frame and units of 2^-(rs + 8) mm. -/
def Frame.point (f : Frame) (v : Vec3) : Vec3 := (f.turn v).add f.t

/-- The frame after a further rotation (rows in Q1.30) and a translation in 2^-8 mm: this frame × (rotation, translation). -/
def Frame.then (f : Frame) (m0 m1 m2 t : Vec3) : Frame :=
  let row (r : Vec3) : Vec3 :=
    ((m0.scale r.x).add (m1.scale r.y)).add (m2.scale r.z)
  { rs := f.rs + 30, r0 := row f.r0, r1 := row f.r1, r2 := row f.r2, t := (f.point t).scale (2 ^ 30) }

/-- M_j: a rotation about local z by θ, or a translation along it by d in 2^-8 mm. -/
def Frame.joint (f : Frame) (rotary : Bool) (q : Int) : Frame :=
  if rotary then
    let a := (q % 65536).toNat
    f.then ⟨pdkCos a, -pdkSin a, 0⟩ ⟨pdkSin a, pdkCos a, 0⟩ ⟨0, 0, 2 ^ 30⟩ ⟨0, 0, 0⟩
  else { f with t := f.point ⟨0, 0, q⟩ }

/-! ### Distances (R250, R253, R257) -/

/-- A segment in the cell frame in units of 2^-(rs + 8) mm. -/
structure Segm where
  rs : Nat
  p0 : Vec3
  p1 : Vec3
deriving DecidableEq, Repr

/-- The same segment in finer units. -/
def Segm.refine (g : Segm) (rs : Nat) : Segm :=
  let k : Int := 2 ^ (rs - g.rs)
  ⟨rs, g.p0.scale k, g.p1.scale k⟩

/-- floor(2^8 × sqrt(num / den)) mm for a squared distance num / den in units of 2^-2(rs + 8) mm². -/
def distQ8 (num : Int) (den : Int) (rs : Nat) : Int := isqrt (num.toNat / (den.toNat * 2 ^ (2 * rs)))

/-- Squared distance from a point to a segment as (numerator, denominator). -/
def pointSegm (q a b : Vec3) : Int × Int :=
  let u := b.sub a
  let w := q.sub a
  let l := u.dot u
  let t := w.dot u
  if l = 0 ∨ t ≤ 0 then (w.dot w, 1)
  else if l ≤ t then ((q.sub b).dot (q.sub b), 1)
  else ((w.dot w) * l - t * t, l)

/-- Least distance between two segments (same units), 2^-8 mm, truncated (R257). -/
def segmSegm (g h : Segm) : Int :=
  let q (e : Int × Int) : Int := distQ8 e.1 e.2 g.rs
  let ends := [q (pointSegm g.p0 h.p0 h.p1), q (pointSegm g.p1 h.p0 h.p1), q (pointSegm h.p0 g.p0 g.p1), q (pointSegm h.p1 g.p0 g.p1)]
  let least := ends.foldl min (q (pointSegm g.p0 h.p0 h.p1))
  let u := g.p1.sub g.p0
  let v := h.p1.sub h.p0
  let w := g.p0.sub h.p0
  let n := u.cross v
  let den := n.dot n
  -- inner crossing parameters s and t of the two lines, times den
  let s := (v.dot v) * (-(u.dot w)) + (u.dot v) * (v.dot w)
  let t := (u.dot u) * (v.dot w) - (u.dot v) * (u.dot w)
  if den = 0 ∨ s < 0 ∨ den < s ∨ t < 0 ∨ den < t then least
  else min least (q ((w.dot n) * (w.dot n), den))

/-- Distance of a vertical axis at (X, Y) in 2^-8 mm from a segment's projection onto the floor, 2^-8 mm, truncated
(R253). -/
def axisSegm (x y : Int) (g : Segm) : Int :=
  let k : Int := 2 ^ g.rs
  let e := pointSegm ⟨x * k, y * k, 0⟩ ⟨g.p0.x, g.p0.y, 0⟩ ⟨g.p1.x, g.p1.y, 0⟩
  distQ8 e.1 e.2 g.rs

/-- A plane separates a segment with a radius (R250): n · P − h ≥ radius at both ends. -/
def planeSeparates (n : Vec3) (h : Int) (radius : Nat) (g : Segm) : Bool :=
  let k : Int := 2 ^ (g.rs + 30)
  let far (p : Vec3) : Bool := decide ((h + radius) * k ≤ n.dot p)
  far g.p0 && far g.p1

/-! ### Speeds (R254 … R262) -/

/-- What the separation law of a pair needs: A_STOP (Q24.8 mm/s²), T_R (µs), Z_R, C, Z_D (Q23.8 mm), v_h (Q16.16 mm/s). -/
structure SepLaw where
  a : Nat
  tr : Nat
  zr : Nat
  c : Nat
  zd : Nat
  vh : Nat
deriving DecidableEq, Repr

/-- d < S_p(v) for v in Q16.16 mm/s and d in 2^-8 mm (R254, R261), exactly. -/
def SepLaw.tooNear (l : SepLaw) (d : Int) (v : Nat) : Bool :=
  decide (d * (2 ^ 24 * 1000000 * l.a) <
    ((v * v * 128000000 + v * (l.tr * 2 ^ 16 * l.a + l.vh * 2 ^ 8 * 1000000) + l.vh * l.tr * 2 ^ 16 * l.a +
      (l.c + l.zd + l.zr) * 2 ^ 24 * 1000000 * l.a : Nat) : Int))

/-- A fixed-point quantity as binary64. -/
def fx (n : Int) (frac : Nat) : Nat := f64.ofScaled n (-(frac : Int))

/-- A binary64 speed truncated toward zero to unsigned Q16.16. -/
def toQ16 (v : Nat) : Nat := satU 32 (max 0 ((f64.floorScaled v 16).getD 0)).toNat

/-- The permitted speed of a pair at separation d, Q16.16 mm/s (R255). -/
def SepLaw.permitted (l : SepLaw) (d : Int) : Nat :=
  let a := fx l.a 8
  let tr := fdiv (fint l.tr) (fint 1000000)
  let vh := fx l.vh 16
  let k := fadd (fadd (fadd (fmul vh tr) (fx l.c 8)) (fx l.zd 8)) (fx l.zr 8)
  let b := fadd tr (fdiv vh a)
  let df := fx d 8
  if fle df k then 0
  else toQ16 (fmul a (fsub (fsqrt (fadd (fmul b b) (fdiv (fmul (fint 2) (fsub df k)) a))) b))

/-- The largest v in Q16.16 mm/s that two arms may have at separation d (R258), `x` = d − ARM_SEP in 2^-8 mm: a search over
32 bits. -/
def armSpeedGo (x : Nat) (tra a b : Nat) : Nat → Nat → Nat
  | 0, v => v
  | k + 1, v =>
    let t := v + 2 ^ k
    let fits := decide (t * tra * 2 ^ 17 * (a * b) + t * t * (128 * (a + b)) * 1000000 ≤ x * 2 ^ 24 * 1000000 * (a * b))
    armSpeedGo x tra a b k (if fits then t else v)

/-- The permitted speed of two arms at separation d, 0 up to ARM_SEP. -/
def armSpeed (d sep : Int) (tra a b : Nat) : Nat := if d ≤ sep then 0 else armSpeedGo (d - sep).toNat tra a b 32 0

/-- A joint's share of the measured speed, in 2^-80 of Q16.16 mm/s (R260): `dq` in 2^-16 turn or 2^-8 mm. -/
def jointSpeed (rotary : Bool) (lever : Nat) (dq : Int) : Nat :=
  if rotary then lever * dq.natAbs * twoPiQ80 * 2000 / 2 ^ 8 else dq.natAbs * 2000 * 2 ^ 8 * 2 ^ 80

/-- The shortest signed difference of two angles in 2^-16 turn. -/
def angleDiff (a b : Int) : Int := sx 16 ((a - b) % 65536).toNat

/-- The axis cap of a joint in 2^-16 counts per epoch (R259). -/
def axisCap (rotary : Bool) (share cap cpr k lever : Nat) : Nat :=
  let n := share * cap * cpr * k * 15625
  if rotary then n * 2 ^ 88 / (2 ^ 16 * 1000000000 * twoPiQ80 * lever) else n / (2 ^ 16 * 1000000000)

end Sys2Proof.Machine
end

