-- ==== Sys2Proof/Machine/Paddock.lean ====
section
/-!
DEFINITION. Machine/Paddock.lean: the Paddock monitor of "Arms, Paddocks and Speed-and-Separation Monitoring" (R238 … R271).
-/
namespace Sys2Proof.Machine

/-! ### Records (R245 … R251) -/

def Dev.jointWord (d : Dev) (j w : Nat) : Nat := d.mw (0x51_0000 + 0x80 * j + 4 * w)
def Dev.capWord (d : Dev) (c w : Nat) : Nat := d.mw (0x51_4000 + 0x20 * c + 4 * w)
def Dev.armWord (d : Dev) (a w : Nat) : Nat := d.mw (0x51_6000 + 0x40 * a + 4 * w)
def Dev.sensWord (d : Dev) (s w : Nat) : Nat := d.mw (0x51_6400 + 0x20 * s + 4 * w)
def Dev.padWord (d : Dev) (k w : Nat) : Nat := d.mw (0x51_8000 + 0x200 * k + 4 * w)
def Dev.pairWord (d : Dev) (e : Nat) : Nat := d.mw (0x51_C000 + 4 * e)

/-- Enabled arms of the grade. -/
def Dev.armsOn (d : Dev) (g : Grade) : List Nat := (List.range (armsOf g)).filter (fun a => bitOf (d.armWord a 0) 12)

/-- Enabled joints of an arm, in order. -/
def Dev.jointsOf (d : Dev) (a : Nat) : List Nat :=
  let f := bits (d.armWord a 0) 0 7
  ((List.range (bits (d.armWord a 0) 7 5)).map (fun i => f + i)).filter (fun j => bitOf (d.jointWord j 0) 12)

/-- The axis of a joint. -/
def Dev.jointAxis (d : Dev) (j : Nat) : Nat := bits (d.jointWord j 0) 0 7

/-- The joint is rotary. -/
def Dev.rotary (d : Dev) (j : Nat) : Bool := !bitOf (d.jointWord j 0) 7

/-- Enabled capsules on the links of the given joints. -/
def Dev.capsulesOf (d : Dev) (js : List Nat) : List Nat :=
  (List.range 256).filter (fun c => bitOf (d.capWord c 0) 7 && js.contains (bits (d.capWord c 0) 0 7))

/-- A signed vector of three record words. -/
def vecOf (w : Nat → Nat) (o : Nat) : Vec3 := ⟨sx 32 (w o), sx 32 (w (o + 1)), sx 32 (w (o + 2))⟩

/-- The joint value from a position (R244): 2^-16 turn, or 2^-8 mm. -/
def Dev.jointValue (d : Dev) (j : Nat) (p : Int) : Int :=
  let cpr : Int := d.jointWord j 1
  let z := sx 64 (pair64 (d.jointWord j 2) (d.jointWord j 3))
  if d.rotary j then ((p - z) * 2 ^ 16 / (cpr * 2 ^ 24)) % 65536 else (p - z) * 2 ^ 8 / (cpr * 2 ^ 24)

/-- The frames of the links of an arm, by joint (R244). -/
def Dev.armFrames (d : Dev) (js : List Nat) (q : Nat → Int) : List (Nat × Frame) :=
  (js.foldl (fun (acc : List (Nat × Frame) × Frame) j =>
    let w := d.jointWord j
    let f := (acc.2.then (vecOf w 7) (vecOf w 10) (vecOf w 13) (vecOf w 4)).joint (d.rotary j) (q j)
    (acc.1 ++ [(j, f)], f)) ([], Frame.cell)).1

/-- A capsule in the cell. -/
structure CapPos where
  index : Nat
  arm : Nat
  radius : Nat
  seg : Segm
deriving DecidableEq, Repr

/-- The capsules of an arm in the cell (R246). -/
def Dev.armCapsules (d : Dev) (a : Nat) (q : Nat → Int) : List CapPos :=
  let js := d.jointsOf a
  let fr := d.armFrames js q
  (d.capsulesOf js).filterMap (fun c => (fr.find? (fun e => e.1 == bits (d.capWord c 0) 0 7)).map (fun e =>
    { index := c, arm := a, radius := d.capWord c 7,
      seg := ⟨e.2.rs, e.2.point (vecOf (d.capWord c) 1), e.2.point (vecOf (d.capWord c) 4)⟩ }))

/-! ### States and outputs (R241, R243, R259) -/

/-- The joints' axes of the given arms. -/
def Dev.axesOfArms (d : Dev) (arms : List Nat) : List Nat := arms.flatMap (fun a => (d.jointsOf a).map d.jointAxis)

/-- Show the arms in protective stop. -/
def Dev.showPstop (d : Dev) (g : Grade) : Dev :=
  d.w Reg.PDK_PSTOP (((d.armsOn g).filter (fun a => d.b (Reg.ARM_STAT_PSTOP a))).foldl (fun m a => setBit m a true) 0)

/-- Latch a protective stop with causes (R263); a pending request lapses. -/
def Dev.armStop (d : Dev) (a cause : Nat) : Dev :=
  let d := ((d.w (Reg.ARM_STAT_PSTOP a) 1).w (Reg.ARM_STAT_CAUSE a) (d.r (Reg.ARM_STAT_CAUSE a) ||| cause)).w
    (Reg.ARM_STAT_REL_PENDING a) 0
  { d with pdk := { d.pdk with relCycle := Tab.del a d.pdk.relCycle } }

/-- Hand the axis caps and the stopped axes to the next commit point (R241, R259). -/
def Dev.handCaps (d : Dev) (g : Grade) : Dev :=
  let run := d.r Reg.PDK_STAT_STATE == 2
  let k := d.r Reg.EPK_CFG_K
  let caps := (d.armsOn g).flatMap (fun a => (d.jointsOf a).map (fun j =>
    (d.jointAxis j, if !run || d.b (Reg.ARM_STAT_PSTOP a) then 0
      else min 0xFFFF_FFFE (axisCap (d.rotary j) (bits (d.jointWord j 17) 0 16) (d.r (Reg.ARM_CAP a)) (d.jointWord j 1) k
        (d.jointWord j 16)))))
  let stopped := (d.armsOn g).filter (fun a => !run || d.b (Reg.ARM_STAT_PSTOP a))
  { d with pdk := { d.pdk with
    outCaps := some (caps.foldl (fun t e => Tab.put e.1 e.2 t) []), outStop := d.axesOfArms stopped } }

/-- Outside RUN every enabled arm is in protective stop with cap 0 (R243). -/
def Dev.stopAll (d : Dev) (g : Grade) (cause : Nat) : Dev :=
  let d := d.each (d.armsOn g) (fun a d => (d.armStop a cause).w (Reg.ARM_CAP a) 0)
  (d.showPstop g).handCaps g

/-- Enter SELFTEST (R243). -/
def Dev.pdkSelftest (d : Dev) (g : Grade) : Dev :=
  let d := { d with pdk := { d.pdk with selfCycles := 0, runCycles := 0, busy := false, prevJ := [], bound := [], occ := [],
                                        present := [], capRun := [], prevCap := [] } }
  (d.w Reg.PDK_STAT_STATE 1).stopAll g 0

/-- CODED_FAULT (R268, R269). -/
def Dev.codedFault (d : Dev) (g : Grade) : Dev :=
  let d := ((d.flag Reg.PDK_STAT_CODED_FAULT).inc Reg.PDK_FAULT_CNT).w Reg.PDK_STAT_STATE 3
  d.stopAll g 0x100

/-- The monitor at a commit point: caps and stops of the results of the epoch reach the profile generator (R241). -/
def Dev.pdkCommit (d : Dev) : Dev :=
  match d.pdk.outCaps with
  | some caps => { d with
      prf := { d.prf with caps := caps, pstop := d.pdk.outStop }, pdk := { d.pdk with outCaps := none } }
  | none => d

/-! ### Latching (R239, R249, R266) -/

/-- The safety cycle of an epoch, when one begins at its boundary (R238). -/
def Dev.pdkCycleAt (d : Dev) (n : Nat) : Option Nat :=
  let k := d.r Reg.EPK_CFG_K
  if [1, 2, 4, 8, 16, 32].contains k ∧ n * k % 32 = 0 then some (n * k / 32) else none

/-- PDK_CYCLE_START (R239): the newest verified report of each sensor is latched and the ages counted. -/
def Dev.pdkStart (d : Dev) : Dev :=
  let n := d.r Reg.EPK_NOW
  match d.pdkCycleAt n with
  | none => d
  | some c =>
    if d.r Reg.PDK_STAT_STATE = 0 ∨ !d.ep.placed ∨ d.enginesStill ∨ d.pdk.cycle = some c then d
    else
      let d := d.reach (d.countAt d.boundaryNs)
      let old := d.pdk.reports
      let d := { d with pdk := { d.pdk with
        cycle := some c, epoch := n, late := false, busy := true, reports := d.brd.reports, pos := [], taken := false,
        src2Now := [] } }
      d.each ((List.range 16).filter (fun s => bitOf (d.sensWord s 0) 0)) (fun s d =>
        let fresh : Bool := match d.pdk.reports.find? (fun e => e.1 == s) with
          | some r => (old.find? (fun e => e.1 == s)).map (·.2.serial) != some r.2.serial
          | none => false
        let age : Nat := bif fresh then 0 else satU 8 (d.r (Reg.PDK_SENS_STAT_AGE s) + 1)
        let rep := (d.pdk.reports.find? (fun e => e.1 == s)).map (·.2)
        ((d.w (Reg.PDK_SENS_STAT_AGE s) age).w (Reg.PDK_SENS_STAT_COUNT s) ((rep.map (·.count)).getD 0)).wb
          (Reg.PDK_SENS_STAT_FAULT s) ((rep.map (·.fault)).getD false))

/-- Meaning of PDK_CYCLE_START. -/
def execPdkCycleStart (s : State) : Host.Outcome State Fault Refusal := ok s (fun _ d => d.pdkStart)

/-- Show STALE of every sensor and SENS_STALE (R249). -/
def Dev.showStale (d : Dev) : Dev :=
  let on := (List.range 16).filter (fun s => bitOf (d.sensWord s 0) 0)
  let d := d.each on (fun s d => d.wb (Reg.PDK_SENS_STAT_STALE s) (decide (bits (d.sensWord s 0) 17 8 ≤ d.r (Reg.PDK_SENS_STAT_AGE s))))
  d.wb Reg.PDK_STAT_SENS_STALE (on.any (fun s => d.b (Reg.PDK_SENS_STAT_STALE s) || d.b (Reg.PDK_SENS_STAT_FAULT s)))

/-- Arms that a stale or faulted sensor stops. -/
def Dev.sensorArms (d : Dev) : Nat :=
  ((List.range 16).filter (fun s => bitOf (d.sensWord s 0) 0 &&
    (d.b (Reg.PDK_SENS_STAT_STALE s) || d.b (Reg.PDK_SENS_STAT_FAULT s)))).foldl (fun m s => m ||| bits (d.sensWord s 0) 1 16) 0

/-- SENSOR_STALE (R249): a sensor without a fresh report for AGE_MAX cycles stops its arms. -/
def Dev.sensorStale (d : Dev) (g : Grade) (s : Nat) : Dev :=
  if !bitOf (d.sensWord s 0) 0 ∨ d.r (Reg.PDK_SENS_STAT_AGE s) < bits (d.sensWord s 0) 17 8 ∨ d.r Reg.PDK_STAT_STATE = 0 then d
  else
    let d := d.showStale
    let d := d.each ((d.armsOn g).filter (fun a => bitOf (bits (d.sensWord s 0) 1 16) a)) (fun a d => d.armStop a 0x20)
    (d.showPstop g).handCaps g

/-- Meaning of SENSOR_STALE. -/
def execSensorStale (sensor : Fin 16) (s : State) : Host.Outcome State Fault Refusal :=
  ok s (fun g d => d.sensorStale g sensor.val)

/-- The raw value of a joint's second source in this epoch (R266). -/
def Dev.src2Raw (d : Dev) (j : Nat) : Option Nat :=
  let w := d.jointWord j 19
  match w % 4 with
  | 1 => d.encoderNow (bits w 2 5)
  | 2 => d.ringNow (bits w 2 2) (bits w 4 7) (bits w 11 6)
  | _ => none

/-- Latch the joint positions of the present epoch, with their set-points and second sources, once (R239). -/
def Dev.pdkTake (d : Dev) (g : Grade) : Dev :=
  if d.pdk.taken ∨ ¬ d.pdk.busy ∨ d.pdk.epoch ≠ d.r Reg.EPK_NOW then d
  else
    let js := (d.armsOn g).flatMap d.jointsOf
    let d := { d with pdk := { d.pdk with
      taken := true,
      pos := (js.filter (fun j => (d.lp (d.jointAxis j)).posNow)).foldl (fun t j =>
        Tab.put (d.jointAxis j) ((d.lp (d.jointAxis j)).pos, (d.px (d.jointAxis j)).sp) t) [] } }
    d.each (js.filter (fun j => bits (d.jointWord j 0) 13 2 == 1)) (fun j d =>
      let ax := d.jointAxis j
      match d.src2Raw j with
      | none => d
      | some raw =>
        let c : Int := match d.pdk.src2.find? (fun e => e.1 == ax) with
          | some (_, (c, last)) => c + sx 32 (raw + 2 ^ 32 - last)
          | none => sx 32 raw
        { d with pdk := { d.pdk with src2 := Tab.put ax (c, raw) d.pdk.src2, src2Now := ax :: d.pdk.src2Now } })

/-- Joints whose position is missing in the latch epoch. -/
def Dev.pdkMissing (d : Dev) (g : Grade) : List Nat :=
  ((d.armsOn g).flatMap d.jointsOf).filter (fun j => !d.pdk.pos.any (fun e => e.1 == d.jointAxis j))

/-- A first latch epoch with a missing position makes the cycle late, but for k = 32 (R239). -/
def Dev.pdkWaits (d : Dev) (g : Grade) : Bool :=
  !d.pdk.late && d.r Reg.EPK_CFG_K != 32 && !(d.pdkMissing g).isEmpty

/-- The monitor at the end of an epoch: it takes the positions of its latch epoch, and CYCLE_LATE moves the latch one epoch
on (R239). -/
def Dev.pdkEpochEnd (d : Dev) (g : Grade) : Dev :=
  let d := d.pdkTake g
  if d.pdk.busy ∧ d.pdk.taken ∧ d.pdk.epoch = d.r Reg.EPK_NOW ∧ d.pdkWaits g then
    ({ d with pdk := { d.pdk with late := true, epoch := d.pdk.epoch + 1, taken := false, pos := [], src2Now := [] } }).flag
      Reg.PDK_STAT_CYCLE_LATE
  else d

/-! ### One computation (R244 … R266) -/

/-- An intruder as the monitor evaluates it (R248): 2^-8 mm, v_h in Q16.16 mm/s. -/
structure Walker where
  sensor : Nat
  track : Nat
  x : Int
  y : Int
  radius : Nat
  height : Nat
  vh : Nat
deriving DecidableEq, Repr

/-- The intruders of a cycle within the limits, and whether a limit was passed (R248, R249). -/
def Dev.walkers (d : Dev) (g : Grade) : List Walker × Bool :=
  let on := (List.range 16).filter (fun s => bitOf (d.sensWord s 0) 0)
  let lim := min (d.r Reg.PDK_CFG_INTR_MAX) (intrudersOf g)
  let of (s : Nat) : List Walker := match d.pdk.reports.find? (fun e => e.1 == s) with
    | some (_, r) => (r.recs.take (bits (d.sensWord s 4) 0 7)).map (fun i =>
        { sensor := s, track := i.track, x := i.x * 256, y := i.y * 256, radius := i.radius * 256, height := i.height * 256,
          vh := max (d.sensWord s 1) (satU 32 (i.vb * 65536)) })
    | none => []
  let all := on.flatMap of
  let ovr := on.any (fun s => match d.pdk.reports.find? (fun e => e.1 == s) with
    | some (_, r) => decide (bits (d.sensWord s 4) 0 7 < r.count)
    | none => false)
  (all.take lim, ovr || decide (lim < all.length))

/-- An intruder's axis as a segment. -/
def Walker.seg (w : Walker) : Segm := ⟨0, ⟨w.x, w.y, 0⟩, ⟨w.x, w.y, w.height⟩⟩

/-- A body touches a paddock unless one plane separates it (R250). -/
def Dev.touches (d : Dev) (k radius : Nat) (g : Segm) : Bool :=
  !((List.range (bits (d.padWord k 0) 2 5)).any (fun m =>
    planeSeparates (vecOf (d.padWord k) (8 + 4 * m)) (sx 32 (d.padWord k (11 + 4 * m))) radius g))

/-- The separation law of an arm and an intruder (R254). -/
def Dev.sepLaw (d : Dev) (a : Nat) (w : Walker) : SepLaw :=
  { a := d.armWord a 1, tr := bits (d.armWord a 6) 0 24, zr := d.armWord a 9, c := d.sensWord w.sensor 2,
    zd := d.sensWord w.sensor 3, vh := w.vh }

/-- An evaluated capsule and intruder: the separation in 2^-8 mm (R253); none when the capsule passes above. -/
def pairSeparation (c : CapPos) (w : Walker) : Option Int :=
  let lowest := min c.seg.p0.z c.seg.p1.z
  if lowest - (c.radius : Int) * 2 ^ c.seg.rs < (w.height : Int) * 2 ^ c.seg.rs then
    some (axisSegm w.x w.y c.seg - c.radius - w.radius)
  else none

/-- What a computation finds of one arm. -/
structure ArmFind where
  arm : Nat
  cap : Nat
  vmeas : Nat
  moving : Bool
  cause : Nat
  near : Nat
  dmin : Int
  pads : Nat
deriving DecidableEq, Repr

/-- The measured speed of an arm, Q16.16 mm/s (R260); 0 in the first cycle of RUN. -/
def Dev.measured (d : Dev) (a : Nat) (q : Nat → Int) : Nat :=
  if d.pdk.runCycles = 0 then 0
  else satU 32 (((d.jointsOf a).map (fun j => match d.pdk.prevJ.find? (fun e => e.1 == j) with
    | some (_, p) => jointSpeed (d.rotary j) (d.jointWord j 16) (if d.rotary j then angleDiff (q j) p else q j - p)
    | none => 0)).foldl (· + ·) 0 / 2 ^ 80)

/-- A joint fails its position check (R266). -/
def Dev.posCheckFails (d : Dev) (j : Nat) : Bool :=
  let ax := d.jointAxis j
  let tol : Int := d.jointWord j 18 * 2 ^ 16
  match d.pdk.pos.find? (fun e => e.1 == ax) with
  | none => true
  | some (_, (p, sp)) =>
    if bits (d.jointWord j 0) 13 2 = 0 then decide (tol ≤ (p - sp).natAbs)
    else match d.pdk.src2.find? (fun e => e.1 == ax) with
      | some (_, (c, _)) => !d.pdk.src2Now.contains ax || decide (tol ≤ (p - sx 32 (d.jointWord j 20) * c * 2 ^ 8).natAbs)
      | none => true

/-- The state of the paddocks in a cycle: arms that touch each, arms with a place, arms refused one, intruders (R250 …
R252). -/
structure PadFind where
  pad : Nat
  touch : List Nat
  place : List Nat
  refused : List Nat
  intr : Nat
deriving DecidableEq, Repr

/-- The arms admitted to a SHARED paddock: those that keep their place, then entering arms while there is room (R252). -/
def admitArms (prev touch : List Nat) (most : Nat) : List Nat × List Nat :=
  let keep := touch.filter (fun a => prev.contains a)
  touch.foldl (fun (acc : List Nat × List Nat) a =>
    if prev.contains a then acc
    else if acc.1.length < most then (acc.1 ++ [a], acc.2)
    else (acc.1, acc.2 ++ [a])) (keep, [])

/-- Evaluate one paddock. -/
def Dev.padFind (d : Dev) (k : Nat) (caps : List CapPos) (skip : List Nat) (ws : List Walker) : PadFind :=
  let prev := Tab.look [] k d.pdk.occ
  let arms := ((List.range 16).filter (fun a => caps.any (fun c => c.arm == a && d.touches k c.radius c.seg)))
  let touch := arms ++ (prev.filter (fun a => skip.contains a))
  let named := touch.filter (fun a => bitOf (bits (d.padWord k 1) 0 16) a)
  let (place, refused) := if d.padWord k 0 % 4 = 2 then admitArms prev named (bits (d.padWord k 0) 7 5) else (named, [])
  { pad := k, touch := touch, place := place, refused := refused,
    intr := (ws.filter (fun w => d.touches k w.radius w.seg)).length }

/-- The arm-pair entries that are evaluated (R257): arms, paddock, capsules, separation. -/
def Dev.armPairs (d : Dev) (caps : List CapPos) (pads : List PadFind) : List (CapPos × CapPos × Nat × Int) :=
  (List.range (d.r Reg.PDK_PAIRS)).filterMap (fun e =>
    let w := d.pairWord e
    let k := bits w 16 5
    match caps.find? (fun c => c.index == bits w 0 8), caps.find? (fun c => c.index == bits w 8 8),
        pads.find? (fun p => p.pad == k) with
    | some a, some b, some p =>
      if bitOf w 31 ∧ p.touch.contains a.arm ∧ p.touch.contains b.arm then
        let rs := max a.seg.rs b.seg.rs
        some (a, b, k, segmSegm (a.seg.refine rs) (b.seg.refine rs) - a.radius - b.radius)
      else none
    | _, _, _ => none)

/-- What the computation finds of one arm (R251 … R262). -/
def Dev.armFind (d : Dev) (a : Nat) (q : Nat → Int) (missing : Bool) (caps : List CapPos) (ws : List Walker) (ovr : Bool)
    (pads : List PadFind) (pairs : List (CapPos × CapPos × Nat × Int)) : ArmFind :=
  let mine := caps.filter (fun c => c.arm == a)
  let vmax := d.armWord a 2
  let vmeas := if missing then 0 else d.measured a q
  let moving := decide (d.armWord a 3 ≤ vmeas)
  let seps := mine.flatMap (fun c => ws.filterMap (fun w => (pairSeparation c w).map (fun s => (c.index, s, d.sepLaw a w))))
  let armSeps := pairs.filterMap (fun e =>
    if e.1.arm = a then some (e.1.index, e.2.1.arm, e.2.2.1, e.2.2.2)
    else if e.2.1.arm = a then some (e.2.1.index, e.1.arm, e.2.2.1, e.2.2.2) else none)
  let sep (k : Nat) : Int := d.padWord k 3
  let tra (b : Nat) : Nat := max (bits (d.armWord a 7) 0 24) (bits (d.armWord b 7) 0 24)
  let caps1 := seps.map (fun e => e.2.2.permitted e.2.1)
  let caps2 := armSeps.map (fun e => armSpeed e.2.2.2 (sep e.2.2.1) (tra e.2.1) (d.armWord a 1) (d.armWord e.2.1 1))
  let staff := (pads.filter (fun p => d.padWord p.pad 0 % 4 == 3 && decide (0 < p.intr) && bitOf (bits (d.padWord p.pad 1) 0 16) a)).map
    (fun p => d.padWord p.pad 2)
  let cap := if missing then 0 else (caps1 ++ caps2 ++ staff).foldl min vmax
  let all := seps.map (fun e => (e.1, e.2.1)) ++ armSeps.map (fun e => (e.1, e.2.2.2))
  let best := all.foldl (fun (m : Nat × Int) e => if e.2 < m.2 then e else m) (0, 0x7FFF_FFFF)
  let bound := max (Tab.look vmax a d.pdk.prevCap) (Tab.look vmax a d.pdk.bound - d.armWord a 5 * 256 / 2000)
  let bound := if d.pdk.runCycles = 0 then vmax else bound
  let bit (c : Bool) (i : Nat) : Nat := if c then 2 ^ i else 0
  let fence := pads.any (fun p => (d.padWord p.pad 0 % 4 == 1 || d.padWord p.pad 0 % 4 == 2) && p.touch.contains a &&
    !bitOf (bits (d.padWord p.pad 1) 0 16) a)
  let cause := bit (moving && seps.any (fun e => e.2.2.tooNear e.2.1 vmeas)) 0 +
    bit (decide (bound + d.armWord a 4 ≤ vmeas)) 1 + bit fence 2 + bit (pads.any (fun p => p.refused.contains a)) 3 +
    bit (moving && armSeps.any (fun e => decide (e.2.2.2 < sep e.2.2.1))) 4 + bit (bitOf d.sensorArms a) 5 + bit ovr 6 +
    bit (missing || (d.jointsOf a).any d.posCheckFails) 7
  { arm := a, cap := cap, vmeas := vmeas, moving := moving, cause := cause, near := best.1, dmin := best.2,
    pads := (pads.filter (fun p => p.touch.contains a)).foldl (fun m p => setBit m p.pad true) 0 }

/-- PSTOP_RELEASE (R263): the latch of an arm is released. -/
def Dev.pstopRelease (d : Dev) (a : Nat) : Dev :=
  let d := ((d.w (Reg.ARM_STAT_PSTOP a) 0).w (Reg.ARM_STAT_CAUSE a) 0).w (Reg.ARM_STAT_REL_PENDING a) 0
  { d with pdk := { d.pdk with relCycle := Tab.del a d.pdk.relCycle } }

/-- An arm at the end of cycle `n` of RUN (R261 … R264): values shown, a cause latched, or a due request granted. -/
def Dev.armResult (d : Dev) (n : Nat) (f : ArmFind) : Dev :=
  let a := f.arm
  let d := ((d.w (Reg.ARM_CAP a) f.cap).w (Reg.ARM_VMEAS a) f.vmeas).ws (Reg.ARM_DMIN a) (satS 32 f.dmin)
  let d := ((d.w (Reg.ARM_PDK a) f.pads).wb (Reg.ARM_STAT_MOVING a) f.moving).w (Reg.ARM_STAT_NEAR a) f.near
  let bound := max (Tab.look (d.armWord a 2) a d.pdk.prevCap)
    (Tab.look (d.armWord a 2) a d.pdk.bound - d.armWord a 5 * 256 / 2000)
  let d := { d with pdk := { d.pdk with
    bound := Tab.put a (if d.pdk.runCycles = 0 then d.armWord a 2 else bound) d.pdk.bound,
    prevCap := Tab.put a f.cap d.pdk.prevCap, present := Tab.put a f.cause d.pdk.present,
    capRun := Tab.put a (if f.cap = 0 then 0 else Tab.look 0 a d.pdk.capRun + 1) d.pdk.capRun } }
  if f.cause ≠ 0 then d.armStop a f.cause
  else if d.b (Reg.ARM_STAT_REL_PENDING a) ∧ Tab.look 0 a d.pdk.relCycle ≤ n ∧ 1 ≤ d.pdk.runCycles then d.pstopRelease a
  else d

/-- The monitor publication (R265). -/
def Dev.pdkPublish (d : Dev) : Dev :=
  d.publish (d.r Reg.PDK_PUB)
    ((List.range (d.r Reg.PDK_CFG_ARMS)).flatMap (fun a =>
        [d.r (Reg.ARM_CAP a), d.regWord (0x50_0100 + 0x20 * a), d.r (Reg.ARM_DMIN a), d.r (Reg.ARM_VMEAS a)]) ++
      (List.range (d.r Reg.PDK_CFG_PADDOCKS)).map (fun k => d.regWord (0x50_0400 + 4 * k)))

/-- The results of a cycle of RUN (R244 … R266). -/
def Dev.pdkCompute (d : Dev) (g : Grade) (n : Nat) : Dev :=
  let d := d.showStale
  let arms := d.armsOn g
  let miss := d.pdkMissing g
  let lost (a : Nat) : Bool := (d.jointsOf a).any (fun j => miss.contains j)
  let q (j : Nat) : Int := d.jointValue j ((d.pdk.pos.find? (fun e => e.1 == d.jointAxis j)).map (·.2.1) |>.getD 0)
  let caps := (arms.filter (fun a => !lost a)).flatMap (fun a => d.armCapsules a q)
  let (ws, ovr) := d.walkers g
  let pads := ((List.range 32).filter (fun k => d.padWord k 0 % 4 != 0)).map (fun k => d.padFind k caps (arms.filter lost) ws)
  let pairs := d.armPairs caps pads
  let finds := arms.map (fun a => d.armFind a q (lost a) caps ws ovr pads pairs)
  let d := d.flagIf ovr Reg.PDK_STAT_OVERFLOW
  let d := d.each finds (fun f d => d.armResult n f)
  let d := d.each pads (fun p d =>
    (d.w (Reg.PDK_PADDOCK_STAT_OCC p.pad) (p.touch.foldl (fun m a => setBit m a true) 0)).w (Reg.PDK_PADDOCK_STAT_INTR p.pad) p.intr)
  let d := { d with pdk := { d.pdk with
    runCycles := d.pdk.runCycles + 1,
    occ := (pads.filter (fun (p : PadFind) => d.padWord p.pad 0 % 4 == 2)).foldl (fun t (p : PadFind) => Tab.put p.pad p.place t) [],
    prevJ := ((arms.filter (fun a => !lost a)).flatMap d.jointsOf).foldl (fun t j => Tab.put j (q j) t) [] } }
  let d := (d.w Reg.PDK_INTR_CNT_NOW ws.length).wmax Reg.PDK_INTR_CNT_MAX ws.length
  let d := d.each (List.range 64) (fun i d =>
    { d with mem := Mem.putWords d.mem (0x52_0000 + 0x20 * i) (match ws[i]? with
      | some w => [w.sensor + w.track % 256 * 2 ^ 8 + 2 ^ 31, un 32 w.x, un 32 w.y, w.radius, w.height, w.vh,
          (pads.filter (fun (p : PadFind) => d.touches p.pad w.radius w.seg)).foldl (fun m (p : PadFind) => setBit m p.pad true) 0, 0]
      | none => List.replicate 8 0) })
  d

/-- The bound of T_calc in ns (R240). -/
def Dev.tcalcMax (d : Dev) (g : Grade) : Nat :=
  let joints := ((d.armsOn g).flatMap d.jointsOf).length
  let caps := d.r Reg.PDK_CFG_CAPSULES + 1
  5000 + 60 * joints + 12 * caps * d.r Reg.PDK_CFG_INTR_MAX + 8 * caps * d.r Reg.PDK_CFG_PADDOCKS + 24 * d.r Reg.PDK_PAIRS

/-- PDK_COMPUTATION_DONE (R240, R241, R263, R265 … R269): the computation took `ns`; `fault`: the comparator found a mismatch,
an inexact division or a failed inverse check, or missed its test output. -/
def Dev.pdkDone (d : Dev) (g : Grade) (ns : Nat) (fault : Bool) : Dev :=
  let d := d.pdkTake g
  match d.pdk.cycle with
  | none => d
  | some n =>
    if ¬ d.pdk.busy ∨ ¬ d.pdk.taken ∨ (d.pdk.epoch = d.r Reg.EPK_NOW ∧ d.pdkWaits g) then d
    else
      let t := min ns (d.tcalcMax g)
      let d := d.reach (d.countAt (d.r Reg.EPK_ORIGIN + d.pdk.epoch * d.te + 10000 + t))
      let d := ((d.w Reg.PDK_TCALC t).wmax Reg.PDK_TCALC_MAX t).w Reg.PDK_CYCLE n
      let d := { d with pdk := { d.pdk with busy := false } }
      let st := d.r Reg.PDK_STAT_STATE
      let d := if fault then d.codedFault g
        else if st = 2 then ((d.pdkCompute g n).showPstop g).handCaps g
        else if st = 1 then { d with pdk := { d.pdk with selfCycles := d.pdk.selfCycles + 1 } }
        else d
      let ctrl := d.mw 0xB1_A014
      let d := if !fault ∧ (st = 1 ∨ st = 2) ∧ bitOf ctrl 16 then
          { d with pdk := { d.pdk with sig := some (n, n % 32768 * 2 ^ 17 + (bits ctrl 0 16 + n % 1021) % 2 ^ 17) } } else d
      d.pdkPublish

/-- Meaning of PDK_COMPUTATION_DONE. -/
def execPdkComputationDone (ns : Nat) (fault : Bool) (s : State) : Host.Outcome State Fault Refusal :=
  ok s (fun g d => (d.pdkDone g ns fault).pins)

/-- PDK_AUTO_RELEASE (R263): the arm cap has been above 0 for RESTART_DWELL cycles and every latched cause allows it; the
request is granted at the end of the cycle that placed it when that found no cause. -/
def Dev.pdkAuto (d : Dev) (g : Grade) (a : Nat) : Dev :=
  let cause := d.r (Reg.ARM_STAT_CAUSE a)
  if !(d.armsOn g).contains a ∨ d.r Reg.PDK_STAT_STATE ≠ 2 ∨ !d.b (Reg.ARM_STAT_PSTOP a) ∨ !bitOf (d.armWord a 0) 13 ∨
      cause &&& 0x19E ≠ 0 ∨ Tab.look 0 a d.pdk.capRun < max 1 (bits (d.armWord a 8) 0 16) then d
  else
    let d := d.w (Reg.ARM_STAT_REL_PENDING a) 1
    let d := { d with pdk := { d.pdk with relCycle := Tab.put a ((d.pdk.cycle.getD 0)) d.pdk.relCycle } }
    if Tab.look 0 a d.pdk.present = 0 ∧ 2 ≤ d.pdk.runCycles ∧ ¬ d.pdk.busy then ((d.pstopRelease a).showPstop g).handCaps g
    else d

/-- Meaning of PDK_AUTO_RELEASE. -/
def execPdkAutoRelease (arm : Fin 16) (s : State) : Host.Outcome State Fault Refusal :=
  ok s (fun g d => d.pdkAuto g arm.val)

/-- PDK_SELFTEST_END (R243): after two SELFTEST cycles the monitor enters RUN. -/
def Dev.pdkSelftestEnd (d : Dev) : Dev :=
  if d.r Reg.PDK_STAT_STATE = 1 ∧ 2 ≤ d.pdk.selfCycles then
    ({ d with pdk := { d.pdk with runCycles := 0 } }).w Reg.PDK_STAT_STATE 2
  else d

/-- Meaning of PDK_SELFTEST_END. -/
def execPdkSelftestEnd (s : State) : Host.Outcome State Fault Refusal := ok s (fun _ d => d.pdkSelftestEnd)

/-! ### Commands (R270, R271) -/

/-- The cycle number as two words. -/
def Dev.pdkCycleWords (d : Dev) : List Nat := [d.regWord 0x50_0010, d.regWord 0x50_0014]

/-- Meaning of PDK_INFO. -/
def execPdkInfo (p : Packet) (s : State) : Host.Outcome State Fault Refusal :=
  ok s (fun g d => d.runPacket g { opcode := 0x500, need := needN 0 } p (fun d _ =>
    (d, .ok ([0x50_0000, 0x50_0004, 0x50_0008, 0x50_000C, 0x50_0018, 0x50_001C].map d.regWord ++ d.pdkCycleWords))))

/-- Meaning of PDK_ARM_READ. -/
def execPdkArmRead (p : Packet) (s : State) : Host.Outcome State Fault Refusal :=
  ok s (fun g d => d.runPacket g
    { opcode := 0x501, need := needN 1, replyLen := fun _ => 10,
      fitted := fun g ps => decide (ps.getD 0 0 < armsOf g) || decide (16 ≤ ps.getD 0 0) } p (fun d ps =>
    let a := ps.getD 0 0
    if 16 ≤ a then (d, .badParam 2)
    else (d, .ok ([0, 4, 8, 12, 16].map (fun o => d.regWord (0x50_0100 + 0x20 * a + o)) ++ d.pdkCycleWords))))

/-- Meaning of PDK_INTR_READ. -/
def execPdkIntrRead (p : Packet) (s : State) : Host.Outcome State Fault Refusal :=
  ok s (fun g d => d.runPacket g
    { opcode := 0x502, need := needN 2, replyLen := fun ps => 5 + 8 * ps.getD 1 0,
      fitted := fun g ps => decide (ps.getD 0 0 < intrudersOf g) || decide (64 ≤ ps.getD 0 0) } p (fun d ps =>
    match rangeBad (ps.getD 0 0) (ps.getD 1 0) 64 64 with
    | some w => (d, .badParam w)
    | none => (d, .ok (d.pdkCycleWords ++ Mem.words d.mem (0x52_0000 + 0x20 * ps.getD 0 0) (8 * ps.getD 1 0)))))

/-- Meaning of PDK_PADDOCK_READ. -/
def execPdkPaddockRead (p : Packet) (s : State) : Host.Outcome State Fault Refusal :=
  ok s (fun g d => d.runPacket g { opcode := 0x503, need := needN 1, replyLen := fun _ => 6 } p (fun d ps =>
    if 32 ≤ ps.getD 0 0 then (d, .badParam 2)
    else (d, .ok (d.regWord (0x50_0400 + 4 * ps.getD 0 0) :: d.pdkCycleWords))))

/-- PDK_RELEASE (R264, R271). -/
def Dev.pdkRelease (d : Dev) (g : Grade) (mask : Nat) : Dev × Res :=
  if d.r Reg.PDK_STAT_STATE ≠ 2 then (d, .busy)
  else
    let next := d.pdk.cycle.getD 0 + 1
    let named := (List.range 16).filter (bitOf mask)
    let bad (a : Nat) : Bool := !(d.armsOn g).contains a ||
      decide (d.r (Reg.ARM_STAT_CAUSE a) &&& Tab.look 0 a d.pdk.present ≠ 0)
    let d := d.each (named.filter (fun a => !bad a && d.b (Reg.ARM_STAT_PSTOP a))) (fun a d =>
      ({ d with pdk := { d.pdk with relCycle := Tab.put a next d.pdk.relCycle } }).w (Reg.ARM_STAT_REL_PENDING a) 1)
    (d, .ok [(named.filter bad).foldl (fun m a => setBit m a true) 0, loW next, hiW next])

/-- Meaning of PDK_RELEASE. -/
def execPdkRelease (p : Packet) (s : State) : Host.Outcome State Fault Refusal :=
  ok s (fun g d => d.runPacket g
    { opcode := 0x504, priv := true, need := needN 1, replyLen := fun _ => 6,
      fitted := fun g ps => decide (ps.getD 0 0 % 2 ^ 16 < 2 ^ armsOf g) } p (fun d ps => d.pdkRelease g (ps.getD 0 0)))

/-- Meaning of PDK_RESTART. -/
def execPdkRestart (p : Packet) (s : State) : Host.Outcome State Fault Refusal :=
  ok s (fun g d => d.runPacket g { opcode := 0x505, priv := true, need := needN 0 } p (fun d _ =>
    if d.r Reg.PDK_STAT_STATE ≠ 3 then (d, .busy) else (d.pdkSelftest g, .ok [])))

end Sys2Proof.Machine
end

