-- ==== Sys2Proof/Machine/Tilbor.lean ====
section
/-!
DEFINITION. Machine/Tilbor.lean: the Tilbor backbone of "Tilbor Backbone and Safe Messages" (R337 … R351, R361 … R368) and
the CMD envelopes of R544 … R546.
-/
namespace Sys2Proof.Machine

/-! ### State and domain cycles (R342, R362) -/

/-- The state code of R362. -/
def Dev.tlbState (d : Dev) : Nat := d.r Reg.TLB_STAT_STATE

/-- TX_ACTIVE: MEMBER and REIN holder. -/
def Dev.showTx (d : Dev) : Dev := d.wb Reg.TLB_STAT_TX_ACTIVE (d.tlbState == 3 && d.b Reg.PAIR_STAT_HOLDER)

/-- Enter a backbone state. -/
def Dev.tlbEnter (d : Dev) (st : Nat) : Dev := (d.w Reg.TLB_STAT_STATE st).showTx

/-- The length of the domain cycle, ns (R342). -/
def Dev.tdc (d : Dev) : Nat := d.r Reg.TLB_DOMAIN_KD * 15625

/-- The start of domain cycle `c`, ns of domain time. -/
def Dev.cycleNs (d : Dev) (c : Nat) : Nat := d.r Reg.EPK_ORIGIN + c * d.tdc

/-- TLB_CYCLE_START (R342, R362): the next domain cycle, or after a jump of domain time the cycle that holds it. -/
def Dev.cycleStart (d : Dev) : Dev :=
  if !d.ep.placed then d
  else
    let now := (d.nowNs - d.r Reg.EPK_ORIGIN) / d.tdc
    let n := if d.tlb.counting ∧ d.r Reg.TLB_DCYCLE = now then now + 1 else now
    let d := (d.reach (d.countAt (d.cycleNs n))).w Reg.TLB_DCYCLE n
    let d := d.each (d.tlb.peers.map (·.1)) (fun i d => d.add (Reg.TLB_PEER_AGE i) 1)
    let stop := d.tlb.stopNext
    let d := { d with tlb := { d.tlb with
      counting := true, stopNext := false, started := [], slotNow := none, queue := [],
      joinCycles := d.tlb.joinCycles + 1 } }
    if stop then d.tlbEnter 0 else d

/-- Meaning of TLB_CYCLE_START. -/
def execTlbCycleStart (s : State) : Host.Outcome State Fault Refusal := ok s (fun _ d => d.cycleStart)

/-- TLB_MEMBER_ENTRY (R362): after JOIN_CYCLES domain cycles in JOINING. -/
def Dev.memberEntry (d : Dev) : Dev :=
  if d.tlbState = 2 ∧ d.r Reg.TLB_GUARD_JOIN_CYCLES ≤ d.tlb.joinCycles then d.tlbEnter 3 else d

/-- Meaning of TLB_MEMBER_ENTRY. -/
def execTlbMemberEntry (s : State) : Host.Outcome State Fault Refusal := ok s (fun _ d => d.memberEntry)

/-! ### Frames (R340, R341) -/

/-- Bytes of an envelope (R544). -/
def envBytes (e : Envelope) : Nat := 8 + 4 * e.words.length

/-- Bytes of a frame, from the destination address to the FCS (R340). -/
def frameBytes (f : TlbFrame) : Nat :=
  let body := match f.type with
    | 0 => 4 * f.vals.length
    | 1 => (f.pdus.map (fun p => 16 + p.len)).foldl (· + ·) 0
    | 2 => (f.envs.map envBytes).foldl (· + ·) 0
    | _ => 296
  22 + max 46 (24 + body)

/-- The transmission time of `n` bytes at a speed code of TLB_PORT_STAT, ns. -/
def wireNs (speed n : Nat) : Nat :=
  match speed with
  | 0 => cdiv (n * 4) 5
  | 1 => cdiv (n * 16) 5
  | _ => n * 8

/-- The key of a frame (R339). -/
def frameKey (f : TlbFrame) : FrameKey := ⟨f.type, f.src, f.base, f.frag, f.epoch % 2 ^ 32⟩

/-- Values of one fragment (R341). -/
def fragValues : Nat := 360

/-- The image that carries a committed epoch, when it is one of the last two (R344). -/
def Dev.imageOfEpoch (d : Dev) (e : Nat) : Option Image :=
  if d.ep.newest.valid ∧ d.ep.newest.epoch = e then some d.ep.newest
  else if d.ep.before.valid ∧ d.ep.before.epoch = e then some d.ep.before else none

/-- The frame of one fragment of a publication (R344, R345); none for the further fragments of a null publication. -/
def Dev.dataFrame (d : Dev) (epoch : Int) (base frag : Nat) : Option TlbFrame :=
  let count := ((d.pubAt base).map (·.count)).getD 0
  let fr : TlbFrame := {
    type := 0, src := d.r Reg.TLB_DOMAIN_SELF, frag := frag, nfrag := cdiv count fragValues,
    k := d.r Reg.EPK_CFG_K, base := base, count := count, epoch := un 64 epoch }
  let img : Option Image := bif decide (0 ≤ epoch) && d.ep.front.valid then d.imageOfEpoch epoch.toNat else none
  let good := img.bind (fun m => (m.recs.find? (fun r => r.isLocal && r.base == base && r.current)).map (fun r => (m, r)))
  match good with
  | some (m, r) =>
    let n := min fragValues (count - fragValues * frag)
    some { fr with
      held := r.held,
      vals := (List.range n).map (fun i => W (Mem.word m.vals (4 * (base + fragValues * frag + i)))) }
  | none => if frag = 0 then some { fr with null := true, nfrag := 1 } else none

/-- The message words that a JOIN signature covers (R363). -/
def joinWords (f : TlbFrame) (j : JoinRec) : List Nat := [f.src, f.frag, f.epoch, f.k, j.fprint, j.cfgHash, j.dt, j.index]

/-- Sixteen register words as one number, first word least significant. -/
def Dev.words16 (d : Dev) (f : Nat → Field) : Nat := (List.range 16).foldl (fun n i => n + d.r (f i) * 2 ^ (32 * i)) 0

/-- The JOIN frame of a slot (R363). -/
def Dev.joinFrame (d : Dev) (epoch : Int) (frag : Nat) : TlbFrame :=
  let f : TlbFrame := { type := 3, src := d.r Reg.TLB_DOMAIN_SELF, frag := frag, k := d.r Reg.EPK_CFG_K, epoch := un 64 epoch }
  let j : JoinRec := {
    fprint := d.words16 Reg.SEC_FPRINT, cfgHash := d.words16 Reg.SEC_CFG_HASH, dt := d.nowNs,
    index := d.r Reg.TLB_DOMAIN_SELF }
  { f with join := some { j with sig := Config.signature (joinWords f j) } }

/-- The longest prefix of the envelopes that fits in a room of bytes (R545). -/
def fitting : Nat → List Envelope → List Envelope
  | _, [] => []
  | room, e :: r => if envBytes e ≤ room then e :: fitting (room - envBytes e) r else []

/-! ### Own slots (R343 … R348) -/

/-- Muting at an own slot start (R348). -/
def Dev.slotMute (d : Dev) : Dev :=
  let g := d.r Reg.TLB_GUARD_GUARD
  let e := d.errEst
  if d.b Reg.TLB_STAT_MUTE then (if 4 * e ≤ g then d.w Reg.TLB_STAT_MUTE 0 else d)
  else if g < 2 * e then (d.flag Reg.TLB_STAT_MUTE).inc Reg.TLB_MUTE_CNT else d

/-- The frames that own slot `s` of the present cycle sends, with their instants (R343, R344, R362, R545). -/
def Dev.slotFrames (d : Dev) (s : Nat) (sl : TlbSlot) : Dev :=
  let start := d.cycleNs (d.r Reg.TLB_DCYCLE) + sl.offs
  let epoch : Int := ((start : Int) - 1500 - d.r Reg.EPK_ORIGIN) / d.te - 1
  let member := d.tlbState == 3
  let listed := if member then sl.frames else []
  let frames : List (Nat × TlbFrame) := listed.foldl (fun acc x =>
    match x.2 with
    | .data base frag => match d.dataFrame epoch base frag with
      | some f => acc ++ [(start + x.1, f)]
      | none => acc
    | .safe conns =>
      let pdus := conns.filterMap (fun c =>
        match (Tab.look ({} : SafeConn) c d.brd.conns).pdus.find? (fun e => e.1 == s) with
        | some (_, p, cy) => if cy = d.r Reg.TLB_DCYCLE then some p else none
        | none => none)
      if pdus.isEmpty then acc
      else acc ++ [(start + x.1, {
        type := 1, src := d.r Reg.TLB_DOMAIN_SELF, frag := 16 * s + acc.length % 16, k := d.r Reg.EPK_CFG_K,
        epoch := un 64 epoch, pdus := pdus })]) []
  let after (l : List (Nat × TlbFrame)) : Nat := match l.getLast? with
    | some (t, f) => t + wireNs (d.r (Reg.TLB_PORT_STAT_SPEED 0)) (frameBytes f)
    | none => start
  let join := d.tlbState == 2 || (member && s == 0 && (d.tlb.joinDue || d.r Reg.TLB_DCYCLE % 1024 == 0))
  let frames := if join then frames ++ [(after frames, d.joinFrame epoch (16 * s + frames.length % 16))] else frames
  let d := if join then d.inc Reg.SEC_SIGN_CNT_JOIN else d
  let envs := if member then fitting (min sl.cmdRoom 1476) d.tlb.envOut else []
  let frames := if envs.isEmpty then frames else frames ++ [(after frames, {
    type := 2, src := d.r Reg.TLB_DOMAIN_SELF, frag := 16 * s + frames.length % 16, k := d.r Reg.EPK_CFG_K,
    epoch := un 64 epoch, envs := envs })]
  { d with tlb := { d.tlb with
    queue := frames, joinDue := d.tlb.joinDue && !(member && s == 0), envOut := d.tlb.envOut.drop envs.length,
    remotes := d.tlb.remotes.map (fun x =>
      if envs.any (fun e => !e.isReply && e.seq == x.seq) then { x with cycle := some (d.r Reg.TLB_DCYCLE) } else x) } }

/-- TLB_SLOT_START (R343, R348, R362). -/
def Dev.slotStart (d : Dev) (s : Nat) : Dev :=
  match d.tlb.slots[s]? with
  | none => d
  | some sl =>
    if d.tlbState = 0 ∨ ¬ d.tlb.counting ∨ d.tlb.started.contains s then d
    else
      let d := d.reach (d.countAt (d.cycleNs (d.r Reg.TLB_DCYCLE) + sl.offs))
      let d := { d with tlb := { d.tlb with started := s :: d.tlb.started, slotNow := some s, queue := [] } }
      let d := d.slotMute
      if d.b Reg.TLB_STAT_MUTE then d
      else
        let d := if d.tlbState = 1 then
            ({ d with tlb := { d.tlb with joinCycles := 0 } }).tlbEnter 2 else d
        if d.b Reg.PAIR_STAT_HOLDER then d.slotFrames s sl else d

/-- Meaning of TLB_SLOT_START. -/
def execTlbSlotStart (slot : Fin 16) (s : State) : Host.Outcome State Fault Refusal := ok s (fun _ d => d.slotStart slot.val)

/-- The instant at which the gate of the slot in progress closes, ns (R346). -/
def Dev.gateNs (d : Dev) : Nat :=
  match d.tlb.slotNow.bind (fun s => d.tlb.slots[s]?) with
  | some sl => d.cycleNs (d.r Reg.TLB_DCYCLE) + sl.offs + sl.len - d.r Reg.TLB_GUARD_GUARD
  | none => 0

/-- TLB_FRAME_SEND (R344, R347): the next frame of the slot leaves on every port with link at its instant, or `busy` ns later
on a port that a frame still occupies. -/
def Dev.frameSend (d : Dev) (busy : List Nat) : Dev :=
  match d.tlb.queue with
  | [] => d
  | (due, f) :: rest =>
    let d := d.reach (d.countAt due)
    let d := { d with tlb := { d.tlb with queue := rest } }
    let d := if f.null then d.inc Reg.TLB_NULL_TX_CNT else d
    d.each ((List.range 4).filter (linkUp d)) (fun p d =>
      let t := due + busy.getD p 0
      if d.gateNs ≤ t then d
      else
        let d := d.inc (Reg.TLB_TX_FRAMES p)
        { d with tlb := { d.tlb with
          ownEnd := Tab.put p (t + wireNs (d.r (Reg.TLB_PORT_STAT_SPEED p)) (frameBytes f)) d.tlb.ownEnd,
          waiting := Tab.put p 0 d.tlb.waiting,
          tx := d.tlb.tx ++ [{ port := p, instant := t, frame := { f with net := p / 2 } }] } })
where
  /-- The port has link. -/
  linkUp (d : Dev) (p : Nat) : Bool := d.b (Reg.TLB_PORT_STAT_LINK p)

/-- Meaning of TLB_FRAME_SEND. -/
def execTlbFrameSend (busy : List Nat) (s : State) : Host.Outcome State Fault Refusal := ok s (fun _ d => d.frameSend busy)

/-- Mark the newest own frame of a port as cut. -/
def cutLast (p : Nat) : List TlbTx → List TlbTx
  | [] => []
  | x :: r =>
    if x.port == p && !x.forwarded && !(r.any (fun y => y.port == p && !y.forwarded)) then
      { x with cut := true, frame := { x.frame with fcsOk := false } } :: r
    else x :: cutLast p r

/-- TLB_GATE_CLOSE (R346): a frame whose last byte would leave after the gate is cut; frames not begun stay unsent, their
envelopes wait for the next slot. -/
def Dev.gateClose (d : Dev) : Dev :=
  if d.tlb.slotNow.isNone then d
  else
    let gate := d.gateNs
    let d := d.reach (d.countAt gate)
    let d := d.each [0, 1, 2, 3] (fun p d =>
      if gate < Tab.look 0 p d.tlb.ownEnd then
        let d := d.inc (Reg.TLB_TX_ABORT p)
        { d with tlb := { d.tlb with ownEnd := Tab.put p gate d.tlb.ownEnd, tx := cutLast p d.tlb.tx } }
      else d)
    let back := d.tlb.queue.flatMap (fun x => x.2.envs)
    { d with tlb := { d.tlb with slotNow := none, queue := [], envOut := back ++ d.tlb.envOut } }

/-- Meaning of TLB_GATE_CLOSE. -/
def execTlbGateClose (s : State) : Host.Outcome State Fault Refusal := ok s (fun _ d => d.gateClose)

/-! ### Forwarding (R339, R347) -/

/-- TLB_FRAME_FORWARD: a frame received on port `p` leaves on the other port of its network, HOPS one higher. -/
def Dev.frameForward (d : Dev) (p : Nat) (f : TlbFrame) (cIn : Nat) : Dev :=
  let d := d.reach cIn
  let out := if p % 2 = 0 then p + 1 else p - 1
  let net := p / 2
  let keys := Tab.look [] net d.tlb.fwdKeys
  if d.tlbState = 0 then d
  else if f.hops = 63 then d.inc (Reg.TLB_HOPS_DROP p)
  else if keys.contains (frameKey f) then d.inc (Reg.TLB_DUP p)
  else if !d.b (Reg.TLB_PORT_STAT_LINK out) then d
  else
    let occupied := decide (d.nowNs < Tab.look 0 out d.tlb.ownEnd)
    let w := if occupied then Tab.look 0 out d.tlb.waiting else 0
    if occupied && decide (2 ≤ w) then d.inc (Reg.TLB_FWD_DROP out)
    else
      let at' := if occupied then Tab.look 0 out d.tlb.ownEnd else d.nowNs + fwdLat (d.r (Reg.TLB_PORT_STAT_SPEED out))
      { d with tlb := { d.tlb with
        waiting := Tab.put out (if occupied then w + 1 else 0) d.tlb.waiting,
        fwdKeys := Tab.put net (((frameKey f) :: keys).take 512) d.tlb.fwdKeys,
        tx := d.tlb.tx ++ [{ port := out, instant := at', frame := { f with hops := f.hops + 1 }, forwarded := true }] } }
where
  /-- FWD_LAT by speed code, ns. -/
  fwdLat : Nat → Nat
    | 0 => 640
    | 1 => 1900
    | _ => 4200

/-- Meaning of TLB_FRAME_FORWARD. -/
def execTlbFrameForward (port : Fin 4) (f : TlbFrame) (cIn : Nat) (s : State) : Host.Outcome State Fault Refusal :=
  ok s (fun _ d => d.frameForward port.val f cIn)

/-! ### Receiving (R349, R350) -/

/-- The first byte of a frame at the MDI, in 2^-32 ns of domain time (R349). -/
def Dev.firstByte (d : Dev) (p cIn : Nat) : Int :=
  let a := d.anchorOf cIn
  anchorTime a (20 * ((cIn : Int) - a.c) - d.r (Reg.PORT_LAT_RX_LAT p))

/-- The arrival instants that the receive schedule gives a frame on a port, around an instant, ns (R349). -/
def Dev.arrivals (d : Dev) (p : Nat) (f : TlbFrame) (t : Int) : List Int :=
  let c : Int := (t / 2 ^ 32 - d.r Reg.EPK_ORIGIN) / d.tdc
  (d.tlb.sched.filter (fun e =>
    e.port == p && e.type == f.type && e.src == f.src && e.base == f.base && e.frag == f.frag)).flatMap (fun e =>
      [c - 1, c, c + 1].map (fun i => (d.r Reg.EPK_ORIGIN : Int) + i * d.tdc + e.arrival))

/-- The checks of R350 in their order; true when the frame is consumed. -/
def Dev.rxChecks (d : Dev) (p : Nat) (f : TlbFrame) (cIn : Nat) : Dev × Bool :=
  let t := d.firstByte p cIn
  let g : Int := d.r Reg.TLB_GUARD_GUARD
  let inst := d.arrivals p f t
  if d.tlbState = 0 ∨ f.version ≠ 1 then (d, false)
  else if !f.fcsOk then (d.inc (Reg.TLB_FCS p), false)
  else match inst with
  | [] => (d, false)
  | a0 :: rest =>
    if !inst.any (fun a => decide ((a - g) * 2 ^ 32 ≤ t) && decide (t < (a + g) * 2 ^ 32)) then
      let near := rest.foldl (fun b a => if (t - a * 2 ^ 32).natAbs < (t - b * 2 ^ 32).natAbs then a else b) a0
      (if t < near * 2 ^ 32 then d.inc (Reg.TLB_EARLY p) else d.inc (Reg.TLB_LATE p), false)
    else
      let st := d.r (Reg.TLB_PEER_STATE f.src)
      let seen := if f.type = 1 then Tab.look [] (p / 2) d.tlb.seenSafe else d.tlb.seen
      if (if f.type = 3 then st = 3 else st ≠ 2) then (d.inc Reg.TLB_NOT_ADM_CNT, false)
      else if seen.contains (frameKey f) then (d.inc (Reg.TLB_DUP p), false)
      else
        let seen := ((frameKey f) :: seen).take 512
        let d := if f.type = 1 then
            { d with tlb := { d.tlb with seenSafe := Tab.put (p / 2) seen d.tlb.seenSafe } }
          else { d with tlb := { d.tlb with seen := seen } }
        ((d.inc (Reg.TLB_RX_OK p)).w (Reg.TLB_PEER_AGE f.src) 0, true)

/-- A frame of type `type` that passes the checks is consumed by `use`. -/
def Dev.receive (d : Dev) (type : Nat) (p : Nat) (f : TlbFrame) (cIn : Nat) (use : Dev → Dev) : Dev :=
  let d := d.reach cIn
  if f.type ≠ type then d
  else
    let (d, good) := d.rxChecks p f cIn
    if good then use d else d

/-- A consumed DATA frame (R350): its null frame or its last fragment completes the publication. -/
def Dev.useData (d : Dev) (f : TlbFrame) : Dev :=
  let same (x : Partial) : Bool := x.src == f.src && x.base == f.base && x.epoch == f.epoch
  let others := d.tlb.partials.filter (fun x => !same x)
  if f.null then
    ({ d with tlb := { d.tlb with partials := others } }).inc Reg.TLB_NULL_RX_CNT |>.deliverPub f.src f.base
      { epoch := f.epoch, null := true, held := f.held, vals := [] }
  else
    let old : Partial := (d.tlb.partials.find? same).getD { src := f.src, base := f.base, epoch := f.epoch, got := [] }
    let now : Partial := { old with got := Tab.put f.frag f.vals old.got }
    if f.nfrag ≤ now.got.length then
      ({ d with tlb := { d.tlb with partials := others } }).deliverPub f.src f.base
        { epoch := f.epoch, null := false, held := f.held, vals := now.got.flatMap (fun (e : Nat × List Word) => e.2) }
    else { d with tlb := { d.tlb with partials := others ++ [now] } }

/-- Meaning of DATA_FRAME_RECEIVE. -/
def execDataFrameReceive (port : Fin 4) (f : TlbFrame) (cIn : Nat) (s : State) : Host.Outcome State Fault Refusal :=
  ok s (fun _ d => d.receive 0 port.val f cIn (fun d => d.useData f))

/-- Meaning of SAFE_FRAME_RECEIVE (R350): one copy from each network reaches Bridle. -/
def execSafeFrameReceive (port : Fin 4) (f : TlbFrame) (cIn : Nat) (s : State) : Host.Outcome State Fault Refusal :=
  ok s (fun _ d => d.receive 1 port.val f cIn (fun d =>
    { d with brd := { d.brd with rx := d.brd.rx ++ f.pdus.map (fun x => (port.val / 2, f.src, x)) } }))

/-! ### Envelopes (R544 … R546) -/

/-- Send a packet to a producer in an envelope and await its reply; answers the sequence number. -/
def Dev.sendRequest (d : Dev) (dest : Nat) (priv attest : Bool) (words : List Word) : Dev × Nat :=
  let q := d.tlb.envSeq
  ({ d with tlb := { d.tlb with
    envSeq := (q + 1) % 2 ^ 32,
    envOut := d.tlb.envOut ++ [⟨dest, d.r Reg.TLB_DOMAIN_SELF, false, priv, q, words⟩],
    remotes := d.tlb.remotes ++ [⟨q, dest, attest, none⟩] } }, q)

/-- A reply in an envelope (R546): it answers the command that waits for it, under that command's tag; a late one is
counted. -/
def Dev.remoteReply (d : Dev) (e : Envelope) : Dev :=
  match d.tlb.remotes.find? (fun x => x.seq == e.seq && x.dest == e.origin) with
  | none => d.inc Reg.BB_CMD_CNT_LATE
  | some r =>
    let d := { d with tlb := { d.tlb with remotes := d.tlb.remotes.filter (fun x => x.seq != e.seq) } }
    let w (i : Nat) : Nat := (e.words.getD i 0).toNat
    let data := (e.words.drop 3).map BitVec.toNat
    if r.attest then
      d.settle 0x806 e.seq { status := w 2 % 2 ^ 16, detail := w 2 / 2 ^ 16, data := data }
    else
      let hit := d.host.outstanding.filter (fun x => x.opcode == 0x010 && x.key == e.seq)
      let d := { d with host := { d.host with
        outstanding := d.host.outstanding.filter (fun x => !(x.opcode == 0x010 && x.key == e.seq)) } }
      d.each hit (fun x d =>
        d.answerOut x (w 0 / 2 ^ 20) { status := w 2 % 2 ^ 16, detail := w 2 / 2 ^ 16, data := data })

/-- Requests of one kind whose reply has not arrived within 16 domain cycles of their slot give TIMEOUT (R366, R546). -/
def Dev.remoteTimeouts (d : Dev) (attest : Bool) : Dev :=
  let late (x : Remote) : Bool := x.attest == attest && (match x.cycle with
    | some c => decide (c + 16 ≤ d.r Reg.TLB_DCYCLE)
    | none => false)
  let gone := d.tlb.remotes.filter late
  let d := { d with tlb := { d.tlb with remotes := d.tlb.remotes.filter (fun x => !late x) } }
  d.each gone (fun x d => d.settle (if attest then 0x806 else 0x010) x.seq .timeout)

/-- A consumed CMD frame (R545): the replies for this producer reach the commands that wait for them; its packets wait for
Farrier on the REIN holder, while envelopes are executed at all. -/
def Dev.useCmd (d : Dev) (f : TlbFrame) : Dev :=
  d.each (f.envs.filter (fun e => e.dest == d.r Reg.TLB_DOMAIN_SELF)) (fun e d =>
    if e.isReply then d.remoteReply e
    else if d.b Reg.PAIR_STAT_HOLDER && d.b Reg.GLB_HOST_CFG_BB_CMD_EN then
      ({ d with tlb := { d.tlb with envIn := d.tlb.envIn ++ [e] } }).inc Reg.BB_CMD_CNT_EXEC
    else d)

/-- Meaning of CMD_FRAME_RECEIVE. -/
def execCmdFrameReceive (port : Fin 4) (f : TlbFrame) (cIn : Nat) (s : State) : Host.Outcome State Fault Refusal :=
  ok s (fun _ d => d.receive 2 port.val f cIn (fun d => d.useCmd f))

/-! ### Peers (R364, R365) -/

/-- Change what is kept of a peer. -/
def Dev.setPeer (d : Dev) (i : Nat) (x : TlbPeer) : Dev := { d with tlb := { d.tlb with peers := Tab.put i x d.tlb.peers } }

/-- A consumed JOIN frame (R364). -/
def Dev.useJoin (d : Dev) (f : TlbFrame) : Dev :=
  match f.join, d.tlb.peers.find? (fun e => e.1 == f.src) with
  | some j, some (_, x) =>
    match d.r (Reg.TLB_PEER_STATE f.src) with
    | 0 => (d.w (Reg.TLB_PEER_STATE f.src) 1).setPeer f.src { x with cand := some j }
    | 2 =>
      let old := x.known.getD j
      let newHash := j.cfgHash != old.cfgHash
      let d := d.flagIf newHash (Reg.TLB_PEER_CFG_CHANGED f.src)
      if x.cand.isNone && (newHash || j.fprint != old.fprint) then d.setPeer f.src { x with cand := some j } else d
    | _ => d
  | _, _ => d

/-- Meaning of JOIN_FRAME_RECEIVE. -/
def execJoinFrameReceive (port : Fin 4) (f : TlbFrame) (cIn : Nat) (s : State) : Host.Outcome State Fault Refusal :=
  ok s (fun _ d => d.receive 3 port.val f cIn (fun d => d.useJoin f))

/-- JOIN_VERIFY_DONE (R364, R365): `sigOk` is Farrier's verdict on the signature. -/
def Dev.joinVerified (d : Dev) (i : Nat) (sigOk : Bool) : Dev :=
  match d.tlb.peers.find? (fun e => e.1 == i) with
  | some (_, x) =>
    match x.cand with
    | some j =>
      let now := d.nowNs
      let fresh := decide (now ≤ j.dt + 1000000000) && decide (j.dt < now + 1000000)
      let expected := j.fprint == x.fp0 || j.fprint == x.fp1
      if expected && sigOk && fresh then
        ((d.w (Reg.TLB_PEER_STATE i) 2).wb (Reg.TLB_PEER_WHICH i) (j.fprint != x.fp0)).setPeer i
          { x with known := some j, cand := none }
      else ((d.w (Reg.TLB_PEER_STATE i) 3).flagIf (!expected) (Reg.TLB_PEER_REPLACED i)).setPeer i { x with cand := none }
    | none => d
  | none => d

/-- Meaning of JOIN_VERIFY_DONE. -/
def execJoinVerifyDone (producer : Fin 4096) (sigOk : Bool) (s : State) : Host.Outcome State Fault Refusal :=
  ok s (fun _ d => d.joinVerified producer.val sigOk)

/-- TLB_LINK_CHANGE (R337): link and speed of a port; NET_UP shows the networks with a linked port. -/
def Dev.linkChange (d : Dev) (p : Nat) (up : Bool) (speed : Nat) : Dev :=
  let d := (d.wb (Reg.TLB_PORT_STAT_LINK p) up).w (Reg.TLB_PORT_STAT_SPEED p) speed
  let l (i : Nat) : Bool := d.b (Reg.TLB_PORT_STAT_LINK i)
  d.w Reg.TLB_STAT_NET_UP (b2n (l 0 || l 1) + 2 * b2n (l 2 || l 3))

/-- Meaning of TLB_LINK_CHANGE. -/
def execTlbLinkChange (port : Fin 4) (up : Bool) (speed : Fin 3) (s : State) : Host.Outcome State Fault Refusal :=
  ok s (fun _ d => d.linkChange port.val up speed.val)

/-- A write of TLB_CFG: ignored outside OFF, with CFG_BUSY. -/
def Dev.tlbCfgWrite (d : Dev) (v : Nat) : Dev := if d.tlbState = 0 then d.putReg 0x80_0000 v else d.flag Reg.TLB_STAT_CFG_BUSY

/-! ### Commands (R367, R368) -/

/-- Meaning of TLB_INFO: the seven global counters are those of 0x0018 … 0x0030. -/
def execTlbInfo (p : Packet) (s : State) : Host.Outcome State Fault Refusal :=
  ok s (fun g d => d.runPacket g { opcode := 0x800, need := needN 0, replyLen := fun _ => 15 } p (fun d _ =>
    (d, .ok ([d.regWord 0x80_0004, d.regWord 0x80_0008, d.regWord 0x80_000C, loW (d.r Reg.TLB_DCYCLE),
      hiW (d.r Reg.TLB_DCYCLE)] ++ (List.range 7).map (fun i => d.regWord (0x80_0018 + 4 * i))))))

/-- Meaning of TLB_PORT_READ. -/
def execTlbPortRead (p : Packet) (s : State) : Host.Outcome State Fault Refusal :=
  ok s (fun g d => d.runPacket g { opcode := 0x801, need := needN 1, replyLen := fun _ => 13 } p (fun d ps =>
    let n := ps.getD 0 0
    if 4 ≤ n then (d, .badParam 2)
    else (d, .ok ((List.range 10).map (fun i => d.regWord (0x80_0100 + 0x40 * n + 4 * i))))))

/-- Meaning of TLB_PEER_READ. -/
def execTlbPeerRead (p : Packet) (s : State) : Host.Outcome State Fault Refusal :=
  ok s (fun g d => d.runPacket g { opcode := 0x802, need := needN 2, replyLen := fun ps => 3 + ps.getD 1 0 } p (fun d ps =>
    match rangeBad (ps.getD 0 0) (ps.getD 1 0) 256 4096 with
    | some w => (d, .badParam w)
    | none => (d, .ok ((List.range (ps.getD 1 0)).map (fun i => d.regWord (0x81_0000 + 4 * (ps.getD 0 0 + i)))))))

/-- Meaning of TLB_START (R362). -/
def execTlbStart (p : Packet) (s : State) : Host.Outcome State Fault Refusal :=
  ok s (fun g d => d.runPacket g { opcode := 0x803, priv := true, need := needN 0 } p (fun d _ =>
    if d.tlbState = 0 then (d.tlbEnter 1, .ok []) else (d, .busy)))

/-- Meaning of TLB_STOP (R362): OFF at the next cycle start. -/
def execTlbStop (p : Packet) (s : State) : Host.Outcome State Fault Refusal :=
  ok s (fun g d => d.runPacket g { opcode := 0x804, priv := true, need := needN 0 } p (fun d _ =>
    let n := d.r Reg.TLB_DCYCLE + 1
    (if d.tlbState = 0 then d else { d with tlb := { d.tlb with stopNext := true } }, .ok [loW n, hiW n])))

/-- The four TLB_SAFE words of a connection; `tx` marks a transmit connection. -/
def SafeConn.words (x : SafeConn) (tx : Bool) : List Nat :=
  [x.st + 4 * b2n x.watchdog + 8 * b2n x.mismatch + 16 * b2n x.single + 32 * b2n x.degraded + 64 * x.singleNet +
     128 * b2n tx + 256 * (x.singleRun % 256) + 65536 * (x.seq % 65536),
   x.crcErr + 65536 * x.seqErr, x.ageErr + 65536 * x.masq, x.singleCnt]

/-- The status words of backbone connection `c`. -/
def Dev.safeWords (d : Dev) (c : Nat) : List Nat := (Tab.look ({} : SafeConn) c d.brd.conns).words (decide (256 ≤ c))

/-- Meaning of TLB_SAFE_READ. -/
def execTlbSafeRead (p : Packet) (s : State) : Host.Outcome State Fault Refusal :=
  ok s (fun g d => d.runPacket g { opcode := 0x805, need := needN 1, replyLen := fun _ => 7 } p (fun d ps =>
    let c := ps.getD 0 0
    if 512 ≤ c then (d, .badParam 2) else (d, .ok (d.safeWords c))))

/-- Meaning of TLB_ATTEST (R366): the request travels as a packet of SEC_ATTEST. -/
def execTlbAttest (p : Packet) (s : State) : Host.Outcome State Fault Refusal :=
  let spec : CmdSpec := { opcode := 0x806, priv := true, need := needN 3, replyLen := fun _ => 131 }
  ok s (fun g d => d.runPacketW g spec p (fun d ps =>
    let i := ps.getD 0 0
    if 4096 ≤ i ∨ d.r (Reg.TLB_PEER_STATE i) ≠ 2 then (d, some (.badParam 2))
    else if d.tlb.remotes.any (·.attest) then (d, some .busy)
    else
      let (d, q) := d.sendRequest i false true [W (0xE01 * 2 ^ 20 + 4), 0#32, W (ps.getD 1 0), W (ps.getD 2 0)]
      (d.wait spec p q i, none)))

/-- Meaning of TLB_ATTEST_TIMEOUT. -/
def execTlbAttestTimeout (s : State) : Host.Outcome State Fault Refusal := ok s (fun _ d => d.remoteTimeouts true)

end Sys2Proof.Machine
end

