-- ==== Sys2Proof/Machine/PairCore.lean ====
section
/-!
DEFINITION. Machine/PairCore.lean: REIN_HOLD, the field dies that follow it, and the module reset that a fall of REIN
causes (R489 … R493, R569, R570).
-/
namespace Sys2Proof.Machine

/-- PAIR_STAT.STATE changes; GLB_HEALTH.PAIR_CHANGE shows it. -/
def Dev.pairEnter (d : Dev) (st : Nat) : Dev :=
  if d.r Reg.PAIR_STAT_STATE = st then d
  else d.withHealth (fun d => (d.w Reg.PAIR_STAT_STATE st).flag Reg.GLB_HEALTH_PAIR_CHANGE)

/-- Bring the team lands and the field outputs to what the field dies drive (R491). -/
def Dev.driveDies (d : Dev) : Dev := (d.each (List.range 24) (fun t d => d.driveTeam t)).driveOutputs

/-- The field dies start to drive, or release their outputs (R491, R493). -/
def Dev.setDriving (d : Dev) (on : Bool) : Dev :=
  let d := { d with pair := { d.pair with driving := on, gapHold := false } }
  let d := if on then d else d.w Reg.BRD_TP_ON 0
  d.driveDies

/-- A register address of a block that a module reset leaves alone (R569): timebase, field dies, fuses and flash, supplies,
reset counts, physical links, and Bridle when it is in SAFE. -/
def keptAddr (safe : Bool) (a : Nat) : Bool :=
  (decide (0x90_0000 ≤ a) && decide (a < 0xA0_0000)) || (decide (0x40_0000 ≤ a) && decide (a < 0x50_0000)) ||
  (decide (0xC0_0000 ≤ a) && decide (a < 0xD0_0000)) || (decide (0xE0_0000 ≤ a) && decide (a < 0xF0_0000)) ||
  a == 0x3C || a == 0x40 || (decide (0x80_0100 ≤ a) && decide (a < 0x80_0200) && a % 0x40 == 0x24) ||
  (safe && decide (0xB0_0000 ≤ a) && decide (a < 0xC0_0000))

/-- Module reset (R569, R570): everything but what `keptAddr` names starts again at boot stage FW. -/
def Dev.moduleReset (d : Dev) (cause : Nat) (cmd : Bool) : Dev :=
  let safe := d.r Reg.BRD_STAT_STATE == 4
  let links := [0, 1, 2, 3].filter (fun p => d.b (Reg.CRD_PORT_STAT_LINK p))
  let role := d.b Reg.PAIR_STAT_ROLE
  let peerHold := d.b Reg.PAIR_STAT_PEER_HOLD
  let lanes := d.r Reg.PAIR_STAT_TACK_UP
  let last := d.r Reg.PAIR_LAST_CAUSE
  let d0 : Dev := {
    regs := d.regs.filter (fun e => keptAddr safe (e.1 / 32)),
    mem := d.mem.filter (fun c => keptAddr safe c.1),
    host := { perst := d.host.perst },
    boot := { nrstLow := false, phyUp := d.boot.phyUp, servo := d.boot.servo, xspiEnd := d.time.c + 8000 },
    time := d.time, fio := d.fio, team := d.team,
    crd := { nodes := d.crd.nodes }, tlb := { tx := d.tlb.tx },
    pair := { driving := d.pair.driving, gapHold := d.pair.gapHold },
    brd := if safe then d.brd else {},
    sec := { d.sec with nonce := none, flashEnd := 0, rollEnd := 0, signEnds := [], background := [] } }
  let d1 := d0.each links (fun p d => d.flag (Reg.CRD_PORT_STAT_LINK p))
  let d1 := (((d1.wb Reg.PAIR_STAT_ROLE role).wb Reg.PAIR_STAT_PEER_HOLD peerHold).w Reg.PAIR_STAT_TACK_UP lanes).w
    Reg.PAIR_LAST_CAUSE last
  let d1 := (((d1.w Reg.GLB_RST_CAUSE_POR 0).w Reg.GLB_RST_CAUSE_MODULE 1).wb Reg.GLB_RST_CAUSE_CMD cmd).w
    Reg.GLB_RST_CAUSE_REIN_CAUSE cause
  let d1 := (if safe then d1 else d1.w Reg.BRD_STAT_STATE 1).w Reg.SEC_STAT_DEBUG_OPEN 0
  ((d1.inc Reg.GLB_RST_CNT_MODULE).w Reg.GLB_BOOT_STAGE 4).pins

/-- REIN_HOLD falls (R492): the cause is recorded; the field dies hold for causes 1 … 4, and causes 1 … 3 reset the module. -/
def Dev.reinFall (d : Dev) (cause : Nat) : Dev :=
  if !d.b Reg.PAIR_STAT_HOLDER then d
  else
    let d := ((d.w Reg.PAIR_STAT_HOLDER 0).w Reg.PAIR_LAST_CAUSE cause).showTx
    let d := { d with pair := { d.pair with gapHold := d.pair.driving && decide (cause ≤ 4) } }
    if cause ≤ 3 then d.moduleReset cause false else d

/-- REIN_HOLD is asserted (R490); the field dies drive once it has been asserted for 2 µs (FIELD_DIE_DRIVE_START). -/
def Dev.reinClaim (d : Dev) : Dev :=
  let d := (d.w Reg.PAIR_STAT_HOLDER 1).showTx
  { d with pair := { d.pair with reinC := d.time.c } }

end Sys2Proof.Machine
end

