-- ==== Sys2Proof/Machine/BridleConn.lean ====
section
/-!
DEFINITION. Machine/BridleConn.lean: safe PDUs, safe connections on the backbone and on the rings, and sensor reports
(R352 … R360, R456 … R460).
-/
namespace Sys2Proof.Machine

/-! ### CRC-32C and PDUs (R353, R354) -/

/-- One bit of the reflected CRC-32C. -/
def crcBit (c : Nat) : Nat := if c % 2 = 1 then Nat.xor (c / 2) 0x82F6_3B78 else c / 2

/-- One byte of the CRC. -/
def crcByte (c b : Nat) : Nat := (List.range 8).foldl (fun c _ => crcBit c) (Nat.xor c (b % 256))

/-- CRC-32C of a byte string (R354). -/
def crc32c (bs : List Nat) : Nat := Nat.xor (bs.foldl crcByte 0xFFFF_FFFF) 0xFFFF_FFFF

/-- The low `n` bytes of a number, least significant first. -/
def bytesOf : Nat → Nat → List Nat
  | 0, _ => []
  | n + 1, x => x % 256 :: bytesOf n (x / 256)

/-- Bytes 0 … 11 + LEN of a PDU (R353). -/
def pduBytes (p : SafePdu) : List Nat :=
  bytesOf 4 p.connId ++ bytesOf 2 p.seq ++ [p.flags % 256, p.len % 256] ++ bytesOf 4 p.ts ++
    (p.data.flatMap (fun w => bytesOf 4 w.toNat)).take p.len

/-- The CRC of a PDU under a connection's SEED (R354). -/
def pduCrc (seed : Nat) (p : SafePdu) : Nat := crc32c (bytesOf 8 seed ++ pduBytes p)

/-- A PDU as 16-bit ring words, little-endian, zero-padded to `n` words (R456). -/
def pduWords (p : SafePdu) (n : Nat) : List Nat :=
  let bs := pduBytes p ++ bytesOf 4 p.crc
  (List.range n).map (fun i => bs.getD (2 * i) 0 + 256 * bs.getD (2 * i + 1) 0)

/-- The PDU that ring words spell (R456). -/
def pduOfWords (ws : List Nat) : SafePdu :=
  let w (i : Nat) : Nat := ws.getD i 0
  let len := w 3 / 256
  { connId := w 0 + 65536 * w 1, seq := w 2, flags := w 3 % 256, len := len, ts := w 4 + 65536 * w 5,
    data := (List.range (len / 4)).map (fun i => W (w (6 + 2 * i) + 65536 * w (7 + 2 * i))),
    crc := w (6 + len / 2) + 65536 * w (7 + len / 2) }

/-! ### Connection records and states -/

/-- Word `w` of the record of connection `c`: 0 … 511 backbone, 512 + r ring connection r. -/
def Dev.connWord (d : Dev) (c w : Nat) : Nat :=
  if c < 512 then d.mw (0xB1_6000 + 0x20 * c + 4 * w) else d.mw (0xB1_4000 + 0x20 * (c - 512) + 4 * w)

/-- The connection is configured: CONN_ID is not 0. -/
def Dev.connUsed (d : Dev) (c : Nat) : Bool := d.connWord c 0 != 0

/-- The SEED. -/
def Dev.connSeed (d : Dev) (c : Nat) : Nat := pair64 (d.connWord c 1) (d.connWord c 2)

/-- KIND: 0 BITS, 1 SENSOR, 2 DRIVE. -/
def Dev.connKind (d : Dev) (c : Nat) : Nat := bits (d.connWord c 4) 9 2

/-- LEN, data bytes. -/
def Dev.connLen (d : Dev) (c : Nat) : Nat := bits (d.connWord c 4) 12 7

/-- What Bridle keeps of a connection. -/
def Dev.conn (d : Dev) (c : Nat) : SafeConn := Tab.look {} c d.brd.conns

/-- Change what Bridle keeps of a connection. -/
def Dev.setConn (d : Dev) (c : Nat) (x : SafeConn) : Dev := { d with brd := { d.brd with conns := Tab.put c x d.brd.conns } }

/-- A data word of a connection: 0 outside RUN (R359). -/
def Dev.connData (d : Dev) (c i : Nat) : Nat := if (d.conn c).st = 2 then (d.conn c).data.getD i 0 else 0

/-- The low 32 bits of the present tick, the TS of a PDU built now. -/
def Dev.tickTs (d : Dev) : Nat := d.r Reg.BRD_TICK % 2 ^ 32

/-- The connection fails (R359): waiting copies are dropped. -/
def SafeConn.fail (x : SafeConn) : SafeConn := { x with st := 3, wait := [] }

/-- (SEQ − last SEQ) mod 65 536 lies in [1, 4 096) and TS is later than that of the last PDU (R356). -/
def SafeConn.inOrder (x : SafeConn) (p : SafePdu) : Bool :=
  let ds := (p.seq + 65536 - x.seq % 65536) % 65536
  decide (0 < sx 32 (p.ts + 2 ^ 32 - x.ts % 2 ^ 32)) && decide (1 ≤ ds) && decide (ds < 4096)

/-! ### Sensor reports (R458, R459) -/

/-- The intruder record in four data words. -/
def intruderOf (ws : List Nat) : Intruder :=
  let w (i : Nat) : Nat := ws.getD i 0
  { track := bits (w 0) 24 8, x := sx 24 (w 0), y := sx 24 (w 1), radius := bits (w 2) 0 12, height := bits (w 2) 12 12,
    vb := bits (w 3) 0 16 }

/-- The records of a fragment's data words. -/
def fragRecords (ws : List Nat) : List Intruder :=
  (List.range ((ws.length - 1) / 4)).map (fun i => intruderOf ((ws.drop (1 + 4 * i)).take 4))

/-- The sensor that a SENSOR connection serves: the low four bits of FN_BASE. -/
def Dev.connSensor (d : Dev) (c : Nat) : Nat := bits (d.connWord c 6) 0 4

/-- A delivered SENSOR PDU (R459): a new report number drops an unfinished report; the last fragment verifies the report
or discards it. -/
def Dev.sensorPdu (d : Dev) (c : Nat) (p : SafePdu) : Dev :=
  let x := d.conn c
  let ws := p.data.map BitVec.toNat
  let w0 := ws.getD 0 0
  let rep := bits w0 0 8
  let nfrag := bits w0 13 5 + 1
  let fresh := match x.report with
    | some (r, _, _) => r != rep
    | none => true
  let d := if fresh then d.add Reg.BRD_RPT_DROP x.frags.length else d
  let first := match x.report with
    | some (r, _, t) => if r = rep then t else p.ts
    | none => p.ts
  let frags := Tab.put (bits w0 8 5) ws (if fresh then [] else x.frags)
  if frags.length < nfrag then d.setConn c { x with report := some (rep, nfrag, first), frags := frags }
  else
    let d := d.setConn c { x with report := none, frags := [] }
    if sx 32 (d.tickTs + 2 ^ 32 - first % 2 ^ 32) ≤ bits (d.connWord c 6) 13 8 then
      let serial := d.brd.serial + 1
      let recs := (frags.flatMap (fun (e : Nat × List Nat) => fragRecords e.2)).take (bits w0 18 7)
      { d with brd := { d.brd with
        serial := serial,
        reports := Tab.put (d.connSensor c) ⟨serial, bitOf w0 25, bits w0 18 7, recs⟩ d.brd.reports } }
    else d.add Reg.BRD_RPT_DROP frags.length

/-! ### Checking and delivering (R356 … R359) -/

/-- SAFE_PDU delivered (R357, R358): `single` names the network of a single copy, none for compared copies. -/
def Dev.deliver (d : Dev) (c : Nat) (p : SafePdu) (single : Option Nat) : Dev :=
  let x := d.conn c
  let x := { x with st := 2, seq := p.seq, ts := p.ts, tick := d.brd.n, data := p.data.map BitVec.toNat }
  let x := if 512 ≤ c then x
    else match single with
      | none => { x with singleRun := 0, degraded := false }
      | some net =>
        let run := satU 8 (x.singleRun + 1)
        let x := { x with singleRun := run, singleNet := net, singleCnt := satU 32 (x.singleCnt + 1) }
        if run < bits (d.connWord c 4) 0 8 then x
        else
          let x := { x with degraded := true }
          if bitOf (d.connWord c 4) 8 then { x with single := true }.fail else x
  let x := { x with wait := x.wait.filter (fun e => x.inOrder e.2.2) }
  let d := d.setConn c x
  if d.connKind c = 1 then d.sensorPdu c p else d

/-- Checks 2 to 4 of R356 on connection `c`; none when the PDU passes, else the connection with its counter. -/
def Dev.pduBad (d : Dev) (c : Nat) (p : SafePdu) : Option SafeConn :=
  let x := d.conn c
  let age := sx 32 (d.tickTs + 2 ^ 32 - p.ts % 2 ^ 32)
  if pduCrc (d.connSeed c) p ≠ p.crc then some { x with crcErr := satU 16 (x.crcErr + 1) }
  else if age < 0 ∨ bits (d.connWord c 3) 16 16 ≤ age then some { x with ageErr := satU 16 (x.ageErr + 1) }
  else if x.st = 2 ∧ ¬ x.inOrder p then some { x with seqErr := satU 16 (x.seqErr + 1) }
  else none

/-- SAFE_PDU_CHECK (R356, R357) of a copy received on a network from a producer. -/
def Dev.checkCopy (d : Dev) (net src : Nat) (p : SafePdu) : Dev :=
  match (List.range 256).find? (fun c => d.connUsed c && d.connWord c 0 == p.connId) with
  | none => d.inc Reg.TLB_SAFE_UNK_CNT
  | some c =>
    let x := d.conn c
    if x.st = 0 ∨ x.st = 3 then d
    else if bits (d.connWord c 5) 0 12 ≠ src then d.setConn c { x with masq := satU 16 (x.masq + 1) }
    else match d.pduBad c p with
      | some y => d.setConn c y
      | none =>
        match x.wait.find? (fun e => e.2.2.seq == p.seq) with
        | none => d.setConn c { x with wait := x.wait ++ [(d.brd.n, net, p)] }
        | some (_, n0, p0) =>
          if n0 = net then d
          else
            let d := d.setConn c { x with wait := x.wait.filter (fun e => e.2.2.seq != p.seq) }
            if p0 = p then d.deliver c p none else d.setConn c { (d.conn c).fail with mismatch := true }

/-- SAFE_TWIN_TIMEOUT (R357): a copy that has waited for one tick is delivered alone. -/
def Dev.twinTimeout (d : Dev) (c : Nat) : Dev :=
  match (d.conn c).wait.find? (fun e => e.1 < d.brd.n) with
  | some (_, net, p) =>
    let x := d.conn c
    (d.setConn c { x with wait := x.wait.filter (fun e => e.2.2.seq != p.seq) }).deliver c p (some net)
  | none => d

/-- SAFE_CONN_WATCHDOG (R359): WD ticks or more since the last delivery or the start. -/
def Dev.connWatchdog (d : Dev) (c : Nat) : Dev :=
  let x := d.conn c
  if (x.st = 1 ∨ x.st = 2) ∧ x.tick + bits (d.connWord c 3) 0 16 ≤ d.brd.n then
    d.setConn c { x.fail with watchdog := true } else d

/-- A connection starts (R359, R460): causes, DEGRADED and SINGLE_RUN cleared, the counters kept. -/
def Dev.connStart (d : Dev) (c : Nat) : Dev :=
  d.setConn c { d.conn c with
    st := 1, watchdog := false, mismatch := false, single := false, degraded := false, singleRun := 0, tick := d.brd.n,
    wait := [], data := [], report := none, frags := [] }

/-- The slot of a ring connection: its ring and slot table entry (R456). -/
def Dev.connSlot (d : Dev) (c : Nat) : Option (Nat × SlotCfg) :=
  let w := d.connWord c 5
  let ring := bits w 0 2
  ((d.ringSlots ring).find? (fun s => s.node == bits w 2 7 && s.slot == bits w 9 4)).map (fun s => (ring, s))

/-- The in PDU of a ring connection, when a new one stands in the in words (R456). -/
def Dev.ringIn (d : Dev) (c : Nat) : Dev :=
  match d.connSlot c with
  | none => d
  | some (ring, s) =>
    let ws := (List.range s.inWords).map (fun i => d.ringWord ring s.node (s.firstIn + i))
    let x := d.conn c
    if x.st = 0 ∨ x.st = 3 ∨ ¬ ws.all Option.isSome then d
    else
      let raw := ws.map (fun o => o.getD 0)
      if raw = x.raw then d
      else
        let d := d.setConn c { x with raw := raw }
        let x := d.conn c
        let p := pduOfWords raw
        if p.connId ≠ d.connWord c 0 then d.inc Reg.TLB_SAFE_UNK_CNT
        else if pduCrc (d.connSeed c) p = p.crc ∧ x.st = 2 ∧ p.seq = x.seq then d
        else match d.pduBad c p with
          | some y => d.setConn c y
          | none => d.deliver c p none

/-! ### Building (R355, R456, R458) -/

/-- The axes of a DRIVE connection: one speed word each after word 0. -/
def Dev.driveAxes (d : Dev) (c : Nat) : Nat := min 8 (d.connLen c / 4 - 1)

/-- A zone with this ring connection applies STO, or SS1. -/
def Dev.driveState (d : Dev) (r : Nat) : Bool × Bool :=
  let zs := (List.range 32).filter (fun z => bitOf (d.mw (0xB1_2000 + 0x40 * z + 4 * (8 + r / 32))) (r % 32))
  (zs.any (fun z => d.b (Reg.BRD_ZONE_STAT_STO z)), zs.any (fun z => d.b (Reg.BRD_ZONE_STAT_SS1 z)))

/-- The first data word of a PDU that Bridle builds now (R458). -/
def Dev.txWord (d : Dev) (c : Nat) : Nat :=
  match d.connKind c with
  | 0 =>
    let base := bits (d.connWord c 6) 0 7
    (List.range (min 32 (bits (d.connWord c 6) 7 6))).foldl (fun m b =>
      if d.r (Reg.BRD_FUNC_STAT_STATE (base + b)) = 1 then setBit m b true else m) 0
  | 2 =>
    let (sto, ss1) := d.driveState (c - 512)
    (if sto then 0 else 0xFF) + (if ss1 then 0xFF00 else 0)
  | _ => 0

/-- SAFE_PDU_BUILD: the PDU of connection `c` with sequence number `seq` at the present tick. -/
def Dev.buildPdu (d : Dev) (c seq : Nat) : SafePdu :=
  let n := d.connLen c / 4
  let p : SafePdu := {
    connId := d.connWord c 0, seq := seq % 65536, flags := b2n (d.conn c).takeover, len := d.connLen c, ts := d.tickTs,
    data := ([W (d.txWord c)] ++ List.replicate (n - 1) 0#32).take n, crc := 0 }
  { p with crc := pduCrc (d.connSeed c) p }

/-- The own slot instances whose start lies at least 2 µs after this tick and not after the next one (R355): slot and cycle. -/
def Dev.slotsToBuild (d : Dev) : List (Nat × Nat) :=
  let t := d.r Reg.BRD_TICK * 62500
  let c := t / d.tdc
  ((List.range d.tlb.slots.length).flatMap (fun s => [(s, c), (s, c + 1)])).filter (fun e =>
    let start := e.2 * d.tdc + ((d.tlb.slots[e.1]?).map (·.offs)).getD 0
    decide (t + 2000 ≤ start) && decide (start < t + 62500 + 2000))

/-- The PDUs built at a tick: backbone connections for their listed slots, ring connections at every tick; in SHADOW nothing
is sent (R431). -/
def Dev.buildPdus (d : Dev) (run : Bool) : Dev :=
  let slots := if run && d.ep.placed then d.slotsToBuild else []
  let d := d.each ((List.range 256).map (· + 256)) (fun c d =>
    if !d.connUsed c then d
    else d.each (slots.filter (fun e => bitOf (bits (d.connWord c 5) 12 16) e.1)) (fun (e : Nat × Nat) d =>
      let x := d.conn c
      let seq := (x.seq + 1) % 65536
      let p := d.buildPdu c seq
      d.setConn c { x with st := 2, seq := seq, ts := p.ts, pdus := Tab.put e.1 (p, e.2) x.pdus, takeover := false }))
  d.each ((List.range 128).map (· + 512)) (fun c d =>
    if !d.connUsed c then d
    else match d.connSlot c with
      | none => d
      | some (ring, s) =>
        let x := d.conn c
        let seq := (x.txSeq + 1) % 65536
        let p := d.buildPdu c seq
        let d := d.setConn c { x with txSeq := seq, takeover := x.takeover && !run }
        if !run then d
        else
          let rp := d.rp ring
          let outs := ((List.range s.outWords).zip (pduWords p s.outWords)).foldl (fun t (e : Nat × Nat) =>
            Tab.put (64 * s.node + s.firstOut + e.1) e.2 t) rp.safeOuts
          d.setRp ring { rp with safeOuts := outs })

end Sys2Proof.Machine
end

