-- ==== Sys2Proof/Machine/Verify.lean ====
section
/-!
DEFINITION. Machine/Verify.lean: the boot flash and the verification of signed objects (R552 … R555).
-/
namespace Sys2Proof.Machine

/-- Flash offset and size of bank `b` of a kind: 0 FW, 1 CFG, 2 safety parameter set (R554). -/
def bankAt (kind b : Nat) : Nat × Nat :=
  match kind with
  | 0 => (0x1_0000 + 0x10_0000 * b, 0x10_0000)
  | 1 => (0x21_0000 + 0x80_0000 * b, 0x80_0000)
  | _ => (0x121_0000 + 0x10_0000 * b, 0x10_0000)

/-- A word of the boot flash. -/
def Dev.flashWord (d : Dev) (a : Nat) : Nat := 0xFFFF_FFFF - Mem.word d.sec.flash a

/-- MAGIC of a kind (R464, R552). -/
def magicOf (kind : Nat) : Nat := [0x4657_4931, 0x4346_4731, 0x5350_5331].getD kind 0

/-- Byte offset of the signature trailer of an object whose words `w` gives by byte offset (R464, R552). -/
def trailerAt (kind : Nat) (w : Nat → Nat) : Nat := if kind = 2 then 20 + w 12 else 64 + w 12

/-- Step 1 (R553): MAGIC, TYPE and LENGTH, in `room` bytes. -/
def formatOk (kind room : Nat) (w : Nat → Nat) : Bool :=
  w 0 == magicOf kind && decide (trailerAt kind w + 272 ≤ room) &&
    (match kind with
      | 0 => w 4 == 1 && decide (w 12 ≤ 2 ^ 20 - 336)
      | 1 => w 4 == 2 && decide (w 12 ≤ 2 ^ 23 - 336)
      | _ => true)

/-- The grade's bit of GRADE_MASK. -/
def gradeBit : Grade → Nat
  | .fx8_128 => 0
  | .fx8_064 => 1
  | .fx8_032 => 2

/-- Step 3 (R549, R553, R558): the key of the named slot; in OPEN any key for images of the owner. -/
def Dev.keyOk (d : Dev) (kind slot : Nat) (v : Verdict) : Bool :=
  if kind = 0 then
    decide (slot < 2) && !bitOf d.sec.rootRevoked slot && Tab.look 0 slot d.sec.rootHash == v.keyHash
  else
    d.r Reg.SEC_STAT_LIFECYCLE == 0 ||
      (bitOf (d.r Reg.SEC_OWNER_PROGRAMMED) slot && !bitOf (d.r Reg.SEC_OWNER_REVOKED) slot &&
        Tab.look 0 slot d.sec.ownerHash == v.keyHash)

/-- The rollback counter of a kind (R556). -/
def rollbackOf (kind : Nat) : Field := [Reg.SEC_RB_FW, Reg.SEC_RB_CFG, Reg.SEC_RB_SPS].getD kind Reg.SEC_RB_SPS

/-- SVN of a VERSION (R552). -/
def svnOf (version : Nat) : Nat := version / 2 ^ 26

/-- Step 6 (R553): a configuration image runs on the running firmware. -/
def Dev.compatOk (d : Dev) (kind : Nat) (w : Nat → Nat) : Bool :=
  kind != 1 || (if d.b Reg.SEC_STAT_FW_NONE then w 24 == 0 else decide (w 24 ≤ d.r Reg.SEC_FW_VER % 2 ^ 26))

/-- The code of an object (R553, R554): 0 when it verifies. -/
def Dev.verifyCode (d : Dev) (g : Grade) (kind room : Nat) (w : Nat → Nat) (v : Verdict) : Nat :=
  if v.readErr then 7
  else if w 0 = 0xFFFF_FFFF then 8
  else if !formatOk kind room w then 1
  else if kind ≠ 2 ∧ !bitOf (w 20) (gradeBit g) then 2
  else if !d.keyOk kind (w (trailerAt kind w) % 4) v then 3
  else if !v.sigOk then 4
  else if svnOf (w 8) < d.r (rollbackOf kind) then 5
  else if !d.compatOk kind w then 6
  else 0

/-- The words of bank `b` of a kind, by byte offset. -/
def Dev.bankWord (d : Dev) (kind b : Nat) (o : Nat) : Nat := d.flashWord ((bankAt kind b).1 + o)

/-- The code of bank `b` of a kind. -/
def Dev.bankCode (d : Dev) (g : Grade) (kind b : Nat) (v : Verdict) : Nat :=
  d.verifyCode g kind (bankAt kind b).2 (d.bankWord kind b) v

/-- The field of SEC_BOOT that records the code of a bank. -/
def bankField (kind b : Nat) : Field :=
  match kind, b with
  | 0, 0 => Reg.SEC_BOOT_FW0
  | 0, _ => Reg.SEC_BOOT_FW1
  | 1, 0 => Reg.SEC_BOOT_CFG0
  | 1, _ => Reg.SEC_BOOT_CFG1
  | _, 0 => Reg.SEC_BOOT_SPS0
  | _, _ => Reg.SEC_BOOT_SPS1

/-- The bank of a kind that SEC_BOOT shows as selected. -/
def Dev.bankSel (d : Dev) (kind : Nat) : Nat := bits (d.r Reg.SEC_BOOT_BANK) kind 1

/-- The bank whose VERSION is higher, bank 0 on equal versions; an empty bank is never first (R555, R573). -/
def Dev.firstBank (d : Dev) (kind : Nat) : Nat :=
  let empty (b : Nat) : Bool := d.bankWord kind b 0 == 0xFFFF_FFFF
  if empty 0 && !empty 1 then 1
  else if !empty 0 && !empty 1 && decide (d.bankWord kind 0 8 < d.bankWord kind 1 8) then 1 else 0

/-- BANK_SELECT (R555, R573): the bank with the higher VERSION first, the other one when it fails, or in the background. The
verdicts are those of banks 0 and 1. Answers the selected bank, or none and the code of the bank tried last. -/
def Dev.selectBank (d : Dev) (g : Grade) (kind : Nat) (v0 v1 : Verdict) : Dev × Option Nat × Nat :=
  let v (b : Nat) : Verdict := if b = 0 then v0 else v1
  let a := d.firstBank kind
  let b := 1 - a
  let ca := d.bankCode g kind a (v a)
  let take (d : Dev) (s : Nat) : Dev :=
    let d := (d.w (bankField kind s) 0).w Reg.SEC_BOOT_BANK (putBits (d.r Reg.SEC_BOOT_BANK) kind 1 s)
    { d with sec := { d.sec with running := kind :: d.sec.running.filter (· != kind) } }
  if ca = 0 then
    let other := if d.bankWord kind b 0 = 0xFFFF_FFFF then 8 else 0
    let d := (take d a).w (bankField kind b) other
    (if other = 0 then { d with sec := { d.sec with background := d.sec.background ++ [kind] } } else d, some a, 0)
  else
    let cb := d.bankCode g kind b (v b)
    let d := d.w (bankField kind a) ca
    if cb = 0 then (take d b, some b, 0)
    else
      let d := d.w (bankField kind b) cb
      ({ d with sec := { d.sec with running := d.sec.running.filter (· != kind) } }, none, cb)

/-- Erase a bank and write an object into it (R557). -/
def Dev.flashWrite (d : Dev) (kind b : Nat) (len : Nat) (bytes : Nat → Byte) : Dev :=
  let (base, size) := bankAt kind b
  let clean := d.sec.flash.filter (fun c => !(decide (base ≤ c.1) && decide (c.1 < base + size)))
  { d with sec := { d.sec with
    flash := (List.range len).foldl (fun m i => Mem.set m (base + i) (255 - bytes i)) clean } }

end Sys2Proof.Machine
end

