-- ==== Sys2Proof/Machine/Bridle.lean ====
section
/-!
DEFINITION. Machine/Bridle.lean: the safety functions of "Bridle Safety Functions" (R429 … R468): ticks, inputs, functions,
zones, safe outputs, the safety parameter set and the Bridle commands.
-/
namespace Sys2Proof.Machine

/-! ### Records and states -/

/-- The state code of R431. -/
def Dev.brdStateCode (d : Dev) : Nat := d.r Reg.BRD_STAT_STATE

/-- Word of input record `i`. -/
def Dev.inRec (d : Dev) (i : Nat) : Nat := d.mw (0xB1_0000 + 4 * i)

/-- Word `w` of function record `f`. -/
def Dev.fnRec (d : Dev) (f w : Nat) : Nat := d.mw (0xB1_1000 + 0x20 * f + 4 * w)

/-- Word `w` of zone record `z`. -/
def Dev.znRec (d : Dev) (z w : Nat) : Nat := d.mw (0xB1_2000 + 0x40 * z + 4 * w)

/-- Word `w` of the safe-speed record of axis `a`. -/
def Dev.spRec (d : Dev) (a w : Nat) : Nat := d.mw (0xB1_3000 + 0x20 * a + 4 * w)

/-- Word `w` of the safe-output record of output `o`. -/
def Dev.soRec (d : Dev) (o w : Nat) : Nat := d.mw (0xB1_B000 + 8 * o + 4 * w)

/-- Word `w` of the Paddock link. -/
def Dev.linkRec (d : Dev) (w : Nat) : Nat := d.mw (0xB1_A000 + 4 * w)

/-- The test-pulse record. -/
def Dev.tpPeriod (d : Dev) : Nat := bits (d.mw 0xB1_C000) 0 14
def Dev.tpWidth (d : Dev) : Nat := bits (d.mw 0xB1_C000) 16 3

/-- TYPE of a function. -/
def Dev.fnType (d : Dev) (f : Nat) : Nat := bits (d.fnRec f 0) 0 3

/-- STATE of a function: 0 DEMAND, 1 OK, 2 WAIT_RESET, 3 FAULT. -/
def Dev.fnState (d : Dev) (f : Nat) : Nat := d.r (Reg.BRD_FUNC_STAT_STATE f)

/-- The configured functions. -/
def Dev.functions (d : Dev) : List Nat := (List.range 128).filter (fun f => d.fnType f != 0)

/-- What Bridle keeps of a function. -/
def Dev.fx (d : Dev) (f : Nat) : BrdFunc := Tab.look {} f d.brd.funcs

/-- Change what Bridle keeps of a function. -/
def Dev.setFx (d : Dev) (f : Nat) (x : BrdFunc) : Dev := { d with brd := { d.brd with funcs := Tab.put f x d.brd.funcs } }

/-- What Bridle keeps of a zone. -/
def Dev.zx (d : Dev) (z : Nat) : BrdZone := Tab.look {} z d.brd.zones

/-- Change what Bridle keeps of a zone. -/
def Dev.setZx (d : Dev) (z : Nat) (x : BrdZone) : Dev := { d with brd := { d.brd with zones := Tab.put z x d.brd.zones } }

/-- The axes of a zone (AXES). -/
def Dev.znAxes (d : Dev) (z : Nat) : List Nat := (List.range 128).filter (fun a => bitOf (d.znRec z (4 + a / 32)) (a % 32))

/-- The ring connections of a zone (RCONN). -/
def Dev.znDrives (d : Dev) (z : Nat) : List Nat := (List.range 128).filter (fun c => bitOf (d.znRec z (8 + c / 32)) (c % 32))

/-- The safe outputs of the set. -/
def Dev.safeOuts (d : Dev) : List Nat := (List.range 32).filter (fun o => bitOf (d.soRec o 0) 0)

/-- Enter a state of R431; GLB_HEALTH.BRIDLE_CHANGE and the pins follow. -/
def Dev.brdEnter (d : Dev) (st : Nat) : Dev :=
  if d.brdStateCode = st then d
  else (d.withHealth (fun d => (d.w Reg.BRD_STAT_STATE st).flag Reg.GLB_HEALTH_BRIDLE_CHANGE)).pins

/-! ### Commanding lines and outputs -/

/-- Command the STO lines: bit t asserts STO on team t (R219, R448). -/
def Dev.commandSto (d : Dev) (m : Nat) : Dev :=
  let diff := (List.range 24).filter (fun t => bitOf m t != bitOf d.brd.sto t)
  let d := d.each diff (fun t d => d.setSto t (bitOf m t))
  { d with brd := { d.brd with sto := m, stoAge := if diff.isEmpty then d.brd.stoAge else 0 } }

/-- Command the safe outputs (R453): an output that goes off needs EN_SIG at 0 before it restarts. -/
def Dev.commandOuts (d : Dev) (m : Nat) : Dev :=
  let was := d.r Reg.BRD_OUT
  let changed := (List.range 32).filter (fun o => bitOf m o != bitOf was o)
  let d := { d with brd := { d.brd with
    armed := changed.foldl (fun a o => setBit a o false) d.brd.armed,
    outAge := changed.foldl (fun t o => Tab.put o 0 t) d.brd.outAge,
    outZero := changed.foldl (fun t o => Tab.put o 0 t) d.brd.outZero,
    enLow := changed.foldl (fun t o => Tab.put o (min 1 (Tab.look 0 o t)) t) d.brd.enLow } }
  (d.w Reg.BRD_OUT m).safeOutputs m

/-- Zones applying STO, as a mask of teams. -/
def Dev.stoTeams (d : Dev) : Nat :=
  ((List.range 32).filter (fun z => d.b (Reg.BRD_ZONE_STAT_STO z))).foldl (fun m z => Nat.lor m (bits (d.znRec z 2) 0 24)) 0

/-- A zone that names the output is demanded, or still reacts. -/
def Dev.outDemanded (d : Dev) (o : Nat) : Bool :=
  (List.range 32).any (fun z => bitOf (d.znRec z 3) o &&
    (d.b (Reg.BRD_ZONE_STAT_DEMAND z) || d.b (Reg.BRD_ZONE_STAT_STO z) || d.b (Reg.BRD_ZONE_STAT_SS1 z)))

/-- The group of an output has turned it off, or waits for a re-arm (R453, R481, R483, R485). -/
def Dev.outDown (d : Dev) (o : Nat) : Bool :=
  let g := groupOf o
  d.b (Reg.FIO_GRP_STAT_SUPPLY_LOST g) || d.b (Reg.FIO_GRP_STAT_SILENT1 g) || d.b (Reg.FIO_GRP_STAT_SILENT_OFF g) ||
    d.b (Reg.FIO_GRP_STAT_CUT_OPEN g) || bitOf d.fio.rearm o

/-- An output may be on but for its enable signal and the restart interlock. -/
def Dev.outAllowed (d : Dev) (o : Nat) : Bool := !d.outDemanded o && !bitOf (d.r Reg.BRD_OUT_FAULT) o && !d.outDown o

/-- Show the zone masks and ANY_DEMAND. -/
def Dev.showZones (d : Dev) : Dev :=
  let mask (f : Nat → Field) : Nat := (List.range 32).foldl (fun m z => setBit m z (d.b (f z))) 0
  let dem := mask Reg.BRD_ZONE_STAT_DEMAND
  ((d.w Reg.BRD_ZONE_DEM dem).w Reg.BRD_ZONE_STO (mask Reg.BRD_ZONE_STAT_STO)).wb Reg.BRD_STAT_ANY_DEMAND (dem != 0)

/-- In RUN the STO lines follow the zones, and outputs that may not be on go off. -/
def Dev.applyZones (d : Dev) : Dev :=
  let d := d.showZones
  if d.brdStateCode ≠ 3 then d
  else
    let d := d.commandSto d.stoTeams
    d.commandOuts ((List.range 32).foldl (fun m o => if d.outAllowed o then m else setBit m o false) (d.r Reg.BRD_OUT))

/-- Every zone demanded with category 0 (R431). -/
def Dev.demandAll (d : Dev) : Dev :=
  (d.each (List.range 32) (fun z d =>
    (((d.w (Reg.BRD_ZONE_STAT_DEMAND z) 1).w (Reg.BRD_ZONE_STAT_STO z) 1).w (Reg.BRD_ZONE_STAT_SS1 z) 0).w
      (Reg.BRD_ZONE_STAT_SS1_LEFT z) 0)).showZones

/-- Bridle enters SAFE (R432): the latch asserts STO on all teams and turns every safe output off, and a REIN holder releases
REIN with cause 3 (R492). -/
def Dev.brdSafe (d : Dev) (cause : Nat) : Dev :=
  if d.brdStateCode = 4 then d
  else
    let d := (d.w Reg.BRD_FAULT cause).demandAll
    let d := ((d.commandSto 0xFF_FFFF).commandOuts 0).brdEnter 4
    d.reinFall 3

/-- Meaning of BRIDLE_FAULT: `cause` is the code of BRD_FAULT, 1 LOCKSTEP … 8 CYCLE. -/
def execBridleFault (cause : Fin 9) (s : State) : Host.Outcome State Fault Refusal :=
  ok s (fun _ d => if cause.val = 0 then d else d.brdSafe cause.val)

/-- Meaning of BRIDLE_SELFTEST_DONE (R431, R576): Bridle waits in OFF and holds STO on all teams. -/
def execBridleSelftestDone (s : State) : Host.Outcome State Fault Refusal :=
  ok s (fun _ d =>
    if d.brd.tested ∨ 1 < d.brdStateCode then d
    else (({ d with brd := { d.brd with tested := true } }).commandSto 0xFF_FFFF).brdEnter 0)

/-! ### Inputs and test pulses (R436 … R438) -/

/-- Test-pulse source `s` is in its pulse at tick `i` (R437). -/
def Dev.inPulse (d : Dev) (s i : Nat) : Bool :=
  let p := d.tpPeriod
  p != 0 && decide (4 * s ≤ i % p) && decide (i % p < 4 * s + d.tpWidth)

/-- Some input record names source `s`. -/
def Dev.tpUsed (d : Dev) (s : Nat) : Bool :=
  (List.range 64).any (fun i => bitOf (d.inRec i) 11 && bits (d.inRec i) 7 4 == s + 1)

/-- Meaning of TEST_PULSE (R437): the source switches to its level for the tick at hand or the next one. -/
def execTestPulse (source : Fin 8) (s : State) : Host.Outcome State Fault Refusal :=
  ok s (fun _ d =>
    let i := d.r Reg.BRD_TICK
    if d.brdStateCode ≠ 3 then d
    else d.w Reg.BRD_TP_ON (setBit (d.r Reg.BRD_TP_ON) source.val
      (!(d.inPulse source.val i || d.inPulse source.val (i + 1)))))

/-- SOURCE_FAULT (R438): the readbacks of the sources in use against their levels at tick `i`. -/
def Dev.checkSources (d : Dev) (rb i : Nat) : Dev :=
  let d := d.w Reg.BRD_TP_ON ((List.range 8).foldl (fun m s => setBit m s (!d.inPulse s i)) 0)
  d.each ((List.range 8).filter d.tpUsed) (fun s d =>
    let run := if bitOf rb s = bitOf (d.r Reg.BRD_TP_ON) s then 0 else min 2 (Tab.look 0 s d.brd.tpRun + 1)
    let d := { d with brd := { d.brd with tpRun := Tab.put s run d.brd.tpRun } }
    d.w Reg.BRD_TP_FAULT (setBit (d.r Reg.BRD_TP_FAULT) s (decide (2 ≤ run))))

/-- An input faults: it is held inactive and sets its bit (R438). -/
def Dev.inputFault (d : Dev) (i : Nat) : Dev :=
  (d.w Reg.BRD_IN_FAULT (setBit (d.r Reg.BRD_IN_FAULT) i true)).w Reg.BRD_IN (setBit (d.r Reg.BRD_IN) i false)

/-- INPUT_FILTER_UPDATE and CROSS_SHORT (R436 … R438) for input `i`, sample `v`, tick `t`. -/
def Dev.filterInput (d : Dev) (i : Nat) (v : Bool) (t : Nat) : Dev :=
  let w := d.inRec i
  let n := bits w 0 7
  let tp := bits w 7 4
  let pulse := tp != 0 && d.inPulse (tp - 1) t
  let last := pulse && !d.inPulse (tp - 1) (t + 1)
  let on := Tab.look 0 i d.brd.onRun
  let off := Tab.look 0 i d.brd.offRun
  let on' := if pulse then on else if v then min 127 (on + 1) else 0
  let off' := if pulse then min 127 (off + 1) else if v then 0 else min 127 (off + 1)
  let short := if last then setBit d.brd.short i v else d.brd.short
  let bad := bitOf short i || (tp != 0 && bitOf (d.r Reg.BRD_TP_FAULT) (tp - 1))
  let d := { d with brd := { d.brd with
    onRun := Tab.put i on' d.brd.onRun, offRun := Tab.put i off' d.brd.offRun, short := short,
    causeAt := if bad then Tab.put i d.brd.n d.brd.causeAt else d.brd.causeAt } }
  let d := if bad then d.inputFault i else d
  let was := bitOf (d.r Reg.BRD_IN) i
  let now := if bitOf (d.r Reg.BRD_IN_FAULT) i then false else if was then decide (off' < n) else decide (n ≤ on')
  d.w Reg.BRD_IN (setBit (d.r Reg.BRD_IN) i now)

/-! ### Functions (R439 … R446) -/

/-- What a channel selector reads (R440). -/
def Dev.channel (d : Dev) (sel : Nat) : Bool :=
  if bitOf sel 11 then bitOf (d.connData (bits sel 5 6) 0) (sel % 32) else bitOf (d.r Reg.BRD_IN) (sel % 64)

/-- The channel selectors of a function. -/
def Dev.selA (d : Dev) (f : Nat) : Nat := bits (d.fnRec f 1) 0 12
def Dev.selB (d : Dev) (f : Nat) : Nat := bits (d.fnRec f 1) 16 12
def Dev.selC (d : Dev) (f : Nat) : Nat := bits (d.fnRec f 2) 0 12
def Dev.selD (d : Dev) (f : Nat) : Nat := bits (d.fnRec f 2) 16 12

/-- The OK levels of channels A and B (types 1, 2, 4, 5). -/
def Dev.okA (d : Dev) (f : Nat) : Bool := d.channel (d.selA f)
def Dev.okB (d : Dev) (f : Nat) : Bool :=
  let b := d.channel (d.selB f)
  if d.fnType f = 2 ∧ bitOf (d.fnRec f 0) 3 then !b else b

/-- A hand's state: actuated, released (R442). -/
def handState (no nc : Bool) : Bool × Bool := (no && !nc, !no && nc)

/-- Both hands of a TWO_HAND function. -/
def Dev.hands (d : Dev) (f : Nat) : (Bool × Bool) × (Bool × Bool) :=
  (handState (d.channel (d.selA f)) (d.channel (d.selB f)), handState (d.channel (d.selC f)) (d.channel (d.selD f)))

/-- Field inputs on the channels of a function. -/
def Dev.fnInputs (d : Dev) (f : Nat) : List Nat :=
  let sels := if d.fnType f = 3 then [d.selA f, d.selB f, d.selC f, d.selD f] else [d.selA f, d.selB f]
  (sels.filter (fun x => !bitOf x 11)).map (· % 64)

/-- Show whether a channel's input is faulted. -/
def Dev.showInputFault (d : Dev) (f : Nat) : Dev :=
  d.wb (Reg.BRD_FUNC_STAT_INPUT f) ((d.fnInputs f).any (bitOf (d.r Reg.BRD_IN_FAULT)))

/-- The input faults of a function that a reset clears: the cause has been absent for the whole preceding safety cycle
(R438); answers whether one was cleared. -/
def Dev.clearInputs (d : Dev) (f : Nat) : Dev × Bool :=
  let start := d.brd.n - d.r Reg.BRD_TICK % 4
  let clean (i : Nat) : Bool := bitOf (d.r Reg.BRD_IN_FAULT) i && (match d.brd.causeAt.find? (fun e => e.1 == i) with
    | some (_, t) => decide (t + 4 < start)
    | none => true)
  let l := (d.fnInputs f).filter clean
  ((d.w Reg.BRD_IN_FAULT (l.foldl (fun m i => setBit m i false) (d.r Reg.BRD_IN_FAULT))).showInputFault f, !l.isEmpty)

/-- A function at a tick: disagreement, hands and the reset input (R441, R442, R445). -/
def Dev.fnTick (d : Dev) (f : Nat) : Dev :=
  let x := d.fx f
  let fault := d.fnState f == 3
  let (d, x) :=
    if d.fnType f = 3 then
      let ((actA, relA), (actB, relB)) := d.hands f
      let both := relA && relB
      let stamp (act : Bool) (old : Option Nat) : Option Nat := if act then some (old.getD d.brd.n) else none
      (if both then d.w (Reg.BRD_FUNC_STAT_SYNC f) 0 else d,
       { x with
         disc := if actA || relA then 0 else satU 16 (x.disc + 1), disc2 := if actB || relB then 0 else satU 16 (x.disc2 + 1),
         actA := stamp actA x.actA, actB := stamp actB x.actB, relA := x.relA || relA, relB := x.relB || relB,
         off := x.off || (fault && both) })
    else
      let a := d.okA f
      let b := d.okB f
      let single := bitOf (d.selA f) 11 && d.selA f == d.selB f
      (d, { x with disc := if a != b && !single then satU 16 (x.disc + 1) else 0, off := x.off || (fault && !a && !b) })
  let rin := bitOf (d.r Reg.BRD_IN) (bits (d.fnRec f 0) 6 6)
  let edge := !rin && decide (1600 ≤ x.rst) && decide (x.rst ≤ 47999)
  let d := d.setFx f { x with rst := if rin then min 50000 (x.rst + 1) else 0, edge := x.edge || (edge && x.okBefore) }
  if edge then (d.clearInputs f).1 else d

/-- Count a demand onset of a function. -/
def Dev.fnOnset (d : Dev) (f : Nat) : Dev := if d.fnType f = 5 then d else d.inc (Reg.BRD_FUNC_STAT_COUNT f)

/-- DISC_FAULT (R441, R442): disagreement for DISC ticks. -/
def Dev.discFault (d : Dev) (f : Nat) : Dev :=
  let x := d.fx f
  let disc := bits (d.fnRec f 3) 0 16
  if d.fnType f = 0 ∨ d.fnState f = 3 ∨ (x.disc < disc ∧ x.disc2 < disc) then d
  else
    let d := if d.fnState f = 1 then d.fnOnset f else d
    ((d.w (Reg.BRD_FUNC_STAT_STATE f) 3).w (Reg.BRD_FUNC_STAT_DISC f) 1).setFx f { x with off := false, edge := false }

/-- Meaning of DISC_FAULT. -/
def execDiscFault (f : Fin 128) (s : State) : Host.Outcome State Fault Refusal := ok s (fun _ d => d.discFault f.val)

/-- The OK condition of a function at a cycle start (R439, R442), with SYNC set for a lag of 8 000 ticks or more. -/
def Dev.fnOk (d : Dev) (f : Nat) : Dev × Bool :=
  if d.fnType f = 3 then
    let x := d.fx f
    match x.actA, x.actB with
    | some a, some b =>
      if d.fnState f = 1 then (d, true)
      else
        let lag := if a < b then b - a else a - b
        if x.relA && x.relB && !d.b (Reg.BRD_FUNC_STAT_SYNC f) then
          (if lag ≤ 7999 then (d, true) else (d.w (Reg.BRD_FUNC_STAT_SYNC f) 1, false))
        else (d, false)
    | _, _ => (d, false)
  else (d, d.okA f && d.okB f)

/-- A function is evaluated at a cycle start (R441 … R445). -/
def Dev.fnEval (d : Dev) (f : Nat) : Dev :=
  let (d, cond) := d.fnOk f
  let x := d.fx f
  let st := d.fnState f
  let manual := bitOf (d.fnRec f 0) 4 && d.fnType f != 3
  let next :=
    if st = 3 then (if x.edge && cond && x.off then 1 else 3)
    else if !cond then 0
    else if st = 1 then 1
    else if !manual then 1
    else if st = 2 ∧ x.edge then 1
    else 2
  let d := if st = 1 ∧ next ≠ 1 then d.fnOnset f else d
  let d := if next = 1 then d.w (Reg.BRD_FUNC_STAT_DISC f) 0 else d
  let x := { x with edge := false, okBefore := cond }
  let x := if next = 1 then { x with off := false, relA := false, relB := false } else x
  ((d.w (Reg.BRD_FUNC_STAT_STATE f) next).setFx f x).showInputFault f

/-- The zones that functions demand (R439). -/
def Dev.fnDemands (d : Dev) : Nat :=
  (d.functions.filter (fun f => d.fnType f != 5 && d.fnState f != 1)).foldl (fun m f => Nat.lor m (d.fnRec f 4)) 0

/-! ### Safe speed (R450, R451) -/

/-- The safe speed of an axis, counts/s; none when it is unknown. -/
def Dev.safeSpeed (d : Dev) (a : Nat) : Option Int :=
  let w := d.spRec a 0
  match w % 4 with
  | 1 =>
    let c := 512 + bits w 2 7
    if (d.conn c).st = 2 then some (sx 32 ((d.conn c).data.getD (1 + bits w 9 3) 0)) else none
  | 2 =>
    let speed (e : Nat) : Option Int := match Tab.look [] e d.brd.encs with
      | now :: old :: _ => if d.b (Reg.ENC_STAT_FAULT e) then none else some (sx 32 (now + 2 ^ 32 - old) * 4000)
      | _ => none
    match speed (bits w 12 5), speed (bits w 17 5) with
    | some v1, some v2 =>
      if (v1 * 65536 - sx 32 (d.spRec a 1) * v2).natAbs < d.spRec a 2 * 65536 then some v1 else none
    | _, _ => none
  | _ => none

/-- The axes of a zone with a safe-speed record. -/
def Dev.znSpeeds (d : Dev) (z : Nat) : List Nat := (d.znAxes z).filter (fun a => d.spRec a 0 % 4 != 0)

/-- SLS_VIOL, RAMP_VIOL and SPEED_FAULT of a zone at a tick (R448, R450, R451); the breach stays for this tick. -/
def Dev.speedCheck (d : Dev) (z : Nat) : Dev :=
  let x := d.zx z
  let sls := d.b (Reg.BRD_ZONE_STAT_SLS_ACTIVE z)
  let ramp := d.b (Reg.BRD_ZONE_STAT_SS1 z) && d.znRec z 0 % 4 == 2
  let axes := if sls || ramp then d.znSpeeds z else []
  let lost := axes.any (fun a => (d.safeSpeed a).isNone)
  let ovr := sls && axes.any (fun a => match d.safeSpeed a with
    | some v => decide (d.spRec a 3 ≤ v.natAbs)
    | none => false)
  let t : Int := ((d.brd.n - x.demAt : Nat) : Int)
  let breach := ramp && axes.any (fun a => match d.safeSpeed a with
    | some v => decide (((Tab.look 0 a x.v0 : Nat) + (d.spRec a 5 : Int)) * 16000 - (d.spRec a 4 : Int) * t ≤ (v.natAbs : Int) * 16000)
    | none => false)
  let d := ((d.flagIf lost (Reg.BRD_ZONE_STAT_SPEED_FAULT z)).flagIf ovr (Reg.BRD_ZONE_STAT_SLS_VIOL z)).flagIf breach
    (Reg.BRD_ZONE_STAT_RAMP_VIOL z)
  let v := if lost || breach || (ovr && !bitOf (d.znRec z 0) 10) then 1 else if ovr then 2 else 0
  d.setZx z { x with viol := v }

/-! ### Zones and reactions (R447 … R449) -/

/-- Apply STO to a zone. -/
def Dev.zoneSto (d : Dev) (z : Nat) : Dev :=
  if d.b (Reg.BRD_ZONE_STAT_STO z) then d
  else (((d.w (Reg.BRD_ZONE_STAT_STO z) 1).w (Reg.BRD_ZONE_STAT_SS1 z) 0).w (Reg.BRD_ZONE_STAT_SS1_LEFT z) 0).setZx z
    { d.zx z with stoAt := some d.brd.n }

/-- Start SS1 in a zone: its drives get SS1 bits, its axes the QSTOP of R176 as PRF_STOP mode 1 requests it. -/
def Dev.zoneSs1 (d : Dev) (z : Nat) : Dev :=
  if d.b (Reg.BRD_ZONE_STAT_STO z) || d.b (Reg.BRD_ZONE_STAT_SS1 z) then d
  else
    let time := bits (d.znRec z 1) 0 16
    let v0 := (d.znSpeeds z).filterMap (fun a => (d.safeSpeed a).map (fun v => (a, v.natAbs)))
    let d := ((d.w (Reg.BRD_ZONE_STAT_SS1 z) 1).w (Reg.BRD_ZONE_STAT_SS1_LEFT z) time).setZx z
      { d.zx z with demAt := d.brd.n, v0 := v0.foldl (fun t e => Tab.put e.1 e.2 t) [] }
    let d := if d.brdStateCode = 3 then
        d.each (d.znAxes z) (fun a d => d.setPx a { d.px a with stopReq := (d.px a).stopReq ++ [7] })
      else d
    if time = 0 then d.zoneSto z else d

/-- A zone is demanded: count the onset and react by category (R448). -/
def Dev.zoneDemand (d : Dev) (z cat : Nat) : Dev :=
  let d := if d.b (Reg.BRD_ZONE_STAT_DEMAND z) then d
    else (d.w (Reg.BRD_ZONE_STAT_DEMAND z) 1).inc Reg.BRD_DEMAND_CNT
  if cat = 1 ∨ cat = 2 then d.zoneSs1 z else d.zoneSto z

/-- Zones that Paddock demands (R461, R462): PDK_LOST, and the zones of arms in protective stop. -/
def Dev.pdkDemands (d : Dev) : Nat :=
  if !bitOf (d.linkRec 5) 16 then 0
  else
    let lost := if d.b Reg.BRD_STAT_PDK_LOST then d.linkRec 4 else 0
    ((List.range 16).filter (fun a => bitOf (d.armWord a 0) 12 && d.b (Reg.ARM_STAT_PSTOP a))).foldl (fun m a =>
      setBit m (bits (d.linkRec (a / 4)) (8 * (a % 4)) 5) true) lost

/-- Zones that a stuck output demands (R455). -/
def Dev.stuckDemands (d : Dev) : Nat :=
  let cut (o : Nat) : Bool := bitOf (d.r Reg.BRD_OUT_FAULT) o && bitOf (d.r Reg.BRD_TP_CUT) (groupOf o)
  (List.range 32).foldl (fun m z =>
    if (List.range 32).any (fun o => bitOf (d.znRec z 3) o && cut o) then setBit m z true else m) 0

/-- A zone is evaluated at a cycle start; `dem` holds the zones demanded from outside. -/
def Dev.zoneEval (d : Dev) (dem z : Nat) : Dev :=
  let fn := bits (d.znRec z 0) 3 7
  let d := d.wb (Reg.BRD_ZONE_STAT_SLS_ACTIVE z)
    (bitOf (d.znRec z 0) 2 && d.fnType fn == 5 && d.fnState fn == 1)
  let v := (d.zx z).viol
  let cat := d.znRec z 0 % 4
  if v = 1 then d.zoneDemand z 0
  else if bitOf dem z then d.zoneDemand z cat
  else if v = 2 then d.zoneDemand z 1
  else
    let d := d.w (Reg.BRD_ZONE_STAT_DEMAND z) 0
    if d.b (Reg.BRD_ZONE_STAT_STO z) then (d.w (Reg.BRD_ZONE_STAT_STO z) 0).setZx z { d.zx z with stoAt := none } else d

/-- SS1_TIMEOUT (R448): SS1_TIME has elapsed. -/
def Dev.ss1Timeout (d : Dev) (z : Nat) : Dev :=
  if d.b (Reg.BRD_ZONE_STAT_SS1 z) ∧ d.r (Reg.BRD_ZONE_STAT_SS1_LEFT z) = 0 then (d.zoneSto z).applyZones else d

/-- Meaning of SS1_TIMEOUT. -/
def execSs1Timeout (z : Fin 32) (s : State) : Host.Outcome State Fault Refusal := ok s (fun _ d => d.ss1Timeout z.val)

/-- A RCONN drive reports STO_ACTIVE for all its axes. -/
def Dev.driveConfirms (d : Dev) (r : Nat) : Bool :=
  (List.range (d.driveAxes (512 + r))).all (bitOf (d.connData (512 + r) 0))

/-- STO_CONF_TIMEOUT (R452). -/
def Dev.stoConf (d : Dev) (z : Nat) : Dev :=
  match (d.zx z).stoAt with
  | some t =>
    if bits (d.znRec z 1) 16 16 ≤ d.brd.n - t ∧ (d.znDrives z).any (fun r => !d.driveConfirms r) then
      d.flag (Reg.BRD_ZONE_STAT_STO_UNCONF z) else d
  | none => d

/-- Meaning of STO_CONF_TIMEOUT. -/
def execStoConfTimeout (z : Fin 32) (s : State) : Host.Outcome State Fault Refusal := ok s (fun _ d => d.stoConf z.val)

/-! ### Safe outputs (R453 … R455) -/

/-- STUCK_ON (R455): the group cut switch opens, and the zones that name the output are demanded. -/
def Dev.stuckOn (d : Dev) (o : Nat) : Dev :=
  let g := groupOf o
  let d := (d.w Reg.BRD_OUT_FAULT (setBit (d.r Reg.BRD_OUT_FAULT) o true)).w Reg.BRD_TP_CUT (setBit (d.r Reg.BRD_TP_CUT) g true)
  let d := (d.flag (Reg.FIO_GRP_STAT_CUT_OPEN g)).driveGroup g
  let zs := (List.range 32).filter (fun z => bitOf (d.znRec z 3) o)
  (d.each zs (fun z d => d.zoneDemand z (d.znRec z 0 % 4))).applyZones

/-- The readback of a safe output at a tick (R455): OFF_FAULT after two ticks at 0 while on, STUCK_ON at 1 while off. A
command counts from the third tick, an output commanded off is off from the sixth. -/
def Dev.checkOut (d : Dev) (o : Nat) (rb : Bool) : Dev :=
  let on := bitOf (d.r Reg.BRD_OUT) o && !d.outDown o
  let age := Tab.look 0 o d.brd.outAge
  let zeros := if on && !rb && !bitOf d.brd.dark o && decide (3 ≤ age) then Tab.look 0 o d.brd.outZero + 1 else 0
  let d := { d with brd := { d.brd with
    outAge := Tab.put o (min 8 (age + 1)) d.brd.outAge, outZero := Tab.put o (min 2 zeros) d.brd.outZero } }
  if bitOf (d.r Reg.BRD_OUT_FAULT) o then d
  else if 2 ≤ zeros then
    (d.w Reg.BRD_OUT_FAULT (setBit (d.r Reg.BRD_OUT_FAULT) o true)).commandOuts (setBit (d.r Reg.BRD_OUT) o false)
  else if rb && !bitOf (d.r Reg.BRD_OUT) o && decide (6 ≤ age) then d.stuckOn o
  else d

/-- DARK_TEST (R454): the start switches an output that is on off for the test; the end reads it back and switches it on. -/
def Dev.darkTest (d : Dev) (o : Nat) (ending rb : Bool) : Dev :=
  if !bitOf (d.r Reg.BRD_OUT) o ∨ d.brdStateCode ≠ 3 ∨ ¬ bitOf (d.soRec o 0) 0 then d
  else if !ending then
    let d := match d.brd.darkC.find? (fun e => e.1 == o) with
      | some (_, c) => d.reach (c + 800000 * bits (d.soRec o 1) 0 10)
      | none => d
    ({ d with brd := { d.brd with
      dark := setBit d.brd.dark o true, darkC := Tab.put o d.time.c d.brd.darkC } }).driveGroup (groupOf o)
  else if !bitOf d.brd.dark o then d
  else
    let d := d.reach (Tab.look 0 o d.brd.darkC + 800 * bits (d.soRec o 1) 16 9)
    let d := ({ d with brd := { d.brd with dark := setBit d.brd.dark o false } }).driveGroup (groupOf o)
    if rb then d.stuckOn o else d

/-- Meaning of DARK_TEST: `ending` tells the end of the interval, with the readback there. -/
def execDarkTest (o : Fin 32) (ending rb : Bool) (s : State) : Host.Outcome State Fault Refusal :=
  ok s (fun _ d => d.darkTest o.val ending rb)

/-- The safe outputs after an evaluation (R453). -/
def Dev.evalOuts (d : Dev) : Dev :=
  let outs := d.safeOuts
  let en (o : Nat) : Bool := bitOf (d.signal (bits (d.soRec o 0) 1 18)) 0
  let d := { d with brd := { d.brd with
    enLow := outs.foldl (fun t o => Tab.put o (if en o then 0 else min 2 (Tab.look 0 o t + 1)) t) d.brd.enLow } }
  let d := { d with brd := { d.brd with
    armed := outs.foldl (fun m o => if 2 ≤ Tab.look 0 o d.brd.enLow then setBit m o true else m) d.brd.armed } }
  let was := d.r Reg.BRD_OUT
  d.commandOuts (outs.foldl (fun m o =>
    setBit m o (en o && d.outAllowed o && (bitOf was o || bitOf d.brd.armed o))) 0)

/-- FIELD_DIE_REFRESH_LOSS (R435): a field die without a valid refresh for 32 ticks turns its safe outputs off and asserts
STO on its teams. Die 0 drives groups A and B and teams 0 … 11, die 1 groups C and D and teams 12 … 23. -/
def Dev.refreshLoss (d : Dev) (die : Nat) : Dev :=
  let outs := (List.range 16).map (· + 16 * die)
  let d := { d with fio := { d.fio with safeLevels := outs.foldl (fun m o => setBit m o false) d.fio.safeLevels } }
  let d := d.driveOutputs
  d.each ((List.range 12).map (· + 12 * die)) (fun t d => d.setSto t true)

/-- Meaning of FIELD_DIE_REFRESH_LOSS. -/
def execFieldDieRefreshLoss (die : Fin 2) (s : State) : Host.Outcome State Fault Refusal :=
  ok s (fun _ d => d.refreshLoss die.val)

/-! ### Ticks (R433, R434) -/

/-- The next tick: aligned to domain time from the first lock on, realigned at a re-step. -/
def Dev.nextTick (d : Dev) : Dev :=
  if d.ep.placed then
    let realign := !d.brd.placed || d.brd.restep != d.r Reg.TB_RESTEP_CNT
    let i := if realign then (d.nowNs - d.r Reg.EPK_ORIGIN) / 62500 + 1 else d.r Reg.BRD_TICK + 1
    let d := (d.reach (d.countAt (d.r Reg.EPK_ORIGIN + 62500 * i))).flagIf realign Reg.BRD_STAT_REALIGN
    { d.w Reg.BRD_TICK i with brd := { d.brd with n := d.brd.n + 1, placed := true, restep := d.r Reg.TB_RESTEP_CNT } }
  else
    let i := d.r Reg.BRD_TICK + 1
    let d := d.reach (50000 * i)
    { d.w Reg.BRD_TICK i with brd := { d.brd with n := d.brd.n + 1 } }

/-- With an active set the REIN holder runs and a standby shadows (R431, R506). -/
def Dev.brdRole (d : Dev) : Dev :=
  if !d.brd.active then d
  else if (d.brdStateCode = 0 ∨ d.brdStateCode = 2) ∧ d.b Reg.PAIR_STAT_HOLDER then
    let shadow := d.brdStateCode = 2
    let d := d.brdEnter 3
    if shadow then
      (d.commandSto d.brd.carrySto).commandOuts d.brd.carry
    else d
  else if d.brdStateCode = 0 ∧ d.r Reg.PAIR_STAT_STATE = 3 then d.brdEnter 2
  else d

/-- Inputs, test pulses and received PDUs of tick `i` (R434). -/
def Dev.tickInputs (d : Dev) (inputs tpRb i : Nat) : Dev :=
  let d := if d.brdStateCode = 3 then d.checkSources tpRb i else d
  let d := d.each ((List.range 64).filter (fun n => bitOf (d.inRec n) 11)) (fun n d => d.filterInput n (bitOf inputs n) i)
  -- a delivery at tick t_d + WD comes too late (R359)
  let d := d.each ((List.range 256 ++ (List.range 128).map (· + 512)).filter d.connUsed) (fun c d => d.connWatchdog c)
  let rx := d.brd.rx
  let d := ({ d with brd := { d.brd with rx := [] } }).each rx (fun e d => d.checkCopy e.1 e.2.1 e.2.2)
  d.each (((List.range 128).map (· + 512)).filter d.connUsed) (fun c d => d.ringIn c)

/-- A zone at a tick: SS1 runs on, and a speed breach reacts at once (R448, R450). -/
def Dev.zoneTick (d : Dev) (z : Nat) : Dev :=
  let d := if d.b (Reg.BRD_ZONE_STAT_SS1 z) then
      d.w (Reg.BRD_ZONE_STAT_SS1_LEFT z) (d.r (Reg.BRD_ZONE_STAT_SS1_LEFT z) - 1) else d
  let d := d.speedCheck z
  match (d.zx z).viol with
  | 1 => d.zoneDemand z 0
  | 2 => d.zoneDemand z 1
  | _ => d

/-- The readbacks of a tick in RUN: safe outputs (R455), and the STO lines from the third tick after a command (R432). -/
def Dev.tickReadbacks (d : Dev) (outRb stoRb : Nat) : Dev :=
  let d := d.each d.safeOuts (fun o d => d.checkOut o (bitOf outRb o))
  let age := d.brd.stoAge
  let d := { d with brd := { d.brd with stoAge := min 8 (age + 1) } }
  if 3 ≤ age ∧ stoRb ≠ d.brd.sto then d.brdSafe 5 else d

/-- BRIDLE_TICK: samples and readbacks, filters and checks, received PDUs, tick-level reactions, and the PDUs built. -/
def Dev.brdTick (d : Dev) (inputs outRb tpRb stoRb : Nat) : Dev :=
  let d := d.nextTick.brdRole
  if d.brdStateCode ≠ 2 ∧ d.brdStateCode ≠ 3 then d
  else
    let d := (d.w Reg.BRD_OUT_RB outRb).tickInputs inputs tpRb (d.r Reg.BRD_TICK)
    let d := d.each d.functions (fun f d => d.fnTick f)
    let d := (d.each (List.range 32) (fun z d => d.zoneTick z)).applyZones
    let d := if d.brdStateCode = 3 then d.tickReadbacks outRb stoRb else d
    if d.brdStateCode = 4 then d else d.buildPdus (d.brdStateCode == 3)

/-- Meaning of BRIDLE_TICK: the sampled field inputs and the readbacks of safe outputs, test-pulse sources and STO lines. -/
def execBridleTick (inputs : BitVec 64) (outRb : BitVec 32) (tpRb : BitVec 8) (stoRb : BitVec 24) (s : State) :
    Host.Outcome State Fault Refusal :=
  ok s (fun _ d => if d.brdStateCode = 4 then d else d.brdTick inputs.toNat outRb.toNat tpRb.toNat stoRb.toNat)

/-- Meaning of SAFE_TWIN_TIMEOUT. -/
def execSafeTwinTimeout (conn : Fin 256) (s : State) : Host.Outcome State Fault Refusal := ok s (fun _ d => d.twinTimeout conn.val)

/-- Meaning of SAFE_CONN_WATCHDOG: backbone receive connections, or with `ring` ring connections. -/
def execSafeConnWatchdog (ring : Bool) (conn : Fin 256) (s : State) : Host.Outcome State Fault Refusal :=
  ok s (fun _ d => d.connWatchdog (if ring then 512 + conn.val % 128 else conn.val))

/-! ### The safety parameter set (R464, R465) -/

/-- SPS_ACTIVATE: the records take effect; every function starts in DEMAND, every receive connection in START. -/
def Dev.spsActivate (d : Dev) (g : Grade) (x : SpsSet) : Dev :=
  let keep (c : Host.Cell) : Bool := !((decide (0xB1_0000 ≤ c.1) && decide (c.1 < 0xB2_0000)) ||
    (decide (0x51_0000 ≤ c.1) && decide (c.1 < 0x52_0000)))
  let d := { d with mem := x.recs.foldl (fun m (e : Nat × Nat) => Mem.putWord m e.1 e.2) (d.mem.filter keep) }
  let d := ((d.w Reg.BRD_SPS_ID x.id).w Reg.BRD_SPS_CRC x.crc).w Reg.BRD_SPS_VER x.ver
  let d := { d.w Reg.BRD_STAT_SPS_STAGED 0 with brd := { d.brd with
    active := true, staged := none, accepted := none, onRun := [], offRun := [], causeAt := [], short := 0, tpRun := [],
    enLow := [], armed := 0, dark := 0, funcs := [], zones := [], conns := [], rx := [], reports := [], sigRun := 0 } }
  let d := ((d.w Reg.BRD_IN 0).w Reg.BRD_IN_FAULT 0).w Reg.BRD_TP_FAULT 0
  let d := d.each (List.range 128) (fun f d =>
    (((d.w (Reg.BRD_FUNC_STAT_STATE f) 0).w (Reg.BRD_FUNC_STAT_DISC f) 0).w (Reg.BRD_FUNC_STAT_SYNC f) 0).w
      (Reg.BRD_FUNC_STAT_INPUT f) 0)
  let d := d.demandAll
  let d := d.each ((List.range 256 ++ (List.range 128).map (· + 512)).filter d.connUsed) (fun c d => d.connStart c)
  let d := d.each (List.range 32) (fun o d =>
    let safe := bitOf (d.soRec o 0) 0
    let was := d.r (Reg.FIO_OUT_CFG_OWNER o) == 2
    if safe == was then d
    else
      let d := d.w (Reg.FIO_OUT_CFG_OWNER o) (if safe then 2 else 0)
      { d with fio := { d.fio with given := setBit d.fio.given o false } })
  let d := d.commandOuts 0
  if bitOf (d.linkRec 5) 16 then d.pdkSelftest g else d.w Reg.PDK_STAT_STATE 0

/-- The record check of R464: some field lies outside its stated range. -/
def spsBad (m : Mem) : Bool :=
  let w (a : Nat) : Nat := Mem.word m a
  let tp := w 0xB1_C000
  let pulsed := (List.range 64).any (fun i => bitOf (w (0xB1_0000 + 4 * i)) 11 && bits (w (0xB1_0000 + 4 * i)) 7 4 != 0)
  let input (i : Nat) : Bool :=
    let x := w (0xB1_0000 + 4 * i)
    bitOf x 11 && (x % 128 == 0 || decide (64 < x % 128) || decide (8 < bits x 7 4))
  let func (f : Nat) : Bool :=
    let x := w (0xB1_1000 + 0x20 * f)
    decide (5 < x % 8) || (x % 8 != 0 && bits (w (0xB1_100C + 0x20 * f)) 0 16 == 0)
  let conn (a : Nat) : Bool :=
    let x := w (a + 16)
    let len := bits x 12 7
    w a != 0 && (decide (len < 4) || decide (64 < len) || len % 4 != 0 || x % 256 == 0 || bits x 9 2 == 3)
  let out (o : Nat) : Bool :=
    let x := w (0xB1_B004 + 8 * o)
    bitOf (w (0xB1_B000 + 8 * o)) 0 &&
      (x % 1024 == 0 || decide (1000 < x % 1024) || decide (bits x 16 9 < 50) || decide (500 < bits x 16 9))
  (List.range 64).any input || (List.range 128).any func || (List.range 32).any (fun z => w (0xB1_2000 + 0x40 * z) % 4 == 3) ||
    (List.range 128).any (fun c => conn (0xB1_4000 + 0x20 * c)) || (List.range 512).any (fun c => conn (0xB1_6000 + 0x20 * c)) ||
    (List.range 32).any out ||
    (pulsed && (decide (tp % 16384 < 32) || decide (16000 < tp % 16384) || bits tp 16 3 == 0 || decide (4 < bits tp 16 3)))

/-- SPS_LOAD (R464, R465, R468): the verification of R553, the CRC over header and body, and the record check; `recs` are the
records of the body by host address, which no chapter lays out. The set is a header of four words, the body, the CRC and the
signature trailer of R552. -/
def Dev.spsLoad (d : Dev) (g : Grade) (off len : Nat) (v : Verdict) (recs : List (Nat × Nat)) : Dev × Res :=
  let w (o : Nat) : Nat := Mem.word d.hk.swm (off + o)
  if d.brd.staged.isSome then (d, .busy)
  else if 0xC0_0000 ≤ off ∨ off % 4 ≠ 0 then (d, .badParam 2)
  else if len < 73 ∨ 0xC0_0000 < off + 4 * len then (d, .badParam 3)
  else
    let crc := crc32c ((List.range (16 + w 12)).map (fun i => (Mem.get d.hk.swm (off + i)).toNat))
    let m := recs.foldl (fun m (e : Nat × Nat) => Mem.putWord m e.1 e.2) []
    if d.verifyCode g 2 (4 * len) w v ≠ 0 ∨ crc ≠ w (16 + w 12) ∨ spsBad m then (d, .badParam 0)
    else
      let x : SpsSet := { id := w 4, crc := crc, ver := w 8, recs := recs }
      ({ d.flag Reg.BRD_STAT_SPS_STAGED with brd := { d.brd with staged := some x } }, .ok [x.id, x.crc])

/-- Meaning of SPS_LOAD: the verdict on the key and the signature, and the records that the body holds. -/
def execSpsLoad (p : Packet) (v : Verdict) (recs : List (Nat × Nat)) (s : State) : Host.Outcome State Fault Refusal :=
  ok s (fun g d => d.runPacket g { opcode := 0xB10, priv := true, need := needN 2, replyLen := fun _ => 5 } p (fun d ps =>
    d.spsLoad g (ps.getD 0 0) (ps.getD 1 0) v recs))

/-- SPS_ACCEPT (R465, R468): activation at the next cycle start. -/
def Dev.spsAccept (d : Dev) (id crc : Nat) : Dev × Res :=
  match d.brd.staged with
  | none => (d, .badParam 0)
  | some x =>
    if x.id ≠ id then (d, .badParam 2)
    else if x.crc ≠ crc then (d, .badParam 3)
    else if d.r Reg.BRD_ZONE_DEM ≠ 0xFFFF_FFFF ∨ (List.range 32).any (fun z => d.b (Reg.BRD_ZONE_STAT_SS1 z)) then (d, .busy)
    else
      let t := (d.r Reg.BRD_TICK / 4 + 1) * 4
      ({ d with brd := { d.brd with accepted := some t } }, .ok [loW t, hiW t])

/-- Meaning of SPS_ACCEPT. -/
def execSpsAccept (p : Packet) (s : State) : Host.Outcome State Fault Refusal :=
  ok s (fun g d => d.runPacket g { opcode := 0xB11, priv := true, need := needN 2, replyLen := fun _ => 5 } p (fun d ps =>
    d.spsAccept (ps.getD 0 0) (ps.getD 1 0)))

/-! ### The safety cycle (R434) -/

/-- PDK signature check (R461) at the start of Paddock cycle n + 1. -/
def Dev.checkSignature (d : Dev) : Dev :=
  let i := d.r Reg.BRD_TICK
  if !bitOf (d.linkRec 5) 16 ∨ i % 8 ≠ 0 ∨ ¬ d.ep.placed then d
  else
    let n := i / 8 - 1
    let want := (n % 32768) * 2 ^ 17 + (d.linkRec 5 % 65536 + n % 1021)
    let good := decide (8 ≤ i) && d.pdk.sig == some (n, want)
    let run := if good then min 2 (d.brd.sigRun + 1) else 0
    let d := { d with brd := { d.brd with sigRun := run } }
    if !good then d.flag Reg.BRD_STAT_PDK_LOST else if 2 ≤ run then d.w Reg.BRD_STAT_PDK_LOST 0 else d

/-- Keep the encoder counts of the last two cycle starts (R451). -/
def Dev.sampleEncoders (d : Dev) : Dev :=
  let es := ((List.range 128).filter (fun a => d.spRec a 0 % 4 == 2)).flatMap (fun a =>
    [bits (d.spRec a 0) 12 5, bits (d.spRec a 0) 17 5])
  { d with brd := { d.brd with encs := es.foldl (fun t e =>
      Tab.put e ((d.r (Reg.ENC_COUNT e) :: Tab.look [] e d.brd.encs).take 2) t) d.brd.encs } }

/-- SAFETY_CYCLE_EVAL (R434): an accepted set is activated, then every function and zone is evaluated, once per cycle start. -/
def Dev.cycleEval (d : Dev) (g : Grade) : Dev :=
  let i := d.r Reg.BRD_TICK
  if i % 4 ≠ 0 ∨ d.brd.evalAt = some d.brd.n ∨ d.brdStateCode = 4 ∨ d.brdStateCode = 1 then d
  else
    let d := { d with brd := { d.brd with evalAt := some d.brd.n } }
    let d := match d.brd.accepted, d.brd.staged with
      | some t, some x => if t ≤ i then (d.spsActivate g x).brdRole else d
      | _, _ => d
    if d.brdStateCode ≠ 2 ∧ d.brdStateCode ≠ 3 then d
    else
      let d := d.sampleEncoders.checkSignature
      let d := d.each d.functions (fun f d => d.fnEval f)
      let dem := Nat.lor (Nat.lor d.fnDemands d.pdkDemands) d.stuckDemands
      let d := d.each (List.range 32) (fun z d => d.zoneEval dem z)
      let d := d.applyZones
      if d.brdStateCode = 3 then d.evalOuts else d

/-- Meaning of SAFETY_CYCLE_EVAL. -/
def execSafetyCycleEval (s : State) : Host.Outcome State Fault Refusal := ok s (fun g d => (d.cycleEval g).pins)

/-- Meaning of BRIDLE_EVAL_DEADLINE (R434): 125 µs after a cycle start whose evaluation has not ended. -/
def execBridleEvalDeadline (s : State) : Host.Outcome State Fault Refusal :=
  ok s (fun _ d =>
    let late := d.r Reg.BRD_TICK % 4
    if (d.brdStateCode ≠ 2 ∧ d.brdStateCode ≠ 3) ∨ d.r Reg.BRD_TICK < 4 ∨ d.brd.n < late ∨
        d.brd.evalAt = some (d.brd.n - late) then d
    else d.brdSafe 8)

/-! ### Commands (R467, R468) -/

/-- Meaning of BRD_INFO. -/
def execBrdInfo (p : Packet) (s : State) : Host.Outcome State Fault Refusal :=
  ok s (fun g d => d.runPacket g { opcode := 0xB00, priv := true, need := needN 0, replyLen := fun _ => 10 } p (fun d _ =>
    (d, .ok ([0xB0_0000, 0xB0_0004, 0xB0_0010, 0xB0_0014, 0xB0_0038, 0xB0_003C, 0xB0_0040].map d.regWord))))

/-- The two words of the present tick. -/
def Dev.tickWords (d : Dev) : List Nat := [loW (d.r Reg.BRD_TICK), hiW (d.r Reg.BRD_TICK)]

/-- Meaning of BRD_FUNC_READ. -/
def execBrdFuncRead (p : Packet) (s : State) : Host.Outcome State Fault Refusal :=
  ok s (fun g d => d.runPacket g { opcode := 0xB01, priv := true, need := needN 2, replyLen := fun ps => 5 + ps.getD 1 0 } p
    (fun d ps => match rangeBad (ps.getD 0 0) (ps.getD 1 0) 128 128 with
      | some w => (d, .badParam w)
      | none => (d, .ok (d.tickWords ++
          (List.range (ps.getD 1 0)).map (fun i => d.regWord (0xB0_0100 + 4 * (ps.getD 0 0 + i)))))))

/-- Meaning of BRD_ZONE_READ. -/
def execBrdZoneRead (p : Packet) (s : State) : Host.Outcome State Fault Refusal :=
  ok s (fun g d => d.runPacket g { opcode := 0xB02, priv := true, need := needN 1, replyLen := fun _ => 6 } p (fun d ps =>
    let z := ps.getD 0 0
    if 32 ≤ z then (d, .badParam 2) else (d, .ok ([d.regWord (0xB0_0300 + 4 * z)] ++ d.tickWords))))

/-- Meaning of BRD_IO_READ. -/
def execBrdIoRead (p : Packet) (s : State) : Host.Outcome State Fault Refusal :=
  ok s (fun g d => d.runPacket g { opcode := 0xB03, priv := true, need := needN 0, replyLen := fun _ => 11 } p (fun d _ =>
    (d, .ok ((List.range 8).map (fun i => d.regWord (0xB0_0018 + 4 * i))))))

/-- The connection that BRD_CONN_READ and BRD_CONN_RESTART name; none outside the range. -/
def brdConnOf (kind c : Nat) : Option Nat := if kind = 0 then (if c < 128 then some (512 + c) else none)
  else if c < 512 then some c else none

/-- Meaning of BRD_CONN_READ. -/
def execBrdConnRead (p : Packet) (s : State) : Host.Outcome State Fault Refusal :=
  ok s (fun g d => d.runPacket g { opcode := 0xB04, priv := true, need := needN 2, replyLen := fun _ => 7 } p (fun d ps =>
    if 1 < ps.getD 0 0 then (d, .badParam 2)
    else match brdConnOf (ps.getD 0 0) (ps.getD 1 0) with
      | none => (d, .badParam 3)
      | some c => (d, .ok ((d.conn c).words (decide (256 ≤ c) && decide (c < 512))))))

/-- BRD_RESET of one function (R446): cleared input faults, and a reset that takes effect at the next cycle start; false when
it is refused. -/
def Dev.resetFunction (d : Dev) (f : Nat) : Dev × Bool :=
  if d.fnType f = 0 ∨ ¬ bitOf (d.fnRec f 0) 5 then (d, false)
  else
    let (d, cleared) := d.clearInputs f
    let x := d.fx f
    if x.okBefore then (d.setFx f { x with edge := true }, true) else (d, cleared)

/-- Meaning of BRD_RESET. -/
def execBrdReset (p : Packet) (s : State) : Host.Outcome State Fault Refusal :=
  ok s (fun g d => d.runPacket g { opcode := 0xB08, priv := true, need := needN 4, replyLen := fun _ => 7 } p (fun d ps =>
    if d.brdStateCode ≠ 3 then (d, .busy)
    else
      let fs := (List.range 128).filter (fun f => bitOf (ps.getD (f / 32) 0) (f % 32))
      let (d, bad) := fs.foldl (fun (acc : Dev × List Nat) f =>
        let r := acc.1.resetFunction f
        (r.1, if r.2 then acc.2 else acc.2 ++ [f])) (d, [])
      (d, .ok ((List.range 4).map (fun w => (bad.filter (fun f => f / 32 == w)).foldl (fun m f => setBit m (f % 32) true) 0)))))

/-- Meaning of BRD_CONN_RESTART (R460). -/
def execBrdConnRestart (p : Packet) (s : State) : Host.Outcome State Fault Refusal :=
  ok s (fun g d => d.runPacket g { opcode := 0xB09, priv := true, need := needN 2 } p (fun d ps =>
    if d.brdStateCode ≠ 3 then (d, .busy)
    else if 1 < ps.getD 0 0 then (d, .badParam 2)
    else match brdConnOf (ps.getD 0 0) (ps.getD 1 0) with
      | none => (d, .badParam 3)
      | some c => if (d.conn c).st = 3 then (d.connStart c, .ok []) else (d, .busy)))

end Sys2Proof.Machine
end

