-- ==== Sys2Proof/Machine/SageMath.lean ====
section
/-!
DEFINITION. Machine/SageMath.lean: the arithmetic of the Sage solver (R276 … R300): reading and analysing a structure image,
the quasi-definite factorisation with its pivot test, and one predictor-corrector iteration in binary64.
-/
namespace Sys2Proof.Machine

/-! ### Structure images (R279, R280) -/

/-- Positions of a compressed matrix: `major + 1` pointers at `off`, then `nnz` indices. Answers (major, minor) pairs. -/
def readSparse (ws : List Nat) (off major nnz : Nat) : List (Nat × Nat) :=
  let ptr (i : Nat) : Nat := ws.getD (off + i) 0
  (List.range major).flatMap (fun i =>
    (List.range (min nnz (ptr (i + 1)) - ptr i)).map (fun j => (i, ws.getD (off + major + 1 + ptr i + j) 0)))

/-- The pointers rise from 0 to the number of nonzeros, and the indices of each row ascend below `minor`. -/
def sparseOk (ws : List Nat) (off major nnz minor : Nat) : Bool :=
  let ptr (i : Nat) : Nat := ws.getD (off + i) 0
  let idx (j : Nat) : Nat := ws.getD (off + major + 1 + j) 0
  ptr 0 == 0 && ptr major == nnz &&
    (List.range major).all (fun i => decide (ptr i ≤ ptr (i + 1)) &&
      (List.range (ptr (i + 1) - ptr i)).all (fun j => decide (idx (ptr i + j) < minor) &&
        (j == 0 || decide (idx (ptr i + j - 1) < idx (ptr i + j)))))

/-- A knot map entry (R295). -/
def readKnot (ws : List Nat) (o : Nat) : KnotEntry :=
  { axis := bits (ws.getD o 0) 0 7, velEn := bitOf (ws.getD o 0) 7, wpos := bits (ws.getD (o + 1) 0) 0 14,
    wvel := bits (ws.getD (o + 1) 0) 16 14, kscale := pair64 (ws.getD (o + 2) 0) (ws.getD (o + 3) 0),
    koff := sx 64 (pair64 (ws.getD (o + 4) 0) (ws.getD (o + 5) 0)) }

/-- A binding (R284). -/
def readBind (ws : List Nat) (o : Nat) : SageBind :=
  { kind := bits (ws.getD o 0) 0 4, vidx := bits (ws.getD o 0) 4 18, src := bits (ws.getD (o + 1) 0) 0 18,
    scale := pair64 (ws.getD (o + 2) 0) (ws.getD (o + 3) 0) }

/-- Word offsets of the sections after the header: H, A, C, ordering, block map, knot map, bindings, initial values, end. -/
def imageOffsets (ws : List Nat) : List Nat :=
  let hd (i : Nat) : Nat := ws.getD i 0
  let n := hd 2
  let oA := 16 + (n + 1) + hd 8
  let oC := oA + (hd 3 + 1) + hd 9
  let oO := oC + (hd 4 + 1) + hd 10
  let oB := oO + n + hd 3 + hd 4
  let oK := oB + cdiv n 4
  let oN := oK + 8 * hd 11
  let oI := oN + 4 * hd 12
  [16, oA, oC, oO, oB, oK, oN, oI, oI + 2 * hd 5]

/-- MAGIC, length and the header counts within their ranges (R276 … R280, reason 1). -/
def headerOk (ws : List Nat) (len : Nat) : Bool :=
  let hd (i : Nat) : Nat := ws.getD i 0
  decide (16 ≤ len) && hd 0 == 0x5347_4531 && hd 13 == len && decide (hd 2 ≤ 16384) && decide (1 ≤ hd 2) &&
    decide (hd 3 + hd 4 ≤ 32768) && decide (hd 5 ≤ 262144) && decide (2 ≤ bits (hd 6) 16 7) &&
    decide (bits (hd 6) 16 7 ≤ 64) && decide (1 ≤ bits (hd 6) 0 14) && decide (hd 11 ≤ 128) && decide (hd 12 ≤ 4096) &&
    decide (hd 8 ≤ 262144) && decide (hd 9 ≤ 262144) && decide (hd 10 ≤ 262144) &&
    (imageOffsets ws).getD 8 0 == len

/-- Read the sections of an image. H is stored by columns: its pairs are (row, column). -/
def readImage (ws : List Nat) : SageStruct :=
  let hd (i : Nat) : Nat := ws.getD i 0
  let o (i : Nat) : Nat := (imageOffsets ws).getD i 0
  let n := hd 2
  let nK := n + hd 3 + hd 4
  { id := hd 1, n := n, me := hd 3, mi := hd 4, nval := hd 5, w := bits (hd 6) 0 14, nstep := bits (hd 6) 16 7,
    nblk := hd 7, h := (readSparse ws (o 0) n (hd 8)).map (fun e => (e.2, e.1)), a := readSparse ws (o 1) (hd 3) (hd 9),
    c := readSparse ws (o 2) (hd 4) (hd 10), order := (ws.drop (o 3)).take nK,
    blocks := (List.range n).map (fun v => bits (ws.getD (o 4 + v / 4) 0) (8 * (v % 4)) 8),
    knots := (List.range (hd 11)).map (fun i => readKnot ws (o 5 + 8 * i)),
    binds := (List.range (hd 12)).map (fun i => readBind ws (o 6 + 4 * i)),
    init := (List.range (hd 5)).map (fun i => pair64 (ws.getD (o 7 + 2 * i) 0) (ws.getD (o 7 + 2 * i + 1) 0)) }

/-- n_K, the dimension of the KKT index space (R276). -/
def SageStruct.nk (t : SageStruct) : Nat := t.n + t.me + t.mi

/-- Off-diagonal positions of K as (KKT index, KKT index). -/
def SageStruct.edges (t : SageStruct) : List (Nat × Nat) :=
  t.h.filter (fun e => e.1 != e.2) ++ t.a.map (fun e => (t.n + e.1, e.2)) ++ t.c.map (fun e => (t.n + t.me + e.1, e.2))

/-- The factor pattern in elimination order (R280): for each position the later positions with a factor value. -/
def factorPattern (t : SageStruct) : List (List Nat) :=
  let pos (i : Nat) : Nat := t.order.idxOf i
  let es := t.edges.map (fun e => (min (pos e.1) (pos e.2), max (pos e.1) (pos e.2)))
  (List.range t.nk).foldl (fun cols j =>
    let own := (es.filter (fun e => e.1 == j)).map (·.2)
    let fill := (cols.filter (fun c => c.foldl min t.nk == j)).flatMap (fun c => c.filter (· != j))
    cols ++ [(List.range t.nk).filter (fun i => own.contains i || fill.contains i)]) []

/-- The root of each position's tree in the elimination forest: the parent is the first later position of the pattern. -/
def treeRoots (pat : List (List Nat)) : List Nat :=
  let nk := pat.length
  (List.range nk).foldl (fun roots i =>
    let j := nk - 1 - i
    let p := (pat.getD j []).foldl min nk
    (if p = nk then j else roots.getD (p - j - 1) j) :: roots) []

/-- Factor values that do not fit in the 6 MiB workspace and lie in the partition (R281). -/
def SageStruct.spill (t : SageStruct) : Nat :=
  t.nnzL - (6 * 2 ^ 20 - (64 * t.nk + 8 * t.nval)) / 8

/-- Bytes of a descriptor in the partition (R281). -/
def SageStruct.descBytes (t : SageStruct) : Nat := 16 * t.nk + 4 * t.nnzL

/-- t_iter in ns with L lanes (R300). -/
def SageStruct.iterNs (t : SageStruct) (lanes : Nat) : Nat :=
  let z := max 1 t.nnzL
  3000 + cdiv ((25 * t.phi + 192 * t.nnzL) * (2 * z + t.spill) + 360 * t.nk * z) (24 * lanes * z)

/-- Finite. -/
def fin64 (x : Nat) : Bool := f64.isFinite x

/-- The REASON with which an analysis refuses an image (R280), 0 for none, and the structure with its analysis. -/
def analyse (ws : List Nat) (axes arms partition : Nat) (active : Option SageStruct) : Nat × SageStruct :=
  let hd (i : Nat) : Nat := ws.getD i 0
  let o (i : Nat) : Nat := (imageOffsets ws).getD i 0
  let t := readImage ws
  let nnz := t.h.length + t.a.length + t.c.length
  if hd 5 ≠ hd 8 + hd 9 + hd 10 + t.n + t.me + t.mi then (2, t)
  else if !(sparseOk ws (o 0) t.n (hd 8) t.n && sparseOk ws (o 1) t.me (hd 9) t.n && sparseOk ws (o 2) t.mi (hd 10) t.n) ||
      nnz != hd 8 + hd 9 + hd 10 || !(t.h.all (fun e => decide (e.1 ≤ e.2))) then (3, t)
  else if !((List.range t.nk).all (fun i => t.order.contains i)) then (4, t)
  else if 64 < t.nblk || !(t.blocks.all (fun b => decide (b < t.nblk))) then (5, t)
  else if t.n < t.nstep * t.w then (6, t)
  else if !(t.knots.all (fun k => decide (k.axis < axes) && decide (k.wpos < t.w) && decide (k.wvel < t.w) &&
      (t.knots.filter (fun q => q.axis == k.axis)).length == 1)) then (7, t)
  else if !(t.binds.all (fun b => decide (b.kind ≤ 4) && decide (b.vidx < t.nval) &&
      (if b.kind ≤ 1 then true else if b.kind ≤ 3 then decide (b.src < axes) else decide (b.src < arms)))) then (8, t)
  else
    let pat := factorPattern t
    let t := { t with nnzL := (pat.map List.length).foldl (· + ·) 0,
                      phi := (pat.map (fun c => c.length * (c.length + 1) / 2)).foldl (· + ·) 0 }
    if 1048576 < t.nnzL then (9, t)
    else if 6 * 2 ^ 20 < 64 * t.nk + 8 * t.nval ∨
        partition < (active.map SageStruct.descBytes).getD 0 + t.descBytes + 8 * t.spill then (10, t)
    else if !(t.init.all fin64) then (11, t)
    else (0, t)

/-! ### Values and vectors (R277) -/

/-- Value-index bases of g, A, b, C and d (R277). -/
def SageStruct.baseG (t : SageStruct) : Nat := t.h.length
def SageStruct.baseA (t : SageStruct) : Nat := t.baseG + t.n
def SageStruct.baseB (t : SageStruct) : Nat := t.baseA + t.a.length
def SageStruct.baseC (t : SageStruct) : Nat := t.baseB + t.me
def SageStruct.baseD (t : SageStruct) : Nat := t.baseC + t.c.length

/-- A problem: a structure and its values. -/
structure SageProb where
  t : SageStruct
  v : List Nat
  lanes : Nat

/-- A sum of products in binary64: of one product it is that product, of none +0; of more the order of additions is open
(R276, R299). -/
def sageSum (lanes : Nat) : List (Nat × Nat) → Nat
  | [] => 0
  | [(x, y)] => fmul x y
  | l => Config.sageDot lanes l

/-- Entries of a matrix with their values: (row, column, value). -/
def SageProb.entries (p : SageProb) (pos : List (Nat × Nat)) (base : Nat) : List (Nat × Nat × Nat) :=
  pos.zipIdx.map (fun e => (e.1.1, e.1.2, p.v.getD (base + e.2) 0))

def SageProb.hE (p : SageProb) : List (Nat × Nat × Nat) := p.entries p.t.h 0
def SageProb.aE (p : SageProb) : List (Nat × Nat × Nat) := p.entries p.t.a p.t.baseA
def SageProb.cE (p : SageProb) : List (Nat × Nat × Nat) := p.entries p.t.c p.t.baseC
def SageProb.g (p : SageProb) : List Nat := (p.v.drop p.t.baseG).take p.t.n
def SageProb.b (p : SageProb) : List Nat := (p.v.drop p.t.baseB).take p.t.me
def SageProb.d (p : SageProb) : List Nat := (p.v.drop p.t.baseD).take p.t.mi

/-- The binary64 number one. -/
def one64 : Nat := fint 1

/-- Products of row `i` of a matrix with a vector. -/
def rowTerms (es : List (Nat × Nat × Nat)) (x : List Nat) (i : Nat) : List (Nat × Nat) :=
  (es.filter (fun e => e.1 == i)).map (fun e => (e.2.2, x.getD e.2.1 0))

/-- Products of column `j` of a matrix with a vector. -/
def colTerms (es : List (Nat × Nat × Nat)) (x : List Nat) (j : Nat) : List (Nat × Nat) :=
  (es.filter (fun e => e.2.1 == j)).map (fun e => (e.2.2, x.getD e.1 0))

/-- Products of row `i` of H with x, from its upper triangle. -/
def SageProb.hTerms (p : SageProb) (x : List Nat) (i : Nat) : List (Nat × Nat) :=
  rowTerms p.hE x i ++ colTerms (p.hE.filter (fun e => e.1 != e.2.1)) x i

/-- ‖·‖∞. -/
def normInf (l : List Nat) : Nat := l.foldl (fun m x => if fle (f64.abs x) m then m else f64.abs x) 0

/-- An element too large, or not a number (R292). -/
def tooBig (x : Nat) : Bool := !fle (f64.abs x) (f64.ofScaled 1 1000)

/-- The residuals and mu of an iterate (R287). -/
structure SageResid where
  rd : List Nat
  re : List Nat
  rc : List Nat
  mu : Nat

def SageProb.resid (p : SageProb) (x y z s : List Nat) : SageResid :=
  { rd := (List.range p.t.n).map (fun i => sageSum p.lanes (p.hTerms x i ++ [(p.g.getD i 0, one64)] ++ colTerms p.aE y i ++
      colTerms p.cE z i)),
    re := (List.range p.t.me).map (fun i => sageSum p.lanes (rowTerms p.aE x i ++ [(f64.neg (p.b.getD i 0), one64)])),
    rc := (List.range p.t.mi).map (fun i => sageSum p.lanes (rowTerms p.cE x i ++ [(s.getD i 0, one64),
      (f64.neg (p.d.getD i 0), one64)])),
    mu := if p.t.mi = 0 then 0 else fdiv (sageSum p.lanes (s.zip z)) (fint p.t.mi) }

/-- Convergence (R288). -/
def SageProb.converged (p : SageProb) (par : List Nat) (r : SageResid) : Bool :=
  fle (normInf r.rd) (fmul (par.getD 1 0) (fadd one64 (normInf p.g))) &&
  fle (normInf (r.re ++ r.rc)) (fmul (par.getD 0 0) (fadd (fadd one64 (normInf p.b)) (normInf p.d))) &&
  fle r.mu (par.getD 2 0)

/-- Infeasibility (R288): some z_i or |y_j| exceeds 2^60 × (1 + ‖g‖∞). -/
def SageProb.infeasible (p : SageProb) (y z : List Nat) : Bool :=
  let lim := fmul (f64.ofScaled 1 60) (fadd one64 (normInf p.g))
  z.any (fun v => flt lim v) || y.any (fun v => flt lim (f64.abs v))

/-! ### Factorisation (R287, R290) -/

/-- An entry of K at KKT indices (i, j), i ≠ j or the diagonal (R287). -/
def SageProb.kAt (p : SageProb) (par z s : List Nat) (i j : Nat) : Nat :=
  let t := p.t
  let find (es : List (Nat × Nat × Nat)) (r c : Nat) : Nat := ((es.find? (fun e => e.1 == r && e.2.1 == c)).map (·.2.2)).getD 0
  let lo := min i j
  let hi := max i j
  if i = j then
    if i < t.n then fadd (find p.hE i i) (par.getD 4 0)
    else if i < t.n + t.me then f64.neg (par.getD 5 0)
    else f64.neg (fadd (fdiv (s.getD (i - t.n - t.me) 0) (z.getD (i - t.n - t.me) 0)) (par.getD 5 0))
  else if hi < t.n then find p.hE lo hi
  else if lo < t.n then
    (if hi < t.n + t.me then find p.aE (hi - t.n) lo else find p.cE (hi - t.n - t.me) lo)
  else 0

/-- A factor: unit lower columns as (position, value), and the pivots. -/
structure SageFactor where
  cols : List (List (Nat × Nat)) := []
  piv : List Nat := []

/-- Why a factorisation stopped: the position, SMALL_PIVOT, INERTIA. -/
structure PivotFail where
  pos : Nat
  small : Bool
  inertia : Bool

/-- Row `i` of the factor so far: (column position, value). -/
def SageFactor.row (f : SageFactor) (i : Nat) : List (Nat × Nat) :=
  f.cols.zipIdx.filterMap (fun c => (c.1.find? (fun e => e.1 == i)).map (fun e => (c.2, e.2)))

/-- One pivot and its column. -/
def SageProb.pivot (p : SageProb) (par z s : List Nat) (pat : List (List Nat)) (j : Nat) (f : SageFactor) :
    Except PivotFail SageFactor :=
  let kk (i m : Nat) : Nat := p.kAt par z s (p.t.order.getD i 0) (p.t.order.getD m 0)
  let rj := f.row j
  let scaled := rj.map (fun e => (e.1, fmul e.2 (f.piv.getD e.1 0)))
  let dj := sageSum p.lanes ((kk j j, one64) :: (rj.zip scaled).map (fun e => (f64.neg e.2.2, e.1.2)))
  let scale := normInf ((List.range p.t.nk).map (fun i => kk i j))
  let isVar := decide (p.t.order.getD j 0 < p.t.n)
  let small := flt (f64.abs dj) (fmul (par.getD 3 0) scale) || f64.abs dj == 0
  let inertia := if isVar then fle dj 0 else fle 0 dj
  if small || inertia then .error ⟨j, small, inertia⟩
  else
    let col := (pat.getD j []).map (fun i =>
      let ri := f.row i
      let terms := scaled.filterMap (fun e => (ri.find? (fun r => r.1 == e.1)).map (fun r => (f64.neg e.2, r.2)))
      (i, fdiv (sageSum p.lanes ((kk i j, one64) :: terms)) dj))
    .ok { cols := f.cols ++ [col], piv := f.piv ++ [dj] }

/-- The factorisation, in the elimination order, without exchange (R290). -/
def SageProb.factor (p : SageProb) (par z s : List Nat) (pat : List (List Nat)) : Except PivotFail SageFactor :=
  (List.range p.t.nk).foldl (fun r j => match r with
    | .ok f => p.pivot par z s pat j f
    | .error e => .error e) (.ok {})

/-- Solve K u = rhs with the factor; `rhs` and the answer by KKT index. -/
def SageProb.backsolve (p : SageProb) (f : SageFactor) (rhs : List Nat) : List Nat :=
  let nk := p.t.nk
  let fwd := (List.range nk).foldl (fun (t : List Nat) i =>
    t ++ [sageSum p.lanes ((rhs.getD (p.t.order.getD i 0) 0, one64) ::
      (f.row i).map (fun e => (f64.neg e.2, t.getD e.1 0)))]) []
  let mid := (List.range nk).map (fun i => fdiv (fwd.getD i 0) (f.piv.getD i 0))
  let bwd := (List.range nk).foldl (fun (u : List Nat) r =>
    let i := nk - 1 - r
    sageSum p.lanes ((mid.getD i 0, one64) ::
      (f.cols.getD i []).map (fun e => (f64.neg e.2, u.getD (e.1 - i - 1) 0))) :: u) []
  (List.range nk).map (fun k => bwd.getD (p.t.order.idxOf k) 0)

/-! ### One iteration (R287) -/

/-- A Newton step. -/
structure SageStep where
  dx : List Nat
  dy : List Nat
  dz : List Nat
  ds : List Nat

/-- newton(rd, re, rc, w): the step whose slacks follow from s∘dz + z∘ds = −w. -/
def SageProb.newton (p : SageProb) (f : SageFactor) (r : SageResid) (z s w : List Nat) : SageStep :=
  let rhs := r.rd.map f64.neg ++ r.re.map f64.neg ++
    (List.range p.t.mi).map (fun i => fsub (fdiv (w.getD i 0) (z.getD i 0)) (r.rc.getD i 0))
  let u := p.backsolve f rhs
  let dz := u.drop (p.t.n + p.t.me)
  { dx := u.take p.t.n, dy := (u.drop p.t.n).take p.t.me, dz := dz,
    ds := (List.range p.t.mi).map (fun i =>
      f64.neg (fdiv (f64.fma (s.getD i 0) (dz.getD i 0) (w.getD i 0)).1 (z.getD i 0))) }

/-- The largest a that keeps v + a × dv ≥ 0, none when there is no bound. -/
def maxStep (v dv : List Nat) : Option Nat :=
  (v.zip dv).foldl (fun (a : Option Nat) e =>
    if flt e.2 0 then
      let q := fdiv e.1 (f64.neg e.2)
      some (match a with
        | some b => if flt q b then q else b
        | none => q)
    else a) none

/-- The smaller of the two bounds. -/
def minStep (a b : Option Nat) : Option Nat :=
  match a, b with
  | some x, some y => some (if flt y x then y else x)
  | some x, none => some x
  | none, y => y

/-- v + a × dv with one rounding an element. -/
def axpy (a : Nat) (v dv : List Nat) : List Nat := (v.zip dv).map (fun e => (f64.fma a e.2 e.1).1)

/-- What an iteration answers: a failed pivot, or the new iterate and the step dx. -/
inductive IterRes where
  | fail (e : PivotFail)
  | next (x y z s dx : List Nat)

/-- One predictor-corrector iteration (R287). -/
def SageProb.iterate (p : SageProb) (par : List Nat) (pat : List (List Nat)) (x y z s : List Nat) : IterRes :=
  let r := p.resid x y z s
  match p.factor par z s pat with
  | .error e => .fail e
  | .ok f =>
    let w := (s.zip z).map (fun e => fmul e.1 e.2)
    let aff := p.newton f r z s w
    let aAff := match minStep (maxStep s aff.ds) (maxStep z aff.dz) with
      | some a => if flt one64 a then one64 else a
      | none => one64
    let q := fdiv (fdiv (sageSum p.lanes ((axpy aAff s aff.ds).zip (axpy aAff z aff.dz))) (fint p.t.mi)) r.mu
    let sigma := if p.t.mi = 0 then 0 else fmul (fmul q q) q
    let w2 := (List.range p.t.mi).map (fun i => sageSum p.lanes
      [(s.getD i 0, z.getD i 0), (aff.ds.getD i 0, aff.dz.getD i 0), (f64.neg sigma, r.mu)])
    let st := p.newton f r z s w2
    let a := match minStep (maxStep s st.ds) (maxStep z st.dz) with
      | some a => let b := fmul (fdiv (fint 99) (fint 100)) a; if flt one64 b then one64 else b
      | none => one64
    .next (axpy a x st.dx) (axpy a y st.dy) (axpy a z st.dz) (axpy a s st.ds) st.dx

/-- Blocks with a variable for which `hit` holds, as a mask. -/
def SageStruct.blockMask (t : SageStruct) (hit : Nat → Bool) : Nat :=
  (List.range t.n).foldl (fun m v => if hit v then setBit m (t.blocks.getD v 0) true else m) 0

/-- All blocks. -/
def SageStruct.allBlocks (t : SageStruct) : Nat := 2 ^ t.nblk - 1

/-- The affected blocks of a failed pivot (R291): those with a variable in its tree of the elimination forest. -/
def SageStruct.affected (t : SageStruct) (pat : List (List Nat)) (pos : Nat) : Nat :=
  let roots := treeRoots pat
  t.blockMask (fun v => roots.getD (t.order.idxOf v) 0 == roots.getD pos 0)

/-- A binary64 value rounded to binary32 (R302). -/
def toF32 (x : Nat) : Nat :=
  match f64.dec x with
  | .nan _ => f32.nanBits
  | .inf s => f32.sign s f32.infBits
  | .fin s m e => (f32.roundSum (signed s m) e s).1

/-- A binary32 value as binary64. -/
def toF64 (x : Nat) : Nat :=
  match f32.dec x with
  | .nan _ => f64.nanBits
  | .inf s => f64.sign s f64.infBits
  | .fin s m e => (f64.roundSum (signed s m) e s).1

end Sys2Proof.Machine
end

