-- ==== Sys2Proof/Machine/Sage.lean ====
section
/-!
DEFINITION. Machine/Sage.lean: the Sage coordination solver: cycles, structures, deltas, bindings, results, knots and commands
of "Sage Coordination Solver" (R272 … R304).
-/
namespace Sys2Proof.Machine

/-! ### Cycles (R274, R275) -/

/-- KC. -/
def Dev.kc (d : Dev) : Nat := d.r Reg.SAGE_CFG_KC

/-- The present cycle. -/
def Dev.sageCycle (d : Dev) : Nat := d.r Reg.EPK_NOW / d.kc

/-- The solve deadline of the cycle that begins at `bound` ns (R275). -/
def Dev.solveDeadline (d : Dev) (bound : Nat) : Nat :=
  bound + d.kc * d.te - d.te - 1000 * d.r Reg.SAGE_CFG_MARGIN_US

/-- T_C in seconds, binary64. -/
def Dev.tcF (d : Dev) : Nat := (f64.roundRat false (d.kc * d.r Reg.EPK_CFG_K) 64000 0).1

/-! ### Results (R293, R294, R302) -/

/-- The elements of the previous result under a structure, shifted by one stage (R293), with its NaN blocks; all NaN without
a predecessor. -/
def Dev.shifted (d : Dev) (t : SageStruct) : List Nat × Nat :=
  match d.sage.result with
  | none => (List.replicate t.n f64.nanBits, t.allBlocks)
  | some r =>
    if r.id ≠ t.id ∨ r.x.length ≠ t.n then (List.replicate t.n f64.nanBits, t.allBlocks)
    else
      let stage := t.nstep * t.w
      let x := (List.range t.n).map (fun v =>
        if bitOf r.nan (t.blocks.getD v 0) then f64.nanBits
        else if v + t.w < stage then r.x.getD (v + t.w) 0 else r.x.getD v 0)
      (x, r.nan ||| t.blockMask (fun v => f64.isNan (x.getD v 0)))

/-- The knots that a result gives to the axes of the knot map (R295, R296). -/
def Dev.giveKnots (d : Dev) (c : Nat) (x : List Nat) (w : Nat) : Dev :=
  d.each d.sage.map (fun k d =>
    let at' (i : Nat) : Nat := fmul k.kscale (x.getD i f64.nanBits)
    let ks : KnotSet := { start := (c + 1) * d.kc, kc := d.kc, koff := k.koff, velEn := k.velEn, p0 := at' k.wpos,
                          v0 := at' k.wvel, p1 := at' (w + k.wpos), v1 := at' (w + k.wvel), tc := d.tcF }
    d.setPx k.axis { d.px k.axis with nextKnots := some ks })

/-- SAGE_RES as one word. -/
def Dev.sageResWord (d : Dev) : Nat := d.regWord 0x60_0048

/-- The details of a result beside its solution: code, NaN blocks, causes, lowest affected block, objective and residuals. -/
structure SageOut where
  code : Nat
  x : List Nat
  y : List Nat := []
  z : List Nat := []
  nan : Nat
  small : Bool := false
  inertia : Bool := false
  overflow : Bool := false
  block : Nat := 0
  figures : List Nat := []

/-- SAGE_RESULT_PUBLISH (R294, R302): the cycle's one result, at `endNs`: registers, counters, publication, the stored
result and the knots. -/
def Dev.sagePublish (d : Dev) (cycle bound endNs : Nat) (warm : Bool) (iters lanes : Nat) (o : SageOut) : Dev :=
  let id := (d.sage.active.map (·.id)).getD 0
  let w := (d.sage.active.map (·.w)).getD 0
  let d := d.reach (d.countAt endNs)
  let d := ((((d.w Reg.SAGE_RES_CODE o.code).w Reg.SAGE_RES_ITERS iters).wb Reg.SAGE_RES_WARM warm).wb
    Reg.SAGE_RES_SMALL_PIVOT o.small).wb Reg.SAGE_RES_INERTIA o.inertia
  let d := ((d.wb Reg.SAGE_RES_OVERFLOW o.overflow).w Reg.SAGE_RES_BLOCK o.block).w Reg.SAGE_RES_LANES
    (if lanes = 32 then 3 else if lanes = 16 then 2 else if lanes = 8 then 1 else 0)
  let d := ((d.w Reg.SAGE_CYCLE cycle).w Reg.SAGE_NAN o.nan).w Reg.SAGE_SOLVE_NS (satU 32 (endNs - bound))
  let d := (d.wmax Reg.SAGE_SOLVE_MAX (satU 32 (endNs - bound))).w Reg.SAGE_STAT_SOLVING 0
  let d := if o.code = 1 ∨ o.code = 5 ∨ o.code = 6 then (d.flag Reg.SAGE_STAT_MISS).inc Reg.SAGE_MISS_CNT else d
  let d := if o.code = 2 then (d.flag Reg.SAGE_STAT_SINGULAR).inc Reg.SAGE_SING_CNT else d
  let d := (d.flagIf (o.code == 4) Reg.SAGE_STAT_BAD_DATA).flagIf (o.code == 8) Reg.SAGE_STAT_MEM_ERR
  let d := { d with
    ost := { d.ost with sagePower := 0 },
    sage := { d.sage with solve := none, laneReq := false, grant := 0, first := false,
                          result := some ⟨o.code, cycle, id, o.x, o.y, o.z, o.nan⟩ } }
  let d := (d.w Reg.GIRTH_GRANT 0).giveKnots cycle o.x w
  let fig (i : Nat) : Nat := if o.code = 0 then o.figures.getD i 0 else Config.sageFigure o.code i
  d.publish (d.r Reg.SAGE_PUB)
    [d.sageResWord, loW cycle, fig 0, fig 1, fig 2, loW (d.r Reg.SAGE_NAN), hiW (d.r Reg.SAGE_NAN)]

/-- A result of which every block is NaN. -/
def Dev.allNan (d : Dev) (code : Nat) : SageOut :=
  match d.sage.active with
  | some t => { code := code, x := List.replicate t.n f64.nanBits, nan := t.allBlocks }
  | none => { code := code, x := [], nan := 0 }

/-- A miss (R293, R294): STRUCT_GAP after a switch, STALE_PLAN at the limit of shifts, else SHIFTED. -/
def Dev.sageMiss (d : Dev) (endNs : Nat) : Dev :=
  match d.sage.solve, d.sage.active with
  | some q, some t =>
    let pub (d : Dev) (o : SageOut) : Dev := d.sagePublish q.cycle q.bound endNs q.warm q.iters q.lanes o
    if q.first then pub d (d.allNan 6)
    else if q.shiftMax ≤ d.r Reg.SAGE_SHIFT_RUN then pub d (d.allNan 5)
    else
      let (x, nan) := d.shifted t
      let prev := d.sage.result
      pub (d.incWrap Reg.SAGE_SHIFT_RUN)
        { code := 1, x := x, nan := nan, y := (prev.map (·.y)).getD [], z := (prev.map (·.z)).getD [] }
  | _, _ => d

/-- A solve that a failed pivot or an overflow ends (R291, R292): the affected blocks are NaN, the others shifted, or NaN
beyond SHIFT_MAX. -/
def Dev.sageSingular (d : Dev) (endNs affected : Nat) (small inertia overflow : Bool) : Dev :=
  match d.sage.solve, d.sage.active with
  | some q, some t =>
    let stale := decide (q.shiftMax ≤ d.r Reg.SAGE_SHIFT_RUN)
    let others := decide (affected ≠ t.allBlocks)
    let (x0, nan0) := d.shifted t
    let nan := if stale then t.allBlocks else nan0 ||| affected
    let x := (List.range t.n).map (fun v => if bitOf nan (t.blocks.getD v 0) then f64.nanBits else x0.getD v 0)
    let d := if !stale && others then d.incWrap Reg.SAGE_SHIFT_RUN else d
    let prev := d.sage.result
    d.sagePublish q.cycle q.bound endNs q.warm q.iters q.lanes
      { code := 2, x := x, nan := nan, y := (prev.map (·.y)).getD [], z := (prev.map (·.z)).getD [], small := small,
        inertia := inertia, overflow := overflow, block := ((List.range 64).find? (bitOf affected)).getD 0 }
  | _, _ => d

/-- A converged solve (R288, R294). -/
def Dev.sageSolved (d : Dev) (p : SageProb) (r : SageResid) (endNs : Nat) : Dev :=
  match d.sage.solve with
  | some q =>
    let obj := sageSum p.lanes ((List.range p.t.n).flatMap (fun i =>
      [(fmul (fdiv one64 (fint 2)) (sageSum p.lanes (p.hTerms q.x i)), q.x.getD i 0), (p.g.getD i 0, q.x.getD i 0)]))
    (d.w Reg.SAGE_SHIFT_RUN 0).sagePublish q.cycle q.bound endNs q.warm q.iters q.lanes
      { code := 0, x := q.x, y := q.y, z := q.z, nan := 0,
        figures := [toF32 obj, toF32 (normInf (r.re ++ r.rc)), toF32 (normInf r.rd)] }
  | none => d

/-! ### Latch (R282 … R286) -/

/-- STRUCT_SWITCH (R282, R297): a due commit makes the staged structure active, or is late. -/
def Dev.structSwitch (d : Dev) (g : Grade) (c : Nat) : Dev :=
  if !d.b Reg.SAGE_STAGED_STAT_COMMIT_PENDING || decide (c < d.r Reg.SAGE_COMMIT_CYCLE) then d
  else
    let d := (d.w Reg.SAGE_STAGED_STAT_COMMIT_PENDING 0).w Reg.SAGE_COMMIT_CYCLE 0
    match d.sage.staged with
    | some t =>
      if d.r Reg.SAGE_STAGED_STAT_STATE ≠ 2 then d.flag Reg.SAGE_STAT_COMMIT_LATE
      else
        let gone := d.sage.map.filter (fun k => !t.knots.any (fun q => q.axis == k.axis))
        let nan := f64.nanBits
        let none' : KnotSet := ⟨d.r Reg.EPK_NOW + 1, d.kc, 0, false, nan, nan, nan, nan, d.tcF⟩
        let d := d.each gone (fun k d => d.setPx k.axis { d.px k.axis with nextKnots := some none' })
        let d := { d with sage := { d.sage with
          active := some t, vals := t.init, map := t.knots, staged := none, stagedWords := [], first := true } }
        let d := (((d.flag Reg.SAGE_STAT_ACTIVE).w Reg.SAGE_ACTIVE_ID t.id).w Reg.SAGE_STAGED_ID 0).w
          Reg.SAGE_STAGED_STAT_STATE 0
        (d.w Reg.SAGE_STAGED_STAT_REASON 0).w Reg.SAGE_ITER_NS (satU 32 (t.iterNs (lanesOf g)))
    | none => d.flag Reg.SAGE_STAT_COMMIT_LATE

/-- DELTA_STALE (R283): discarded entries are counted. -/
def Dev.countStale (d : Dev) (n : Nat) : Dev :=
  if n = 0 then d else (d.flag Reg.SAGE_STAT_DELTA_STALE).add Reg.SAGE_DELTA_STALE_CNT n

/-- The pending entries of the active structure are applied in posting order, those of a pending commit wait, the others are
discarded (R283, R285); answers how many were applied. -/
def Dev.applyDeltas (d : Dev) : Dev × Nat :=
  let id := (d.sage.active.map (·.id)).getD 0
  let wait := if d.b Reg.SAGE_STAGED_STAT_COMMIT_PENDING then d.r Reg.SAGE_STAGED_ID else 0
  let mine := d.sage.deltas.filter (fun e => e.id == id)
  let keep := d.sage.deltas.filter (fun e => e.id != id && e.id == wait)
  let lost := d.sage.deltas.length - mine.length - keep.length
  let d := { d with sage := { d.sage with
    deltas := keep, vals := mine.foldl (fun v (e : SageDelta) => v.set e.idx e.val) d.sage.vals } }
  ((d.w Reg.SAGE_DELTA_PEND keep.length).countStale lost, mine.length)

/-- The set-point that the present plan of an axis gives for epoch `n` if nothing changes, and its velocity in counts/s
(R284). -/
def Dev.predictSp (d : Dev) (a n : Nat) : Int × Nat :=
  let x := d.px a
  let now := d.r Reg.EPK_NOW
  let perS (v : Nat) : Nat := fdiv v d.teF
  match d.modeOf a with
  | 1 =>
    match x.plan with
    | none => (x.sp, 0)
    | some p => match p.at (fint ((n : Int) - p.start)) with
      | some (dl, v, _) => (p.org + q24 dl, perS v)
      | none => (p.final, 0)
  | 2 =>
    match x.plan with
    | none => (x.sp, 0)
    | some p =>
      let st := (d.predicted x.coord).1
      let pos (m : Int) : Int := match p.at (fmax0 (f64.ofScaled (x.sun + st * (m - now) - p.start) (-32))) with
        | some s => p.org + q24 s.1
        | none => p.final
      (pos n, perS (fq24 (pos n - pos ((n : Int) - 1))))
  | 3 =>
    match x.gear with
    | none => (x.sp, 0)
    | some l =>
      let st := (d.predicted x.coord).1
      let pos (m : Int) : Int := l.value (x.sun + st * (m - now))
      (pos n, perS (fq24 (pos n - pos ((n : Int) - 1))))
  | 4 =>
    match x.knots with
    | none => (x.sp, 0)
    | some k => (d.planned a n, if k.velEn then k.v1 else fdiv (fsub k.p1 k.p0) k.tc)
  | _ => (x.sp, 0)

/-- The source of a binding as binary64 (R284). -/
def Dev.bindSource (d : Dev) (b : SageBind) (n : Nat) : Nat :=
  match b.kind with
  | 0 => fint (sx 32 (Mem.word d.ep.newest.vals (4 * b.src)))
  | 1 => toF64 (Mem.word d.ep.newest.vals (4 * b.src))
  | 2 =>
    let off := ((d.sage.map.find? (fun k => k.axis == b.src)).map (·.koff)).getD 0
    fq24 ((d.predictSp b.src n).1 - off)
  | 3 => (d.predictSp b.src n).2
  | _ => f64.ofScaled (d.r (Reg.ARM_CAP b.src) : Nat) (-16)

/-- Bindings in ascending entry order (R284, R285). -/
def Dev.applyBindings (d : Dev) (t : SageStruct) (n : Nat) : Dev :=
  d.each t.binds (fun b d =>
    { d with sage := { d.sage with vals := d.sage.vals.set b.vidx (fmul b.scale (d.bindSource b n)) } })

/-- The start point (R286): x, y, z, s, and whether it is warm. -/
def Dev.startPoint (d : Dev) (p : SageProb) (push : Nat) : Dev × (List Nat × List Nat × List Nat × List Nat) × Bool :=
  let cold := (List.replicate p.t.n 0, List.replicate p.t.me 0, List.replicate p.t.mi one64,
    p.d.map (fun v => if flt v one64 then one64 else v))
  match d.sage.result with
  | none => (d, cold, false)
  | some r =>
    if 1 < r.code ∨ r.nan ≠ 0 ∨ r.x.any f64.isNan ∨ d.b Reg.SAGE_CTRL_COLD_NEXT then (d, cold, false)
    else if r.id ≠ p.t.id then ((d.flag Reg.SAGE_STAT_WARM_REJECTED).inc Reg.SAGE_WARM_REJ_CNT, cold, false)
    else
      let atLeast (v : Nat) : Nat := if flt v push then push else v
      let s := (List.range p.t.mi).map (fun i =>
        atLeast (sageSum p.lanes ((p.d.getD i 0, one64) :: (rowTerms p.cE r.x i).map (fun e => (f64.neg e.1, e.2)))))
      (d, (r.x, (List.range p.t.me).map (fun i => r.y.getD i 0), (List.range p.t.mi).map (fun i => atLeast (r.z.getD i 0)), s),
        true)

/-- The parameters in force (R287 … R290). -/
def Dev.sageParams (d : Dev) : List Nat :=
  [d.r Reg.SAGE_EPS_P, d.r Reg.SAGE_EPS_D, d.r Reg.SAGE_EPS_G, d.r Reg.SAGE_PIVOT_TOL, d.r Reg.SAGE_RHO,
    d.r Reg.SAGE_DELTA, d.r Reg.SAGE_WARM_PUSH]

/-- The problem of the active structure. -/
def Dev.sageProb (d : Dev) (g : Grade) (t : SageStruct) (lanes : Nat) : SageProb :=
  { t := t, v := d.sage.vals, lanes := if lanes = 0 then lanesOf g else lanes }

/-- SAGE_LATCH (R282 … R286, R288, R294) at the boundary that opens cycle c; `memErr`: an uncorrectable error in Sage
storage. -/
def Dev.sageLatch (d : Dev) (g : Grade) (memErr : Bool) : Dev :=
  let n := d.r Reg.EPK_NOW
  let c := d.sageCycle
  if !sageFitted g ∨ !d.ep.placed ∨ d.enginesStill ∨ d.kc = 0 ∨ n % d.kc ≠ 0 ∨ d.sage.lastCycle = some c then d
  else
    let bound := d.boundaryNs
    let d := d.sageMiss bound
    let d := { d with sage := { d.sage with lastCycle := some c } }
    let d := d.structSwitch g c
    let run := d.b Reg.SAGE_CTRL_RUN
    let d := d.wb Reg.SAGE_STAT_RUNNING run
    match (if run then d.sage.active else none) with
    | none => d.sagePublish c bound bound false 0 0 (d.allNan 7)
    | some t =>
      let (d, nd) := d.applyDeltas
      let d := d.applyBindings t (n + d.kc)
      let start := bound + 2000 + 10 * (nd + t.binds.length)
      if memErr then d.sagePublish c bound start false 0 0 (d.allNan 8)
      else if !(d.sage.vals.all fin64) then d.sagePublish c bound start false 0 0 (d.allNan 4)
      else
        let par := d.sageParams
        let p := d.sageProb g t 0
        let (d, pt, warm) := d.startPoint p (par.getD 6 0)
        let q : SageSolve := {
          cycle := c, bound := bound, par := par, iterMax := d.r Reg.SAGE_ITER_ITER_MAX,
          shiftMax := d.r Reg.SAGE_ITER_SHIFT_MAX, first := d.sage.first, warm := warm, ready := start,
          x := pt.1, y := pt.2.1, z := pt.2.2.1, s := pt.2.2.2 }
        let d := ({ d with sage := { d.sage with solve := some q, laneReq := true, reqNs := start, grant := 0 } }).w
          Reg.SAGE_CTRL_COLD_NEXT 0
        let d := d.flag Reg.SAGE_STAT_SOLVING
        let r := p.resid q.x q.y q.z q.s
        if p.converged par r then d.sageSolved p r start else d

/-- Meaning of SAGE_LATCH. -/
def execSageLatch (memErr : Bool) (s : State) : Host.Outcome State Fault Refusal := ok s (fun g d => d.sageLatch g memErr)

/-! ### Iterations and the deadline (R287 … R292, R298) -/

/-- SAGE_ITERATION (R287 … R292, R298): the iteration that runs on the present grant completes, unless it would pass the
deadline; then the solve is a miss. `memErr` as in SAGE_LATCH. -/
def Dev.sageIteration (d : Dev) (g : Grade) (memErr : Bool) : Dev :=
  match d.sage.solve, d.sage.active with
  | some q, some t =>
    if d.sage.grant = 0 then d
    else
      let start := max q.ready d.sage.grantNs
      let endNs := start + t.iterNs d.sage.grant
      if d.solveDeadline q.bound < endNs then d.sageMiss start
      else
        let p := d.sageProb g t d.sage.grant
        let pat := factorPattern t
        let d := { d with sage := { d.sage with solve := some { q with iters := q.iters + 1, lanes := d.sage.grant } } }
        if memErr then d.sagePublish q.cycle q.bound endNs q.warm (q.iters + 1) p.lanes (d.allNan 8)
        else match p.iterate q.par pat q.x q.y q.z q.s with
        | .fail e => d.sageSingular endNs (t.affected pat e.pos) e.small e.inertia false
        | .next x y z s dx =>
          let big := t.blockMask (fun v => tooBig (x.getD v 0) || tooBig (dx.getD v 0))
          let q2 := { q with iters := q.iters + 1, lanes := d.sage.grant, ready := endNs, x := x, y := y, z := z, s := s }
          let d := { d with sage := { d.sage with solve := some q2 } }
          let r := p.resid x y z s
          if p.infeasible y z then d.sagePublish q.cycle q.bound endNs q.warm q2.iters q2.lanes (d.allNan 3)
          else if big ≠ 0 then d.sageSingular endNs big false false true
          else if p.converged q.par r then d.sageSolved p r endNs
          else if q.iterMax ≤ q2.iters then d.sageMiss endNs
          else
            let d := d.reach (d.countAt endNs)
            { d with
              ost := { d.ost with sagePower := 0 },
              sage := { d.sage with laneReq := true, reqNs := endNs, grant := 0 } }.w Reg.GIRTH_GRANT 0
  | _, _ => d

/-- Meaning of SAGE_ITERATION. -/
def execSageIteration (memErr : Bool) (s : State) : Host.Outcome State Fault Refusal :=
  ok s (fun g d => d.sageIteration g memErr)

/-- SAGE_SOLVE_DEADLINE (R275, R289): at D_S an unconverged solve is a miss. -/
def Dev.sageDeadline (d : Dev) : Dev :=
  match d.sage.solve with
  | some q => d.sageMiss (d.solveDeadline q.bound)
  | none => d

/-- Meaning of SAGE_SOLVE_DEADLINE. -/
def execSageSolveDeadline (s : State) : Host.Outcome State Fault Refusal := ok s (fun _ d => d.sageDeadline)

/-- SAGE_ANALYSIS_DONE (R280): the background analysis of the staged image ends. -/
def Dev.sageAnalysed (d : Dev) (g : Grade) : Dev :=
  if d.r Reg.SAGE_STAGED_STAT_STATE ≠ 1 then d
  else
    let (reason, t) := analyse d.sage.stagedWords (axesOf g) (armsOf g) (d.r Reg.SAGE_SWM_SIZE * 2 ^ 16) d.sage.active
    let d := ({ d with sage := { d.sage with staged := if reason = 0 then some t else none } }).w Reg.SAGE_STAT_ANALYSING 0
    (d.w Reg.SAGE_STAGED_STAT_STATE (if reason = 0 then 2 else 3)).w Reg.SAGE_STAGED_STAT_REASON reason

/-- Meaning of SAGE_ANALYSIS_DONE. -/
def execSageAnalysisDone (s : State) : Host.Outcome State Fault Refusal := ok s (fun g d => d.sageAnalysed g)

/-! ### Registers and commands (R286, R303, R304) -/

/-- A write of SAGE_CTRL: RUN, and COLD_NEXT which a 1 sets. -/
def Dev.sageCtrlWrite (d : Dev) (v : Nat) : Dev :=
  (d.w Reg.SAGE_CTRL_RUN (v % 2)).flagIf (bitOf v 1) Reg.SAGE_CTRL_COLD_NEXT

/-- Meaning of SAGE_CTRL_COLD_NEXT: a write of SAGE_CTRL. -/
def execSageCtrlColdNext (path : Path) (v : Word) (s : State) : Host.Outcome State Fault Refusal :=
  ok s (fun g d => d.access path true (sageFitted g) (fun d => d.sageCtrlWrite v.toNat))

/-- A write of SAGE_ITER: each field out of range is ignored with PARAM_BAD. -/
def Dev.sageIterWrite (d : Dev) (v : Nat) : Dev :=
  let sm := bits v 8 6
  let im := v % 256
  let lim := (d.sage.active.map (fun t => t.nstep - 2)).getD 63
  let d := if lim < sm then d.flag Reg.SAGE_STAT_PARAM_BAD else d.w Reg.SAGE_ITER_SHIFT_MAX sm
  if im = 0 then d.flag Reg.SAGE_STAT_PARAM_BAD else d.w Reg.SAGE_ITER_ITER_MAX im

/-- A write of a solver parameter word at offset `o` (0x10 … 0x44): the low word is buffered, the high word applies the pair
when it is finite and positive. -/
def Dev.sageParamWrite (d : Dev) (o v : Nat) : Dev :=
  if o % 8 = 0 then { d with sage := { d.sage with low := Tab.put o v d.sage.low } }
  else
    let f : Field := [Reg.SAGE_EPS_P, Reg.SAGE_EPS_D, Reg.SAGE_EPS_G, Reg.SAGE_PIVOT_TOL, Reg.SAGE_RHO, Reg.SAGE_DELTA].getD
      ((o - 0x14) / 8) Reg.SAGE_WARM_PUSH
    let x := pair64 (Tab.look (loW (d.r f)) (o - 4) d.sage.low) v
    if f64.isPos x then d.w f x else d.flag Reg.SAGE_STAT_PARAM_BAD

/-- What every Sage command needs. -/
def sageSpec (op : Nat) (priv : Bool) (need : List Nat → Option Nat) : CmdSpec :=
  { opcode := op, priv := priv, need := need, fitted := fun g _ => sageFitted g }

/-- Meaning of SAGE_INFO. -/
def execSageInfo (p : Packet) (s : State) : Host.Outcome State Fault Refusal :=
  ok s (fun g d => d.runPacket g (sageSpec 0x600 false (needN 0)) p (fun d _ =>
    (d, .ok ([0x60_0004, 0x60_0048, 0x60_004C, 0x60_0050, 0x60_005C, 0x60_0060, 0x60_0064, 0x60_0070, 0x60_0074].map
      d.regWord))))

/-- SAGE_STRUCT_LOAD (R280, R304). -/
def Dev.structLoad (d : Dev) (off len : Nat) : Dev × Res :=
  let base := d.r Reg.SAGE_SWM_BASE * 2 ^ 16
  let size := d.r Reg.SAGE_SWM_SIZE * 2 ^ 16
  if d.r Reg.SAGE_STAGED_STAT_STATE = 1 ∨ d.b Reg.SAGE_STAGED_STAT_COMMIT_PENDING then (d, .busy)
  else if off % 4 ≠ 0 ∨ 0xC0_0000 ≤ off then (d, .badParam 2)
  else if 0xC0_0000 < off + 4 * len then (d, .badParam 3)
  else if off < base + size ∧ base < off + 4 * len then (d, .badParam 0)
  else
    let ws := Mem.words d.hk.swm off len
    let id := ws.getD 1 0
    if !headerOk ws len ∨ id = 0 ∨ id = d.r Reg.SAGE_ACTIVE_ID then (d, .badParam 0)
    else
      let d := { d with sage := { d.sage with stagedWords := ws, staged := none } }
      let d := ((d.w Reg.SAGE_STAGED_ID id).w Reg.SAGE_STAGED_STAT_STATE 1).w Reg.SAGE_STAGED_STAT_REASON 0
      (d.flag Reg.SAGE_STAT_ANALYSING, .ok [id])

/-- Meaning of SAGE_STRUCT_LOAD. -/
def execSageStructLoad (p : Packet) (s : State) : Host.Outcome State Fault Refusal :=
  ok s (fun g d => d.runPacket g (sageSpec 0x601 true (needN 2)) p (fun d ps => d.structLoad (ps.getD 0 0) (ps.getD 1 0)))

/-- Meaning of SAGE_STRUCT_COMMIT. -/
def execSageStructCommit (p : Packet) (s : State) : Host.Outcome State Fault Refusal :=
  ok s (fun g d => d.runPacket g (sageSpec 0x602 true (needN 3)) p (fun d ps =>
    let c := pair64 (ps.getD 1 0) (ps.getD 2 0)
    if d.r Reg.SAGE_STAGED_ID = 0 ∨ ps.getD 0 0 ≠ d.r Reg.SAGE_STAGED_ID then (d, .badParam 2)
    else if c ≤ d.sageCycle then (d, .past)
    else if d.b Reg.SAGE_STAGED_STAT_COMMIT_PENDING then (d, .busy)
    else ((d.w Reg.SAGE_COMMIT_CYCLE c).flag Reg.SAGE_STAGED_STAT_COMMIT_PENDING, .ok [])))

/-- The entries of a SAGE_DELTA command. -/
def deltaEntries (id : Nat) : List Nat → List SageDelta
  | i :: lo :: hi :: r => ⟨id, i % 2 ^ 18, pair64 lo hi⟩ :: deltaEntries id r
  | _ => []

/-- SAGE_DELTA (R283, R304). -/
def Dev.postDeltas (d : Dev) (id : Nat) (es : List SageDelta) : Dev × Res :=
  let act := match d.sage.active with
    | some t => if t.id = id then some t.nval else none
    | none => none
  let stg := if d.b Reg.SAGE_STAGED_STAT_COMMIT_PENDING ∧ d.r Reg.SAGE_STAGED_ID = id ∧ id ≠ 0 then some (d.sage.stagedWords.getD 5 0)
    else none
  let bad (e : SageDelta) : Option Nat :=
    match act.or stg with
    | some n => if n ≤ e.idx then some 0 else if !fin64 e.val then some 1 else none
    | none => if !fin64 e.val then some 1 else none
  match es.zipIdx.findSome? (fun e => (bad e.1).map (fun k => 4 + 3 * e.2 + k)) with
  | some w => (d, .badParam w)
  | none =>
    if (act.or stg).isNone then
      let d := d.countStale es.length
      (d, .ok [d.r Reg.SAGE_DELTA_PEND])
    else if 16384 < d.sage.deltas.length + es.length then
      ((d.flag Reg.SAGE_STAT_DELTA_OVF).inc Reg.SAGE_DELTA_OVF_CNT, .busy)
    else
      let d := { d with sage := { d.sage with deltas := d.sage.deltas ++ es } }
      let d := d.w Reg.SAGE_DELTA_PEND d.sage.deltas.length
      (d, .ok [d.r Reg.SAGE_DELTA_PEND])

/-- Meaning of SAGE_DELTA. -/
def execSageDelta (p : Packet) (s : State) : Host.Outcome State Fault Refusal :=
  ok s (fun g d => d.runPacket g (sageSpec 0x603 false (needCount 2 3)) p (fun d ps =>
    if ps.getD 1 0 = 0 ∨ 300 < ps.getD 1 0 then (d, .badParam 3)
    else d.postDeltas (ps.getD 0 0) (deltaEntries (ps.getD 0 0) (ps.drop 2))))

/-- Meaning of SAGE_READ. -/
def execSageRead (p : Packet) (s : State) : Host.Outcome State Fault Refusal :=
  ok s (fun g d => d.runPacket g
    { sageSpec 0x604 false (needN 2) with replyLen := fun ps => 6 + 2 * ps.getD 1 0 } p (fun d ps =>
    let x := (d.sage.result.map (·.x)).getD []
    match rangeBad (ps.getD 0 0) (ps.getD 1 0) 400 x.length with
    | some w => (d, .badParam w)
    | none => (d, .ok ([0x60_004C, 0x60_0050, 0x60_0048].map d.regWord ++
        ((x.drop (ps.getD 0 0)).take (ps.getD 1 0)).flatMap (fun v => [loW v, hiW v])))))

/-- Meaning of SAGE_COLD. -/
def execSageCold (p : Packet) (s : State) : Host.Outcome State Fault Refusal :=
  ok s (fun g d => d.runPacket g (sageSpec 0x605 true (needN 0)) p (fun d _ => (d.flag Reg.SAGE_CTRL_COLD_NEXT, .ok [])))

end Sys2Proof.Machine
end

