-- ==== Sys2Proof/Machine/PairSnap.lean ====
section
/-!
DEFINITION. Machine/PairSnap.lean: what one module of a pair sends the other: health records (R495), output shadows (R496) and
snapshots (R497 … R499), how a standby loads them, and how a snapshot is restored at a takeover (R504).
-/
namespace Sys2Proof.Machine

/-! ### Health records and output shadows -/

/-- The health record that the module sends (R495). -/
def Dev.healthRecord (d : Dev) : Health := {
  state := d.r Reg.PAIR_STAT_STATE, ready := d.b Reg.PAIR_STAT_READY,
  lastEpoch := if d.ep.committedOnce then d.ep.lastCommitted else noEpoch, snapEpoch := d.r Reg.PAIR_SNAP_RX,
  selftest := d.regWord 0xD0_0040, bridle := d.brdStateCode, demand := d.r Reg.BRD_ZONE_DEM,
  tj := sx 16 (d.r Reg.GIRTH_TJ_NOW), cause := d.r Reg.PAIR_LAST_CAUSE }

/-- What the field die applies of team `t` from the next boundary (R496). -/
def Dev.teamShadow (d : Dev) (t : Nat) : TeamShadow :=
  let x := d.tx t
  { enabled := x.enNext.getD (d.b (Reg.TEAM_STAT_ENABLED t)),
    act := [0, 1, 2, 3].map (fun i => (x.staged.getD i none).getD (x.act.getD i 0)),
    tripped := d.b (Reg.TEAM_STAT_TRIPPED t), tripSrc := d.r (Reg.TEAM_STAT_TRIP_SRC t),
    forced := d.b (Reg.TEAM_STAT_FORCED t), demandLost := d.b (Reg.TEAM_STAT_DEMAND_LOST t), safe := x.safe,
    sto := bitOf d.team.sto t, sp := x.step.delivered.getD x.step.sp, strong := d.b (Reg.STEP_STAT_STRONG t) }

/-- The output shadow of epoch `n`. -/
def Dev.outputShadow (d : Dev) (g : Grade) (n : Nat) : Shadow :=
  { epoch := n, teams := (List.range (teamsOf g)).map (fun t => (t, d.teamShadow t)), outs := d.r Reg.FIO_OUT,
    safe := d.r Reg.BRD_OUT, sto := d.brd.sto }

/-- The field die of a standby keeps a team's shadow loaded. -/
def Dev.loadTeam (d : Dev) (t : Nat) (s : TeamShadow) : Dev :=
  let d := d.wb (Reg.TEAM_STAT_ENABLED t) s.enabled
  let d := (d.wb (Reg.TEAM_STAT_TRIPPED t) s.tripped).w (Reg.TEAM_STAT_TRIP_SRC t) s.tripSrc
  let d := (d.wb (Reg.TEAM_STAT_FORCED t) s.forced).wb (Reg.TEAM_STAT_DEMAND_LOST t) s.demandLost
  let d := d.w Reg.TEAM_TRIPPED (setBit (d.r Reg.TEAM_TRIPPED) t s.tripped)
  let d := d.wb (Reg.STEP_STAT_STRONG t) s.strong
  let x := d.tx t
  let d := d.setTx t { x with
    staged := s.act.map some, due := true, safe := s.safe, enNext := none,
    step := { x.step with delivered := some s.sp, modeKnown := true } }
  if bitOf d.team.sto t = s.sto then d else d.setSto t s.sto

/-- The standby's field dies load an output shadow and do not drive it (R496). -/
def Dev.loadShadow (d : Dev) (s : Shadow) : Dev :=
  let d := d.each s.teams (fun e d => d.loadTeam e.1 e.2)
  { d with
    fio := { d.fio with
      sigLevels := s.outs, calLevels := s.outs, hostLevels := s.outs, safeLevels := s.safe, given := 0xFFFF_FFFF,
      started := true },
    pair := { d.pair with shadow := some s, shadowC := d.time.c } }

/-! ### Snapshots -/

/-- A status register that is part of the snapshot: coordinate values and states, the enabled count of the calendar, the axes
of the profile generator and of the loop engine, and the Sage result. -/
def snapReg (a : Nat) : Bool :=
  (decide (0x30_8000 ≤ a) && decide (a < 0x30_8200) && decide (0x18 ≤ a % 0x40) && decide (a % 0x40 < 0x2C)) ||
  a == Reg.CAL_ENABLED.addr ||
  (decide (0x30_1000 ≤ a) && decide (a < 0x30_3000)) || (decide (0x20_1000 ≤ a) && decide (a < 0x20_1800)) ||
  (decide (0x60_0048 ≤ a) && decide (a < 0x60_005C)) || a == Reg.SAGE_SHIFT_RUN.addr

/-- A record byte that is part of the snapshot: event entries, gear entries and section states. -/
def snapMem (a : Nat) : Bool :=
  (decide (0x32_0000 ≤ a) && decide (a < 0x34_0000)) || (decide (0x36_0000 ≤ a) && decide (a < 0x37_0000)) ||
  (decide (0x28_0000 ≤ a) && decide (a < 0x30_0000) && decide (0x800 ≤ a % 0x1000) && decide (a % 0x1000 < 0xB00))

/-- The bytes of a range of a memory, at offsets from its start. -/
def cutMem (m : Mem) (off len : Nat) : Mem :=
  (m.filter (fun c => decide (off ≤ c.1) && decide (c.1 < off + len))).map (fun c => (c.1 - off, c.2))

/-- A memory with a range replaced. -/
def pasteMem (m : Mem) (off len : Nat) (x : Mem) : Mem :=
  x.foldl (fun m c => Mem.set m (off + c.1) c.2) (m.filter (fun c => !(decide (off ≤ c.1) && decide (c.1 < off + len))))

/-- The bytes of an application region. -/
def Dev.regionBytes (d : Dev) (r : AppRegion) : Mem :=
  match r.core with
  | none => cutMem d.hk.swm r.off r.len
  | some c => cutMem (d.core c.val).dmem r.off r.len

/-- Write the bytes of an application region. -/
def Dev.putRegion (d : Dev) (r : AppRegion) (x : Mem) : Dev :=
  match r.core with
  | none => { d with hk := { d.hk with swm := pasteMem d.hk.swm r.off r.len x } }
  | some c => d.setCore c.val { d.core c.val with dmem := pasteMem (d.core c.val).dmem r.off r.len x }

/-- An axis of the profile generator that the configuration uses: in the loop engine, or with a set-point output. -/
def Dev.prfAxisOn (d : Dev) (a : Nat) : Bool := d.axisOn a || d.paramWord a 0 % 8 != 0

/-- S of a snapshot taken now, in bytes (R497). -/
def Dev.snapSize (d : Dev) : Nat :=
  let axes := (List.range 128).filter d.prfAxisOn
  let loops := (List.range 128).filter d.axisOn
  let sage := match d.sage.active with
    | some t => 64 + 8 * (t.n + t.me + 2 * t.mi)
    | none => 0
  128 + 64 * 8 + 32 * 4096 + 16 * 256 + 1024 * axes.length + 400 * loops.length + sage + 16 * 512 +
    (d.pair.regions.map (·.len)).foldl (· + ·) 0

/-- The snapshot of epoch `n` (R497). -/
def Dev.snapshot (d : Dev) (n : Nat) : Snapshot := {
  seq := d.pair.seq + 1, epoch := n, compat := d.regWord 0xE0_0028, size := d.snapSize,
  heldFrom := d.ep.heldFrom, heldCount := d.ep.heldCount, heldCause := d.ep.heldCause, heldTotal := d.r Reg.IMG_HELD_TOTAL,
  cut := if d.r Reg.IMG_CUT_STAT_STATE = 1 then some (d.r Reg.IMG_CUT_ID, d.r Reg.IMG_CUT_EPOCH) else none,
  coords := d.cal.coords, calEnabled := d.cal.enabled, events := d.cal.events, switches := d.cal.switches,
  calSigs := d.cal.sigs, ringBits := d.cal.ringBits, axes := d.prf.axes, loops := d.loop.axes,
  runs := [d.b Reg.PRF_CTRL_RUN, d.b Reg.LOOP_CTRL_RUN, d.b Reg.CAL_CTRL_RUN, d.b Reg.SAGE_CTRL_RUN, d.b Reg.OST_CTRL_RUN],
  sageId := (d.sage.active.map (·.id)).getD 0, sageResult := d.sage.result,
  conns := d.brd.conns.map (fun e => (e.1, ⟨e.2.st, e.2.seq, e.2.ts, e.2.txSeq⟩)),
  regs := d.regs.filter (fun e => snapReg (e.1 / 32)), mem := d.mem.filter (fun c => snapMem c.1),
  app := d.pair.regions.map (fun r => (r, d.regionBytes r)) }

/-- The chunks of a snapshot (R498). -/
def Snapshot.chunks (s : Snapshot) : Nat := cdiv s.size 4096

/-- t_snap of a snapshot with a number of lanes up, ns (R499). -/
def Snapshot.sendNs (s : Snapshot) (lanes : Nat) : Nat := (if 2 ≤ lanes then s.size / 2 else s.size) + 100 * s.chunks

/-- Begin to send the snapshot of epoch `n`, in place of one still being sent. -/
def Dev.sendSnapshot (d : Dev) (n : Nat) : Dev :=
  let s := d.snapshot n
  ({ d with pair := { d.pair with sending := some (s, d.time.c), seq := s.seq } }).w Reg.PAIR_SNAP_SIZE s.size

/-- SNAPSHOT_TAKE (R497): at a due epoch, unless the one before is still being sent. -/
def Dev.snapshotDue (d : Dev) (n : Nat) : Dev :=
  if n % d.r Reg.PAIR_CFG_SNAP_PERIOD ≠ 0 ∨ d.r Reg.PAIR_STAT_TACK_UP = 0 then d
  else if d.pair.sending.isSome then d.flag Reg.PAIR_STAT_SNAP_LATE
  else d.sendSnapshot n

/-! ### Restoring (R504) -/

/-- The registers and records of a snapshot replace the module's own. -/
def Dev.restoreRecords (d : Dev) (s : Snapshot) : Dev :=
  let regs := s.regs.foldl (fun rs e => Regs.set rs e.1 (e.2 + 1) e.2) (d.regs.filter (fun e => !snapReg (e.1 / 32)))
  let mem := s.mem.foldl (fun m c => Mem.set m c.1 c.2) (d.mem.filter (fun c => !snapMem c.1))
  { d with regs := regs, mem := mem }

/-- A safe connection goes on from a snapshot; a transmit connection resumes at SEQ + 2 048 and says so (R360). -/
def Dev.restoreConn (d : Dev) (c : Nat) (s : ConnSnap) : Dev :=
  let x := d.conn c
  let tx := decide (256 ≤ c) && decide (c < 512)
  d.setConn c { x with
    st := s.st, seq := if tx then s.seq + 2048 else s.seq, ts := s.ts, txSeq := s.txSeq + 2048, takeover := tx,
    tick := d.brd.n }

/-- The engines take over from a snapshot. -/
def Dev.restoreEngines (d : Dev) (s : Snapshot) : Dev :=
  let d := { d with
    cal := { d.cal with
      coords := s.coords.map (fun (e : Nat × Coord) => (e.1, { e.2 with gap := true })), enabled := s.calEnabled, events := s.events,
      switches := s.switches, sigs := s.calSigs, ringBits := s.ringBits },
    prf := { d.prf with axes := s.axes, rebase := 1, cmds := [] },
    loop := { d.loop with axes := s.loops.map (fun (e : Nat × LoopAx) => (e.1, { e.2 with first := true, posNow := false, evalNow := false })) },
    sage := { d.sage with
      result := if s.sageId = (d.sage.active.map SageStruct.id).getD 0 then s.sageResult else none, solve := none },
    ost := { d.ost with delays := [], ready := [], cycq := [], nextTick := [] } }
  let d := (((d.wb Reg.PRF_CTRL_RUN (s.runs.getD 0 false)).wb Reg.LOOP_CTRL_RUN (s.runs.getD 1 false)).wb Reg.CAL_CTRL_RUN
    (s.runs.getD 2 false)).wb Reg.SAGE_CTRL_RUN (s.runs.getD 3 false)
  let d := d.wb Reg.OST_CTRL_RUN (s.runs.getD 4 false)
  d.each (s.loops.map Prod.fst) (fun a d => d.w (Reg.AXIS_STAT_FE_CNT a) 0)

/-- The held run, the armed cut, the connections and the application regions of a snapshot. -/
def Dev.restoreRest (d : Dev) (s : Snapshot) : Dev :=
  let d := { d with ep := { d.ep with
    heldFrom := s.heldFrom, heldCount := s.heldCount, heldCause := s.heldCause, heldRun := some (s.epoch + 1, 1) } }
  let d := d.w Reg.IMG_HELD_TOTAL s.heldTotal
  let d := match s.cut with
    | some (id, n) => ((d.w Reg.IMG_CUT_STAT_STATE 1).w Reg.IMG_CUT_ID id).w Reg.IMG_CUT_EPOCH n
    | none => d
  let d := d.each s.conns (fun e d => d.restoreConn e.1 e.2)
  d.each s.app (fun e d => d.putRegion e.1 e.2)

/-- The newest verified snapshot is restored (R504); the Paddock monitor starts in SELFTEST (R243), the trace in IDLE (R152). -/
def Dev.restore (d : Dev) (g : Grade) : Dev :=
  match d.pair.takeover, d.pair.verified with
  | some t, some s =>
    if t.restored then d
    else
      let d := { d with pair := { d.pair with takeover := some { t with restored := true } } }
      let d := (((d.restoreRecords s).restoreEngines s).restoreRest s).trcDrop
      if bitOf (d.linkRec 5) 16 then d.pdkSelftest g else d
  | _, _ => d

end Sys2Proof.Machine
end

