-- ==== Sys2Proof/Machine/Pair.lean ====
section
/-!
DEFINITION. Machine/Pair.lean: paired operation and takeover (R489 … R512): the role of the module, REIN, the tack link, the
standby, takeover, revert and planned handover.
-/
namespace Sys2Proof.Machine

/-! ### Roles -/

/-- The module is the preferred one of its pair (R508). -/
def Dev.preferred (d : Dev) : Bool := d.r Reg.PAIR_CFG_PREF == d.r Reg.PAIR_STAT_ROLE

/-- The module works in a pair (R489). -/
def Dev.paired (d : Dev) : Bool := d.b Reg.PAIR_CFG_PAIRED

/-- The engines stop (R500): nothing of them runs on a standby. -/
def Dev.stopEngines (d : Dev) : Dev :=
  let cores := (List.range 16).foldl (fun (t : Tab HkCore) c =>
    let k := d.core c
    Tab.put c { k with waiting := .none, buffer := [] } t) d.hk.cores
  let d := { d with
    loop := { d.loop with run := false }, prf := { d.prf with run := false, cmds := [], rebase := 0 },
    cal := { d.cal with run := false, stopping := false, switches := [], orphans := [], gearOut := [], profileOut := [],
                        workOut := [], ringOut := [] },
    sage := { d.sage with solve := none },
    ost := { d.ost with run := false, ready := [], cycq := [], nextTick := [], delays := [], running := [] },
    hk := { d.hk with cores := cores } }
  let d := d.each d.ost.enabled (fun i d => d.setDescState i 0)
  let d := d.each (List.range 16) (fun c d => d.w (Reg.HK_STAT_STATE c) 0)
  let d := ((((d.w Reg.LOOP_STAT_RUNNING 0).w Reg.PRF_STAT_RUNNING 0).w Reg.OST_STAT_RUNNING 0).w Reg.SAGE_STAT_RUNNING 0).w
    Reg.OST_IDLE 0xFFFF
  (d.w Reg.PDK_STAT_STATE 0).trcDrop

/-- The front holds no epoch until the module commits again (R49). -/
def Dev.emptyFront (d : Dev) : Dev :=
  { d.w Reg.IMG_FRONT noEpoch with ep := { d.ep with
    front := {}, before := {}, newest := { vals := d.ep.newest.vals }, committedOnce := false, heldRun := none } }

/-- The module becomes the standby (R500, R577). -/
def Dev.becomeStandby (d : Dev) : Dev :=
  let d := { d with pair := { d.pair with
    takeover := none, handover := none, confirmed := false, switchReq := none, sending := none, readyC := none } }
  let d := (d.stopEngines.emptyFront.w Reg.GLB_BOOT_STAGE 10).pairEnter 3
  let d := (d.w Reg.PAIR_STAT_REVERT_PEND 0).w Reg.PAIR_SELFTEST_RUNNING 1
  (if d.brdStateCode = 3 then d.brdEnter 2 else d).pins

/-- Claim REIN as a cold start (R577): every engine starts from the configuration image. -/
def Dev.coldClaim (d : Dev) : Dev :=
  let d := (d.reinClaim.w Reg.GLB_BOOT_STAGE 10).pairEnter (if d.paired then 2 else 0)
  { d with boot := { d.boot with cold := true } }

/-- Stage PAIR (R577): alone and preferred modules claim at once, the other waits for START_WAIT, and a module whose partner
holds REIN becomes the standby. -/
def Dev.pairDecide (d : Dev) : Dev :=
  let d := d.w Reg.GLB_BOOT_STAGE 9
  if !d.paired then d.coldClaim
  else if d.b Reg.PAIR_STAT_PEER_HOLD then d.becomeStandby
  else if d.preferred then d.coldClaim
  else d.pairEnter 1

/-- Meaning of START_WAIT_EXPIRE (R577). -/
def execStartWaitExpire (s : State) : Host.Outcome State Fault Refusal :=
  ok s (fun _ d =>
    if d.r Reg.GLB_BOOT_STAGE = 9 ∧ d.paired ∧ !d.b Reg.PAIR_STAT_HOLDER ∧ !d.b Reg.PAIR_STAT_PEER_HOLD ∧ !d.preferred then
      d.coldClaim else d)

/-! ### READY (R502) -/

/-- Counts in `ns` nanoseconds of C. -/
def countsOf (ns : Nat) : Nat := ns * 4 / 5

/-- What makes a standby READY. -/
def Dev.readyNow (d : Dev) : Bool :=
  d.r Reg.PAIR_STAT_STATE == 3 && d.b Reg.PAIR_SELFTEST_PASS && d.brdStateCode != 4 &&
    (match d.pair.diffC with
      | some c => decide (c + countsOf 10000000000 ≤ d.time.c)
      | none => true) &&
    d.r Reg.PAIR_STAT_TACK_UP != 0 && d.pair.shadow.isSome && decide (d.time.c ≤ d.pair.shadowC + countsOf (2 * d.te)) &&
    (match d.pair.verified, d.pair.peer with
      | some s, some h => decide (h.lastEpoch ≤ s.epoch + 4 * d.r Reg.PAIR_CFG_SNAP_PERIOD)
      | _, _ => false) &&
    d.locked

/-- READY follows its conditions; REVERT_PEND falls with it (R502, R508). -/
def Dev.showReady (d : Dev) : Dev :=
  let on := d.readyNow
  let since : Option Nat := if on then some (d.pair.readyC.getD d.time.c) else none
  let d := { d.wb Reg.PAIR_STAT_READY on with pair := { d.pair with readyC := since } }
  if d.r Reg.PAIR_STAT_STATE == 3 && !on then d.w Reg.PAIR_STAT_REVERT_PEND 0 else d

/-! ### Claims and falls of REIN (R490 … R493, R503, R504) -/

/-- R_E = ceil(66 µs / T_E) (R504). -/
def Dev.rebaseEpochs (d : Dev) : Nat := cdiv 66000 d.te

/-- An incomplete snapshot is discarded (R498). -/
def Dev.dropPartial (d : Dev) : Dev :=
  if d.pair.rx.isSome then ({ d with pair := { d.pair with rx := none } }).inc Reg.PAIR_SNAP_BAD_CNT else d

/-- REIN_CLAIM by a READY standby (R503, R504): the takeover begins in epoch D. -/
def Dev.takeOver (d : Dev) : Dev :=
  let d := (d.reach (d.time.c + 800)).dropPartial
  let now := d.r Reg.EPK_NOW
  let l := (d.pair.peer.map (·.lastEpoch)).getD now
  let s := (d.pair.verified.map (·.epoch)).getD now
  let re := now + d.rebaseEpochs
  let sh := d.pair.shadow.getD { epoch := l }
  let d := { d with
    pair := { d.pair with
      takeover := some { d := now, l := l, s := s, rebase := re, first := re + 1 }, readyC := none,
      seq := (d.pair.verified.map Snapshot.seq).getD d.pair.seq },
    ep := { d.ep with lastCommitted := l, heldRun := some (s + 1, 1) },
    brd := { d.brd with carry := Nat.land sh.safe (d.r Reg.BRD_OUT_RB), carrySto := sh.sto },
    tlb := { d.tlb with joinDue := true } }
  let d := (((d.w Reg.PAIR_STAT_READY 0).w Reg.PAIR_STAT_REVERT_PEND 0).w Reg.PAIR_SELFTEST_RUNNING 0).inc
    Reg.PAIR_TAKEOVER_CNT
  let d := d.each ((List.range 4).filter (fun p => d.b (Reg.CRD_PORT_CFG_PAIRED p))) (fun p d =>
    (d.w (Reg.CRD_PORT_STAT_STATE p) 2).setRp p { d.rp p with runEpoch := some (re + 2), closeOut := none, phase := 0 })
  d.reinClaim.pairEnter 4

/-- REIN_PEER falls (R503): a READY standby takes over, one that is not READY sets NOT_READY_DROP. -/
def Dev.peerFall (d : Dev) : Dev :=
  let d := d.w Reg.PAIR_STAT_PEER_HOLD 0
  if !d.paired ∨ d.r Reg.PAIR_STAT_STATE ≠ 3 then d
  else
    let d := d.showReady
    if d.b Reg.PAIR_STAT_READY then d.takeOver else d.dropPartial.flag Reg.PAIR_STAT_NOT_READY_DROP

/-- Meaning of REIN_PEER_FALL. -/
def execReinPeerFall (s : State) : Host.Outcome State Fault Refusal := ok s (fun _ d => d.peerFall)

/-- REIN_PEER rises (R490, R493): a secondary within 1 µs of its own assertion gives way; a gap hold ends; a module that has
handed over, or starts, becomes the standby. -/
def Dev.peerRise (d : Dev) : Dev :=
  let d := d.w Reg.PAIR_STAT_PEER_HOLD 1
  let d := if d.pair.gapHold then d.setDriving false else d
  let st := d.r Reg.PAIR_STAT_STATE
  if !d.paired then d
  else if d.b Reg.PAIR_STAT_HOLDER then
    (if d.b Reg.PAIR_STAT_ROLE && decide (d.time.c ≤ d.pair.reinC + 800) then (d.reinFall 6).becomeStandby else d)
  else if st = 5 ∨ (st = 1 ∧ d.r Reg.GLB_BOOT_STAGE = 9) then d.becomeStandby
  else d

/-- Meaning of REIN_PEER_RISE. -/
def execReinPeerRise (s : State) : Host.Outcome State Fault Refusal := ok s (fun _ d => d.peerRise)

/-- REIN_WATCHDOG (R492, cause 1): REIN_WD boundaries without a commit token; a handover and a takeover send none. -/
def Dev.reinWatchdog (d : Dev) : Dev :=
  let st := d.r Reg.PAIR_STAT_STATE
  if !d.b Reg.PAIR_STAT_HOLDER ∨ !d.ep.committedOnce ∨ st = 4 ∨ st = 5 then d
  else (d.reach (d.fio.tokenC + countsOf (d.r Reg.PAIR_CFG_REIN_WD * d.te))).reinFall 1

/-- Meaning of REIN_WATCHDOG. -/
def execReinWatchdog (s : State) : Host.Outcome State Fault Refusal := ok s (fun _ d => d.reinWatchdog)

/-- FARRIER_FAULT (R492, cause 2; R569): the module resets; a standby or a module that still starts holds no REIN, and only
one that works alone resets then. -/
def Dev.farrierFault (d : Dev) : Dev :=
  if d.b Reg.PAIR_STAT_HOLDER then d.reinFall 2 else if d.paired then d else d.moduleReset 0 false

/-- Meaning of FARRIER_FAULT. -/
def execFarrierFault (s : State) : Host.Outcome State Fault Refusal := ok s (fun _ d => d.farrierFault)

/-- FIELD_DIE_DRIVE_START (R491): 2 µs after the assertion of REIN_HOLD the field dies drive. -/
def Dev.driveStart (d : Dev) : Dev :=
  if d.b Reg.PAIR_STAT_HOLDER && !d.pair.driving then (d.reach (d.pair.reinC + 1600)).setDriving true else d

/-- Meaning of FIELD_DIE_DRIVE_START. -/
def execFieldDieDriveStart (s : State) : Host.Outcome State Fault Refusal := ok s (fun _ d => d.driveStart)

/-! ### The tack link (R494 … R498) -/

/-- A tack record with a wrong CRC is discarded and counted (R494). -/
def Dev.tackTake (d : Dev) (crcOk : Bool) (f : Dev → Dev) : Dev :=
  if !d.paired then d else if crcOk then f d else d.inc Reg.PAIR_TACK_CRC_CNT

/-- The standby compares its zone-demand word with the active's, once per safety cycle (R501). -/
def Dev.compareDemand (d : Dev) (h : Health) : Dev :=
  let cycle := d.r Reg.BRD_TICK / 4
  if d.r Reg.PAIR_STAT_STATE ≠ 3 ∨ h.state ≠ 2 ∨ d.pair.diffCycle = some cycle then d
  else
    let diff := h.demand != d.r Reg.BRD_ZONE_DEM
    let run := if diff then d.pair.diffRun + 1 else 0
    let d := { d with pair := { d.pair with diffCycle := some cycle, diffRun := run } }
    if run < 2 then d
    else
      let d := { d with pair := { d.pair with diffC := some d.time.c, rotBad := true } }
      (((d.flag Reg.PAIR_STAT_SHADOW_DIFF).w Reg.PAIR_SELFTEST_PASS 0).w Reg.PAIR_SELFTEST_CODE Config.demandTestCode).inc
        Reg.PAIR_SELFTEST_FAIL_CNT

/-- The active learns of its partner: REVERT_PEND falls when the preferred partner is no longer READY, and a handover is
confirmed by the snapshot of its epoch (R508, R509). -/
def Dev.partnerHealth (d : Dev) (h : Health) : Dev :=
  let since := if h.ready then some (d.pair.peerReadyC.getD d.time.c) else none
  let d := { d with pair := { d.pair with
    peerReadyC := since, confirmed := d.pair.confirmed || d.pair.handover == some h.snapEpoch } }
  if d.r Reg.PAIR_STAT_STATE ≠ 3 ∧ !h.ready then d.w Reg.PAIR_STAT_REVERT_PEND 0 else d

/-- HEALTH_RECORD_RECEIVE (R495): the first word of the record as sent, and its content. -/
def Dev.healthReceive (d : Dev) (w0 : Nat) (h : Health) : Dev :=
  let d := { d.w Reg.PAIR_PEER_HEALTH w0 with pair := { d.pair with peer := some h, peerC := d.time.c } }
  ((d.compareDemand h).partnerHealth h).showReady

/-- Meaning of HEALTH_RECORD_RECEIVE. -/
def execHealthRecordReceive (crcOk : Bool) (w0 : Word) (h : Health) (s : State) : Host.Outcome State Fault Refusal :=
  ok s (fun _ d => d.tackTake crcOk (fun d => d.healthReceive w0.toNat h))

/-- Meaning of TACK_LOST (R495): four T_E without a valid health record; no role changes. -/
def execTackLost (s : State) : Host.Outcome State Fault Refusal :=
  ok s (fun _ d =>
    if d.paired then (d.reach (d.pair.peerC + countsOf (4 * d.te))).flag Reg.PAIR_STAT_TACK_LOST else d)

/-- Meaning of TACK_LANE_CHANGE (R494). -/
def execTackLaneChange (lane : Fin 2) (up : Bool) (s : State) : Host.Outcome State Fault Refusal :=
  ok s (fun _ d => (d.w Reg.PAIR_STAT_TACK_UP (setBit (d.r Reg.PAIR_STAT_TACK_UP) lane.val up)).showReady)

/-- Meaning of OUTPUT_SHADOW_RECEIVE (R496). -/
def execOutputShadowReceive (crcOk : Bool) (sh : Shadow) (s : State) : Host.Outcome State Fault Refusal :=
  ok s (fun _ d => d.tackTake crcOk (fun d =>
    if d.r Reg.PAIR_STAT_STATE = 3 then (d.loadShadow sh).showReady else d))

/-- SNAPSHOT_VERIFY (R498): at the last chunk. -/
def Dev.verifySnapshot (d : Dev) (s : Snapshot) (got : List Nat) : Dev :=
  let d := { d with pair := { d.pair with rx := none } }
  let newer := match d.pair.verified with
    | some v => decide (v.seq < s.seq)
    | none => true
  if (List.range s.chunks).all got.contains && newer && s.compat == d.regWord 0xE0_0028 then
    ({ d with pair := { d.pair with verified := some s } }).w Reg.PAIR_SNAP_RX s.epoch
  else d.inc Reg.PAIR_SNAP_BAD_CNT

/-- SNAPSHOT_CHUNK_RECEIVE (R498): chunk `index` of snapshot `x`. -/
def Dev.chunkReceive (d : Dev) (index : Nat) (x : Snapshot) : Dev :=
  if d.r Reg.PAIR_STAT_STATE ≠ 3 then d
  else
    let d := match d.pair.rx with
      | some (y, _) => if y.seq = x.seq then d else d.dropPartial
      | none => d
    let got := index :: ((d.pair.rx.map (·.2)).getD [])
    if index + 1 = x.chunks then (d.verifySnapshot x got).showReady
    else { d with pair := { d.pair with rx := some (x, got) } }

/-- Meaning of SNAPSHOT_CHUNK_RECEIVE. -/
def execSnapshotChunkReceive (crcOk : Bool) (index : Fin 160) (x : Snapshot) (s : State) :
    Host.Outcome State Fault Refusal :=
  ok s (fun _ d => d.tackTake crcOk (fun d => d.chunkReceive index.val x))

/-- SNAPSHOT_SEND_DONE (R497, R499): the last chunk has left. -/
def Dev.sendDone (d : Dev) : Dev :=
  match d.pair.sending with
  | none => d
  | some (s, c) =>
    let lanes := popcount 2 (d.r Reg.PAIR_STAT_TACK_UP)
    let ns := s.sendNs lanes
    let d := d.reach (c + countsOf ns)
    let d := { d with pair := { d.pair with sending := none } }
    (d.w Reg.PAIR_SNAP_TX s.epoch).w Reg.PAIR_SNAP_NS ns

/-- Meaning of SNAPSHOT_SEND_DONE. -/
def execSnapshotSendDone (s : State) : Host.Outcome State Fault Refusal := ok s (fun _ d => d.sendDone)

/-- Meaning of SNAPSHOT_RESTORE_DONE (R504). -/
def execSnapshotRestoreDone (s : State) : Host.Outcome State Fault Refusal := ok s (fun g d => d.restore g)

/-- STANDBY_SELFTEST (R501): a test ends; `last` says that it completes the rotation. -/
def Dev.standbySelftest (d : Dev) (code : Nat) (pass last : Bool) : Dev :=
  if d.r Reg.PAIR_STAT_STATE ≠ 3 then d
  else
    let d := if pass then d
      else (((({ d with pair := { d.pair with rotBad := true } }).w Reg.PAIR_SELFTEST_PASS 0).w
        Reg.PAIR_SELFTEST_CODE code).inc Reg.PAIR_SELFTEST_FAIL_CNT)
    let d := if last then
        (let good := !d.pair.rotBad && d.brdStateCode != 4
         let d := { d with pair := { d.pair with rotBad := false } }
         if good then d.w Reg.PAIR_SELFTEST_PASS 1 else d)
      else d
    d.showReady

/-- Meaning of STANDBY_SELFTEST. -/
def execStandbySelftest (code : BitVec 8) (pass last : Bool) (s : State) : Host.Outcome State Fault Refusal :=
  ok s (fun _ d => d.standbySelftest code.toNat pass last)

/-- Meaning of TACK_JOIN_RECORD (R560): the partner's record, and whether its signature verifies. -/
def execTackJoinRecord (rec : JoinRec) (sigOk : Bool) (s : State) : Host.Outcome State Fault Refusal :=
  ok s (fun _ d =>
    if !d.paired ∨ (sigOk ∧ (rec.fprint = d.sec.ownFp.1 ∨ rec.fprint = d.sec.ownFp.2)) then d
    else ({ d with sec := { d.sec with partnerFp := rec.fprint } }).flag Reg.SEC_STAT_PARTNER_REPLACED)

/-! ### Revert and planned handover (R508 … R510) -/

/-- REVERT_DWELL_EXPIRE (R508): the preferred module has been READY for REVERT_DWELL seconds; the standby and the active both
see it. -/
def Dev.revertDwell (d : Dev) : Dev :=
  let dwell := countsOf (1000000000 * d.r Reg.PAIR_TIMES_REVERT_DWELL)
  let since := if d.r Reg.PAIR_STAT_STATE = 3 then (if d.preferred then d.pair.readyC else none)
    else if d.r Reg.PAIR_STAT_STATE = 2 then (if d.preferred then none else d.pair.peerReadyC)
    else none
  match since with
  | some c =>
    if d.b Reg.PAIR_CFG_AUTO_REVERT && !d.pair.inhibit && d.paired && decide (c + dwell ≤ d.time.c) then
      d.flag Reg.PAIR_STAT_REVERT_PEND
    else d
  | none => d

/-- Meaning of REVERT_DWELL_EXPIRE. -/
def execRevertDwellExpire (s : State) : Host.Outcome State Fault Refusal := ok s (fun _ d => d.revertDwell)

/-- A quiet point (R508): after the commit of an epoch. -/
def Dev.quietPoint (d : Dev) : Bool :=
  !d.b Reg.PAIR_CFG_QUIET_EN || bitOf (d.signal (d.r Reg.PAIR_QUIET_QUIET_SIG)) (d.r Reg.PAIR_QUIET_QUIET_BIT)

/-- HANDOVER_START (R509): at the commit of epoch `n` the active stops committing and sends a snapshot of it at once. -/
def Dev.handoverStart (d : Dev) (n : Nat) : Dev :=
  let wish := d.pair.switchReq == some 1 ||
    ((d.pair.switchReq == some 0 || d.b Reg.PAIR_STAT_REVERT_PEND) && d.quietPoint)
  let ready := (d.pair.peer.map (·.ready)).getD false
  if d.r Reg.PAIR_STAT_STATE = 2 ∧ wish ∧ ready then
    let d := { d with pair := { d.pair with handover := some n, confirmed := false, switchReq := none } }
    (d.sendSnapshot n).pairEnter 5
  else d

/-- HANDOVER_RELEASE (R509): at the first boundary after the standby has verified the snapshot, REIN falls with cause 4. -/
def Dev.handoverRelease (d : Dev) : Dev :=
  if d.r Reg.PAIR_STAT_STATE = 5 ∧ d.pair.confirmed ∧ d.b Reg.PAIR_STAT_HOLDER then
    let d := (d.reinFall 4).inc Reg.PAIR_REVERT_CNT
    if d.brdStateCode = 3 then d.brdEnter 2 else d
  else d

/-- HANDOVER_ABANDON (R509): no confirmation within 2 × SNAP_PERIOD epochs; the active commits again from the present
epoch. -/
def Dev.handoverAbandon (d : Dev) : Dev :=
  match d.pair.handover with
  | some l =>
    if d.r Reg.PAIR_STAT_STATE = 5 ∧ !d.pair.confirmed ∧ l + 2 * d.r Reg.PAIR_CFG_SNAP_PERIOD ≤ d.r Reg.EPK_NOW then
      let d := { d with
        pair := { d.pair with handover := none }, ep := { d.ep with heldRun := some (l + 1, 1) } }
      d.pairEnter 2
    else d
  | none => d

/-- Meaning of HANDOVER_ABANDON. -/
def execHandoverAbandon (s : State) : Host.Outcome State Fault Refusal := ok s (fun _ d => d.handoverAbandon)

/-! ### At a commit point -/

/-- What the module sends over the tack link at the commit point of epoch `n`, and the handover that may begin there (R495 …
R497, R508). -/
def Dev.pairCommit (d : Dev) (g : Grade) (n : Nat) : Dev :=
  if !d.paired then d
  else
    let d := { d with pair := { d.pair with shadowOut := some (d.outputShadow g n) } }
    let d := (d.snapshotDue n).handoverStart n
    { d with pair := { d.pair with healthOut := some d.healthRecord } }

/-- A boundary at which the module commits nothing: its health record leaves all the same (R495), and a standby takes what its
subscriptions have received (R500). -/
def Dev.pairIdle (d : Dev) (n : Nat) : Dev :=
  let k := d.r Reg.EPK_CFG_K
  let subs := d.ep.subs.map (fun u => u.commit k n)
  let vals := (d.ep.subs.zip subs).foldl (fun m x => match x.2.2 with
    | some ws => Mem.putWords m (4 * x.1.base) ((ws.take x.1.count).map BitVec.toNat)
    | none => m) d.ep.newest.vals
  let d := if d.r Reg.PAIR_STAT_STATE = 3 ∨ d.r Reg.PAIR_STAT_STATE = 4 then
      { d with ep := { d.ep with
        subs := subs.map Prod.fst, newest := { d.ep.newest with vals := vals }, intakeClosed := false } }
    else d
  if d.paired then
    (let d := d.showReady
     { d with pair := { d.pair with healthOut := some d.healthRecord } })
  else d

/-- The first epoch of a takeover has been committed (R504). -/
def Dev.takeoverDone (d : Dev) (n : Nat) : Dev :=
  match d.pair.takeover with
  | some t => (({ d with pair := { d.pair with takeover := none } }).w Reg.PAIR_LAST_GAP (n - t.l)).pairEnter 2
  | none => d

/-! ### Commands (R511, R512) -/

/-- Meaning of PAIR_INFO. -/
def execPairInfo (p : Packet) (s : State) : Host.Outcome State Fault Refusal :=
  ok s (fun g d => d.runPacket g { opcode := 0xD00, need := needN 0, replyLen := fun _ => 8 } p (fun d _ =>
    (d, .ok [d.regWord 0xD0_000C, d.regWord 0xD0_0010, loW (d.r Reg.PAIR_SNAP_RX), hiW (d.r Reg.PAIR_SNAP_RX),
      d.r Reg.PAIR_PEER_HEALTH])))

/-- PAIR_SWITCH (R512). -/
def Dev.pairSwitch (d : Dev) (mode : Nat) : Dev × Res :=
  if 1 < mode then (d, .badParam 2)
  else if d.r Reg.PAIR_STAT_STATE = 2 ∧ (d.pair.peer.map (·.ready)).getD false then
    ({ d with pair := { d.pair with switchReq := some mode } }, .ok [])
  else (d, .busy)

/-- Meaning of PAIR_SWITCH. -/
def execPairSwitch (p : Packet) (s : State) : Host.Outcome State Fault Refusal :=
  ok s (fun g d => d.runPacket g { opcode := 0xD01, priv := true, need := needN 1 } p (fun d ps => d.pairSwitch (ps.getD 0 0)))

/-- PAIR_REVERT (R512). -/
def Dev.pairRevert (d : Dev) (v : Nat) : Dev × Res :=
  match v with
  | 0 => (({ d with pair := { d.pair with inhibit := true } }).w Reg.PAIR_STAT_REVERT_PEND 0, .ok [])
  | 1 => ({ d with pair := { d.pair with inhibit := false } }, .ok [])
  | _ => (d, .badParam 2)

/-- Meaning of PAIR_REVERT. -/
def execPairRevert (p : Packet) (s : State) : Host.Outcome State Fault Refusal :=
  ok s (fun g d => d.runPacket g { opcode := 0xD02, priv := true, need := needN 1 } p (fun d ps => d.pairRevert (ps.getD 0 0)))

/-- PAIR_CLAIM (R503, R512, R577): after NOT_READY_DROP the module enters stage PAIR as at a cold start. -/
def Dev.pairClaim (d : Dev) : Dev × Res :=
  if d.b Reg.PAIR_STAT_NOT_READY_DROP && !d.b Reg.PAIR_STAT_PEER_HOLD && !d.b Reg.PAIR_STAT_HOLDER then (d.pairDecide, .ok [])
  else (d, .busy)

/-- Meaning of PAIR_CLAIM. -/
def execPairClaim (p : Packet) (s : State) : Host.Outcome State Fault Refusal :=
  ok s (fun g d => d.runPacket g { opcode := 0xD03, priv := true, need := needN 0 } p (fun d _ => d.pairClaim))

end Sys2Proof.Machine
end

