-- ==== Sys2Proof/Machine/Secure.lean ====
section
/-!
DEFINITION. Machine/Secure.lean: identity, secure boot images, lifecycle, debug and attestation (R549 … R564).
-/
namespace Sys2Proof.Machine

/-- The identity words of the grade (R2): GLB_IDENT, GLB_CAPS0 and GLB_CAPS1. -/
def identWord (g : Grade) (i : Nat) : Nat :=
  match i with
  | 0 => 0xF808 * 2 ^ 16 + 0x11 + 2 ^ 8 * (match g with
      | .fx8_128 => 0x80
      | .fx8_064 => 0x40
      | .fx8_032 => 0x20)
  | 1 => lanesOf g * 2 ^ 24 + intrudersOf g * 2 ^ 16 + armsOf g * 2 ^ 8 + axesOf g
  | _ => axesOf g * 2 ^ 24 + b2n (sageFitted g) * 2 ^ 16 + teamsOf g * 2 ^ 8 + ringsOf g

/-- SEC_FLASH_STAGE runs (R557). -/
def Dev.flashBusy (d : Dev) : Bool := decide (d.time.c < d.sec.flashEnd)

/-- SEC_ROLLBACK_COMMIT runs. -/
def Dev.rollBusy (d : Dev) : Bool := decide (d.time.c < d.sec.rollEnd)

/-- The word of SEC_STAT. -/
def Dev.secStatWord (d : Dev) : Nat := setBit (d.regWord 0xE0_0000) 7 d.flashBusy

/-- Sixteen words of a register array. -/
def Dev.list16 (d : Dev) (f : Nat → Field) : List Nat := (List.range 16).map (fun i => d.r (f i))

/-- Meaning of SEC_INFO. -/
def execSecInfo (p : Packet) (s : State) : Host.Outcome State Fault Refusal :=
  ok s (fun g d => d.runPacket g { opcode := 0xE00, need := needN 0, replyLen := fun _ => 23, always := true } p (fun d _ =>
    (d, .ok ([d.secStatWord, d.regWord 0xE0_0004, d.regWord 0xE0_0014, d.regWord 0xE0_0018] ++ d.list16 Reg.SEC_FPRINT))))

/-! ### Attestation (R561, R562) -/

/-- Peers that are REPLACED, rising (R365). -/
def Dev.replacedPeers (d : Dev) : List Nat := (d.tlb.peers.map (·.1)).filter (fun i => d.b (Reg.TLB_PEER_REPLACED i))

/-- The words of a report that its signature covers, bytes 0x000 … 0x17B (R561). -/
def Dev.reportBody (d : Dev) (g : Grade) (nonce : Nat) : List Nat :=
  let repl := d.replacedPeers
  let idx (i : Nat) : Nat := repl.getD i 0xFFFF
  [0x4154_5431, 512 + 2 ^ 16, loW nonce, hiW nonce] ++ d.list16 Reg.SEC_FPRINT ++
    [identWord g 0, identWord g 1, identWord g 2, d.secStatWord] ++
    [d.r Reg.SEC_FW_VER, d.r Reg.SEC_CFG_VER, d.r Reg.SEC_SPS_VER, d.r Reg.BRD_SPS_ID] ++
    [d.r Reg.BRD_SPS_CRC, d.regWord 0xE0_0014, d.regWord 0xE0_0018, d.r Reg.SEC_BOOT_CNT] ++
    (if d.b Reg.SEC_STAT_FW_NONE then List.replicate 16 0 else d.list16 Reg.SEC_FW_HASH) ++ d.list16 Reg.SEC_CFG_HASH ++
    [loW d.nowNs, hiW d.nowNs, loW (d.r Reg.EPK_NOW), hiW (d.r Reg.EPK_NOW)] ++
    [d.r Reg.TB_RESTEP_CNT, d.tbStateWord, d.regWord 0xD0_000C, d.regWord Reg.BRD_STAT_STATE.addr] ++
    [repl.length, 0] ++ [0, 1, 2, 3].map (fun i => idx (2 * i) + idx (2 * i + 1) * 2 ^ 16) ++
    (List.range 16).map (fun i => bits d.sec.partnerFp (32 * i) 32) ++ [0]

/-- A report: its body and the signature (R561). -/
def Dev.report (d : Dev) (g : Grade) (nonce : Nat) : List Nat :=
  let body := d.reportBody g nonce
  body ++ (List.range 33).map (fun i => bits (Config.signature body) (32 * i) 32)

/-- SEC_ATTEST (R562): one report is signed at a time, one request waits, and a third one is refused; signing takes `ns`, at
most 30 ms. -/
def Dev.attest (d : Dev) (g : Grade) (nonce ns : Nat) : Dev × Res :=
  let live := d.sec.signEnds.filter (fun e => decide (d.time.c < e))
  if 2 ≤ live.length then (d, .busy)
  else
    let stop := live.foldl max d.time.c + countsOf (min ns 30000000)
    (({ d with sec := { d.sec with signEnds := live ++ [stop] } }).inc Reg.SEC_SIGN_CNT_REPORTS, .ok (d.report g nonce))

/-- Meaning of SEC_ATTEST. -/
def execSecAttest (p : Packet) (ns : Nat) (s : State) : Host.Outcome State Fault Refusal :=
  ok s (fun g d => d.runPacket g { opcode := 0xE01, need := needN 2, replyLen := fun _ => 131, always := true } p
    (fun d ps => d.attest g (pair64 (ps.getD 0 0) (ps.getD 1 0)) ns))

/-- Meaning of SEC_CERT_READ (R551). -/
def execSecCertRead (p : Packet) (s : State) : Host.Outcome State Fault Refusal :=
  ok s (fun g d => d.runPacket g { opcode := 0xE02, need := needN 0, replyLen := fun _ => 77, always := true } p (fun d _ =>
    (d, .ok (Mem.words d.sec.cert 0 74))))

/-! ### Flash, rollback, owners (R556 … R558, R564) -/

/-- The kind that an object's MAGIC names. -/
def kindOf (magic : Nat) : Nat := if magic = magicOf 1 then 1 else if magic = magicOf 2 then 2 else 0

/-- SEC_FLASH_STAGE (R557, R564): verify the object in shared work memory, write it into the bank that is not running and read
it back (`backOk`). It runs for `ns`. -/
def Dev.flashStage (d : Dev) (g : Grade) (off len : Nat) (v : Verdict) (backOk : Bool) (ns : Nat) : Dev × Res :=
  let w (o : Nat) : Nat := Mem.word d.hk.swm (off + o)
  if d.flashBusy ∨ d.rollBusy then (d, .busy)
  else if 0xC0_0000 ≤ off then (d, .badParam 2)
  else if len < 4 ∨ 0xC0_0000 < off + len then (d, .badParam 3)
  else
    let kind := kindOf (w 0)
    let bank := if d.sec.running.contains kind then 1 - d.bankSel kind else 0
    let room := min len (bankAt kind bank).2
    let code := d.verifyCode g kind room w { v with readErr := false }
    if code ≠ 0 then (d, .badParam code)
    else
      let d := d.flashWrite kind bank (trailerAt kind w + 272) (fun i => Mem.get d.hk.swm (off + i))
      let d := { d with sec := { d.sec with flashEnd := d.time.c + countsOf ns } }
      if backOk then (d, .ok [bank, 0]) else (d, .failed 7)

/-- Meaning of SEC_FLASH_STAGE. -/
def execSecFlashStage (p : Packet) (v : Verdict) (backOk : Bool) (ns : Nat) (s : State) : Host.Outcome State Fault Refusal :=
  ok s (fun g d => d.runPacket g { opcode := 0xE10, priv := true, need := needN 2, replyLen := fun _ => 5, always := true } p
    (fun d ps => d.flashStage g (ps.getD 0 0) (ps.getD 1 0) v backOk ns))

/-- VERSION of the running object of a kind. -/
def Dev.runningVersion (d : Dev) (kind : Nat) : Nat :=
  d.r ([Reg.SEC_FW_VER, Reg.SEC_CFG_VER, Reg.SEC_SPS_VER].getD kind Reg.SEC_SPS_VER)

/-- SEC_ROLLBACK_COMMIT (R556, R564). -/
def Dev.rollbackCommit (d : Dev) (kind ns : Nat) : Dev × Res :=
  let f := rollbackOf kind
  let svn := svnOf (d.runningVersion kind)
  if 2 < kind then (d, .badParam 2)
  else if d.flashBusy then (d, .busy)
  else if !d.sec.running.contains kind ∨ d.r f = 63 ∨ svn ≤ d.r f then (d, .failed 0)
  else (({ d with sec := { d.sec with rollEnd := d.time.c + countsOf ns } }).w f svn, .ok [svn])

/-- Meaning of SEC_ROLLBACK_COMMIT. -/
def execSecRollbackCommit (p : Packet) (ns : Nat) (s : State) : Host.Outcome State Fault Refusal :=
  ok s (fun g d => d.runPacket g { opcode := 0xE20, priv := true, need := needN 1, replyLen := fun _ => 4 } p (fun d ps =>
    d.rollbackCommit (ps.getD 0 0) ns))

/-- SEC_OWNER_REVOKE (R558). -/
def Dev.ownerRevoke (d : Dev) (slot : Nat) : Dev × Res :=
  let live := (onesOf 4 (d.r Reg.SEC_OWNER_PROGRAMMED)).filter (fun i => !bitOf (d.r Reg.SEC_OWNER_REVOKED) i)
  let signs (kind : Nat) (f : Field) : Bool := d.sec.running.contains kind && d.r f == slot
  if 3 < slot ∨ signs 1 Reg.SEC_OWNER_CFG_SLOT ∨ signs 2 Reg.SEC_OWNER_SPS_SLOT ∨ live = [slot] then (d, .badParam 2)
  else (d.w Reg.SEC_OWNER_REVOKED (setBit (d.r Reg.SEC_OWNER_REVOKED) slot true), .ok [])

/-- Meaning of SEC_OWNER_REVOKE. -/
def execSecOwnerRevoke (p : Packet) (s : State) : Host.Outcome State Fault Refusal :=
  ok s (fun g d => d.runPacket g { opcode := 0xE21, priv := true, need := needN 1 } p (fun d ps => d.ownerRevoke (ps.getD 0 0)))

/-- SEC_COMMISSION (R558, R564): the keys of the slots named, in rising order; `keys` gives the SHA-512 of each and whether it is
a valid point. -/
def Dev.commission (d : Dev) (mask : Nat) (keys : List (Nat × Bool)) : Dev × Res :=
  let slots := onesOf 4 mask
  let bad := (List.range slots.length).find? (fun i => !((keys.getD i (0, false)).2))
  if d.r Reg.SEC_STAT_LIFECYCLE ≠ 0 then (d, .busy)
  else if 15 < mask then (d, .badParam 2)
  else match bad with
    | some i => (d, .badParam (3 + 33 * i))
    | none =>
      let hashes := (slots.zip (keys.map (·.1))).foldl (fun t e => Tab.put e.1 e.2 t) d.sec.ownerHash
      let d := { d with sec := { d.sec with ownerHash := hashes } }
      ((d.w Reg.SEC_OWNER_PROGRAMMED (Nat.lor (d.r Reg.SEC_OWNER_PROGRAMMED) mask)).w Reg.SEC_STAT_LIFECYCLE 1, .ok [])

/-- The length of SEC_COMMISSION: the mask and 33 words per slot named. -/
def needCommission (ps : List Nat) : Option Nat :=
  match ps with
  | [] => some 0
  | m :: r => if r.length = 33 * popcount 4 m then none else some (3 + 33 * popcount 4 m)

/-- Meaning of SEC_COMMISSION. -/
def execSecCommission (p : Packet) (keys : List (Nat × Bool)) (s : State) : Host.Outcome State Fault Refusal :=
  ok s (fun g d => d.runPacket g { opcode := 0xE30, priv := true, need := needCommission, always := true } p (fun d ps =>
    d.commission (ps.getD 0 0) keys))

/-! ### Debug (R559, R564) -/

/-- Meaning of SEC_DEBUG_CHALLENGE. -/
def execSecDebugChallenge (p : Packet) (s : State) : Host.Outcome State Fault Refusal :=
  ok s (fun g d => d.runPacket g { opcode := 0xE31, priv := true, need := needN 0, replyLen := fun _ => 7 } p (fun d _ =>
    let n := Config.debugNonce d.sec.challenges
    ({ d with sec := { d.sec with nonce := some n, challenges := d.sec.challenges + 1 } },
      .ok ((List.range 4).map (fun i => bits n (32 * i) 32)))))

/-- SEC_DEBUG_UNLOCK: the token verifies (`tokenOk`) and every zone is demanded. -/
def Dev.debugUnlock (d : Dev) (tokenOk : Bool) : Dev × Res :=
  if d.r Reg.BRD_ZONE_DEM ≠ 0xFFFF_FFFF ∨ d.sec.nonce.isNone then (d.inc Reg.SEC_DBG_REF_CNT, .busy)
  else if !tokenOk then (d.inc Reg.SEC_DBG_REF_CNT, .badParam 0)
  else ((d.flag Reg.SEC_STAT_DEBUG_OPEN).flag Reg.SEC_STAT_DEBUG_OPENED, .ok [])

/-- Meaning of SEC_DEBUG_UNLOCK. -/
def execSecDebugUnlock (p : Packet) (tokenOk : Bool) (s : State) : Host.Outcome State Fault Refusal :=
  ok s (fun g d => d.runPacket g { opcode := 0xE32, priv := true, need := needN 33 } p (fun d _ => d.debugUnlock tokenOk))

/-- Opcodes 0xE00 … 0xE3F that name a command. -/
def secOpcodes : List Nat := [0xE00, 0xE01, 0xE02, 0xE10, 0xE20, 0xE21, 0xE30, 0xE31, 0xE32]

/-- Meaning of SEC_UNLISTED_OPCODE: opcode 0xE00 + `op` (R563). -/
def execSecUnlistedOpcode (op : Fin 64) (p : Packet) (s : State) : Host.Outcome State Fault Refusal :=
  ok s (fun g d =>
    if secOpcodes.contains (0xE00 + op.val) then d
    else d.runPacket g { opcode := 0xE00 + op.val, need := fun _ => none } p (fun d _ => (d, .badParam 0)))

end Sys2Proof.Machine
end

