-- ==== Sys2Proof/Machine/Boot.lean ====
section
/-!
DEFINITION. Machine/Boot.lean: reset sources and scopes, the boot stages, the first committed epoch, and the reset commands
(R565 … R580, R590, R594, R596).
-/
namespace Sys2Proof.Machine

/-! ### Reset with power-on scope (R565 … R569) -/

/-- A field that a reset with power-on scope leaves (R569): what fuses hold, and but for a power-on the reset counts and
DEBUG_OPENED. -/
def keptFuse (powerOn : Bool) (key : Nat) : Bool :=
  let a := key / 32
  a == Reg.TB_CLOCK_ID.addr || a == 0xE0_0014 || (a == 0xE0_0018 && decide (key % 32 < 8)) || a == 0xE0_001C ||
    (decide (0xE0_0040 ≤ a) && decide (a < 0xE0_0080)) || key == Reg.SEC_STAT_LIFECYCLE.key ||
    (!powerOn && (a == 0x40 || key == Reg.SEC_STAT_DEBUG_OPENED.key))

/-- A reset with power-on scope, of source 0 power-on, 1 brownout, 2 nRST (R569): fuses, certificate and flash are kept, pins and
the nodes of the rings are outside, and everything else is as `State.reset` has it. A module that held REIN lets it fall with
cause 5 (R492). -/
def Dev.fullReset (d : Dev) (source : Nat) : Dev :=
  let d0 : Dev := {
    regs := d.regs.filter (fun e => keptFuse (source == 0) e.1),
    host := { perst := d.host.perst }, fio := { raw := d.fio.raw },
    team := { gtrip := d.team.gtrip,
              teams := (d.team.teams.filter (fun e => e.2.pin)).map (fun e => (e.1, { pin := true })) },
    crd := { nodes := d.crd.nodes },
    sec := { flash := d.sec.flash, rootHash := d.sec.rootHash, rootRevoked := d.sec.rootRevoked,
             ownerHash := d.sec.ownerHash, cert := d.sec.cert, challenges := d.sec.challenges } }
  let d0 := ((d0.wb Reg.GLB_RST_CAUSE_POR (source == 0)).wb Reg.GLB_RST_CAUSE_BROWNOUT (source == 1)).wb Reg.GLB_RST_CAUSE_NRST
    (source == 2)
  let d0 := d0.w Reg.PAIR_LAST_CAUSE (if d.b Reg.PAIR_STAT_HOLDER then 5 else 0)
  (if source = 2 then d0.inc Reg.GLB_RST_CNT_NRST else d0).wb Reg.PAIR_STAT_PEER_HOLD (d.b Reg.PAIR_STAT_PEER_HOLD)

/-- Meaning of POWER_ON_RESET. -/
def execPowerOnReset (s : State) : Host.Outcome State Fault Refusal := ok s (fun _ d => d.fullReset 0)

/-- Meaning of BROWNOUT (R568). nRST keeps its level; when it is high the boot begins anew. -/
def execBrownout (s : State) : Host.Outcome State Fault Refusal :=
  ok s (fun _ d =>
    let e := d.fullReset 1
    if d.boot.nrstLow then e
    else (({ e with boot := { nrstLow := false } }.wb Reg.PAIR_STAT_ROLE (d.b Reg.PAIR_STAT_ROLE)).w Reg.BRD_STAT_STATE 1).pins)

/-- Meaning of NRST_ASSERT. -/
def execNrstAssert (s : State) : Host.Outcome State Fault Refusal := ok s (fun _ d => d.fullReset 2)

/-- Meaning of NRST_RELEASE (R489, R566): PAIR_ROLE is sampled, Bridle begins its self-test (R431) and boot stage PLL runs. -/
def execNrstRelease (secondary : Bool) (s : State) : Host.Outcome State Fault Refusal :=
  ok s (fun _ d =>
    if !d.boot.nrstLow then d
    else (({ d with boot := { d.boot with nrstLow := false } }.wb Reg.PAIR_STAT_ROLE secondary).w Reg.BRD_STAT_STATE 1).pins)

/-- Meaning of MODULE_RESET (R569, R570, R580): the reset that DEV_RESET has asked for. The resets that follow a fall of REIN or a
fault of Farrier are part of those events. -/
def execModuleReset (s : State) : Host.Outcome State Fault Refusal :=
  ok s (fun _ d => match d.boot.resetAt with
    | some c => (d.reach c).moduleReset 0 true
    | none => d)

/-! ### Boot stages (R572 … R578) -/

/-- Milliseconds of C (R82): since nRST release, unless a module reset has kept C. -/
def Dev.bootMs (d : Dev) : Nat := satU 16 (d.time.c / 800000)

/-- BOOT_FAIL (R575): Farrier stops in the stage at hand. -/
def Dev.bootFail (d : Dev) (code : Nat) : Dev :=
  ((d.w Reg.GLB_BOOT_FAIL_STAGE (d.r Reg.GLB_BOOT_STAGE)).w Reg.GLB_BOOT_FAIL_CODE code).pins

/-- The next boot stage. -/
def Dev.nextStage (d : Dev) : Dev := d.w Reg.GLB_BOOT_STAGE (d.r Reg.GLB_BOOT_STAGE + 1)

/-- Load a register word from the configuration image, fields that no write reaches among them. Only a safety parameter set
gives an output to Bridle (R474). -/
def Dev.loadReg (d : Dev) (a v : Nat) : Dev :=
  match regAt a with
  | some (_, fs, hi) => d.each fs (fun f d =>
      if v % 4 = 2 ∧ (List.range 32).any (fun o => decide (f = Reg.FIO_OUT_CFG_OWNER o)) then d
      else if f.width = 64 then (if hi then d.w f (pair64 (d.r f) v) else d.w f (pair64 v (hiW (d.r f))))
      else d.w f (bits v f.lo f.width))
  | none => d

/-- The sixteen words of a hash, in byte order. -/
def Dev.putHash (d : Dev) (f : Nat → Field) (h : Nat) : Dev := d.each (List.range 16) (fun i d => d.w (f i) (bits h (32 * i) 32))

/-- The verdict on a bank. -/
def StageEnd.verdict (x : StageEnd) (b : Nat) : Verdict := if b = 0 then x.v0 else x.v1

/-- The key slot that signed the object of a bank. -/
def Dev.bankSlot (d : Dev) (kind b : Nat) : Nat := d.bankWord kind b (trailerAt kind (d.bankWord kind b)) % 4

/-- Stage FW (R555, R573): without a bank that verifies Farrier runs its ROM firmware. The boot is counted. -/
def Dev.bootFw (d : Dev) (g : Grade) (x : StageEnd) : Dev :=
  let (d, sel, _) := (d.inc Reg.SEC_BOOT_CNT).selectBank g 0 x.v0 x.v1
  let d := match sel with
    | some b => ((d.w Reg.SEC_STAT_FW_NONE 0).w Reg.SEC_FW_VER (d.bankWord 0 b 8)).putHash Reg.SEC_FW_HASH (x.verdict b).sha
    | none => ((d.w Reg.SEC_STAT_FW_NONE 1).w Reg.SEC_FW_VER 0).putHash Reg.SEC_FW_HASH 0
  d.nextStage

/-- What the registers and lists of a configuration image set in stage CFG (R572, R578). -/
def Dev.applyCfg (d : Dev) (x : ConfigImage) : Dev :=
  let d := d.each x.regs (fun e d => d.loadReg e.1 e.2)
  { d with
    ep := { d.ep with pubs := x.pubs, subs := x.subs, margin := d.r Reg.EPK_DEADLINE_MARGIN_NS },
    tlb := { d.tlb with slots := x.slots, sched := x.sched, commanders := x.commanders, peers := x.peers },
    pair := { d.pair with regions := x.regions }, sec := { d.sec with ownFp := x.ownFp },
    boot := { d.boot with cfg := some x, servo := true } }

/-- The module's own FPRINT. -/
def Dev.fprint (d : Dev) : Nat := (List.range 16).foldl (fun n i => n + d.r (Reg.SEC_FPRINT i) * 2 ^ (32 * i)) 0

/-- Stage CFG (R555, R560, R572, R573): without a bank that verifies the module stops here. -/
def Dev.bootCfg (d : Dev) (g : Grade) (x : StageEnd) : Dev :=
  match d.selectBank g 1 x.v0 x.v1 with
  | (d, none, code) => d.bootFail code
  | (d, some b, _) =>
    let d := (d.applyCfg x.cfg).putHash Reg.SEC_CFG_HASH (x.verdict b).sha
    let compat := d.bankWord 1 b 16
    let d := ((d.w Reg.SEC_CFG_VER (d.bankWord 1 b 8)).w Reg.SEC_COMPAT_CFG_COMPAT (bits compat 0 16)).w Reg.SEC_COMPAT_SNAP_FMT
      (bits compat 16 16)
    let d := d.w Reg.SEC_OWNER_CFG_SLOT (d.bankSlot 1 b)
    let d := d.wb Reg.SEC_STAT_SELF_REPLACED (d.fprint != x.cfg.ownFp.1 && d.fprint != x.cfg.ownFp.2)
    let d := if d.paired then d else d.pairEnter 0
    ((d.w Reg.GLB_BOOT_MS_CFG d.bootMs).tlbEnter 1).nextStage

/-- Stage SPS (R572, R576): the set of the selected bank goes to Bridle, which has left SELFTEST; in SAFE nothing takes it. -/
def Dev.bootSps (d : Dev) (g : Grade) (x : StageEnd) : Dev :=
  match d.selectBank g 2 x.v0 x.v1 with
  | (d, none, _) => (d.w Reg.GLB_BOOT_SPS_NONE 1).nextStage
  | (d, some b, _) =>
    let w := d.bankWord 2 b
    let d := (d.w Reg.SEC_SPS_VER (w 8)).w Reg.SEC_OWNER_SPS_SLOT (d.bankSlot 2 b)
    let set : SpsSet := { id := w 4, crc := w (16 + w 12), ver := w 8, recs := x.recs }
    (if d.brdStateCode = 4 then d else (d.spsActivate g set).brdRole).nextStage

/-- Bank 1 of every axis holds a copy of bank 0 (R134). -/
def copyBanks (m : Mem) : Mem :=
  let inBank (b : Nat) (c : Host.Cell) : Bool :=
    decide (0x28_0000 ≤ c.1) && decide (c.1 < 0x30_0000) && c.1 % 0x1000 / 0x400 == b
  let keep := m.filter (fun c => !inBank 1 c)
  (m.filter (inBank 0)).foldl (fun m c => Mem.set m (c.1 + 0x400) c.2) keep

/-- Indices of records that are `size` bytes long, of which word 0 at `base` has bit 31 set. -/
def Dev.enabledRecs (d : Dev) (base size n : Nat) : List Nat := (List.range n).filter (fun i => bitOf (d.mw (base + size * i)) 31)

/-- The instruction and data memories of the cores (R369). -/
def Dev.loadCores (d : Dev) (x : ConfigImage) : Dev :=
  { d with hk := { d.hk with cores := (List.range 16).foldl (fun (t : Tab HkCore) c =>
      let im := Tab.look [] c x.imem
      let dm := Tab.look [] c x.dmem
      if im.isEmpty && dm.isEmpty then t
      else Tab.put c { Tab.look ({} : HkCore) c t with imem := im, dmem := dm } t) d.hk.cores } }

/-- The record memories: loop banks, slot tables, calendar, parameter records, descriptors. -/
def Dev.loadMemories (d : Dev) (x : ConfigImage) : Dev :=
  let d := { d with mem := copyBanks (x.mem.foldl (fun m (e : Nat × Nat) => Mem.putWord m e.1 e.2) d.mem) }
  { d with
    cal := { d.cal with pub := x.calPub, enabled := d.enabledRecs 0x32_0000 0x20 4096,
                        coords := (List.range 8).foldl (fun (t : Tab Coord) n =>
                          Tab.put n { Tab.look ({} : Coord) n t with scale := sx 64 (d.r (Reg.COORD_SCALE n)) } t) d.cal.coords },
    loop := { d.loop with pubAxes := x.pubAxes },
    ost := { d.ost with ioMax := x.ioMax, enabled := d.enabledRecs (descAddr 0 0) 0x20 4096,
                        budget := d.r Reg.GIRTH_BUDGET_BUDGET_MW } }

/-- What the image expects of the nodes of each ring (R331). -/
def Dev.loadExpect (d : Dev) (x : ConfigImage) : Dev :=
  d.each (x.expect.filter (fun e => decide (e.1 < 4))) (fun e d => d.setRp e.1 { d.rp e.1 with expect := e.2 })

/-- Stage LOAD (R572, R590): the memories are loaded and the PHYs released. -/
def Dev.bootLoad (d : Dev) : Dev :=
  let x := d.boot.cfg.getD {}
  let d := (((d.loadCores x).loadMemories x).loadExpect x).countEnabled.showFloor
  { d with boot := { d.boot with phyUp := true } }.nextStage

/-- BOOT_STAGE_END (R572): the stage in progress ends at count `x.c`. -/
def Dev.stageEnd (d : Dev) (g : Grade) (x : StageEnd) : Dev :=
  let d := d.reach x.c
  match d.r Reg.GLB_BOOT_STAGE with
  | 1 => ((d.w Reg.GLB_SUPPLY_RAILS x.rails).wb Reg.GLB_SUPPLY_VFIELD_TP x.vfieldTp).nextStage
  | 2 => d.nextStage
  | 3 => if x.sfdpOk then d.nextStage else d.bootFail 10
  | 4 => d.bootFw g x
  | 5 => d.bootCfg g x
  | 6 => if d.brd.tested then d.bootSps g x else d
  | 7 => d.bootLoad
  | _ => d

/-- Meaning of BOOT_STAGE_END. -/
def execBootStageEnd (x : StageEnd) (s : State) : Host.Outcome State Fault Refusal :=
  ok s (fun g d => if d.boot.nrstLow ∨ d.r Reg.GLB_BOOT_FAIL_STAGE ≠ 0 then d else d.stageEnd g x)

/-- LOCK_WAIT_END (R19, R570, R577): with locked domain time, no step outstanding and D ≥ T0 the module decides its role. -/
def Dev.lockWaitEnd (d : Dev) : Dev :=
  if d.r Reg.GLB_BOOT_STAGE = 8 ∧ d.r Reg.GLB_BOOT_FAIL_STAGE = 0 ∧ d.locked ∧ d.time.pendStep = none ∧
      d.r Reg.EPK_ORIGIN ≤ d.nowNs then d.pairDecide
  else d

/-- Meaning of LOCK_WAIT_END. -/
def execLockWaitEnd (s : State) : Host.Outcome State Fault Refusal := ok s (fun _ d => d.lockWaitEnd)

/-- The run bits of the configuration image, TLB_START and the auto-start ports (R576). -/
def Dev.autoStart (d : Dev) (g : Grade) : Dev :=
  let x := d.boot.cfg.getD {}
  let bit (i : Nat) : Bool := x.runs.getD i false
  let d := (((d.wb Reg.LOOP_CTRL_RUN (bit 0)).wb Reg.PRF_CTRL_RUN (bit 1)).wb Reg.CAL_CTRL_RUN (bit 2)).wb Reg.OST_CTRL_RUN (bit 3)
  let d := if sageFitted g then d.wb Reg.SAGE_CTRL_RUN (bit 4) else d
  let d := if x.tlbStart && d.r Reg.TLB_STAT_STATE == 0 then d.tlbEnter 1 else d
  d.each ((List.range (ringsOf g)).filter (fun p => x.rings.contains p && d.r (Reg.CRD_PORT_STAT_STATE p) == 0))
    (fun p d => d.startPort p)

/-- The first committed epoch since the reset (R573, R576): its time, the auto-start of a cold start, and the background
verification. -/
def Dev.firstCommit (d : Dev) (g : Grade) : Dev :=
  let d := if d.r Reg.GLB_BOOT_MS_COMMIT = 0 then d.w Reg.GLB_BOOT_MS_COMMIT d.bootMs else d
  let d := if d.boot.cold then { d.autoStart g with boot := { d.boot with cold := false } } else d
  d.wb Reg.GLB_BOOT_BG_VERIFY (!d.sec.background.isEmpty)

/-- BG_VERIFY_DONE (R573): the bank of a kind that was not selected is code 9 OLDER when it verifies. -/
def Dev.bgVerifyDone (d : Dev) (g : Grade) (kind : Nat) (v : Verdict) : Dev :=
  if d.b Reg.GLB_BOOT_BG_VERIFY && d.sec.background.contains kind then
    let b := 1 - d.bankSel kind
    let code := d.bankCode g kind b v
    let rest := d.sec.background.filter (· != kind)
    let d := d.w (bankField kind b) (if code = 0 then 9 else code)
    ({ d with sec := { d.sec with background := rest } }).wb Reg.GLB_BOOT_BG_VERIFY (!rest.isEmpty)
  else d

/-- Meaning of BG_VERIFY_DONE. -/
def execBgVerifyDone (kind : Fin 3) (v : Verdict) (s : State) : Host.Outcome State Fault Refusal :=
  ok s (fun g d => d.bgVerifyDone g kind.val v)

/-! ### Commands (R579, R580) -/

/-- Meaning of DEV_BOOT_INFO. -/
def execDevBootInfo (p : Packet) (s : State) : Host.Outcome State Fault Refusal :=
  ok s (fun g d => d.runPacket g { opcode := 0x040, need := needN 0, replyLen := fun _ => 9, always := true } p (fun d _ =>
    (d, .ok ([0x30, 0x34, 0x38, 0x3C, 0x40, 0xE0_0004].map d.regWord))))

/-- DEV_RESET (R580): a module reset 100 µs after the reply. -/
def Dev.devReset (d : Dev) (key : Nat) : Dev × Res :=
  if key ≠ 0x5245_5354 then (d, .badParam 2)
  else if (d.paired && d.b Reg.PAIR_STAT_HOLDER) || d.flashBusy || d.rollBusy then (d, .busy)
  else ({ d with boot := { d.boot with resetAt := some (d.time.c + 80000) } }, .ok [])

/-- Meaning of DEV_RESET. -/
def execDevReset (p : Packet) (s : State) : Host.Outcome State Fault Refusal :=
  ok s (fun g d => d.runPacket g { opcode := 0x041, priv := true, need := needN 1, always := true } p (fun d ps =>
    d.devReset (ps.getD 0 0)))

/-- Meaning of DEV_UNLISTED_OPCODE: opcode 0x040 + `op` (R579). -/
def execDevUnlistedOpcode (op : Fin 16) (p : Packet) (s : State) : Host.Outcome State Fault Refusal :=
  ok s (fun g d =>
    if op.val ≤ 1 then d
    else d.runPacket g { opcode := 0x040 + op.val, need := fun _ => none } p (fun d _ => (d, .badParam 0)))

end Sys2Proof.Machine
end

