-- ==== Sys2Proof/Machine/HostMap.lean ====
section
/-!
DEFINITION. Machine/HostMap.lean: reads and writes of the host address map by every path (R7 … R11, R513 … R519), with the
rules that the chapters give single registers.
-/
namespace Sys2Proof.Machine

/-! ### Where an address lies (R3, R11, R513) -/

/-- Blocks that are privileged in their entirety: Bridle, Pair, Security. -/
def privBlock (a : Nat) : Bool :=
  let b := a / 0x10_0000
  b == 0xB || b == 0xD || b == 0xE

/-- An address that only privileged accesses reach (R11, R134, R513). -/
def privAddr (a : Nat) : Bool :=
  privBlock a || (decide (0x28_0000 ≤ a) && decide (a < 0x30_0000)) || (decide (0x37_0000 ≤ a) && decide (a < 0x37_2000)) ||
    (match regAt a with
      | some (r, _, _) => r.priv
      | none => false)

/-- The instance of an area of `n` instances of `size` bytes from `base` on that the address lies in. -/
def areaIndex (base size n a : Nat) : Option Nat :=
  if base ≤ a ∧ a < base + size * n then some ((a - base) / size) else none

/-- The address belongs to an instance that the grade lacks (R3). -/
def absent (g : Grade) (a : Nat) : Bool :=
  let ovr (i : Option Nat) (lim : Nat) : Bool := (i.map (fun i => decide (lim ≤ i))).getD false
  ovr (areaIndex 0x20_1000 0x10 128 a) (axesOf g) || ovr (areaIndex 0x28_0000 0x1000 128 a) (axesOf g) ||
    ovr (areaIndex 0x30_1000 0x40 128 a) (axesOf g) || ovr (areaIndex 0x34_0000 0x400 128 a) (axesOf g) ||
    ovr (areaIndex 0x36_0000 0x200 128 a) (axesOf g) || ovr (areaIndex 0x37_0000 0x40 128 a) (axesOf g) ||
    ovr (areaIndex 0x40_1000 0x100 24 a) (teamsOf g) || ovr (areaIndex 0x50_0100 0x20 16 a) (armsOf g) ||
    (!sageFitted g && a / 0x10_0000 == 6) || ovr (areaIndex 0x70_1000 0x100 4 a) (ringsOf g) ||
    ovr (areaIndex 0x71_0000 0x1000 4 a) (ringsOf g) || ovr (areaIndex 0x72_0000 0x400 4 a) (ringsOf g)

/-- Areas of record words beside the registers: loop memory, event entries, slots, gear entries, parameter records, Paddock records
and intruders, ring slot tables, Ostler's trace circle and descriptors, Bridle's records. -/
def recordAreas : List (Nat × Nat) := [
  (0x28_0000, 0x30_0000), (0x32_0000, 0x34_0000), (0x34_0000, 0x36_0000), (0x36_0000, 0x37_0000), (0x37_0000, 0x37_2000),
  (0x51_0000, 0x51_E000), (0x52_0000, 0x52_0800), (0x71_0000, 0x71_4000), (0xA1_0000, 0xA2_0000), (0xA2_0000, 0xA4_0000),
  (0xB1_0000, 0xB1_C004)]

/-- The address lies in an area of record words. -/
def inRecords (a : Nat) : Bool := recordAreas.any (fun e => decide (e.1 ≤ a) && decide (a < e.2))

/-- Count an access to an address that no chapter defines (R513). -/
def Dev.unmapped (d : Dev) : Dev := d.inc Reg.HOST_ERR_CNT_UNMAPPED

/-- The source that stands for a path. -/
def pathOrigin : Path → Origin
  | .pf1 => .pf1 0
  | .pf0 => .pf0 0
  | .spi a => .spi 0 a

/-! ### Queue registers (R522 … R529) -/

/-- Q_STAT of queue `q`. -/
def HQueue.stat (x : HQueue) (q : Nat) : Nat :=
  x.words.length * 2 ^ 16 + b2n x.noticeLost * 64 + b2n x.uncorr * 32 + b2n x.stallExp * 16 + b2n x.halted * 8 +
    b2n (decide (4 ≤ q) && decide (x.headLeft < x.words.length)) * 4 + b2n x.overrun * 2 + b2n (decide (1024 ≤ x.words.length))

/-- Q_ECC_CNT. -/
def HQueue.ecc (x : HQueue) : Nat := x.corrCnt + x.uncorrCnt * 2 ^ 16

/-- QUEUE_PUSH (R523, R524, R528): a word for the aperture of queue `q`, and how it will read back. -/
def Dev.push (d : Dev) (path : Path) (q : Nat) (v : Word) (m : EccMark) : Dev :=
  let o := pathOrigin path
  let x := (d.hostSet o).queue q
  if 4 ≤ q then d.unmapped
  else if x.halted then d
  else if 1024 ≤ x.words.length then d.putQueue o q { x with overrun := true }
  else d.putQueue o q { x with words := x.words ++ [(v, m)] }

/-- A pop that waits on a queue ends with all ones (R526, R529). -/
def Dev.popAbort (d : Dev) (o : Origin) (q : Nat) : Dev :=
  let x := (d.hostSet o).queue q
  match x.stall with
  | some n =>
    let d := d.setHostSet o ((d.hostSet o).setQueue q { x with stall := none, got := [] })
    { d with host := { d.host with rsp := x.got ++ List.replicate n 0xFFFF_FFFF#32 } }
  | none => d

/-- Q_CTRL_RESET (R529): the pair of queue `q` is emptied, its flags go, and the replies on the way are discarded. -/
def Dev.queueReset (d : Dev) (path : Path) (q : Nat) : Dev :=
  let o := pathOrigin path
  let c := q % 4
  let d := d.popAbort o (c + 4)
  let clear (x : HQueue) : HQueue :=
    { x with words := [], headLeft := 0, halted := false, overrun := false, stallExp := false }
  let h := d.hostSet o
  let h := (h.setQueue c (clear (h.queue c))).setQueue (c + 4) (clear (h.queue (c + 4)))
  let d := d.setHostSet o { h with waiting := Tab.put (c + 4) [] h.waiting }
  { d with host := { d.host with outstanding := d.host.outstanding.map (fun x =>
      if sameFunction x.origin o && queueOf x.origin == some c then { x with dropped := true } else x) } }

/-- A write into the region of the queues at offset `o`. -/
def Dev.queueWrite (d : Dev) (path : Path) (o v : Nat) : Dev :=
  let q := o / 0x1000
  let off := o % 0x1000
  let src := pathOrigin path
  let x := (d.hostSet src).queue q
  if 8 ≤ q then d.unmapped
  else if off < 0x800 then d.push path q (W v) .good
  else if off = 0x800 then
    d.setHostSet src ((d.hostSet src).setQueue q { x with
      noticeLost := x.noticeLost && !bitOf v 6, uncorr := x.uncorr && !bitOf v 5, stallExp := x.stallExp && !bitOf v 4,
      overrun := x.overrun && !bitOf v 1 })
  else if off = 0x804 then (if bitOf v 0 then d.queueReset path q else d)
  else if off = 0x808 then d
  else d.unmapped

/-- A read of a queue register at offset `o` of the region; apertures are read by pops. -/
def Dev.queueRead (d : Dev) (path : Path) (o : Nat) : Dev × Nat :=
  let q := o / 0x1000
  let x := (d.hostSet (pathOrigin path)).queue q
  if 8 ≤ q then (d.unmapped, 0)
  else match o % 0x1000 with
    | 0x800 => (d, x.stat q)
    | 0x804 => (d, 0)
    | 0x808 => (d, x.ecc)
    | off => (if off < 0x800 then d else d.unmapped, 0)

/-! ### MSI-X (R539, R540) -/

/-- Unmask a vector: one message leaves when its pending bit is set. -/
def HostSet.unmask (h : HostSet) (v : Nat) : HostSet :=
  let h := { h with masked := setBit h.masked v false }
  if bitOf h.pend v && !h.d3hot then
    { h with pend := setBit h.pend v false, sent := Tab.put v (Tab.look 0 v h.sent + 1) h.sent }
  else h

/-- A write of word `i` of the MSI-X table: four words a vector, the last of them with the mask bit. -/
def HostSet.msixWrite (h : HostSet) (i v : Nat) : HostSet :=
  if i % 4 = 3 then (if bitOf v 0 then { h with masked := setBit h.masked (i / 4) true } else h.unmask (i / 4))
  else { h with msixWords := Tab.put i v h.msixWords }

/-- A word of the MSI-X table. -/
def HostSet.msixRead (h : HostSet) (i : Nat) : Nat :=
  if i % 4 = 3 then b2n (bitOf h.masked (i / 4)) else Tab.look 0 i h.msixWords

/-- The path is that of a PCIe function. -/
def isPcie : Path → Bool
  | .spi _ => false
  | _ => true

/-! ### Register writes by access type (R8) -/

/-- Write one field from the word written: RW takes the value, a 1 clears a W1C bit. -/
def Dev.putField (d : Dev) (f : Field) (hi : Bool) (v : Nat) : Dev :=
  match f.access with
  | .rw =>
    if f.width = 64 then (if hi then d.w f (pair64 (d.r f) v) else d.w f (pair64 v (hiW (d.r f))))
    else d.w f (bits v f.lo f.width)
  | .w1c => if bitOf v f.lo then d.w f 0 else d
  | _ => d

/-- REG_WRITE (R8): a register that has no behaviour of its own. -/
def Dev.regWrite (d : Dev) (a v : Nat) : Dev :=
  match regAt a with
  | some (_, fs, hi) => d.each fs (fun f d => d.putField f hi v)
  | none => if inRecords a then d else d.unmapped

/-! ### Registers with rules of their own -/

/-- The identity block: GLB_HEALTH, and the MSI-X table of a function. -/
def Dev.writeGlobal (d : Dev) (path : Path) (a v : Nat) : Dev :=
  if a = 0x20 then d.withHealth (fun d => d.regWrite a v)
  else if isPcie path ∧ 0x8000 ≤ a ∧ a < 0x8080 then
    d.setHostSet (pathOrigin path) ((d.hostSet (pathOrigin path)).msixWrite ((a - 0x8000) / 4) v)
  else if isPcie path ∧ a = 0x9000 then d
  else d.regWrite a v

/-- Epoch and image control (R22, R41, R43, R46). -/
def Dev.writeEpoch (d : Dev) (path : Path) (a v : Nat) : Dev :=
  match a with
  | 0x10_0004 => if d.marginOk (v % 2 ^ 20) then d.setMargin (v % 2 ^ 20) else d.flag Reg.EPK_STAT_BAD_MARGIN
  | 0x10_0028 => d.imgHoldWrite path v
  | 0x10_002C => if v % 2 ^ 13 = 0 ∨ 4096 < v % 2 ^ 13 then d else d.regWrite a v
  | 0x10_0030 => if v % 2 ^ 20 = 0 then d else d.regWrite a v
  | _ => d.regWrite a v

/-- Registers of master coordinate `n` (R53, R54, R56). -/
def Dev.writeCoord (d : Dev) (g : Grade) (n off a v : Nat) : Dev :=
  let locked := d.b (Reg.COORD_CFG_ENABLE n)
  match off with
  | 0x00 => d.coordCfgWrite g n v
  | 0x04 => if locked then d.flag (Reg.COORD_STAT_BAD_CFG n) else d.regWrite a v
  | 0x0C =>
    let d := d.regWrite a v
    d.setCoord n { d.coord n with scalePending := true }
  | 0x10 => if locked then d.flag (Reg.COORD_STAT_BAD_CFG n) else d.regWrite a v
  | 0x14 => if locked then d.flag (Reg.COORD_STAT_BAD_CFG n) else d.regWrite a v
  | _ => d.regWrite a v

/-- A word of a profile slot: reserved bits and words read 0. -/
def Dev.slotWrite (d : Dev) (a v : Nat) : Dev :=
  let w := a % 0x40 / 4
  if w = 0 then d.putMw a (v % 2 ^ 7) else if w ≤ 10 then d.putMw a v else d

/-- Profile, gearing and event calendar. -/
def Dev.writeMotion (d : Dev) (g : Grade) (a v : Nat) : Dev :=
  if 0x30_8000 ≤ a ∧ a < 0x30_8200 then d.writeCoord g ((a - 0x30_8000) / 0x40) (a % 0x40) a v
  else if 0x32_0000 ≤ a ∧ a < 0x34_0000 then d.entryWrite ((a - 0x32_0000) / 32) (a % 32 / 4) v
  else if 0x34_0000 ≤ a ∧ a < 0x36_0000 then d.slotWrite a v
  else if 0x36_0000 ≤ a ∧ a < 0x37_0000 then d.gearWrite ((a - 0x36_0000) / 0x200) (a % 0x200 / 0x20) (a % 0x20 / 4) v
  else if 0x37_0000 ≤ a ∧ a < 0x37_2000 then d.paramWrite g ((a - 0x37_0000) / 0x40) (a % 0x40 / 4) [v]
  else d.regWrite a v

/-- Power teams, ADC and encoders (R195, R205, R211). -/
def Dev.writeTeams (d : Dev) (a v : Nat) : Dev :=
  if 0x40_1000 ≤ a ∧ a < 0x40_2800 then
    let t := (a - 0x40_1000) / 0x100
    let off := a % 0x100
    if off = 0x24 then d.teamCtrl t v
    else if lockedTeamReg off ∨ off = 0x54 ∨ off = 0x58 ∨ off = 0x84 then d.teamWrite t off v
    else d.regWrite a v
  else if 0x40_6000 ≤ a ∧ a < 0x40_6600 ∧ a % 0x40 ≤ 8 then d.encWrite ((a - 0x40_6000) / 0x40) (a % 0x40) v
  else d.regWrite a v

/-- Sage (R286, R303). -/
def Dev.writeSage (d : Dev) (a v : Nat) : Dev :=
  if a = 0x60_0000 then d.sageCtrlWrite v
  else if a = 0x60_000C then d.sageIterWrite v
  else if 0x60_0010 ≤ a ∧ a < 0x60_0048 then d.sageParamWrite (a % 0x100) v
  else d.regWrite a v

/-- Cerid. -/
def Dev.writeCerid (d : Dev) (a v : Nat) : Dev :=
  if a = 0x70_0000 then d.crdTypeWrite v
  else if 0x70_1000 ≤ a ∧ a < 0x70_1400 ∧ a % 0x100 < 0x10 then d.crdCfgWrite ((a - 0x70_1000) / 0x100) a v
  else d.regWrite a v

/-- TB_PTP_CFG: a write with a field out of range is ignored entirely. -/
def ptpCfgOk (v : Nat) : Bool :=
  let s (lo : Nat) : Int := sx 4 (bits v lo 4)
  decide (1 ≤ bits v 28 4) && decide (2 ≤ bits v 24 4) && decide (bits v 24 4 ≤ 8) &&
    decide (-4 ≤ s 20) && decide (s 20 ≤ 3) && decide (-2 ≤ s 16) && decide (s 16 ≤ 2) && decide (-7 ≤ s 12) && decide (s 12 ≤ -2)

/-- Ostler and Girth (R422, R423). -/
def Dev.writeOst (d : Dev) (a v : Nat) : Dev :=
  if a = 0xA0_0100 then d.budgetWrite v
  else if 0xA0_0120 ≤ a ∧ a < 0xA0_0140 then d.classWrite ((a - 0xA0_0120) / 4) v
  else if a = 0xA0_0108 then
    (d.withHealth (fun d =>
      let d := d.regWrite a v
      d.wb Reg.GLB_HEALTH_THERM (d.b Reg.GIRTH_STAT_THERM_CRIT))).pins
  else d.regWrite a v

/-- FIO_GRP_CFG: the ranges of its table, and R484 in a pair. -/
def Dev.grpCfgOk (d : Dev) (v : Nat) : Bool :=
  let t1 := v % 2 ^ 10
  let t2 := bits v 16 16
  decide (1 ≤ t1) && decide (t1 ≤ 1000) && (t2 == 0 || decide (t1 ≤ t2)) &&
    (!d.b Reg.PAIR_CFG_PAIRED || decide (16 * d.te + 1000000 ≤ 1000000 * t1))

/-- Field I/O (R475, R484). -/
def Dev.writeFio (d : Dev) (a v : Nat) : Dev :=
  if 0xC0_1000 ≤ a ∧ a < 0xC0_1400 ∧ a % 0x100 = 0 then
    (if d.grpCfgOk v then d.regWrite a v else d.flag Reg.FIO_STAT_CFG_BUSY)
  else if 0xC0_2000 ≤ a ∧ a < 0xC0_2100 then (if v % 2 ^ 8 = 0 then d else d.regWrite a v)
  else if 0xC0_3000 ≤ a ∧ a < 0xC0_3200 ∧ a % 0x10 ≤ 4 then d.outCfgWrite ((a - 0xC0_3000) / 0x10) (a % 0x10 == 4) v
  else d.regWrite a v

/-- PAIR_TIMES: REVERT_DWELL 0 is ignored. -/
def Dev.writePair (d : Dev) (a v : Nat) : Dev :=
  if a = 0xD0_0008 ∧ v % 2 ^ 16 = 0 then d.w Reg.PAIR_TIMES_START_WAIT (v / 2 ^ 16) else d.regWrite a v

/-- TRC_CTRL (R148, R149, R151). -/
def Dev.trcCtrl (d : Dev) (v : Nat) : Dev :=
  let d := if bitOf v 0 then d.trcArm.1 else d
  let d := if bitOf v 1 then d.trcStop else d
  if bitOf v 2 then d.trcTrigger.1 else d

/-- Trace control (R147, R155). -/
def Dev.writeTrace (d : Dev) (a v : Nat) : Dev :=
  if a = 0xF0_0000 then d.trcCtrl v
  else if a = 0xF0_0008 then d.trcGeometryWrite 0 v
  else if a = 0xF0_000C then d.trcGeometryWrite 1 v
  else if a = 0xF0_0010 then d.trcGeometryWrite 2 v
  else if 0xF0_0014 ≤ a ∧ a < 0xF0_0020 then d.trcParamWrite a v
  else if 0xF0_0100 ≤ a ∧ a < 0xF0_0140 then d.trcGeometryWrite (3 + (a - 0xF0_0100) / 4) v
  else if 0xF0_0200 ≤ a ∧ a < 0xF0_0280 then
    (if d.b (Reg.INJ_STAT_ACTIVE ((a - 0xF0_0200) / 0x20)) then d else d.regWrite a v)
  else d.regWrite a v

/-- Write a register or record word of a block. -/
def Dev.writeBlock (d : Dev) (g : Grade) (path : Path) (a v : Nat) : Dev :=
  match a / 0x10_0000 with
  | 0x0 => d.writeGlobal path a v
  | 0x1 => d.writeEpoch path a v
  | 0x2 => if 0x28_0000 ≤ a then d.loopMemWrite (a - 0x28_0000) v else d.regWrite a v
  | 0x3 => d.writeMotion g a v
  | 0x4 => d.writeTeams a v
  | 0x6 => d.writeSage a v
  | 0x7 => d.writeCerid a v
  | 0x8 => if a = 0x80_0000 then d.tlbCfgWrite v else d.regWrite a v
  | 0x9 => if a = 0x90_002C ∧ !ptpCfgOk v then d else d.regWrite a v
  | 0xA => d.writeOst a v
  | 0xC => d.writeFio a v
  | 0xD => d.writePair a v
  | 0xF => d.writeTrace a v
  | _ => d.regWrite a v

/-- The windows above the blocks: image (R31), trace memory (R153), shared work memory (R281, R516). -/
def Dev.writeWindow (d : Dev) (path : Path) (a v : Nat) : Dev :=
  if a < 0x200_0000 then d.inc Reg.IMG_WR_IGN
  else if a < 0x400_0000 then d.inc Reg.TRC_WR_IGN
  else if 0x500_0000 ≤ a then d.unmapped
  else
    let off := a - 0x400_0000
    if !d.pathPriv path then d.countPath path
    else if 0xC0_0000 ≤ off then d
    else if d.inSagePart off then d.inc (Reg.HK_SWM_IGN 0)
    else { d with hk := { d.hk with swm := Mem.putWord d.hk.swm off v } }

/-- A host write of the word at address `a` (R11, R513). -/
def Dev.hostWrite (d : Dev) (g : Grade) (path : Path) (a v : Nat) : Dev :=
  if 0x100_0000 ≤ a then d.writeWindow path a v
  else if 0x1_0000 ≤ a ∧ a < 0x10_0000 then d.queueWrite path (a - 0x1_0000) v
  else if privAddr a ∧ !d.pathPriv path then d.countPath path
  else if absent g a then d
  else d.writeBlock g path a v

/-! ### Reads -/

/-- Word `i` of a mask with one bit per axis. -/
def Dev.axisMask (d : Dev) (i : Nat) (on : Nat → Bool) : Nat :=
  (List.range 32).foldl (fun m b => setBit m b (d.axisOn (32 * i + b) && on (32 * i + b))) 0

/-- LOOP_ENABLE0 … 3, LOOP_BANK0 … 3 and LOOP_FAULT0 … 3. -/
def Dev.loopMask (d : Dev) (w : Nat) : Nat :=
  let bank (a : Nat) : Bool := d.bankOf a == 1
  let fault (a : Nat) : Bool := d.r (Reg.AXIS_STAT_FAULT a) != 0
  match w / 4 with
  | 0 => d.axisMask w (fun _ => true)
  | 1 => (List.range 32).foldl (fun m b => setBit m b (bank (32 * (w % 4) + b))) 0
  | _ => (List.range 32).foldl (fun m b => setBit m b (fault (32 * (w % 4) + b))) 0

/-- Words that are computed when they are read; none for an ordinary register. -/
def Dev.computedWord (d : Dev) (g : Grade) (path : Path) (a : Nat) : Option Nat :=
  let h := d.hostSet (pathOrigin path)
  if a < 0xC then some (identWord g (a / 4))
  else if isPcie path ∧ 0x8000 ≤ a ∧ a < 0x8080 then some (h.msixRead ((a - 0x8000) / 4))
  else if isPcie path ∧ 0x9000 ≤ a ∧ a < 0x9008 then some (if a = 0x9000 then h.pend else 0)
  else if a = 0x10_0028 then some (d.imgHoldWord path)
  else if 0x20_0040 ≤ a ∧ a < 0x20_0070 then some (d.loopMask ((a - 0x20_0040) / 4))
  else if 0x83_0000 ≤ a ∧ a < 0x83_2000 then some ((d.safeWords ((a - 0x83_0000) / 16)).getD (a / 4 % 4) 0)
  else if a = 0x90_000C then some d.time.dtHi
  else if a = 0x90_0010 then some d.time.dtFrac
  else if a = 0x90_0020 then some (satU 32 d.errEst)
  else if 0xB0_0400 ≤ a ∧ a < 0xB0_0C00 then some (((d.conn (512 + (a - 0xB0_0400) / 16)).words false).getD (a / 4 % 4) 0)
  else if a = 0xE0_0000 then some d.secStatWord
  else if inRecords a then some (d.mw a)
  else none

/-- Keep the high word that a low-word read latches (R10). -/
def Dev.latchPair (d : Dev) (path : Path) (a hi : Nat) : Dev :=
  let h := d.hostSet (pathOrigin path)
  d.setHostSet (pathOrigin path) { h with latch := Tab.put a hi h.latch }

/-- The high word latched by the last low-word read of the pair, or 0 (R10). -/
def Dev.latched (d : Dev) (path : Path) (a : Nat) : Nat := Tab.look 0 a (d.hostSet (pathOrigin path)).latch

/-- A register that the tables hold: a pair latches its high word (R10). -/
def Dev.readReg (d : Dev) (path : Path) (a : Nat) : Dev × Nat :=
  if a = 0x90_0000 then (d.latchPair path a (hiW d.time.c), loW d.time.c)
  else if a = 0x90_0008 then d.readTime
  else match regAt a with
    | none => (d.unmapped, 0)
    | some (r, fs, hi) =>
      if hi then (d, d.latched path (a - 4))
      else if r.wide then (d.latchPair path a (d.wordOf fs true), d.wordOf fs false)
      else (d, d.wordOf fs false)

/-- The windows above the blocks; EPOCH_LO of the image header latches EPOCH_HI (R33). -/
def Dev.readWindow (d : Dev) (path : Path) (a : Nat) : Dev × Nat :=
  if a = 0x100_0000 then (d.latchPair path a (d.imageWord 4), d.imageWord 0)
  else if a = 0x100_0004 then (d, d.latched path (a - 4))
  else if a < 0x120_0000 then (d, d.imageWord (a - 0x100_0000))
  else if 0x200_0000 ≤ a ∧ a < 0x220_0000 then (d, Mem.word d.trc.tmem (a - 0x200_0000))
  else if 0x400_0000 ≤ a ∧ a < 0x500_0000 then
    let off := a - 0x400_0000
    (d, if 0xC0_0000 ≤ off ∨ d.inSagePart off then 0 else Mem.word d.hk.swm off)
  else (d.unmapped, 0)

/-- A host read of the word at address `a`, queue apertures apart (R10, R11, R513). -/
def Dev.hostRead (d : Dev) (g : Grade) (path : Path) (a : Nat) : Dev × Nat :=
  if 0x100_0000 ≤ a then d.readWindow path a
  else if 0x1_0000 ≤ a ∧ a < 0x10_0000 then d.queueRead path (a - 0x1_0000)
  else if privAddr a ∧ !d.pathPriv path then (d.countPath path, 0)
  else if absent g a then (d, 0)
  else match d.computedWord g path a with
    | some v => (d, v)
    | none => d.readReg path a

end Sys2Proof.Machine
end

