-- ==== Sys2Proof/Machine/Host.lean ====
section
/-!
DEFINITION. Machine/Host.lean: the host paths and Farrier's packet work: register accesses, the queues, MSI-X, the SPI target, the
lands and power states of PCI Express, and the device commands (R7 … R11, R513 … R548).
-/
namespace Sys2Proof.Machine

/-! ### Register accesses -/

/-- The word that an access at byte address `a` names. -/
def wordAddr (a : Nat) : Nat := a / 4 * 4

/-- A host write: one that does not enable all four bytes of a register is discarded and counted (R7, R515). -/
def Dev.writeAccess (d : Dev) (g : Grade) (path : Path) (a v : Nat) (full : Bool) : Dev :=
  if !d.pathOpen path then d
  else if full && a % 4 == 0 then d.hostWrite g path a v
  else d.inc Reg.HOST_ERR_CNT_PARTIAL

/-- Meaning of REG_WRITE. -/
def execRegWrite (path : Path) (a v : Word) (full : Bool) (s : State) : Host.Outcome State Fault Refusal :=
  ok s (fun g d => d.writeAccess g path a.toNat v.toNat full)

/-- Meaning of LATCHED_PAIR_READ: a host read of the word that holds address `a`; the low word of a pair latches its high word
(R10). -/
def execLatchedPairRead (path : Path) (a : Word) (s : State) : Host.Outcome State Fault Refusal :=
  ok s (fun g d =>
    if !d.pathOpen path then d
    else
      let (d, v) := d.hostRead g path (wordAddr a.toNat)
      d.readerGets (pathOrigin path) [W v])

/-- Meaning of DOMAIN_TIME_READ (R84): the low word goes to the reader. -/
def execDomainTimeRead (path : Path) (s : State) : Host.Outcome State Fault Refusal :=
  ok s (fun _ d => d.access path false true (fun d =>
    let (d, v) := d.readTime
    d.readerGets (pathOrigin path) [W v]))

/-! ### Queues -/

/-- Meaning of QUEUE_PUSH. -/
def execQueuePush (path : Path) (q : Fin 8) (v : Word) (m : EccMark) (s : State) : Host.Outcome State Fault Refusal :=
  ok s (fun _ d => if d.pathOpen path then d.push path q.val v m else d)

/-- Reading a queue over SPI clears its pending triggers (R541). -/
def Dev.queueSeen (d : Dev) (path : Path) (q : Nat) : Dev :=
  match path with
  | .spi _ => { d with host := { d.host with
      spiPend := setBit (setBit d.host.spiPend (8 + q) false) q (q < 4 && bitOf d.host.spiPend q) } }
  | _ => d

/-- QUEUE_POP (R523, R526): a read of `n` words of the aperture of queue `q`; a command queue reads 0. -/
def Dev.queuePop (d : Dev) (path : Path) (q n : Nat) (marks : List EccMark) : Dev :=
  let o := pathOrigin path
  if q < 4 then d.readerGets o (List.replicate n 0#32)
  else if ((d.hostSet o).queue q).stall.isSome then d
  else (d.queueSeen path q).popRead o q [] marks n

/-- Meaning of QUEUE_POP. -/
def execQueuePop (path : Path) (q : Fin 8) (n : Fin 513) (marks : List EccMark) (s : State) : Host.Outcome State Fault Refusal :=
  ok s (fun _ d => if d.pathOpen path then d.queuePop path q.val n.val marks else d)

/-- POP_STALL_EXPIRE (R526, R543): after 40 µs the words that are still missing read all ones; over SPI a read that has brought
nothing yet sends 0x5A. -/
def Dev.popExpire (d : Dev) (path : Path) (q : Nat) : Dev :=
  let o := pathOrigin path
  let x := (d.hostSet o).queue q
  match x.stall with
  | none => d
  | some n =>
    let d := d.putQueue o q { x with stall := none, got := [], stallExp := true }
    let d := d.readerGets o (x.got ++ List.replicate n 0xFFFF_FFFF#32)
    if !isPcie path && x.got.isEmpty then { d with host := { d.host with spiByte := 0x5A } } else d

/-- Meaning of POP_STALL_EXPIRE. -/
def execPopStallExpire (path : Path) (q : Fin 8) (s : State) : Host.Outcome State Fault Refusal :=
  ok s (fun _ d => d.popExpire path q.val)

/-- Meaning of Q_CTRL_RESET. -/
def execQCtrlReset (path : Path) (q : Fin 8) (s : State) : Host.Outcome State Fault Refusal :=
  ok s (fun _ d => if d.pathOpen path then d.queueReset path q.val else d)

/-- QUEUE_HALT (R528): the word at the head of command queue `q` is unreadable or gives no packet length. -/
def Dev.queueHalt (d : Dev) (path : Path) (q : Nat) : Dev :=
  let o : Origin := match path with
    | .pf1 => .pf1 (Fin.ofNat 4 q)
    | .pf0 => .pf0 (Fin.ofNat 4 q)
    | .spi a => .spi (Fin.ofNat 4 q) a
  let h := d.hostSet o
  let x := h.queue q
  match x.words with
  | [] => d
  | (w, m) :: _ =>
    let len := w.toNat % 2 ^ 16
    let ecc := m == .uncorr
    if !(ecc || decide (len < 2) || decide (1024 < len)) || x.halted || !(Tab.look [] (q + 4) h.waiting).isEmpty ||
        d.host.outstanding.any (fun y => sameQueue y.origin o) then d
    else
      let d := d.putQueue o q { x with
        words := [], halted := true, uncorrCnt := if ecc then satU 16 (x.uncorrCnt + 1) else x.uncorrCnt }
      d.answer o (w.toNat / 2 ^ 20) 0xFFFF_FFFE#32 false (if ecc then .eccErr else .badLength 0)

/-- Meaning of QUEUE_HALT. -/
def execQueueHalt (path : Path) (q : Fin 4) (s : State) : Host.Outcome State Fault Refusal :=
  ok s (fun _ d => d.queueHalt path q.val)

/-- The opcodes of the index (R548), as ranges. -/
def opcodeRanges : List (Nat × Nat) := [
  (0x000, 0x003), (0x010, 0x010), (0x020, 0x020), (0x040, 0x04F), (0x100, 0x104), (0x110, 0x112), (0x120, 0x120),
  (0x200, 0x204), (0x300, 0x30A), (0x360, 0x365), (0x400, 0x408), (0x410, 0x410), (0x420, 0x420), (0x500, 0x505),
  (0x600, 0x605), (0x700, 0x707), (0x800, 0x806), (0x900, 0x904), (0xA00, 0xA07), (0xA20, 0xA21), (0xA40, 0xA41),
  (0xB00, 0xB04), (0xB08, 0xB09), (0xB10, 0xB11), (0xC00, 0xC04), (0xD00, 0xD03), (0xE00, 0xE3F), (0xF00, 0xF05),
  (0xF10, 0xF11)]

/-- An opcode of the index (R548). -/
def opcodeExists (op : Nat) : Bool := opcodeRanges.any (fun r => decide (r.1 ≤ op) && decide (op ≤ r.2))

/-- Meaning of BAD_OPCODE_PACKET (R533): a packet whose opcode the index does not hold. -/
def execBadOpcodePacket (op : BitVec 12) (p : Packet) (s : State) : Host.Outcome State Fault Refusal :=
  ok s (fun g d =>
    if opcodeExists op.toNat then d
    else d.runPacket g { opcode := op.toNat, need := fun _ => none, always := true } p (fun d _ => (d, .badOpcode)))

/-- REPLY_WRITE (R525): the first reply that waits for room is written once the whole of it fits. -/
def Dev.replyWrite (d : Dev) (o : Origin) (q : Nat) : Dev :=
  let h := d.hostSet o
  match Tab.look [] (q + 4) h.waiting with
  | [] => d
  | r :: rest =>
    if r.words.length ≤ (h.queue (q + 4)).free then
      (d.setHostSet o { h with waiting := Tab.put (q + 4) rest h.waiting }).writeReply o (q + 4) r.words
    else d

/-- Meaning of REPLY_WRITE. -/
def execReplyWrite (path : Path) (q : Fin 4) (s : State) : Host.Outcome State Fault Refusal :=
  ok s (fun _ d => d.replyWrite (pathOrigin path) q.val)

/-! ### PCI Express -/

/-- Change what a PCIe function keeps. -/
def Dev.onFunction (d : Dev) (pf1 : Bool) (f : HostSet → HostSet) : Dev :=
  if pf1 then { d with host := { d.host with pf1 := f d.host.pf1 } } else { d with host := { d.host with pf0 := f d.host.pf0 } }

/-- Meaning of MSIX_UNMASK. -/
def execMsixUnmask (pf1 : Bool) (v : Fin 8) (s : State) : Host.Outcome State Fault Refusal :=
  ok s (fun _ d => if d.host.perst then d else d.onFunction pf1 (fun h => h.unmask v.val))

/-- The endpoint side of a function at its own reset: MSI-X and the power state; the queues are not in the endpoint. -/
def HostSet.endpointReset (h : HostSet) : HostSet := { h with masked := 0xFF, pend := 0, msixWords := [], d3hot := false }

/-- Meaning of PCIE_PERST (R596): only the endpoint is held in reset. -/
def execPciePerst (low : Bool) (s : State) : Host.Outcome State Fault Refusal :=
  ok s (fun _ d =>
    let d := { d with host := { d.host with perst := low } }
    if low then (d.onFunction true HostSet.endpointReset).onFunction false HostSet.endpointReset else d)

/-- Meaning of PCIE_POWER_STATE (R520): D3hot stops notices and keeps the queues. -/
def execPciePowerState (pf1 d3 : Bool) (s : State) : Host.Outcome State Fault Refusal :=
  ok s (fun _ d => if d.host.perst then d else d.onFunction pf1 (fun h => { h with d3hot := d3 }))

/-! ### SPI (R541 … R543) -/

/-- A transaction with a privileged command (R517, R518): without SPI_PRIV it is unprivileged and counts once, whatever is refused
within it. -/
def Dev.spiTransaction (d : Dev) (asked : Bool) (f : Dev → Dev) : Dev :=
  if !d.b Reg.GLB_HOST_CFG_SPI_EN then d
  else if asked && !d.b Reg.GLB_HOST_CFG_SPI_PRIV then
    let n := d.r Reg.PRIV_VIOL_CNT_OTHER
    (f d).w Reg.PRIV_VIOL_CNT_OTHER (satU 16 (n + 1))
  else f d

/-- An SPI write: words at rising addresses, and a last incomplete word that is discarded (R515, R543). -/
def Dev.spiWrite (d : Dev) (g : Grade) (asked : Bool) (a : Nat) (ws : List Word) (part : Bool) : Dev :=
  d.spiTransaction asked (fun d =>
    let d := d.each ws.zipIdx (fun x d => d.writeAccess g (.spi asked) ((a + 4 * x.2) % 2 ^ 32) x.1.toNat true)
    if part then d.inc Reg.HOST_ERR_CNT_PARTIAL else d)

/-- Meaning of SPI_WRITE. -/
def execSpiWrite (a : Word) (ws : List Word) (part : Bool) (s : State) : Host.Outcome State Fault Refusal :=
  ok s (fun g d => d.spiWrite g false a.toNat ws part)

/-- Meaning of SPI_WRITE_PRIVILEGED. -/
def execSpiWritePrivileged (a : Word) (ws : List Word) (part : Bool) (s : State) : Host.Outcome State Fault Refusal :=
  ok s (fun g d => d.spiWrite g true a.toNat ws part)

/-- The reply queue whose aperture an address lies in. -/
def apertureOf (a : Nat) : Option Nat :=
  if 0x1_4000 ≤ a ∧ a < 0x1_8000 ∧ a % 0x1000 < 0x800 then some ((a - 0x1_0000) / 0x1000) else none

/-- The queue whose region an address lies in. -/
def queueRegion (a : Nat) : Option Nat := if 0x1_0000 ≤ a ∧ a < 0x1_8000 then some ((a - 0x1_0000) / 0x1000) else none

/-- `n` words of an SPI read from address `a` on, after those already sent; it waits at an empty reply queue (R543). -/
def Dev.spiWords (d : Dev) (g : Grade) (path : Path) (a : Nat) (got : List Word) (marks : List EccMark) : Nat → Dev
  | 0 => d.readerGets (pathOrigin path) got
  | n + 1 =>
    let o := pathOrigin path
    match apertureOf a with
    | none =>
      let (d, v) := d.hostRead g path a
      Dev.spiWords (match queueRegion a with
        | some q => d.queueSeen path q
        | none => d) g path ((a + 4) % 2 ^ 32) (got ++ [W v]) marks n
    | some q =>
      let x := (d.hostSet o).queue q
      let d := d.queueSeen path q
      if x.words.isEmpty then
        d.putQueue o q { x with stall := some (min (n + 1) ((0x800 - a % 0x1000) / 4)), got := got }
      else
        let (y, w) := x.popOne (marks.headD .good)
        Dev.spiWords (d.putQueue o q y) g path (a + 4) (got ++ [w]) marks.tail n

/-- An SPI read (R542): 0x00 until the data are ready, then 0xA5 and the data words. -/
def Dev.spiRead (d : Dev) (g : Grade) (asked : Bool) (a n : Nat) (marks : List EccMark) : Dev :=
  if [4, 5, 6, 7].any (fun q => (d.host.spi.queue q).stall.isSome) then d
  else d.spiTransaction asked (fun d =>
    { d with host := { d.host with spiByte := 0 } }.spiWords g (.spi asked) (wordAddr a) [] marks n)

/-- Meaning of SPI_READ. -/
def execSpiRead (a : Word) (n : Nat) (marks : List EccMark) (s : State) : Host.Outcome State Fault Refusal :=
  ok s (fun g d => d.spiRead g false a.toNat n marks)

/-- Meaning of SPI_READ_PRIVILEGED. -/
def execSpiReadPrivileged (a : Word) (n : Nat) (marks : List EccMark) (s : State) : Host.Outcome State Fault Refusal :=
  ok s (fun g d => d.spiRead g true a.toNat n marks)

/-- The SPI status byte (R542). -/
def Dev.spiStatusByte (d : Dev) : Nat :=
  b2n ([4, 5, 6, 7].any (fun q => bitOf ((d.host.spi.queue q).stat q) 2)) + b2n (d.host.spiPend / 2 ^ 8 != 0) * 2 +
    b2n (d.b Reg.GLB_HOST_CFG_SPI_PRIV) * 4

/-- Meaning of SPI_STATUS: the byte is sent, and every pending trigger of the set is read (R541). -/
def execSpiStatus (s : State) : Host.Outcome State Fault Refusal :=
  ok s (fun _ d =>
    if !d.b Reg.GLB_HOST_CFG_SPI_EN then d
    else { d with host := { d.host with spiByte := d.spiStatusByte, spiPend := 0 } })

/-- Meaning of SPI_UNKNOWN_COMMAND. -/
def execSpiUnknownCommand (cmd : Byte) (s : State) : Host.Outcome State Fault Refusal :=
  ok s (fun _ d =>
    if !d.b Reg.GLB_HOST_CFG_SPI_EN || [0x02, 0x12, 0x0B, 0x1B, 0x05].contains cmd.toNat then d else d.unmapped)

/-- The land SPI_IRQ_n is low (R541). -/
def Dev.spiIrqLow (d : Dev) : Bool := d.host.spiPend / 16 != 0 || bitOf d.host.spiPend 1

/-! ### Device commands (R546, R547) -/

/-- The source is the backbone or a Hackney command port. -/
def notHostPath : Origin → Bool
  | .backbone _ _ _ => true
  | .hackney _ => true
  | _ => false

/-- The source is the backbone. -/
def fromBackbone : Origin → Bool
  | .backbone _ _ _ => true
  | _ => false

/-- Meaning of DEV_INFO. -/
def execDevInfo (p : Packet) (s : State) : Host.Outcome State Fault Refusal :=
  ok s (fun g d => d.runPacket g { opcode := 0x000, need := needN 0, replyLen := fun _ => 10, always := true } p (fun d _ =>
    (d, .ok ([identWord g 0, identWord g 1, identWord g 2] ++
      [d.r Reg.SEC_FW_VER, d.r Reg.SEC_CFG_VER, d.regWord 0xE0_0028, d.r Reg.SEC_SPS_VER]))))

/-- Meaning of DEV_ECHO. -/
def execDevEcho (p : Packet) (s : State) : Host.Outcome State Fault Refusal :=
  ok s (fun g d => d.runPacket g
    { opcode := 0x001, need := fun ps => if ps.length ≤ 1021 then none else some 0, replyLen := fun ps => 3 + ps.length } p
    (fun d ps => (d, .ok ps)))

/-- Meaning of DEV_HOST_STAT. -/
def execDevHostStat (p : Packet) (s : State) : Host.Outcome State Fault Refusal :=
  ok s (fun g d => d.runPacket g { opcode := 0x002, need := needN 0, replyLen := fun _ => 22 } p (fun d _ =>
    let h : HostSet := if notHostPath p.origin then {} else d.hostSet p.origin
    (d, .ok ([0x14, 0x18, 0x1C].map d.regWord ++
      (List.range 8).flatMap (fun q => [(h.queue q).stat q, (h.queue q).ecc])))))

/-- Meaning of DEV_NOTICE_CFG. -/
def execDevNoticeCfg (p : Packet) (s : State) : Host.Outcome State Fault Refusal :=
  ok s (fun g d => d.runPacket g { opcode := 0x003, plainOnly := notHostPath, need := needN 1 } p (fun d ps =>
    let v := ps.getD 0 0
    (d.setHostSet p.origin { d.hostSet p.origin with
      calNotice := bitOf v 0, healthNotice := bitOf v 1, commitDiv := v / 2 ^ 16, commitCnt := 0 }, .ok [])))

/-- The length rule of DEV_REMOTE: two words and a whole packet. -/
def needRemote (ps : List Nat) : Option Nat :=
  let len := ps.getD 2 0 % 2 ^ 16
  if len < 2 ∨ 1020 < len then some 0 else if ps.length = len + 2 then none else some (len + 4)

/-- Meaning of DEV_REMOTE (R546): the embedded packet travels in an envelope; the reply comes with the remote reply. -/
def execDevRemote (p : Packet) (s : State) : Host.Outcome State Fault Refusal :=
  let spec : CmdSpec := { opcode := 0x010, plainOnly := fromBackbone, need := needRemote }
  ok s (fun g d => d.runPacketW g spec p (fun d ps =>
    let i := ps.getD 0 0
    if 4096 ≤ i ∨ i = d.r Reg.TLB_DOMAIN_SELF ∨ d.r (Reg.TLB_PEER_STATE i) ≠ 2 then (d, some (.badParam 2))
    else if 1 < ps.getD 1 0 then (d, some (.badParam 3))
    else if 369 < ps.length then (d, some (.tooLong (Config.remoteReplyLen (ps.length - 2))))
    else
      let (d, q) := d.sendRequest i (ps.getD 1 0 == 1) false (p.params.drop 2)
      (d.wait spec p q i, none)))

/-- Meaning of DEV_REMOTE_TIMEOUT. -/
def execDevRemoteTimeout (s : State) : Host.Outcome State Fault Refusal := ok s (fun _ d => d.remoteTimeouts false)

/-- Meaning of DEV_HEALTH. -/
def execDevHealth (p : Packet) (s : State) : Host.Outcome State Fault Refusal :=
  ok s (fun g d => d.runPacket g { opcode := 0x020, need := needN 0, replyLen := fun _ => 6 } p (fun d _ =>
    (d, .ok [d.healthWord, loW (d.r Reg.EPK_NOW), hiW (d.r Reg.EPK_NOW)])))

/-- Vector 2 at a commit point (R539): every COMMIT_DIV-th one since DEV_NOTICE_CFG. -/
def HostSet.commitPoint (h : HostSet) : HostSet :=
  if h.commitDiv = 0 then h
  else if h.commitDiv ≤ h.commitCnt + 1 then { h with commitCnt := 0 }.trigger 2
  else { h with commitCnt := h.commitCnt + 1 }

/-- Vector 2 of both functions at a commit point. -/
def Dev.commitNotices (d : Dev) : Dev := (d.onFunction true HostSet.commitPoint).onFunction false HostSet.commitPoint

end Sys2Proof.Machine
end

