-- ==== Sys2Proof/Machine/Commit.lean ====
section
/-!
DEFINITION. Machine/Commit.lean: the epoch boundary, at which every block takes part: the commit point (R21, R35, R42) and the epoch
deadline (R22, R23).
-/
namespace Sys2Proof.Machine

/-- The epoch being executed commits at its end (R19, R20, R500, R504, R509): the device is locked, holds REIN, has left its boot
stages, waits for no re-step, and in a takeover has reached its first committed epoch. -/
def Dev.commits (d : Dev) : Bool :=
  d.ep.placed && d.locked && d.b Reg.PAIR_STAT_HOLDER && d.r Reg.GLB_BOOT_STAGE == 10 && !d.b Reg.EPK_STAT_RESTEP_WAIT &&
    (match d.r Reg.PAIR_STAT_STATE with
      | 0 => true
      | 2 => true
      | 4 => (d.pair.takeover.map (fun t => decide (t.first ≤ d.r Reg.EPK_NOW))).getD false
      | _ => false)

/-- What the first commit since the reset, or since the module last was a standby, brings with it (R573, R576). -/
def Dev.firstDone (d : Dev) (g : Grade) (was : Bool) : Dev := if was then d else d.firstCommit g

/-- Keep the values of the epoch that has become the front (R41, R43). -/
def Dev.keepFront (d : Dev) (n : Nat) : Dev :=
  if d.ep.front.valid && d.ep.front.epoch == n then
    let pos := (List.range 128).filterMap (fun a => if d.axisPos a = 0 then none else some (a, d.axisPos a))
    { d with ep := { d.ep with frontRegs := d.regs, frontPos := pos, frontFio := d.fieldValues } }
  else d

/-- Epoch `n` commits (R21, R35, R42, R48): the sources hand over, the image is built and shown, the trace row is written, the
partner is told. -/
def Dev.commitEpoch (d : Dev) (g : Grade) (n : Nat) : Dev :=
  let was := d.ep.committedOnce
  let d := (((d.pdkEpochEnd g).loopCommit.publishField.commitImage n).keepFront n).traceCommit n
  (((d.takeoverDone n).pairCommit g n).firstDone g was).commitNotices.pins

/-- What the sources have produced in an epoch that does not commit is dropped. -/
def Dev.dropEpoch (d : Dev) : Dev :=
  let pubs := d.ep.pubs.map (fun (p : LocalPub) => { p with produced := false, overran := false })
  let d := { d with ep := { d.ep with staged := [], overrunNow := false, pubs := pubs } }
  d.each (List.range 24) (fun t d => if (d.tx t).dem.isEmpty then d else d.setTx t { d.tx t with dem := [] })

/-- Epoch `n` ends without a commit: health records leave all the same (R495), and a confirmed handover releases REIN (R509). -/
def Dev.skipEpoch (d : Dev) (n : Nat) : Dev := ((d.dropEpoch.pairIdle n).handoverRelease)

/-- Epoch `n` begins: it is the epoch being executed, and the margin written for it takes effect (R20, R22). -/
def Dev.beginEpoch (d : Dev) (n : Nat) : Dev :=
  let d := d.w Reg.EPK_NOW n
  let d := if d.ep.lastCommitted < n then d.w Reg.EPK_STAT_RESTEP_WAIT 0 else d
  let d := { d with ep := { d.ep with
    placed := true, margin := d.ep.marginPending.getD d.ep.margin, marginPending := none, deadlinePassed := false,
    intakeClosed := false } }
  d.wb Reg.EPK_STAT_RUNNING d.commits

/-- A takeover reaches its rebase epoch with the snapshot restored (R504). -/
def Dev.rebaseRestore (d : Dev) (g : Grade) : Dev :=
  match d.pair.takeover with
  | some t => if t.rebase ≤ d.r Reg.EPK_NOW then d.restore g else d
  | none => d

/-- After a commit, what the committed epoch set takes effect at the boundary: the token of the field dies, the field outputs, caps
and stops, team demands (R21, R25, R482). -/
def Dev.applyCommit (d : Dev) : Dev := (d.commitToken.fieldBoundary.pdkCommit.teamsCommit)

/-- The loop engine at the boundary; a capture does not outlast its RUN (R152). -/
def Dev.loopStart (d : Dev) : Dev :=
  let was := d.loop.run
  let d := d.loopBoundary
  if was && !d.loop.run then d.trcDrop else d

/-- The engines at the boundary that begins epoch `n`; a module that takes over releases work from its first committed epoch on
(R420). -/
def Dev.enginesStart (d : Dev) (n : Nat) : Dev :=
  if d.enginesStill then d
  else
    let d := ((d.calendarBoundary.prfBoundary).traceBoundary n).loopStart
    if (d.pair.takeover.map (fun t => decide (n < t.first))).getD false then d else d.ostBoundary

/-- The boundary that begins epoch `n` (R21): sampling, set-points, trace frames and cyclic releases. -/
def Dev.boundary (d : Dev) (g : Grade) (n : Nat) (committed : Bool) : Dev :=
  let d := (d.beginEpoch n).rebaseRestore g
  let d := if committed then d.applyCommit else d.fieldSample
  ((d.senseBoundary.enginesStart n).ringBoundary).pins

/-- The first boundary not earlier than now (R18, R19, R87). -/
def Dev.firstEpoch (d : Dev) : Nat :=
  if d.nowNs < d.r Reg.EPK_ORIGIN then 0 else cdiv (d.nowNs - d.r Reg.EPK_ORIGIN) d.te

/-- COMMIT_POINT (R21): the next epoch boundary. The first one only places the epoch that starts; each later one ends an epoch,
which commits when it may. -/
def Dev.commitPoint (d : Dev) (g : Grade) : Dev :=
  if !d.locked ∨ d.r Reg.GLB_BOOT_STAGE < 9 ∨ d.r Reg.GLB_BOOT_FAIL_STAGE ≠ 0 then d
  else if !d.ep.placed then
    let n := d.firstEpoch
    (d.reach (d.countAt (d.r Reg.EPK_ORIGIN + n * d.te))).boundary g n false
  else
    let n := d.r Reg.EPK_NOW
    let d := d.reach (d.countAt (d.boundaryNs + d.te))
    if d.commits then (d.commitEpoch g n).boundary g (n + 1) true else (d.skipEpoch n).boundary g (n + 1) false

/-- Meaning of COMMIT_POINT. -/
def execCommitPoint (s : State) : Host.Outcome State Fault Refusal := ok s (fun g d => d.commitPoint g)

/-- EPOCH_DEADLINE (R22, R23): T_E − D after the boundary, each source that has not finished is an overrun. -/
def Dev.deadline (d : Dev) : Dev :=
  if !d.ep.placed ∨ d.ep.deadlinePassed then d
  else
    let d := d.reach (d.countAt (d.boundaryNs + d.te - d.ep.margin))
    let d := d.ringDeadline.loopDeadline.ostDeadline
    { d with ep := { d.ep with deadlinePassed := true } }

/-- Meaning of EPOCH_DEADLINE. -/
def execEpochDeadline (s : State) : Host.Outcome State Fault Refusal := ok s (fun _ d => d.deadline)

end Sys2Proof.Machine
end

