-- ==== Sys2Proof/Machine/HkCore.lean ====
section
/-!
DEFINITION. Machine/HkCore.lean: how a Hackney core issues an instruction (R369 … R386, R392 … R403): fetch, delay slots,
repeat bodies, interlocks, faults, interrupts and the core's address space. The instructions are in Machine/Hk….lean.
-/
namespace Sys2Proof.Machine

/-! ### Instruction words (R377) -/

def wordR3 (mop fn d a b : Nat) : Nat := mop + d * 2 ^ 6 + a * 2 ^ 11 + b * 2 ^ 16 + fn * 2 ^ 21
def wordRK (mop d a k : Nat) : Nat := mop + d * 2 ^ 6 + a * 2 ^ 11 + k * 2 ^ 16
def wordBR (mop a b k : Nat) : Nat := mop + a * 2 ^ 6 + b * 2 ^ 11 + k * 2 ^ 16
def wordJL (mop k : Nat) : Nat := mop + k * 2 ^ 6
def wordR4 (mop fn d a b c : Nat) : Nat := mop + d * 2 ^ 6 + a * 2 ^ 11 + b * 2 ^ 16 + c * 2 ^ 21 + fn * 2 ^ 26
/-- AC format; `rest` is bits [31:11]. -/
def wordAC (sub acc rest : Nat) : Nat := 0x38 + acc * 2 ^ 6 + sub * 2 ^ 8 + rest * 2 ^ 11
def wordCR (mop d a cr : Nat) : Nat := mop + d * 2 ^ 6 + a * 2 ^ 11 + cr * 2 ^ 16
/-- RP format with COUNT − 1 and LEN − 1. -/
def wordRP (a cnt len : Nat) : Nat := 0x31 + a * 2 ^ 6 + cnt * 2 ^ 11 + len * 2 ^ 21

/-- The word is an instruction of this chapter; anything else is ILLEGAL (R377). -/
def hkDefined (w : Nat) : Bool :=
  let fn := bits w 21 11
  let k := bits w 16 16
  match w % 64 with
  | 0x00 => [0x000, 0x001, 0x002, 0x003, 0x004, 0x008, 0x009, 0x00A, 0x010, 0x011, 0x018, 0x019, 0x01A, 0x020, 0x021,
      0x028, 0x029, 0x030].contains fn
  | 0x08 | 0x09 | 0x0A | 0x0B | 0x0C | 0x0D => true
  | 0x0E | 0x0F | 0x10 => decide (k < 32)
  | 0x18 | 0x19 | 0x1A | 0x1B | 0x1C | 0x1D | 0x1E | 0x1F => true
  | 0x20 | 0x21 => decide (k / 2 ^ 14 < 3) && k % 4 == 0
  | 0x22 => decide (fn < 4)
  | 0x28 | 0x29 | 0x2A | 0x2B | 0x2C | 0x2D | 0x2E | 0x2F => true
  | 0x30 => decide (fn < 2)
  | 0x31 => decide (w < 2 ^ 26)
  | 0x34 => [0x000, 0x001, 0x002, 0x003, 0x008, 0x009, 0x00C, 0x00D, 0x010, 0x011, 0x012, 0x018, 0x019, 0x01A].contains fn ||
      (fn == 0x004 && bits w 16 5 == 0)
  | 0x35 => decide (w / 2 ^ 26 < 3)
  | 0x38 =>
    match bits w 8 3 with
    | 0 | 1 | 2 => decide (w < 2 ^ 21)
    | 3 => decide (w < 2 ^ 11)
    | 4 => decide (w < 2 ^ 26) && bits w 21 2 != 3 && bits w 23 2 != 3
    | 5 => decide (w < 2 ^ 23) && bits w 21 2 != 3
    | 6 => decide (w < 2 ^ 22) && decide (bits w 16 6 ≤ 55)
    | _ => decide (w < 2 ^ 19) && decide (bits w 16 3 < 4)
  | 0x3C => [0x010, 0x011, 0x012, 0x013, 0x014, 0x015, 0x01F].contains fn
  | 0x3D | 0x3E => true
  | _ => false

/-! ### Registers (R376, R386) -/

/-- A general register, a word; h0 reads 0. -/
def HkCore.reg (k : HkCore) (r : Nat) : Nat := if r = 0 then 0 else Tab.look 0 r k.regs % 2 ^ 32

/-- Write a general register; h0 ignores writes. -/
def HkCore.put (k : HkCore) (r v : Nat) : HkCore :=
  if r = 0 then k else { k with regs := Tab.put r (v % 2 ^ 32) k.regs }

/-- Write a result that is ready `n` cycles after the issue at cycle `t`. -/
def HkCore.result (k : HkCore) (t n r v : Nat) : HkCore :=
  if r = 0 then k else { k.put r v with ready := Tab.put r (t + n) k.ready }

/-- An accumulator. -/
def HkCore.accum (k : HkCore) (i : Nat) : Int := Tab.look 0 i k.acc

/-- The load of the instruction before becomes visible (R385). -/
def HkCore.takeLoad (k : HkCore) : HkCore :=
  match k.ldPend with
  | some (r, v) => { k.put r v with ldPend := none }
  | none => k

/-- Set sticky flags of FSTAT. -/
def HkCore.flags (k : HkCore) (m : Nat) : HkCore := { k with fstat := k.fstat ||| m }

/-! ### Faults (R402) -/

/-- HK_ITEM_FAULT (R402): the item ends, with cause, PC and data address recorded. -/
def Dev.hkFault (d : Dev) (c cause addr : Nat) : Dev :=
  let k := d.core c
  let d := ((d.w (Reg.HK_FAULT_CAUSE c) cause).w (Reg.HK_FAULT_DESC c) k.item).w (Reg.HK_FAULT_PC c) k.pc
  ((d.w (Reg.HK_FAULT_ADDR c) addr).inc (Reg.HK_FAULT_CNT c)).ostEnd c 2 cause

/-! ### Issue (R377, R384 … R386, R393, R397) -/

/-- An interrupt is pending and enabled (R396). -/
def HkCore.irq (k : HkCore) : Bool := k.gie && (k.ien &&& k.ipend) % 16 != 0

/-- The core stands at an interrupt boundary (R397, R398). -/
def HkCore.atBoundary (k : HkCore) : Bool := k.slot == 0 && k.ldPend.isNone && k.rep.isNone && !k.afterRti

/-- Note when an enabled interrupt became pending. -/
def HkCore.notePend (k : HkCore) : HkCore :=
  { k with pendSince := if k.irq then some (k.pendSince.getD k.cycle) else none }

/-- What an instruction asks of the core before it can issue: its word and the bits of it that are decoded, the registers
and accumulators it waits for, whether it is a load, a branch, jump, REP, EXIT, RTI or WAIT, or uses the divide unit. -/
structure HkWant where
  word : Nat
  mask : Nat := 0xFFFF_FFFF
  srcs : List Nat := []
  accs : List Nat := []
  load : Bool := false
  flow : Bool := false
  divide : Bool := false
deriving DecidableEq, Repr

/-- What an instruction does: it faults, it waits and has not issued, it is not the instruction of this row, or it goes on
with this core and stalls for some cycles. -/
inductive HkRes where
  | fault (cause addr : Nat)
  | stay
  | other
  | go (k : HkCore) (stall : Nat) (d : Dev)

/-- The cycle in which the instruction issues: that of the core, or the one in which its operands and the divide unit are
ready (R386). -/
def HkCore.issueAt (k : HkCore) (w : HkWant) : Nat :=
  let t1 := (w.srcs.map (fun r => if r = 0 then 0 else Tab.look 0 r k.ready)).foldl max k.cycle
  let t2 := (w.accs.map (fun a => Tab.look 0 a k.accReady)).foldl max t1
  if w.divide then max t2 k.fpuFree else t2

/-- The core after an instruction at `pc` that issued in cycle `t` (R384, R385, R392): the program counter, delay slots
and repeat block step on. `old` is the core before it. -/
def HkCore.advance (k old : HkCore) (t stall : Nat) (load : Bool) : HkCore :=
  let k := { k with cycle := t + 1 + stall }
  let k := match old.rep with
    | some r =>
      let k := { k with chain := 0 }
      if old.pc = r.start + 4 * (r.len - 1) then
        if 1 < r.left then { k with pc := r.start, rep := some { r with left := r.left - 1 } }
        else { k with pc := old.pc + 4, rep := none }
      else { k with pc := old.pc + 4 }
    | none =>
      let k := { k with chain := if load then old.chain + 1 else 0 }
      if k.slot = 0 then { k with pc := old.pc + 4 }
      else if k.slot = 1 then { k with pc := k.target, slot := 0 }
      else { k with pc := old.pc + 4, slot := k.slot - 1 }
  k.notePend

/-- Show a running core in its registers, and bring the timebase to its cycle. -/
def Dev.showCore (d : Dev) (c : Nat) : Dev :=
  let k := d.core c
  let d := ((d.w (Reg.HK_PC c) k.pc).wb (Reg.HK_STAT_IN_REP c) k.rep.isSome).wb (Reg.HK_STAT_IN_HANDLER c) k.inHandler
  d.reach (k.startC + k.cycle)

/-- A core issues the instruction at its program counter (R377 … R386, R393, R403). `body` gets the core as the instruction
reads it, the core it writes to (in which an earlier load has become visible), the cycle of issue and the device. An
instruction that is not the one at the program counter, or that cannot issue yet, changes nothing. -/
def Dev.hkIssue (d : Dev) (x : HkIssue) (w : HkWant) (body : HkCore → HkCore → Nat → Dev → HkRes) : Dev :=
  let c := x.core.val
  let k := d.core c
  if d.r (Reg.HK_STAT_STATE c) ≠ 1 ∨ k.waiting ≠ .none then d
  else if k.irq && k.atBoundary then d
  else if 0x1_0000 ≤ k.pc then d.hkFault c 3 0
  else if k.pc % 4 ≠ 0 then d.hkFault c 2 0
  else if x.fetch = .uncorr then (d.inc (Reg.HK_ECC_CNT_UNCORR c)).hkFault c 7 0
  else if Mem.word k.imem k.pc &&& w.mask ≠ w.word &&& w.mask then d
  else
    let d := if x.fetch = .corr then d.inc (Reg.HK_ECC_CNT_CORR c) else d
    if w.flow && (k.slot != 0 || k.rep.isSome) then d.hkFault c 1 0
    else if w.load && k.rep.isNone && decide (8 ≤ k.chain) then d.hkFault c 6 0
    else
      let t := k.issueAt w
      if k.rep.isSome ∧ k.cycle < t then d.hkFault c 4 0
      else
        let d := d.drainTo c t
        let k := d.core c
        match body k { k.takeLoad with afterRti := false } t d with
        | .fault cause addr =>
          (if cause = 7 then d.inc (Reg.HK_ECC_CNT_UNCORR c) else d).hkFault c cause addr
        | .other => d
        | .stay => if k.rep.isSome then d.hkFault c 4 0 else d
        | .go k1 stall d1 =>
          if k.rep.isSome ∧ 0 < stall then d.hkFault c 4 0
          else (d1.setCore c (k1.advance k t stall w.load)).showCore c

/-- An instruction that only writes a register, ready `n` cycles after its issue. -/
def Dev.hkAlu (d : Dev) (x : HkIssue) (w : HkWant) (n rd : Nat) (f : HkCore → Nat) : Dev :=
  d.hkIssue x w (fun k k1 t d => .go (k1.result t n rd (f k)) 0 d)

/-- ILLEGAL_INSTRUCTION (R377): the word at the program counter is none of this chapter. -/
def Dev.hkIllegal (d : Dev) (x : HkIssue) : Dev :=
  let w := Mem.word (d.core x.core.val).imem (d.core x.core.val).pc
  if hkDefined w then d else d.hkIssue x { word := w } (fun _ _ _ _ => .fault 1 0)

/-- Meaning of ILLEGAL_INSTRUCTION. -/
def execIllegalInstruction (x : HkIssue) (s : State) : Host.Outcome State Fault Refusal := ok s (fun _ d => d.hkIllegal x)

/-! ### The address space (R370, R371, R374, R404) -/

/-- The regions of R370 that data accesses reach. -/
inductive HkRegion where
  | dmem
  | swm
  | image
  | staging
  | port
  | none
deriving DecidableEq, Repr

/-- The region of an address. -/
def hkRegion (a : Nat) : HkRegion :=
  if 0x0001_0000 ≤ a ∧ a < 0x0003_0000 then .dmem
  else if 0x1000_0000 ≤ a ∧ a < 0x10C0_0000 then .swm
  else if 0x2000_0000 ≤ a ∧ a < 0x2020_0000 then .image
  else if 0x3000_0000 ≤ a ∧ a < 0x3010_0000 then .staging
  else if 0x4000_0000 ≤ a ∧ a < 0x4000_0010 then .port
  else .none

/-- A staging signal lies in a publication of the running item (R371). -/
def HkCore.stagingOpen (k : HkCore) (a : Nat) : Bool :=
  let s := (a - 0x3000_0000) / 4
  k.pubs.any (fun p => decide (p.1 ≤ s ∧ s < p.1 + p.2))

/-- What a load or store of `n` bytes at `a` faults with, if it does (R371). -/
def HkCore.accessFault (k : HkCore) (a n : Nat) (store atomic : Bool) : Option Nat :=
  let r := hkRegion a
  if r = .none ∨ (store ∧ r = .image) ∨ (atomic ∧ r ≠ .swm) ∨ (r = .port ∧ n ≠ 4) ∨
      (store ∧ r = .staging ∧ ¬ k.stagingOpen a) then some 3
  else if a % n ≠ 0 then some 2
  else none

/-- The latency of the next access to shared work memory, 12 … 96 cycles (R374). -/
def Dev.swmDelay (d : Dev) : Dev × Nat :=
  ({ d with hk := { d.hk with accesses := d.hk.accesses + 1 } }, 12 + Config.swmLatency d.hk.accesses % 85)

/-- The word of CQ_STAT (R404); AVAIL counts replies of which no word has been popped. -/
def Dev.cqStat (d : Dev) (c : Nat) : Nat :=
  let n := (Tab.look [] c d.host.hkReplies).length
  b2n (decide (1024 ≤ (d.core c).cmdq.length)) + b2n (d.core c).cqOverrun * 2 + b2n (decide ((d.core c).popLeft < n)) * 4 + min n 255 * 2 ^ 8

/-- The value and the stall of a load of `n` bytes at `a`, which does not fault; CQ_POP apart. -/
def Dev.hkLoad (d : Dev) (c : Nat) (k : HkCore) (a n : Nat) : Dev × Nat × Nat :=
  match hkRegion a with
  | .dmem => (d, Mem.read k.dmem (a - 0x0001_0000) n, 0)
  | .swm =>
    let off := a - 0x1000_0000
    let m := k.buffer.foldl (fun m s =>
      if 0x1000_0000 ≤ s.addr ∧ s.addr < 0x10C0_0000 then Mem.write m (s.addr - 0x1000_0000) s.size s.val else m) d.hk.swm
    let (d, t) := d.swmDelay
    (d, if d.inSagePart off then 0 else Mem.read m off n, t)
  | .image =>
    let off := a - 0x2000_0000
    (d, bits (({ d with ep := { d.ep with front := d.ep.newest } }).imageWord (off / 4 * 4)) (8 * (off % 4)) (8 * n), 10)
  | .staging =>
    let off := a - 0x3000_0000
    (d, if k.stagingOpen a then Mem.read k.staging off n else Config.stagingIdle (off / 4) / 2 ^ (8 * (off % 4)) % 2 ^ (8 * n), 10)
  | .port => (d, if a = 0x4000_0008 then d.cqStat c else 0, 10)
  | .none => (d, 0, 0)

/-- A store of `n` bytes at `a`, which does not fault: at once in DMEM, through the buffer elsewhere. -/
def Dev.hkStore (d : Dev) (k : HkCore) (t a n v : Nat) : HkRes :=
  if hkRegion a = .dmem then .go { k with dmem := Mem.write k.dmem (a - 0x0001_0000) n v } 0 d
  else if 4 ≤ k.buffer.length then .stay
  else
    let (d, lat) := if hkRegion a = .swm then d.swmDelay else (d, 10)
    let due := max k.lastDue (t + lat)
    let k := if hkRegion a = .staging then { k with staging := Mem.write k.staging (a - 0x3000_0000) n v } else k
    .go { k with buffer := k.buffer ++ [⟨a, n, v % 2 ^ (8 * n), due⟩], lastDue := due } 0 d

/-- Post-modification of a pointer by a byte step through modulo descriptor `mb` (R381): the new pointer and MOD_OUT, or
none where it is ILLEGAL. -/
def HkCore.stepPtr (k : HkCore) (mb p : Nat) (step : Int) : Option (Nat × Bool) :=
  let base := Tab.look 0 mb k.mbBase
  let len := Tab.look 0 mb k.mbLen
  let plain := un 32 ((p : Int) + step)
  if mb = 0 ∨ len = 0 then some (plain, false)
  else if len < step.natAbs ∨ base % 4 ≠ 0 ∨ len % 4 ≠ 0 then none
  else if p < base ∨ base + len ≤ p then some (plain, true)
  else
    let q := (p : Int) + step
    let q := if (base + len : Nat) ≤ q then q - len else if q < base then q + len else q
    some (un 32 q, false)

/-- Bits 8 … 15 of FSTAT flags: NV, DZ, OF, UF, NX in R395's places. -/
def fpMask (f : FpFlags) : Nat :=
  b2n f.invalid + b2n f.divZero * 2 + b2n f.overflow * 4 + b2n f.underflow * 8 + b2n f.inexact * 16

end Sys2Proof.Machine
end

