-- ==== Sys2Proof/Machine/HkFloat.lean ====
section
/-!
DEFINITION. Machine/HkFloat.lean: the binary32 operations of the Hackney cores (R387, R388).
-/
namespace Sys2Proof.Machine

/-- A binary32 operation with latency `n` (R386) whose flags are sticky in FSTAT (R387). -/
def hkFp (x : HkIssue) (w : HkWant) (n : Nat) (d : Fin 32) (f : HkCore → Nat × FpFlags) (s : State) :
    Host.Outcome State Fault Refusal :=
  ok s (fun _ dv => dv.hkIssue x w (fun k k1 t dv =>
    let r := f k
    let k2 := (k1.result t n d.val r.1).flags (fpMask r.2)
    .go (if w.divide then { k2 with fpuFree := t + n } else k2) 0 dv))

/-- A binary32 operation on a and b. -/
def hkFp2 (x : HkIssue) (fn n : Nat) (d a b : Fin 32) (f : Nat → Nat → Nat × FpFlags) (s : State) :
    Host.Outcome State Fault Refusal :=
  hkFp x { word := wordR3 0x34 fn d.val a.val b.val, srcs := [a.val, b.val], divide := fn == 0x003 } n d
    (fun k => f (k.reg a.val) (k.reg b.val)) s

/-- A binary32 operation on a alone; field b is not decoded. -/
def hkFp1 (x : HkIssue) (fn : Nat) (d a : Fin 32) (f : Nat → Nat × FpFlags) (s : State) :
    Host.Outcome State Fault Refusal :=
  hkFp x { word := wordR3 0x34 fn d.val a.val 0, mask := 0xFFE0_FFFF, srcs := [a.val] } 4 d (fun k => f (k.reg a.val)) s

/-- A fused operation, rounded once (R388). -/
def hkFused (x : HkIssue) (fn : Nat) (d a b c : Fin 32) (f : Nat → Nat → Nat → Nat × FpFlags) (s : State) :
    Host.Outcome State Fault Refusal :=
  hkFp x { word := wordR4 0x35 fn d.val a.val b.val c.val, srcs := [a.val, b.val, c.val] } 4 d
    (fun k => f (k.reg a.val) (k.reg b.val) (k.reg c.val)) s

/-- FMIN and FMAX (R387): −0 lies below +0, the other operand when exactly one is NaN. -/
def fpPick (max' : Bool) (a b : Nat) : Nat × FpFlags :=
  if f32.isNan a && f32.isNan b then (f32.nanBits, {})
  else if f32.isNan a then (b, {})
  else if f32.isNan b then (a, {})
  else
    let less := match f32.cmp a b with
      | some .lt => true
      | some .gt => false
      | _ => bitOf a 31
    (if less == max' then b else a, {})

/-- A comparison that gives 1 or 0; a NaN operand gives 0, with NV when `sig` (R387). -/
def fpTest (sig : Bool) (f : Nat → Nat → Bool) (a b : Nat) : Nat × FpFlags :=
  if f32.isNan a || f32.isNan b then (0, { invalid := sig }) else (b2n (f a b), {})

/-- Conversion to int32 (R388): saturated with NV out of range, 0 with NV for a NaN. -/
def fpToInt (near : Bool) (a : Nat) : Nat × FpFlags :=
  match f32.dec a with
  | .nan _ => (0, { invalid := true })
  | .inf neg => (if neg then 2 ^ 31 else 2 ^ 31 - 1, { invalid := true })
  | .fin neg _ _ =>
    let z := if near then (f32.nearScaled a 0).getD 0
      else if neg then -((f32.floorScaled (f32.abs a) 0).getD 0) else (f32.floorScaled a 0).getD 0
    if z < -(2 ^ 31) ∨ (2 ^ 31 : Int) ≤ z then (un 32 (satS 32 z), { invalid := true })
    else (un 32 z, { inexact := f32.cmp (f32.ofInt z).1 a != some .eq })

def execFadd (x : HkIssue) (d a b : Fin 32) (s : State) : Host.Outcome State Fault Refusal :=
  hkFp2 x 0x000 4 d a b f32.add s
def execFsub (x : HkIssue) (d a b : Fin 32) (s : State) : Host.Outcome State Fault Refusal :=
  hkFp2 x 0x001 4 d a b f32.sub s
def execFmul (x : HkIssue) (d a b : Fin 32) (s : State) : Host.Outcome State Fault Refusal :=
  hkFp2 x 0x002 4 d a b f32.mul s
def execFdiv (x : HkIssue) (d a b : Fin 32) (s : State) : Host.Outcome State Fault Refusal :=
  hkFp2 x 0x003 14 d a b f32.div s
/-- FSQRT: field b must be h0. -/
def execFsqrt (x : HkIssue) (d a : Fin 32) (s : State) : Host.Outcome State Fault Refusal :=
  hkFp x { word := wordR3 0x34 0x004 d.val a.val 0, srcs := [a.val], divide := true } 16 d (fun k => f32.sqrt (k.reg a.val)) s
def execFmin (x : HkIssue) (d a b : Fin 32) (s : State) : Host.Outcome State Fault Refusal :=
  hkFp2 x 0x008 4 d a b (fpPick false) s
def execFmax (x : HkIssue) (d a b : Fin 32) (s : State) : Host.Outcome State Fault Refusal :=
  hkFp2 x 0x009 4 d a b (fpPick true) s
def execFabs (x : HkIssue) (d a : Fin 32) (s : State) : Host.Outcome State Fault Refusal :=
  hkFp1 x 0x00C d a (fun p => (f32.abs p, {})) s
def execFneg (x : HkIssue) (d a : Fin 32) (s : State) : Host.Outcome State Fault Refusal :=
  hkFp1 x 0x00D d a (fun p => (f32.neg p, {})) s
def execFceq (x : HkIssue) (d a b : Fin 32) (s : State) : Host.Outcome State Fault Refusal :=
  hkFp2 x 0x010 4 d a b (fpTest false (fun p q => f32.cmp p q == some .eq)) s
def execFclt (x : HkIssue) (d a b : Fin 32) (s : State) : Host.Outcome State Fault Refusal :=
  hkFp2 x 0x011 4 d a b (fpTest true f32.lt) s
def execFcle (x : HkIssue) (d a b : Fin 32) (s : State) : Host.Outcome State Fault Refusal :=
  hkFp2 x 0x012 4 d a b (fpTest true f32.le) s
def execFtoi (x : HkIssue) (d a : Fin 32) (s : State) : Host.Outcome State Fault Refusal :=
  hkFp1 x 0x018 d a (fpToInt false) s
def execFtoin (x : HkIssue) (d a : Fin 32) (s : State) : Host.Outcome State Fault Refusal :=
  hkFp1 x 0x019 d a (fpToInt true) s
def execItof (x : HkIssue) (d a : Fin 32) (s : State) : Host.Outcome State Fault Refusal :=
  hkFp1 x 0x01A d a (fun p => f32.ofInt (sx 32 p)) s
def execFma (x : HkIssue) (d a b c : Fin 32) (s : State) : Host.Outcome State Fault Refusal :=
  hkFused x 0 d a b c (fun p q r => f32.fma p q r) s
def execFms (x : HkIssue) (d a b c : Fin 32) (s : State) : Host.Outcome State Fault Refusal :=
  hkFused x 1 d a b c (fun p q r => f32.fma p q (f32.neg r)) s
def execFnma (x : HkIssue) (d a b c : Fin 32) (s : State) : Host.Outcome State Fault Refusal :=
  hkFused x 2 d a b c (fun p q r => f32.fma (f32.neg p) q r) s

end Sys2Proof.Machine
end

