-- ==== Sys2Proof/Machine/HkMem.lean ====
section
/-!
DEFINITION. Machine/HkMem.lean: loads, stores, pointer forms and atomics of the Hackney cores (R380 … R382), and the
command port (R404).
-/
namespace Sys2Proof.Machine

/-- The next word of the replies that wait at a core's command port leaves it (R404). -/
def Dev.popPort (d : Dev) (c : Nat) : Dev × Option Nat :=
  match Tab.look [] c d.host.hkReplies with
  | [] => (d, none)
  | w :: r =>
    let k := d.core c
    let left := if k.popLeft = 0 then w.toNat % 2 ^ 16 - 1 else k.popLeft - 1
    (({ d with host := { d.host with hkReplies := Tab.put c r d.host.hkReplies } }).setCore c { k with popLeft := left },
      some w.toNat)

/-- A corrected or uncorrectable word of DMEM read at `a` (R403): the corrected ones are counted here, the others where they
fault. -/
def Dev.dataEcc (d : Dev) (x : HkIssue) (a : Nat) : Dev × Bool :=
  if hkRegion a ≠ .dmem then (d, false)
  else match x.data with
    | .good => (d, false)
    | .corr => (d.inc (Reg.HK_ECC_CNT_CORR x.core.val), false)
    | .uncorr => (d, true)

/-- A load of `n` bytes at `a` into `rd` (R371, R374, R380, R385, R403, R404), after which register `ra` holds `ptr` (h0 for
a form that steps no pointer). -/
def Dev.doLoad (d : Dev) (x : HkIssue) (k k1 : HkCore) (t a n : Nat) (sign : Bool) (rd ra ptr : Nat) : HkRes :=
  let c := x.core.val
  match k.accessFault a n false false with
  | some cause => .fault cause a
  | none =>
    let (d, bad) := d.dataEcc x a
    let step (k1 : HkCore) : HkCore := k1.result t 1 ra ptr
    if bad then .fault 7 a
    else if a = 0x4000_0004 then
      if k.rep.isSome then .fault 4 a
      else match d.popPort c with
        | (d, some v) =>
          .go { step { k1 with popLeft := (d.core c).popLeft } with ldPend := some (rd, v) } 10 d
        | (d, none) =>
          if k.slot ≠ 0 ∨ k.ldPend.isSome then .fault 9 a
          else .go { k1 with waiting := .pop rd ra ptr } 10 (d.w (Reg.HK_STAT_STATE c) 2)
    else
      let (d, v, stall) := d.hkLoad c k a n
      let v := if sign then un 32 (sx (8 * n) v) else v
      .go { step k1 with ldPend := some (rd, v) } stall d

/-- A load in the RK format with a displacement. -/
def hkLd (x : HkIssue) (mop n : Nat) (sign : Bool) (d a : Fin 32) (k16 : BitVec 16) (s : State) :
    Host.Outcome State Fault Refusal :=
  ok s (fun _ dv => dv.hkIssue x { word := wordRK mop d.val a.val k16.toNat, srcs := [a.val], load := true }
    (fun k k1 t dv => dv.doLoad x k k1 t (un 32 ((k.reg a.val : Int) + sx 16 k16.toNat)) n sign d.val 0 0))

/-- A store of `n` bytes of `v` at `a`, after which register `ra` holds `ptr` (R371, R374, R380). -/
def Dev.doStore (d : Dev) (k k1 : HkCore) (t a n v ra ptr : Nat) : HkRes :=
  match k.accessFault a n true false with
  | some cause => .fault cause a
  | none => d.hkStore (k1.result t 1 ra ptr) t a n v

/-- A store in the RK format with a displacement. -/
def hkSt (x : HkIssue) (mop n : Nat) (d a : Fin 32) (k16 : BitVec 16) (s : State) : Host.Outcome State Fault Refusal :=
  ok s (fun _ dv => dv.hkIssue x { word := wordRK mop d.val a.val k16.toNat, srcs := [a.val, d.val] }
    (fun k k1 t dv => dv.doStore k k1 t (un 32 ((k.reg a.val : Int) + sx 16 k16.toNat)) n (k.reg d.val) 0 0))

/-- A pointer form: modulo descriptor `mb` (0 none, 1 MB0, 2 MB1) and signed step of `step` words (R380, R381). -/
def hkPtr (x : HkIssue) (mop : Nat) (load : Bool) (d a : Fin 32) (mb : Fin 3) (step : BitVec 12) (s : State) :
    Host.Outcome State Fault Refusal :=
  let k16 := mb.val * 2 ^ 14 + step.toNat * 4
  ok s (fun _ dv => dv.hkIssue x
    { word := wordRK mop d.val a.val k16, srcs := if load then [a.val] else [a.val, d.val], load := load }
    (fun k k1 t dv =>
      let p := k.reg a.val
      match k.stepPtr mb.val p (4 * sx 12 step.toNat) with
      | none => .fault 1 0
      | some (q, out) =>
        let k1 := if out then k1.flags 0x40 else k1
        if load then dv.doLoad x k k1 t p 4 false d.val a.val q else dv.doStore k k1 t p 4 (k.reg d.val) a.val q))

/-- ATOM with function `fn` (R382): the word at a goes to d and f(old, b) is written back, after every earlier store of
the core. -/
def hkAtom (x : HkIssue) (fn : Nat) (d a b : Fin 32) (f : Nat → Nat → Nat) (s : State) : Host.Outcome State Fault Refusal :=
  ok s (fun _ dv => dv.hkIssue x
    { word := wordR3 0x22 fn d.val a.val b.val, srcs := [a.val, b.val], load := true }
    (fun k k1 _ dv =>
      let c := x.core.val
      let p := k.reg a.val
      match k.accessFault p 4 false true with
      | some cause => .fault cause p
      | none =>
        let dv := dv.drainAll c
        let (dv, lat) := dv.swmDelay
        let off := p - 0x1000_0000
        let k2 := { k1 with buffer := [], cmdq := (dv.core c).cmdq, cqOverrun := (dv.core c).cqOverrun }
        if dv.inSagePart off then .go { k2 with ldPend := some (d.val, 0) } lat (dv.inc (Reg.HK_SWM_IGN c))
        else
          let old := Mem.word dv.hk.swm off
          .go { k2 with ldPend := some (d.val, old) } lat
            { dv with hk := { dv.hk with swm := Mem.putWord dv.hk.swm off (f old (k.reg b.val) % 2 ^ 32) } }))

def execLdW (x : HkIssue) (d a : Fin 32) (k : BitVec 16) (s : State) : Host.Outcome State Fault Refusal :=
  hkLd x 0x18 4 false d a k s
def execLdH (x : HkIssue) (d a : Fin 32) (k : BitVec 16) (s : State) : Host.Outcome State Fault Refusal :=
  hkLd x 0x19 2 true d a k s
def execLdHu (x : HkIssue) (d a : Fin 32) (k : BitVec 16) (s : State) : Host.Outcome State Fault Refusal :=
  hkLd x 0x1A 2 false d a k s
def execLdB (x : HkIssue) (d a : Fin 32) (k : BitVec 16) (s : State) : Host.Outcome State Fault Refusal :=
  hkLd x 0x1B 1 true d a k s
def execLdBu (x : HkIssue) (d a : Fin 32) (k : BitVec 16) (s : State) : Host.Outcome State Fault Refusal :=
  hkLd x 0x1C 1 false d a k s
def execStW (x : HkIssue) (d a : Fin 32) (k : BitVec 16) (s : State) : Host.Outcome State Fault Refusal :=
  hkSt x 0x1D 4 d a k s
def execStH (x : HkIssue) (d a : Fin 32) (k : BitVec 16) (s : State) : Host.Outcome State Fault Refusal :=
  hkSt x 0x1E 2 d a k s
def execStB (x : HkIssue) (d a : Fin 32) (k : BitVec 16) (s : State) : Host.Outcome State Fault Refusal :=
  hkSt x 0x1F 1 d a k s
def execLdWp (x : HkIssue) (d a : Fin 32) (mb : Fin 3) (step : BitVec 12) (s : State) :
    Host.Outcome State Fault Refusal := hkPtr x 0x20 true d a mb step s
def execStWp (x : HkIssue) (d a : Fin 32) (mb : Fin 3) (step : BitVec 12) (s : State) :
    Host.Outcome State Fault Refusal := hkPtr x 0x21 false d a mb step s
def execAtomSwap (x : HkIssue) (d a b : Fin 32) (s : State) : Host.Outcome State Fault Refusal :=
  hkAtom x 0 d a b (fun _ q => q) s
def execAtomAdd (x : HkIssue) (d a b : Fin 32) (s : State) : Host.Outcome State Fault Refusal :=
  hkAtom x 1 d a b (fun p q => p + q) s
def execAtomOr (x : HkIssue) (d a b : Fin 32) (s : State) : Host.Outcome State Fault Refusal :=
  hkAtom x 2 d a b (fun p q => p ||| q) s
def execAtomAnd (x : HkIssue) (d a b : Fin 32) (s : State) : Host.Outcome State Fault Refusal :=
  hkAtom x 3 d a b (fun p q => p &&& q) s

/-- HK_CQ_PUSH (R404): the ST.W of this row stores to CQ_PUSH. -/
def execHkCqPush (x : HkIssue) (d a : Fin 32) (k : BitVec 16) (s : State) : Host.Outcome State Fault Refusal :=
  ok s (fun _ dv => dv.hkIssue x { word := wordRK 0x1D d.val a.val k.toNat, srcs := [a.val, d.val] }
    (fun c c1 t dv =>
      if un 32 ((c.reg a.val : Int) + sx 16 k.toNat) = 0x4000_0000 then dv.doStore c c1 t 0x4000_0000 4 (c.reg d.val) 0 0
      else .other))

/-- HK_CQ_POP (R404): the LD.W of this row loads CQ_POP. -/
def execHkCqPop (x : HkIssue) (d a : Fin 32) (k : BitVec 16) (s : State) : Host.Outcome State Fault Refusal :=
  ok s (fun _ dv => dv.hkIssue x { word := wordRK 0x18 d.val a.val k.toNat, srcs := [a.val], load := true }
    (fun c c1 t dv =>
      if un 32 ((c.reg a.val : Int) + sx 16 k.toNat) = 0x4000_0004 then dv.doLoad x c c1 t 0x4000_0004 4 false d.val 0 0
      else .other))

/-- CQ_POP_WORD_ARRIVE (R404): a reply word has arrived and ends the stalled CQ_POP, whose load then completes. -/
def Dev.popArrive (d : Dev) (c : Nat) : Dev :=
  match (d.core c).waiting with
  | .pop rd ra ptr =>
    match d.popPort c with
    | (d, some v) =>
      let k := d.core c
      let t := max k.cycle (d.time.c - k.startC)
      let k := { (k.result t 0 ra ptr) with waiting := .none, cycle := t, ldPend := some (rd, v) }
      ((d.setCore c k).w (Reg.HK_STAT_STATE c) 1).showCore c
    | (_, none) => d
  | _ => d

/-- Meaning of CQ_POP_WORD_ARRIVE. -/
def execCqPopWordArrive (core : Fin 16) (s : State) : Host.Outcome State Fault Refusal :=
  ok s (fun _ d => d.popArrive core.val)

/-- STORE_BUFFER_DRAIN (R374): the oldest store in the buffer of a core completes at its cycle and frees its entry. -/
def Dev.bufferDrain (d : Dev) (c : Nat) : Dev :=
  match (d.core c).buffer with
  | [] => d
  | b :: r =>
    let k := d.core c
    ((d.setCore c { k with buffer := r, cycle := max k.cycle b.due }).completeStore c b).showCore c

/-- Meaning of STORE_BUFFER_DRAIN. -/
def execStoreBufferDrain (core : Fin 16) (s : State) : Host.Outcome State Fault Refusal :=
  ok s (fun _ d => d.bufferDrain core.val)

/-- Meaning of HK_CORE_READ. -/
def execHkCoreRead (p : Packet) (s : State) : Host.Outcome State Fault Refusal :=
  ok s (fun g d => d.runPacket g { opcode := 0xA40, need := needN 1, replyLen := fun _ => 15 } p (fun d ps =>
    let c := ps.getD 0 0
    if 16 ≤ c then (d, .badParam 2)
    else (d, .ok ((List.range 12).map (fun i => d.regWord (0xA0_C000 + 0x100 * c + 4 * i))))))

/-- Meaning of HK_MEM_READ (R405, R406); `bad` is the number of words of the range with uncorrectable errors. -/
def execHkMemRead (p : Packet) (bad : Nat) (s : State) : Host.Outcome State Fault Refusal :=
  ok s (fun g d => d.runPacket g
    { opcode := 0xA41, priv := true, need := needN 4, replyLen := fun ps => 3 + ps.getD 3 0 } p (fun d ps =>
    let c := ps.getD 0 0
    let sp := ps.getD 1 0
    let off := ps.getD 2 0
    let n := ps.getD 3 0
    let size := if sp = 0 then 0x1_0000 else 0x2_0000
    if 16 ≤ c then (d, .badParam 2)
    else if 1 < sp then (d, .badParam 3)
    else if off % 4 ≠ 0 ∨ size ≤ off then (d, .badParam 4)
    else if n = 0 ∨ 256 < n ∨ size < off + 4 * n then (d, .badParam 5)
    else
      let k := d.core c
      (d.add (Reg.HK_ECC_CNT_UNCORR c) (min bad n), .ok (Mem.words (if sp = 0 then k.imem else k.dmem) off n))))

end Sys2Proof.Machine
end

