-- ==== Sys2Proof/Machine/HkFlow.lean ====
section
/-!
DEFINITION. Machine/HkFlow.lean: branches, jumps, repeat blocks, system operations, control registers and interrupts of the
Hackney cores (R383, R384, R392 … R401).
-/
namespace Sys2Proof.Machine

/-! ### Branches and jumps (R383, R384) -/

/-- The two delay slots of a branch or jump come next, then `target`. -/
def HkCore.branch (k : HkCore) (target : Nat) : HkCore := { k with slot := 3, target := target }

/-- The address after the delay slots of the instruction at the program counter. -/
def HkCore.linkAddr (k : HkCore) : Nat := (k.pc + 12) % 2 ^ 32

/-- A conditional branch (R383). -/
def hkBr (x : HkIssue) (mop : Nat) (a b : Fin 32) (k16 : BitVec 16) (taken : Nat → Nat → Bool) (s : State) :
    Host.Outcome State Fault Refusal :=
  ok s (fun _ d => d.hkIssue x
    { word := wordBR mop a.val b.val k16.toNat, srcs := [a.val, b.val], flow := true }
    (fun k k1 _ d =>
      .go (k1.branch (if taken (k.reg a.val) (k.reg b.val) then un 32 ((k.pc : Int) + 4 * sx 16 k16.toNat)
        else k.linkAddr)) 0 d))

def execBrEq (x : HkIssue) (a b : Fin 32) (k : BitVec 16) (s : State) : Host.Outcome State Fault Refusal :=
  hkBr x 0x28 a b k (fun p q => p == q) s
def execBrNe (x : HkIssue) (a b : Fin 32) (k : BitVec 16) (s : State) : Host.Outcome State Fault Refusal :=
  hkBr x 0x29 a b k (fun p q => p != q) s
def execBrLt (x : HkIssue) (a b : Fin 32) (k : BitVec 16) (s : State) : Host.Outcome State Fault Refusal :=
  hkBr x 0x2A a b k (fun p q => decide (sx 32 p < sx 32 q)) s
def execBrGe (x : HkIssue) (a b : Fin 32) (k : BitVec 16) (s : State) : Host.Outcome State Fault Refusal :=
  hkBr x 0x2B a b k (fun p q => decide (sx 32 q ≤ sx 32 p)) s
def execBrLtu (x : HkIssue) (a b : Fin 32) (k : BitVec 16) (s : State) : Host.Outcome State Fault Refusal :=
  hkBr x 0x2C a b k (fun p q => decide (p < q)) s
def execBrGeu (x : HkIssue) (a b : Fin 32) (k : BitVec 16) (s : State) : Host.Outcome State Fault Refusal :=
  hkBr x 0x2D a b k (fun p q => decide (q ≤ p)) s

/-- A jump relative to the program counter; a call writes its return address to h30 (R383). -/
def hkJump (x : HkIssue) (mop : Nat) (link : Bool) (k26 : BitVec 26) (s : State) : Host.Outcome State Fault Refusal :=
  ok s (fun _ d => d.hkIssue x { word := wordJL mop k26.toNat, flow := true } (fun k k1 t d =>
    let k2 := if link then k1.result t 1 30 k.linkAddr else k1
    .go (k2.branch (un 32 ((k.pc : Int) + 4 * sx 26 k26.toNat))) 0 d))

/-- A jump to the address in a register; fields d and b are not decoded (R383). -/
def hkJumpReg (x : HkIssue) (fn : Nat) (link : Bool) (a : Fin 32) (s : State) : Host.Outcome State Fault Refusal :=
  ok s (fun _ d => d.hkIssue x
    { word := wordR3 0x30 fn 0 a.val 0, mask := 0xFFE0_F83F, srcs := [a.val], flow := true } (fun k k1 t d =>
    let k2 := if link then k1.result t 1 30 k.linkAddr else k1
    .go (k2.branch (k.reg a.val)) 0 d))

def execJmp (x : HkIssue) (k : BitVec 26) (s : State) : Host.Outcome State Fault Refusal := hkJump x 0x2E false k s
def execCall (x : HkIssue) (k : BitVec 26) (s : State) : Host.Outcome State Fault Refusal := hkJump x 0x2F true k s
def execJmpr (x : HkIssue) (a : Fin 32) (s : State) : Host.Outcome State Fault Refusal := hkJumpReg x 0 false a s
def execCallr (x : HkIssue) (a : Fin 32) (s : State) : Host.Outcome State Fault Refusal := hkJumpReg x 1 true a s

/-! ### Repeat blocks (R392) -/

/-- Meaning of REP; `count` and `len` are the fields COUNT − 1 and LEN − 1. -/
def execRep (x : HkIssue) (a : Fin 32) (count : Fin 1024) (len : Fin 32) (s : State) :
    Host.Outcome State Fault Refusal :=
  ok s (fun _ d => d.hkIssue x { word := wordRP a.val count.val len.val, srcs := [a.val], flow := true }
    (fun k k1 _ d =>
      let n := if a.val = 0 then count.val + 1 else k.reg a.val
      let l := len.val + 1
      if 1024 < n then .fault 5 0
      else if n = 0 then .go { k1 with slot := 1, target := (k.pc + 4 + 4 * l) % 2 ^ 32 } 0 d
      else .go { k1 with rep := some ⟨k.pc + 4, l, n⟩ } 0 d))

/-! ### System operations (R394, R397 … R401) -/

/-- A system operation of major opcode 0x3C that decodes the function alone. -/
def hkSys (x : HkIssue) (fn : Nat) (flow : Bool) (body : HkCore → HkCore → Dev → HkRes) (s : State) :
    Host.Outcome State Fault Refusal :=
  ok s (fun _ d => d.hkIssue x { word := wordR3 0x3C fn 0 0 0, mask := 0xFFE0_003F, flow := flow }
    (fun k k1 _ d => body k k1 d))

/-- Meaning of EXIT (R394, R401): the core waits for its stores, then EXIT_COMPLETE ends the item. -/
def execExit (x : HkIssue) (a : Fin 32) (s : State) : Host.Outcome State Fault Refusal :=
  ok s (fun _ d => d.hkIssue x
    { word := wordR3 0x3C 0x010 0 a.val 0, mask := 0xFFE0_F83F, srcs := [a.val], flow := true }
    (fun k k1 _ d => .go { k1 with waiting := .exit (k.reg a.val % 256) } 0 d))

/-- EXIT_COMPLETE (R373, R401): the stores of the core have drained and the item ends. -/
def Dev.exitComplete (d : Dev) (c : Nat) : Dev :=
  let k := d.core c
  match k.waiting with
  | .exit status =>
    let k := { k with cycle := if k.buffer.isEmpty then k.cycle else max k.cycle (k.lastDue + 1) }
    let d := ((d.setCore c k).reach (k.startC + k.cycle)).drainAll c
    let d := d.inc (Reg.HK_ITEMS c)
    if status = 0 then d.ostEnd c 0 0 else (d.inc (Reg.HK_ERR_EXIT c)).ostEnd c 1 status
  | _ => d

/-- Meaning of EXIT_COMPLETE. -/
def execExitComplete (core : Fin 16) (s : State) : Host.Outcome State Fault Refusal :=
  ok s (fun _ d => d.exitComplete core.val)

/-- Meaning of WAIT: a pending enabled source lets it pass; otherwise issue stops. -/
def execWait (x : HkIssue) (s : State) : Host.Outcome State Fault Refusal :=
  hkSys x 0x011 true (fun k k1 d =>
    if (k.ien &&& k.ipend) % 16 ≠ 0 then .go k1 0 d
    else .go { k1 with waiting := .wait } 0 (d.w (Reg.HK_STAT_STATE x.core.val) 2)) s

/-- Interrupt entry (R397, R398): the address of the next instruction goes to EPC, the global enable to 0, and execution
to IVEC three cycles later; the hold-off is noted. -/
def Dev.enterIrq (d : Dev) (c : Nat) : Dev :=
  let k := d.core c
  let held := k.cycle - k.pendSince.getD k.cycle
  let k := { k with epc := k.pc, gie := false, inHandler := true, cycle := k.cycle + 3, pendSince := none, waiting := .none,
                    chain := 0 }
  let d := ((d.setCore c k).wmax (Reg.HK_HOLDOFF_MAX c) (satU 16 held)).w (Reg.HK_STAT_STATE c) 1
  if 0x1_0000 ≤ k.ivec ∨ k.ivec % 4 ≠ 0 then d.hkFault c 3 0
  else (d.setCore c { k with pc := k.ivec }).showCore c

/-- INTERRUPT_ENTRY (R396 … R398): a running core, or one stalled in CQ_POP, at an interrupt boundary with a pending
enabled source. -/
def Dev.interruptEntry (d : Dev) (c : Nat) : Dev :=
  let k := d.core c
  let canTake := match k.waiting with
    | .none => d.r (Reg.HK_STAT_STATE c) == 1
    | .pop _ _ _ => true
    | _ => false
  if canTake && k.irq && k.atBoundary then
    match k.waiting with
    | .pop _ _ _ =>
      (d.setCore c { k with pc := un 32 ((k.pc : Int) - 4), cycle := max k.cycle (d.time.c - k.startC) }).enterIrq c
    | _ => d.enterIrq c
  else d

/-- Meaning of INTERRUPT_ENTRY. -/
def execInterruptEntry (core : Fin 16) (s : State) : Host.Outcome State Fault Refusal :=
  ok s (fun _ d => d.interruptEntry core.val)

/-- WAIT_WAKE (R394): a waiting core with a pending enabled source resumes after the WAIT, through the handler when the
global enable is 1. -/
def Dev.waitWake (d : Dev) (c : Nat) : Dev :=
  let k := d.core c
  if k.waiting = .wait ∧ (k.ien &&& k.ipend) % 16 ≠ 0 then
    let d := d.setCore c { k with waiting := .none, cycle := max k.cycle (d.time.c - k.startC) }
    let d := d.w (Reg.HK_STAT_STATE c) 1
    if k.gie then d.enterIrq c else d.showCore c
  else d

/-- Meaning of WAIT_WAKE. -/
def execWaitWake (core : Fin 16) (s : State) : Host.Outcome State Fault Refusal := ok s (fun _ d => d.waitWake core.val)

/-- Meaning of RTI; a bad EPC faults with ACCESS at the jump (R395), and one instruction executes before the next interrupt
entry (R398). -/
def execRti (x : HkIssue) (s : State) : Host.Outcome State Fault Refusal :=
  hkSys x 0x012 true (fun k k1 d =>
    if 0x1_0000 ≤ k.epc ∨ k.epc % 4 ≠ 0 then .fault 3 0
    else .go { k1 with slot := 1, target := k.epc, gie := true, inHandler := false, afterRti := true } 0 d) s

/-- Meaning of EI; inside a handler it is ILLEGAL (R398). -/
def execEi (x : HkIssue) (s : State) : Host.Outcome State Fault Refusal :=
  hkSys x 0x013 false (fun k k1 d => if k.inHandler then .fault 1 0 else .go { k1 with gie := true } 0 d) s

/-- Meaning of DI. -/
def execDi (x : HkIssue) (s : State) : Host.Outcome State Fault Refusal :=
  hkSys x 0x014 false (fun _ k1 d => .go { k1 with gie := false } 0 d) s

/-- Meaning of FENCE: it waits while the store buffer holds an entry (R375). -/
def execFence (x : HkIssue) (s : State) : Host.Outcome State Fault Refusal :=
  hkSys x 0x015 false (fun k k1 d => if k.buffer.isEmpty then .go k1 0 d else .stay) s

/-- Meaning of BRK. -/
def execBrk (x : HkIssue) (s : State) : Host.Outcome State Fault Refusal :=
  hkSys x 0x01F false (fun _ _ _ => .fault 8 0) s

/-! ### Control registers (R395) -/

/-- The value of a control register at cycle `t`, and the core after a LO read; none where RDCR is ILLEGAL. -/
def Dev.readCr (d : Dev) (c : Nat) (k : HkCore) (t cr : Nat) : Option (Nat × HkCore) :=
  let tb := k.startC + t
  match cr with
  | 0x000 => some (loW t, { k with cycHi := hiW t })
  | 0x001 => some (k.cycHi, k)
  | 0x002 => some (loW tb, { k with tbHi := hiW tb })
  | 0x003 => some (k.tbHi, k)
  | 0x004 => some (loW k.relEpoch, { k with epHi := hiW k.relEpoch })
  | 0x005 => some (k.epHi, k)
  | 0x006 => some (d.r (Reg.HK_STAT_ITEM c) + c * 2 ^ 16, k)
  | 0x008 => some (k.fstat, k)
  | 0x009 => some (Tab.look 0 1 k.mbBase, k)
  | 0x00A => some (Tab.look 0 1 k.mbLen, k)
  | 0x00B => some (Tab.look 0 2 k.mbBase, k)
  | 0x00C => some (Tab.look 0 2 k.mbLen, k)
  | 0x010 => some (k.ien, k)
  | 0x011 => some (k.ipend, k)
  | 0x012 => some (k.ivec, k)
  | 0x013 => some (k.epc, k)
  | 0x014 => some (k.timerCmp, k)
  | 0x015 => some (k.warnNs, k)
  | 0x016 => some (0, k)
  | _ => none

/-- Meaning of RDCR; field a is not decoded. -/
def execRdcr (x : HkIssue) (d : Fin 32) (cr : BitVec 16) (s : State) : Host.Outcome State Fault Refusal :=
  ok s (fun _ dv => dv.hkIssue x { word := wordCR 0x3D d.val 0 cr.toNat, mask := 0xFFFF_07FF } (fun _ k1 t dv =>
    match dv.readCr x.core.val k1 t cr.toNat with
    | some (v, k2) => .go (k2.result t 1 d.val v) 0 dv
    | none => .fault 1 0))

/-- A doorbell (R396, R399): every core named that runs an item, the sender apart, gets DOORBELL pending. -/
def Dev.doorbell (d : Dev) (c m : Nat) : Dev :=
  d.each ((List.range 16).filter (fun j => bitOf m j && j != c && d.r (Reg.HK_STAT_STATE j) != 0)) (fun j d =>
    d.setCore j ({ d.core j with ipend := setBit (d.core j).ipend 3 true }).notePend)

/-- Write a control register; none where WRCR is ILLEGAL. -/
def Dev.writeCr (d : Dev) (c : Nat) (k : HkCore) (t cr v : Nat) : Option (HkCore × Dev) :=
  match cr with
  | 0x008 => some ({ k with fstat := k.fstat - (k.fstat &&& v) }, d)
  | 0x009 => some ({ k with mbBase := Tab.put 1 v k.mbBase }, d)
  | 0x00A => some ({ k with mbLen := Tab.put 1 v k.mbLen }, d)
  | 0x00B => some ({ k with mbBase := Tab.put 2 v k.mbBase }, d)
  | 0x00C => some ({ k with mbLen := Tab.put 2 v k.mbLen }, d)
  | 0x010 => some ({ k with ien := v % 16 }, d)
  | 0x011 => some ({ k with ipend := k.ipend - (k.ipend &&& v) }, d)
  | 0x012 => some ({ k with ivec := v }, d)
  | 0x013 => some ({ k with epc := v }, d)
  | 0x014 => some ({ k with timerCmp := v, timerAt := if v = 0 then 0 else t + 1 + un 32 ((v : Int) - (t + 1)) }, d)
  | 0x015 => some ({ k with warnNs := v % 2 ^ 16 }, d)
  | 0x016 => some (k, d.doorbell c (v % 2 ^ 16))
  | _ => none

/-- Meaning of WRCR; field d is not decoded. -/
def execWrcr (x : HkIssue) (a : Fin 32) (cr : BitVec 16) (s : State) : Host.Outcome State Fault Refusal :=
  ok s (fun _ dv => dv.hkIssue x
    { word := wordCR 0x3E 0 a.val cr.toNat, mask := 0xFFFF_F83F, srcs := [a.val] } (fun k k1 t dv =>
    match dv.writeCr x.core.val k1 t cr.toNat (k.reg a.val) with
    | some (k2, dv) => .go k2 0 dv
    | none => .fault 1 0))

/-! ### Interrupt sources (R396) -/

/-- A source becomes pending on a core that runs an item. -/
def Dev.setPend (d : Dev) (c bit : Nat) : Dev :=
  d.setCore c ({ d.core c with ipend := setBit (d.core c).ipend bit true }).notePend

/-- HK_TIMER_MATCH (R396): CYCLE_LO equals TIMER_CMP. A waiting core comes to that cycle; a running core must have reached
it. -/
def Dev.timerMatch (d : Dev) (c : Nat) : Dev :=
  let k := d.core c
  if d.r (Reg.HK_STAT_STATE c) = 0 ∨ k.timerAt = 0 then d
  else if k.waiting = .none ∧ k.cycle < k.timerAt then d
  else
    let d := d.reach (k.startC + k.timerAt)
    (d.setCore c { k with cycle := max k.cycle k.timerAt, timerAt := k.timerAt + 2 ^ 32 }).setPend c 0

/-- Meaning of HK_TIMER_MATCH. -/
def execHkTimerMatch (core : Fin 16) (s : State) : Host.Outcome State Fault Refusal :=
  ok s (fun _ d => d.timerMatch core.val)

/-- HK_WARN (R396): a cyclic item reaches its epoch deadline less WARN_NS, which is not 0. -/
def Dev.hkWarn (d : Dev) (c : Nat) : Dev :=
  let k := d.core c
  match d.ost.running.find? (fun e => e.1 == c) with
  | some (_, run) =>
    if run.cyclic && k.warnNs != 0 then
      (d.reach (d.countAt (d.boundaryNs + d.te - d.r Reg.EPK_DEADLINE_MARGIN_NS - k.warnNs))).setPend c 1
    else d
  | none => d

/-- Meaning of HK_WARN. -/
def execHkWarn (core : Fin 16) (s : State) : Host.Outcome State Fault Refusal := ok s (fun _ d => d.hkWarn core.val)

end Sys2Proof.Machine
end

