-- ==== Sys2Proof/Machine/HkInt.lean ====
section
/-!
DEFINITION. Machine/HkInt.lean: the integer and constant operations of the Hackney cores (R378, R379).
-/
namespace Sys2Proof.Machine

/-- An integer operation of major opcode 0x00 with function `fn` and latency `n` (R378, R386). -/
def hkR3 (x : HkIssue) (fn n : Nat) (d a b : Fin 32) (f : Nat → Nat → Nat) (s : State) :
    Host.Outcome State Fault Refusal :=
  ok s (fun _ dv => dv.hkAlu x { word := wordR3 0 fn d.val a.val b.val, srcs := [a.val, b.val] } n d.val
    (fun k => f (k.reg a.val) (k.reg b.val)))

/-- A constant operation of major opcode `mop` (R379). -/
def hkRK (x : HkIssue) (mop : Nat) (d a : Fin 32) (k16 : BitVec 16) (f : Nat → Nat → Nat) (s : State) :
    Host.Outcome State Fault Refusal :=
  ok s (fun _ dv => dv.hkAlu x { word := wordRK mop d.val a.val k16.toNat, srcs := [a.val] } 1 d.val
    (fun k => f (k.reg a.val) k16.toNat))

/-- A constant shift: K16[15:5] must be 0, else the word is ILLEGAL and is no such instruction (R379). -/
def hkShiftK (x : HkIssue) (mop : Nat) (d a : Fin 32) (k5 : Fin 32) (f : Nat → Nat → Nat) (s : State) :
    Host.Outcome State Fault Refusal :=
  ok s (fun _ dv => dv.hkAlu x { word := wordRK mop d.val a.val k5.val, srcs := [a.val] } 1 d.val
    (fun k => f (k.reg a.val) k5.val))

/-- Leading zeros of a 32-bit value, 0 … 32. -/
def clz32 (v : Nat) : Nat := if v % 2 ^ 32 = 0 then 32 else 31 - Nat.log2 (v % 2 ^ 32)

def execAdd (x : HkIssue) (d a b : Fin 32) (s : State) : Host.Outcome State Fault Refusal :=
  hkR3 x 0x000 1 d a b (fun p q => p + q) s
def execSub (x : HkIssue) (d a b : Fin 32) (s : State) : Host.Outcome State Fault Refusal :=
  hkR3 x 0x001 1 d a b (fun p q => p + 2 ^ 32 - q) s
def execAnd (x : HkIssue) (d a b : Fin 32) (s : State) : Host.Outcome State Fault Refusal :=
  hkR3 x 0x002 1 d a b (fun p q => p &&& q) s
def execOr (x : HkIssue) (d a b : Fin 32) (s : State) : Host.Outcome State Fault Refusal :=
  hkR3 x 0x003 1 d a b (fun p q => p ||| q) s
def execXor (x : HkIssue) (d a b : Fin 32) (s : State) : Host.Outcome State Fault Refusal :=
  hkR3 x 0x004 1 d a b (fun p q => p ^^^ q) s
def execShl (x : HkIssue) (d a b : Fin 32) (s : State) : Host.Outcome State Fault Refusal :=
  hkR3 x 0x008 1 d a b (fun p q => p * 2 ^ (q % 32)) s
def execShr (x : HkIssue) (d a b : Fin 32) (s : State) : Host.Outcome State Fault Refusal :=
  hkR3 x 0x009 1 d a b (fun p q => p / 2 ^ (q % 32)) s
def execSar (x : HkIssue) (d a b : Fin 32) (s : State) : Host.Outcome State Fault Refusal :=
  hkR3 x 0x00A 1 d a b (fun p q => un 32 (ashr (sx 32 p) (q % 32))) s
def execClt (x : HkIssue) (d a b : Fin 32) (s : State) : Host.Outcome State Fault Refusal :=
  hkR3 x 0x010 1 d a b (fun p q => b2n (decide (sx 32 p < sx 32 q))) s
def execCltu (x : HkIssue) (d a b : Fin 32) (s : State) : Host.Outcome State Fault Refusal :=
  hkR3 x 0x011 1 d a b (fun p q => b2n (decide (p < q))) s
def execMul (x : HkIssue) (d a b : Fin 32) (s : State) : Host.Outcome State Fault Refusal :=
  hkR3 x 0x018 2 d a b (fun p q => p * q) s
def execMulhs (x : HkIssue) (d a b : Fin 32) (s : State) : Host.Outcome State Fault Refusal :=
  hkR3 x 0x019 2 d a b (fun p q => un 32 (ashr (sx 32 p * sx 32 q) 32)) s
def execMulhu (x : HkIssue) (d a b : Fin 32) (s : State) : Host.Outcome State Fault Refusal :=
  hkR3 x 0x01A 2 d a b (fun p q => p * q / 2 ^ 32) s
def execAddsat (x : HkIssue) (d a b : Fin 32) (s : State) : Host.Outcome State Fault Refusal :=
  hkR3 x 0x020 1 d a b (fun p q => un 32 (satS 32 (sx 32 p + sx 32 q))) s
def execSubsat (x : HkIssue) (d a b : Fin 32) (s : State) : Host.Outcome State Fault Refusal :=
  hkR3 x 0x021 1 d a b (fun p q => un 32 (satS 32 (sx 32 p - sx 32 q))) s
def execMin (x : HkIssue) (d a b : Fin 32) (s : State) : Host.Outcome State Fault Refusal :=
  hkR3 x 0x028 1 d a b (fun p q => if sx 32 p ≤ sx 32 q then p else q) s
def execMax (x : HkIssue) (d a b : Fin 32) (s : State) : Host.Outcome State Fault Refusal :=
  hkR3 x 0x029 1 d a b (fun p q => if sx 32 p ≤ sx 32 q then q else p) s
/-- CLZ reads a alone; field b is not decoded. -/
def execClz (x : HkIssue) (d a : Fin 32) (s : State) : Host.Outcome State Fault Refusal :=
  ok s (fun _ dv => dv.hkAlu x { word := wordR3 0 0x030 d.val a.val 0, mask := 0xFFE0_FFFF, srcs := [a.val] } 1 d.val
    (fun k => clz32 (k.reg a.val)))

def execAddK (x : HkIssue) (d a : Fin 32) (k : BitVec 16) (s : State) : Host.Outcome State Fault Refusal :=
  hkRK x 0x08 d a k (fun p c => un 32 ((p : Int) + sx 16 c)) s
def execAndK (x : HkIssue) (d a : Fin 32) (k : BitVec 16) (s : State) : Host.Outcome State Fault Refusal :=
  hkRK x 0x09 d a k (fun p c => p &&& c) s
def execOrK (x : HkIssue) (d a : Fin 32) (k : BitVec 16) (s : State) : Host.Outcome State Fault Refusal :=
  hkRK x 0x0A d a k (fun p c => p ||| c) s
def execXorK (x : HkIssue) (d a : Fin 32) (k : BitVec 16) (s : State) : Host.Outcome State Fault Refusal :=
  hkRK x 0x0B d a k (fun p c => p ^^^ c) s
def execCltK (x : HkIssue) (d a : Fin 32) (k : BitVec 16) (s : State) : Host.Outcome State Fault Refusal :=
  hkRK x 0x0C d a k (fun p c => b2n (decide (sx 32 p < sx 16 c))) s
/-- MOVH reads no register; field a is not decoded. -/
def execMovh (x : HkIssue) (d : Fin 32) (k : BitVec 16) (s : State) : Host.Outcome State Fault Refusal :=
  ok s (fun _ dv => dv.hkAlu x { word := wordRK 0x0D d.val 0 k.toNat, mask := 0xFFFF_07FF } 1 d.val
    (fun _ => k.toNat * 2 ^ 16))
def execShlK (x : HkIssue) (d a k : Fin 32) (s : State) : Host.Outcome State Fault Refusal :=
  hkShiftK x 0x0E d a k (fun p c => p * 2 ^ c) s
def execShrK (x : HkIssue) (d a k : Fin 32) (s : State) : Host.Outcome State Fault Refusal :=
  hkShiftK x 0x0F d a k (fun p c => p / 2 ^ c) s
def execSarK (x : HkIssue) (d a k : Fin 32) (s : State) : Host.Outcome State Fault Refusal :=
  hkShiftK x 0x10 d a k (fun p c => un 32 (ashr (sx 32 p) c)) s

end Sys2Proof.Machine
end

