-- ==== Sys2Proof/Machine/HkMac.lean ====
section
/-!
DEFINITION. Machine/HkMac.lean: the MAC datapath of the Hackney cores (R389 … R391).
-/
namespace Sys2Proof.Machine

/-- The Q1.23 operand in a register or memory word (R389). -/
def q23 (v : Nat) : Int := sx 24 (bits v 8 24)

/-- Write an accumulator with a MAC result issued at cycle `t`: saturated to 56 bits with MAC_SAT (R389). -/
def HkCore.putAcc (k : HkCore) (t i : Nat) (z : Int) : HkCore :=
  let v := satS 56 z
  let k := { k with acc := Tab.put i v k.acc, accReady := Tab.put i (t + 3) k.accReady }
  if v = z then k else k.flags 0x20

/-- A multiply operation on two registers: the new accumulator from the old one and the product (R390). -/
def hkMacOp (x : HkIssue) (sub : Nat) (acc : Fin 4) (a b : Fin 32) (f : Int → Int → Int) (s : State) :
    Host.Outcome State Fault Refusal :=
  ok s (fun _ d => d.hkIssue x { word := wordAC sub acc.val (a.val + b.val * 2 ^ 5), srcs := [a.val, b.val] }
    (fun k k1 t d =>
      .go (k1.putAcc t acc.val (f (k.accum acc.val) (q23 (k.reg a.val) * q23 (k.reg b.val)))) 0 d))

def execMac (x : HkIssue) (acc : Fin 4) (a b : Fin 32) (s : State) : Host.Outcome State Fault Refusal :=
  hkMacOp x 0 acc a b (fun z p => z + p) s
def execMsb (x : HkIssue) (acc : Fin 4) (a b : Fin 32) (s : State) : Host.Outcome State Fault Refusal :=
  hkMacOp x 1 acc a b (fun z p => z - p) s
def execMpy (x : HkIssue) (acc : Fin 4) (a b : Fin 32) (s : State) : Host.Outcome State Fault Refusal :=
  hkMacOp x 2 acc a b (fun _ p => p) s
def execAclr (x : HkIssue) (acc : Fin 4) (s : State) : Host.Outcome State Fault Refusal :=
  ok s (fun _ d => d.hkIssue x { word := wordAC 3 acc.val 0 } (fun _ k1 _ d =>
    .go { k1 with acc := Tab.put acc.val 0 k1.acc } 0 d))

/-- A DMEM word that a TAP reads: a fault cause, or the value (R391, R403). -/
def HkCore.tapRead (k : HkCore) (x : HkIssue) (a : Nat) : Nat ⊕ Nat :=
  if hkRegion a ≠ .dmem then .inl 3
  else if a % 4 ≠ 0 then .inl 2
  else if x.data = .uncorr then .inl 7
  else .inr (Mem.word k.dmem (a - 0x0001_0000))

/-- TAP and TAPMV (R391): `move` writes x to b − 4 and steps b with no modulo. -/
def hkTapOp (x : HkIssue) (word : Nat) (acc : Fin 4) (a b : Fin 32) (mba mbb : Nat) (step : Int) (move : Bool) (s : State) :
    Host.Outcome State Fault Refusal :=
  ok s (fun _ d => d.hkIssue x { word := word, srcs := [a.val, b.val] } (fun k k1 t d =>
    let p := k.reg a.val
    let q := k.reg b.val
    match k.tapRead x p, k.tapRead x q with
    | .inl cause, _ => .fault cause p
    | _, .inl cause => .fault cause q
    | .inr w, .inr v =>
      if move ∧ hkRegion (q - 4) ≠ .dmem then .fault 3 (q - 4)
      else match k.stepPtr mba p step, k.stepPtr mbb q step with
        | some (p', o1), some (q', o2) =>
          let k2 := k1.putAcc t acc.val (k.accum acc.val + q23 w * q23 v)
          let k2 := if move then { k2 with dmem := Mem.putWord k2.dmem (q - 4 - 0x0001_0000) v } else k2
          let k2 := if o1 || o2 then k2.flags 0x40 else k2
          let d := if x.data = .corr then d.inc (Reg.HK_ECC_CNT_CORR x.core.val) else d
          .go ((k2.result t 1 a.val p').result t 1 b.val q') 0 d
        | _, _ => .fault 1 0))

/-- Meaning of TAP; `dir` steps the pointers down. -/
def execTap (x : HkIssue) (acc : Fin 4) (a b : Fin 32) (mba mbb : Fin 3) (dir : Bool) (s : State) :
    Host.Outcome State Fault Refusal :=
  hkTapOp x (wordAC 4 acc.val (a.val + b.val * 2 ^ 5 + mba.val * 2 ^ 10 + mbb.val * 2 ^ 12 + b2n dir * 2 ^ 14)) acc a b mba.val
    mbb.val (if dir then -4 else 4) false s

/-- Meaning of TAPMV. -/
def execTapmv (x : HkIssue) (acc : Fin 4) (a b : Fin 32) (mba : Fin 3) (s : State) : Host.Outcome State Fault Refusal :=
  hkTapOp x (wordAC 5 acc.val (a.val + b.val * 2 ^ 5 + mba.val * 2 ^ 10)) acc a b mba.val 0 4 true s

/-- Meaning of ARD (R389, R390). -/
def execArd (x : HkIssue) (acc : Fin 4) (d : Fin 32) (sh : Fin 56) (s : State) : Host.Outcome State Fault Refusal :=
  ok s (fun _ dv => dv.hkIssue x { word := wordAC 6 acc.val (d.val + sh.val * 2 ^ 5), accs := [acc.val] }
    (fun k k1 t dv =>
      let z := ashr (k.accum acc.val) sh.val
      let v := satS 32 z
      let k2 := k1.result t 2 d.val (un 32 v)
      .go (if v = z then k2 else k2.flags 0x20) 0 dv))

/-- AMV that reads an accumulator. -/
def hkAmvRead (x : HkIssue) (fn : Nat) (acc : Fin 4) (r : Fin 32) (f : Int → Nat) (s : State) :
    Host.Outcome State Fault Refusal :=
  ok s (fun _ d => d.hkIssue x { word := wordAC 7 acc.val (r.val + fn * 2 ^ 5), accs := [acc.val] } (fun k k1 t d =>
    .go (k1.result t 2 r.val (f (k.accum acc.val))) 0 d))

/-- AMV that writes a part of an accumulator. -/
def hkAmvWrite (x : HkIssue) (fn : Nat) (acc : Fin 4) (r : Fin 32) (f : Nat → Nat → Nat) (s : State) :
    Host.Outcome State Fault Refusal :=
  ok s (fun _ d => d.hkIssue x { word := wordAC 7 acc.val (r.val + fn * 2 ^ 5), srcs := [r.val] } (fun k k1 _ d =>
    .go { k1 with acc := Tab.put acc.val (sx 56 (f (un 56 (k.accum acc.val)) (k.reg r.val))) k1.acc } 0 d))

def execAmvReadLo (x : HkIssue) (acc : Fin 4) (r : Fin 32) (s : State) : Host.Outcome State Fault Refusal :=
  hkAmvRead x 0 acc r (fun z => un 32 z) s
def execAmvReadHi (x : HkIssue) (acc : Fin 4) (r : Fin 32) (s : State) : Host.Outcome State Fault Refusal :=
  hkAmvRead x 1 acc r (fun z => un 32 (ashr z 32)) s
def execAmvWriteLo (x : HkIssue) (acc : Fin 4) (r : Fin 32) (s : State) : Host.Outcome State Fault Refusal :=
  hkAmvWrite x 2 acc r (fun old v => putBits old 0 32 v) s
def execAmvWriteHi (x : HkIssue) (acc : Fin 4) (r : Fin 32) (s : State) : Host.Outcome State Fault Refusal :=
  hkAmvWrite x 3 acc r (fun old v => putBits old 32 24 v) s

end Sys2Proof.Machine
end

