-- ==== Sys2Proof/Machine/Dispatch.lean ====
section
/-!
DEFINITION. Machine/Dispatch.lean: one arm per command of the block, each a call of its meaning.
-/
namespace Sys2Proof.Machine

/-- What a command does to everything but the queue of waiting commands. -/
def exec (i : Instr) (s : State) : Host.Outcome State Fault Refusal :=
  match i with
  | .regWrite path a v full => Sys2Proof.Machine.execRegWrite path a v full s
  | .latchedPairRead path a => Sys2Proof.Machine.execLatchedPairRead path a s
  | .commitPoint => Sys2Proof.Machine.execCommitPoint s
  | .holdExpire pf1 => Sys2Proof.Machine.execHoldExpire pf1 s
  | .cmdHoldExpire => Sys2Proof.Machine.execCmdHoldExpire s
  | .cutExpire => Sys2Proof.Machine.execCutExpire s
  | .hostHoldSet path => Sys2Proof.Machine.execHostHoldSet path s
  | .hostHoldClear path => Sys2Proof.Machine.execHostHoldClear path s
  | .epochDeadline => Sys2Proof.Machine.execEpochDeadline s
  | .intakeClose => Sys2Proof.Machine.execIntakeClose s
  | .epochInfo p => Sys2Proof.Machine.execEpochInfo p s
  | .imgHold p => Sys2Proof.Machine.execImgHold p s
  | .imgRelease p => Sys2Proof.Machine.execImgRelease p s
  | .imgRead p => Sys2Proof.Machine.execImgRead p s
  | .imgReadRec p => Sys2Proof.Machine.execImgReadRec p s
  | .cutArm p => Sys2Proof.Machine.execCutArm p s
  | .cutRelease p => Sys2Proof.Machine.execCutRelease p s
  | .cutStatus p => Sys2Proof.Machine.execCutStatus p s
  | .epochSetMargin p => Sys2Proof.Machine.execEpochSetMargin p s
  | .calendarLatch => Sys2Proof.Machine.execCalendarLatch s
  | .calendarEvaluation => Sys2Proof.Machine.execCalendarEvaluation s
  | .switchInstant => Sys2Proof.Machine.execSwitchInstant s
  | .coordCfgWrite path n v => Sys2Proof.Machine.execCoordCfgWrite path n v s
  | .calEntryEnableWrite path i0 v => Sys2Proof.Machine.execCalEntryEnableWrite path i0 v s
  | .coordRead p => Sys2Proof.Machine.execCoordRead p s
  | .coordPreset p => Sys2Proof.Machine.execCoordPreset p s
  | .calWrite p => Sys2Proof.Machine.execCalWrite p s
  | .calRead p => Sys2Proof.Machine.execCalRead p s
  | .calEnable p => Sys2Proof.Machine.execCalEnable p s
  | .calCounters p => Sys2Proof.Machine.execCalCounters p s
  | .ratePoint => Sys2Proof.Machine.execRatePoint s
  | .domainTimeRead path => Sys2Proof.Machine.execDomainTimeRead path s
  | .syncReceive port m cMac cOut => Sys2Proof.Machine.execSyncReceive port m cMac cOut s
  | .syncTimeout => Sys2Proof.Machine.execSyncTimeout s
  | .announceReceive port m => Sys2Proof.Machine.execAnnounceReceive port m s
  | .announceTimeout port => Sys2Proof.Machine.execAnnounceTimeout port s
  | .gmSettleEnd => Sys2Proof.Machine.execGmSettleEnd s
  | .syncSend => Sys2Proof.Machine.execSyncSend s
  | .announceSend => Sys2Proof.Machine.execAnnounceSend s
  | .pdelayReqSend port => Sys2Proof.Machine.execPdelayReqSend port s
  | .pdelayReqReceive port m cMac cOut => Sys2Proof.Machine.execPdelayReqReceive port m cMac cOut s
  | .pdelayRespReceive port m cMac => Sys2Proof.Machine.execPdelayRespReceive port m cMac s
  | .pdelayRespFollowUpReceive port m => Sys2Proof.Machine.execPdelayRespFollowUpReceive port m s
  | .ptpOtherReceive port m => Sys2Proof.Machine.execPtpOtherReceive port m s
  | .timeInfo p => Sys2Proof.Machine.execTimeInfo p s
  | .timeSeed p => Sys2Proof.Machine.execTimeSeed p s
  | .timeRestep p => Sys2Proof.Machine.execTimeRestep p s
  | .ptpStatus p => Sys2Proof.Machine.execPtpStatus p s
  | .timeConvert p => Sys2Proof.Machine.execTimeConvert p s
  | .localReady => Sys2Proof.Machine.execLocalReady s
  | .loopPass corr memErr => Sys2Proof.Machine.execLoopPass corr memErr s
  | .coeffWindowWrite path w v => Sys2Proof.Machine.execCoeffWindowWrite path w v s
  | .loopInfo p => Sys2Proof.Machine.execLoopInfo p s
  | .loopEnable p => Sys2Proof.Machine.execLoopEnable p s
  | .loopSwap p => Sys2Proof.Machine.execLoopSwap p s
  | .loopFaultClear p => Sys2Proof.Machine.execLoopFaultClear p s
  | .loopAxisRead p => Sys2Proof.Machine.execLoopAxisRead p s
  | .trcCtrlArm => Sys2Proof.Machine.execTrcCtrlArm s
  | .trcCtrlStop => Sys2Proof.Machine.execTrcCtrlStop s
  | .trcCtrlTrig => Sys2Proof.Machine.execTrcCtrlTrig s
  | .trcGeometryWrite sel v => Sys2Proof.Machine.execTrcGeometryWrite sel v s
  | .trcInfo p => Sys2Proof.Machine.execTrcInfo p s
  | .trcSetup p => Sys2Proof.Machine.execTrcSetup p s
  | .trcArm p => Sys2Proof.Machine.execTrcArm p s
  | .trcTrigger p => Sys2Proof.Machine.execTrcTrigger p s
  | .trcStop p => Sys2Proof.Machine.execTrcStop p s
  | .trcRead p unc => Sys2Proof.Machine.execTrcRead p unc s
  | .injStart p => Sys2Proof.Machine.execInjStart p s
  | .injStop p => Sys2Proof.Machine.execInjStop p s
  | .generatorInstant => Sys2Proof.Machine.execGeneratorInstant s
  | .prfParamRecordWrite path a w vs => Sys2Proof.Machine.execPrfParamRecordWrite path a w vs s
  | .prfInfo p => Sys2Proof.Machine.execPrfInfo p s
  | .prfStart p => Sys2Proof.Machine.execPrfStart p s
  | .prfTarget p => Sys2Proof.Machine.execPrfTarget p s
  | .prfLimits p => Sys2Proof.Machine.execPrfLimits p s
  | .prfStop p => Sys2Proof.Machine.execPrfStop p s
  | .gearStart p => Sys2Proof.Machine.execGearStart p s
  | .gearArm p => Sys2Proof.Machine.execGearArm p s
  | .planStart p => Sys2Proof.Machine.execPlanStart p s
  | .prfRelease p => Sys2Proof.Machine.execPrfRelease p s
  | .prfAxisRead p => Sys2Proof.Machine.execPrfAxisRead p s
  | .prfParamWrite p => Sys2Proof.Machine.execPrfParamWrite p s
  | .periodBoundary t => Sys2Proof.Machine.execPeriodBoundary t s
  | .demandHoldExpire t => Sys2Proof.Machine.execDemandHoldExpire t s
  | .tripPin t => Sys2Proof.Machine.execTripPin t s
  | .gtripInput g => Sys2Proof.Machine.execGtripInput g s
  | .hallCodeChange e code => Sys2Proof.Machine.execHallCodeChange e code s
  | .adcTrigger t j => Sys2Proof.Machine.execAdcTrigger t j s
  | .adcConversionDone c raw => Sys2Proof.Machine.execAdcConversionDone c raw s
  | .encIndexLatch e => Sys2Proof.Machine.execEncIndexLatch e s
  | .ssiFrameDone e data good => Sys2Proof.Machine.execSsiFrameDone e data good s
  | .teamCtrlForceTrip path t => Sys2Proof.Machine.execTeamCtrlForceTrip path t s
  | .teamCtrlTripClear path t => Sys2Proof.Machine.execTeamCtrlTripClear path t s
  | .teamInfo p => Sys2Proof.Machine.execTeamInfo p s
  | .teamConfig p => Sys2Proof.Machine.execTeamConfig p s
  | .teamEnable p => Sys2Proof.Machine.execTeamEnable p s
  | .teamTripClear p => Sys2Proof.Machine.execTeamTripClear p s
  | .teamForceTrip p => Sys2Proof.Machine.execTeamForceTrip p s
  | .teamRead p => Sys2Proof.Machine.execTeamRead p s
  | .adcRead p => Sys2Proof.Machine.execAdcRead p s
  | .encRead p => Sys2Proof.Machine.execEncRead p s
  | .tstillExpire t => Sys2Proof.Machine.execTstillExpire t s
  | .chopBlankEnd t phaseB => Sys2Proof.Machine.execChopBlankEnd t phaseB s
  | .chopComparatorSwitch t phaseB tick => Sys2Proof.Machine.execChopComparatorSwitch t phaseB tick s
  | .chopFastEnd t phaseB => Sys2Proof.Machine.execChopFastEnd t phaseB s
  | .loadAngleEstimate t => Sys2Proof.Machine.execLoadAngleEstimate t s
  | .stepConfig p => Sys2Proof.Machine.execStepConfig p s
  | .stepCurrent p => Sys2Proof.Machine.execStepCurrent p s
  | .stepRead p => Sys2Proof.Machine.execStepRead p s
  | .pdkCycleStart => Sys2Proof.Machine.execPdkCycleStart s
  | .sensorStale sensor => Sys2Proof.Machine.execSensorStale sensor s
  | .pdkComputationDone ns fault => Sys2Proof.Machine.execPdkComputationDone ns fault s
  | .pdkAutoRelease arm => Sys2Proof.Machine.execPdkAutoRelease arm s
  | .pdkSelftestEnd => Sys2Proof.Machine.execPdkSelftestEnd s
  | .pdkInfo p => Sys2Proof.Machine.execPdkInfo p s
  | .pdkArmRead p => Sys2Proof.Machine.execPdkArmRead p s
  | .pdkIntrRead p => Sys2Proof.Machine.execPdkIntrRead p s
  | .pdkPaddockRead p => Sys2Proof.Machine.execPdkPaddockRead p s
  | .pdkRelease p => Sys2Proof.Machine.execPdkRelease p s
  | .pdkRestart p => Sys2Proof.Machine.execPdkRestart p s
  | .sageLatch memErr => Sys2Proof.Machine.execSageLatch memErr s
  | .sageIteration memErr => Sys2Proof.Machine.execSageIteration memErr s
  | .sageSolveDeadline => Sys2Proof.Machine.execSageSolveDeadline s
  | .sageAnalysisDone => Sys2Proof.Machine.execSageAnalysisDone s
  | .sageCtrlColdNext path v => Sys2Proof.Machine.execSageCtrlColdNext path v s
  | .sageInfo p => Sys2Proof.Machine.execSageInfo p s
  | .sageStructLoad p => Sys2Proof.Machine.execSageStructLoad p s
  | .sageStructCommit p => Sys2Proof.Machine.execSageStructCommit p s
  | .sageDelta p => Sys2Proof.Machine.execSageDelta p s
  | .sageRead p => Sys2Proof.Machine.execSageRead p s
  | .sageCold p => Sys2Proof.Machine.execSageCold p s
  | .traceFrameReturn p f cIn readyNs => Sys2Proof.Machine.execTraceFrameReturn p f cIn readyNs s
  | .closureEnd p => Sys2Proof.Machine.execClosureEnd p s
  | .partnerFrameTurn p f cOut => Sys2Proof.Machine.execPartnerFrameTurn p f cOut s
  | .tackClosureRecord p r => Sys2Proof.Machine.execTackClosureRecord p r s
  | .crdLinkChange p up rightMode => Sys2Proof.Machine.execCrdLinkChange p up rightMode s
  | .crdStartPhase p timeUp meas => Sys2Proof.Machine.execCrdStartPhase p timeUp meas s
  | .acycTimeout p => Sys2Proof.Machine.execAcycTimeout p s
  | .nodeFrameReceive ring pos fromU ours a f sample => Sys2Proof.Machine.execNodeFrameReceive ring pos fromU ours a f sample s
  | .nodeApply ring pos => Sys2Proof.Machine.execNodeApply ring pos s
  | .nodeTimedSwitch ring pos => Sys2Proof.Machine.execNodeTimedSwitch ring pos s
  | .nodeHoldExpire ring pos => Sys2Proof.Machine.execNodeHoldExpire ring pos s
  | .nodeLinkDown ring pos upstream => Sys2Proof.Machine.execNodeLinkDown ring pos upstream s
  | .nodeReset ring pos => Sys2Proof.Machine.execNodeReset ring pos s
  | .acycRead ring pos => Sys2Proof.Machine.execAcycRead ring pos s
  | .acycWrite ring pos => Sys2Proof.Machine.execAcycWrite ring pos s
  | .acycAddress ring pos => Sys2Proof.Machine.execAcycAddress ring pos s
  | .acycState ring pos => Sys2Proof.Machine.execAcycState ring pos s
  | .crdInfo p => Sys2Proof.Machine.execCrdInfo p s
  | .crdStart p => Sys2Proof.Machine.execCrdStart p s
  | .crdStop p => Sys2Proof.Machine.execCrdStop p s
  | .crdPortRead p => Sys2Proof.Machine.execCrdPortRead p s
  | .crdSlotRead p => Sys2Proof.Machine.execCrdSlotRead p s
  | .crdNodeRead p => Sys2Proof.Machine.execCrdNodeRead p s
  | .crdNodeWrite p => Sys2Proof.Machine.execCrdNodeWrite p s
  | .crdNodeState p => Sys2Proof.Machine.execCrdNodeState p s
  | .tlbCycleStart => Sys2Proof.Machine.execTlbCycleStart s
  | .tlbMemberEntry => Sys2Proof.Machine.execTlbMemberEntry s
  | .tlbSlotStart slot => Sys2Proof.Machine.execTlbSlotStart slot s
  | .tlbFrameSend busy => Sys2Proof.Machine.execTlbFrameSend busy s
  | .tlbGateClose => Sys2Proof.Machine.execTlbGateClose s
  | .tlbFrameForward port f cIn => Sys2Proof.Machine.execTlbFrameForward port f cIn s
  | .dataFrameReceive port f cIn => Sys2Proof.Machine.execDataFrameReceive port f cIn s
  | .safeFrameReceive port f cIn => Sys2Proof.Machine.execSafeFrameReceive port f cIn s
  | .cmdFrameReceive port f cIn => Sys2Proof.Machine.execCmdFrameReceive port f cIn s
  | .joinFrameReceive port f cIn => Sys2Proof.Machine.execJoinFrameReceive port f cIn s
  | .joinVerifyDone producer sigOk => Sys2Proof.Machine.execJoinVerifyDone producer sigOk s
  | .tlbLinkChange port up speed => Sys2Proof.Machine.execTlbLinkChange port up speed s
  | .tlbAttestTimeout => Sys2Proof.Machine.execTlbAttestTimeout s
  | .tlbInfo p => Sys2Proof.Machine.execTlbInfo p s
  | .tlbPortRead p => Sys2Proof.Machine.execTlbPortRead p s
  | .tlbPeerRead p => Sys2Proof.Machine.execTlbPeerRead p s
  | .tlbStart p => Sys2Proof.Machine.execTlbStart p s
  | .tlbStop p => Sys2Proof.Machine.execTlbStop p s
  | .tlbSafeRead p => Sys2Proof.Machine.execTlbSafeRead p s
  | .tlbAttest p => Sys2Proof.Machine.execTlbAttest p s
  | .add x d a b => Sys2Proof.Machine.execAdd x d a b s
  | .sub x d a b => Sys2Proof.Machine.execSub x d a b s
  | .and_ x d a b => Sys2Proof.Machine.execAnd x d a b s
  | .or_ x d a b => Sys2Proof.Machine.execOr x d a b s
  | .xor x d a b => Sys2Proof.Machine.execXor x d a b s
  | .shl x d a b => Sys2Proof.Machine.execShl x d a b s
  | .shr x d a b => Sys2Proof.Machine.execShr x d a b s
  | .sar x d a b => Sys2Proof.Machine.execSar x d a b s
  | .clt x d a b => Sys2Proof.Machine.execClt x d a b s
  | .cltu x d a b => Sys2Proof.Machine.execCltu x d a b s
  | .mul x d a b => Sys2Proof.Machine.execMul x d a b s
  | .mulhs x d a b => Sys2Proof.Machine.execMulhs x d a b s
  | .mulhu x d a b => Sys2Proof.Machine.execMulhu x d a b s
  | .addsat x d a b => Sys2Proof.Machine.execAddsat x d a b s
  | .subsat x d a b => Sys2Proof.Machine.execSubsat x d a b s
  | .min x d a b => Sys2Proof.Machine.execMin x d a b s
  | .max x d a b => Sys2Proof.Machine.execMax x d a b s
  | .clz x d a => Sys2Proof.Machine.execClz x d a s
  | .addK x d a k => Sys2Proof.Machine.execAddK x d a k s
  | .andK x d a k => Sys2Proof.Machine.execAndK x d a k s
  | .orK x d a k => Sys2Proof.Machine.execOrK x d a k s
  | .xorK x d a k => Sys2Proof.Machine.execXorK x d a k s
  | .cltK x d a k => Sys2Proof.Machine.execCltK x d a k s
  | .movh x d k => Sys2Proof.Machine.execMovh x d k s
  | .shlK x d a k => Sys2Proof.Machine.execShlK x d a k s
  | .shrK x d a k => Sys2Proof.Machine.execShrK x d a k s
  | .sarK x d a k => Sys2Proof.Machine.execSarK x d a k s
  | .ldW x d a k => Sys2Proof.Machine.execLdW x d a k s
  | .ldH x d a k => Sys2Proof.Machine.execLdH x d a k s
  | .ldHu x d a k => Sys2Proof.Machine.execLdHu x d a k s
  | .ldB x d a k => Sys2Proof.Machine.execLdB x d a k s
  | .ldBu x d a k => Sys2Proof.Machine.execLdBu x d a k s
  | .stW x d a k => Sys2Proof.Machine.execStW x d a k s
  | .stH x d a k => Sys2Proof.Machine.execStH x d a k s
  | .stB x d a k => Sys2Proof.Machine.execStB x d a k s
  | .ldWp x d a mb step => Sys2Proof.Machine.execLdWp x d a mb step s
  | .stWp x d a mb step => Sys2Proof.Machine.execStWp x d a mb step s
  | .atomSwap x d a b => Sys2Proof.Machine.execAtomSwap x d a b s
  | .atomAdd x d a b => Sys2Proof.Machine.execAtomAdd x d a b s
  | .atomOr x d a b => Sys2Proof.Machine.execAtomOr x d a b s
  | .atomAnd x d a b => Sys2Proof.Machine.execAtomAnd x d a b s
  | .brEq x a b k => Sys2Proof.Machine.execBrEq x a b k s
  | .brNe x a b k => Sys2Proof.Machine.execBrNe x a b k s
  | .brLt x a b k => Sys2Proof.Machine.execBrLt x a b k s
  | .brGe x a b k => Sys2Proof.Machine.execBrGe x a b k s
  | .brLtu x a b k => Sys2Proof.Machine.execBrLtu x a b k s
  | .brGeu x a b k => Sys2Proof.Machine.execBrGeu x a b k s
  | .jmp x k => Sys2Proof.Machine.execJmp x k s
  | .call x k => Sys2Proof.Machine.execCall x k s
  | .jmpr x a => Sys2Proof.Machine.execJmpr x a s
  | .callr x a => Sys2Proof.Machine.execCallr x a s
  | .rep x a count len => Sys2Proof.Machine.execRep x a count len s
  | .fadd x d a b => Sys2Proof.Machine.execFadd x d a b s
  | .fsub x d a b => Sys2Proof.Machine.execFsub x d a b s
  | .fmul x d a b => Sys2Proof.Machine.execFmul x d a b s
  | .fdiv x d a b => Sys2Proof.Machine.execFdiv x d a b s
  | .fsqrt x d a => Sys2Proof.Machine.execFsqrt x d a s
  | .fmin x d a b => Sys2Proof.Machine.execFmin x d a b s
  | .fmax x d a b => Sys2Proof.Machine.execFmax x d a b s
  | .fabs x d a => Sys2Proof.Machine.execFabs x d a s
  | .fneg x d a => Sys2Proof.Machine.execFneg x d a s
  | .fceq x d a b => Sys2Proof.Machine.execFceq x d a b s
  | .fclt x d a b => Sys2Proof.Machine.execFclt x d a b s
  | .fcle x d a b => Sys2Proof.Machine.execFcle x d a b s
  | .ftoi x d a => Sys2Proof.Machine.execFtoi x d a s
  | .ftoin x d a => Sys2Proof.Machine.execFtoin x d a s
  | .itof x d a => Sys2Proof.Machine.execItof x d a s
  | .fma x d a b c => Sys2Proof.Machine.execFma x d a b c s
  | .fms x d a b c => Sys2Proof.Machine.execFms x d a b c s
  | .fnma x d a b c => Sys2Proof.Machine.execFnma x d a b c s
  | .mac x acc a b => Sys2Proof.Machine.execMac x acc a b s
  | .msb x acc a b => Sys2Proof.Machine.execMsb x acc a b s
  | .mpy x acc a b => Sys2Proof.Machine.execMpy x acc a b s
  | .aclr x acc => Sys2Proof.Machine.execAclr x acc s
  | .tap x acc a b mba mbb dir => Sys2Proof.Machine.execTap x acc a b mba mbb dir s
  | .tapmv x acc a b mba => Sys2Proof.Machine.execTapmv x acc a b mba s
  | .ard x acc d sh => Sys2Proof.Machine.execArd x acc d sh s
  | .amvReadLo x acc r => Sys2Proof.Machine.execAmvReadLo x acc r s
  | .amvReadHi x acc r => Sys2Proof.Machine.execAmvReadHi x acc r s
  | .amvWriteLo x acc r => Sys2Proof.Machine.execAmvWriteLo x acc r s
  | .amvWriteHi x acc r => Sys2Proof.Machine.execAmvWriteHi x acc r s
  | .exit x a => Sys2Proof.Machine.execExit x a s
  | .exitComplete core => Sys2Proof.Machine.execExitComplete core s
  | .wait x => Sys2Proof.Machine.execWait x s
  | .waitWake core => Sys2Proof.Machine.execWaitWake core s
  | .rti x => Sys2Proof.Machine.execRti x s
  | .ei x => Sys2Proof.Machine.execEi x s
  | .di x => Sys2Proof.Machine.execDi x s
  | .fence x => Sys2Proof.Machine.execFence x s
  | .brk x => Sys2Proof.Machine.execBrk x s
  | .rdcr x d cr => Sys2Proof.Machine.execRdcr x d cr s
  | .wrcr x a cr => Sys2Proof.Machine.execWrcr x a cr s
  | .illegalInstruction x => Sys2Proof.Machine.execIllegalInstruction x s
  | .storeBufferDrain core => Sys2Proof.Machine.execStoreBufferDrain core s
  | .hkTimerMatch core => Sys2Proof.Machine.execHkTimerMatch core s
  | .hkWarn core => Sys2Proof.Machine.execHkWarn core s
  | .interruptEntry core => Sys2Proof.Machine.execInterruptEntry core s
  | .hkCqPush x d a k => Sys2Proof.Machine.execHkCqPush x d a k s
  | .hkCqPop x d a k => Sys2Proof.Machine.execHkCqPop x d a k s
  | .cqPopWordArrive core => Sys2Proof.Machine.execCqPopWordArrive core s
  | .hkCoreRead p => Sys2Proof.Machine.execHkCoreRead p s
  | .hkMemRead p bad => Sys2Proof.Machine.execHkMemRead p bad s
  | .ostlerTick => Sys2Proof.Machine.execOstlerTick s
  | .runLimitExpire core => Sys2Proof.Machine.execRunLimitExpire core s
  | .girthDerate tj => Sys2Proof.Machine.execGirthDerate tj s
  | .girthBudgetWrite path v => Sys2Proof.Machine.execGirthBudgetWrite path v s
  | .ostInfo p => Sys2Proof.Machine.execOstInfo p s
  | .ostRelease p => Sys2Proof.Machine.execOstRelease p s
  | .ostCancel p => Sys2Proof.Machine.execOstCancel p s
  | .ostAbort p => Sys2Proof.Machine.execOstAbort p s
  | .ostDescWrite p => Sys2Proof.Machine.execOstDescWrite p s
  | .ostDescRead p => Sys2Proof.Machine.execOstDescRead p s
  | .ostEnable p => Sys2Proof.Machine.execOstEnable p s
  | .ostTrcRead p => Sys2Proof.Machine.execOstTrcRead p s
  | .girthInfo p => Sys2Proof.Machine.execGirthInfo p s
  | .girthSetBudget p => Sys2Proof.Machine.execGirthSetBudget p s
  | .bridleTick inputs outRb tpRb stoRb => Sys2Proof.Machine.execBridleTick inputs outRb tpRb stoRb s
  | .safeTwinTimeout conn => Sys2Proof.Machine.execSafeTwinTimeout conn s
  | .safeConnWatchdog ring conn => Sys2Proof.Machine.execSafeConnWatchdog ring conn s
  | .safetyCycleEval => Sys2Proof.Machine.execSafetyCycleEval s
  | .discFault f => Sys2Proof.Machine.execDiscFault f s
  | .ss1Timeout z => Sys2Proof.Machine.execSs1Timeout z s
  | .stoConfTimeout z => Sys2Proof.Machine.execStoConfTimeout z s
  | .bridleEvalDeadline => Sys2Proof.Machine.execBridleEvalDeadline s
  | .bridleFault cause => Sys2Proof.Machine.execBridleFault cause s
  | .bridleSelftestDone => Sys2Proof.Machine.execBridleSelftestDone s
  | .testPulse source => Sys2Proof.Machine.execTestPulse source s
  | .darkTest o ending rb => Sys2Proof.Machine.execDarkTest o ending rb s
  | .fieldDieRefreshLoss die => Sys2Proof.Machine.execFieldDieRefreshLoss die s
  | .brdInfo p => Sys2Proof.Machine.execBrdInfo p s
  | .brdFuncRead p => Sys2Proof.Machine.execBrdFuncRead p s
  | .brdZoneRead p => Sys2Proof.Machine.execBrdZoneRead p s
  | .brdIoRead p => Sys2Proof.Machine.execBrdIoRead p s
  | .brdConnRead p => Sys2Proof.Machine.execBrdConnRead p s
  | .brdReset p => Sys2Proof.Machine.execBrdReset p s
  | .brdConnRestart p => Sys2Proof.Machine.execBrdConnRestart p s
  | .spsLoad p v recs => Sys2Proof.Machine.execSpsLoad p v recs s
  | .spsAccept p => Sys2Proof.Machine.execSpsAccept p s
  | .fioInputChange i0 level => Sys2Proof.Machine.execFioInputChange i0 level s
  | .fioRbFault o => Sys2Proof.Machine.execFioRbFault o s
  | .fioOverload o => Sys2Proof.Machine.execFioOverload o s
  | .fioThermal o ovr => Sys2Proof.Machine.execFioThermal o ovr s
  | .vfieldSample group mv => Sys2Proof.Machine.execVfieldSample group mv s
  | .supplyLost group => Sys2Proof.Machine.execSupplyLost group s
  | .supplyAutoRearm group => Sys2Proof.Machine.execSupplyAutoRearm group s
  | .silent1Timeout group => Sys2Proof.Machine.execSilent1Timeout group s
  | .silentOffTimeout group => Sys2Proof.Machine.execSilentOffTimeout group s
  | .fioOutCfgWrite path o sig v => Sys2Proof.Machine.execFioOutCfgWrite path o sig v s
  | .fioInfo p => Sys2Proof.Machine.execFioInfo p s
  | .fioGrpRead p => Sys2Proof.Machine.execFioGrpRead p s
  | .fioOutWrite p => Sys2Proof.Machine.execFioOutWrite p s
  | .fioOutClear p => Sys2Proof.Machine.execFioOutClear p s
  | .fioRearm p => Sys2Proof.Machine.execFioRearm p s
  | .reinPeerFall => Sys2Proof.Machine.execReinPeerFall s
  | .reinPeerRise => Sys2Proof.Machine.execReinPeerRise s
  | .reinWatchdog => Sys2Proof.Machine.execReinWatchdog s
  | .farrierFault => Sys2Proof.Machine.execFarrierFault s
  | .fieldDieDriveStart => Sys2Proof.Machine.execFieldDieDriveStart s
  | .healthRecordReceive crcOk w0 h => Sys2Proof.Machine.execHealthRecordReceive crcOk w0 h s
  | .tackLost => Sys2Proof.Machine.execTackLost s
  | .tackLaneChange lane up => Sys2Proof.Machine.execTackLaneChange lane up s
  | .outputShadowReceive crcOk sh => Sys2Proof.Machine.execOutputShadowReceive crcOk sh s
  | .snapshotChunkReceive crcOk index x => Sys2Proof.Machine.execSnapshotChunkReceive crcOk index x s
  | .snapshotRestoreDone => Sys2Proof.Machine.execSnapshotRestoreDone s
  | .standbySelftest code pass last => Sys2Proof.Machine.execStandbySelftest code pass last s
  | .revertDwellExpire => Sys2Proof.Machine.execRevertDwellExpire s
  | .handoverAbandon => Sys2Proof.Machine.execHandoverAbandon s
  | .startWaitExpire => Sys2Proof.Machine.execStartWaitExpire s
  | .tackJoinRecord rec sigOk => Sys2Proof.Machine.execTackJoinRecord rec sigOk s
  | .pairInfo p => Sys2Proof.Machine.execPairInfo p s
  | .pairSwitch p => Sys2Proof.Machine.execPairSwitch p s
  | .pairRevert p => Sys2Proof.Machine.execPairRevert p s
  | .pairClaim p => Sys2Proof.Machine.execPairClaim p s
  | .queuePush path q v m => Sys2Proof.Machine.execQueuePush path q v m s
  | .queuePop path q n marks => Sys2Proof.Machine.execQueuePop path q n marks s
  | .popStallExpire path q => Sys2Proof.Machine.execPopStallExpire path q s
  | .qCtrlReset path q => Sys2Proof.Machine.execQCtrlReset path q s
  | .queueHalt path q => Sys2Proof.Machine.execQueueHalt path q s
  | .badOpcodePacket op p => Sys2Proof.Machine.execBadOpcodePacket op p s
  | .replyWrite path q => Sys2Proof.Machine.execReplyWrite path q s
  | .msixUnmask pf1 v => Sys2Proof.Machine.execMsixUnmask pf1 v s
  | .spiWrite a ws part => Sys2Proof.Machine.execSpiWrite a ws part s
  | .spiWritePrivileged a ws part => Sys2Proof.Machine.execSpiWritePrivileged a ws part s
  | .spiRead a n marks => Sys2Proof.Machine.execSpiRead a n marks s
  | .spiReadPrivileged a n marks => Sys2Proof.Machine.execSpiReadPrivileged a n marks s
  | .spiStatus => Sys2Proof.Machine.execSpiStatus s
  | .spiUnknownCommand cmd => Sys2Proof.Machine.execSpiUnknownCommand cmd s
  | .pciePerst low => Sys2Proof.Machine.execPciePerst low s
  | .devRemoteTimeout => Sys2Proof.Machine.execDevRemoteTimeout s
  | .devInfo p => Sys2Proof.Machine.execDevInfo p s
  | .devEcho p => Sys2Proof.Machine.execDevEcho p s
  | .devHostStat p => Sys2Proof.Machine.execDevHostStat p s
  | .devNoticeCfg p => Sys2Proof.Machine.execDevNoticeCfg p s
  | .devRemote p => Sys2Proof.Machine.execDevRemote p s
  | .devHealth p => Sys2Proof.Machine.execDevHealth p s
  | .secInfo p => Sys2Proof.Machine.execSecInfo p s
  | .secAttest p ns => Sys2Proof.Machine.execSecAttest p ns s
  | .secCertRead p => Sys2Proof.Machine.execSecCertRead p s
  | .secFlashStage p v backOk ns => Sys2Proof.Machine.execSecFlashStage p v backOk ns s
  | .secRollbackCommit p ns => Sys2Proof.Machine.execSecRollbackCommit p ns s
  | .secOwnerRevoke p => Sys2Proof.Machine.execSecOwnerRevoke p s
  | .secCommission p keys => Sys2Proof.Machine.execSecCommission p keys s
  | .secDebugChallenge p => Sys2Proof.Machine.execSecDebugChallenge p s
  | .secDebugUnlock p tokenOk => Sys2Proof.Machine.execSecDebugUnlock p tokenOk s
  | .secUnlistedOpcode op p => Sys2Proof.Machine.execSecUnlistedOpcode op p s
  | .powerOnReset => Sys2Proof.Machine.execPowerOnReset s
  | .brownout => Sys2Proof.Machine.execBrownout s
  | .nrstAssert => Sys2Proof.Machine.execNrstAssert s
  | .nrstRelease secondary => Sys2Proof.Machine.execNrstRelease secondary s
  | .moduleReset => Sys2Proof.Machine.execModuleReset s
  | .bootStageEnd x => Sys2Proof.Machine.execBootStageEnd x s
  | .bgVerifyDone kind v => Sys2Proof.Machine.execBgVerifyDone kind v s
  | .lockWaitEnd => Sys2Proof.Machine.execLockWaitEnd s
  | .devBootInfo p => Sys2Proof.Machine.execDevBootInfo p s
  | .devReset p => Sys2Proof.Machine.execDevReset p s
  | .devUnlistedOpcode op p => Sys2Proof.Machine.execDevUnlistedOpcode op p s
  | .tripInputRelease input => Sys2Proof.Machine.execTripInputRelease input s
  | .encQuadEdge e a b => Sys2Proof.Machine.execEncQuadEdge e a b s
  | .nodeLinkUp ring pos upstream => Sys2Proof.Machine.execNodeLinkUp ring pos upstream s
  | .nodeWatchdogExpire ring pos => Sys2Proof.Machine.execNodeWatchdogExpire ring pos s
  | .nodeInternalFault ring pos persists => Sys2Proof.Machine.execNodeInternalFault ring pos persists s
  | .snapshotSendDone => Sys2Proof.Machine.execSnapshotSendDone s
  | .calEntryWrite path i0 w v => Sys2Proof.Machine.execCalEntryWrite path i0 w v s
  | .teamRegWrite path t w v => Sys2Proof.Machine.execTeamRegWrite path t w v s
  | .pciePowerState pf1 d3 => Sys2Proof.Machine.execPciePowerState pf1 d3 s

end Sys2Proof.Machine
end

