-- ==== Sys2Proof/Safety.lean ====
section
/-!
DEFINITION. Safety.lean: what a sound state of the block is, and the terms in which the statements speak of commands that run: the
canonical forms of the register file and of the memory, a packet that is ready to run, and what its command answers.
-/
namespace Sys2Proof

/-- Parameter word `i` of a packet: packet word `i + 2` (R530). -/
def Packet.arg (p : Packet) (i : Nat) : Nat := (p.params.map BitVec.toNat).getD i 0

end Sys2Proof

namespace Sys2Proof.Machine

/-- The register file is in canonical form: keys strictly rising, so that equal contents are equal lists. -/
def Regs.wf (rs : Regs) : Prop := rs.Pairwise (fun a b => a.1 < b.1)

/-- The device is sound: the register file, the copy of it that the image front holds, and the record memory are in canonical form. -/
structure Dev.Sound (d : Dev) : Prop where
  regs : Regs.wf d.regs
  frontRegs : Regs.wf d.ep.frontRegs
  mem : Mem.wf d.mem = true

/-- A step is safe: it answers a next state, neither a fault nor a refusal. -/
def Outcome.isNext : Host.Outcome State Fault Refusal → Prop
  | .next _ => True
  | _ => False

/-- LENGTH of the longest reply that a source can take (R531, R545). -/
def replyLimit : Origin → Nat
  | .backbone _ _ _ => 367
  | _ => 1024

/-- The packet `p`, of opcode `op`, can be taken from its source now and its words read back good (R525, R527, R536, R537). -/
structure Dev.Takes (d : Dev) (p : Packet) (op : Nat) : Prop where
  take : d.canTake p = true
  good : (d.takeWords p op).2.contains .uncorr = false

/-- The packet has `n` parameter words, its source has the rights of a command that is privileged as `priv` says, its reserved bits
are 0 and its tag is no tag of the device's own (R530, R533); the device has not failed to boot and is not a standby (R500, R575). -/
structure Dev.Ready (d : Dev) (p : Packet) (op n : Nat) (priv : Bool) : Prop where
  takes : d.Takes p op
  rsv : p.rsv % 4 = 0
  tag : p.tag.toNat < 0xFFFF_FFF0
  rights : priv = true → d.privileged p.origin = true
  length : p.params.length = n
  booted : d.r Reg.GLB_BOOT_FAIL_STAGE = 0
  active : d.r Reg.PAIR_STAT_STATE ≠ 3

/-- The device once the words of the packet have left their source. -/
def Dev.taken (d : Dev) (p : Packet) (op : Nat) : Dev := (d.takeWords p op).1

/-- The command of packet `p` is done: the device is `d`, and the reply `res` is on its way to the source. -/
def replied (s : State) (p : Packet) (op : Nat) (d : Dev) (res : Res) : Host.Outcome State Fault Refusal :=
  .next { s with dev := d.answer p.origin op p.tag p.quietOk res }

/-- The next state with the device `d`: grade and waiting commands stay. -/
def onward (s : State) (d : Dev) : Host.Outcome State Fault Refusal := .next { s with dev := d }

/-- Core `x.core` runs an item, nothing interrupts or holds it, and the instruction at its program counter is the one that
`w` describes, which meets no hazard that faults (R377, R384, R385, R393, R397). -/
structure Dev.CanIssue (d : Dev) (x : HkIssue) (w : HkWant) : Prop where
  running : d.r (Reg.HK_STAT_STATE x.core.val) = 1
  waiting : (d.core x.core.val).waiting = .none
  quiet : (d.core x.core.val).irq = false ∨ (d.core x.core.val).atBoundary = false
  inside : (d.core x.core.val).pc < 0x1_0000
  aligned : (d.core x.core.val).pc % 4 = 0
  fetch : x.fetch = .good
  word : Mem.word (d.core x.core.val).imem (d.core x.core.val).pc &&& w.mask = w.word &&& w.mask
  slot : w.flow = true → (d.core x.core.val).slot = 0 ∧ (d.core x.core.val).rep = none
  chain : w.load = true → (d.core x.core.val).rep = none → (d.core x.core.val).chain < 8
  inRep : (d.core x.core.val).rep ≠ none → (d.core x.core.val).issueAt w ≤ (d.core x.core.val).cycle

/-- The device after an instruction that changes its core by `f` (at the cycle of issue) and the rest by `g`, and then stalls
for `stall` cycles: the stores due by then have completed and the program counter has stepped on (R374, R384, R392). -/
def Dev.issued (d : Dev) (x : HkIssue) (w : HkWant) (stall : Nat) (f : HkCore → Nat → HkCore) (g : Dev → Dev := id) : Dev :=
  let c := x.core.val
  let t := (d.core c).issueAt w
  let e := d.drainTo c t
  let k := e.core c
  ((g e).setCore c ((f { k.takeLoad with afterRti := false } t).advance k t stall w.load)).showCore c

/-- The instruction of command `i` writes `v` to register `rd`, ready `n` cycles after its issue, whenever it can issue. -/
def hkWrites (s : State) (x : HkIssue) (i : Instr) (w : HkWant) (n rd v : Nat) : Prop :=
  s.dev.CanIssue x w → exec i s = onward s (s.dev.issued x w 0 (fun k t => k.result t n rd v))

end Sys2Proof.Machine
end

