-- ==== Sys2Proof/Certificates/Slice0/Obligations.lean ====
section
/-!
DEFINITION. Certificates/Slice0/Obligations.lean: the statements for the provers. `exec` of a command is its meaning by computation:
`show execX … = _` leads a proof to it without the equations of the whole match.
-/
open Sys2Proof Sys2Proof.Machine

/-- A step takes the command at the front of the queue and runs it with the rest waiting. For every command and state, a step of
the state with the command at the front of its queue is exec of that command on the state with the queue's rest. The queue of
waiting commands is the model's own. Clauses that follow a reading of the model: log entry 8. (R535, R525) -/
def Obligations.StepRunsFrontCommand : Prop :=
  ∀ (c : Instr) (rest : List Instr) (s : State),
    step { s with pending := c :: rest } = exec c { s with pending := rest }

/-- With no command waiting, a step counts the timebase once and changes nothing else. The model's choice (log entry 1): with an
empty queue a step is one count of the timebase. While nRST is low the counter stands still. (R82) -/
def Obligations.EmptyQueueIdles : Prop :=
  ∀ s : State, s.pending = [] →
    step s = onward s (if s.dev.boot.nrstLow then s.dev
      else { s.dev with time := { s.dev.time with c := s.dev.time.c + 1 } })

/-- After a power-on reset every register reads its reset value, memory is empty, nothing waits, and the state is sound. Each
field reads the reset value that its table gives (or that the log names), the timebase counter is 0, the record memory lists
nothing, no command waits, and the canonical forms hold. Clauses that follow a reading of the model: log entries 4, 5, 6, 7.
(R8, R569, R82) -/
def Obligations.ResetShowsResetValues : Prop :=
  State.reset.pending = [] ∧ State.reset.dev.mem = [] ∧ State.reset.dev.time.c = 0 ∧ State.reset.dev.Sound ∧
    ∀ f : Field, State.reset.dev.r f = f.reset

/-- Every command answers a next state, which keeps the grade and drops exactly the command taken. No rule stops the block: for
every state, a step answers a next state with the same grade; its queue is the old one without its front command. No command
adds, drops or reorders waiting commands. (R532, R513) -/
def Obligations.EveryCommandAnswersNext : Prop :=
  (∀ (c : Instr) (s : State), ∃ d : Dev, exec c s = onward s d) ∧
  ∀ s : State, ∃ t : State, step s = .next t ∧ t.grade = s.grade ∧ t.pending = s.pending.tail

/-- Every step keeps the canonical form of the register file, of the front's registers and of the record memory. For every sound
state, reached or not, the state after a step is sound: register keys strictly rising, memory addresses strictly rising with
no byte 0 listed. So a register or a byte that is written reads back, whatever command wrote it. (R7, R8, R513) -/
def Obligations.StepKeepsSound : Prop :=
  ∀ s t : State, s.dev.Sound → step s = .next t → t.dev.Sound

/-- A register write follows its fields' access types; refused, partial and unmapped writes only count. REG_WRITE with all four
bytes of a register of the Paddock, Bridle or Security block, by a path with the rights: an RW field takes the value written,
a W1C field clears where a 1 is written, every other field keeps its value, and so does every field elsewhere and the rest of
the device. A path without the rights to a privileged address only counts the violation; a write that is not whole or not
aligned only counts HOST_ERR_CNT.PARTIAL; a write to an address of these blocks that no table names only counts
HOST_ERR_CNT.UNMAPPED. Clauses that follow a reading of the model: log entries 10, 11, 14. (R7, R8, R11, R515, R518, R513) -/
def Obligations.RegisterWriteByAccessType : Prop :=
  ∀ (s : State) (path : Path) (a v : Word),
    s.dev.pathOpen path = true → a.toNat % 4 = 0 → a.toNat / 0x10_0000 ∈ [5, 0xB, 0xE] →
      (privAddr a.toNat = true → s.dev.pathPriv path = false →
        exec (.regWrite path a v true) s = onward s (s.dev.countPath path)) ∧
      (exec (.regWrite path a v false) s = onward s (s.dev.inc Reg.HOST_ERR_CNT_PARTIAL)) ∧
      ((privAddr a.toNat = true → s.dev.pathPriv path = true) → absent s.grade a.toNat = false →
        (regAt a.toNat = none → inRecords a.toNat = false →
          exec (.regWrite path a v true) s = onward s (s.dev.inc Reg.HOST_ERR_CNT_UNMAPPED)) ∧
        ∀ (r : RegRow) (fs : List Field), regAt a.toNat = some (r, fs, false) → s.dev.Sound →
          (fs.map Field.key).Nodup → (∀ f ∈ fs, f.width ≤ 32) →
          ∃ d : Dev, exec (.regWrite path a v true) s = onward s d ∧
            (∀ f ∈ fs, d.r f = match f.access with
              | .rw => bits v.toNat f.lo f.width
              | .w1c => if bitOf v.toNat f.lo then 0 else s.dev.r f
              | _ => s.dev.r f) ∧
            (∀ f : Field, f.key ∉ fs.map Field.key → d.r f = s.dev.r f) ∧ { d with regs := s.dev.regs } = s.dev)

/-- A read of the low word of a pair latches its high word, which the next read of the high word returns. LATCHED_PAIR_READ of the
low word of a 64-bit register that the tables hold: the reader gets the low word and the path keeps the high word. A read of
the high word, at once or later, gets the word that this path kept, whatever the register holds then. DOMAIN_TIME_READ gives
the low word of domain time and latches its high word and its fraction. Clauses that follow a reading of the model: log
entries 12, 13. (R10, R84, R515) -/
def Obligations.PairReadLatchesHighWord : Prop :=
  (∀ (s : State) (path : Path) (a : Word) (r : RegRow) (fs : List Field),
    s.dev.pathOpen path = true → a.toNat % 4 = 0 → a.toNat < 0x1_0000 ∨ 0x10_0000 ≤ a.toNat ∧ a.toNat < 0x100_0000 →
    (privAddr a.toNat = true → s.dev.pathPriv path = true) → absent s.grade a.toNat = false →
    s.dev.computedWord s.grade path a.toNat = none → a.toNat ≠ 0x90_0000 → a.toNat ≠ 0x90_0008 →
    (regAt a.toNat = some (r, fs, false) → r.wide = true →
      exec (.latchedPairRead path a) s = onward s ((s.dev.latchPair path a.toNat (s.dev.wordOf fs true)).readerGets
        (pathOrigin path) [W (s.dev.wordOf fs false)])) ∧
    (regAt a.toNat = some (r, fs, true) →
      exec (.latchedPairRead path a) s = onward s (s.dev.readerGets (pathOrigin path) [W (s.dev.latched path (a.toNat - 4))]))) ∧
  (∀ (d : Dev) (path : Path) (a hi : Nat), (d.latchPair path a hi).latched path a = hi) ∧
  ∀ (s : State) (path : Path), s.dev.pathOpen path = true →
    exec (.domainTimeRead path) s = onward s ({ s.dev with time := { s.dev.time with
      dtHi := hiW s.dev.nowNs, dtFrac := s.dev.now / 2 ^ 16 % 2 ^ 16 } }.readerGets (pathOrigin path) [W (loW s.dev.nowNs)])

/-- A push into a full queue is ignored and sets OVERRUN; otherwise the word stands at the end of the queue. QUEUE_PUSH by a path
that reaches the device into a command queue that is not halted: with no free word, the words of the queue stay as they are
and OVERRUN is set, with the trigger of the flag's rise; with a free word, the word is appended. FULL (bit 0 of Q_STAT) is 1
exactly while no word of 1 024 is free. (R524) -/
def Obligations.QueuePushAndOverrun : Prop :=
  (∀ (s : State) (path : Path) (q : Fin 8) (v : Word) (m : EccMark),
    let x := (s.dev.hostSet (pathOrigin path)).queue q.val
    s.dev.pathOpen path = true → q.val < 4 → x.halted = false →
    (x.free = 0 →
      exec (.queuePush path q v m) s = onward s (s.dev.putQueue (pathOrigin path) q.val { x with overrun := true })) ∧
    (x.free ≠ 0 →
      exec (.queuePush path q v m) s =
        onward s (s.dev.putQueue (pathOrigin path) q.val { x with words := x.words ++ [(v, m)] }))) ∧
  (∀ (d : Dev) (o : Origin) (q : Nat) (x : HQueue), queueOf o ≠ none → ((d.putQueue o q x).hostSet o).queue q = x) ∧
  ∀ (x : HQueue) (q : Nat), bitOf (x.stat q) 0 = decide (x.free = 0)

/-- Pops, waiting pops, their expiry, queue resets, reply writes, halts and unlisted opcodes. QUEUE_POP of one word from a reply
queue whose words read back good gives the front word to the reader and removes it; from an empty queue it waits.
POP_STALL_EXPIRE gives a waiting read all ones and sets STALL_EXP. A read of a command queue's aperture reads 0. Q_CTRL_RESET
of a pair on which no pop waits empties both queues, clears their flags and discards the replies that wait. REPLY_WRITE writes
the first waiting reply once the whole of it fits. QUEUE_HALT: where the head of a running command queue is uncorrectable, or
its LENGTH is below 2 or above 1 024, and no earlier reply waits, the queue is emptied and halted and the reply has tag
0xFFFF_FFFE and status ECC_ERR or BAD_LENGTH with detail 0. BAD_OPCODE_PACKET: a packet that is ready, of an opcode outside
the index, changes nothing but its queue and answers BAD_OPCODE. Clauses that follow a reading of the model: log entries 24,
27, 28, 29. (R523, R526, R543, R529, R525, R528, R533, R548) -/
def Obligations.QueueReadsResetsAndHalts : Prop :=
  (∀ (s : State) (path : Path) (q : Fin 8), s.dev.pathOpen path = true →
    let o := pathOrigin path
    let x := (s.dev.hostSet o).queue q.val
    (q.val < 4 → exec (.queuePop path q 1 []) s = onward s (s.dev.readerGets o [0#32])) ∧
    (4 ≤ q.val → x.stall = none → x.words = [] →
      exec (.queuePop path q 1 []) s =
        onward s ((s.dev.queueSeen path q.val).putQueue o q.val { x with stall := some 1, got := [] })) ∧
    (∀ (w : Word) (m : EccMark) (r : List (Word × EccMark)), 4 ≤ q.val → x.stall = none → x.words = (w, m) :: r →
      exec (.queuePop path q 1 []) s = onward s (((s.dev.queueSeen path q.val).putQueue o q.val
        { x with
          words := r, headLeft := if x.headLeft = 0 then w.toNat % 2 ^ 16 - 1 else x.headLeft - 1,
          stall := none, got := [] }).readerGets o [w])) ∧
    (∀ n : Nat, x.stall = some n → isPcie path = true →
      exec (.popStallExpire path q) s =
        onward s ((s.dev.putQueue o q.val { x with stall := none, got := [], stallExp := true }).readerGets o
          (x.got ++ List.replicate n 0xFFFF_FFFF#32))) ∧
    (((s.dev.hostSet o).queue (q.val % 4 + 4)).stall = none →
      ∃ d : Dev, exec (.qCtrlReset path q) s = onward s d ∧
        (∀ i ∈ [q.val % 4, q.val % 4 + 4], ((d.hostSet o).queue i).words = [] ∧ ((d.hostSet o).queue i).halted = false ∧
          ((d.hostSet o).queue i).overrun = false ∧ ((d.hostSet o).queue i).stallExp = false) ∧
        Tab.look [] (q.val % 4 + 4) (d.hostSet o).waiting = [] ∧ d.regs = s.dev.regs ∧ d.mem = s.dev.mem) ∧
    (∀ (c : Fin 4) (r : Reply) (rest : List Reply), Tab.look [] (c.val + 4) (s.dev.hostSet o).waiting = r :: rest →
      r.words.length ≤ ((s.dev.hostSet o).queue (c.val + 4)).free →
      exec (.replyWrite path c) s = onward s ((s.dev.setHostSet o { s.dev.hostSet o with
        waiting := Tab.put (c.val + 4) rest (s.dev.hostSet o).waiting }).writeReply o (c.val + 4) r.words))) ∧
  (∀ (s : State) (q : Fin 4) (w : Word) (m : EccMark) (r : List (Word × EccMark)),
    let x := s.dev.host.pf1.queue q.val
    x.words = (w, m) :: r → m = .uncorr ∨ w.toNat % 2 ^ 16 < 2 ∨ 1024 < w.toNat % 2 ^ 16 → x.halted = false →
    Tab.look [] (q.val + 4) s.dev.host.pf1.waiting = [] → s.dev.host.outstanding = [] →
      exec (.queueHalt .pf1 q) s = onward s ((s.dev.putQueue (.pf1 q) q.val { x with
        words := [], halted := true,
        uncorrCnt := if m = .uncorr then satU 16 (x.uncorrCnt + 1) else x.uncorrCnt }).answer (.pf1 q) (w.toNat / 2 ^ 20)
          0xFFFF_FFFE#32 false (if m = .uncorr then .eccErr else .badLength 0))) ∧
  ∀ (s : State) (op : BitVec 12) (p : Packet) (n : Nat), opcodeExists op.toNat = false → s.dev.Ready p op.toNat n false →
    exec (.badOpcodePacket op p) s = replied s p op.toNat (s.dev.taken p op.toNat) .badOpcode

/-- A packet that fails a check is answered with the first failure and changes nothing else. EPOCH_SET_MARGIN stands for the
privileged commands. Once its words are taken good: reserved bits answer BAD_PARAM 0; else a tag of the device's own BAD_PARAM
1; else a source without the rights DENIED, counted once; else a wrong length BAD_LENGTH with the length required; else after
a failed boot BUSY; else on a standby EPOCH_INFO, which changes no state, still runs. Whenever a packet is taken, every field
of the register file but the violation counters and EPK_DEADLINE keeps its value. Clauses that follow a reading of the model:
log entries 22, 23, 25, 34, 35. (R533, R518, R531, R500, R575) -/
def Obligations.PacketChecksInOrder : Prop :=
  ∀ (s : State) (p : Packet), s.dev.Takes p 0x120 →
    (p.rsv % 4 ≠ 0 → exec (.epochSetMargin p) s = replied s p 0x120 (s.dev.taken p 0x120) (.badParam 0)) ∧
    (p.rsv % 4 = 0 → 0xFFFF_FFF0 ≤ p.tag.toNat →
      exec (.epochSetMargin p) s = replied s p 0x120 (s.dev.taken p 0x120) (.badParam 1)) ∧
    (p.rsv % 4 = 0 → p.tag.toNat < 0xFFFF_FFF0 → s.dev.privileged p.origin = false →
      exec (.epochSetMargin p) s = replied s p 0x120 ((s.dev.taken p 0x120).countViolation p.origin) .denied) ∧
    (p.rsv % 4 = 0 → p.tag.toNat < 0xFFFF_FFF0 → s.dev.privileged p.origin = true → p.params.length ≠ 1 →
      exec (.epochSetMargin p) s = replied s p 0x120 (s.dev.taken p 0x120) (.badLength 3)) ∧
    (p.rsv % 4 = 0 → p.tag.toNat < 0xFFFF_FFF0 → s.dev.privileged p.origin = true → p.params.length = 1 →
      s.dev.r Reg.GLB_BOOT_FAIL_STAGE ≠ 0 →
      exec (.epochSetMargin p) s = replied s p 0x120 (s.dev.taken p 0x120) .busy) ∧
    ∃ d : Dev, exec (.epochSetMargin p) s = onward s d ∧ d.mem = s.dev.mem ∧
      ∀ f : Field, f.key ≠ Reg.PRIV_VIOL_CNT_PF0.key → f.key ≠ Reg.PRIV_VIOL_CNT_OTHER.key →
        f.key ≠ Reg.EPK_DEADLINE_MARGIN_NS.key → d.r f = s.dev.r f

/-- MSI-X unmasking, PERST and power states, and SPI transactions. MSIX_UNMASK of a vector with a pending trigger in D0 sends one
message and clears the pending bit; without one it only unmasks. PCIE_PERST low resets masks, pending bits, table and power
state of both functions and keeps the queues. PCIE_POWER_STATE sets the power state and nothing else; a trigger in D3hot sends
nothing. With the SPI target enabled: SPI_WRITE of one whole word is the register write of that word by the unprivileged path;
with SPI_PRIV set SPI_WRITE_PRIVILEGED is that of the privileged path; an incomplete last word counts as partial. SPI_READ and
SPI_READ_PRIVILEGED of one word outside the reply queues' apertures give the word at that address after the byte 0xA5.
SPI_STATUS sends the status byte and clears the pending triggers. An unknown command byte counts as unmapped. With the target
off, nothing changes. Clauses that follow a reading of the model: log entries 15, 18, 19, 20, 21. (R520, R539, R540, R596,
R541, R542, R543, R515, R517, R518, R513) -/
def Obligations.HostLinks : Prop :=
  (∀ (s : State) (v : Fin 8), s.dev.host.perst = false →
    (bitOf s.dev.host.pf1.pend v.val = true → s.dev.host.pf1.d3hot = false →
      exec (.msixUnmask true v) s = onward s { s.dev with host := { s.dev.host with pf1 := { s.dev.host.pf1 with
        masked := setBit s.dev.host.pf1.masked v.val false, pend := setBit s.dev.host.pf1.pend v.val false,
        sent := Tab.put v.val (Tab.look 0 v.val s.dev.host.pf1.sent + 1) s.dev.host.pf1.sent } } }) ∧
    (bitOf s.dev.host.pf0.pend v.val = false →
      exec (.msixUnmask false v) s = onward s { s.dev with host := { s.dev.host with pf0 := { s.dev.host.pf0 with
        masked := setBit s.dev.host.pf0.masked v.val false } } })) ∧
  (∀ s : State, exec (.pciePerst true) s = onward s { s.dev with host := { s.dev.host with
    perst := true,
    pf1 := { s.dev.host.pf1 with masked := 0xFF, pend := 0, msixWords := [], d3hot := false },
    pf0 := { s.dev.host.pf0 with masked := 0xFF, pend := 0, msixWords := [], d3hot := false } } }) ∧
  (∀ s : State, exec (.pciePerst false) s = onward s { s.dev with host := { s.dev.host with perst := false } }) ∧
  (∀ (s : State) (d3 : Bool), s.dev.host.perst = false →
    exec (.pciePowerState true d3) s =
      onward s { s.dev with host := { s.dev.host with pf1 := { s.dev.host.pf1 with d3hot := d3 } } }) ∧
  (∀ (h : HostSet) (v : Nat), h.d3hot = true → h.trigger v = h) ∧
  ∀ s : State,
    (s.dev.b Reg.GLB_HOST_CFG_SPI_EN = true →
      (∀ a v : Word,
        exec (.spiWrite a [v] false) s = onward s (s.dev.writeAccess s.grade (.spi false) a.toNat v.toNat true) ∧
        exec (.spiWrite a [] true) s = onward s (s.dev.inc Reg.HOST_ERR_CNT_PARTIAL) ∧
        (s.dev.b Reg.GLB_HOST_CFG_SPI_PRIV = true →
          exec (.spiWritePrivileged a [v] false) s =
            onward s (s.dev.writeAccess s.grade (.spi true) a.toNat v.toNat true))) ∧
      (∀ a : Word, a.toNat % 4 = 0 → queueRegion a.toNat = none →
        (∀ q ∈ [4, 5, 6, 7], (s.dev.host.spi.queue q).stall = none) →
        (let x := { s.dev with host := { s.dev.host with spiByte := 0 } }.hostRead s.grade (.spi false) a.toNat
         exec (.spiRead a 1 []) s = onward s (x.1.readerGets (.spi 0 false) [W x.2])) ∧
        (s.dev.b Reg.GLB_HOST_CFG_SPI_PRIV = true →
          let x := { s.dev with host := { s.dev.host with spiByte := 0 } }.hostRead s.grade (.spi true) a.toNat
          exec (.spiReadPrivileged a 1 []) s = onward s (x.1.readerGets (.spi 0 true) [W x.2]))) ∧
      (exec .spiStatus s =
        onward s { s.dev with host := { s.dev.host with spiByte := s.dev.spiStatusByte, spiPend := 0 } }) ∧
      ∀ cmd : Byte, cmd.toNat ∉ [0x02, 0x12, 0x0B, 0x1B, 0x05] →
        exec (.spiUnknownCommand cmd) s = onward s (s.dev.inc Reg.HOST_ERR_CNT_UNMAPPED)) ∧
    (s.dev.b Reg.GLB_HOST_CFG_SPI_EN = false →
      (∀ (a : Word) (ws : List Word) (part : Bool), exec (.spiWrite a ws part) s = onward s s.dev) ∧
      exec .spiStatus s = onward s s.dev ∧ ∀ cmd : Byte, exec (.spiUnknownCommand cmd) s = onward s s.dev)

/-- Device commands: information, echo, host statistics, notices, remote packets, health. For packets that are ready: DEV_INFO
gives identity and versions; DEV_ECHO returns its words; DEV_HOST_STAT gives the error counters and the queues' status of the
source; DEV_NOTICE_CFG sets the notices of the source's function; DEV_HEALTH gives GLB_HEALTH and the epoch. DEV_REMOTE to a
joined peer sends the embedded packet in an envelope and waits; to a peer that is not joined it answers BAD_PARAM.
DEV_REMOTE_TIMEOUT answers those that have waited too long. Clauses that follow a reading of the model: log entries 31, 32,
33. (R546, R547, R532, R538) -/
def Obligations.DeviceCommands : Prop :=
  ∀ (s : State) (p : Packet),
    (s.dev.Ready p 0x000 0 false → exec (.devInfo p) s = replied s p 0x000 (s.dev.taken p 0x000)
      (.ok [identWord s.grade 0, identWord s.grade 1, identWord s.grade 2, s.dev.r Reg.SEC_FW_VER, s.dev.r Reg.SEC_CFG_VER,
        s.dev.regWord 0xE0_0028, s.dev.r Reg.SEC_SPS_VER])) ∧
    (s.dev.Ready p 0x001 p.params.length false → p.params.length ≤ 364 →
      exec (.devEcho p) s = replied s p 0x001 (s.dev.taken p 0x001) (.ok (p.params.map BitVec.toNat))) ∧
    (∀ q : Fin 4, p.origin = .pf1 q → s.dev.Ready p 0x002 0 false →
      exec (.devHostStat p) s = replied s p 0x002 (s.dev.taken p 0x002)
        (.ok ([s.dev.regWord 0x14, s.dev.regWord 0x18, s.dev.regWord 0x1C] ++
          (List.range 8).flatMap (fun i =>
            [((s.dev.taken p 0x002).host.pf1.queue i).stat i, ((s.dev.taken p 0x002).host.pf1.queue i).ecc])))) ∧
    (∀ q : Fin 4, p.origin = .pf0 q → s.dev.Ready p 0x003 1 false →
      exec (.devNoticeCfg p) s = replied s p 0x003 ((s.dev.taken p 0x003).setHostSet (.pf0 q)
        { (s.dev.taken p 0x003).host.pf0 with
          calNotice := bitOf (p.arg 0) 0, healthNotice := bitOf (p.arg 0) 1, commitDiv := p.arg 0 / 2 ^ 16, commitCnt := 0 })
        (.ok [])) ∧
    (s.dev.Ready p 0x020 0 false → exec (.devHealth p) s = replied s p 0x020 (s.dev.taken p 0x020)
      (.ok [s.dev.healthWord, loW (s.dev.r Reg.EPK_NOW), hiW (s.dev.r Reg.EPK_NOW)])) ∧
    (∀ q : Fin 4, p.origin = .pf1 q → s.dev.Ready p 0x010 p.params.length false →
      needRemote (p.params.map BitVec.toNat) = none →
      (s.dev.r (Reg.TLB_PEER_STATE (p.arg 0)) ≠ 2 →
        exec (.devRemote p) s = replied s p 0x010 (s.dev.taken p 0x010) (.badParam 2)) ∧
      (p.arg 0 < 4096 → p.arg 0 ≠ s.dev.r Reg.TLB_DOMAIN_SELF → s.dev.r (Reg.TLB_PEER_STATE (p.arg 0)) = 2 →
        p.arg 1 ≤ 1 → p.params.length ≤ 369 →
        let x := (s.dev.taken p 0x010).sendRequest (p.arg 0) (p.arg 1 == 1) false (p.params.drop 2)
        exec (.devRemote p) s = onward s { x.1 with host := { x.1.host with outstanding := x.1.host.outstanding ++
          [⟨p.origin, 0x010, p.tag, p.quietOk, x.2, p.arg 0, false⟩] } })) ∧
    ∀ (x : Remote) (c : Nat), s.dev.tlb.remotes = [x] → x.attest = false → x.cycle = some c →
      c + 16 ≤ s.dev.r Reg.TLB_DCYCLE →
      exec .devRemoteTimeout s =
        onward s ({ s.dev with tlb := { s.dev.tlb with remotes := [] } }.settle 0x010 x.seq .timeout)

/-- Image and cut commands: what they answer and change. For packets that are ready: EPOCH_INFO, IMG_READ, IMG_READ_REC and
CUT_STATUS answer the values of the front and of the cut and change nothing but their queue; IMG_READ refuses a range past the
last signal. IMG_HOLD adds a standing hold, at most 255, and starts its count again; IMG_RELEASE drops one. CUT_ARM with no
cut armed arms the cut for a later epoch and answers it, or answers PAST; while a cut is armed the same ID answers its epoch
and another ID BUSY. CUT_RELEASE of the same ID returns to idle, of another answers BAD_PARAM. EPOCH_SET_MARGIN stores a
margin in range for the next boundary. Clauses that follow a reading of the model: log entry 23. (R50, R51, R33, R34, R45,
R46, R22) -/
def Obligations.ImageCommands : Prop :=
  ∀ (s : State) (p : Packet),
    (s.dev.Ready p 0x100 0 false → exec (.epochInfo p) s = replied s p 0x100 (s.dev.taken p 0x100)
      (.ok [loW (s.dev.r Reg.EPK_NOW), hiW (s.dev.r Reg.EPK_NOW), loW s.dev.frontEpoch, hiW s.dev.frontEpoch,
        s.dev.r Reg.EPK_CFG_K, loW (s.dev.r Reg.EPK_ORIGIN), hiW (s.dev.r Reg.EPK_ORIGIN)])) ∧
    (s.dev.Ready p 0x101 0 false → exec (.imgHold p) s = replied s p 0x101
      { s.dev.taken p 0x101 with ep := { s.dev.ep with cmdCount := min 255 (s.dev.ep.cmdCount + 1), cmdAge := 0 } }
      (.ok [loW s.dev.frontEpoch, hiW s.dev.frontEpoch])) ∧
    (s.dev.Ready p 0x102 0 false → exec (.imgRelease p) s = replied s p 0x102
      { s.dev.taken p 0x102 with ep := { s.dev.ep with cmdCount := s.dev.ep.cmdCount - 1 } } (.ok [])) ∧
    (s.dev.Ready p 0x103 2 false → 5 + p.arg 1 ≤ replyLimit p.origin →
      exec (.imgRead p) s = replied s p 0x103 (s.dev.taken p 0x103)
        (if 262144 ≤ p.arg 0 then .badParam 2
         else if p.arg 1 < 1 ∨ 1000 < p.arg 1 then .badParam 3
         else if 262144 < p.arg 0 + p.arg 1 then .badParam 0
         else .ok ([loW s.dev.frontEpoch, hiW s.dev.frontEpoch] ++ (List.range (p.arg 1)).map (fun i =>
           if s.dev.ep.front.valid then Mem.word s.dev.ep.front.vals (4 * (p.arg 0 + i)) else 0)))) ∧
    (s.dev.Ready p 0x104 1 false → p.arg 0 < 262144 → s.dev.ep.front.valid = true →
      exec (.imgReadRec p) s = replied s p 0x104 (s.dev.taken p 0x104) (match s.dev.ep.front.recOf (p.arg 0) with
        | some r => .ok r.words
        | none => .ok [0, 0, 0, 0])) ∧
    (s.dev.Ready p 0x110 3 false →
      let n := pair64 (p.arg 1) (p.arg 2) / s.dev.r Reg.EPK_CFG_K
      let d := s.dev.taken p 0x110
      exec (.cutArm p) s =
        if s.dev.r Reg.IMG_CUT_STAT_STATE = 0 then
          if n ≤ s.dev.r Reg.EPK_NOW then replied s p 0x110 d .past
          else replied s p 0x110 (((d.w Reg.IMG_CUT_STAT_STATE 1).w Reg.IMG_CUT_ID (p.arg 0)).w Reg.IMG_CUT_EPOCH n)
            (.ok [loW n, hiW n])
        else if s.dev.r Reg.IMG_CUT_ID = p.arg 0 then
          replied s p 0x110 d (.ok [loW (s.dev.r Reg.IMG_CUT_EPOCH), hiW (s.dev.r Reg.IMG_CUT_EPOCH)])
        else replied s p 0x110 d .busy) ∧
    (s.dev.Ready p 0x111 1 false →
      exec (.cutRelease p) s =
        if s.dev.r Reg.IMG_CUT_STAT_STATE = 0 then replied s p 0x111 (s.dev.taken p 0x111) (.ok [])
        else if s.dev.r Reg.IMG_CUT_ID = p.arg 0 then
          let d := (((s.dev.taken p 0x111).w Reg.IMG_CUT_STAT_STATE 0).w Reg.IMG_CUT_STAT_SLIPPED 0).w Reg.IMG_CUT_ID 0
          replied s p 0x111 { d with ep := { d.ep with cutHold := false, cutAge := 0 } } (.ok [])
        else replied s p 0x111 (s.dev.taken p 0x111) (.badParam 2)) ∧
    (s.dev.Ready p 0x112 0 false → exec (.cutStatus p) s = replied s p 0x112 (s.dev.taken p 0x112)
      (.ok [s.dev.r Reg.IMG_CUT_STAT_EXPIRED * 8 + s.dev.r Reg.IMG_CUT_STAT_SLIPPED * 4 + s.dev.r Reg.IMG_CUT_STAT_STATE,
        s.dev.r Reg.IMG_CUT_ID, loW (s.dev.r Reg.IMG_CUT_EPOCH), hiW (s.dev.r Reg.IMG_CUT_EPOCH)])) ∧
    (s.dev.Ready p 0x120 1 true → 1000 ≤ p.arg 0 → 2 * p.arg 0 ≤ s.dev.r Reg.EPK_CFG_K * 15625 →
      exec (.epochSetMargin p) s = replied s p 0x120
        (let d := (s.dev.taken p 0x120).w Reg.EPK_DEADLINE_MARGIN_NS (p.arg 0)
         { d with ep := { d.ep with marginPending := some (p.arg 0) } }) (.ok []))

/-- Holders of the image front, their expiry, and the close of the intake window. HOST_HOLD_SET and HOST_HOLD_CLEAR set and
release the holder of the path's function and keep its count while it stays set. HOLD_EXPIRE, CMD_HOLD_EXPIRE and CUT_EXPIRE
release a holder that has lasted its limit and set its EXPIRED, and do nothing before. INTAKE_CLOSE closes the window of the
image epoch and discards and counts the publications still incomplete. Clauses that follow a reading of the model: log entries
36, 38. (R41, R42, R43, R46, R24, R350) -/
def Obligations.FrontHolders : Prop :=
  ∀ s : State,
    (s.dev.pathOpen .pf1 = true →
      exec (.hostHoldSet .pf1) s = onward s { s.dev with ep := { s.dev.ep with
        pf1Hold := true, pf1Age := if s.dev.ep.pf1Hold then s.dev.ep.pf1Age else 0 } } ∧
      exec (.hostHoldClear .pf1) s = onward s { s.dev with ep := { s.dev.ep with pf1Hold := false, pf1Age := 0 } }) ∧
    (s.dev.pathOpen .pf0 = true →
      exec (.hostHoldSet .pf0) s = onward s { s.dev with ep := { s.dev.ep with
        pf0Hold := true, pf0Age := if s.dev.ep.pf0Hold then s.dev.ep.pf0Age else 0 } } ∧
      exec (.hostHoldClear .pf0) s = onward s { s.dev with ep := { s.dev.ep with pf0Hold := false, pf0Age := 0 } }) ∧
    exec (.holdExpire true) s = onward s
      (if s.dev.ep.pf1Hold = true ∧ s.dev.r Reg.IMG_CFG_HOLD_MAX ≤ s.dev.ep.pf1Age + 1 then
        { s.dev with ep := { s.dev.ep with pf1Hold := false, pf1Age := 0, pf1Expired := true } } else s.dev) ∧
    exec (.holdExpire false) s = onward s
      (if s.dev.ep.pf0Hold = true ∧ s.dev.r Reg.IMG_CFG_HOLD_MAX ≤ s.dev.ep.pf0Age + 1 then
        { s.dev with ep := { s.dev.ep with pf0Hold := false, pf0Age := 0, pf0Expired := true } } else s.dev) ∧
    exec .cmdHoldExpire s = onward s
      (if 0 < s.dev.ep.cmdCount ∧ s.dev.r Reg.IMG_CFG_HOLD_MAX ≤ s.dev.ep.cmdAge + 1 then
        { s.dev with ep := { s.dev.ep with cmdCount := 0, cmdAge := 0, cmdExpired := true } } else s.dev) ∧
    exec .cutExpire s = onward s
      (if s.dev.r Reg.IMG_CUT_STAT_STATE = 2 ∧ s.dev.r Reg.IMG_CUT_MAX_CUT_MAX ≤ s.dev.ep.cutAge + 1 then
        (let d := ((s.dev.w Reg.IMG_CUT_STAT_STATE 0).w Reg.IMG_CUT_STAT_SLIPPED 0).w Reg.IMG_CUT_ID 0
         ({ d with ep := { d.ep with cutHold := false, cutAge := 0 } }).w Reg.IMG_CUT_STAT_EXPIRED 1) else s.dev) ∧
    exec .intakeClose s = onward s
      (let d := s.dev.add Reg.TLB_INCOMPLETE_CNT s.dev.tlb.partials.length
       { d with ep := { d.ep with intakeClosed := true }, tlb := { d.tlb with partials := [] } })

/-- A commit point ends an epoch in the order of the timeline, and the next epoch begins. COMMIT_POINT before lock, before boot
stage LOCK_WAIT or after a failed boot changes nothing. With an epoch placed and committing: time reaches the next boundary;
Paddock, loop and field hand over, the image of the epoch is built, flipped and frozen, the trace row is written, the pair and
the notices follow, and the next epoch begins with its engines. An epoch that does not commit is dropped whole. With no epoch
placed only the first boundary is placed. EPOCH_DEADLINE comes once an epoch, T_E minus the margin after its boundary, to
ring, loop and scheduler. The image built for epoch n is valid, has epoch n and becomes the last committed; the front follows
unless a holder pins it. Clauses that follow a reading of the model: log entries 38, 40, 41, 43. (R19, R20, R21, R22, R23,
R35, R42, R47, R573) -/
def Obligations.CommitPointOrder : Prop :=
  (∀ s : State, s.dev.locked = false ∨ s.dev.r Reg.GLB_BOOT_STAGE < 9 ∨ s.dev.r Reg.GLB_BOOT_FAIL_STAGE ≠ 0 →
    exec .commitPoint s = onward s s.dev) ∧
  (∀ s : State, s.dev.locked = true → 9 ≤ s.dev.r Reg.GLB_BOOT_STAGE → s.dev.r Reg.GLB_BOOT_FAIL_STAGE = 0 →
    (s.dev.ep.placed = false →
      exec .commitPoint s = onward s
        ((s.dev.reach (s.dev.countAt (s.dev.r Reg.EPK_ORIGIN + s.dev.firstEpoch * s.dev.te))).boundary s.grade
          s.dev.firstEpoch false)) ∧
    (s.dev.ep.placed = true →
      let n := s.dev.r Reg.EPK_NOW
      let d := s.dev.reach (s.dev.countAt (s.dev.r Reg.EPK_ORIGIN + (n + 1) * s.dev.te))
      (d.commits = true → exec .commitPoint s = onward s
        (((((((((d.pdkEpochEnd s.grade).loopCommit.publishField.commitImage n).keepFront n).traceCommit n).takeoverDone n).pairCommit
          s.grade n).firstDone s.grade d.ep.committedOnce).commitNotices.pins).boundary s.grade (n + 1) true)) ∧
      (d.commits = false → exec .commitPoint s = onward s
        (((d.dropEpoch.pairIdle n).handoverRelease).boundary s.grade (n + 1) false)))) ∧
  (∀ s : State,
    (s.dev.ep.placed = false ∨ s.dev.ep.deadlinePassed = true → exec .epochDeadline s = onward s s.dev) ∧
    (s.dev.ep.placed = true → s.dev.ep.deadlinePassed = false → exec .epochDeadline s = onward s
      (let d := (s.dev.reach (s.dev.countAt (s.dev.boundaryNs + s.dev.te - s.dev.ep.margin))).ringDeadline.loopDeadline.ostDeadline
       { d with ep := { d.ep with deadlinePassed := true } }))) ∧
  ∀ (d : Dev) (n : Nat),
    (d.buildImage n).ep.newest.valid = true ∧ (d.buildImage n).ep.newest.epoch = n ∧
      (d.buildImage n).ep.lastCommitted = n ∧ (d.buildImage n).ep.before = d.ep.newest ∧
      (d.buildImage n).ep.front = d.ep.front ∧
      (d.pinned = true → d.flip = d) ∧
      (d.pinned = false → d.flip.ep.front = d.ep.newest ∧ d.flip.mem = d.mem) ∧
      (d.Sound → d.pinned = false → d.ep.newest.valid = true →
        d.flip.r Reg.IMG_FRONT = d.ep.newest.epoch % 2 ^ 64)

/-- Time commands: what they answer and change. For packets that are ready: TIME_INFO, PTP_STATUS and TIME_CONVERT answer the time
state, a port and the domain time of a count and change nothing but their queue. TIME_SEED in FREE or GM_SETTLE keeps a seed
not below its floor, and is BUSY in every other state. TIME_RESTEP is BUSY while a re-step waits; in LOCKED or HOLDOVER, mode
0 steps by the newest offset at the next rate point; in GM, mode 1 steps to the value given. Clauses that follow a reading of
the model: log entry 54. (R103, R104, R105, R84, R91, R86) -/
def Obligations.TimeCommands : Prop :=
  ∀ (s : State) (p : Packet),
    (s.dev.Ready p 0x900 0 false → exec (.timeInfo p) s = replied s p 0x900 (s.dev.taken p 0x900)
      (.ok [s.dev.tbStateWord, loW s.dev.nowNs, hiW s.dev.nowNs, s.dev.now / 2 ^ 16 % 2 ^ 16, loW s.dev.time.c,
        hiW s.dev.time.c, s.dev.r Reg.TB_RATE, s.dev.r Reg.TB_OFFS_ERR, s.dev.errEst])) ∧
    (s.dev.Ready p 0x901 2 true →
      let ns := pair64 (p.arg 0) (p.arg 1)
      (s.dev.tstate = 0 ∨ s.dev.tstate = 4 → s.dev.r Reg.TB_SEED_FLOOR ≤ ns →
        exec (.timeSeed p) s = replied s p 0x901
          { s.dev.taken p 0x901 with time := { s.dev.time with seed := some ns } } (.ok [])) ∧
      (s.dev.tstate = 0 ∨ s.dev.tstate = 4 → ns < s.dev.r Reg.TB_SEED_FLOOR →
        exec (.timeSeed p) s = replied s p 0x901 (s.dev.taken p 0x901) (.badParam 0)) ∧
      (s.dev.tstate ≠ 0 → s.dev.tstate ≠ 4 →
        exec (.timeSeed p) s = replied s p 0x901 (s.dev.taken p 0x901) .busy)) ∧
    (s.dev.Ready p 0x902 1 true → p.arg 0 = 0 →
      (s.dev.time.pendRestep = true →
        exec (.timeRestep p) s = replied s p 0x902 (s.dev.taken p 0x902) .busy) ∧
      (∀ e : Int, s.dev.time.pendRestep = false → s.dev.tstate = 2 ∨ s.dev.tstate = 3 → s.dev.time.newestE = some e →
        let at' := s.dev.countAt s.dev.ratePointNs
        exec (.timeRestep p) s = replied s p 0x902
          { s.dev.taken p 0x902 with time := { s.dev.time with
            pendStep := some (.by (-e * 2 ^ 16)), pendRestep := true } }
          (.ok [loW (un 64 (-e / 2 ^ 16)), hiW (un 64 (-e / 2 ^ 16)), loW at', hiW at']))) ∧
    (s.dev.Ready p 0x902 3 true → p.arg 0 = 1 → s.dev.time.pendRestep = false → s.dev.tstate = 5 →
      let ns := pair64 (p.arg 1) (p.arg 2)
      let at' := s.dev.countAt s.dev.ratePointNs
      let by' := un 64 ((ns : Int) - (s.dev.timeAt at' / 2 ^ 32 : Nat))
      exec (.timeRestep p) s = replied s p 0x902
        { s.dev.taken p 0x902 with time := { s.dev.time with pendStep := some (.to ns), pendRestep := true } }
        (.ok [loW by', hiW by', loW at', hiW at'])) ∧
    (s.dev.Ready p 0x903 1 false →
      let n := p.arg 0
      exec (.ptpStatus p) s = replied s p 0x903 (s.dev.taken p 0x903)
        (if 4 ≤ n then .badParam 2 else .ok [s.dev.r (Reg.PORT_STAT_DELAY_HIGH n) * 8 +
          s.dev.r (Reg.PORT_STAT_AS_CAPABLE n) * 4 + s.dev.r (Reg.PORT_STAT_ROLE n), s.dev.r (Reg.PORT_LINK_DELAY n),
          loW (s.dev.r Reg.TB_GM_ID), hiW (s.dev.r Reg.TB_GM_ID), s.dev.r Reg.TB_RESTEP_CNT, s.dev.r Reg.TB_PTP_IGN,
          s.dev.r Reg.TB_PTP_DUP, s.dev.r Reg.TB_TLV_IGN])) ∧
    (s.dev.Ready p 0x904 2 false →
      let c := pair64 (p.arg 0) (p.arg 1)
      exec (.timeConvert p) s = replied s p 0x904 (s.dev.taken p 0x904)
        (if c < (s.dev.time.anchors.getLast?.getD ⟨0, 0, 0⟩).c ∨ s.dev.time.c < c then .badParam 0
         else .ok [loW (s.dev.timeAt c / 2 ^ 32), hiW (s.dev.timeAt c / 2 ^ 32), s.dev.timeAt c / 2 ^ 16 % 2 ^ 16]))

/-- Rate points anchor what is pending; time states change only on their transitions. RATE_POINT with nothing pending only lets
time pass. With a rate or a step pending, time reaches the next multiple of 15 625 ns and a new anchor there takes the rate,
and the step if one waits; nothing stays pending. SYNC_TIMEOUT in LOCKED enters HOLDOVER, in SLEW falls back to FREE with rate
0, and changes nothing in another state. GM_SETTLE_END with a seed enters GM, steps to the seed and names itself grandmaster;
without a seed, or in another state, it changes nothing. Clauses that follow a reading of the model: log entries 51, 53. (R85,
R86, R88, R89, R90, R103) -/
def Obligations.RatePointsAndTimeStates : Prop :=
  ∀ s : State,
    (let cx := max s.dev.time.c (s.dev.countAt s.dev.ratePointNs)
     (s.dev.time.pendR = none → s.dev.time.pendStep = none →
       exec .ratePoint s = onward s { s.dev with time := { s.dev.time with c := cx } }) ∧
     (s.dev.time.pendR ≠ none ∨ s.dev.time.pendStep ≠ none →
       ∃ d : Dev, exec .ratePoint s = onward s d ∧ d.time.c = cx ∧ d.time.pendR = none ∧ d.time.pendStep = none ∧
         d.anchor.c = cx ∧ d.anchor.r = s.dev.time.pendR.getD s.dev.anchor.r ∧
         (s.dev.time.pendStep = none → d.anchor.d = s.dev.timeAt cx) ∧
         (∀ ns : Nat, s.dev.time.pendStep = some (.to ns) → d.anchor.d = ns * 2 ^ 32) ∧
         d.mem = s.dev.mem ∧ d.host = s.dev.host)) ∧
    (s.dev.tstate = 2 → exec .syncTimeout s = onward s (s.dev.enter 3)) ∧
    (s.dev.tstate = 1 → exec .syncTimeout s = onward s
      ({ s.dev.enter 0 with time := { (s.dev.enter 0).time with pendR := some 0 } }.bestMaster)) ∧
    (s.dev.tstate ≠ 1 → s.dev.tstate ≠ 2 → exec .syncTimeout s = onward s s.dev) ∧
    (∀ ns : Nat, s.dev.tstate = 4 → s.dev.time.seed = some ns →
      exec .gmSettleEnd s = onward s ((({ s.dev with time := { s.dev.time with pendStep := some (.to ns) } }.enter 5).w
        Reg.TB_GM_ID (s.dev.r Reg.TB_CLOCK_ID)).showRoles)) ∧
    (s.dev.tstate ≠ 4 ∨ s.dev.time.seed = none → exec .gmSettleEnd s = onward s s.dev) ∧
    ∀ (st : Nat), s.dev.Sound → st < 8 → (s.dev.enter st).tstate = st ∧
      ((s.dev.enter st).locked = true ↔ st = 2 ∨ st = 3 ∨ st = 5)

/-- A Sync of the selected master steers the servo and goes on once. SYNC_RECEIVE, servo started, one-step, multicast, own domain,
version 2: a Sync seen before on the network is dropped and counted; a new one on a slave port that hears its master and is
usable is used, by the state: FREE enters SLEW with a step by the offset; where the twin port is usable too the Sync goes on
there with its correction and is remembered. A message of another domain, or before the servo starts, changes only the count.
Clauses that follow a reading of the model: log entries 50, 52. (R89, R92, R95, R96, R99, R100, R572) -/
def Obligations.SyncIsUsedAndForwarded : Prop :=
  ∀ (s : State) (p : Fin 4) (m : PtpMsg) (cMac cOut : Nat),
    let d := s.dev.reach cMac
    let e := d.offsetOf p.val m cMac
    let key := (m.srcId, m.srcPort, m.seq)
    let seen := Tab.look [] (p.val / 2) s.dev.time.fwd
    (s.dev.boot.servo = false → exec (.syncReceive p m cMac cOut) s = onward s d) ∧
    ((d.ptpAccept m).2 = true ↔ s.dev.boot.servo = true ∧ m.version = 2 ∧ m.domain = s.dev.r Reg.TB_PTP_CFG_DOMAIN ∧
      m.unicast = false) ∧
    (s.dev.boot.servo = true → (d.ptpAccept m).2 = false →
      exec (.syncReceive p m cMac cOut) s = onward s ((d.add Reg.TB_TLV_IGN m.tlvs).inc Reg.TB_PTP_IGN)) ∧
    ((d.ptpAccept m).2 = true → m.twoStep = false →
      let d1 := d.add Reg.TB_TLV_IGN m.tlvs
      (seen.contains key = true → exec (.syncReceive p m cMac cOut) s = onward s (d1.inc Reg.TB_PTP_DUP)) ∧
      (∀ f : Foreign, seen.contains key = false → d1.b (Reg.PORT_STAT_AS_CAPABLE p.val) = true →
        s.dev.time.slavePort = some p.val → (s.dev.ptp p.val).foreign = some f → f.srcId = m.srcId →
        let d2 := d1.useSync m (d1.offsetOf p.val m cMac) cMac
        exec (.syncReceive p m cMac cOut) s = onward s
          (if d2.b (Reg.PORT_STAT_AS_CAPABLE (twinPort p.val)) then
            (let d3 := d2.forwardSync p.val m cMac cOut
             { d3 with time := { d3.time with fwd := Tab.put (p.val / 2) ((key :: seen).take 8) d3.time.fwd } })
           else d2))) ∧
    (s.dev.Sound → s.dev.tstate = 0 → (s.dev.useSync m e cMac).tstate = 1 ∧
      (s.dev.useSync m e cMac).time.pendStep = some (.by (-e * 2 ^ 16)) ∧
      (s.dev.useSync m e cMac).time.newestE = some e ∧ (s.dev.useSync m e cMac).mem = s.dev.mem)

/-- Announce, peer delay and other PTP messages, received and sent. With the header accepted: ANNOUNCE_RECEIVE of another
grandmaster keeps it on the port, selects and forwards; its timeout forgets it and selects; a Pdelay_Req is answered with the
turnaround; a one-step Pdelay_Resp completes the measurement, a two-step one waits for its follow-up, which completes it;
Signaling and Management go on and are counted. As grandmaster with one linked port, SYNC_SEND sends a one-step Sync of the
egress time, ANNOUNCE_SEND the device's own vector; PDELAY_REQ_SEND sends a request and keeps its egress count. Without the
state or the link nothing is sent. Clauses that follow a reading of the model: log entries 48, 49. (R95, R96, R97, R98) -/
def Obligations.PtpMessagesInAndOut : Prop :=
  ∀ (s : State) (p : Fin 4) (m : PtpMsg) (cMac cOut : Nat),
    (let d := (s.dev.ptpAccept m).1
     (s.dev.ptpAccept m).2 = true → m.gmId ≠ d.r Reg.TB_CLOCK_ID →
      exec (.announceReceive p m) s = onward s ((((d.setPtp p.val { d.ptp p.val with
        foreign := some ⟨[m.priority1, m.clockClass, m.accuracy, m.variance, m.priority2, m.gmId], m.gmId, m.steps,
          m.srcId, m.srcPort⟩ }).bestMaster)).ptpForward p.val m)) ∧
    (s.dev.boot.servo = true → exec (.announceTimeout p) s =
      onward s ((s.dev.setPtp p.val { s.dev.ptp p.val with foreign := none }).bestMaster)) ∧
    (((s.dev.reach cMac).ptpAccept m).2 = true →
      let d := ((s.dev.reach cMac).ptpAccept m).1
      exec (.pdelayReqReceive p m cMac cOut) s = onward s (d.ptpSend p.val { d.ptpHeader p.val 3 m.seq 0x7F with
        corr := m.corr + d.spanTime (d.span p.val cMac p.val cOut), reqId := m.srcId, reqPort := m.srcPort }) ∧
      (d.pdelayMatches p.val m = true →
        (m.twoStep = true → exec (.pdelayRespReceive p m cMac) s =
          onward s (d.setPtp p.val { d.ptp p.val with twoStep := some (cMac, m.ts, m.corr) })) ∧
        (m.twoStep = false → exec (.pdelayRespReceive p m cMac) s =
          onward s (d.pdelayDone p.val ((d.spanTime (20 * ((cMac : Int) - ((d.ptp p.val).req.getD (0, 0)).2) -
            d.r (Reg.PORT_LAT_RX_LAT p.val) - d.r (Reg.PORT_LAT_TX_LAT p.val)) - m.corr) / 2))))) ∧
    ((s.dev.ptpAccept m).2 = true →
      let d := (s.dev.ptpAccept m).1
      (∀ (c2 t2 : Nat) (corr1 : Int), d.pdelayMatches p.val m = true → (d.ptp p.val).twoStep = some (c2, t2, corr1) →
        exec (.pdelayRespFollowUpReceive p m) s = onward s (d.pdelayDone p.val
          ((d.spanTime (20 * ((c2 : Int) - ((d.ptp p.val).req.getD (0, 0)).2) -
            d.r (Reg.PORT_LAT_RX_LAT p.val) - d.r (Reg.PORT_LAT_TX_LAT p.val)) -
            (((m.ts : Int) - t2) * 2 ^ 16 + corr1 + m.corr)) / 2))) ∧
      exec (.ptpOtherReceive p m) s = onward s (if m.kind = 0xC ∨ m.kind = 0xD then
        (d.inc Reg.TB_PTP_IGN).ptpForward p.val m else d.inc Reg.TB_PTP_IGN)) ∧
    (s.dev.tstate = 5 → [0, 1, 2, 3].filter s.dev.portLink = [p.val] →
      exec .syncSend s = onward s (let t := anchorTime s.dev.anchor (20 * ((s.dev.time.c : Int) - s.dev.anchor.c) +
          s.dev.r (Reg.PORT_LAT_TX_LAT p.val))
        ((s.dev.ptpSend p.val { s.dev.ptpHeader p.val 0 (s.dev.ptp p.val).seqSync (s.dev.rs Reg.TB_PTP_CFG_LOG_SYNC) with
          ts := (t / 2 ^ 32).toNat, corr := t / 2 ^ 16 % 2 ^ 16 }).setPtp p.val
          { s.dev.ptp p.val with seqSync := ((s.dev.ptp p.val).seqSync + 1) % 2 ^ 16 })) ∧
      exec .announceSend s = onward s
        ((s.dev.ptpSend p.val { s.dev.ptpHeader p.val 0xB (s.dev.ptp p.val).seqAnn (s.dev.rs Reg.TB_PTP_CFG_LOG_ANN) with
          priority1 := s.dev.r Reg.TB_PTP_PRIO_PRIORITY1, clockClass := s.dev.ownVector.getD 1 0,
          accuracy := s.dev.r Reg.TB_PTP_PRIO_CLOCK_ACCURACY, variance := Config.ownVariance,
          priority2 := s.dev.r Reg.TB_PTP_PRIO_PRIORITY2, gmId := s.dev.r Reg.TB_CLOCK_ID, steps := 0 }).setPtp p.val
          { s.dev.ptp p.val with seqAnn := ((s.dev.ptp p.val).seqAnn + 1) % 2 ^ 16 })) ∧
    (s.dev.tstate ≠ 4 → s.dev.tstate ≠ 5 →
      exec .syncSend s = onward s s.dev ∧ exec .announceSend s = onward s s.dev) ∧
    exec (.pdelayReqSend p) s = onward s (if s.dev.portLink p.val then
      (s.dev.ptpSend p.val (s.dev.ptpHeader p.val 2 (s.dev.ptp p.val).seqPdelay (s.dev.rs Reg.TB_PTP_CFG_LOG_PDELAY))).setPtp p.val
        { s.dev.ptp p.val with
          req := some ((s.dev.ptp p.val).seqPdelay, s.dev.time.c), twoStep := none,
          seqPdelay := ((s.dev.ptp p.val).seqPdelay + 1) % 2 ^ 16 } else s.dev)

/-- Calendar entries and coordinate settings: writes, refusals and commands. A write to words 1 to 7 of an enabled entry only sets
EDIT_REFUSED; to a disabled entry it stores the word. Enabling an entry that passes the checks enables it, one that fails only
sets BAD_ENABLE. COORD_CFG_WRITE of a code out of range only sets BAD_CFG, else it stores the fields. For packets that are
ready: CAL_WRITE stores all words of a disabled entry and is BUSY on an enabled one; CAL_READ, CAL_COUNTERS and COORD_READ
answer the entries, counters and the coordinate; CAL_ENABLE is all or nothing; COORD_PRESET keeps a preset for the next
boundary and is BUSY while one waits. Clauses that follow a reading of the model: log entry 23. (R53, R57, R69, R77, R80, R81) -/
def Obligations.CalendarEntriesAndCommands : Prop :=
  (∀ (s : State) (path : Path) (i : Fin 4096) (w : Fin 8) (v : Word), s.dev.pathOpen path = true →
    (s.dev.entryOn i.val = true → w ≠ 0 →
      exec (.calEntryWrite path i w v) s = onward s (s.dev.w Reg.CAL_STAT_EDIT_REFUSED 1)) ∧
    (s.dev.entryOn i.val = false → 1 ≤ w.val → w.val ≤ 6 →
      exec (.calEntryWrite path i w v) s = onward s (s.dev.putMw (0x32_0000 + 32 * i.val + 4 * w.val) v.toNat)) ∧
    (s.dev.entryOn i.val = false →
      exec (.calEntryWrite path i 7 v) s = onward s (s.dev.putMw (0x32_0000 + 32 * i.val + 28) (v.toNat % 2 ^ 24))) ∧
    (s.dev.entryOn i.val = true → bitOf v.toNat 30 = false → bitOf (setBit v.toNat 31 true) 30 = false →
      exec (.calEntryEnableWrite path i v) s = onward s s.dev) ∧
    (s.dev.entryOn i.val = false → bitOf (setBit v.toNat 31 true) 30 = false →
      let keep := s.dev.mw (0x32_0000 + 32 * i.val) % 2 ^ 31 / 2 ^ 28 * 2 ^ 28
      let d := s.dev.putMw (0x32_0000 + 32 * i.val) (keep + Nat.land (setBit v.toNat 31 true) 0x00FF_FF00)
      exec (.calEntryEnableWrite path i v) s =
        onward s (if d.entryRefused i.val then d.w Reg.CAL_STAT_BAD_ENABLE 1 else d.enableEntry i.val))) ∧
  (∀ (d : Dev) (i : Nat), d.Sound →
    (d.enableEntry i).entryOn i = true ∧ i ∈ (d.enableEntry i).cal.enabled) ∧
  (∀ (s : State) (path : Path) (n : Fin 8) (v : Word), s.dev.pathOpen path = true →
    6 ≤ v.toNat % 8 ∨ 8 < bits v.toNat 26 4 ∨ 16 < bits v.toNat 21 5 →
    exec (.coordCfgWrite path n v) s = onward s (s.dev.w (Reg.COORD_STAT_BAD_CFG n.val) 1)) ∧
  (∀ (s : State) (path : Path) (n : Fin 8) (v : Word), s.dev.pathOpen path = true → s.dev.Sound →
    v.toNat % 8 < 6 → bits v.toNat 26 4 ≤ 8 → bits v.toNat 21 5 ≤ 16 → bitOf v.toNat 31 = false →
    ∃ d : Dev, exec (.coordCfgWrite path n v) s = onward s d ∧ d.b (Reg.COORD_CFG_ENABLE n.val) = false ∧
      d.r (Reg.COORD_CFG_KIND n.val) = v.toNat % 8 ∧ d.r (Reg.COORD_CFG_HOLD n.val) = bits v.toNat 21 5 ∧
      d.b (Reg.COORD_STAT_VALID n.val) = false ∧ d.mem = s.dev.mem ∧ d.host = s.dev.host ∧ d.ep = s.dev.ep) ∧
  ∀ (s : State) (p : Packet),
    (s.dev.Ready p 0x360 1 false → p.arg 0 < 8 →
      let n := p.arg 0
      let e := (s.dev.coord n).sampleEpoch
      exec (.coordRead p) s = replied s p 0x360 (s.dev.taken p 0x360)
        (.ok [loW (s.dev.r (Reg.COORD_VAL n)), hiW (s.dev.r (Reg.COORD_VAL n)), loW (s.dev.r (Reg.COORD_VEL n)),
          hiW (s.dev.r (Reg.COORD_VEL n)), s.dev.coordStatWord n, loW e, hiW e])) ∧
    (s.dev.Ready p 0x361 3 false → p.arg 0 < 8 →
      let n := p.arg 0
      let c := s.dev.coord n
      let e := if s.dev.b (Reg.COORD_CFG_ENABLE n) then s.dev.r Reg.EPK_NOW + 1 else noEpoch
      exec (.coordPreset p) s =
        if c.presetNew.isSome ∨ c.presetDue.isSome then replied s p 0x361 (s.dev.taken p 0x361) .busy
        else replied s p 0x361 ((s.dev.taken p 0x361).setCoord n
          { c with presetNew := some (sx 64 (pair64 (p.arg 1) (p.arg 2))) }) (.ok [loW e, hiW e])) ∧
    (s.dev.Ready p 0x362 9 false → p.arg 0 < 4096 →
      (s.dev.entryOn (p.arg 0) = true → exec (.calWrite p) s = replied s p 0x362 (s.dev.taken p 0x362) .busy) ∧
      (s.dev.entryOn (p.arg 0) = false → ∃ d : Dev, exec (.calWrite p) s = replied s p 0x362 d (.ok []) ∧
        d.regs = s.dev.regs ∧ d.cal = s.dev.cal ∧
        (s.dev.Sound → ∀ w ∈ [1, 2, 3, 4, 5, 6], d.mw (0x32_0000 + 32 * p.arg 0 + 4 * w) = p.arg (w + 1) % 2 ^ 32) ∧
        ∀ a : Nat, a < 0x32_0000 + 32 * p.arg 0 ∨ 0x32_0000 + 32 * p.arg 0 + 32 ≤ a →
          Mem.get d.mem a = Mem.get s.dev.mem a)) ∧
    (s.dev.Ready p 0x363 2 false → 3 + 8 * p.arg 1 ≤ replyLimit p.origin →
      p.arg 0 < 4096 → 1 ≤ p.arg 1 → p.arg 1 ≤ 32 → p.arg 0 + p.arg 1 ≤ 4096 →
      exec (.calRead p) s = replied s p 0x363 (s.dev.taken p 0x363)
        (.ok (Mem.words s.dev.mem (0x32_0000 + 32 * p.arg 0 + 4 * 0) (8 * p.arg 1)))) ∧
    (s.dev.Ready p 0x364 3 false → p.arg 0 < 4096 → 1 ≤ p.arg 1 → p.arg 0 + p.arg 1 ≤ 4096 →
      let l := (List.range (p.arg 1)).map (· + p.arg 0)
      let d := s.dev.taken p 0x364
      (p.arg 2 = 0 → exec (.calEnable p) s =
        replied s p 0x364 (d.each (l.filter d.entryOn) (fun j d => d.disableEntry j)) (.ok [0xFFFF_FFFF])) ∧
      (p.arg 2 = 1 → exec (.calEnable p) s = match l.find? d.entryRefused with
        | some j => replied s p 0x364 (d.w Reg.CAL_STAT_BAD_ENABLE 1) ⟨4, 0, [j]⟩
        | none => replied s p 0x364 (d.each (l.filter (fun j => !d.entryOn j)) (fun j d => d.enableEntry j))
            (.ok [0xFFFF_FFFF]))) ∧
    (s.dev.Ready p 0x365 0 false → exec (.calCounters p) s = replied s p 0x365 (s.dev.taken p 0x365)
      (.ok [s.dev.r Reg.CAL_RETRACTED, s.dev.r Reg.CAL_LATE_CNT, s.dev.r Reg.CAL_OVF_CNT, s.dev.r Reg.CAL_CONFLICT_CNT,
        s.dev.r Reg.CAL_FIRED_CNT, s.dev.r Reg.CAL_ENABLED]))

/-- The calendar latches the coordinates, evaluates the enabled events in order and makes due switches. CALENDAR_LATCH samples the
eight coordinates in order; a coordinate with a real product moves its newest value to the one before and takes the product
plus its offset. CALENDAR_EVALUATION retracts what was left over, then evaluates every enabled entry in rising order and
counts one conflict; a stop drops every switch; RUN 0 only publishes. An armed CROSS event whose last two samples cross its
threshold with its qualifiers true fires at once. SWITCH_INSTANT makes the one switch that is due and counts nothing else;
with none due nothing changes. While the engines stand still none of this happens. Clauses that follow a reading of the model:
log entries 44, 45, 47. (R54, R58, R61, R62, R63, R66, R71, R73, R75, R77, R78, R612) -/
def Obligations.CalendarLatchAndEvaluation : Prop :=
  (∀ s : State,
    (s.dev.enginesStill = true →
      exec .calendarLatch s = onward s s.dev ∧ exec .calendarEvaluation s = onward s s.dev) ∧
    (s.dev.enginesStill = false →
      exec .calendarLatch s = onward s (s.dev.latchCoord 0 |>.latchCoord 1 |>.latchCoord 2 |>.latchCoord 3 |>.latchCoord 4
        |>.latchCoord 5 |>.latchCoord 6 |>.latchCoord 7) ∧
      (s.dev.cal.orphans = [] → s.dev.cal.stopping = false → s.dev.cal.run = false →
        exec .calendarEvaluation s = onward s s.dev.publishCalendar) ∧
      (s.dev.cal.orphans = [] → s.dev.cal.stopping = false → s.dev.cal.run = true →
        exec .calendarEvaluation s = onward s
          (let x := s.dev.cal.enabled.foldl evalEvent (s.dev, { acted := [], conflict := false })
           if x.2.conflict then (((x.1.inc Reg.CAL_CONFLICT_CNT).w Reg.CAL_STAT_CONFLICT 1).publishCalendar)
           else x.1.publishCalendar))) ∧
    ((∀ w ∈ s.dev.cal.switches, w.occurred = true) → exec .switchInstant s = onward s s.dev) ∧
    (∀ w : Switch, s.dev.cal.switches = [w] → w.occurred = false → (s.dev.entry w.event).action = 1 →
      s.dev.boundaryNs < w.instant →
      exec .switchInstant s = onward s
        (let d := s.dev.calendarOutput ((s.dev.entry w.event).target % 32) w.level
         { d with cal := { d.cal with
           switches := d.cal.switches.map (fun y => if y.instant == w.instant then { y with occurred := true } else y) } }))) ∧
  (∀ (d : Dev) (n : Nat) (c1 : Coord) (prod : Int), d.b (Reg.COORD_CFG_ENABLE n) = true →
    d.b (Reg.COORD_STAT_LOST n) = false → d.r (Reg.COORD_CFG_KIND n) ≠ 5 →
    d.coordProduct n { d.coord n with presetNow := false, sampleEpoch := d.r Reg.EPK_NOW } = some (c1, prod) →
    c1.gap = false → c1.presetDue = none →
    ((d.latchCoord n).coord n).cur = reduceC (d.modulus n) (prod + c1.offset) ∧
      ((d.latchCoord n).coord n).prev = c1.cur ∧ (d.latchCoord n).mem = d.mem ∧ (d.latchCoord n).host = d.host) ∧
  ∀ (d : Dev) (i : Nat), d.entryOn i = true → (d.entry i).kind = 0 → d.b (Reg.COORD_STAT_VALID (d.entry i).coord) = true →
    bitOf (d.mw (0x32_0000 + 32 * i + 4 * 0)) 28 = true → d.qualified (d.entry i) = true →
    (d.coord (d.entry i).coord).presetNow = false → (Tab.look {} i d.cal.events).seen = true →
    crossShown (d.modulus (d.entry i).coord) (d.entry i) (d.coord (d.entry i).coord) = true →
    d.cal.switches = [] → (d.entry i).action = 0 → d.predicts (d.entry i) = false →
    ∃ d' : Dev, evalEvent (d, { acted := [], conflict := false }) i =
      ((d'.markFired i).afterCross i (d.entry i), { acted := [], conflict := false }) ∧ d'.regs = d.regs ∧ d'.fio = d.fio

/-- A modulo coordinate is reduced into its range, and differences are shortest signed distances. For a modulus MOD above 0, the
reduced value lies in [0, MOD) and differs from the value by a multiple of MOD; the difference of two samples lies in [−MOD/2,
MOD/2), is congruent to the difference, and is −MOD/2 at exactly MOD/2. With MOD 0 the difference is the plain one. Crossings
and windows are taken on these: a rising crossing of x means that the distance from the older sample to x is above 0 and at
most the distance moved, a falling one that it is at most 0 and above the distance moved. (R55) -/
def Obligations.ShortestSignedDistance : Prop :=
  (∀ (m : Nat) (z : Int), 0 < m → 0 ≤ reduceC m z ∧ reduceC m z < m ∧ (m : Int) ∣ z - reduceC m z) ∧
  (∀ (m : Nat) (a b : Int), 0 < m → -(m : Int) ≤ 2 * diffC m a b ∧ 2 * diffC m a b < m ∧ (m : Int) ∣ (a - b) - diffC m a b) ∧
  (∀ (h : Nat) (b : Int), 0 < h → diffC (2 * h) (b + h) b = -(h : Int)) ∧
  (∀ a b : Int, diffC 0 a b = a - b) ∧
  (∀ (d : Dev) (n : Nat), d.modulus n = d.r (Reg.COORD_MOD n)) ∧
  (∀ (m : Nat) (c : Coord) (x : Int),
    (crosses m c x true = true ↔ 0 < diffC m x c.prev ∧ diffC m x c.prev ≤ diffC m c.cur c.prev) ∧
    (crosses m c x false = true ↔ diffC m c.cur c.prev < diffC m x c.prev ∧ diffC m x c.prev ≤ 0)) ∧
  ∀ (m : Nat) (s x y : Int), 0 < m → 0 ≤ s → s < m → 0 ≤ x → x < m → 0 ≤ y → y < m → x ≠ y →
    (insideWindow s x y = true ↔ (s - x) % m < (y - x) % m)

/-- Loop memory writes and the loop commands. COEFF_WINDOW_WRITE without the rights only counts; into the active bank or the
states of an enabled axis only counts and flags; else it stores the word. For packets that are ready: LOOP_INFO and
LOOP_AXIS_READ answer registers; LOOP_ENABLE of valid banks within the evaluation limit takes effect on each named axis at the
next boundary; LOOP_SWAP of valid banks keeps the named axes, mode and epoch, is PAST for an epoch that has begun and BUSY
while a swap waits; LOOP_FAULT_CLEAR clears each named axis that is not refused and answers the others. Clauses that follow a
reading of the model: log entries 73, 74, 75. (R134, R135, R137, R128, R141, R11, R3) -/
def Obligations.LoopMemoryAndCommands : Prop :=
  (∀ (s : State) (path : Path) (w : Fin 131072) (v : Word), s.dev.pathOpen path = true →
    (s.dev.pathPriv path = false → exec (.coeffWindowWrite path w v) s = onward s (s.dev.countPath path)) ∧
    (s.dev.pathPriv path = true → w.val / 1024 < axesOf s.grade →
      let a := w.val / 1024
      let o := 4 * w.val % 0x1000
      (s.dev.axisOn a = true → o < 0x800 → o / 0x400 = s.dev.bankOf a →
        exec (.coeffWindowWrite path w v) s = onward s ((s.dev.inc Reg.LOOP_WR_IGN).w Reg.LOOP_STAT_ACTIVE_WR 1)) ∧
      (s.dev.axisOn a = true → 0x800 ≤ o → o < 0x980 →
        exec (.coeffWindowWrite path w v) s = onward s ((s.dev.inc Reg.LOOP_WR_IGN).w Reg.LOOP_STAT_STATE_WR 1)) ∧
      (s.dev.axisOn a = false ∨ o < 0x800 ∧ o / 0x400 ≠ s.dev.bankOf a → o < 0x980 →
        exec (.coeffWindowWrite path w v) s = onward s (s.dev.putMw (0x28_0000 + 4 * w.val) v.toNat)))) ∧
  ∀ (s : State) (p : Packet),
    (s.dev.Ready p 0x200 0 false → exec (.loopInfo p) s = replied s p 0x200 (s.dev.taken p 0x200)
      (.ok [s.dev.regWord 0x20_0004, s.dev.regWord 0x20_000C, s.dev.regWord 0x20_0010, s.dev.r Reg.LOOP_OVR_CNT,
        s.dev.regWord 0x20_001C])) ∧
    (s.dev.Ready p 0x201 5 true → p.arg 4 ≤ 2 →
      let d := s.dev.taken p 0x201
      let axes := axisList (p.params.map BitVec.toNat)
      (∀ a : Nat, axes.find? (fun a => decide (axesOf s.grade ≤ a) ||
          (p.arg 4 != 0 && d.bankBad s.grade a (d.bankOf a) axes)) = some a →
        exec (.loopEnable p) s = replied s p 0x201 d ⟨4, 0, [a]⟩) ∧
      ((∀ a ∈ axes, a < axesOf s.grade ∧ (p.arg 4 ≠ 0 → d.bankBad s.grade a (d.bankOf a) axes = false)) →
        (p.arg 4 ≠ 0 → d.evalsOver (d.willBeOn axes) = false) →
        exec (.loopEnable p) s = replied s p 0x201
          (d.each axes (fun a d => d.setLp a { d.lp a with enNext := some (p.arg 4) }))
          (.ok [loW (d.each axes (fun a d => d.setLp a { d.lp a with enNext := some (p.arg 4) })).nextEpoch,
            hiW (d.each axes (fun a d => d.setLp a { d.lp a with enNext := some (p.arg 4) })).nextEpoch,
            0xFFFF_FFFF]))) ∧
    (s.dev.Ready p 0x202 7 true → axisList (p.params.map BitVec.toNat) ≠ [] → p.arg 6 ≤ 1 →
      let d := s.dev.taken p 0x202
      let axes := axisList (p.params.map BitVec.toNat)
      let e := pair64 (p.arg 4) (p.arg 5)
      (e ≤ s.dev.r Reg.EPK_NOW → exec (.loopSwap p) s = replied s p 0x202 d .past) ∧
      (s.dev.r Reg.EPK_NOW < e → s.dev.b Reg.LOOP_STAT_SWAP_PENDING = true →
        exec (.loopSwap p) s = replied s p 0x202 d .busy) ∧
      (s.dev.r Reg.EPK_NOW < e → s.dev.b Reg.LOOP_STAT_SWAP_PENDING = false →
        (∀ a ∈ axes, a < axesOf s.grade ∧ d.bankBad s.grade a (1 - d.bankOf a) [] = false) →
        exec (.loopSwap p) s = replied s p 0x202
          (({ d with loop := { s.dev.loop with swapAxes := axes, swapMode := p.arg 6 } }.w Reg.LOOP_SWAP_EPOCH e).w
            Reg.LOOP_STAT_SWAP_PENDING 1) (.ok [0xFFFF_FFFF]))) ∧
    (s.dev.Ready p 0x203 4 true →
      let d := s.dev.taken p 0x203
      let axes := axisList (p.params.map BitVec.toNat)
      let refused := axes.filter d.clearRefused
      exec (.loopFaultClear p) s = replied s p 0x203
        (d.each (axes.filter (fun a => !refused.contains a)) (fun a d => d.clearAxis a)) (.ok (axisMask refused))) ∧
    (s.dev.Ready p 0x204 1 false → p.arg 0 < axesOf s.grade → s.dev.ep.front.valid = false →
      let a := p.arg 0
      let b := 0x20_1000 + 0x10 * a
      exec (.loopAxisRead p) s = replied s p 0x204 (s.dev.taken p 0x204)
        (.ok [s.dev.regWord b, s.dev.regWord (b + 4), s.dev.regWord (b + 8), s.dev.regWord (b + 12),
          loW ((s.dev.taken p 0x204).axisPos a), hiW ((s.dev.taken p 0x204).axisPos a), loW (s.dev.r (Reg.AX_SP a)),
          hiW (s.dev.r (Reg.AX_SP a)), loW (s.dev.r Reg.EPK_NOW), hiW (s.dev.r Reg.EPK_NOW)]))

/-- The sections of a candidate run in slot order, each feeding the next, and the output is scaled and clamped. The slots of a
candidate are FIRST, FIRST + 1, …, NSEC of them. The first section takes the error and each output feeds the next; with no
section u = e. With no injection at the candidate the output is clamp(sat16((u × GAIN) >> (15 − GSHIFT)), LIM_LO, LIM_HI),
with GAIN in Q1.15 and GSHIFT of 4 bits. (R113) -/
def Obligations.CandidateOutput : Prop :=
  (∀ (d : Dev) (a bank : Nat) (u : Int), (d.sections a bank [] u).2.2.1 = u) ∧
  (∀ (d : Dev) (a bank j : Nat) (r : List Nat) (u : Int),
    (d.sections a bank (j :: r) u).2.2.1 = (d.sections a bank r (d.secOut a bank j u).1).2.2.1 ∧
    (d.sections a bank (j :: r) u).1 = u :: (d.sections a bank r (d.secOut a bank j u).1).1 ∧
    (d.sections a bank (j :: r) u).2.1 = (d.secOut a bank j u).1 :: (d.sections a bank r (d.secOut a bank j u).1).2.1) ∧
  (∀ (d : Dev) (a bank c i : Nat), i < bits (d.candWord a bank c 0) 6 4 →
    (d.slotsOf a bank c)[i]? = some (bits (d.candWord a bank c 0) 0 6 + i)) ∧
  (∀ (d : Dev) (a bank c : Nat), (d.slotsOf a bank c).length = bits (d.candWord a bank c 0) 6 4) ∧
  ∀ (d : Dev) (a bank n stage c : Nat) (sref : Int), d.injected a n 0 c = 0 → d.injected a n 1 c = 0 →
    let x := d.evalCand a bank n stage c sref
    let u := (d.sections a bank (d.slotsOf a bank c) x.e).2.2.1
    let w4 := d.candWord a bank c 4
    let w5 := d.candWord a bank c 5
    x.o = max (q15 w5) (min (q15 (w5 / 2 ^ 16))
      (max (-32768) (min 32767 ((u * q15 w4) / 2 ^ (15 - bits w4 16 4))))) ∧ bits w4 16 4 ≤ 15

/-- A pass evaluates the due axes of the group that was ready first, and the LOCAL group becomes ready once an epoch. LOOP_PASS
with no group ready changes nothing. With one due axis whose feedback is there and whose evaluation ends by the deadline: the
axis is evaluated whole, the pass ends 20 cycles of 2 ns plus its cost after its start, and the pass is counted; with a memory
error the axis faults with MEM_ERR before it writes; without its feedback the axis is missed. LOCAL_READY comes once an epoch:
the group is marked ready at LOOP_LOCAL.READY_NS. Clauses that follow a reading of the model: log entries 72, 76, 77. (R107,
R108, R117, R119, R120, R121, R122, R123, R138) -/
def Obligations.LoopPassesRun : Prop :=
  (∀ (s : State) (corr : Nat) (memErr : List Nat), s.dev.nextPass = none → exec (.loopPass corr memErr) s = onward s s.dev) ∧
  (∀ (s : State) (g ns a : Nat) (memErr : List Nat), s.dev.nextPass = some (g, ns) → s.dev.dueAxes g = [a] →
    let n := s.dev.r Reg.EPK_NOW
    let d := { s.dev with loop := { s.dev.loop with passed := g :: s.dev.loop.passed } }
    let start := max ns s.dev.loop.endNs
    let deadline := s.dev.te - s.dev.ep.margin
    let passEnd := start + 40 + 2 * d.evalCost a (d.evalBank a n)
    d.fbPresent a (d.evalBank a n) = true → passEnd ≤ deadline → s.dev.loop.abandoned = true →
      let d1 := if memErr.contains a then d.faultAxis a 3 true else d.evalAxis a n
      exec (.loopPass 0 memErr) s = onward s
        (let d2 := { d1 with loop := { d1.loop with
           endNs := min passEnd (max deadline start), passes := d1.loop.passes + 1 } }
         (d2.add Reg.LOOP_ECC_CNT_CORR 0).add Reg.LOOP_ECC_CNT_UNCORR (memErr.filter (fun b => b == a)).length)) ∧
  (∀ (s : State) (g ns : Nat), s.dev.nextPass = some (g, ns) → s.dev.dueAxes g = [] →
    exec (.loopPass 0 []) s =
      onward s { s.dev with loop := { s.dev.loop with passed := g :: s.dev.loop.passed } }) ∧
  (∀ s : State, (∃ e ∈ s.dev.loop.ready, e.1 = 4) → exec .localReady s = onward s s.dev) ∧
  ∀ s : State, (∀ e ∈ s.dev.loop.ready, e.1 ≠ 4) →
    ∃ d : Dev, exec .localReady s = onward s d ∧ Tab.look 0 4 d.loop.ready = s.dev.loop.readyNs ∧ d.mem = s.dev.mem ∧
      d.host = s.dev.host

/-- Trace capture: geometry, setup, arm, trigger, stop, read, and the injectors. Writes and commands that a capture in progress
refuses only set their flag or answer BUSY. Else: a valid geometry write stores its fields and resets the pointers to IDLE, an
invalid one sets CFG_BAD; ARM with valid lengths resets the pointers and arms for the next boundary, else sets ARM_BAD; TRIG
is accepted in ARMED only; STOP waits for the commit point; TRC_SETUP is all or nothing; TRC_READ in DONE gives rows from the
mark on; INJ_START of a valid injector starts it at its epoch and INJ_STOP stops it as aborted and answers its sample count.
Clauses that follow a reading of the model: log entries 79, 81. (R145, R147, R148, R149, R151, R153, R155, R159) -/
def Obligations.TraceCaptureCommands : Prop :=
  (∀ s : State,
    (s.dev.trcBusy = true → exec .trcCtrlArm s = onward s (s.dev.w Reg.TRC_STAT_ARM_BAD 1) ∧
      ∀ (sel : Fin 19) (v : Word), exec (.trcGeometryWrite sel v) s = onward s (s.dev.w Reg.TRC_STAT_LEN_BUSY 1)) ∧
    (s.dev.trcBusy = false →
      (s.dev.r Reg.TRC_PRE < s.dev.r Reg.TRC_LEN → 1 ≤ s.dev.r Reg.TRC_POST → s.dev.r Reg.TRC_POST ≤ s.dev.r Reg.TRC_LEN →
        exec .trcCtrlArm s = onward s
          { s.dev.trcPointers with trc := { s.dev.trcPointers.trc with armPending := true } }) ∧
      (∀ v : Word, geometryBad (s.dev.r Reg.TRC_FMT_NCH) (s.dev.r Reg.TRC_FMT_DIV) (v.toNat % 2 ^ 21) (s.dev.r Reg.TRC_LEN) =
          true → exec (.trcGeometryWrite 1 v) s = onward s (s.dev.w Reg.TRC_STAT_CFG_BAD 1)) ∧
      (∀ v : Word, geometryBad (s.dev.r Reg.TRC_FMT_NCH) (s.dev.r Reg.TRC_FMT_DIV) (v.toNat % 2 ^ 21) (s.dev.r Reg.TRC_LEN) =
          false → exec (.trcGeometryWrite 1 v) s = onward s
            (((((s.dev.w Reg.TRC_FMT_NCH (s.dev.r Reg.TRC_FMT_NCH)).w Reg.TRC_FMT_DIV (s.dev.r Reg.TRC_FMT_DIV)).w Reg.TRC_BASE
              (v.toNat % 2 ^ 21)).w Reg.TRC_LEN (s.dev.r Reg.TRC_LEN)).trcReset))) ∧
    (exec .trcCtrlStop s = onward s { s.dev with trc := { s.dev.trc with stopPending := true } }) ∧
    (exec .trcCtrlTrig s = onward s (if s.dev.r Reg.TRC_STAT_STATE = 1 then
      { s.dev with trc := { s.dev.trc with trigPending := true } } else s.dev))) ∧
  ∀ (s : State) (p : Packet),
    (s.dev.Ready p 0xF00 0 false → exec (.trcInfo p) s = replied s p 0xF00 (s.dev.taken p 0xF00)
      (.ok [s.dev.regWord 0xF0_0004, s.dev.r Reg.TRC_WR_PTR, s.dev.r Reg.TRC_MARK, s.dev.r Reg.TRC_TRIG_ROW,
        s.dev.r Reg.TRC_PRE_TRUNC, s.dev.r Reg.TRC_VALID_ROWS, loW (s.dev.r Reg.TRC_TRIG_EPOCH),
        hiW (s.dev.r Reg.TRC_TRIG_EPOCH)])) ∧
    (s.dev.Ready p 0xF01 (7 + bits (p.arg 0) 16 5) false → s.dev.trcBusy = false →
      (∀ w : Nat, setupBad (p.params.map BitVec.toNat) = some w →
        exec (.trcSetup p) s = replied s p 0xF01 ((s.dev.taken p 0xF01).w Reg.TRC_STAT_CFG_BAD 1) (.badParam w)) ∧
      (setupBad (p.params.map BitVec.toNat) = none → ∃ d : Dev, exec (.trcSetup p) s = replied s p 0xF01 d.trcReset (.ok []) ∧
        d.mem = s.dev.mem ∧ d.trc = s.dev.trc ∧
        (s.dev.Sound → d.r Reg.TRC_FMT_NCH = bits (p.arg 0) 16 5 ∧ d.r Reg.TRC_FMT_DIV = p.arg 0 % 2 ^ 16 ∧
          d.r Reg.TRC_LEN = p.arg 2 % 2 ^ 18))) ∧
    (s.dev.Ready p 0xF02 0 false → s.dev.trcBusy = false → s.dev.r Reg.TRC_PRE < s.dev.r Reg.TRC_LEN →
      1 ≤ s.dev.r Reg.TRC_POST → s.dev.r Reg.TRC_POST ≤ s.dev.r Reg.TRC_LEN →
      let d := (s.dev.taken p 0xF02).trcPointers
      exec (.trcArm p) s = replied s p 0xF02 { d with trc := { d.trc with armPending := true } }
        (.ok [loW d.nextEpoch, hiW d.nextEpoch])) ∧
    (s.dev.Ready p 0xF03 0 false → exec (.trcTrigger p) s =
      if s.dev.r Reg.TRC_STAT_STATE = 1 then
        replied s p 0xF03 { s.dev.taken p 0xF03 with trc := { s.dev.trc with trigPending := true } } (.ok [])
      else replied s p 0xF03 (s.dev.taken p 0xF03) .busy) ∧
    (s.dev.Ready p 0xF04 0 false → exec (.trcStop p) s =
      replied s p 0xF04 { s.dev.taken p 0xF04 with trc := { s.dev.trc with stopPending := true } } (.ok [])) ∧
    (∀ unc : Nat, s.dev.Ready p 0xF05 2 false → s.dev.r Reg.TRC_STAT_STATE = 3 → 1 ≤ p.arg 1 → p.arg 1 ≤ 64 →
      3 + p.arg 1 * (2 + s.dev.r Reg.TRC_FMT_NCH) ≤ replyLimit p.origin →
      p.arg 0 + p.arg 1 ≤ s.dev.r Reg.TRC_VALID_ROWS →
      exec (.trcRead p unc) s = replied s p 0xF05 ((s.dev.taken p 0xF05).add Reg.TRC_ECC_CNT_UNCORR (min unc (p.arg 1)))
        (.ok ((List.range (p.arg 1)).flatMap (fun i => Mem.words s.dev.trc.tmem (s.dev.r Reg.TRC_BASE +
          (s.dev.r Reg.TRC_MARK + p.arg 0 + i) % s.dev.r Reg.TRC_LEN * (4 * (2 + s.dev.r Reg.TRC_FMT_NCH)))
          (2 + s.dev.r Reg.TRC_FMT_NCH))))) ∧
    (s.dev.Ready p 0xF10 3 true → p.arg 0 < 4 →
      let i := p.arg 0
      let e := pair64 (p.arg 1) (p.arg 2)
      let a := s.dev.r (Reg.INJ_NODE_AXIS i)
      let seed := s.dev.r (Reg.INJ_P0 i) % 2 ^ (s.dev.r (Reg.INJ_P1 i) % 32)
      let x : Injector := { start := e, inc := s.dev.r (Reg.INJ_P0 i), lfsr := seed }
      (s.dev.b (Reg.INJ_STAT_ACTIVE i) = true →
        exec (.injStart p) s = replied s p 0xF10 (s.dev.taken p 0xF10) .busy) ∧
      (s.dev.r Reg.EPK_NOW < e → s.dev.axisOn a = true → s.dev.r (Reg.AXIS_STAT_FAULT a) = 0 →
        s.dev.r (Reg.INJ_CTRL_WAVE i) ≤ 1 → s.dev.r (Reg.INJ_COUNT i) ≠ 0 →
        (∀ j ∈ [0, 1, 2, 3], s.dev.b (Reg.INJ_STAT_ACTIVE j) = false) →
        exec (.injStart p) s = replied s p 0xF10
          ((((s.dev.taken p 0xF10).setInjector i x).w (Reg.INJ_STAT_ACTIVE i) 1).w (Reg.INJ_DONE i) 0) (.ok []))) ∧
    (s.dev.Ready p 0xF11 1 true → p.arg 0 < 4 → s.dev.b (Reg.INJ_STAT_ACTIVE (p.arg 0)) = true →
      exec (.injStop p) s = replied s p 0xF11
        (((s.dev.taken p 0xF11).w (Reg.INJ_STAT_ACTIVE (p.arg 0)) 0).w (Reg.INJ_STAT_ABORTED (p.arg 0)) 1)
        (.ok [s.dev.r (Reg.INJ_DONE (p.arg 0))]))

/-- Profile and gearing commands. For packets that are ready, on an axis of the grade: PRF_INFO and PRF_AXIS_READ answer
registers. PRF_START, PRF_TARGET, PRF_LIMITS and GEAR_START that nothing refuses enter the list for the next generator
instant, and the first three answer the epoch of sp(N+1); outside TIME and COORD PRF_TARGET and PRF_LIMITS are BUSY, after a
stop to be released DENIED. PRF_STOP requests the stop on each named axis. PLAN_START and PRF_RELEASE act on the axes that
qualify and answer the others. GEAR_ARM sets the arm bit of the entry on an axis in GEAR mode. PRF_PARAM_WRITE of a good
record waits for the generator instant. Clauses that follow a reading of the model: log entries 82, 83, 84, 85. (R172, R176,
R183, R184, R189, R190, R191, R297, R11) -/
def Obligations.ProfileCommands : Prop :=
  ∀ (s : State) (p : Packet),
    (s.dev.Ready p 0x300 0 false → exec (.prfInfo p) s = replied s p 0x300 (s.dev.taken p 0x300)
      (.ok [s.dev.regWord 0x30_0004, s.dev.regWord 0x30_0008, s.dev.r Reg.PRF_WDRAW_CNT])) ∧
    (s.dev.Ready p 0x301 2 false → p.arg 0 < axesOf s.grade → p.arg 1 < 16 →
      let d := s.dev.taken p 0x301
      let a := p.arg 0
      let ws := Mem.words s.dev.mem (slotAddr a (p.arg 1)) 16
      (∀ r : Res, d.startRefused a (slotOf ws) = some r → exec (.prfStart p) s = replied s p 0x301 d r) ∧
      (d.startRefused a (slotOf ws) = none → exec (.prfStart p) s = replied s p 0x301
        { d with prf := { s.dev.prf with cmds := s.dev.prf.cmds ++ [(a, 0x301, ws)] } } (.ok (d.spEpoch a)))) ∧
    (s.dev.Ready p 0x302 3 false → p.arg 0 < axesOf s.grade →
      let d := s.dev.taken p 0x302
      let a := p.arg 0
      let t := sx 64 (pair64 (p.arg 1) (p.arg 2))
      (s.dev.motionDenied a = true → exec (.prfTarget p) s = replied s p 0x302 d .denied) ∧
      (s.dev.motionDenied a = false → s.dev.b (Reg.AX_PRF_STAT_OUTSIDE a) = false → s.dev.modeOf a ≠ 1 → s.dev.modeOf a ≠ 2 →
        exec (.prfTarget p) s = replied s p 0x302 d .busy) ∧
      (s.dev.motionDenied a = false → s.dev.b (Reg.AX_PRF_STAT_OUTSIDE a) = false → s.dev.modeOf a = 1 ∨ s.dev.modeOf a = 2 →
        s.dev.tooFar a t = false → (s.dev.vlimEn a = true → s.dev.limLo a ≤ t ∧ t < s.dev.limHi a) →
        exec (.prfTarget p) s = replied s p 0x302 { d with prf := { s.dev.prf with
          cmds := s.dev.prf.cmds ++ [(a, 0x302, [p.arg 1, p.arg 2])] } } (.ok (d.spEpoch a)))) ∧
    (s.dev.Ready p 0x303 9 false → p.arg 0 < axesOf s.grade → s.dev.motionDenied (p.arg 0) = false →
      s.dev.b (Reg.AX_PRF_STAT_OUTSIDE (p.arg 0)) = false →
      let d := s.dev.taken p 0x303
      let a := p.arg 0
      (s.dev.modeOf a ≠ 1 → s.dev.modeOf a ≠ 2 → exec (.prfLimits p) s = replied s p 0x303 d .busy) ∧
      (s.dev.modeOf a = 1 ∨ s.dev.modeOf a = 2 →
        (∀ i ∈ [1, 3, 5, 7], f64.isPos (pair64 (p.arg i) (p.arg (i + 1))) = true) →
        exec (.prfLimits p) s = replied s p 0x303 { d with prf := { s.dev.prf with
          cmds := s.dev.prf.cmds ++ [(a, 0x303, (p.params.map BitVec.toNat).drop 1)] } } (.ok (d.spEpoch a)))) ∧
    (s.dev.Ready p 0x304 5 false → (∀ a ∈ axisList (p.params.map BitVec.toNat), a < axesOf s.grade) → p.arg 4 ≤ 1 →
      exec (.prfStop p) s = replied s p 0x304 ((s.dev.taken p 0x304).each (axisList (p.params.map BitVec.toNat)) (fun a d =>
        d.setPx a { d.px a with stopReq := (d.px a).stopReq ++ [if p.arg 4 = 0 then 1 else 7] })) (.ok [])) ∧
    (s.dev.Ready p 0x305 9 false → p.arg 0 < axesOf s.grade → p.arg 1 < 8 → p.arg 2 < 3 →
      s.dev.motionDenied (p.arg 0) = false → s.dev.b (Reg.AX_PRF_STAT_OUTSIDE (p.arg 0)) = false →
      let d := s.dev.taken p 0x305
      let a := p.arg 0
      let ahead := diffC (s.dev.modulus (p.arg 1)) (s.dev.coord (p.arg 1)).cur (sx 64 (pair64 (p.arg 3) (p.arg 4)))
      (s.dev.atRest a = false → exec (.gearStart p) s = replied s p 0x305 d .busy) ∧
      (s.dev.atRest a = true → s.dev.b (Reg.COORD_STAT_VALID (p.arg 1)) = false →
        exec (.gearStart p) s = replied s p 0x305 d (.badParam 3)) ∧
      (s.dev.atRest a = true → s.dev.b (Reg.COORD_STAT_VALID (p.arg 1)) = true → (p.arg 2 = 0 → ahead < 0) →
        (p.arg 2 = 1 → 0 ≤ ahead) → exec (.gearStart p) s = replied s p 0x305 { d with prf := { s.dev.prf with
          cmds := s.dev.prf.cmds ++ [(a, 0x305, (p.params.map BitVec.toNat).drop 1)] } } (.ok []))) ∧
    (s.dev.Ready p 0x306 3 false → p.arg 0 < axesOf s.grade → p.arg 1 < 16 → p.arg 2 ≤ 1 →
      let d := s.dev.taken p 0x306
      let w := gearAddr (p.arg 0) (p.arg 1)
      (s.dev.modeOf (p.arg 0) ≠ 3 → exec (.gearArm p) s = replied s p 0x306 d .busy) ∧
      (s.dev.modeOf (p.arg 0) = 3 → bits (s.dev.mw w) 1 2 ≠ 3 →
        exec (.gearArm p) s = replied s p 0x306 (d.putMw w (setBit (s.dev.mw w) 0 (p.arg 2 == 1))) (.ok []))) ∧
    (s.dev.Ready p 0x307 4 false → (∀ a ∈ axisList (p.params.map BitVec.toNat), a < axesOf s.grade) →
      let axes := axisList (p.params.map BitVec.toNat)
      let good (a : Nat) : Bool := sageFitted s.grade && s.dev.sage.map.any (fun k => k.axis == a) && s.dev.atRest a &&
        !s.dev.motionDenied a && !s.dev.b (Reg.AX_PRF_STAT_OUTSIDE a)
      exec (.planStart p) s = replied s p 0x307 { s.dev.taken p 0x307 with prf := { s.dev.prf with
          cmds := s.dev.prf.cmds ++ (axes.filter good).map (fun a => (a, 0x307, [])) } }
        (.ok (axisMask (axes.filter (fun a => !good a))))) ∧
    (s.dev.Ready p 0x308 4 false →
      let axes := (axisList (p.params.map BitVec.toNat)).filter (fun a => decide (a < axesOf s.grade))
      let good (a : Nat) : Bool := s.dev.modeOf a == 0 && fsign (s.dev.px a).vf == 0 &&
        !(s.dev.r (Reg.AX_PRF_STAT_STOP_KIND a) == 6 && s.dev.prf.pstop.contains a)
      exec (.prfRelease p) s = replied s p 0x308
        ((s.dev.taken p 0x308).each (axes.filter good) (fun a d => d.w (Reg.AX_PRF_STAT_STOP_KIND a) 0))
        (.ok (axisMask (axes.filter (fun a => !good a))))) ∧
    (s.dev.Ready p 0x309 1 false → p.arg 0 < axesOf s.grade → s.dev.ep.front.valid = false →
      let a := p.arg 0
      exec (.prfAxisRead p) s = replied s p 0x309 (s.dev.taken p 0x309)
        (.ok [s.dev.regWord (0x30_1000 + 0x40 * a), loW (s.dev.r (Reg.AX_SP a)), hiW (s.dev.r (Reg.AX_SP a)),
          loW (s.dev.r (Reg.AX_VEL a)), hiW (s.dev.r (Reg.AX_VEL a)), loW (s.dev.r (Reg.AX_ACC a)),
          hiW (s.dev.r (Reg.AX_ACC a)), loW (s.dev.r (Reg.AX_TARGET a)), hiW (s.dev.r (Reg.AX_TARGET a)),
          s.dev.r (Reg.AX_CAP a), loW (s.dev.r Reg.EPK_NOW), hiW (s.dev.r Reg.EPK_NOW)])) ∧
    (s.dev.Ready p 0x30A 17 true → p.arg 0 < axesOf s.grade →
      let d := s.dev.taken p 0x30A
      let ws := (p.params.map BitVec.toNat).drop 1
      (s.dev.holdRest (p.arg 0) = false → exec (.prfParamWrite p) s = replied s p 0x30A d .busy) ∧
      (s.dev.holdRest (p.arg 0) = true → d.paramBad s.grade (p.arg 0) ws = none →
        exec (.prfParamWrite p) s = replied s p 0x30A { d with prf := { s.dev.prf with
          paramNext := s.dev.prf.paramNext ++ [(p.arg 0, ws.take 15 ++ [0])] } } (.ok [])))

/-- Parameter record writes, and what the generator instant takes. A record write without the rights only counts; to an axis not
in HOLD at rest, or of a bad record, it only sets PARAM_BAD; else it waits. At the generator instant the waiting records land
in the record memory, and with RUN = 0 nothing else moves; an engine that stands still does nothing. With RUN = 1 the commands
and calendar actions handed over are used up and every axis of the grade has its sp(N+1). Clauses that follow a reading of the
model: log entry 88. (R161, R166, R189, R11, R3) -/
def Obligations.ParameterRecordsAndGenerator : Prop :=
  (∀ (s : State) (path : Path) (a : Fin 128) (w : Fin 16) (vs : List Word), s.dev.pathOpen path = true →
    let ws := (((Mem.words s.dev.mem (paramAddr a.val) 16).take w.val ++ vs.map BitVec.toNat ++
      (Mem.words s.dev.mem (paramAddr a.val) 16).drop (w.val + vs.length)).take 15) ++ [0]
    (s.dev.pathPriv path = false → exec (.prfParamRecordWrite path a w vs) s = onward s (s.dev.countPath path)) ∧
    (s.dev.pathPriv path = true → a.val < axesOf s.grade →
      s.dev.holdRest a.val = false ∨ (s.dev.paramBad s.grade a.val ws).isSome = true →
      exec (.prfParamRecordWrite path a w vs) s = onward s (s.dev.w Reg.PRF_STAT_PARAM_BAD 1)) ∧
    (s.dev.pathPriv path = true → a.val < axesOf s.grade →
      s.dev.holdRest a.val = true → s.dev.paramBad s.grade a.val ws = none →
      exec (.prfParamRecordWrite path a w vs) s = onward s { s.dev with prf := { s.dev.prf with
        paramNext := s.dev.prf.paramNext ++ [(a.val, ws)] } })) ∧
  (∀ s : State, s.dev.enginesStill = true → exec .generatorInstant s = onward s s.dev) ∧
  (∀ s : State, s.dev.enginesStill = false → s.dev.ep.placed = false → s.dev.prf.run = false →
    exec .generatorInstant s = onward s { s.dev with
      mem := s.dev.prf.paramNext.foldl (fun m p => Mem.putWords m (paramAddr p.1) p.2) s.dev.mem
      prf := { s.dev.prf with paramNext := [], cmds := [] }
      cal := { s.dev.cal with gearOut := [], profileOut := [] } }) ∧
  ∀ s : State, s.dev.enginesStill = false → s.dev.ep.placed = false → s.dev.prf.run = true →
    ∃ d : Dev, exec .generatorInstant s = onward s d ∧ d.prf.paramNext = [] ∧ d.prf.cmds = [] ∧ d.cal.gearOut = [] ∧
      d.cal.profileOut = [] ∧ d.prf.run = true ∧ ∀ a : Nat, a < axesOf s.grade → (d.px a).computed = true

/-- The set-points of HOLD and TIME, and the stop kinds. HOLD keeps the set-point. In TIME, while the plan's segments last,
sp(N+1) is the plan's origin plus its displacement at the next epoch; past the end of a plan to a target sp(N+1) is the plan's
end, the axis enters HOLD and DONE is set. A stop of the kind shown or a lower one changes nothing; a higher one is shown, and
with limits that are not finite and positive the axis enters HOLD at once. Clauses that follow a reading of the model: log
entries 86, 90. (R161, R168, R171, R176, R613) -/
def Obligations.SetPointsOfTheModes : Prop :=
  (∀ (d : Dev) (a n : Nat), d.modeOf a = 0 →
    (d.motionOf a n).1 = d ∧ (d.motionOf a n).2.sp = (d.px a).sp ∧ (d.motionOf a n).2.vel = 0 ∧ (d.motionOf a n).2.acc = 0) ∧
  (∀ (d : Dev) (a n : Nat) (p : Plan) (x v c : Nat), d.modeOf a = 1 → (d.px a).plan = some p →
    p.at (fint (((n + 1 : Nat) : Int) - p.start)) = some (x, v, c) →
    (d.motionOf a n).1 = d ∧ (d.motionOf a n).2.sp = p.org + q24 x ∧ (d.motionOf a n).2.vel = q24 v ∧
      (d.motionOf a n).2.acc = q24 c) ∧
  (∀ (d : Dev) (a n : Nat) (p : Plan), d.modeOf a = 1 → (d.px a).plan = some p →
    p.at (fint (((n + 1 : Nat) : Int) - p.start)) = none → p.rev = false → p.kind = 0 → p.ovr = false → d.Sound →
    (d.motionOf a n).2.sp = p.final ∧ (d.motionOf a n).2.vel = 0 ∧ (d.motionOf a n).1.modeOf a = 0 ∧
      (d.motionOf a n).1.b (Reg.AX_PRF_STAT_DONE a) = true ∧ ((d.motionOf a n).1.px a).plan = none) ∧
  (∀ (d : Dev) (a n k : Nat), k ≤ d.r (Reg.AX_PRF_STAT_STOP_KIND a) → d.applyStop a n k = d) ∧
  ∀ (d : Dev) (a n k : Nat), d.Sound → d.r (Reg.AX_PRF_STAT_STOP_KIND a) < k → k < 8 → a < 128 →
    (d.applyStop a n k).r (Reg.AX_PRF_STAT_STOP_KIND a) = k ∧
    (f64.isPos (d.stopLimits a k).1 = false ∨ f64.isPos (d.stopLimits a k).2 = false →
      (d.applyStop a n k).modeOf a = 0 ∧ ((d.applyStop a n k).px a).sp = (d.px a).sp ∧
        ((d.applyStop a n k).px a).vf = 0 ∧ ((d.applyStop a n k).px a).plan = none)

/-- An axis in GEAR mode follows the gear law of its latest taken entry, evaluated exactly and truncated once. With u = σ (S − X)
in user units: for u < 0 the set-point is P_X + σ G_X u; for 0 ≤ u < B it is P_X + σ (G_X u + (G_new − G_X) u² / (2B)); for u
≥ B it is P_X + σ ((G_X + G_new) B / 2 + G_new (u − B)); each truncated toward minus infinity to 24 fraction bits. An axis in
GEAR mode takes the value of its law at the predicted coordinate of the next epoch. (R181) -/
def Obligations.GearLawOfOneCoordinate : Prop :=
  (∀ (l : GearLaw) (z : Int), l.sigma = 1 ∨ l.sigma = -1 → 0 ≤ l.b →
    let q (n : Int) (k : Nat) : Rat := (n : Rat) / 2 ^ k
    let u := (l.sigma : Rat) * (q z 32 - q l.x 32)
    let trunc (r : Rat) : Int := (r * 2 ^ 24).floor
    (u < 0 → l.value z = trunc (q l.px 24 + l.sigma * q l.gx 32 * u)) ∧
    (0 ≤ u → u < q l.b 32 → l.value z =
      trunc (q l.px 24 + l.sigma * (q l.gx 32 * u + (q l.gnew 32 - q l.gx 32) * (u * u) / (2 * q l.b 32)))) ∧
    (0 ≤ u → q l.b 32 ≤ u → l.value z =
      trunc (q l.px 24 + l.sigma * ((q l.gx 32 + q l.gnew 32) * q l.b 32 / 2 + q l.gnew 32 * (u - q l.b 32))))) ∧
  (∀ (d : Dev) (a : Nat) (e : GearEntry) (xs sigma : Int) (l : GearLaw), (d.px a).gear = some l →
    ((d.takeEntry a e xs sigma).px a).gear = some ⟨xs, l.value xs, l.slope xs, e.ratio, e.b, sigma⟩) ∧
  ∀ (d : Dev) (a n : Nat) (l : GearLaw), d.modeOf a = 3 → d.armedEntries a = [] → (d.px a).gear = some l →
    (d.motionOf a n).2.sp = l.value ((d.px a).sun + (d.predicted (d.px a).coord).1)

/-- A demand converts to a truncated on-time, per mode, and the low side never loses its whole period. For a demand of Q1.15 and n
= demand + 32 768, t_on = (n × P) >> 16. In PHASE mode without commutation pair p uses demand p, with commutation demand 0; in
DC mode pair 0 uses d + 32 768 and pair 1 uses 32 767 − d. The low side keeps at least P / 65 536. (R200) -/
def Obligations.DutyOfADemand : Prop :=
  (∀ n per : Nat, tOn n per = (n * per) >>> 16) ∧
  (∀ (d : Dev) (t p : Nat), p < 4 → (∀ v ∈ (d.tx t).act, -32768 ≤ v ∧ v ≤ 32767) →
    (d.r (Reg.TEAM_CFG_MODE t) = 1 → d.r (Reg.TEAM_COMM_SRC t) = 0 → (d.pairN t p : Int) = (d.tx t).act.getD p 0 + 32768) ∧
    (d.r (Reg.TEAM_CFG_MODE t) = 1 → d.r (Reg.TEAM_COMM_SRC t) ≠ 0 → (d.pairN t p : Int) = (d.tx t).act.getD 0 0 + 32768) ∧
    (d.r (Reg.TEAM_CFG_MODE t) = 2 → (d.pairN t 0 : Int) = (d.tx t).act.getD 0 0 + 32768 ∧
      (d.pairN t 1 : Int) = 32767 - (d.tx t).act.getD 0 0) ∧
    (d.r (Reg.TEAM_CFG_MODE t) = 1 ∨ d.r (Reg.TEAM_CFG_MODE t) = 2 → ∀ per : Nat,
      d.pairN t p < 65536 ∧ per ≤ 65536 * (per - tOn (d.pairN t p) per)))

/-- Trips put a team into its safe state and are counted once; a clear is accepted or refused whole. A trip pin, a global trip,
FORCE_TRIP and a release act on the teams they name. A trip of a team latches TRIPPED, is counted once, leaves every other
team and the memory as they are, and puts the outputs of an enabled team without STO into the safe state. A clear whose
conditions fail sets CLEAR_REFUSED and counts; one whose conditions hold clears TRIPPED, TRIP_SRC, DEMAND_LOST and STO_SEEN
and lets the outputs resume at the next period. A hold that has lasted HOLD_EPOCHS loses the demand; any other
DEMAND_HOLD_EXPIRE changes nothing. Clauses that follow a reading of the model: log entries 62, 63. (R201, R214, R215, R216,
R217, R218, R194, R11, R3) -/
def Obligations.TripsAndClears : Prop :=
  (∀ (s : State) (t : Fin 24),
    exec (.tripPin t) s = onward s
      (let d := s.dev.setTx t { s.dev.tx t with pin := true }
       if s.dev.b (Reg.TEAM_TRIP_CFG_PIN_EN t) then d.tripTeam t (.source 0) else d)) ∧
  (∀ (s : State) (g : Fin 4),
    exec (.gtripInput g) s = onward s
      (({ s.dev with team := { s.dev.team with gtrip := setBit s.dev.team.gtrip g.val true } }).each
        (onesOf 24 (s.dev.r (Reg.GTRIP_MASK g.val))) (fun t d => d.tripTeam t (.source (1 + g.val))))) ∧
  (∀ (s : State) (i : Fin 28), i.val < 24 →
    exec (.tripInputRelease i) s = onward s
      (s.dev.setTx i.val { s.dev.tx i.val with pin := false, quietC := some s.dev.time.c })) ∧
  (∀ (s : State) (i : Fin 28), 24 ≤ i.val → ∃ d : Dev, exec (.tripInputRelease i) s = onward s d ∧ d.regs = s.dev.regs ∧
    d.team.gtrip = setBit s.dev.team.gtrip (i.val - 24) false ∧
    ∀ t : Nat, t < 24 → (d.tx t).quietC =
      if bitOf (s.dev.r (Reg.GTRIP_MASK (i.val - 24))) t then some s.dev.time.c else (s.dev.tx t).quietC) ∧
  (∀ (s : State) (path : Path) (t : Fin 24), s.dev.pathOpen path = true →
    (s.dev.pathPriv path = false → exec (.teamCtrlForceTrip path t) s = onward s (s.dev.countPath path) ∧
      exec (.teamCtrlTripClear path t) s = onward s (s.dev.countPath path)) ∧
    (s.dev.pathPriv path = true → t.val < teamsOf s.grade →
      exec (.teamCtrlForceTrip path t) s = onward s (s.dev.tripTeam t .force) ∧
      exec (.teamCtrlTripClear path t) s = onward s (s.dev.clearTrip t))) ∧
  (∀ (s : State) (p : Packet), (∀ t ∈ onesOf 24 (p.arg 0), t < teamsOf s.grade) →
    (s.dev.Ready p 0x403 1 true →
      let d := s.dev.taken p 0x403
      exec (.teamTripClear p) s = replied s p 0x403 (d.each (onesOf 24 (p.arg 0)) (fun t d => d.clearTrip t))
        (.ok [((onesOf 24 (p.arg 0)).filter (fun t => !d.clearOk t)).foldl (fun m t => setBit m t true) 0])) ∧
    (s.dev.Ready p 0x404 1 true → exec (.teamForceTrip p) s = replied s p 0x404
      ((s.dev.taken p 0x404).each (onesOf 24 (p.arg 0)) (fun t d => d.tripTeam t .force)) (.ok []))) ∧
  (∀ (d : Dev) (t : Nat) (src : TripSrc), d.Sound → t < 24 →
    let x := d.tripTeam t src
    x.b (Reg.TEAM_STAT_TRIPPED t) = true ∧ x.mem = d.mem ∧ (∀ u : Nat, u ≠ t → x.tx u = d.tx u) ∧
    (d.b (Reg.TEAM_STAT_TRIPPED t) = true → x.r (Reg.TEAM_TRIP_CNT t) = d.r (Reg.TEAM_TRIP_CNT t)) ∧
    (d.b (Reg.TEAM_STAT_TRIPPED t) = false → x.r (Reg.TEAM_TRIP_CNT t) = min (d.r (Reg.TEAM_TRIP_CNT t) + 1) (2 ^ 32 - 1) ∧
      bitOf (x.r Reg.TEAM_TRIPPED) t = true) ∧
    (d.pair.driving = true → d.b (Reg.TEAM_STAT_ENABLED t) = true → bitOf d.team.sto t = false → (d.tx t).safe ≠ 1 →
      (x.tx t).out = d.safeWaves t ∧ x.r (Reg.TEAM_STAT_OUT_STATE t) = 3 ∧
      (d.b (Reg.TEAM_TRIP_CFG_EN_ON_TRIP t) = true → x.b (Reg.TEAM_STAT_EN_PIN t) = false)) ∧
    (∀ w ∈ ((x.tx t).out.take 4), w = Wave.off)) ∧
  (∀ (d : Dev) (t : Nat), d.clearOk t = false →
    d.clearTrip t = (d.w (Reg.TEAM_STAT_CLEAR_REFUSED t) 1).inc (Reg.TEAM_CLR_REF_CNT t)) ∧
  (∀ (d : Dev) (t : Nat), d.Sound → t < 24 → d.clearOk t = true →
    let x := d.clearTrip t
    x.b (Reg.TEAM_STAT_TRIPPED t) = false ∧ x.r (Reg.TEAM_STAT_TRIP_SRC t) = 0 ∧ x.b (Reg.TEAM_STAT_DEMAND_LOST t) = false ∧
    x.b (Reg.TEAM_STAT_STO_SEEN t) = false ∧ (x.tx t).resume = true ∧ x.mem = d.mem ∧ ∀ u : Nat, u ≠ t → x.tx u = d.tx u) ∧
  ∀ (s : State) (t : Fin 24), s.dev.Sound →
    (s.dev.b (Reg.TEAM_STAT_HOLDING t) = false ∨ (s.dev.tx t).held < s.dev.r (Reg.TEAM_CFG_HOLD_EPOCHS t) →
      exec (.demandHoldExpire t) s = onward s s.dev) ∧
    (s.dev.b (Reg.TEAM_STAT_HOLDING t) = true → s.dev.r (Reg.TEAM_CFG_HOLD_EPOCHS t) ≤ (s.dev.tx t).held →
      ∃ d : Dev, exec (.demandHoldExpire t) s = onward s d ∧ d.b (Reg.TEAM_STAT_DEMAND_LOST t) = true ∧
        d.b (Reg.TEAM_STAT_HOLDING t) = false ∧ d.mem = s.dev.mem ∧ (∀ u : Nat, u ≠ t.val → d.tx u = s.dev.tx u) ∧
        ∀ w ∈ (d.tx t).out.take 4, w = Wave.off)

/-- Team, ADC, encoder and stepper commands, and writes of team registers. A write of a locked team register while the team is
enabled only sets CFG_BUSY; else it is stored. For packets that are ready and fitted: TEAM_CONFIG and STEP_CONFIG are BUSY for
an enabled team, name the first bad word, or write all words; TEAM_ENABLE names MODE 0, or asks for the change at the next
boundary; STEP_CURRENT hands IRUN and IHOLD to the named stepper teams; TEAM_INFO, TEAM_READ, ADC_READ, ENC_READ and STEP_READ
answer registers. (R195, R205, R220, R221, R236, R237, R41, R11, R3) -/
def Obligations.TeamAndStepperCommands : Prop :=
  (∀ (s : State) (path : Path) (t : Fin 24) (w : Fin 64) (v : Word), s.dev.pathOpen path = true →
    s.dev.pathPriv path = true → t.val < teamsOf s.grade →
    (w.val = 9 → exec (.teamRegWrite path t w v) s = onward s (s.dev.teamCtrl t v.toNat)) ∧
    (lockedTeamReg (4 * w.val) = true → s.dev.b (Reg.TEAM_STAT_ENABLED t) = true →
      exec (.teamRegWrite path t w v) s = onward s (s.dev.w (Reg.TEAM_STAT_CFG_BUSY t) 1)) ∧
    (lockedTeamReg (4 * w.val) = true → s.dev.b (Reg.TEAM_STAT_ENABLED t) = false →
      exec (.teamRegWrite path t w v) s = onward s (s.dev.putReg (0x40_1000 + 0x100 * t.val + 4 * w.val) v.toNat)) ∧
    (s.dev.b (Reg.TEAM_STAT_ENABLED t) = true → w.val = 21 ∨ w.val = 22 →
      exec (.teamRegWrite path t w v) s = onward s (s.dev.putReg (0x40_1000 + 0x100 * t.val + 4 * w.val) v.toNat))) ∧
  (∀ (s : State) (path : Path) (t : Fin 24) (w : Fin 64) (v : Word), s.dev.pathOpen path = true →
    s.dev.pathPriv path = false → lockedTeamReg (4 * w.val) = true →
    exec (.teamRegWrite path t w v) s = onward s (s.dev.countPath path)) ∧
  ∀ (s : State) (p : Packet),
    (s.dev.Ready p 0x400 0 false → exec (.teamInfo p) s = replied s p 0x400 (s.dev.taken p 0x400)
      (.ok [s.dev.r Reg.TEAM_TRIPPED, s.dev.r Reg.TEAM_STO])) ∧
    (s.dev.Ready p 0x401 18 true → p.arg 0 < teamsOf s.grade →
      let d := s.dev.taken p 0x401
      let t := p.arg 0
      let ws := (p.params.map BitVec.toNat).drop 1
      (s.dev.b (Reg.TEAM_STAT_ENABLED t) = true → exec (.teamConfig p) s = replied s p 0x401 d .busy) ∧
      (s.dev.b (Reg.TEAM_STAT_ENABLED t) = false → ∀ i : Nat, d.teamConfigBad t ws = some i →
        exec (.teamConfig p) s = replied s p 0x401 d ⟨4, i, []⟩) ∧
      (s.dev.b (Reg.TEAM_STAT_ENABLED t) = false → d.teamConfigBad t ws = none →
        exec (.teamConfig p) s = replied s p 0x401 (d.each
          ([0x00, 0x04, 0x08, 0x0C, 0x10, 0x14, 0x18, 0x1C, 0x20, 0x50, 0x54, 0x58, 0x5C, 0x40, 0x44, 0x48, 0x4C].zip ws)
          (fun x d => d.teamWrite t x.1 x.2)) (.ok []))) ∧
    (s.dev.Ready p 0x402 2 true → (∀ t ∈ onesOf 24 (p.arg 0), t < teamsOf s.grade) → p.arg 0 < 2 ^ 24 → p.arg 1 ≤ 1 →
      let d := s.dev.taken p 0x402
      ((∃ t ∈ onesOf 24 (p.arg 0), s.dev.r (Reg.TEAM_CFG_MODE t) = 0) → p.arg 1 = 1 →
        exec (.teamEnable p) s = replied s p 0x402 d ⟨4, 2, []⟩) ∧
      ((∀ t ∈ onesOf 24 (p.arg 0), s.dev.r (Reg.TEAM_CFG_MODE t) ≠ 0) ∨ p.arg 1 = 0 →
        exec (.teamEnable p) s = replied s p 0x402 (d.each (onesOf 24 (p.arg 0)) (fun t d =>
            d.setTx t { d.tx t with enNext := some (p.arg 1 == 1) }))
          (.ok [loW d.nextEpoch, hiW d.nextEpoch]))) ∧
    (s.dev.Ready p 0x405 1 false → p.arg 0 < teamsOf s.grade → s.dev.ep.front.valid = false →
      let t := p.arg 0
      exec (.teamRead p) s = replied s p 0x405 (s.dev.taken p 0x405)
        (.ok [s.dev.regWord (0x40_1028 + 0x100 * t), s.dev.r (Reg.TEAM_TON t 0), s.dev.r (Reg.TEAM_TON t 1),
          s.dev.r (Reg.TEAM_TON t 2), s.dev.r (Reg.TEAM_TON t 3), s.dev.r (Reg.TEAM_DROP_CNT t),
          s.dev.r (Reg.TEAM_TRIP_CNT t), s.dev.r (Reg.TEAM_CLR_REF_CNT t), s.dev.r (Reg.TEAM_HALL_ERR_CNT t),
          loW (s.dev.r Reg.EPK_NOW), hiW (s.dev.r Reg.EPK_NOW)])) ∧
    (s.dev.Ready p 0x406 16 true → p.arg 0 < teamsOf s.grade →
      let d := s.dev.taken p 0x406
      let t := p.arg 0
      let ws := (p.params.map BitVec.toNat).drop 1
      (s.dev.b (Reg.TEAM_STAT_ENABLED t) = true → exec (.stepConfig p) s = replied s p 0x406 d .busy) ∧
      (s.dev.b (Reg.TEAM_STAT_ENABLED t) = false → s.dev.r (Reg.TEAM_CFG_MODE t) = 3 → d.stepConfigBad t ws = none →
        exec (.stepConfig p) s = replied s p 0x406 (d.each
          ([0x80, 0x84, 0x88, 0x8C, 0x90, 0x94, 0x98, 0x9C, 0xA0, 0xA4, 0xA8, 0xAC, 0xB0, 0xB4, 0xB8].zip ws)
          (fun x d => d.teamWrite t x.1 x.2)) (.ok []))) ∧
    (s.dev.Ready p 0x407 3 true → (∀ t ∈ onesOf 24 (p.arg 0), t < teamsOf s.grade ∧ s.dev.r (Reg.TEAM_CFG_MODE t) = 3) →
      p.arg 0 < 2 ^ 24 → p.arg 1 < 2 ^ 15 → p.arg 2 < 2 ^ 15 → ∃ d : Dev,
      exec (.stepCurrent p) s = replied s p 0x407 d
        (.ok [loW (s.dev.taken p 0x407).nextEpoch, hiW (s.dev.taken p 0x407).nextEpoch]) ∧ d.mem = s.dev.mem ∧
      (∀ t : Nat, t < 24 → (d.tx t).step.curNext =
        if bitOf (p.arg 0) t then some (p.arg 1 + p.arg 2 * 2 ^ 16) else (s.dev.tx t).step.curNext) ∧
      (∀ t : Nat, (d.tx t).act = (s.dev.tx t).act ∧ (d.tx t).out = (s.dev.tx t).out)) ∧
    (s.dev.Ready p 0x408 1 false → p.arg 0 < teamsOf s.grade → s.dev.ep.front.valid = false →
      let t := p.arg 0
      exec (.stepRead p) s = replied s p 0x408 (s.dev.taken p 0x408)
        (.ok [s.dev.regWord (0x40_10BC + 0x100 * t), loW (s.dev.r (Reg.STEP_POS t)), hiW (s.dev.r (Reg.STEP_POS t)),
          s.dev.r (Reg.STEP_SPEED t), s.dev.r (Reg.STEP_ANGLE t), s.dev.r (Reg.STEP_EMF t),
          s.dev.regWord (0x40_10D0 + 0x100 * t), loW (s.dev.r Reg.EPK_NOW), hiW (s.dev.r Reg.EPK_NOW)])) ∧
    (s.dev.Ready p 0x410 2 false → 5 + p.arg 1 ≤ replyLimit p.origin → p.arg 0 < 48 → 1 ≤ p.arg 1 → p.arg 1 ≤ 48 →
      p.arg 0 + p.arg 1 ≤ 48 → s.dev.ep.front.valid = false →
      exec (.adcRead p) s = replied s p 0x410 (s.dev.taken p 0x410)
        (.ok ([loW (s.dev.r Reg.EPK_NOW), hiW (s.dev.r Reg.EPK_NOW)] ++
          (List.range (p.arg 1)).map (fun j => s.dev.regWord (0x40_4010 + 0x20 * (p.arg 0 + j)))))) ∧
    (s.dev.Ready p 0x420 1 false → p.arg 0 < 24 →
      let e := p.arg 0
      exec (.encRead p) s = replied s p 0x420 (s.dev.taken p 0x420)
        (.ok [s.dev.r (Reg.ENC_COUNT e), s.dev.r (Reg.ENC_INDEX e), s.dev.regWord (0x40_6014 + 0x40 * e),
          loW (s.dev.r Reg.EPK_NOW), hiW (s.dev.r Reg.EPK_NOW)]))

/-- Period boundaries, Hall codes, conversions and encoder edges. Within an epoch a period boundary keeps the active demands and
loads the shadows; the epoch-aligned one of a PHASE or DC team with every demand there loads them, and with one missing keeps
the edges and counts the hold. A Hall code steps the sector of the teams that listen. A compare that triggers an idle
converter starts it, a busy one queues up to three; a finished conversion gives the sat16 sample. Z latches the count; a good
SSI frame gives the position, a bad one faults; a quadrature edge counts one, and both inputs at once fault. That A rising
before B counts up is the model's own (PRESUMED, assumption log). Clauses that follow a reading of the model: log entries 61,
64, 65. (R198, R201, R205, R206, R207, R208, R209, R211, R212, R213) -/
def Obligations.PeriodsAndSensing : Prop :=
  (∀ (s : State) (t : Fin 24), s.dev.r (Reg.TEAM_CFG_MODE t) ≠ 3 →
    let x := s.dev.tx t
    (x.due = false → x.period + 1 < s.dev.r (Reg.TEAM_CFG_PDIV t) → ∃ d : Dev, exec (.periodBoundary t) s = onward s d ∧
      (d.tx t).act = x.act ∧ (d.tx t).period = x.period + 1 ∧ (d.tx t).tab = s.dev.r (Reg.TEAM_COMM_TAB t) ∧
      d.mem = s.dev.mem ∧ ∀ u : Nat, u ≠ t.val → d.tx u = s.dev.tx u) ∧
    (x.due = true → x.enNext = none → s.dev.b (Reg.TEAM_STAT_ENABLED t) = true →
      ((∀ i ∈ s.dev.demandsUsed t, (x.staged.getD i none).isSome = true) → ∃ d : Dev,
        exec (.periodBoundary t) s = onward s d ∧ (d.tx t).act = [0, 1, 2, 3].map (fun i => (x.staged.getD i none).getD 0) ∧
        (d.tx t).missing = false ∧ (d.tx t).held = 0 ∧ (d.tx t).due = false ∧ (d.tx t).period = 0 ∧ d.mem = s.dev.mem) ∧
      ((∃ i ∈ s.dev.demandsUsed t, x.staged.getD i none = none) → s.dev.b (Reg.TEAM_STAT_DEMAND_LOST t) = false →
        x.held < s.dev.r (Reg.TEAM_CFG_HOLD_EPOCHS t) → s.dev.Sound → ∃ d : Dev,
        exec (.periodBoundary t) s = onward s d ∧ (d.tx t).act = x.act ∧ (d.tx t).missing = true ∧
        (d.tx t).held = x.held + 1 ∧ d.b (Reg.TEAM_STAT_HOLDING t) = true ∧ d.mem = s.dev.mem))) ∧
  (∀ (s : State) (e : Fin 24) (code : Fin 8),
    (s.dev.r (Reg.ENC_CFG_MODE e) ≠ 4 →
      exec (.hallCodeChange e code) s = onward s (s.dev.setEx e { s.dev.ex e with hall := code.val })) ∧
    (s.dev.r (Reg.ENC_CFG_MODE e) = 4 → s.dev.Sound → ∃ d : Dev, exec (.hallCodeChange e code) s = onward s d ∧
      (d.ex e).hall = code.val ∧ ∀ t : Nat, t < 24 → (d.tx t).sector =
        if s.dev.r (Reg.TEAM_CFG_MODE t) = 1 ∧ s.dev.r (Reg.TEAM_COMM_SRC t) = 1 ∧ s.dev.r (Reg.TEAM_COMM_ENC t) = e.val
        then code.val else (s.dev.tx t).sector)) ∧
  (∀ (s : State) (t : Fin 24) (j : Fin 4),
    let w := (s.dev.tx t).cmps.getD j.val 0
    let i := bits w 19 6
    let c := convOf i
    let x : ConvX := Tab.look {} c s.dev.team.conv
    (bitOf w 26 = false ∨ s.dev.periodUnits t ≤ 100 * bits w 0 19 → exec (.adcTrigger t j) s = onward s s.dev) ∧
    (bitOf w 26 = true → 100 * bits w 0 19 < s.dev.periodUnits t → bitOf w 25 = true ∨ (s.dev.tx t).period = 0 → i < 48 →
      (x.busy = none → exec (.adcTrigger t j) s = onward s { s.dev with team := { s.dev.team with
        sampled := setBit s.dev.team.sampled i true
        conv := Tab.put c { x with busy := some ⟨i, false, s.dev.r Reg.EPK_NOW, !bitOf s.dev.team.sampled i⟩ }
          s.dev.team.conv } }) ∧
      (x.busy.isSome = true → x.queue.length < 3 → exec (.adcTrigger t j) s = onward s { s.dev with team := { s.dev.team with
        conv := Tab.put c { x with queue := x.queue ++ [i] } s.dev.team.conv } }) ∧
      (x.busy.isSome = true → 3 ≤ x.queue.length →
        exec (.adcTrigger t j) s = onward s (s.dev.inc (Reg.ADC_CONV_STAT_TRIG_DROP c))))) ∧
  (∀ (d : Dev) (i raw : Nat), d.adcSample i raw = max (-32768) (min
    ((((raw : Int) - d.r (Reg.ADC_CFG_ZERO i)) * d.r (Reg.ADC_CFG_GAIN i)) / 2 ^ 14) 32767)) ∧
  (∀ (s : State) (c : Fin 8) (raw : BitVec 16),
    let x : ConvX := Tab.look {} c.val s.dev.team.conv
    (x.busy = none → exec (.adcConversionDone c raw) s = onward s s.dev) ∧
    (∀ v : Conv, x.busy = some v → x.queue = [] → v.input < 48 → v.first = true → v.epoch = s.dev.r Reg.EPK_NOW →
      s.dev.b (Reg.ADC_LIM_MASK_LIM_EN v.input) = false → (∀ e : Nat, e < 24 → s.dev.r (Reg.ENC_CFG_MODE e) ≠ 3) →
      s.dev.Sound → ∃ d : Dev, exec (.adcConversionDone c raw) s = onward s d ∧
        d.rs (Reg.ADC_LAST_SAMPLE v.input) = s.dev.adcSample v.input raw.toNat ∧
        d.r (Reg.ADC_LAST_RAW v.input) = raw.toNat ∧ d.adcNow v.input = some (s.dev.adcSample v.input raw.toNat) ∧
        d.b (Reg.ADC_EPOCH_SHIFTED v.input) = v.shifted ∧
        d.team.conv = Tab.put c.val { x with busy := none } s.dev.team.conv ∧ d.mem = s.dev.mem)) ∧
  (∀ (s : State) (e : Fin 24),
    (s.dev.r (Reg.ENC_CFG_MODE e) ≠ 1 → exec (.encIndexLatch e) s = onward s s.dev) ∧
    (s.dev.r (Reg.ENC_CFG_MODE e) = 1 → exec (.encIndexLatch e) s = onward s
      ((s.dev.ws (Reg.ENC_INDEX e) (s.dev.ex e).count).w (Reg.ENC_STAT_INDEX_SEEN e) 1))) ∧
  (∀ (s : State) (e : Fin 24) (data : Word), s.dev.r (Reg.ENC_CFG_MODE e) = 2 →
    exec (.ssiFrameDone e data false) s = onward s
      ((s.dev.w (Reg.ENC_STAT_FAULT e) 1).w (Reg.ENC_STAT_FAULT_SEEN e) 1) ∧
    (s.dev.b (Reg.ENC_CFG_GRAY e) = false →
      let v := data.toNat % 2 ^ s.dev.r (Reg.ENC_CFG_BITS e)
      exec (.ssiFrameDone e data true) s = onward s
        ((s.dev.setEx e { s.dev.ex e with latched := some v }).w (Reg.ENC_COUNT e) v))) ∧
  ∀ (s : State) (e : Fin 24) (a b : Bool), s.dev.r (Reg.ENC_CFG_MODE e) = 1 → (s.dev.ex e).seen = true →
    let x := s.dev.ex e
    (a ≠ x.a → b ≠ x.b → exec (.encQuadEdge e a b) s = onward s
      (((s.dev.setEx e { x with a := a, b := b }).w (Reg.ENC_STAT_FAULT e) 1).w (Reg.ENC_STAT_FAULT_SEEN e) 1)) ∧
    ((a ≠ x.a ∧ b = x.b) ∨ (a = x.a ∧ b ≠ x.b) → ∃ n : Int, (n = 1 ∨ n = -1) ∧
      exec (.encQuadEdge e a b) s = onward s (s.dev.setEx e { x with a := a, b := b, count := x.count + n }) ∧
      ((a = true ∧ x.a = false ∧ b = false) → n = 1))

/-- Chopper events of a phase, standstill, and the load-angle estimate. Each event on a team that is not in the state it needs
changes nothing. Else: TSTILL_EXPIRE drops the amplitude to IHOLD; CHOP_BLANK_END arms the comparator of a phase in DRIVE;
CHOP_COMPARATOR_SWITCH moves it to FAST or SLOW, CHOP_FAST_END to SLOW. LOAD_ANGLE_ESTIMATE with a sample missing sets
EST_MISS, else it keeps the filtered angle and the EMF. Clauses that follow a reading of the model: log entries 68, 69. (R226,
R228, R231, R232, R233) -/
def Obligations.ChopperAndLoadAngle : Prop :=
  (∀ (s : State) (t : Fin 24),
    let x := s.dev.tx t
    (s.dev.r (Reg.TEAM_CFG_MODE t) ≠ 3 ∨ x.step.still < s.dev.r (Reg.STEP_CFG_TSTILL t) →
      exec (.tstillExpire t) s = onward s s.dev) ∧
    (s.dev.r (Reg.TEAM_CFG_MODE t) = 3 → s.dev.r (Reg.STEP_CFG_TSTILL t) ≤ x.step.still →
      exec (.tstillExpire t) s = onward s
        ((s.dev.setTx t { x with step := { x.step with amp := x.step.ihold } }).w (Reg.STEP_STAT_STILL t) 1))) ∧
  (∀ (s : State) (t : Fin 24) (b : Bool) (tick : Nat),
    let x := s.dev.tx t
    let p := if b then x.step.b else x.step.a
    let put (q : Phase) : Dev :=
      (s.dev.setTx t { x with step := if b then { x.step with b := q } else { x.step with a := q } }).driveTeam t
    (s.dev.strong t = false → exec (.chopBlankEnd t b) s = onward s s.dev ∧
      exec (.chopComparatorSwitch t b tick) s = onward s s.dev ∧ exec (.chopFastEnd t b) s = onward s s.dev) ∧
    (s.dev.strong t = true → p.st = 1 →
      exec (.chopBlankEnd t b) s = onward s (put { p with armed := true }) ∧
      (p.armed = false → exec (.chopComparatorSwitch t b tick) s = onward s s.dev) ∧
      (p.armed = true → s.dev.b (Reg.STEP_CFG_DECAY t) = false → exec (.chopComparatorSwitch t b tick) s = onward s
        (put { p with armed := false, st := 0, drive := 100 * (tick - s.dev.r (Reg.TEAM_DT_DT t)), fast := 0 })) ∧
      (p.armed = true → s.dev.b (Reg.STEP_CFG_DECAY t) = true → ∃ n : Nat, exec (.chopComparatorSwitch t b tick) s = onward s
        (put { p with armed := false, st := 2, drive := 100 * (tick - s.dev.r (Reg.TEAM_DT_DT t)), fast := n }))) ∧
    (s.dev.strong t = true → p.st = 2 → exec (.chopFastEnd t b) s = onward s (put { p with st := 0 }))) ∧
  ∀ (s : State) (t : Fin 24),
    (s.dev.r (Reg.TEAM_CFG_MODE t) ≠ 3 ∨ s.dev.b (Reg.TEAM_STAT_ENABLED t) = false →
      exec (.loadAngleEstimate t) s = onward s s.dev) ∧
    (s.dev.r (Reg.TEAM_CFG_MODE t) = 3 → s.dev.b (Reg.TEAM_STAT_ENABLED t) = true →
      (s.dev.adcNow (2 * t) = none → exec (.loadAngleEstimate t) s = onward s (s.dev.w (Reg.STEP_STAT_EST_MISS t) 1)) ∧
      (∀ a b pa pb v : Int, s.dev.adcNow (2 * t) = some a → s.dev.adcNow (2 * t + 1) = some b →
        (s.dev.tx t).step.ixPrev = [some pa, some pb] → s.dev.adcNow (s.dev.r (Reg.STEP_VBUS t)) = some v → s.dev.Sound →
        ∃ d : Dev, exec (.loadAngleEstimate t) s = onward s d ∧
          (d.tx t).step.df = (s.dev.loadAngle t a b pa pb v).1 ∧
          d.r (Reg.STEP_EMF t) = (s.dev.loadAngle t a b pa pb v).2.1 % 2 ^ 32 ∧ d.mem = s.dev.mem))

/-- The protective separation distance is the sum of its six terms, and tooNear compares with it exactly. With v the speed, A =
A_STOP, T_R, v_h, C, Z_D and Z_R in mm, mm/s, mm/s² and s as rational numbers: S_h + S_r + S_s + C + Z_d + Z_r = v²/(2A) + b v
+ K with K = v_h T_R + C + Z_D + Z_R and b = T_R + v_h/A, and a pair at separation d is too near at speed v exactly when d <
S_p(v). (R254) -/
def Obligations.SeparationDistance : Prop :=
  ∀ (l : SepLaw) (d : Int) (v : Nat), 0 < l.a →
    let q (n k : Nat) : Rat := (n : Rat) / 2 ^ k
    let A := q l.a 8
    let T := (l.tr : Rat) / 1000000
    let w := q v 16
    let h := q l.vh 16
    let K := h * T + q l.c 8 + q l.zd 8 + q l.zr 8
    let b := T + h / A
    let S := h * (T + w / A) + w * T + w * w / (2 * A) + q l.c 8 + q l.zd 8 + q l.zr 8
    S = w * w / (2 * A) + b * w + K ∧ (l.tooNear d v = true ↔ (d : Rat) / 2 ^ 8 < S)

/-- Commands of the Paddock monitor. For packets that are ready and fitted: PDK_INFO, PDK_ARM_READ, PDK_INTR_READ and
PDK_PADDOCK_READ answer the values of the last cycle with its number. PDK_RELEASE is BUSY outside RUN; in RUN it places a
request for every named arm in protective stop that has none of its latched causes present, and answers the refused mask and
the cycle that judges. PDK_RESTART is BUSY outside FAULT and else enters SELFTEST. Clauses that follow a reading of the model:
log entry 96. (R243, R263, R264, R270, R271, R41, R3) -/
def Obligations.PaddockCommands : Prop :=
  ∀ (s : State) (p : Packet),
    let c := [s.dev.regWord 0x50_0010, s.dev.regWord 0x50_0014]
    (s.dev.Ready p 0x500 0 false → exec (.pdkInfo p) s = replied s p 0x500 (s.dev.taken p 0x500)
      (.ok ([s.dev.regWord 0x50_0000, s.dev.regWord 0x50_0004, s.dev.regWord 0x50_0008, s.dev.regWord 0x50_000C,
        s.dev.regWord 0x50_0018, s.dev.regWord 0x50_001C] ++ c))) ∧
    (s.dev.Ready p 0x501 1 false → p.arg 0 < armsOf s.grade →
      let b := 0x50_0100 + 0x20 * p.arg 0
      exec (.pdkArmRead p) s = replied s p 0x501 (s.dev.taken p 0x501)
        (.ok ([s.dev.regWord b, s.dev.regWord (b + 4), s.dev.regWord (b + 8), s.dev.regWord (b + 12), s.dev.regWord (b + 16)] ++
          c))) ∧
    (s.dev.Ready p 0x502 2 false → p.arg 0 < intrudersOf s.grade → 1 ≤ p.arg 1 → p.arg 0 + p.arg 1 ≤ 64 →
      5 + 8 * p.arg 1 ≤ replyLimit p.origin →
      exec (.pdkIntrRead p) s = replied s p 0x502 (s.dev.taken p 0x502)
        (.ok (c ++ Mem.words s.dev.mem (0x52_0000 + 0x20 * p.arg 0) (8 * p.arg 1)))) ∧
    (s.dev.Ready p 0x503 1 false → p.arg 0 < 32 →
      exec (.pdkPaddockRead p) s = replied s p 0x503 (s.dev.taken p 0x503) (.ok (s.dev.regWord (0x50_0400 + 4 * p.arg 0) :: c))) ∧
    (s.dev.Ready p 0x504 1 true → p.arg 0 % 2 ^ 16 < 2 ^ armsOf s.grade →
      let d := s.dev.taken p 0x504
      let next := s.dev.pdk.cycle.getD 0 + 1
      let named := (List.range 16).filter (bitOf (p.arg 0))
      let bad (a : Nat) : Bool := !(s.dev.armsOn s.grade).contains a ||
        decide (s.dev.r (Reg.ARM_STAT_CAUSE a) &&& Tab.look 0 a s.dev.pdk.present ≠ 0)
      (s.dev.r Reg.PDK_STAT_STATE ≠ 2 → exec (.pdkRelease p) s = replied s p 0x504 d .busy) ∧
      (s.dev.r Reg.PDK_STAT_STATE = 2 → exec (.pdkRelease p) s = replied s p 0x504
        (d.each (named.filter (fun a => !bad a && s.dev.b (Reg.ARM_STAT_PSTOP a))) (fun a d =>
          ({ d with pdk := { d.pdk with relCycle := Tab.put a next d.pdk.relCycle } }).w (Reg.ARM_STAT_REL_PENDING a) 1))
        (.ok [(named.filter bad).foldl (fun m a => setBit m a true) 0, loW next, hiW next]))) ∧
    (s.dev.Ready p 0x505 0 true →
      (s.dev.r Reg.PDK_STAT_STATE ≠ 3 → exec (.pdkRestart p) s = replied s p 0x505 (s.dev.taken p 0x505) .busy) ∧
      (s.dev.r Reg.PDK_STAT_STATE = 3 → s.dev.Sound → ∃ d : Dev, exec (.pdkRestart p) s = replied s p 0x505 d (.ok []) ∧
        d.r Reg.PDK_STAT_STATE = 1 ∧ d.pdk.busy = false ∧ d.mem = s.dev.mem ∧
        ∀ a ∈ s.dev.armsOn s.grade, d.b (Reg.ARM_STAT_PSTOP a) = true ∧ d.r (Reg.ARM_CAP a) = 0))

/-- Cycles, stale sensors, coded faults and releases of the Paddock monitor. A cycle start in an epoch where none begins, or in
OFF, changes nothing; else it latches the newest reports. A stale sensor puts each of its enabled arms into protective stop
with cause SENSOR; a sensor that is not stale changes nothing. A finished computation with a fault enters FAULT, counts it,
and puts every enabled arm into protective stop with cause CODED and axis cap 0; one in SELFTEST counts a cycle.
PDK_SELFTEST_END enters RUN after two SELFTEST cycles. Outside RUN, or in protective stop, every axis cap handed over is 0. An
automatic release needs AUTO_REL, a protective stop in RUN, only causes SSM, SENSOR or OVERFLOW, and the dwell. Clauses that
follow a reading of the model: log entries 93, 94, 95, 96, 97. (R238, R239, R241, R243, R249, R259, R263, R264, R268, R269) -/
def Obligations.PaddockCyclesAndStops : Prop :=
  (∀ s : State, s.dev.pdkCycleAt (s.dev.r Reg.EPK_NOW) = none ∨ s.dev.r Reg.PDK_STAT_STATE = 0 →
    exec .pdkCycleStart s = onward s s.dev) ∧
  (∀ (s : State) (c : Nat), s.dev.pdkCycleAt (s.dev.r Reg.EPK_NOW) = some c → s.dev.r Reg.PDK_STAT_STATE ≠ 0 →
    s.dev.ep.placed = true → s.dev.enginesStill = false → s.dev.pdk.cycle ≠ some c →
    ∃ d : Dev, exec .pdkCycleStart s = onward s d ∧ d.pdk.cycle = some c ∧ d.pdk.epoch = s.dev.r Reg.EPK_NOW ∧
      d.pdk.busy = true ∧ d.pdk.taken = false ∧ d.pdk.reports = s.dev.brd.reports ∧ d.mem = s.dev.mem) ∧
  (∀ (s : State) (n : Fin 16),
    (bitOf (s.dev.sensWord n 0) 0 = false ∨ s.dev.r (Reg.PDK_SENS_STAT_AGE n) < bits (s.dev.sensWord n 0) 17 8 →
      exec (.sensorStale n) s = onward s s.dev) ∧
    (bitOf (s.dev.sensWord n 0) 0 = true → bits (s.dev.sensWord n 0) 17 8 ≤ s.dev.r (Reg.PDK_SENS_STAT_AGE n) →
      s.dev.r Reg.PDK_STAT_STATE ≠ 0 → s.dev.Sound → ∃ d : Dev, exec (.sensorStale n) s = onward s d ∧ d.mem = s.dev.mem ∧
        d.b (Reg.PDK_SENS_STAT_STALE n) = true ∧
        ∀ a ∈ s.dev.armsOn s.grade, bitOf (bits (s.dev.sensWord n 0) 1 16) a = true →
          d.b (Reg.ARM_STAT_PSTOP a) = true ∧ bitOf (d.r (Reg.ARM_STAT_CAUSE a)) 5 = true ∧
          ∀ j ∈ s.dev.jointsOf a, s.dev.jointAxis j ∈ d.pdk.outStop)) ∧
  (∀ (s : State) (ns : Nat) (fault : Bool), s.dev.pdk.cycle = none → s.dev.pdk.busy = false →
    exec (.pdkComputationDone ns fault) s = onward s s.dev.pins) ∧
  (∀ (s : State) (ns n : Nat), s.dev.pdk.cycle = some n → s.dev.pdk.busy = true → s.dev.pdk.taken = true →
    s.dev.pdk.epoch ≠ s.dev.r Reg.EPK_NOW → s.dev.Sound →
    (∃ d : Dev, exec (.pdkComputationDone ns true) s = onward s d.pins ∧ d.r Reg.PDK_STAT_STATE = 3 ∧
      d.b Reg.PDK_STAT_CODED_FAULT = true ∧ d.pdk.busy = false ∧
      ∀ a ∈ s.dev.armsOn s.grade, d.b (Reg.ARM_STAT_PSTOP a) = true ∧ bitOf (d.r (Reg.ARM_STAT_CAUSE a)) 8 = true ∧
        d.r (Reg.ARM_CAP a) = 0) ∧
    (s.dev.r Reg.PDK_STAT_STATE = 1 → ∃ d : Dev, exec (.pdkComputationDone ns false) s = onward s d.pins ∧
      d.r Reg.PDK_STAT_STATE = 1 ∧ d.pdk.selfCycles = s.dev.pdk.selfCycles + 1 ∧ d.pdk.busy = false ∧
      d.r Reg.PDK_TCALC = min ns (s.dev.tcalcMax s.grade) % 2 ^ Reg.PDK_TCALC.width)) ∧
  (∀ s : State, exec .pdkSelftestEnd s = onward s
    (if s.dev.r Reg.PDK_STAT_STATE = 1 ∧ 2 ≤ s.dev.pdk.selfCycles then
      ({ s.dev with pdk := { s.dev.pdk with runCycles := 0 } }).w Reg.PDK_STAT_STATE 2 else s.dev)) ∧
  (∀ (d : Dev) (g : Grade), ∃ t : Tab Nat, (d.handCaps g).pdk.outCaps = some t ∧
    ∀ e ∈ t, d.r Reg.PDK_STAT_STATE ≠ 2 ∨ (∀ a ∈ d.armsOn g, e.1 ∈ (d.jointsOf a).map d.jointAxis →
      d.b (Reg.ARM_STAT_PSTOP a) = true) → e.2 = 0) ∧
  ∀ (s : State) (a : Fin 16),
    (s.dev.r Reg.PDK_STAT_STATE ≠ 2 ∨ s.dev.b (Reg.ARM_STAT_PSTOP a) = false ∨ bitOf (s.dev.armWord a 0) 13 = false ∨
      s.dev.r (Reg.ARM_STAT_CAUSE a) &&& 0x19E ≠ 0 ∨
      Tab.look 0 a.val s.dev.pdk.capRun < max 1 (bits (s.dev.armWord a 8) 0 16) →
      exec (.pdkAutoRelease a) s = onward s s.dev) ∧
    (a.val ∈ s.dev.armsOn s.grade → s.dev.r Reg.PDK_STAT_STATE = 2 → s.dev.b (Reg.ARM_STAT_PSTOP a) = true →
      bitOf (s.dev.armWord a 0) 13 = true → s.dev.r (Reg.ARM_STAT_CAUSE a) &&& 0x19E = 0 →
      max 1 (bits (s.dev.armWord a 8) 0 16) ≤ Tab.look 0 a.val s.dev.pdk.capRun → s.dev.pdk.busy = true →
      exec (.pdkAutoRelease a) s = onward s
        { s.dev.w (Reg.ARM_STAT_REL_PENDING a) 1 with pdk := { s.dev.pdk with
          relCycle := Tab.put a.val (s.dev.pdk.cycle.getD 0) s.dev.pdk.relCycle } })

/-- Sage commands and writes of SAGE_CTRL. A write of SAGE_CTRL sets RUN, and COLD_NEXT with a 1. For packets that are ready, with
Sage fitted: SAGE_INFO and SAGE_READ answer registers and stored values; SAGE_STRUCT_LOAD is BUSY during an analysis or with a
commit pending, and else takes a good image out of the shared memory and starts its analysis; SAGE_STRUCT_COMMIT names the
staged structure and a later cycle; SAGE_DELTA queues its entries whole or not at all; SAGE_COLD sets COLD_NEXT. Without Sage
every command answers NOT_FITTED. Clauses that follow a reading of the model: log entries 102, 106. (R279, R280, R282, R283,
R286, R303, R304, R11, R3) -/
def Obligations.SageCommands : Prop :=
  (∀ (s : State) (path : Path) (v : Word), s.dev.pathOpen path = true →
    (s.dev.pathPriv path = false → exec (.sageCtrlColdNext path v) s = onward s (s.dev.countPath path)) ∧
    (s.dev.pathPriv path = true → sageFitted s.grade = true → exec (.sageCtrlColdNext path v) s = onward s
      (let d := s.dev.w Reg.SAGE_CTRL_RUN (v.toNat % 2)
       if bitOf v.toNat 1 then d.w Reg.SAGE_CTRL_COLD_NEXT 1 else d))) ∧
  (∀ (s : State) (p : Packet), s.dev.Ready p 0x600 0 false → sageFitted s.grade = false →
    exec (.sageInfo p) s = replied s p 0x600 (s.dev.taken p 0x600) .notFitted) ∧
  ∀ (s : State) (p : Packet), sageFitted s.grade = true →
    (s.dev.Ready p 0x600 0 false → exec (.sageInfo p) s = replied s p 0x600 (s.dev.taken p 0x600)
      (.ok ([0x60_0004, 0x60_0048, 0x60_004C, 0x60_0050, 0x60_005C, 0x60_0060, 0x60_0064, 0x60_0070, 0x60_0074].map
        s.dev.regWord))) ∧
    (s.dev.Ready p 0x601 2 true →
      let d := s.dev.taken p 0x601
      let ws := Mem.words d.hk.swm (p.arg 0) (p.arg 1)
      let base := s.dev.r Reg.SAGE_SWM_BASE * 2 ^ 16
      (s.dev.r Reg.SAGE_STAGED_STAT_STATE = 1 ∨ s.dev.b Reg.SAGE_STAGED_STAT_COMMIT_PENDING = true →
        exec (.sageStructLoad p) s = replied s p 0x601 d .busy) ∧
      (s.dev.r Reg.SAGE_STAGED_STAT_STATE ≠ 1 → s.dev.b Reg.SAGE_STAGED_STAT_COMMIT_PENDING = false → p.arg 0 % 4 = 0 →
        p.arg 0 < 0xC0_0000 → p.arg 0 + 4 * p.arg 1 ≤ 0xC0_0000 →
        p.arg 0 + 4 * p.arg 1 ≤ base ∨ base + s.dev.r Reg.SAGE_SWM_SIZE * 2 ^ 16 ≤ p.arg 0 →
        headerOk ws (p.arg 1) = true → ws.getD 1 0 ≠ 0 → ws.getD 1 0 ≠ s.dev.r Reg.SAGE_ACTIVE_ID →
        exec (.sageStructLoad p) s = replied s p 0x601
          (((({ d with sage := { s.dev.sage with stagedWords := ws, staged := none } }.w Reg.SAGE_STAGED_ID (ws.getD 1 0)).w
            Reg.SAGE_STAGED_STAT_STATE 1).w Reg.SAGE_STAGED_STAT_REASON 0).w Reg.SAGE_STAT_ANALYSING 1)
          (.ok [ws.getD 1 0]))) ∧
    (s.dev.Ready p 0x602 3 true → p.arg 0 = s.dev.r Reg.SAGE_STAGED_ID → p.arg 0 ≠ 0 →
      let d := s.dev.taken p 0x602
      let c := pair64 (p.arg 1) (p.arg 2)
      (c ≤ s.dev.sageCycle → exec (.sageStructCommit p) s = replied s p 0x602 d .past) ∧
      (s.dev.sageCycle < c → s.dev.b Reg.SAGE_STAGED_STAT_COMMIT_PENDING = false → exec (.sageStructCommit p) s =
        replied s p 0x602 ((d.w Reg.SAGE_COMMIT_CYCLE c).w Reg.SAGE_STAGED_STAT_COMMIT_PENDING 1) (.ok []))) ∧
    (∀ n : Nat, s.dev.Ready p 0x603 (2 + 3 * n) false → p.arg 1 = n → 1 ≤ n → n ≤ 300 →
      ∀ t : SageStruct, s.dev.sage.active = some t → t.id = p.arg 0 →
        let d := s.dev.taken p 0x603
        let es := (List.range n).map (fun i =>
          SageDelta.mk (p.arg 0) (p.arg (2 + 3 * i) % 2 ^ 18) (pair64 (p.arg (3 + 3 * i)) (p.arg (4 + 3 * i))))
        (∀ e ∈ es, e.idx < t.nval ∧ fin64 e.val = true) →
        (16384 < s.dev.sage.deltas.length + n → exec (.sageDelta p) s = replied s p 0x603
          ((d.w Reg.SAGE_STAT_DELTA_OVF 1).inc Reg.SAGE_DELTA_OVF_CNT) .busy) ∧
        (s.dev.sage.deltas.length + n ≤ 16384 → ∃ w : Nat, exec (.sageDelta p) s = replied s p 0x603
          ({ d with sage := { s.dev.sage with deltas := s.dev.sage.deltas ++ es } }.w Reg.SAGE_DELTA_PEND
            (s.dev.sage.deltas.length + n)) (.ok [w]))) ∧
    (s.dev.Ready p 0x604 2 false → 6 + 2 * p.arg 1 ≤ replyLimit p.origin →
      ∀ r : SageResult, s.dev.sage.result = some r → p.arg 0 < r.x.length → 1 ≤ p.arg 1 → p.arg 1 ≤ 400 →
        p.arg 0 + p.arg 1 ≤ r.x.length →
        exec (.sageRead p) s = replied s p 0x604 (s.dev.taken p 0x604)
          (.ok ([s.dev.regWord 0x60_004C, s.dev.regWord 0x60_0050, s.dev.regWord 0x60_0048] ++
            ((r.x.drop (p.arg 0)).take (p.arg 1)).flatMap (fun v => [loW v, hiW v])))) ∧
    (s.dev.Ready p 0x605 0 true → exec (.sageCold p) s = replied s p 0x605
      ((s.dev.taken p 0x605).w Reg.SAGE_CTRL_COLD_NEXT 1) (.ok []))

/-- A coordination cycle: latch, iterations, deadline and the one result it publishes. A latch where no cycle begins, or without
Sage, changes nothing. With RUN = 0 the cycle publishes STOPPED with every block NaN; with a storage error MEM_ERR; with
finite values it begins a solve that asks for lanes, or publishes SOLVED. An iteration without a grant changes nothing; one
that ends in time, is neither singular, infeasible nor converged and is not the last keeps the solve with one more iteration.
At the deadline an unconverged solve is STRUCT_GAP in the first cycle after a switch, STALE_PLAN at the limit of shifts, else
SHIFTED, and the solve ends. The analysis of a staged image ends READY or REFUSED. Clauses that follow a reading of the model:
log entries 99, 103, 104. (R274, R275, R280, R285, R287, R289, R293, R294, R298) -/
def Obligations.SageCyclesAndResults : Prop :=
  (∀ (s : State) (e : Bool), sageFitted s.grade = false ∨ s.dev.r Reg.EPK_NOW % s.dev.kc ≠ 0 ∨ s.dev.enginesStill = true →
    exec (.sageLatch e) s = onward s s.dev) ∧
  (∀ (s : State) (e : Bool), sageFitted s.grade = true → s.dev.ep.placed = true → s.dev.enginesStill = false →
    s.dev.kc ≠ 0 → s.dev.r Reg.EPK_NOW % s.dev.kc = 0 → s.dev.sage.lastCycle ≠ some s.dev.sageCycle →
    s.dev.sage.solve = none → s.dev.b Reg.SAGE_STAGED_STAT_COMMIT_PENDING = false → s.dev.Sound →
    (s.dev.b Reg.SAGE_CTRL_RUN = false → ∃ d : Dev, exec (.sageLatch e) s = onward s d ∧ d.mem = s.dev.mem ∧
      d.sage.lastCycle = some s.dev.sageCycle ∧ d.sage.solve = none ∧ d.r Reg.SAGE_RES_CODE = 7 ∧
      ∃ r : SageResult, d.sage.result = some r ∧ r.code = 7 ∧ r.cycle = s.dev.sageCycle ∧ ∀ v ∈ r.x, v = f64.nanBits) ∧
    (s.dev.b Reg.SAGE_CTRL_RUN = true → ∀ t : SageStruct, s.dev.sage.active = some t →
      (e = true → ∃ (d : Dev) (r : SageResult), exec (.sageLatch e) s = onward s d ∧ d.sage.result = some r ∧ r.code = 8 ∧
        r.cycle = s.dev.sageCycle ∧ r.nan = t.allBlocks) ∧
      (e = false → t.binds = [] → s.dev.sage.deltas = [] → (∀ v ∈ s.dev.sage.vals, fin64 v = true) →
        ∃ d : Dev, exec (.sageLatch e) s = onward s d ∧ d.sage.lastCycle = some s.dev.sageCycle ∧
          ((∃ q : SageSolve, d.sage.solve = some q ∧ q.cycle = s.dev.sageCycle ∧ q.iters = 0 ∧ d.sage.laneReq = true) ∨
            ∃ r : SageResult, d.sage.result = some r ∧ r.code = 0 ∧ r.cycle = s.dev.sageCycle ∧ r.nan = 0)))) ∧
  (∀ (s : State) (e : Bool), s.dev.sage.solve = none ∨ s.dev.sage.grant = 0 →
    exec (.sageIteration e) s = onward s s.dev) ∧
  (∀ (s : State) (q : SageSolve) (t : SageStruct) (x y z sl dx : List Nat), s.dev.sage.solve = some q →
    s.dev.sage.active = some t → s.dev.sage.grant ≠ 0 →
    let p := s.dev.sageProb s.grade t s.dev.sage.grant
    let endNs := max q.ready s.dev.sage.grantNs + t.iterNs s.dev.sage.grant
    endNs ≤ s.dev.solveDeadline q.bound → p.iterate q.par (factorPattern t) q.x q.y q.z q.s = .next x y z sl dx →
    p.infeasible y z = false → t.blockMask (fun v => tooBig (x.getD v 0) || tooBig (dx.getD v 0)) = 0 →
    p.converged q.par (p.resid x y z sl) = false → q.iters + 1 < q.iterMax →
    ∃ d : Dev, exec (.sageIteration false) s = onward s d ∧ d.mem = s.dev.mem ∧ d.sage.grant = 0 ∧ d.sage.laneReq = true ∧
      d.sage.solve = some { q with
        iters := q.iters + 1, lanes := s.dev.sage.grant, ready := endNs, x := x, y := y, z := z, s := sl }) ∧
  (∀ s : State, s.dev.sage.solve = none → exec .sageSolveDeadline s = onward s s.dev) ∧
  (∀ (s : State) (q : SageSolve) (t : SageStruct), s.dev.sage.solve = some q → s.dev.sage.active = some t →
    ∃ (d : Dev) (r : SageResult), exec .sageSolveDeadline s = onward s d ∧ d.sage.solve = none ∧ d.mem = s.dev.mem ∧
      d.sage.result = some r ∧ r.cycle = q.cycle ∧ r.id = t.id ∧
      (q.first = true → r.code = 6 ∧ r.nan = t.allBlocks ∧ ∀ v ∈ r.x, v = f64.nanBits) ∧
      (q.first = false → q.shiftMax ≤ s.dev.r Reg.SAGE_SHIFT_RUN → r.code = 5 ∧ r.nan = t.allBlocks) ∧
      (q.first = false → s.dev.r Reg.SAGE_SHIFT_RUN < q.shiftMax → r.code = 1 ∧ r.x = (s.dev.shifted t).1 ∧
        r.nan = (s.dev.shifted t).2)) ∧
  (∀ s : State, s.dev.r Reg.SAGE_STAGED_STAT_STATE ≠ 1 → exec .sageAnalysisDone s = onward s s.dev) ∧
  ∀ s : State, s.dev.r Reg.SAGE_STAGED_STAT_STATE = 1 → s.dev.Sound →
    let a := analyse s.dev.sage.stagedWords (axesOf s.grade) (armsOf s.grade) (s.dev.r Reg.SAGE_SWM_SIZE * 2 ^ 16)
      s.dev.sage.active
    ∃ d : Dev, exec .sageAnalysisDone s = onward s d ∧ d.mem = s.dev.mem ∧ d.sage.active = s.dev.sage.active ∧
      (a.1 = 0 → d.sage.staged = some a.2 ∧ d.r Reg.SAGE_STAGED_STAT_STATE = 2) ∧
      (a.1 ≠ 0 → d.sage.staged = none ∧ d.r Reg.SAGE_STAGED_STAT_STATE = 3)

/-- What a ring node does with frames, instants, links, faults and acyclic requests; nothing outside the node changes. Every node
command changes that node only. A frame of another type is an error and is not forwarded; a returning frame passes unchanged;
an OFFLINE node adds 1 to HOP and forwards or, with the link ahead down, turns the frame. In RUN the node takes its own slots:
TALLY counts up by one in each own slot, and other slots stay as they are. SAFE is entered only from RUN or HOLD by a hold, a
fault or a request; reset gives OFFLINE. READ, WRITE, ADDRESS and STATE answer as the register and state tables allow. Clauses
that follow a reading of the model: log entries 109, 110, 113. (R307, R314, R319, R320, R321, R322, R328, R329, R330, R332,
R457) -/
def Obligations.RingNodeEvents : Prop :=
  (∀ (s : State) (r : Fin 4) (n : Fin 126),
    let x := s.dev.node r n
    let put (y : NodeX) := onward s (s.dev.setNode r n y)
    (∀ (u : Bool) (a : Nat) (f : TraceFrame) (sm : List (Nat × Nat)),
      exec (.nodeFrameReceive r n u false a f sm) s = put { x with errCnt := min (x.errCnt + 1) (2 ^ 32 - 1), fwd := none } ∧
      (f.returning = true → ∃ tb tz : Nat,
        exec (.nodeFrameReceive r n u true a f sm) s = put { x with fwd := some f, tsB := tb, tsZ := tz }) ∧
      (f.returning = false → f.version = 1 → f.fcsOk = true → x.st = 0 → x.rsp = none → f.req.valid = false →
        (if u then x.dLink else x.uLink) = true → ∃ ta : Nat, exec (.nodeFrameReceive r n u true a f sm) s =
          put { x with tsA := ta, fwd := some { f with hop := min 127 (f.hop + 1) } }) ∧
      (f.returning = false → f.version = 1 → f.fcsOk = true → x.st = 0 → x.rsp = none → f.req.valid = false →
        (if u then x.dLink else x.uLink) = false → ∃ ta tz : Nat, exec (.nodeFrameReceive r n u true a f sm) s =
          put { x with
            tsA := ta, tsZ := tz, fwd := some { f with hop := min 127 (f.hop + 1), returning := true, turnPos := x.number } }) ∧
      (f.returning = false → f.version = 1 → f.fcsOk = true → x.st = 3 → x.rsp = none → f.req.valid = false →
        x.processed = false → x.delayU = none → x.delayD = none → x.stepped = false → x.runAt = none →
        (∀ fs ∈ f.slots, fs.words.length ≤ 128) → (if u then x.dLink else x.uLink) = true → ∃ y : NodeX,
        exec (.nodeFrameReceive r n u true a f sm) s = put y ∧ y.processed = true ∧ y.valid = true ∧ y.epoch = f.epochLo ∧
          y.st = 3 ∧ ∃ g : TraceFrame, y.fwd = some g ∧ g.hop = min 127 (f.hop + 1) ∧ g.slots.length = f.slots.length ∧
          ∀ (i : Nat) (fs gs : FrameSlot), f.slots[i]? = some fs → g.slots[i]? = some gs →
            ((fs.node = x.number ∧ x.slotList.any (fun c => c.index == fs.slot)) → gs.tally = (fs.tally + 1) % 256) ∧
            (fs.node ≠ x.number → gs = fs))) ∧
    (x.live = false → x.runAt = none → (x.processed = true ∧ x.valid = true) ∨ x.st = 0 → exec (.nodeApply r n) s = put { x with
      noFrame := 0, processed := false, valid := false, present := 0, rx := [], epoch := (x.epoch + 1) % 2 ^ 32 }) ∧
    (x.live = true → x.outSlots = [] → x.wdraws = [] → x.processed = true → x.valid = true → ∃ y : NodeX,
      exec (.nodeApply r n) s = put y ∧ y.st = 3 ∧ y.noFrame = 0 ∧ y.processed = false ∧ y.outs = x.outs) ∧
    (x.live = true → x.processed = false → ∃ y : NodeX, exec (.nodeApply r n) s = put y ∧ y.st = 4 ∧
      y.noFrame = x.noFrame + 1 ∧ y.outs = x.outs) ∧
    (x.timed = [] → exec (.nodeTimedSwitch r n) s = put x) ∧
    (∀ e : Nat × Nat × Bool × Nat, x.timed = [e] → x.live = true →
      exec (.nodeTimedSwitch r n) s = put { x with outBits := setBit x.outBits e.1 e.2.2.1, timed := [] }) ∧
    (x.st ≠ 4 → exec (.nodeHoldExpire r n) s = put x) ∧
    (x.st = 4 → 0 < x.noFrame → x.hold ≤ x.noFrame →
      exec (.nodeHoldExpire r n) s = put { x with st := 5, timed := [], wdraws := [], runAt := none }) ∧
    (exec (.nodeLinkDown r n true) s = put { x with uLink := false } ∧
      exec (.nodeLinkDown r n false) s = put { x with dLink := false } ∧
      exec (.nodeLinkUp r n true) s = put { x with uLink := true } ∧
      exec (.nodeLinkUp r n false) s = put { x with dLink := true }) ∧
    (∃ y : NodeX, exec (.nodeReset r n) s = put y ∧ y.st = 0 ∧ y.number = 0 ∧ y.slots = [] ∧ y.vendor = x.vendor ∧
      y.uLink = x.uLink ∧ y.dLink = x.dLink) ∧
    (exec (.nodeWatchdogExpire r n) s = put (if x.slotList.any (fun c => c.kind == 3) then x.watchdog else x) ∧
      (x.slotList.any (fun c => c.kind == 3) = true → x.watchdog.sto = true ∧ x.watchdog.st = x.st)) ∧
    (∀ b : Bool, exec (.nodeInternalFault r n b) s = put
      (if x.st = 3 ∨ x.st = 4 then { x with st := 5, timed := [], wdraws := [], runAt := none, safeCause := b } else x))) ∧
  (∀ (s : State) (r : Fin 4) (n : Fin 126) (q : AcycReq) (hop : Nat), (s.dev.node r n).req = some (q, hop) →
    let x := s.dev.node r n
    let put (y : NodeX) := onward s (s.dev.setNode r n y)
    (q.op = 1 → q.target ≠ 127 → (∀ v : Nat × Nat, x.regPair q.addr = some v → exec (.acycRead r n) s =
        put { x with req := none, rsp := some ⟨x.number, true, q.seq, 0, 0, v.1, v.2⟩ }) ∧
      (x.regPair q.addr = none → exec (.acycRead r n) s =
        put { x with req := none, rsp := some ⟨x.number, true, q.seq, 1, 0, 0, 0⟩ })) ∧
    (q.op = 2 → q.target ≠ 127 → exec (.acycWrite r n) s = put { (x.writePair q.addr q.d0 q.d1).1 with
        req := none
        rsp := some ⟨(x.writePair q.addr q.d0 q.d1).1.number, true, q.seq, (x.writePair q.addr q.d0 q.d1).2, 0, 0, 0⟩ } ∧
      (q.addr = 0x28 → x.st = 1 ∨ x.st = 2 → q.d0 ≤ 16 →
        x.writePair q.addr q.d0 q.d1 = ({ x with hold := q.d0, apply := q.d1 % 2 ^ 20 }, 0)) ∧
      (q.addr = 0x28 → x.st ≠ 1 → x.st ≠ 2 → x.writePair q.addr q.d0 q.d1 = (x, 2))) ∧
    (q.op = 3 → q.target = 127 → exec (.acycAddress r n) s = put { x with
      number := hop + 1, st := if x.st = 0 then 1 else x.st, req := none, rsp := some ⟨127, true, q.seq, 0, 1, 0, 0⟩ }) ∧
    (q.op = 4 → q.target ≠ 127 → q.addr = 3 →
      (x.st = 2 → x.aligned = true → exec (.acycState r n) s = put { x with
        runAt := some q.d0, req := none, rsp := some ⟨x.number, true, q.seq, 0, 0, 0, 0⟩ }) ∧
      (x.st ≠ 2 ∨ x.aligned = false → exec (.acycState r n) s = put { x with
        req := none, rsp := some ⟨x.number, true, q.seq, 2, 0, 0, 0⟩ })) ∧
    (q.op = 4 → q.target ≠ 127 → q.addr = 5 → x.st = 3 ∨ x.st = 4 → exec (.acycState r n) s = put { x with
      st := 5, timed := [], wdraws := [], runAt := none, req := none, rsp := some ⟨x.number, true, q.seq, 0, 0, 0, 0⟩ })) ∧
  ∀ (d : Dev) (r n : Nat) (y : NodeX), (d.setNode r n y).node r n = y ∧ (d.setNode r n y).regs = d.regs ∧
    (d.setNode r n y).mem = d.mem ∧ ∀ r' n' : Nat, n' < 128 → n < 128 → (r', n') ≠ (r, n) →
      (d.setNode r n y).node r' n' = d.node r' n'

/-- Link changes, returned frames, closure and start phases of a ring port. CRD_LINK_CHANGE shows the link. A frame that the port
does not wait for, or that comes after the deadline, changes nothing; a bad FCS is counted; a good one shows HOP and TURN_POS,
is judged, and makes the ring's group ready. A slot without a full copy is EMPTY and counted. Requests are retried twice and
then time out. CLOSURE_END needs 64 good returns. The partner turns an outbound frame and reports the turn time; records of
the tack link are kept. A start phase moves on, fails with its code at its limit, or completes at phase 7. Clauses that follow
a reading of the model: log entries 107, 111, 114, 116. (R305, R307, R311, R315, R321, R324, R331, R332, R334) -/
def Obligations.RingPortEvents : Prop :=
  (∀ (s : State) (p : Fin 4) (up ok' : Bool),
    exec (.crdLinkChange p up ok') s = onward s (s.dev.w (Reg.CRD_PORT_STAT_LINK p) (if up && ok' then 1 else 0))) ∧
  (∀ (s : State) (p : Fin 4) (f : TraceFrame) (c ns : Nat),
    let x := s.dev.rp p
    let n := s.dev.r Reg.EPK_NOW
    (x.frame = none ∨ x.judged = true ∨ x.returned.isSome = true ∨ f.epochLo ≠ loW n →
      exec (.traceFrameReturn p f c ns) s = onward s s.dev) ∧
    (x.frame.isSome = true → x.judged = false → x.returned = none → f.epochLo = loW n →
      (f.fcsOk = false → exec (.traceFrameReturn p f c ns) s =
        onward s ((s.dev.inc (Reg.CRD_FCS_CNT p)).w (Reg.CRD_PORT_STAT_FCS_ERR p) 1)) ∧
      (f.fcsOk = true → s.dev.te - s.dev.ep.margin ≤ ns → exec (.traceFrameReturn p f c ns) s = onward s s.dev) ∧
      (f.fcsOk = true → ns < s.dev.te - s.dev.ep.margin → f.origin = false → f.rsp.valid = false →
        s.dev.needsFar p = false → s.dev.Sound → ∃ d : Dev, exec (.traceFrameReturn p f c ns) s = onward s d ∧
          (d.rp p).judged = true ∧ (d.rp p).returned = some (f, ns) ∧ (d.rp p).lostRun = 0 ∧
          d.r (Reg.CRD_PORT_STAT_HOP p) = f.hop % 2 ^ (Reg.CRD_PORT_STAT_HOP p).width ∧
          d.r (Reg.CRD_PORT_STAT_TURN_POS p) = f.turnPos % 2 ^ (Reg.CRD_PORT_STAT_TURN_POS p).width ∧
          Tab.look 0 p.val d.loop.ready = ns ∧ d.mem = s.dev.mem))) ∧
  (∀ (d : Dev) (p : Nat) (own far : Option TraceFrame) (c : SlotCfg), d.Sound → p < 4 → c.index < 256 →
    let y := d.judgeSlot p own far c
    (inWordsOf own c = none → inWordsOf far c = none → y.b (Reg.CRD_SLOT_STAT_EMPTY p c.index) = true ∧
      (y.rp p).ins = (d.rp p).ins) ∧
    (∀ ws : List Nat, inWordsOf own c = some ws → y.b (Reg.CRD_SLOT_STAT_EMPTY p c.index) = false)) ∧
  (∀ (s : State) (p : Fin 4),
    let x := s.dev.rp p
    (x.acyc = [] → exec (.acycTimeout p) s = onward s s.dev) ∧
    (∀ (j : AcycJob) (l : List AcycJob) (n : Nat), x.acyc = j :: l → j.respIn = some n → n < s.dev.r Reg.EPK_NOW →
      (j.sent < 3 → exec (.acycTimeout p) s = onward s (s.dev.setRp p { x with acyc := { j with respIn := none } :: l })) ∧
      (3 ≤ j.sent → j.purpose = 0x706 → exec (.acycTimeout p) s = onward s
        ((s.dev.setRp p { x with acyc := l }).settle 0x706 (256 * p.val + j.seq) .timeout))) ∧
    exec (.closureEnd p) s = onward s (if x.closeFrom.isSome ∧ 64 ≤ x.goodRun then
      (((s.dev.setRp p { x with closeFrom := none }).w (Reg.CRD_PORT_STAT_CLOSED p) 0).w Reg.CRD_STAT_CLOSED
        (setBit (s.dev.r Reg.CRD_STAT_CLOSED) p false)) else s.dev)) ∧
  (∀ (s : State) (p : Fin 4) (f : TraceFrame) (c : Nat),
    (s.dev.b Reg.PAIR_STAT_HOLDER = true → exec (.partnerFrameTurn p f c) s = onward s s.dev) ∧
    (s.dev.b Reg.PAIR_STAT_HOLDER = false → s.dev.b (Reg.CRD_PORT_CFG_PAIRED p) = true → f.returning = false → ∃ t : Nat,
      exec (.partnerFrameTurn p f c) s = onward s ((s.dev.reach c).setRp p { s.dev.rp p with
        turned := some { f with returning := true, turnPos := 127 }, tackSent := some (.turn t) }))) ∧
  (∀ (s : State) (p : Fin 4), s.dev.b Reg.PAIR_CFG_PAIRED = true →
    (∀ t : Nat, exec (.tackClosureRecord p (.turn t)) s =
      onward s (s.dev.setRp p { s.dev.rp p with tTurn := (t :: (s.dev.rp p).tTurn).take 16 })) ∧
    (∀ l : List FrameSlot, s.dev.b Reg.PAIR_STAT_HOLDER = false → exec (.tackClosureRecord p (.outData l)) s =
      onward s (s.dev.setRp p { s.dev.rp p with closeOut := some l }))) ∧
  ∀ (s : State) (p : Fin 4) (up : Bool) (ms : List (Int × Int)),
    let x := s.dev.rp p
    (s.dev.crdState p ≠ 1 → exec (.crdStartPhase p up ms) s = onward s s.dev) ∧
    (s.dev.crdState p = 1 → x.startBad = none → s.dev.Sound →
      (x.phase = 1 → s.dev.b (Reg.CRD_PORT_STAT_LINK p) = true → ∃ d : Dev, exec (.crdStartPhase p up ms) s = onward s d ∧
        (d.rp p).phase = 2 ∧ (d.rp p).acyc = x.acyc ++ [⟨127, (x.seq + 1) % 256, 3, 0, 0, 0, 0x701, 0, none⟩] ∧
        d.regs = s.dev.regs) ∧
      (x.phase = 1 → s.dev.b (Reg.CRD_PORT_STAT_LINK p) = false → up = true → ∃ d : Dev,
        exec (.crdStartPhase p up ms) s = onward s d ∧ d.crdState p = 3 ∧ d.r (Reg.CRD_PORT_STAT_FAIL p) = 1 ∧
        (d.rp p).phase = 0) ∧
      (x.phase = 7 → x.startBusy = false → ∃ d : Dev, exec (.crdStartPhase p up ms) s = onward s d ∧ d.crdState p = 2 ∧
        (d.rp p).phase = 0 ∧ (d.rp p).runEpoch = x.runEpoch))

/-- The commands of the ring ports. For packets that are ready, on a port of the grade: CRD_INFO, CRD_PORT_READ and CRD_SLOT_READ
answer registers. CRD_START of a port that is not stopped is BUSY, else phase 1 begins and the packet waits for phase 7.
CRD_STOP of a stopped port answers OK; of a port that sends it queues a SAFE broadcast. CRD_NODE_READ, _WRITE and _STATE time
out on a port that sends no frames, and else queue their request and wait; an epoch that has come is PAST. Clauses that follow
a reading of the model: log entries 108, 112, 115. (R321, R331, R335, R336, R41, R3, R536) -/
def Obligations.RingCommands : Prop :=
  ∀ (s : State) (p : Packet),
    let word (n o : Nat) : Nat := s.dev.regWord (0x70_1000 + 0x100 * n + o)
    let asks (op target code addr d0 d1 : Nat) (t : Host.Outcome State Fault Refusal) : Prop :=
      ∃ d : Dev, t = onward s d ∧ d.regs = s.dev.regs ∧ d.mem = s.dev.mem ∧
        (d.rp (p.arg 0)).acyc = (s.dev.rp (p.arg 0)).acyc ++
          [⟨target, ((s.dev.rp (p.arg 0)).seq + 1) % 256, code, addr, d0, d1, op, 0, none⟩] ∧
        d.host.outstanding = (s.dev.taken p op).host.outstanding ++
          [⟨p.origin, op, p.tag, p.quietOk, 256 * p.arg 0 + ((s.dev.rp (p.arg 0)).seq + 1) % 256, 0, false⟩]
    (s.dev.Ready p 0x700 0 false → exec (.crdInfo p) s = replied s p 0x700 (s.dev.taken p 0x700)
      (.ok (s.dev.regWord 0x70_0004 :: [0, 1, 2, 3].map (fun n => if n < ringsOf s.grade then word n 0x10 else 0)))) ∧
    (s.dev.Ready p 0x701 1 true → p.arg 0 < ringsOf s.grade →
      (s.dev.crdState (p.arg 0) ≠ 0 → exec (.crdStart p) s = replied s p 0x701 (s.dev.taken p 0x701) .busy) ∧
      (s.dev.crdState (p.arg 0) = 0 → s.dev.Sound → ∃ d : Dev, exec (.crdStart p) s = onward s d ∧
        d.crdState (p.arg 0) = 1 ∧ (d.rp (p.arg 0)).phase = 1 ∧ d.r (Reg.CRD_PORT_STAT_FAIL (p.arg 0)) = 0 ∧
        d.mem = s.dev.mem ∧ d.host.outstanding = (s.dev.taken p 0x701).host.outstanding ++
          [⟨p.origin, 0x701, p.tag, p.quietOk, p.arg 0, 0, false⟩])) ∧
    (s.dev.Ready p 0x702 1 true → p.arg 0 < ringsOf s.grade →
      (s.dev.crdState (p.arg 0) = 0 → exec (.crdStop p) s = replied s p 0x702 (s.dev.taken p 0x702) (.ok [])) ∧
      (s.dev.ringSends (p.arg 0) = true → asks 0x702 127 4 5 0 0 (exec (.crdStop p) s))) ∧
    (s.dev.Ready p 0x703 1 false → p.arg 0 < ringsOf s.grade →
      exec (.crdPortRead p) s = replied s p 0x703 (s.dev.taken p 0x703)
        (.ok ([0x10, 0x14, 0x18, 0x1C, 0x20, 0x24, 0x28, 0x2C, 0x30, 0x34].map (word (p.arg 0))))) ∧
    (s.dev.Ready p 0x704 3 false → p.arg 0 < ringsOf s.grade → p.arg 1 < 256 → 1 ≤ p.arg 2 → p.arg 2 ≤ 64 →
      p.arg 1 + p.arg 2 ≤ 256 → s.dev.ep.front.valid = false →
      exec (.crdSlotRead p) s = replied s p 0x704 (s.dev.taken p 0x704)
        (.ok ([loW (s.dev.r Reg.EPK_NOW), hiW (s.dev.r Reg.EPK_NOW)] ++
          (List.range (p.arg 2)).map (fun k => s.dev.regWord (0x72_0000 + 0x400 * p.arg 0 + 4 * (p.arg 1 + k)))))) ∧
    (s.dev.Ready p 0x705 3 false → p.arg 0 < ringsOf s.grade → 1 ≤ p.arg 1 → p.arg 1 ≤ 125 →
      (s.dev.ringSends (p.arg 0) = false →
        exec (.crdNodeRead p) s = replied s p 0x705 (s.dev.taken p 0x705) .timeout) ∧
      (s.dev.ringSends (p.arg 0) = true → asks 0x705 (p.arg 1) 1 (p.arg 2) 0 0 (exec (.crdNodeRead p) s))) ∧
    (s.dev.Ready p 0x706 5 true → p.arg 0 < ringsOf s.grade → (1 ≤ p.arg 1 ∧ p.arg 1 ≤ 125) ∨ p.arg 1 = 127 →
      s.dev.ringSends (p.arg 0) = true →
      asks 0x706 (p.arg 1) 2 (p.arg 2) (p.arg 3) (p.arg 4) (exec (.crdNodeWrite p) s)) ∧
    (s.dev.Ready p 0x707 5 true → p.arg 0 < ringsOf s.grade → (1 ≤ p.arg 1 ∧ p.arg 1 ≤ 125) ∨ p.arg 1 = 127 → p.arg 2 = 3 →
      (pair64 (p.arg 3) (p.arg 4) ≤ s.dev.r Reg.EPK_NOW + 1 →
        exec (.crdNodeState p) s = replied s p 0x707 (s.dev.taken p 0x707) .past) ∧
      (s.dev.r Reg.EPK_NOW + 1 < pair64 (p.arg 3) (p.arg 4) → s.dev.ringSends (p.arg 0) = true →
        asks 0x707 (p.arg 1) 4 3 (loW (pair64 (p.arg 3) (p.arg 4))) (hiW (pair64 (p.arg 3) (p.arg 4)))
          (exec (.crdNodeState p) s))) ∧
    (s.dev.Ready p 0x707 3 true → p.arg 0 < ringsOf s.grade → (1 ≤ p.arg 1 ∧ p.arg 1 ≤ 125) ∨ p.arg 1 = 127 →
      p.arg 2 = 2 ∨ p.arg 2 = 5 → s.dev.ringSends (p.arg 0) = true →
      asks 0x707 (p.arg 1) 4 (p.arg 2) 0 0 (exec (.crdNodeState p) s))

/-- Backbone frames: the checks before a frame is consumed, what each type does then, and cut-through forwarding. A frame is
consumed only if the backbone is on, its version and FCS are right, it arrives within the guard of a scheduled instant, its
producer is admitted (a JOIN: not refused), and its key has not been seen; then the key is remembered, so a second copy is not
consumed. A DATA frame that completes a publication delivers it; SAFE PDUs reach Bridle; a packet for this producer waits for
Farrier on the REIN holder; a JOIN makes an UNKNOWN peer VERIFYING. A frame is forwarded once per network with HOPS one
higher. Clauses that follow a reading of the model: log entries 120, 121. (R339, R341, R347, R349, R350, R364, R544, R545,
R546) -/
def Obligations.BackboneFramesReceived : Prop :=
  (∀ (d : Dev) (p : Nat) (f : TlbFrame) (c : Nat), (d.rxChecks p f c).2 = true →
    d.tlbState ≠ 0 ∧ f.version = 1 ∧ f.fcsOk = true ∧ (if f.type = 3 then d.r (Reg.TLB_PEER_STATE f.src) ≠ 3
      else d.r (Reg.TLB_PEER_STATE f.src) = 2) ∧
    (∃ a ∈ d.arrivals p f (d.firstByte p c), (a - d.r Reg.TLB_GUARD_GUARD) * 2 ^ 32 ≤ d.firstByte p c ∧
      d.firstByte p c < (a + d.r Reg.TLB_GUARD_GUARD) * 2 ^ 32) ∧
    (f.type ≠ 1 → frameKey f ∉ d.tlb.seen ∧ frameKey f ∈ (d.rxChecks p f c).1.tlb.seen) ∧
    (∀ c' : Nat, ((d.rxChecks p f c).1.rxChecks p f c').2 = false) ∧ (d.rxChecks p f c).1.mem = d.mem) ∧
  (∀ (s : State) (p : Fin 4) (f : TlbFrame) (c : Nat),
    let x := (s.dev.reach c).rxChecks p f c
    (x.2 = false → (f.type = 0 → exec (.dataFrameReceive p f c) s = onward s x.1) ∧
      (f.type = 1 → exec (.safeFrameReceive p f c) s = onward s x.1) ∧
      (f.type = 2 → exec (.cmdFrameReceive p f c) s = onward s x.1) ∧
      (f.type = 3 → exec (.joinFrameReceive p f c) s = onward s x.1)) ∧
    (x.2 = true →
      (f.type = 0 → f.null = false → f.nfrag = 1 → (∀ y ∈ x.1.tlb.partials, y.src ≠ f.src) →
        exec (.dataFrameReceive p f c) s = onward s (x.1.deliverPub f.src f.base
          { epoch := f.epoch, null := false, held := f.held, vals := f.vals })) ∧
      (f.type = 1 → exec (.safeFrameReceive p f c) s = onward s { x.1 with brd := { x.1.brd with
        rx := x.1.brd.rx ++ f.pdus.map (fun y => (p.val / 2, f.src, y)) } }) ∧
      (∀ e : Envelope, f.type = 2 → f.envs = [e] → e.dest = x.1.r Reg.TLB_DOMAIN_SELF → e.isReply = false →
        exec (.cmdFrameReceive p f c) s = onward s
          (if x.1.b Reg.PAIR_STAT_HOLDER && x.1.b Reg.GLB_HOST_CFG_BB_CMD_EN then
            ({ x.1 with tlb := { x.1.tlb with envIn := x.1.tlb.envIn ++ [e] } }).inc Reg.BB_CMD_CNT_EXEC else x.1)) ∧
      (∀ (j : JoinRec) (q : TlbPeer), f.type = 3 → f.join = some j →
        x.1.tlb.peers.find? (fun e => e.1 == f.src) = some (f.src, q) → x.1.r (Reg.TLB_PEER_STATE f.src) = 0 →
        exec (.joinFrameReceive p f c) s = onward s
          ((x.1.w (Reg.TLB_PEER_STATE f.src) 1).setPeer f.src { q with cand := some j })))) ∧
  ∀ (s : State) (p : Fin 4) (f : TlbFrame) (c : Nat),
    let d := s.dev.reach c
    let out := if p.val % 2 = 0 then p.val + 1 else p.val - 1
    let keys := Tab.look [] (p.val / 2) s.dev.tlb.fwdKeys
    (s.dev.tlbState = 0 → exec (.tlbFrameForward p f c) s = onward s d) ∧
    (s.dev.tlbState ≠ 0 → f.hops = 63 → exec (.tlbFrameForward p f c) s = onward s (d.inc (Reg.TLB_HOPS_DROP p))) ∧
    (s.dev.tlbState ≠ 0 → f.hops ≠ 63 → frameKey f ∈ keys →
      exec (.tlbFrameForward p f c) s = onward s (d.inc (Reg.TLB_DUP p))) ∧
    (s.dev.tlbState ≠ 0 → f.hops ≠ 63 → frameKey f ∉ keys → s.dev.b (Reg.TLB_PORT_STAT_LINK out) = true →
      Tab.look 0 out s.dev.tlb.ownEnd ≤ d.nowNs → ∃ (e : Dev) (x : TlbTx), exec (.tlbFrameForward p f c) s = onward s e ∧
        e.tlb.tx = s.dev.tlb.tx ++ [x] ∧ x.port = out ∧ x.forwarded = true ∧ x.frame = { f with hops := f.hops + 1 } ∧
        frameKey f ∈ Tab.look [] (p.val / 2) e.tlb.fwdKeys ∧ e.regs = s.dev.regs ∧ e.mem = s.dev.mem)

/-- Domain cycles, own slots, sending and the transmit gate. A cycle start counts the cycle, empties the slots' bookkeeping and,
when TLB_STOP was given, enters OFF; without a placed epoch it changes nothing. After JOIN_CYCLES cycles JOINING becomes
MEMBER. A slot that is absent, already started, or starts in OFF changes nothing; else it is marked started, and an unmuted
one moves LISTEN to JOINING; one that is not the REIN holder queues no frame, and a MEMBER that holds REIN queues the frames
listed. A frame of the queue leaves at its instant on each linked port whose gate is still open. The gate ends the slot, and
envelopes that have not left wait for the next one. Clauses that follow a reading of the model: log entries 117, 118, 122.
(R342, R343, R344, R346, R348, R362) -/
def Obligations.BackboneSlotsAndSending : Prop :=
  (∀ s : State, s.dev.ep.placed = false → exec .tlbCycleStart s = onward s s.dev) ∧
  (∀ s : State, s.dev.ep.placed = true → s.dev.Sound → ∃ d : Dev, exec .tlbCycleStart s = onward s d ∧ d.mem = s.dev.mem ∧
    d.tlb.counting = true ∧ d.tlb.stopNext = false ∧ d.tlb.started = [] ∧ d.tlb.slotNow = none ∧ d.tlb.queue = [] ∧
    d.tlb.joinCycles = s.dev.tlb.joinCycles + 1 ∧ d.tlb.envOut = s.dev.tlb.envOut ∧
    (s.dev.tlb.stopNext = true → d.tlbState = 0)) ∧
  (∀ s : State, exec .tlbMemberEntry s = onward s
    (if s.dev.tlbState = 2 ∧ s.dev.r Reg.TLB_GUARD_JOIN_CYCLES ≤ s.dev.tlb.joinCycles then s.dev.tlbEnter 3 else s.dev)) ∧
  (∀ (s : State) (n : Fin 16),
    (s.dev.tlb.slots[n.val]? = none ∨ s.dev.tlbState = 0 ∨ n.val ∈ s.dev.tlb.started →
      exec (.tlbSlotStart n) s = onward s s.dev) ∧
    (∀ sl : TlbSlot, s.dev.tlb.slots[n.val]? = some sl → s.dev.tlbState ≠ 0 → s.dev.tlb.counting = true →
      n.val ∉ s.dev.tlb.started → s.dev.Sound → ∃ d : Dev, exec (.tlbSlotStart n) s = onward s d ∧ d.mem = s.dev.mem ∧
        n.val ∈ d.tlb.started ∧ d.tlb.slotNow = some n.val ∧
        (d.b Reg.TLB_STAT_MUTE = true → d.tlb.queue = [] ∧ d.tlbState = s.dev.tlbState) ∧
        (d.b Reg.TLB_STAT_MUTE = false → d.tlbState = (if s.dev.tlbState = 1 then 2 else s.dev.tlbState)) ∧
        (s.dev.b Reg.PAIR_STAT_HOLDER = false → d.tlb.queue = [])) ∧
    (∀ (sl : TlbSlot) (o base frag : Nat) (f : TlbFrame), s.dev.tlb.slots[n.val]? = some sl →
      sl.frames = [(o, .data base frag)] → n.val ≠ 0 → s.dev.tlbState = 3 → s.dev.tlb.counting = true →
      n.val ∉ s.dev.tlb.started → s.dev.b Reg.PAIR_STAT_HOLDER = true → s.dev.tlb.envOut = [] →
      s.dev.b Reg.TLB_STAT_MUTE = false →
      let start := s.dev.cycleNs (s.dev.r Reg.TLB_DCYCLE) + sl.offs
      let e := s.dev.reach (s.dev.countAt start)
      2 * e.errEst ≤ s.dev.r Reg.TLB_GUARD_GUARD →
      s.dev.dataFrame (((start : Int) - 1500 - s.dev.r Reg.EPK_ORIGIN) / s.dev.te - 1) base frag = some f →
      ∃ d : Dev, exec (.tlbSlotStart n) s = onward s d ∧ d.tlb.queue = [(start + o, f)] ∧ d.regs = s.dev.regs)) ∧
  (∀ s : State, s.dev.tlb.queue = [] → ∀ busy : List Nat, exec (.tlbFrameSend busy) s = onward s s.dev) ∧
  (∀ (s : State) (due : Nat) (f : TlbFrame) (l : List (Nat × TlbFrame)) (busy : List Nat) (p : Nat),
    s.dev.tlb.queue = (due, f) :: l → f.null = false → p < 4 → s.dev.b (Reg.TLB_PORT_STAT_LINK p) = true →
    (∀ q : Nat, q < 4 → q ≠ p → s.dev.b (Reg.TLB_PORT_STAT_LINK q) = false) →
    (s.dev.gateNs ≤ due + busy.getD p 0 → exec (.tlbFrameSend busy) s = onward s
      { s.dev.reach (s.dev.countAt due) with tlb := { s.dev.tlb with queue := l } }) ∧
    (due + busy.getD p 0 < s.dev.gateNs → ∃ d : Dev, exec (.tlbFrameSend busy) s = onward s d ∧ d.tlb.queue = l ∧
      d.tlb.tx = s.dev.tlb.tx ++ [{ port := p, instant := due + busy.getD p 0, frame := { f with net := p / 2 } }] ∧
      d.mem = s.dev.mem)) ∧
  (∀ s : State, s.dev.tlb.slotNow = none → exec .tlbGateClose s = onward s s.dev) ∧
  ∀ s : State, s.dev.tlb.slotNow.isSome = true → ∃ d : Dev, exec .tlbGateClose s = onward s d ∧ d.tlb.slotNow = none ∧
    d.tlb.queue = [] ∧ d.tlb.envOut = s.dev.tlb.queue.flatMap (fun x => x.2.envs) ++ s.dev.tlb.envOut ∧ d.mem = s.dev.mem ∧
    ∀ q : Nat, q < 4 → Tab.look 0 q d.tlb.ownEnd ≤ s.dev.gateNs

/-- Backbone commands, links, verification of peers and attestation. TLB_LINK_CHANGE shows link, speed and the networks that are
up. A verified JOIN with an expected fingerprint, a good signature and a fresh time admits the peer, else it is refused. For
packets that are ready: TLB_INFO, TLB_PORT_READ, TLB_PEER_READ and TLB_SAFE_READ answer registers; TLB_START moves OFF to
LISTEN and is BUSY otherwise; TLB_STOP asks for OFF at the next cycle. TLB_ATTEST of an admitted peer sends an envelope and
waits; its time-out answers TIMEOUT. Clauses that follow a reading of the model: log entries 119, 123, 124. (R337, R362, R364,
R365, R366, R367, R368, R544, R546) -/
def Obligations.BackboneCommandsAndPeers : Prop :=
  (∀ (s : State) (p : Fin 4) (up : Bool) (sp : Fin 3), s.dev.Sound → ∃ d : Dev,
    exec (.tlbLinkChange p up sp) s = onward s d ∧ d.b (Reg.TLB_PORT_STAT_LINK p) = up ∧
    d.r (Reg.TLB_PORT_STAT_SPEED p) = sp.val ∧ (∀ q : Nat, q < 4 → q ≠ p.val →
      d.b (Reg.TLB_PORT_STAT_LINK q) = s.dev.b (Reg.TLB_PORT_STAT_LINK q)) ∧
    (bitOf (d.r Reg.TLB_STAT_NET_UP) 0 = (d.b (Reg.TLB_PORT_STAT_LINK 0) || d.b (Reg.TLB_PORT_STAT_LINK 1))) ∧
    (bitOf (d.r Reg.TLB_STAT_NET_UP) 1 = (d.b (Reg.TLB_PORT_STAT_LINK 2) || d.b (Reg.TLB_PORT_STAT_LINK 3))) ∧
    d.mem = s.dev.mem ∧ d.tlb = s.dev.tlb) ∧
  (∀ (s : State) (i : Fin 4096) (good : Bool) (q : TlbPeer), s.dev.tlb.peers.find? (fun e => e.1 == i.val) = some (i.val, q) →
    (q.cand = none → exec (.joinVerifyDone i good) s = onward s s.dev) ∧
    (∀ j : JoinRec, q.cand = some j →
      let fresh := s.dev.nowNs ≤ j.dt + 1000000000 ∧ j.dt < s.dev.nowNs + 1000000
      ((j.fprint = q.fp0 ∨ j.fprint = q.fp1) → good = true → fresh → exec (.joinVerifyDone i good) s = onward s
        (((s.dev.w (Reg.TLB_PEER_STATE i) 2).wb (Reg.TLB_PEER_WHICH i) (j.fprint != q.fp0)).setPeer i
          { q with known := some j, cand := none })) ∧
      ((j.fprint = q.fp0 ∨ j.fprint = q.fp1) → good = false ∨ ¬fresh → exec (.joinVerifyDone i good) s = onward s
        ((s.dev.w (Reg.TLB_PEER_STATE i) 3).setPeer i { q with cand := none })) ∧
      (j.fprint ≠ q.fp0 → j.fprint ≠ q.fp1 → exec (.joinVerifyDone i good) s = onward s
        (((s.dev.w (Reg.TLB_PEER_STATE i) 3).w (Reg.TLB_PEER_REPLACED i) 1).setPeer i { q with cand := none })))) ∧
  (∀ (s : State) (x : Remote), s.dev.tlb.remotes = [x] →
    (x.cycle = none ∨ x.attest = false ∨ (∃ c : Nat, x.cycle = some c ∧ s.dev.r Reg.TLB_DCYCLE < c + 16) →
      exec .tlbAttestTimeout s = onward s s.dev) ∧
    (∀ c : Nat, x.attest = true → x.cycle = some c → c + 16 ≤ s.dev.r Reg.TLB_DCYCLE →
      exec .tlbAttestTimeout s = onward s
        (({ s.dev with tlb := { s.dev.tlb with remotes := [] } }).settle 0x806 x.seq .timeout))) ∧
  ∀ (s : State) (p : Packet),
    (s.dev.Ready p 0x800 0 false → exec (.tlbInfo p) s = replied s p 0x800 (s.dev.taken p 0x800)
      (.ok ([s.dev.regWord 0x80_0004, s.dev.regWord 0x80_0008, s.dev.regWord 0x80_000C, loW (s.dev.r Reg.TLB_DCYCLE),
        hiW (s.dev.r Reg.TLB_DCYCLE)] ++ (List.range 7).map (fun i => s.dev.regWord (0x80_0018 + 4 * i))))) ∧
    (s.dev.Ready p 0x801 1 false → p.arg 0 < 4 → exec (.tlbPortRead p) s = replied s p 0x801 (s.dev.taken p 0x801)
      (.ok ((List.range 10).map (fun i => s.dev.regWord (0x80_0100 + 0x40 * p.arg 0 + 4 * i))))) ∧
    (s.dev.Ready p 0x802 2 false → 3 + p.arg 1 ≤ replyLimit p.origin → p.arg 0 < 4096 → 1 ≤ p.arg 1 → p.arg 1 ≤ 256 →
      p.arg 0 + p.arg 1 ≤ 4096 → exec (.tlbPeerRead p) s = replied s p 0x802 (s.dev.taken p 0x802)
        (.ok ((List.range (p.arg 1)).map (fun i => s.dev.regWord (0x81_0000 + 4 * (p.arg 0 + i)))))) ∧
    (s.dev.Ready p 0x803 0 true →
      (s.dev.tlbState = 0 → exec (.tlbStart p) s = replied s p 0x803 ((s.dev.taken p 0x803).tlbEnter 1) (.ok [])) ∧
      (s.dev.tlbState ≠ 0 → exec (.tlbStart p) s = replied s p 0x803 (s.dev.taken p 0x803) .busy)) ∧
    (s.dev.Ready p 0x804 0 true → s.dev.tlbState ≠ 0 →
      let d := s.dev.taken p 0x804
      let n := s.dev.r Reg.TLB_DCYCLE + 1
      exec (.tlbStop p) s = replied s p 0x804 { d with tlb := { d.tlb with stopNext := true } } (.ok [loW n, hiW n])) ∧
    (s.dev.Ready p 0x805 1 false → p.arg 0 < 512 →
      exec (.tlbSafeRead p) s = replied s p 0x805 (s.dev.taken p 0x805) (.ok (s.dev.safeWords (p.arg 0)))) ∧
    (s.dev.Ready p 0x806 3 true →
      let d := s.dev.taken p 0x806
      (4096 ≤ p.arg 0 ∨ s.dev.r (Reg.TLB_PEER_STATE (p.arg 0)) ≠ 2 →
        exec (.tlbAttest p) s = replied s p 0x806 d (.badParam 2)) ∧
      (p.arg 0 < 4096 → s.dev.r (Reg.TLB_PEER_STATE (p.arg 0)) = 2 → d.tlb.remotes = [] → ∃ e : Dev,
        exec (.tlbAttest p) s = onward s e ∧ e.regs = s.dev.regs ∧ e.mem = s.dev.mem ∧
        e.tlb.remotes = [⟨d.tlb.envSeq, p.arg 0, true, none⟩] ∧
        e.tlb.envOut = d.tlb.envOut ++ [⟨p.arg 0, s.dev.r Reg.TLB_DOMAIN_SELF, false, false, d.tlb.envSeq,
          [W (0xE01 * 2 ^ 20 + 4), 0#32, W (p.arg 1), W (p.arg 2)]⟩] ∧
        e.host.outstanding = d.host.outstanding ++ [⟨p.origin, 0x806, p.tag, p.quietOk, d.tlb.envSeq, p.arg 0, false⟩]))

/-- How a Hackney core issues: registers, delay slots, repeat bodies, hazards that fault, and what a fault leaves. After an
instruction that writes a register, that register reads the result, the load before it has become visible, h0 reads 0, and
every other register, the accumulators, memories and other cores are as before; the program counter moves on, to the target
after the second delay slot, and round a repeat body. A core that runs no item, waits, or stands at an interrupt boundary with
an enabled source pending issues nothing. Fetches outside IMEM, a flow instruction in a slot or body, a ninth chained load and
a stall in a body fault. A fault records cause, PC, address and count, commits nothing, and leaves the core idle unless a
cyclic item waits for it. Clauses that follow a reading of the model: log entries 125, 127. (R371, R376, R377, R384, R385,
R386, R392, R393, R397, R399, R402, R403) -/
def Obligations.HackneyIssueAndHazards : Prop :=
  (∀ (d : Dev) (x : HkIssue) (w : HkWant) (n rd v : Nat), d.CanIssue x w → w.load = false →
    let k := d.core x.core
    let e := d.issued x w 0 (fun k t => k.result t n rd v)
    let k' := e.core x.core
    (∀ r : Nat, k'.reg r = if r = 0 then 0 else if r = rd then v % 2 ^ 32 else
      match k.ldPend with
      | some (l, u) => if r = l then u % 2 ^ 32 else k.reg r
      | none => k.reg r) ∧
    k'.ldPend = none ∧ k'.cycle = k.issueAt w + 1 ∧
    (k.rep = none → k'.rep = none ∧ k'.chain = 0 ∧ (k.slot = 0 → k'.pc = k.pc + 4 ∧ k'.slot = 0) ∧
      (k.slot = 1 → k'.pc = k.target ∧ k'.slot = 0) ∧ (2 ≤ k.slot → k'.pc = k.pc + 4 ∧ k'.slot + 1 = k.slot)) ∧
    (∀ b : RepBlock, k.rep = some b →
      (k.pc = b.start + 4 * (b.len - 1) → (1 < b.left → k'.pc = b.start ∧ k'.rep = some { b with left := b.left - 1 }) ∧
        (b.left ≤ 1 → k'.pc = k.pc + 4 ∧ k'.rep = none)) ∧
      (k.pc ≠ b.start + 4 * (b.len - 1) → k'.pc = k.pc + 4 ∧ k'.rep = k.rep)) ∧
    k'.acc = k.acc ∧ k'.fstat = k.fstat ∧ k'.dmem = k.dmem ∧ k'.imem = k.imem ∧ k'.gie = k.gie ∧ k'.ien = k.ien ∧
    k'.ipend = k.ipend ∧ k'.ivec = k.ivec ∧ k'.epc = k.epc ∧ k'.mbBase = k.mbBase ∧ k'.mbLen = k.mbLen ∧
    k'.staging = k.staging ∧ k'.inHandler = k.inHandler ∧ (∀ j : Nat, j ≠ x.core → e.core j = d.core j) ∧ e.mem = d.mem ∧
    e.host = d.host) ∧
  (∀ (d : Dev) (x : HkIssue) (w : HkWant) (body : HkCore → HkCore → Nat → Dev → HkRes),
    let k := d.core x.core
    (d.r (Reg.HK_STAT_STATE x.core) ≠ 1 ∨ k.waiting ≠ .none ∨ (k.irq = true ∧ k.atBoundary = true) →
      d.hkIssue x w body = d) ∧
    (d.r (Reg.HK_STAT_STATE x.core) = 1 → k.waiting = .none → (k.irq = false ∨ k.atBoundary = false) →
      (0x1_0000 ≤ k.pc → d.hkIssue x w body = d.hkFault x.core 3 0) ∧
      (k.pc < 0x1_0000 → k.pc % 4 ≠ 0 → d.hkIssue x w body = d.hkFault x.core 2 0) ∧
      (k.pc < 0x1_0000 → k.pc % 4 = 0 → x.fetch = .uncorr →
        d.hkIssue x w body = (d.inc (Reg.HK_ECC_CNT_UNCORR x.core)).hkFault x.core 7 0) ∧
      (k.pc < 0x1_0000 → k.pc % 4 = 0 → x.fetch = .good → Mem.word k.imem k.pc &&& w.mask = w.word &&& w.mask →
        (w.flow = true → k.slot ≠ 0 ∨ k.rep ≠ none → d.hkIssue x w body = d.hkFault x.core 1 0) ∧
        (w.flow = false → w.load = true → k.rep = none → 8 ≤ k.chain → d.hkIssue x w body = d.hkFault x.core 6 0) ∧
        (w.flow = false → k.rep ≠ none → k.cycle < k.issueAt w → d.hkIssue x w body = d.hkFault x.core 4 0)))) ∧
  ∀ (d : Dev) (c : Fin 16) (cause addr : Nat) (run : OstRun), d.Sound → cause < 16 →
    d.ost.running.find? (fun e => e.1 == c.val) = some (c.val, run) →
    let e := d.hkFault c cause addr
    e.r (Reg.HK_FAULT_CAUSE c) = cause ∧ e.r (Reg.HK_FAULT_PC c) = (d.core c).pc % 2 ^ 32 ∧
    e.r (Reg.HK_FAULT_ADDR c) = addr % 2 ^ 32 ∧
    e.r (Reg.HK_FAULT_CNT c) = Nat.min (d.r (Reg.HK_FAULT_CNT c) + 1) (2 ^ 32 - 1) ∧ e.ep = d.ep ∧
    (Tab.look [] c.val d.ost.cycq = [] → e.r (Reg.HK_STAT_STATE c) = 0 ∧ bitOf (e.r Reg.OST_IDLE) c = true ∧
      (e.core c).imem = (d.core c).imem ∧ (e.core c).dmem = (d.core c).dmem)

/-- The integer and constant operations: encoding, result and latency of each. With the word of its encoding at the program
counter, each operation of the tables of R378 and R379 writes d with the result that the table gives, here in two's complement
bit vectors: sums and products wrap, ADDSAT and SUBSAT saturate, shift amounts are five bits. Multiplications are ready two
cycles after their issue, the others one. CLZ does not decode field b, MOVH not field a. Everything else is as for an
instruction that writes one register. Clauses that follow a reading of the model: log entry 132. (R376, R377, R378, R379,
R386) -/
def Obligations.HackneyIntegerResults : Prop :=
  (∀ (s : State) (x : HkIssue) (d a b : Fin 32),
    let P := BitVec.ofNat 32 ((s.dev.core x.core).reg a)
    let Q := BitVec.ofNat 32 ((s.dev.core x.core).reg b)
    let sh := Q.toNat % 32
    let sat (z : Int) : BitVec 32 := BitVec.ofInt 32 (if z < -2147483648 then -2147483648 else if 2147483647 < z then 2147483647 else z)
    let r3 (i : Instr) (fn n : Nat) (v : BitVec 32) : Prop :=
      hkWrites s x i { word := wordR3 0 fn d a b, srcs := [a.val, b.val] } n d v.toNat
    r3 (.add x d a b) 0x000 1 (P + Q) ∧ r3 (.sub x d a b) 0x001 1 (P - Q) ∧ r3 (.and_ x d a b) 0x002 1 (P &&& Q) ∧
    r3 (.or_ x d a b) 0x003 1 (P ||| Q) ∧ r3 (.xor x d a b) 0x004 1 (P ^^^ Q) ∧ r3 (.shl x d a b) 0x008 1 (P <<< sh) ∧
    r3 (.shr x d a b) 0x009 1 (P >>> sh) ∧ r3 (.sar x d a b) 0x00A 1 (P.sshiftRight sh) ∧
    r3 (.clt x d a b) 0x010 1 (if P.toInt < Q.toInt then 1 else 0) ∧
    r3 (.cltu x d a b) 0x011 1 (if P.toNat < Q.toNat then 1 else 0) ∧ r3 (.mul x d a b) 0x018 2 (P * Q) ∧
    r3 (.mulhs x d a b) 0x019 2 (((P.signExtend 64 * Q.signExtend 64) >>> 32).setWidth 32) ∧
    r3 (.mulhu x d a b) 0x01A 2 (((P.setWidth 64 * Q.setWidth 64) >>> 32).setWidth 32) ∧
    r3 (.addsat x d a b) 0x020 1 (sat (P.toInt + Q.toInt)) ∧ r3 (.subsat x d a b) 0x021 1 (sat (P.toInt - Q.toInt)) ∧
    r3 (.min x d a b) 0x028 1 (if P.toInt ≤ Q.toInt then P else Q) ∧
    r3 (.max x d a b) 0x029 1 (if P.toInt ≤ Q.toInt then Q else P) ∧
    ∀ v : Nat, v ≤ 32 → P.toNat < 2 ^ (32 - v) → (v = 32 ∨ 2 ^ (31 - v) ≤ P.toNat) →
      hkWrites s x (.clz x d a) { word := wordR3 0 0x030 d a 0, mask := 0xFFE0_FFFF, srcs := [a.val] } 1 d v) ∧
  ∀ (s : State) (x : HkIssue) (d a m : Fin 32) (K : BitVec 16),
    let P := BitVec.ofNat 32 ((s.dev.core x.core).reg a)
    let S := K.signExtend 32
    let Z := K.setWidth 32
    let rk (i : Instr) (mop : Nat) (v : BitVec 32) : Prop :=
      hkWrites s x i { word := wordRK mop d a K.toNat, srcs := [a.val] } 1 d v.toNat
    let rs (i : Instr) (mop : Nat) (v : BitVec 32) : Prop :=
      hkWrites s x i { word := wordRK mop d a m, srcs := [a.val] } 1 d v.toNat
    rk (.addK x d a K) 0x08 (P + S) ∧ rk (.andK x d a K) 0x09 (P &&& Z) ∧ rk (.orK x d a K) 0x0A (P ||| Z) ∧
    rk (.xorK x d a K) 0x0B (P ^^^ Z) ∧ rk (.cltK x d a K) 0x0C (if P.toInt < S.toInt then 1 else 0) ∧
    hkWrites s x (.movh x d K) { word := wordRK 0x0D d 0 K.toNat, mask := 0xFFFF_07FF } 1 d (Z <<< 16).toNat ∧
    rs (.shlK x d a m) 0x0E (P <<< m.val) ∧ rs (.shrK x d a m) 0x0F (P >>> m.val) ∧ rs (.sarK x d a m) 0x10 (P.sshiftRight m.val)

/-- The binary32 operations: encoding, result, sticky flags, latency, and the rules for NaN, comparison and conversion. Each
operation of R388 writes d with the result of the model's exact binary32 arithmetic, rounded once, and sets its flags in
FSTAT; it is ready 4 cycles after its issue, FDIV 14 and FSQRT 16, which keep the divide unit busy as long. Every NaN that an
arithmetic operation gives is 0x7FC0_0000. FMIN and FMAX give the other operand when one is NaN, the canonical NaN when both
are, and hold −0 below +0. FCEQ, FCLT and FCLE give 0 for a NaN, and the last two then set NV. A finite value converts to its
integer part when that is an int32; a NaN gives 0 and infinities the limits, each with NV. Clauses that follow a reading of
the model: log entries 132, 171. (R386, R387, R388) -/
def Obligations.HackneyFloatResults : Prop :=
  (∀ (s : State) (x : HkIssue) (d a b c : Fin 32),
    let p := (s.dev.core x.core).reg a
    let q := (s.dev.core x.core).reg b
    let r := (s.dev.core x.core).reg c
    let fp (i : Instr) (w : HkWant) (n : Nat) (v : Nat × FpFlags) : Prop := s.dev.CanIssue x w → exec i s = onward s
      (s.dev.issued x w 0 (fun k t => (k.result t n d v.1).flags (fpMask v.2)))
    let slow (i : Instr) (w : HkWant) (n : Nat) (v : Nat × FpFlags) : Prop := s.dev.CanIssue x w → exec i s = onward s
      (s.dev.issued x w 0 (fun k t => { (k.result t n d v.1).flags (fpMask v.2) with fpuFree := t + n }))
    let two (fn : Nat) : HkWant := { word := wordR3 0x34 fn d a b, srcs := [a.val, b.val] }
    let one (fn : Nat) : HkWant := { word := wordR3 0x34 fn d a 0, mask := 0xFFE0_FFFF, srcs := [a.val] }
    let three (fn : Nat) : HkWant := { word := wordR4 0x35 fn d a b c, srcs := [a.val, b.val, c.val] }
    fp (.fadd x d a b) (two 0x000) 4 (f32.add p q) ∧ fp (.fsub x d a b) (two 0x001) 4 (f32.sub p q) ∧
    fp (.fmul x d a b) (two 0x002) 4 (f32.mul p q) ∧
    slow (.fdiv x d a b) { two 0x003 with divide := true } 14 (f32.div p q) ∧
    slow (.fsqrt x d a) { word := wordR3 0x34 0x004 d a 0, srcs := [a.val], divide := true } 16 (f32.sqrt p) ∧
    fp (.fmin x d a b) (two 0x008) 4 (fpPick false p q) ∧ fp (.fmax x d a b) (two 0x009) 4 (fpPick true p q) ∧
    fp (.fabs x d a) (one 0x00C) 4 (p % 2 ^ 31, {}) ∧ fp (.fneg x d a) (one 0x00D) 4 (Nat.xor p (2 ^ 31), {}) ∧
    fp (.fceq x d a b) (two 0x010) 4 (fpTest false (fun u v => f32.cmp u v == some .eq) p q) ∧
    fp (.fclt x d a b) (two 0x011) 4 (fpTest true f32.lt p q) ∧ fp (.fcle x d a b) (two 0x012) 4 (fpTest true f32.le p q) ∧
    fp (.ftoi x d a) (one 0x018) 4 (fpToInt false p) ∧ fp (.ftoin x d a) (one 0x019) 4 (fpToInt true p) ∧
    fp (.itof x d a) (one 0x01A) 4 (f32.ofInt (BitVec.ofNat 32 p).toInt) ∧ fp (.fma x d a b c) (three 0) 4 (f32.fma p q r) ∧
    fp (.fms x d a b c) (three 1) 4 (f32.fma p q (f32.neg r)) ∧ fp (.fnma x d a b c) (three 2) 4 (f32.fma (f32.neg p) q r)) ∧
  (∀ p q r : Nat, p < 2 ^ 32 → q < 2 ^ 32 → r < 2 ^ 32 →
    (∀ v ∈ [f32.add p q, f32.sub p q, f32.mul p q, f32.div p q, f32.sqrt p, f32.fma p q r],
      f32.isNan v.1 = true → v.1 = 0x7FC0_0000) ∧
    (f32.isNan p = true → f32.isNan q = false → fpPick false p q = (q, {}) ∧ fpPick true p q = (q, {}) ∧
      fpPick false q p = (q, {}) ∧ fpPick true q p = (q, {})) ∧
    (f32.isNan p = true → f32.isNan q = true → fpPick false p q = (0x7FC0_0000, {}) ∧ fpPick true p q = (0x7FC0_0000, {})) ∧
    ((f32.isNan p || f32.isNan q) = true → fpTest false (fun u v => f32.cmp u v == some .eq) p q = (0, {}) ∧
      fpTest true f32.lt p q = (0, { invalid := true }) ∧ fpTest true f32.le p q = (0, { invalid := true })) ∧
    (f32.isNan p = true → fpToInt false p = (0, { invalid := true }) ∧ fpToInt true p = (0, { invalid := true })) ∧
    (∀ (neg : Bool) (m : Nat) (e : Int), f32.dec p = .fin neg m e →
      let z : Int := if 0 ≤ e then m * 2 ^ e.toNat else ((m / 2 ^ (-e).toNat : Nat) : Int)
      let z : Int := if neg then -z else z
      (-(2 ^ 31) ≤ z → z < 2 ^ 31 → (fpToInt false p).1 = (BitVec.ofInt 32 z).toNat ∧ (fpToInt false p).2.invalid = false) ∧
      (z < -(2 ^ 31) → fpToInt false p = (2 ^ 31, { invalid := true })) ∧
      (2 ^ 31 ≤ z → fpToInt false p = (2 ^ 31 - 1, { invalid := true })))) ∧
  fpPick false 0 (2 ^ 31) = (2 ^ 31, {}) ∧ fpPick false (2 ^ 31) 0 = (2 ^ 31, {}) ∧ fpPick true 0 (2 ^ 31) = (0, {}) ∧
  fpPick true (2 ^ 31) 0 = (0, {}) ∧
  ∀ near : Bool, fpToInt near 0x7F80_0000 = (2 ^ 31 - 1, { invalid := true }) ∧
    fpToInt near 0xFF80_0000 = (2 ^ 31, { invalid := true })

/-- Loads, stores, pointer forms and atomics of the Hackney cores: values, where they go, stalls and faults. With its word at the
program counter, a load of n bytes from DMEM, shared work memory or the image view leaves its value, extended as named,
pending for its destination, and stalls 0, 12 to 96, and 10 cycles; a core's own buffered store is seen. A store goes to DMEM
at once, else to the store buffer with its completion cycle; with the buffer full it has not issued. Unmapped addresses,
stores to the image view or to a closed staging signal and sub-word port accesses fault with ACCESS, misaligned ones with
ALIGN, bad DMEM words with ECC. LD.WP and ST.WP access the word at a and then step a, round a modulo descriptor; ATOM gives
the old word and writes back its function. Clauses that follow a reading of the model: log entries 126, 128, 129, 130. (R370,
R371, R372, R374, R377, R380, R381, R382, R385, R403) -/
def Obligations.HackneyLoadsAndStores : Prop :=
  (∀ (s : State) (x : HkIssue) (d a : Fin 32) (K : BitVec 16),
    let k := s.dev.core x.core
    let A := (BitVec.ofNat 32 (k.reg a) + K.signExtend 32).toNat
    let V := k.reg d
    let ld (mop : Nat) : HkWant := { word := wordRK mop d a K.toNat, srcs := [a.val], load := true }
    let st (mop : Nat) : HkWant := { word := wordRK mop d a K.toNat, srcs := [a.val, d.val] }
    let load (i : Instr) (mop n : Nat) (sign : Bool) : Prop := s.dev.CanIssue x (ld mop) →
      let ext (v : Nat) : Nat := if sign then ((BitVec.ofNat (8 * n) v).signExtend 32).toNat else v
      let e := s.dev.drainTo x.core (k.issueAt (ld mop))
      (0x1_0000 ≤ A → A < 0x3_0000 → A % n = 0 → x.data = .good → exec i s = onward s (s.dev.issued x (ld mop) 0
        (fun k _ => { k with ldPend := some (d.val, ext (Mem.read k.dmem (A - 0x1_0000) n)) }))) ∧
      (0x1_0000 ≤ A → A < 0x3_0000 → A % n = 0 → x.data = .uncorr →
        exec i s = onward s ((e.inc (Reg.HK_ECC_CNT_UNCORR x.core)).hkFault x.core 7 A)) ∧
      (0x1000_0000 ≤ A → A < 0x10C0_0000 → A % n = 0 → k.rep = none → k.buffer = [] →
        exec i s = onward s (s.dev.issued x (ld mop) s.dev.swmDelay.2 (fun k _ => { k with ldPend := some (d.val,
          ext (if s.dev.inSagePart (A - 0x1000_0000) then 0 else Mem.read s.dev.hk.swm (A - 0x1000_0000) n)) })
          (fun e => e.swmDelay.1))) ∧
      (0x2000_0000 ≤ A → A < 0x2020_0000 → A % n = 0 → k.rep = none →
        exec i s = onward s (s.dev.issued x (ld mop) 10 (fun k _ => { k with ldPend := some (d.val,
          ext (bits (({ s.dev with ep := { s.dev.ep with front := s.dev.ep.newest } }).imageWord
            ((A - 0x2000_0000) / 4 * 4)) (8 * (A % 4)) (8 * n))) }))) ∧
      (hkRegion A = .none ∨ (hkRegion A = .port ∧ n ≠ 4) → exec i s = onward s (e.hkFault x.core 3 A)) ∧
      (hkRegion A ≠ .none → (hkRegion A = .port → n = 4) → A % n ≠ 0 → exec i s = onward s (e.hkFault x.core 2 A))
    let store (i : Instr) (mop n : Nat) : Prop := s.dev.CanIssue x (st mop) →
      let t := k.issueAt (st mop)
      let e := s.dev.drainTo x.core t
      let buffered (lat : Nat) (k : HkCore) (t : Nat) : HkCore := { k with
        buffer := k.buffer ++ [⟨A, n, V % 2 ^ (8 * n), max k.lastDue (t + lat)⟩], lastDue := max k.lastDue (t + lat) }
      (0x1_0000 ≤ A → A < 0x3_0000 → A % n = 0 → exec i s = onward s (s.dev.issued x (st mop) 0
        (fun k _ => { k with dmem := Mem.write k.dmem (A - 0x1_0000) n V }))) ∧
      (0x1000_0000 ≤ A → A < 0x10C0_0000 → A % n = 0 → (e.core x.core).buffer.length < 4 → exec i s = onward s
        (s.dev.issued x (st mop) 0 (buffered s.dev.swmDelay.2) (fun e => e.swmDelay.1))) ∧
      (0x3000_0000 ≤ A → A < 0x3010_0000 → A % n = 0 → k.stagingOpen A = true → (e.core x.core).buffer.length < 4 →
        exec i s = onward s (s.dev.issued x (st mop) 0 (fun k t => { buffered 10 k t with
          staging := Mem.write k.staging (A - 0x3000_0000) n V }))) ∧
      (0x1000_0000 ≤ A → A < 0x10C0_0000 → A % n = 0 → 4 ≤ (e.core x.core).buffer.length → k.rep = none →
        exec i s = onward s e) ∧
      (hkRegion A = .none ∨ hkRegion A = .image ∨ (hkRegion A = .port ∧ n ≠ 4) ∨
        (hkRegion A = .staging ∧ k.stagingOpen A = false) → exec i s = onward s (e.hkFault x.core 3 A)) ∧
      ((hkRegion A = .dmem ∨ hkRegion A = .swm ∨ (hkRegion A = .staging ∧ k.stagingOpen A = true)) → A % n ≠ 0 →
        exec i s = onward s (e.hkFault x.core 2 A))
    load (.ldW x d a K) 0x18 4 false ∧ load (.ldH x d a K) 0x19 2 true ∧ load (.ldHu x d a K) 0x1A 2 false ∧
    load (.ldB x d a K) 0x1B 1 true ∧ load (.ldBu x d a K) 0x1C 1 false ∧ store (.stW x d a K) 0x1D 4 ∧
    store (.stH x d a K) 0x1E 2 ∧ store (.stB x d a K) 0x1F 1 ∧
    (∀ v due : Nat, s.dev.CanIssue x (ld 0x18) → k.buffer = [⟨A, 4, v, due⟩] → k.issueAt (ld 0x18) < due → k.rep = none →
      0x1000_0000 ≤ A → A < 0x10C0_0000 → A % 4 = 0 → s.dev.inSagePart (A - 0x1000_0000) = false →
      let o := A - 0x1000_0000
      exec (.ldW x d a K) s = onward s (s.dev.issued x (ld 0x18) s.dev.swmDelay.2
        (fun k _ => { k with ldPend := some (d.val, Mem.word (Mem.putWord s.dev.hk.swm o v) o) }) (fun e => e.swmDelay.1)))) ∧
  (∀ (s : State) (x : HkIssue) (d a : Fin 32) (mb : Fin 3) (step : BitVec 12) (q : Nat) (out : Bool),
    let k := s.dev.core x.core
    let p := k.reg a
    let K := mb.val * 2 ^ 14 + step.toNat * 4
    let wl : HkWant := { word := wordRK 0x20 d a K, srcs := [a.val], load := true }
    let ws : HkWant := { word := wordRK 0x21 d a K, srcs := [a.val, d.val] }
    let moved (k : HkCore) (t : Nat) : HkCore := (if out then k.flags 0x40 else k).result t 1 a q
    (k.stepPtr mb p (4 * step.toInt) = some (q, out) → 0x1_0000 ≤ p → p < 0x3_0000 → p % 4 = 0 →
      (s.dev.CanIssue x wl → x.data = .good → exec (.ldWp x d a mb step) s = onward s (s.dev.issued x wl 0
        (fun k t => { moved k t with ldPend := some (d.val, Mem.word k.dmem (p - 0x1_0000)) }))) ∧
      (s.dev.CanIssue x ws → exec (.stWp x d a mb step) s = onward s (s.dev.issued x ws 0
        (fun c t => { moved c t with dmem := Mem.putWord c.dmem (p - 0x1_0000) (k.reg d) })))) ∧
    (k.stepPtr mb p (4 * step.toInt) = none →
      (s.dev.CanIssue x wl → exec (.ldWp x d a mb step) s =
        onward s ((s.dev.drainTo x.core (k.issueAt wl)).hkFault x.core 1 0)) ∧
      (s.dev.CanIssue x ws → exec (.stWp x d a mb step) s =
        onward s ((s.dev.drainTo x.core (k.issueAt ws)).hkFault x.core 1 0)))) ∧
  (∀ (k : HkCore) (mb p : Nat) (z : Int),
    let base := Tab.look 0 mb k.mbBase
    let len := Tab.look 0 mb k.mbLen
    let plain := (BitVec.ofNat 32 p + BitVec.ofInt 32 z).toNat
    (mb = 0 ∨ len = 0 → k.stepPtr mb p z = some (plain, false)) ∧
    (mb ≠ 0 → len ≠ 0 → (len < z.natAbs ∨ base % 4 ≠ 0 ∨ len % 4 ≠ 0 → k.stepPtr mb p z = none) ∧
      (z.natAbs ≤ len → base % 4 = 0 → len % 4 = 0 →
        (p < base ∨ base + len ≤ p → k.stepPtr mb p z = some (plain, true)) ∧
        (base ≤ p → p < base + len → base + len ≤ 2 ^ 32 → ∃ q : Nat, k.stepPtr mb p z = some (q, false) ∧ base ≤ q ∧
          q < base + len ∧ ((q : Int) = p + z ∨ (q : Int) = p + z - len ∨ (q : Int) = p + z + len))))) ∧
  (∀ (s : State) (x : HkIssue) (d a b : Fin 32),
    let k := s.dev.core x.core
    let p := k.reg a
    let old := Mem.word s.dev.hk.swm (p - 0x1000_0000)
    let w (fn : Nat) : HkWant := { word := wordR3 0x22 fn d a b, srcs := [a.val, b.val], load := true }
    let atom (i : Instr) (fn new : Nat) : Prop := s.dev.CanIssue x (w fn) →
      (k.rep = none → k.buffer = [] → 0x1000_0000 ≤ p → p < 0x10C0_0000 → p % 4 = 0 →
        s.dev.inSagePart (p - 0x1000_0000) = false → exec i s = onward s (s.dev.issued x (w fn) s.dev.swmDelay.2
          (fun k _ => { k with ldPend := some (d.val, old) })
          (fun e => { e.swmDelay.1 with hk := { e.swmDelay.1.hk with
            swm := Mem.putWord e.hk.swm (p - 0x1000_0000) (new % 2 ^ 32) } }))) ∧
      (hkRegion p ≠ .swm → exec i s = onward s ((s.dev.drainTo x.core (k.issueAt (w fn))).hkFault x.core 3 p))
    atom (.atomSwap x d a b) 0 (k.reg b) ∧ atom (.atomAdd x d a b) 1 (old + k.reg b) ∧ atom (.atomOr x d a b) 2 (old ||| k.reg b) ∧
    atom (.atomAnd x d a b) 3 (old &&& k.reg b)) ∧
  ∀ d : Dev, 12 ≤ d.swmDelay.2 ∧ d.swmDelay.2 ≤ 96 ∧ d.swmDelay.1.hk.swm = d.hk.swm ∧ d.swmDelay.1.regs = d.regs

/-- Branches, jumps, REP, system operations and control registers of the Hackney cores. With its word at the program counter, a
branch that compares as its name says sets the target after its two delay slots to PC + 4 × K, else to PC + 12; jumps and
calls likewise, calls write PC + 12 to h30. REP starts its body, skips it for a count of 0 and faults above 1024. EXIT waits
with its status; WAIT stops issue unless an enabled source is pending; RTI goes to EPC and enables; EI, DI, FENCE and BRK act
as named, EI in a handler faults. RDCR gives each control register and latches HI words; WRCR sets or clears them, and
DBELL_SEND sets DOORBELL of the named other cores that run an item; a number that cannot be read or written faults, as every
word that is no instruction does. Clauses that follow a reading of the model: log entries 125, 126. (R377, R383, R384, R392,
R393, R394, R395, R396, R398, R401, R402) -/
def Obligations.HackneyFlow : Prop :=
  (∀ (s : State) (x : HkIssue) (a b : Fin 32) (K : BitVec 16),
    let k := s.dev.core x.core
    let P := BitVec.ofNat 32 (k.reg a)
    let Q := BitVec.ofNat 32 (k.reg b)
    let br (i : Instr) (mop : Nat) (taken : Prop) : Prop :=
      let w : HkWant := { word := wordBR mop a b K.toNat, srcs := [a.val, b.val], flow := true }
      s.dev.CanIssue x w →
        (taken → exec i s = onward s (s.dev.issued x w 0 (fun c _ => { c with slot := 3, target := (BitVec.ofInt 32 (k.pc + 4 * K.toInt)).toNat }))) ∧
        (¬taken → exec i s = onward s (s.dev.issued x w 0 (fun c _ => { c with slot := 3, target := k.pc + 12 })))
    br (.brEq x a b K) 0x28 (P = Q) ∧ br (.brNe x a b K) 0x29 (P ≠ Q) ∧ br (.brLt x a b K) 0x2A (P.toInt < Q.toInt) ∧
    br (.brGe x a b K) 0x2B (Q.toInt ≤ P.toInt) ∧ br (.brLtu x a b K) 0x2C (P.toNat < Q.toNat) ∧
    br (.brGeu x a b K) 0x2D (Q.toNat ≤ P.toNat)) ∧
  (∀ (s : State) (x : HkIssue) (a : Fin 32) (K : BitVec 26),
    let k := s.dev.core x.core
    let go (link : Bool) (dest : Nat) (c : HkCore) (t : Nat) : HkCore :=
      { (if link then c.result t 1 30 (k.pc + 12) else c) with slot := 3, target := dest }
    let jl (i : Instr) (mop : Nat) (link : Bool) : Prop :=
      let w : HkWant := { word := wordJL mop K.toNat, flow := true }
      s.dev.CanIssue x w → exec i s = onward s (s.dev.issued x w 0 (go link (BitVec.ofInt 32 (k.pc + 4 * K.toInt)).toNat))
    let jr (i : Instr) (fn : Nat) (link : Bool) : Prop :=
      let w : HkWant := { word := wordR3 0x30 fn 0 a 0, mask := 0xFFE0_F83F, srcs := [a.val], flow := true }
      s.dev.CanIssue x w → exec i s = onward s (s.dev.issued x w 0 (go link (k.reg a)))
    jl (.jmp x K) 0x2E false ∧ jl (.call x K) 0x2F true ∧ jr (.jmpr x a) 0 false ∧ jr (.callr x a) 1 true) ∧
  (∀ (s : State) (x : HkIssue) (a : Fin 32) (count : Fin 1024) (len : Fin 32),
    let k := s.dev.core x.core
    let w : HkWant := { word := wordRP a count len, srcs := [a.val], flow := true }
    let n := if a = 0 then count.val + 1 else k.reg a
    s.dev.CanIssue x w →
      (1 ≤ n → n ≤ 1024 → exec (.rep x a count len) s = onward s
        (s.dev.issued x w 0 (fun c _ => { c with rep := some ⟨k.pc + 4, len.val + 1, n⟩ }))) ∧
      (n = 0 → exec (.rep x a count len) s = onward s
        (s.dev.issued x w 0 (fun c _ => { c with slot := 1, target := k.pc + 4 + 4 * (len.val + 1) }))) ∧
      (1024 < n → exec (.rep x a count len) s = onward s ((s.dev.drainTo x.core (k.issueAt w)).hkFault x.core 5 0))) ∧
  (∀ (s : State) (x : HkIssue) (a : Fin 32),
    let k := s.dev.core x.core
    let sys (fn : Nat) (flow : Bool) : HkWant := { word := wordR3 0x3C fn 0 0 0, mask := 0xFFE0_003F, flow := flow }
    let we : HkWant := { word := wordR3 0x3C 0x010 0 a 0, mask := 0xFFE0_F83F, srcs := [a.val], flow := true }
    let faults (i : Instr) (w : HkWant) (cause : Nat) : Prop :=
      exec i s = onward s ((s.dev.drainTo x.core (k.issueAt w)).hkFault x.core cause 0)
    (s.dev.CanIssue x we → exec (.exit x a) s = onward s
      (s.dev.issued x we 0 (fun c _ => { c with waiting := .exit (k.reg a % 256) }))) ∧
    (s.dev.CanIssue x (sys 0x011 true) →
      ((k.ien &&& k.ipend) % 16 ≠ 0 → exec (.wait x) s = onward s (s.dev.issued x (sys 0x011 true) 0 (fun c _ => c))) ∧
      ((k.ien &&& k.ipend) % 16 = 0 → exec (.wait x) s = onward s (s.dev.issued x (sys 0x011 true) 0
        (fun c _ => { c with waiting := .wait }) (fun e => e.w (Reg.HK_STAT_STATE x.core) 2)))) ∧
    (s.dev.CanIssue x (sys 0x012 true) →
      (k.epc < 0x1_0000 → k.epc % 4 = 0 → exec (.rti x) s = onward s (s.dev.issued x (sys 0x012 true) 0
        (fun c _ => { c with slot := 1, target := k.epc, gie := true, inHandler := false, afterRti := true }))) ∧
      (0x1_0000 ≤ k.epc ∨ k.epc % 4 ≠ 0 → faults (.rti x) (sys 0x012 true) 3)) ∧
    (s.dev.CanIssue x (sys 0x013 false) →
      (k.inHandler = false → exec (.ei x) s = onward s (s.dev.issued x (sys 0x013 false) 0 (fun c _ => { c with gie := true }))) ∧
      (k.inHandler = true → faults (.ei x) (sys 0x013 false) 1)) ∧
    (s.dev.CanIssue x (sys 0x014 false) →
      exec (.di x) s = onward s (s.dev.issued x (sys 0x014 false) 0 (fun c _ => { c with gie := false }))) ∧
    (s.dev.CanIssue x (sys 0x015 false) →
      let e := s.dev.drainTo x.core (k.issueAt (sys 0x015 false))
      ((e.core x.core).buffer = [] → exec (.fence x) s = onward s (s.dev.issued x (sys 0x015 false) 0 (fun c _ => c))) ∧
      ((e.core x.core).buffer ≠ [] → k.rep = none → exec (.fence x) s = onward s e)) ∧
    (s.dev.CanIssue x (sys 0x01F false) → faults (.brk x) (sys 0x01F false) 8) ∧
    (∀ v : Nat, v = Mem.word k.imem k.pc → (hkDefined v = true → exec (.illegalInstruction x) s = onward s s.dev) ∧
      (hkDefined v = false → s.dev.CanIssue x { word := v } → faults (.illegalInstruction x) { word := v } 1))) ∧
  (∀ (s : State) (x : HkIssue) (d : Fin 32) (cr : BitVec 16),
    let k := s.dev.core x.core
    let w : HkWant := { word := wordCR 0x3D d 0 cr.toNat, mask := 0xFFFF_07FF }
    let t := k.issueAt w
    let tb := k.startC + t
    let gives (f : HkCore → HkCore) (v : Nat) : Prop :=
      exec (.rdcr x d cr) s = onward s (s.dev.issued x w 0 (fun c t => (f c).result t 1 d v))
    s.dev.CanIssue x w →
      (cr = 0x000 → gives (fun c => { c with cycHi := t / 2 ^ 32 % 2 ^ 32 }) (t % 2 ^ 32)) ∧ (cr = 0x001 → gives id k.cycHi) ∧
      (cr = 0x002 → gives (fun c => { c with tbHi := tb / 2 ^ 32 % 2 ^ 32 }) (tb % 2 ^ 32)) ∧ (cr = 0x003 → gives id k.tbHi) ∧
      (cr = 0x004 → gives (fun c => { c with epHi := k.relEpoch / 2 ^ 32 % 2 ^ 32 }) (k.relEpoch % 2 ^ 32)) ∧
      (cr = 0x005 → gives id k.epHi) ∧
      (cr = 0x006 → gives id (s.dev.r (Reg.HK_STAT_ITEM x.core) + x.core.val * 2 ^ 16)) ∧ (cr = 0x008 → gives id k.fstat) ∧
      (cr = 0x009 → gives id (Tab.look 0 1 k.mbBase)) ∧ (cr = 0x00A → gives id (Tab.look 0 1 k.mbLen)) ∧
      (cr = 0x00B → gives id (Tab.look 0 2 k.mbBase)) ∧ (cr = 0x00C → gives id (Tab.look 0 2 k.mbLen)) ∧
      (cr = 0x010 → gives id k.ien) ∧ (cr = 0x011 → gives id k.ipend) ∧ (cr = 0x012 → gives id k.ivec) ∧
      (cr = 0x013 → gives id k.epc) ∧ (cr = 0x014 → gives id k.timerCmp) ∧ (cr = 0x015 → gives id k.warnNs) ∧
      (cr ∈ [0x007, 0x00D, 0x00E, 0x00F] ∨ 0x017 ≤ cr.toNat → exec (.rdcr x d cr) s = onward s ((s.dev.drainTo x.core t).hkFault x.core 1 0))) ∧
  ∀ (s : State) (x : HkIssue) (a : Fin 32) (cr : BitVec 16),
    let k := s.dev.core x.core
    let w : HkWant := { word := wordCR 0x3E 0 a cr.toNat, mask := 0xFFFF_F83F, srcs := [a.val] }
    let v := k.reg a
    let sets (f : HkCore → HkCore) : Prop := exec (.wrcr x a cr) s = onward s (s.dev.issued x w 0 (fun c _ => f c))
    s.dev.CanIssue x w →
      (cr = 0x008 → sets (fun c => { c with fstat := c.fstat - (c.fstat &&& v) })) ∧
      (cr = 0x009 → sets (fun c => { c with mbBase := Tab.put 1 v c.mbBase })) ∧
      (cr = 0x00A → sets (fun c => { c with mbLen := Tab.put 1 v c.mbLen })) ∧
      (cr = 0x00B → sets (fun c => { c with mbBase := Tab.put 2 v c.mbBase })) ∧
      (cr = 0x00C → sets (fun c => { c with mbLen := Tab.put 2 v c.mbLen })) ∧
      (cr = 0x010 → sets (fun c => { c with ien := v % 16 })) ∧
      (cr = 0x011 → sets (fun c => { c with ipend := c.ipend - (c.ipend &&& v) })) ∧
      (cr = 0x012 → sets (fun c => { c with ivec := v })) ∧ (cr = 0x013 → sets (fun c => { c with epc := v })) ∧
      (cr = 0x014 → v = 0 → sets (fun c => { c with timerCmp := 0, timerAt := 0 })) ∧
      (cr = 0x014 → v ≠ 0 → ∃ m : Nat, sets (fun c => { c with timerCmp := v, timerAt := m }) ∧ k.issueAt w < m ∧
        m ≤ k.issueAt w + 2 ^ 32 ∧ m % 2 ^ 32 = v) ∧
      (cr = 0x015 → sets (fun c => { c with warnNs := v % 2 ^ 16 })) ∧
      (cr = 0x016 → ∃ e : Dev, exec (.wrcr x a cr) s = onward s e ∧ ∀ j : Fin 16, j ≠ x.core →
        (e.core j).ipend = if bitOf v j.val ∧ s.dev.r (Reg.HK_STAT_STATE j) ≠ 0 then
          setBit (s.dev.core j).ipend 3 true else (s.dev.core j).ipend) ∧
      (cr.toNat ≤ 0x007 ∨ cr ∈ [0x00D, 0x00E, 0x00F] ∨ 0x017 ≤ cr.toNat → exec (.wrcr x a cr) s =
        onward s ((s.dev.drainTo x.core (k.issueAt w)).hkFault x.core 1 0))

/-- The MAC datapath: products, saturation, taps with moves, and reads and writes of the accumulators. With its word at the
program counter, MAC, MSB and MPY form the product of the two Q1.23 operands, bits [31:8] of the registers, and the
accumulator takes the exact result saturated to 56 bits, with MAC_SAT when that saturates. TAP and TAPMV take their operands
from DMEM, step both pointers, and TAPMV also writes the word at b to b − 4; outside DMEM they fault with ACCESS, misaligned
with ALIGN, and with a bad step or descriptor with ILLEGAL. ACLR clears, ARD shifts and saturates to 32 bits, AMV moves the
halves. Clauses that follow a reading of the model: log entry 128. (R371, R376, R377, R386, R389, R390, R391, R403) -/
def Obligations.HackneyAccumulators : Prop :=
  ∀ (s : State) (x : HkIssue) (acc : Fin 4) (a b : Fin 32) (mba mbb : Fin 3) (dir : Bool) (sh : Fin 56),
    let k := s.dev.core x.core
    let p := k.reg a
    let q := k.reg b
    let old := k.accum acc
    let Z := BitVec.ofInt 56 old
    let frac (v : Nat) : Int := (BitVec.ofNat 24 (v / 256)).toInt
    let clamp (n : Nat) (z : Int) : Int := if z < -2 ^ n then -2 ^ n else if 2 ^ n ≤ z then 2 ^ n - 1 else z
    let take (c : HkCore) (t : Nat) (z : Int) : HkCore := { c with
      acc := Tab.put acc (clamp 55 z) c.acc, accReady := Tab.put acc (t + 3) c.accReady,
      fstat := if clamp 55 z = z then c.fstat else c.fstat ||| 0x20 }
    let mac (i : Instr) (sub : Nat) (z : Int) : Prop :=
      let w : HkWant := { word := wordAC sub acc (a.val + b.val * 32), srcs := [a.val, b.val] }
      s.dev.CanIssue x w → exec i s = onward s (s.dev.issued x w 0 (fun c t => take c t z))
    let tap (i : Instr) (word : Nat) (m : Nat) (step : Int) (move : Bool) : Prop :=
      let w : HkWant := { word := word, srcs := [a.val, b.val] }
      let wv := Mem.word k.dmem (p - 0x1_0000)
      let xv := Mem.word k.dmem (q - 0x1_0000)
      let fault (d : Dev → Dev) (cause addr : Nat) : Prop :=
        exec i s = onward s ((d (s.dev.drainTo x.core (k.issueAt w))).hkFault x.core cause addr)
      let low : Nat := if move then 0x1_0004 else 0x1_0000
      s.dev.CanIssue x w →
        (hkRegion p ≠ .dmem → fault id 3 p) ∧ (hkRegion p = .dmem → p % 4 ≠ 0 → fault id 2 p) ∧
        (hkRegion p = .dmem → p % 4 = 0 → x.data = .uncorr → fault (fun d => d.inc (Reg.HK_ECC_CNT_UNCORR x.core)) 7 p) ∧
        (hkRegion p = .dmem → p % 4 = 0 → x.data = .good →
          (hkRegion q ≠ .dmem → fault id 3 q) ∧ (hkRegion q = .dmem → q % 4 ≠ 0 → fault id 2 q) ∧
          (hkRegion q = .dmem → q % 4 = 0 → q < low → fault id 3 (q - 4)) ∧
          (hkRegion q = .dmem → q % 4 = 0 → low ≤ q →
            (k.stepPtr mba p step = none → fault id 1 0) ∧ (k.stepPtr m q step = none → fault id 1 0) ∧
            ∀ (p' q' : Nat) (o1 o2 : Bool), k.stepPtr mba p step = some (p', o1) → k.stepPtr m q step = some (q', o2) →
              exec i s = onward s (s.dev.issued x w 0 (fun c t =>
                let c := take c t (old + frac wv * frac xv)
                let c := { c with dmem := if move then Mem.putWord c.dmem (q - 4 - 0x1_0000) xv else c.dmem }
                let c := if o1 || o2 then c.flags 0x40 else c
                (c.result t 1 a p').result t 1 b q'))))
    mac (.mac x acc a b) 0 (old + frac p * frac q) ∧ mac (.msb x acc a b) 1 (old - frac p * frac q) ∧
    mac (.mpy x acc a b) 2 (frac p * frac q) ∧
    (s.dev.CanIssue x { word := wordAC 3 acc 0 } → exec (.aclr x acc) s = onward s
      (s.dev.issued x { word := wordAC 3 acc 0 } 0 (fun c _ => { c with acc := Tab.put acc 0 c.acc }))) ∧
    tap (.tap x acc a b mba mbb dir)
      (wordAC 4 acc (a.val + b.val * 2 ^ 5 + mba.val * 2 ^ 10 + mbb.val * 2 ^ 12 + b2n dir * 2 ^ 14)) mbb
      (if dir then -4 else 4) false ∧
    tap (.tapmv x acc a b mba) (wordAC 5 acc (a.val + b.val * 2 ^ 5 + mba.val * 2 ^ 10)) 0 4 true ∧
    (let w : HkWant := { word := wordAC 6 acc (a.val + sh.val * 2 ^ 5), accs := [acc.val] }
     let z := old / 2 ^ sh.val
     s.dev.CanIssue x w → exec (.ard x acc a sh) s = onward s (s.dev.issued x w 0 (fun c t =>
       let c := c.result t 2 a (BitVec.ofInt 32 (clamp 31 z)).toNat
       if clamp 31 z = z then c else c.flags 0x20))) ∧
    (let rd (fn : Nat) : HkWant := { word := wordAC 7 acc (a.val + fn * 2 ^ 5), accs := [acc.val] }
     let wr (fn : Nat) : HkWant := { word := wordAC 7 acc (a.val + fn * 2 ^ 5), srcs := [a.val] }
     hkWrites s x (.amvReadLo x acc a) (rd 0) 2 a (BitVec.ofInt 32 old).toNat ∧
     hkWrites s x (.amvReadHi x acc a) (rd 1) 2 a (BitVec.ofInt 32 (old / 2 ^ 32)).toNat ∧
     (s.dev.CanIssue x (wr 2) → exec (.amvWriteLo x acc a) s = onward s (s.dev.issued x (wr 2) 0 (fun c _ =>
       { c with acc := Tab.put acc (Z.extractLsb' 32 24 ++ BitVec.ofNat 32 p).toInt c.acc }))) ∧
     (s.dev.CanIssue x (wr 3) → exec (.amvWriteHi x acc a) s = onward s (s.dev.issued x (wr 3) 0 (fun c _ =>
       { c with acc := Tab.put acc (BitVec.ofNat 24 p ++ Z.setWidth 32).toInt c.acc }))))

/-- Interrupt entry and wake-up, TIMER and WARN, the end of EXIT, the store buffer, the command port, and the core commands.
Interrupt entry saves the address of the next instruction, clears the global enable and goes to IVEC three cycles later, in a
running core at an interrupt boundary with an enabled source pending, or in one stalled in CQ_POP, whose load then executes
again; otherwise nothing changes. A waiting core wakes for an enabled source. TIMER and WARN set their pending bits.
EXIT_COMPLETE ends the item. Pushes go through the store buffer to the core's command queue; CQ_POP takes the next reply word,
stalls when none waits, and in a delay slot faults. CQ_STAT shows the port. HK_CORE_READ and HK_MEM_READ answer registers and
memory words. Clauses that follow a reading of the model: log entries 126, 129. (R373, R374, R394, R396, R397, R398, R399,
R400, R401, R404, R405, R406) -/
def Obligations.HackneyInterruptsPortAndCommands : Prop :=
  (∀ (s : State) (c : Fin 16), s.dev.Sound →
    let k := s.dev.core c
    (k.irq = false ∨ k.atBoundary = false ∨ k.waiting = .wait ∨ (k.waiting = .none ∧ s.dev.r (Reg.HK_STAT_STATE c) ≠ 1) →
      exec (.interruptEntry c) s = onward s s.dev) ∧
    (k.irq = true → k.atBoundary = true → (k.waiting = .none ∧ s.dev.r (Reg.HK_STAT_STATE c) = 1 ∨
        (∃ rd ra ptr : Nat, k.waiting = .pop rd ra ptr) ∧ 4 ≤ k.pc ∧ k.pc < 2 ^ 32) → k.ivec < 0x1_0000 → k.ivec % 4 = 0 →
      ∃ d : Dev, exec (.interruptEntry c) s = onward s d ∧ d.r (Reg.HK_STAT_STATE c) = 1 ∧ d.mem = s.dev.mem ∧
        (d.core c).pc = k.ivec ∧ (d.core c).epc = (if k.waiting = .none then k.pc else k.pc - 4) ∧ (d.core c).gie = false ∧
        (d.core c).inHandler = true ∧ (d.core c).waiting = .none ∧ (d.core c).regs = k.regs ∧ (d.core c).acc = k.acc ∧
        (d.core c).ipend = k.ipend ∧ (d.core c).dmem = k.dmem ∧
        (k.waiting = .none → (d.core c).cycle = k.cycle + 3)) ∧
    (k.waiting ≠ .wait ∨ (k.ien &&& k.ipend) % 16 = 0 → exec (.waitWake c) s = onward s s.dev) ∧
    (k.waiting = .wait → (k.ien &&& k.ipend) % 16 ≠ 0 → (k.gie = true → k.ivec < 0x1_0000 ∧ k.ivec % 4 = 0) →
      ∃ d : Dev, exec (.waitWake c) s = onward s d ∧ d.r (Reg.HK_STAT_STATE c) = 1 ∧ (d.core c).waiting = .none ∧
        (d.core c).regs = k.regs ∧ (k.gie = false → (d.core c).pc = k.pc ∧ (d.core c).gie = false) ∧
        (k.gie = true → (d.core c).pc = k.ivec ∧ (d.core c).epc = k.pc ∧ (d.core c).gie = false)) ∧
    (s.dev.r (Reg.HK_STAT_STATE c) = 0 ∨ k.timerAt = 0 ∨ (k.waiting = .none ∧ k.cycle < k.timerAt) →
      exec (.hkTimerMatch c) s = onward s s.dev) ∧
    (s.dev.r (Reg.HK_STAT_STATE c) ≠ 0 → k.timerAt ≠ 0 → (k.waiting = .none → k.timerAt ≤ k.cycle) →
      ∃ d : Dev, exec (.hkTimerMatch c) s = onward s d ∧ (d.core c).ipend = setBit k.ipend 0 true ∧
        (d.core c).timerAt = k.timerAt + 2 ^ 32 ∧ (d.core c).pc = k.pc ∧ (d.core c).regs = k.regs ∧ d.regs = s.dev.regs) ∧
    (∀ run : OstRun, s.dev.ost.running.find? (fun e => e.1 == c.val) = some (c.val, run) →
      (run.cyclic = false ∨ k.warnNs = 0 → exec (.hkWarn c) s = onward s s.dev) ∧
      (run.cyclic = true → k.warnNs ≠ 0 → ∃ d : Dev, exec (.hkWarn c) s = onward s d ∧
        (d.core c).ipend = setBit k.ipend 1 true ∧ (d.core c).regs = k.regs ∧ d.regs = s.dev.regs) ∧
      (∀ st : Nat, k.waiting = .exit st → ∃ d : Dev, exec (.exitComplete c) s = onward s d ∧
        d.r (Reg.HK_ITEMS c) = Nat.min (s.dev.r (Reg.HK_ITEMS c) + 1) (2 ^ 32 - 1) ∧
        d.r (Reg.HK_ERR_EXIT c) = (if st = 0 then s.dev.r (Reg.HK_ERR_EXIT c)
          else Nat.min (s.dev.r (Reg.HK_ERR_EXIT c) + 1) (2 ^ 32 - 1)) ∧
        (st ≠ 0 → d.ep = s.dev.ep) ∧
        (Tab.look [] c.val s.dev.ost.cycq = [] → d.r (Reg.HK_STAT_STATE c) = 0 ∧ bitOf (d.r Reg.OST_IDLE) c = true ∧
          (d.core c).waiting = .none ∧ (d.core c).buffer = []))) ∧
    ((∀ st : Nat, k.waiting ≠ .exit st) → exec (.exitComplete c) s = onward s s.dev) ∧
    (k.buffer = [] → exec (.storeBufferDrain c) s = onward s s.dev) ∧
    (∀ (b : BufStore) (r : List BufStore), k.buffer = b :: r → ∃ d : Dev, exec (.storeBufferDrain c) s = onward s d ∧
      (d.core c).buffer = r ∧ (d.core c).regs = k.regs ∧ d.mem = s.dev.mem ∧
      (0x1000_0000 ≤ b.addr → b.addr < 0x10C0_0000 → d.hk.swm = if s.dev.inSagePart (b.addr - 0x1000_0000) then s.dev.hk.swm
        else Mem.write s.dev.hk.swm (b.addr - 0x1000_0000) b.size b.val) ∧
      (b.addr = 0x4000_0000 → d.hk.swm = s.dev.hk.swm ∧ (k.cmdq.length < 1024 → (d.core c).cmdq = k.cmdq ++ [BitVec.ofNat 32 b.val]) ∧
        (1024 ≤ k.cmdq.length → (d.core c).cmdq = k.cmdq ∧ (d.core c).cqOverrun = true))) ∧
    ((∀ rd ra ptr : Nat, k.waiting ≠ .pop rd ra ptr) ∨ Tab.look [] c.val s.dev.host.hkReplies = [] →
      exec (.cqPopWordArrive c) s = onward s s.dev) ∧
    (∀ (rd : Nat) (w : Word) (r : List Word), k.waiting = .pop rd 0 0 → Tab.look [] c.val s.dev.host.hkReplies = w :: r →
      ∃ d : Dev, exec (.cqPopWordArrive c) s = onward s d ∧ (d.core c).waiting = .none ∧
        (d.core c).ldPend = some (rd, w.toNat) ∧ (d.core c).regs = k.regs ∧ (d.core c).pc = k.pc ∧
        Tab.look [] c.val d.host.hkReplies = r ∧ d.r (Reg.HK_STAT_STATE c) = 1)) ∧
  (∀ (s : State) (x : HkIssue) (d a : Fin 32) (K : BitVec 16),
    let k := s.dev.core x.core
    let A := (BitVec.ofNat 32 (k.reg a) + K.signExtend 32).toNat
    let ld : HkWant := { word := wordRK 0x18 d a K.toNat, srcs := [a.val], load := true }
    let st : HkWant := { word := wordRK 0x1D d a K.toNat, srcs := [a.val, d.val] }
    (s.dev.CanIssue x st →
      (A ≠ 0x4000_0000 → exec (.hkCqPush x d a K) s = onward s (s.dev.drainTo x.core (k.issueAt st))) ∧
      (A = 0x4000_0000 → ((s.dev.drainTo x.core (k.issueAt st)).core x.core).buffer.length < 4 →
        let push (c : HkCore) (t : Nat) : HkCore := { c with
          buffer := c.buffer ++ [⟨0x4000_0000, 4, k.reg d, max c.lastDue (t + 10)⟩], lastDue := max c.lastDue (t + 10) }
        exec (.hkCqPush x d a K) s = onward s (s.dev.issued x st 0 push) ∧
        exec (.stW x d a K) s = onward s (s.dev.issued x st 0 push))) ∧
    (s.dev.CanIssue x ld → k.rep = none →
      (A ≠ 0x4000_0004 → exec (.hkCqPop x d a K) s = onward s (s.dev.drainTo x.core (k.issueAt ld))) ∧
      (∀ (w : Word) (r : List Word), A = 0x4000_0004 → Tab.look [] x.core.val s.dev.host.hkReplies = w :: r →
        ∃ e : Dev, exec (.hkCqPop x d a K) s = onward s e ∧ exec (.ldW x d a K) s = onward s e ∧
          (e.core x.core).ldPend = some (d.val, w.toNat) ∧ Tab.look [] x.core.val e.host.hkReplies = r ∧
          (e.core x.core).cycle = k.issueAt ld + 11 ∧ (k.slot = 0 → (e.core x.core).pc = k.pc + 4)) ∧
      (A = 0x4000_0004 → Tab.look [] x.core.val s.dev.host.hkReplies = [] →
        (k.slot ≠ 0 ∨ k.ldPend ≠ none → exec (.hkCqPop x d a K) s =
          onward s ((s.dev.drainTo x.core (k.issueAt ld)).hkFault x.core 9 0x4000_0004)) ∧
        (k.slot = 0 → k.ldPend = none → s.dev.Sound → ∃ e : Dev, exec (.hkCqPop x d a K) s = onward s e ∧
          (e.core x.core).waiting = .pop d 0 0 ∧ e.r (Reg.HK_STAT_STATE x.core) = 2 ∧ (e.core x.core).pc = k.pc + 4 ∧
          (e.core x.core).regs = k.regs)) ∧
      (A = 0x4000_0008 → k.buffer = [] →
        let n := (Tab.look [] x.core.val s.dev.host.hkReplies).length
        let v := (if 1024 ≤ k.cmdq.length then 1 else 0) + (if k.cqOverrun then 2 else 0) + (if k.popLeft < n then 4 else 0) +
          Nat.min n 255 * 256
        exec (.ldW x d a K) s = onward s (s.dev.issued x ld 10 (fun c _ => { c with ldPend := some (d.val, v) }))) ∧
      (A = 0x4000_0000 ∨ A = 0x4000_000C →
        exec (.ldW x d a K) s = onward s (s.dev.issued x ld 10 (fun c _ => { c with ldPend := some (d.val, 0) }))))) ∧
  ∀ (s : State) (p : Packet) (bad : Nat),
    (s.dev.Ready p 0xA40 1 false →
      (16 ≤ p.arg 0 → exec (.hkCoreRead p) s = replied s p 0xA40 (s.dev.taken p 0xA40) (.badParam 2)) ∧
      (p.arg 0 < 16 → exec (.hkCoreRead p) s = replied s p 0xA40 (s.dev.taken p 0xA40)
        (.ok ((List.range 12).map (fun i => s.dev.regWord (0xA0_C000 + 0x100 * p.arg 0 + 4 * i)))))) ∧
    (s.dev.Ready p 0xA41 4 true → 3 + p.arg 3 ≤ replyLimit p.origin →
      let d := s.dev.taken p 0xA41
      let k := s.dev.core (p.arg 0)
      let size := if p.arg 1 = 0 then 0x1_0000 else 0x2_0000
      (16 ≤ p.arg 0 → exec (.hkMemRead p bad) s = replied s p 0xA41 d (.badParam 2)) ∧
      (p.arg 0 < 16 → 2 ≤ p.arg 1 → exec (.hkMemRead p bad) s = replied s p 0xA41 d (.badParam 3)) ∧
      (p.arg 0 < 16 → p.arg 1 < 2 → p.arg 2 % 4 = 0 → 1 ≤ p.arg 3 → p.arg 3 ≤ 256 → p.arg 2 + 4 * p.arg 3 ≤ size →
        exec (.hkMemRead p bad) s = replied s p 0xA41 (d.add (Reg.HK_ECC_CNT_UNCORR (p.arg 0)) (Nat.min bad (p.arg 3)))
          (.ok (Mem.words (if p.arg 1 = 0 then k.imem else k.dmem) (p.arg 2) (p.arg 3)))))

/-- Ostler and Girth commands, budget writes and derating. For packets that are ready: OST_INFO and GIRTH_INFO answer registers,
OST_DESC_READ and OST_TRC_READ the words of the range; OST_DESC_WRITE sets words 0 to 6 of a descriptor that is not enabled
and is BUSY for one that is. OST_RELEASE, OST_CANCEL, OST_ABORT and OST_ENABLE wait for the next tick; with no epoch placed
they act at once (the model's choice). A budget in its range and not below the floor applies at the next tick, by command or
by register write; any other sets BAD_BUDGET and changes nothing. GIRTH_DERATE sets the factor that the formula of R423 gives,
and at 115 °C the critical flag. Clauses that follow a reading of the model: log entries 133, 134, 135. (R407, R408, R409,
R411, R416, R422, R423, R426, R427, R428, R11) -/
def Obligations.OstlerCommands : Prop :=
  (∀ (s : State) (p : Packet),
    (s.dev.Ready p 0xA00 0 false → exec (.ostInfo p) s = replied s p 0xA00 (s.dev.taken p 0xA00)
      (.ok ([0xA0_0004, 0xA0_0008, 0xA0_000C, 0xA0_002C, 0xA0_0010, 0xA0_0014, 0xA0_0018, 0xA0_001C].map s.dev.regWord))) ∧
    (s.dev.Ready p 0xA20 0 false → exec (.girthInfo p) s = replied s p 0xA20 (s.dev.taken p 0xA20)
      (.ok ([0xA0_0108, 0xA0_0100, 0xA0_0104, 0xA0_010C, 0xA0_0110, 0xA0_0114, 0xA0_0154, 0xA0_0150].map s.dev.regWord))) ∧
    (s.dev.Ready p 0xA05 2 false → 3 + 8 * p.arg 1 ≤ replyLimit p.origin → p.arg 0 < 4096 → 1 ≤ p.arg 1 → p.arg 1 ≤ 32 →
      p.arg 0 + p.arg 1 ≤ 4096 → exec (.ostDescRead p) s = replied s p 0xA05 (s.dev.taken p 0xA05)
        (.ok (Mem.words s.dev.mem (0xA2_0000 + 32 * p.arg 0) (8 * p.arg 1)))) ∧
    (s.dev.Ready p 0xA07 2 false → 3 + 4 * p.arg 1 ≤ replyLimit p.origin → p.arg 0 < 4096 → 1 ≤ p.arg 1 → p.arg 1 ≤ 64 →
      p.arg 0 + p.arg 1 ≤ 4096 → exec (.ostTrcRead p) s = replied s p 0xA07 (s.dev.taken p 0xA07)
        (.ok (Mem.words s.dev.mem (0xA1_0000 + 16 * p.arg 0) (4 * p.arg 1)))) ∧
    (s.dev.Ready p 0xA04 8 true → p.arg 0 < 4096 →
      let d := s.dev.taken p 0xA04
      let at' (w : Nat) : Nat := 0xA2_0000 + 32 * p.arg 0 + 4 * w
      (bitOf (s.dev.mw (at' 0)) 31 = true →
        exec (.ostDescWrite p) s = replied s p 0xA04 (d.w Reg.OST_STAT_CFG_BUSY 1) .busy) ∧
      (bitOf (s.dev.mw (at' 0)) 31 = false → exec (.ostDescWrite p) s = replied s p 0xA04
        { d with mem := Mem.putWords s.dev.mem (at' 0) [p.arg 1 &&& 0x7FFE_FFFF, p.arg 2, p.arg 3, p.arg 4,
          p.arg 5 &&& 0x000F_FFFF, p.arg 6 &&& 0x03FF_03FF, p.arg 7 &&& 0x1FFF] } (.ok []))) ∧
    (s.dev.Ready p 0xA21 1 true →
      let d := s.dev.taken p 0xA21
      let v := p.arg 0
      let t := s.dev.nextTickNs
      (12000 ≤ v → v ≤ 38000 → s.dev.floorFor s.dev.ost.enabled ≤ v → exec (.girthSetBudget p) s = replied s p 0xA21
        (({ d with ost := { s.dev.ost with budgetNext := some v } }).w Reg.GIRTH_BUDGET_BUDGET_MW v)
        (.ok [t % 2 ^ 32, t / 2 ^ 32 % 2 ^ 32])) ∧
      (v < 12000 ∨ 38000 < v ∨ v < s.dev.floorFor s.dev.ost.enabled →
        exec (.girthSetBudget p) s = replied s p 0xA21 (d.w Reg.GIRTH_STAT_BAD_BUDGET 1) (.badParam 2)))) ∧
  (∀ (s : State) (p : Packet) (was : Bool),
    let ws := p.params.map BitVec.toNat
    let asks (i : Instr) (op : Nat) (was : Bool) : Prop :=
      let d := s.dev.taken p op
      let q : OstCmd := { key := s.dev.ost.cmdKey, opcode := op, words := ws, wasRunning := was }
      (s.dev.ep.placed = true → exec i s = onward s { d with
        ost := { s.dev.ost with cmds := s.dev.ost.cmds ++ [q], cmdKey := s.dev.ost.cmdKey + 1 },
        host := { d.host with outstanding := d.host.outstanding ++
          [⟨p.origin, op, p.tag, p.quietOk, s.dev.ost.cmdKey, 0, false⟩] } }) ∧
      (s.dev.ep.placed = false → exec i s = replied s p op (d.ostCmd d.nowNs q).1 (d.ostCmd d.nowNs q).2)
    p.arg 0 < 4096 →
      (s.dev.Ready p 0xA01 2 false → p.arg 1 = 0 → asks (.ostRelease p) 0xA01 false) ∧
      (s.dev.Ready p 0xA01 4 false → p.arg 1 = 1 → p.arg 2 ≠ 0 → p.arg 3 = 0 → asks (.ostRelease p) 0xA01 false) ∧
      (s.dev.Ready p 0xA01 4 false → p.arg 1 = 2 → asks (.ostRelease p) 0xA01 false) ∧
      (s.dev.Ready p 0xA02 1 true → asks (.ostCancel p) 0xA02 false) ∧
      (s.dev.Ready p 0xA03 1 true → was = (s.dev.descState (p.arg 0) == 3) → asks (.ostAbort p) 0xA03 was) ∧
      (s.dev.Ready p 0xA06 3 true → 1 ≤ p.arg 1 → p.arg 1 ≤ 4096 → p.arg 0 + p.arg 1 ≤ 4096 → p.arg 2 < 2 →
        asks (.ostEnable p) 0xA06 false)) ∧
  (∀ (s : State) (path : Path) (v : Word), s.dev.pathOpen path = true →
    let b := v.toNat % 2 ^ 16
    (s.dev.pathPriv path = false → exec (.girthBudgetWrite path v) s = onward s (s.dev.countPath path)) ∧
    (s.dev.pathPriv path = true → 12000 ≤ b → b ≤ 38000 → s.dev.floorFor s.dev.ost.enabled ≤ b →
      exec (.girthBudgetWrite path v) s = onward s
        (({ s.dev with ost := { s.dev.ost with budgetNext := some b } }).w Reg.GIRTH_BUDGET_BUDGET_MW b)) ∧
    (s.dev.pathPriv path = true → b < 12000 ∨ 38000 < b ∨ b < s.dev.floorFor s.dev.ost.enabled →
      exec (.girthBudgetWrite path v) s = onward s (s.dev.w Reg.GIRTH_STAT_BAD_BUDGET 1))) ∧
  ∀ (s : State) (tj : Int), s.dev.Sound → -2 ^ 15 ≤ tj → tj < 2 ^ 15 → ∃ d : Dev, exec (.girthDerate tj) s = onward s d ∧
    (d.r Reg.GIRTH_STAT_F16 : Int) = max 0 (min 16 ((105 - (tj : Rat) / 16) * 16 / 10).floor) ∧
    (d.b Reg.GIRTH_STAT_DERATING = true ↔ d.r Reg.GIRTH_STAT_F16 < 16) ∧ d.rs Reg.GIRTH_TJ_NOW = tj ∧
    (115 * 16 ≤ tj → d.b Reg.GIRTH_STAT_THERM_CRIT = true ∧ d.b Reg.GLB_HEALTH_THERM = true) ∧
    (tj < 115 * 16 → d.r Reg.GIRTH_STAT_THERM_CRIT = s.dev.r Reg.GIRTH_STAT_THERM_CRIT) ∧ d.mem = s.dev.mem ∧
    d.ost = s.dev.ost

/-- A tick of Ostler, what a release does, who may start where, what Girth admits, the state of a core at dispatch, and an end by
RUN_LIMIT. A tick without a placed epoch or after the last of its epoch changes nothing. A tick with nothing due takes the new
budget and admits the candidates. A release of an enabled idle service item makes it READY, any other is dropped and counted.
Candidates are ready items, one to a core, of cores that are idle with no cyclic item waiting, in the item's AFFINITY, and on
a cyclic core with room before the boundary. A single candidate starts when its class power fits into the pool, else is
denied. A dispatched core starts at ENTRY with the registers of R400. An instance at RUN_LIMIT ends with code 5 and commits
nothing. Clauses that follow a reading of the model: log entry 137. (R371, R373, R400, R409, R410, R411, R412, R414, R416,
R419, R424) -/
def Obligations.OstlerTicksAndItems : Prop :=
  (∀ s : State, s.dev.ep.placed = false ∨ s.dev.ticksPerEpoch ≤ s.dev.ost.tick → exec .ostlerTick s = onward s s.dev) ∧
  (∀ s : State, s.dev.ep.placed = true → s.dev.ost.tick < s.dev.ticksPerEpoch → s.dev.ost.tick ≠ 0 → s.dev.ost.cmds = [] →
    s.dev.ost.nextTick = [] → s.dev.cal.workOut = [] → s.dev.ost.delays = [] → s.dev.ost.run = true →
    let t := s.dev.boundaryNs + 1000 * s.dev.ost.tick
    let d := s.dev.reach (s.dev.countAt t)
    let e := ({ d with ost := { d.ost with
      tick := d.ost.tick + 1, budget := d.ost.budgetNext.getD d.ost.budget, budgetNext := none } }).showDelays
    exec .ostlerTick s = onward s (e.admission s.grade t).showGirth) ∧
  (∀ (d : Dev) (i : Nat),
    (d.isService i = true → d.descOn i = true → d.descState i < 2 →
      let e := d.setDescState i 2
      d.makeReady i = ({ e with ost := { e.ost with ready := d.ost.ready ++ [i] } }).ostRecord i 0 0 (d.eclassOf i) 0) ∧
    (d.isService i = true → d.descOn i = true → 2 ≤ d.descState i → d.makeReady i = d.dropRelease i 1) ∧
    (d.isService i = true → d.descOn i = false → d.makeReady i = d.dropRelease i 2) ∧
    (d.isService i = false → d.makeReady i = d.dropRelease i 4)) ∧
  (∀ (d : Dev) (t : Nat), ((d.candidatesAt t).map (·.1)).Pairwise (· < ·) ∧ ((d.candidatesAt t).map (·.2)).Nodup ∧
    ∀ c i : Nat, (c, i) ∈ d.candidatesAt t → c < 16 ∧ d.coreIdle c = true ∧ Tab.look [] c d.ost.cycq = [] ∧
      i ∈ d.ost.ready ∧ bitOf (d.descWord i 1) c = true ∧
      (bitOf (d.r Reg.OST_CORE_CYC) c = true → t + 40 + 1000 * bits (d.descWord i 3) 0 16 ≤ d.boundaryNs + d.te)) ∧
  (∀ (d : Dev) (g : Grade) (t c i : Nat), d.candidatesAt t = [(c, i)] → c < 16 → d.sageWants t = false →
    let p := d.r (Reg.GIRTH_CLASS (d.eclassOf i))
    (d.girthUsed + p ≤ d.girthPool → d.admission g t =
      ({ d with ost := { d.ost with ready := d.ost.ready.filter (· != i) } }).dispatch c i (t + 40) p) ∧
    (d.girthPool < d.girthUsed + p → d.admission g t =
      ((d.inc Reg.GIRTH_DENY_CNT_CORE).w Reg.GIRTH_STAT_DENIED 1).ostRecord i c 4 (d.eclassOf i) 0)) ∧
  (∀ (d : Dev) (c : Fin 16) (i at' p : Nat), d.Sound → i < 4096 →
    let e := d.dispatch c i at' p
    let k := e.core c
    (∀ r : Nat, k.reg r = if r = 1 then i else if r = 2 then d.descWord i 2 else
      if r = 3 then d.r Reg.EPK_NOW % 2 ^ 32 else if r = 31 then 0x0003_0000 else 0) ∧
    k.pc = d.descWord i 0 % 2 ^ 16 ∧ k.acc = [] ∧ k.fstat = 0 ∧ k.ien = 0 ∧ k.ipend = 0 ∧ k.ivec = 0 ∧ k.epc = 0 ∧
    k.timerCmp = 0 ∧ k.warnNs = 0 ∧ k.mbBase = [] ∧ k.mbLen = [] ∧ k.gie = false ∧ k.cycle = 0 ∧ k.chain = 0 ∧
    k.waiting = .none ∧ k.imem = (d.core c).imem ∧ k.dmem = (d.core c).dmem ∧ e.r (Reg.HK_STAT_STATE c) = 1 ∧
    e.r (Reg.HK_STAT_ITEM c) = i ∧ bitOf (e.r Reg.OST_IDLE) c = false ∧
    Tab.look ⟨0, false, 0, 0⟩ c.val e.ost.running = ⟨i, !d.isService i, at', p⟩ ∧ ∀ j : Nat, j ≠ c → e.core j = d.core j) ∧
  ∀ (s : State) (c : Fin 16), s.dev.Sound →
    (s.dev.ost.running.find? (fun e => e.1 == c.val) = none → exec (.runLimitExpire c) s = onward s s.dev) ∧
    (∀ run : OstRun, s.dev.ost.running.find? (fun e => e.1 == c.val) = some (c.val, run) → run.desc < 4096 →
      Tab.look [] c.val s.dev.ost.cycq = [] → s.dev.b Reg.OST_TRC_CTRL_EN = false →
      ∃ d : Dev, exec (.runLimitExpire c) s = onward s d ∧ d.ep = s.dev.ep ∧ d.r (Reg.HK_STAT_STATE c) = 0 ∧
        bitOf (d.r Reg.OST_IDLE) c = true ∧ d.descState run.desc = 0 ∧ bits (d.descWord run.desc 7) 4 4 = 5 ∧
        bits (d.descWord run.desc 7) 8 8 = 0 ∧
        bits (d.descWord run.desc 7) 16 16 = bits (s.dev.descWord run.desc 7) 16 16 ∧ (d.core c).dmem = (s.dev.core c).dmem ∧
        ∀ j w : Nat, j < 4096 → w < 8 → j ≠ run.desc ∨ w ≠ 7 → d.descWord j w = s.dev.descWord j w)

/-- Bridle: ticks, input filters, safe connections, the evaluation of functions and zones, dark tests, and the fall to SAFE. A
tick in SAFE changes nothing; else the tick counts. An input without a test pulse becomes active after FILTER samples at 1 and
inactive after FILTER at 0. A lone copy is delivered one tick later; a connection WD ticks without a delivery fails. An
evaluation runs once per cycle start over every function and zone: demand, automatic and manual reset, FAULT, STO at once for
category 0, SS1 with its time for 1 and 2. Disagreement for DISC ticks is a FAULT; SS1_TIME over brings STO; an unconfirmed
drive sets STO_UNCONF. A fault or a late evaluation enters SAFE: every zone demanded, STO on all teams, safe outputs off. A
stuck output opens its group and demands its zones. Clauses that follow a reading of the model: log entries 138, 139, 140,
145, 148, 151. (R356, R357, R359, R431, R432, R434, R436, R441, R444, R448, R454, R455) -/
def Obligations.BridleTicksAndEvaluation : Prop :=
  (∀ (s : State) (i : BitVec 64) (o : BitVec 32) (tp : BitVec 8) (st : BitVec 24),
    (s.dev.brdStateCode = 4 → exec (.bridleTick i o tp st) s = onward s s.dev) ∧
    (s.dev.brdStateCode < 2 → s.dev.brd.active = false → exec (.bridleTick i o tp st) s = onward s s.dev.nextTick) ∧
    (s.dev.ep.placed = false → s.dev.nextTick = { (s.dev.reach (50000 * (s.dev.r Reg.BRD_TICK + 1))).w Reg.BRD_TICK
      (s.dev.r Reg.BRD_TICK + 1) with brd := { s.dev.brd with n := s.dev.brd.n + 1 } })) ∧
  (∀ (d : Dev) (i t : Nat) (v : Bool), d.Sound → i < 64 → bits (d.inRec i) 7 4 = 0 → bitOf d.brd.short i = false →
    bitOf (d.r Reg.BRD_IN_FAULT) i = false →
    let n := d.inRec i % 2 ^ 7
    let e := d.filterInput i v t
    let on := if v then Nat.min 127 (Tab.look 0 i d.brd.onRun + 1) else 0
    let off := if v then 0 else Nat.min 127 (Tab.look 0 i d.brd.offRun + 1)
    Tab.look 0 i e.brd.onRun = on ∧ Tab.look 0 i e.brd.offRun = off ∧
    (bitOf (e.r Reg.BRD_IN) i = if bitOf (d.r Reg.BRD_IN) i then decide (off < n) else decide (n ≤ on)) ∧
    ∀ j : Nat, j < 64 → j ≠ i → bitOf (e.r Reg.BRD_IN) j = bitOf (d.r Reg.BRD_IN) j) ∧
  (∀ (s : State) (c : Fin 256),
    let x := s.dev.conn c
    ((∀ w ∈ x.wait, s.dev.brd.n ≤ w.1) → exec (.safeTwinTimeout c) s = onward s s.dev) ∧
    (∀ (n0 net : Nat) (p : SafePdu), x.wait = [(n0, net, p)] → n0 < s.dev.brd.n → s.dev.connKind c ≠ 1 →
      x.singleRun + 1 < bits (s.dev.connWord c 4) 0 8 → exec (.safeTwinTimeout c) s = onward s (s.dev.setConn c { x with
        st := 2, seq := p.seq, ts := p.ts, tick := s.dev.brd.n, data := p.data.map BitVec.toNat, wait := [],
        singleRun := x.singleRun + 1, singleNet := net, singleCnt := Nat.min (x.singleCnt + 1) (2 ^ 32 - 1) })) ∧
    ∀ ring : Bool,
      let k := if ring then 512 + c.val % 128 else c.val
      let y := s.dev.conn k
      ((y.st ≠ 1 ∧ y.st ≠ 2) ∨ s.dev.brd.n < y.tick + bits (s.dev.connWord k 3) 0 16 →
        exec (.safeConnWatchdog ring c) s = onward s s.dev) ∧
      (y.st = 1 ∨ y.st = 2 → y.tick + bits (s.dev.connWord k 3) 0 16 ≤ s.dev.brd.n →
        exec (.safeConnWatchdog ring c) s = onward s (s.dev.setConn k { y with st := 3, watchdog := true, wait := [] }))) ∧
  (∀ (d : Dev) (net src c : Nat) (p : SafePdu), c < 256 → d.connUsed c = true → d.connWord c 0 = p.connId →
    (∀ j : Nat, j < c → d.connWord j 0 ≠ p.connId) →
    let x := d.conn c
    (x.st = 0 ∨ x.st = 3 → d.checkCopy net src p = d) ∧
    (x.st = 1 ∨ x.st = 2 → bits (d.connWord c 5) 0 12 ≠ src →
      d.checkCopy net src p = d.setConn c { x with masq := Nat.min (x.masq + 1) (2 ^ 16 - 1) }) ∧
    (x.st = 1 ∨ x.st = 2 → bits (d.connWord c 5) 0 12 = src → pduCrc (d.connSeed c) p ≠ p.crc →
      d.checkCopy net src p = d.setConn c { x with crcErr := Nat.min (x.crcErr + 1) (2 ^ 16 - 1) }) ∧
    (x.st = 1 ∨ x.st = 2 → bits (d.connWord c 5) 0 12 = src → d.pduBad c p = none →
      ((∀ w ∈ x.wait, w.2.2.seq ≠ p.seq) → d.checkCopy net src p = d.setConn c { x with wait := x.wait ++ [(d.brd.n, net, p)] }) ∧
      (∀ (n0 n1 : Nat) (p0 : SafePdu), x.wait = [(n0, n1, p0)] → p0.seq = p.seq → n1 ≠ net → p0 ≠ p →
        d.checkCopy net src p = d.setConn c { x with st := 3, mismatch := true, wait := [] }))) ∧
  (∀ s : State, (s.dev.r Reg.BRD_TICK % 4 ≠ 0 ∨ s.dev.brd.evalAt = some s.dev.brd.n ∨ s.dev.brdStateCode = 4 ∨
      s.dev.brdStateCode = 1 → exec .safetyCycleEval s = onward s s.dev.pins) ∧
    (s.dev.r Reg.BRD_TICK % 4 = 0 → s.dev.brd.evalAt ≠ some s.dev.brd.n → s.dev.brdStateCode = 2 ∨ s.dev.brdStateCode = 3 →
      s.dev.brd.accepted = none →
      let d := ({ s.dev with brd := { s.dev.brd with evalAt := some s.dev.brd.n } }).sampleEncoders.checkSignature
      let d := d.functions.foldl (fun d f => d.fnEval f) d
      let demands := Nat.lor (Nat.lor d.fnDemands d.pdkDemands) d.stuckDemands
      let d := ((List.range 32).foldl (fun d z => d.zoneEval demands z) d).applyZones
      exec .safetyCycleEval s = onward s (if d.brdStateCode = 3 then d.evalOuts else d).pins)) ∧
  (∀ (d : Dev) (f : Nat), d.Sound → f < 128 → d.fnType f ∈ [1, 2, 4, 5] → d.fnState f < 4 →
    let ok := d.okA f && d.okB f
    let manual := bitOf (d.fnRec f 0) 4
    let e := d.fnEval f
    e.fnState f = (if d.fnState f = 3 then (if (d.fx f).edge && ok && (d.fx f).off then 1 else 3)
      else if !ok then 0 else if d.fnState f = 1 || !manual then 1 else if d.fnState f = 2 && (d.fx f).edge then 1 else 2) ∧
    ((e.fx f).okBefore = ok ∧ (e.fx f).edge = false) ∧ (∀ j : Nat, j < 128 → j ≠ f → e.fnState j = d.fnState j) ∧
    (d.fnState f = 1 → ok = false → d.fnType f ≠ 5 →
      e.r (Reg.BRD_FUNC_STAT_COUNT f) = Nat.min (d.r (Reg.BRD_FUNC_STAT_COUNT f) + 1) (2 ^ 16 - 1))) ∧
  (∀ (d : Dev) (z cat : Nat), d.Sound → z < 32 → d.b (Reg.BRD_ZONE_STAT_STO z) = false →
    d.b (Reg.BRD_ZONE_STAT_SS1 z) = false →
    let e := d.zoneDemand z cat
    let time := bits (d.znRec z 1) 0 16
    e.b (Reg.BRD_ZONE_STAT_DEMAND z) = true ∧
    e.r Reg.BRD_DEMAND_CNT = (if d.b (Reg.BRD_ZONE_STAT_DEMAND z) then d.r Reg.BRD_DEMAND_CNT
      else Nat.min (d.r Reg.BRD_DEMAND_CNT + 1) (2 ^ 32 - 1)) ∧
    (cat = 0 ∨ time = 0 → e.b (Reg.BRD_ZONE_STAT_STO z) = true ∧ e.b (Reg.BRD_ZONE_STAT_SS1 z) = false) ∧
    (cat = 1 ∨ cat = 2 → 0 < time → e.b (Reg.BRD_ZONE_STAT_STO z) = false ∧ e.b (Reg.BRD_ZONE_STAT_SS1 z) = true ∧
      e.r (Reg.BRD_ZONE_STAT_SS1_LEFT z) = time)) ∧
  (∀ (s : State) (f : Fin 128) (z : Fin 32),
    let x := s.dev.fx f
    let disc := bits (s.dev.fnRec f 3) 0 16
    (s.dev.fnType f = 0 ∨ s.dev.fnState f = 3 ∨ (x.disc < disc ∧ x.disc2 < disc) → exec (.discFault f) s = onward s s.dev) ∧
    (s.dev.Sound → s.dev.fnType f ≠ 0 → s.dev.fnState f ≠ 3 → disc ≤ x.disc → ∃ d : Dev, exec (.discFault f) s = onward s d ∧
      d.fnState f = 3 ∧ d.b (Reg.BRD_FUNC_STAT_DISC f) = true ∧ d.mem = s.dev.mem) ∧
    (s.dev.b (Reg.BRD_ZONE_STAT_SS1 z) = false ∨ s.dev.r (Reg.BRD_ZONE_STAT_SS1_LEFT z) ≠ 0 →
      exec (.ss1Timeout z) s = onward s s.dev) ∧
    (s.dev.Sound → s.dev.b (Reg.BRD_ZONE_STAT_SS1 z) = true → s.dev.r (Reg.BRD_ZONE_STAT_SS1_LEFT z) = 0 →
      s.dev.b (Reg.BRD_ZONE_STAT_STO z) = false → ∃ d : Dev, exec (.ss1Timeout z) s = onward s d ∧
        d.b (Reg.BRD_ZONE_STAT_STO z) = true ∧ d.b (Reg.BRD_ZONE_STAT_SS1 z) = false ∧ bitOf (d.r Reg.BRD_ZONE_STO) z = true) ∧
    ((s.dev.zx z).stoAt = none → exec (.stoConfTimeout z) s = onward s s.dev) ∧
    (∀ t : Nat, (s.dev.zx z).stoAt = some t →
      (bits (s.dev.znRec z 1) 16 16 ≤ s.dev.brd.n - t → (∃ r ∈ s.dev.znDrives z, s.dev.driveConfirms r = false) →
        exec (.stoConfTimeout z) s = onward s (s.dev.w (Reg.BRD_ZONE_STAT_STO_UNCONF z) 1)) ∧
      (s.dev.brd.n - t < bits (s.dev.znRec z 1) 16 16 ∨ (∀ r ∈ s.dev.znDrives z, s.dev.driveConfirms r = true) →
        exec (.stoConfTimeout z) s = onward s s.dev))) ∧
  (∀ s : State,
    let late := s.dev.r Reg.BRD_TICK % 4
    let safe (d : Dev) (cause : Nat) : Prop := d.brdStateCode = 4 ∧ d.r Reg.BRD_FAULT = cause ∧ d.brd.sto = 0xFF_FFFF ∧
      d.r Reg.BRD_OUT = 0 ∧ (∀ z : Fin 32, d.b (Reg.BRD_ZONE_STAT_DEMAND z) = true ∧ d.b (Reg.BRD_ZONE_STAT_STO z) = true) ∧
      d.r Reg.BRD_ZONE_DEM = 0xFFFF_FFFF
    (∀ c : Fin 9, s.dev.brdStateCode = 4 → exec (.bridleFault c) s = onward s s.dev) ∧
    (∀ c : Fin 9, s.dev.Sound → c ≠ 0 → s.dev.brdStateCode ≠ 4 → s.dev.b Reg.PAIR_STAT_HOLDER = false → ∃ d : Dev,
      exec (.bridleFault c) s = onward s d ∧ safe d c) ∧
    (s.dev.brdStateCode = 0 ∨ s.dev.r Reg.BRD_TICK < 4 ∨ s.dev.brd.evalAt = some (s.dev.brd.n - late) →
      exec .bridleEvalDeadline s = onward s s.dev) ∧
    (s.dev.Sound → s.dev.brdStateCode = 2 ∨ s.dev.brdStateCode = 3 → 4 ≤ s.dev.r Reg.BRD_TICK → late ≤ s.dev.brd.n →
      s.dev.brd.evalAt ≠ some (s.dev.brd.n - late) → s.dev.b Reg.PAIR_STAT_HOLDER = false → ∃ d : Dev,
        exec .bridleEvalDeadline s = onward s d ∧ safe d 8) ∧
    (s.dev.brd.tested = true ∨ 2 ≤ s.dev.brdStateCode → exec .bridleSelftestDone s = onward s s.dev) ∧
    (s.dev.Sound → s.dev.brd.tested = false → s.dev.brdStateCode < 2 → ∃ d : Dev, exec .bridleSelftestDone s = onward s d ∧
      d.brdStateCode = 0 ∧ d.brd.tested = true ∧ d.brd.sto = 0xFF_FFFF)) ∧
  (∀ (s : State) (k : Fin 8), (s.dev.brdStateCode ≠ 3 → exec (.testPulse k) s = onward s s.dev) ∧
    (s.dev.brdStateCode = 3 → exec (.testPulse k) s = onward s (s.dev.w Reg.BRD_TP_ON (setBit (s.dev.r Reg.BRD_TP_ON) k
      (!(s.dev.inPulse k (s.dev.r Reg.BRD_TICK) || s.dev.inPulse k (s.dev.r Reg.BRD_TICK + 1))))))) ∧
  (∀ (s : State) (o : Fin 32) (ending rb : Bool),
    let g := o.val / 8
    let ended := ({ s.dev.reach (Tab.look 0 o s.dev.brd.darkC + 800 * bits (s.dev.soRec o 1) 16 9) with
      brd := { s.dev.brd with dark := setBit s.dev.brd.dark o false } }).driveGroup g
    (bitOf (s.dev.r Reg.BRD_OUT) o = false ∨ s.dev.brdStateCode ≠ 3 ∨ bitOf (s.dev.soRec o 0) 0 = false →
      exec (.darkTest o ending rb) s = onward s s.dev) ∧
    (bitOf (s.dev.r Reg.BRD_OUT) o = true → s.dev.brdStateCode = 3 → bitOf (s.dev.soRec o 0) 0 = true →
      (s.dev.brd.darkC = [] → exec (.darkTest o false rb) s = onward s (({ s.dev with brd := { s.dev.brd with
        dark := setBit s.dev.brd.dark o true, darkC := [(o.val, s.dev.time.c)] } }).driveGroup g)) ∧
      (bitOf s.dev.brd.dark o = true → exec (.darkTest o true false) s = onward s ended ∧
        exec (.darkTest o true true) s = onward s (ended.stuckOn o)))) ∧
  (∀ (d : Dev) (o : Nat), d.Sound → o < 32 →
    let e := d.stuckOn o
    bitOf (e.r Reg.BRD_OUT_FAULT) o = true ∧ bitOf (e.r Reg.BRD_TP_CUT) (o / 8) = true ∧
    e.b (Reg.FIO_GRP_STAT_CUT_OPEN (o / 8)) = true ∧
    ∀ z : Nat, z < 32 → bitOf (d.znRec z 3) o = true → e.b (Reg.BRD_ZONE_STAT_DEMAND z) = true) ∧
  ∀ (s : State) (die : Fin 2), ∃ d : Dev, exec (.fieldDieRefreshLoss die) s = onward s d ∧ d.mem = s.dev.mem ∧
    (∀ o : Nat, o < 32 → bitOf d.fio.safeLevels o = (bitOf s.dev.fio.safeLevels o && o / 16 != die.val)) ∧
    ∀ t : Nat, t < 24 → bitOf d.team.sto t = (bitOf s.dev.team.sto t || t / 12 == die.val)

/-- Bridle's commands: reads, reset, restart of a connection, and loading, accepting and activating a safety parameter set. For
packets that are ready: BRD_INFO, BRD_FUNC_READ, BRD_ZONE_READ, BRD_IO_READ and BRD_CONN_READ answer registers, BRD_FUNC_READ
and BRD_ZONE_READ with the present tick. BRD_RESET and BRD_CONN_RESTART are BUSY outside RUN; a reset of one function with
RST_CMD whose OK condition held notes an edge; a FAILED connection goes to START. SPS_LOAD is BUSY while a set is staged and
stages a set that verifies and passes CRC and record check. SPS_ACCEPT must name the staged set and is BUSY unless every zone
is demanded and no SS1 runs; activation starts every function in DEMAND and demands every zone. Clauses that follow a reading
of the model: log entries 143, 147, 150. (R431, R445, R446, R460, R464, R465, R467, R468) -/
def Obligations.BridleCommandsAndSets : Prop :=
  (∀ (s : State) (p : Packet),
    let now := [s.dev.r Reg.BRD_TICK % 2 ^ 32, s.dev.r Reg.BRD_TICK / 2 ^ 32 % 2 ^ 32]
    (s.dev.Ready p 0xB00 0 true → exec (.brdInfo p) s = replied s p 0xB00 (s.dev.taken p 0xB00)
      (.ok ([0xB0_0000, 0xB0_0004, 0xB0_0010, 0xB0_0014, 0xB0_0038, 0xB0_003C, 0xB0_0040].map s.dev.regWord))) ∧
    (s.dev.Ready p 0xB01 2 true → p.arg 0 < 128 → 1 ≤ p.arg 1 → p.arg 1 ≤ 128 → p.arg 0 + p.arg 1 ≤ 128 →
      exec (.brdFuncRead p) s = replied s p 0xB01 (s.dev.taken p 0xB01)
        (.ok (now ++ (List.range (p.arg 1)).map (fun i => s.dev.regWord (0xB0_0100 + 4 * (p.arg 0 + i)))))) ∧
    (s.dev.Ready p 0xB02 1 true → p.arg 0 < 32 → exec (.brdZoneRead p) s = replied s p 0xB02 (s.dev.taken p 0xB02)
      (.ok ([s.dev.regWord (0xB0_0300 + 4 * p.arg 0)] ++ now))) ∧
    (s.dev.Ready p 0xB03 0 true → exec (.brdIoRead p) s = replied s p 0xB03 (s.dev.taken p 0xB03)
      (.ok ((List.range 8).map (fun i => s.dev.regWord (0xB0_0018 + 4 * i))))) ∧
    (s.dev.Ready p 0xB04 2 true →
      (2 ≤ p.arg 0 → exec (.brdConnRead p) s = replied s p 0xB04 (s.dev.taken p 0xB04) (.badParam 2)) ∧
      (p.arg 0 = 0 → p.arg 1 < 128 → exec (.brdConnRead p) s = replied s p 0xB04 (s.dev.taken p 0xB04)
        (.ok ((s.dev.conn (512 + p.arg 1)).words false))) ∧
      (p.arg 0 = 1 → p.arg 1 < 512 → exec (.brdConnRead p) s = replied s p 0xB04 (s.dev.taken p 0xB04)
        (.ok ((s.dev.conn (p.arg 1)).words (decide (256 ≤ p.arg 1)))))) ∧
    (s.dev.Ready p 0xB08 4 true →
      (s.dev.brdStateCode ≠ 3 → exec (.brdReset p) s = replied s p 0xB08 (s.dev.taken p 0xB08) .busy) ∧
      (s.dev.brdStateCode = 3 → p.arg 0 = 0 → p.arg 1 = 0 → p.arg 2 = 0 → p.arg 3 = 0 →
        exec (.brdReset p) s = replied s p 0xB08 (s.dev.taken p 0xB08) (.ok [0, 0, 0, 0])) ∧
      (∀ f : Fin 32, s.dev.brdStateCode = 3 → p.arg 0 = 2 ^ f.val → p.arg 1 = 0 → p.arg 2 = 0 → p.arg 3 = 0 →
        let d := s.dev.taken p 0xB08
        (s.dev.fnType f = 0 ∨ bitOf (s.dev.fnRec f 0) 5 = false →
          exec (.brdReset p) s = replied s p 0xB08 d (.ok [2 ^ f.val, 0, 0, 0])) ∧
        (s.dev.fnType f ≠ 0 → bitOf (s.dev.fnRec f 0) 5 = true → (s.dev.fx f).okBefore = true →
          exec (.brdReset p) s = replied s p 0xB08
            ((d.clearInputs f).1.setFx f { s.dev.fx f with edge := true }) (.ok [0, 0, 0, 0])))) ∧
    (s.dev.Ready p 0xB09 2 true →
      let c := if p.arg 0 = 0 then 512 + p.arg 1 else p.arg 1
      (s.dev.brdStateCode ≠ 3 → exec (.brdConnRestart p) s = replied s p 0xB09 (s.dev.taken p 0xB09) .busy) ∧
      (s.dev.brdStateCode = 3 → p.arg 0 < 2 → p.arg 1 < (if p.arg 0 = 0 then 128 else 512) →
        ((s.dev.conn c).st ≠ 3 → exec (.brdConnRestart p) s = replied s p 0xB09 (s.dev.taken p 0xB09) .busy) ∧
        ((s.dev.conn c).st = 3 → exec (.brdConnRestart p) s = replied s p 0xB09 ((s.dev.taken p 0xB09).connStart c) (.ok [])))) ∧
    (s.dev.Ready p 0xB11 2 true →
      let d := s.dev.taken p 0xB11
      let t := (s.dev.r Reg.BRD_TICK / 4 + 1) * 4
      (s.dev.brd.staged = none → exec (.spsAccept p) s = replied s p 0xB11 d (.badParam 0)) ∧
      (∀ x : SpsSet, s.dev.brd.staged = some x →
        (p.arg 0 ≠ x.id → exec (.spsAccept p) s = replied s p 0xB11 d (.badParam 2)) ∧
        (p.arg 0 = x.id → p.arg 1 ≠ x.crc → exec (.spsAccept p) s = replied s p 0xB11 d (.badParam 3)) ∧
        (p.arg 0 = x.id → p.arg 1 = x.crc → s.dev.r Reg.BRD_ZONE_DEM ≠ 0xFFFF_FFFF →
          exec (.spsAccept p) s = replied s p 0xB11 d .busy) ∧
        (p.arg 0 = x.id → p.arg 1 = x.crc → s.dev.r Reg.BRD_ZONE_DEM = 0xFFFF_FFFF →
          (∀ z : Fin 32, s.dev.b (Reg.BRD_ZONE_STAT_SS1 z) = false) → exec (.spsAccept p) s =
            replied s p 0xB11 { d with brd := { s.dev.brd with accepted := some t } } (.ok [t % 2 ^ 32, t / 2 ^ 32 % 2 ^ 32]))))) ∧
  (∀ (s : State) (p : Packet) (v : Verdict) (recs : List (Nat × Nat)), s.dev.Ready p 0xB10 2 true →
    let d := s.dev.taken p 0xB10
    let w (o : Nat) : Nat := Mem.word s.dev.hk.swm (p.arg 0 + o)
    let crc := crc32c ((List.range (16 + w 12)).map (fun i => (Mem.get s.dev.hk.swm (p.arg 0 + i)).toNat))
    let m := recs.foldl (fun m (e : Nat × Nat) => Mem.putWord m e.1 e.2) []
    (s.dev.brd.staged ≠ none → exec (.spsLoad p v recs) s = replied s p 0xB10 d .busy) ∧
    (s.dev.brd.staged = none → p.arg 0 < 0xC0_0000 → p.arg 0 % 4 = 0 → 73 ≤ p.arg 1 → p.arg 0 + 4 * p.arg 1 ≤ 0xC0_0000 →
      (s.dev.verifyCode s.grade 2 (4 * p.arg 1) w v ≠ 0 ∨ crc ≠ w (16 + w 12) ∨ spsBad m = true →
        exec (.spsLoad p v recs) s = replied s p 0xB10 d (.badParam 0)) ∧
      (s.dev.verifyCode s.grade 2 (4 * p.arg 1) w v = 0 → crc = w (16 + w 12) → spsBad m = false →
        exec (.spsLoad p v recs) s = replied s p 0xB10 { d.w Reg.BRD_STAT_SPS_STAGED 1 with
          brd := { s.dev.brd with staged := some ⟨w 4, crc, w 8, recs⟩ } } (.ok [w 4, crc])))) ∧
  ∀ (d : Dev) (g : Grade) (x : SpsSet), d.Sound → x.id < 2 ^ 32 → x.crc < 2 ^ 32 →
    let e := d.spsActivate g x
    e.brd.active = true ∧ e.brd.staged = none ∧ e.brd.accepted = none ∧ e.r Reg.BRD_SPS_ID = x.id ∧
    e.r Reg.BRD_SPS_CRC = x.crc ∧ e.r Reg.BRD_OUT = 0 ∧ (∀ f : Fin 128, e.fnState f = 0) ∧
    (∀ z : Fin 32, e.b (Reg.BRD_ZONE_STAT_DEMAND z) = true ∧ e.b (Reg.BRD_ZONE_STAT_STO z) = true) ∧
    ∀ c : Fin 256, e.connUsed c = true → (e.conn c).st = 1

/-- Field I/O: input changes, output faults, supply and silence of a group, configuration writes and the commands. A filtered
input takes its new level and the count of the sample. A readback fault of an output that Bridle does not own sets RB_LOW or
RB_HIGH. OVERLOAD, THERMAL, a lost supply and long silence turn outputs off and latch; first silence turns safe outputs off
and gives the others their SAFE_VAL. Supply samples below 19.2 V set SUPPLY_LOW, ten good ones clear it; AUTO_REARM clears
SUPPLY_LOST after 10 000. A configuration write is taken only for an off output that Bridle does not own. For packets that are
ready the commands answer and act as their rules say. Clauses that follow a reading of the model: log entries 56, 57, 58, 60.
(R471, R473, R474, R475, R477, R478, R480, R481, R482, R483, R485, R488) -/
def Obligations.FieldInputsOutputsAndGroups : Prop :=
  (∀ (s : State) (i : Fin 64) (v : Bool),
    let d := { s.dev with fio := { s.dev.fio with raw := setBit s.dev.fio.raw i v } }
    let inp := s.dev.r Reg.FIO_IN
    (bitOf inp i = v → exec (.fioInputChange i v) s = onward s d) ∧
    (bitOf inp i ≠ v → exec (.fioInputChange i v) s = onward s
      ((d.w Reg.FIO_IN (setBit inp i v)).w (Reg.FIO_IN_TS i) s.dev.time.c))) ∧
  (∀ (s : State) (o : Fin 32), s.dev.Sound →
    let on := bitOf (s.dev.r Reg.FIO_OUT) o
    (s.dev.r (Reg.FIO_OUT_CFG_OWNER o) = 2 ∨ s.dev.pair.driving = false → exec (.fioRbFault o) s = onward s s.dev) ∧
    (s.dev.r (Reg.FIO_OUT_CFG_OWNER o) ≠ 2 → s.dev.pair.driving = true → ∃ d : Dev, exec (.fioRbFault o) s = onward s d ∧
      bitOf (d.r Reg.FIO_RB) o = !on ∧ (on = true → d.b (Reg.FIO_OUT_STAT_RB_LOW o) = true) ∧
      (on = false → d.b (Reg.FIO_OUT_STAT_RB_HIGH o) = true) ∧ d.r Reg.FIO_OUT = s.dev.r Reg.FIO_OUT ∧ d.fio = s.dev.fio) ∧
    (on = false → exec (.fioOverload o) s = onward s s.dev) ∧
    (on = true → ∃ d : Dev, exec (.fioOverload o) s = onward s d ∧ d.b (Reg.FIO_OUT_STAT_OVERLOAD o) = true ∧
      bitOf (d.r Reg.FIO_OUT) o = false ∧ d.fio = s.dev.fio) ∧
    exec (.fioThermal o false) s = onward s { s.dev with fio := { s.dev.fio with hot := setBit s.dev.fio.hot o false } } ∧
    ∃ d : Dev, exec (.fioThermal o true) s = onward s d ∧ d.b (Reg.FIO_OUT_STAT_THERMAL o) = true ∧
      bitOf (d.r Reg.FIO_OUT) o = false ∧ bitOf d.fio.hot o = true) ∧
  (∀ (s : State) (g : Fin 4), s.dev.Sound →
    let off (d : Dev) : Prop := ∀ o : Nat, o / 8 = g → bitOf (d.r Reg.FIO_OUT) o = false
    (∀ mv : Nat, mv < 2 ^ 16 → ∃ d : Dev, exec (.vfieldSample g mv) s = onward s d ∧ d.r (Reg.FIO_VFIELD_LAST g) = mv ∧
      (mv < 19200 → d.b (Reg.FIO_GRP_STAT_SUPPLY_LOW g) = true) ∧
      (19200 ≤ mv → Tab.look 0 g d.fio.goodRun = Tab.look 0 g s.dev.fio.goodRun + 1 ∧
        (10 ≤ Tab.look 0 g d.fio.goodRun → d.b (Reg.FIO_GRP_STAT_SUPPLY_LOW g) = false)) ∧
      Tab.look 0 g d.fio.badRun = (if mv < 15000 then Tab.look 0 g s.dev.fio.badRun + 1 else 0) ∧
      (bitOf (d.r Reg.GLB_SUPPLY_VFIELD) g = decide (15000 ≤ mv))) ∧
    (Tab.look 0 g s.dev.fio.badRun < 100 ∨ s.dev.b (Reg.FIO_GRP_STAT_SUPPLY_LOST g) = true →
      exec (.supplyLost g) s = onward s s.dev) ∧
    (100 ≤ Tab.look 0 g s.dev.fio.badRun → s.dev.b (Reg.FIO_GRP_STAT_SUPPLY_LOST g) = false → ∃ d : Dev,
      exec (.supplyLost g) s = onward s d ∧ d.b (Reg.FIO_GRP_STAT_SUPPLY_LOST g) = true ∧ off d ∧
      d.r (Reg.FIO_GRP_CNT_LOST g) = Nat.min (s.dev.r (Reg.FIO_GRP_CNT_LOST g) + 1) (2 ^ 16 - 1)) ∧
    (s.dev.b (Reg.FIO_GRP_CFG_AUTO_REARM g) = false → exec (.supplyAutoRearm g) s = onward s s.dev) ∧
    (s.dev.b (Reg.FIO_GRP_CFG_AUTO_REARM g) = true → s.dev.b (Reg.FIO_GRP_STAT_SUPPLY_LOST g) = true →
      10000 ≤ Tab.look 0 g s.dev.fio.goodRun → ∃ d : Dev, exec (.supplyAutoRearm g) s = onward s d ∧
        d.b (Reg.FIO_GRP_STAT_SUPPLY_LOST g) = false ∧ bitOf d.fio.resume g = true) ∧
    (s.dev.b (Reg.FIO_GRP_STAT_SILENT1 g) = true → exec (.silent1Timeout g) s = onward s s.dev) ∧
    (s.dev.b (Reg.FIO_GRP_STAT_SILENT1 g) = false → ∃ d : Dev, exec (.silent1Timeout g) s = onward s d ∧
      d.b (Reg.FIO_GRP_STAT_SILENT1 g) = true ∧
      ∀ o : Nat, o / 8 = g → s.dev.r (Reg.FIO_OUT_CFG_OWNER o) = 2 ∨ s.dev.r (Reg.FIO_OUT_CFG_SAFE_VAL o) = 0 →
        bitOf (d.r Reg.FIO_OUT) o = false) ∧
    (s.dev.r (Reg.FIO_GRP_CFG_T_SILENT2 g) = 0 → exec (.silentOffTimeout g) s = onward s s.dev) ∧
    (s.dev.r (Reg.FIO_GRP_CFG_T_SILENT2 g) ≠ 0 → ∃ d : Dev, exec (.silentOffTimeout g) s = onward s d ∧
      d.b (Reg.FIO_GRP_STAT_SILENT_OFF g) = true ∧ off d)) ∧
  (∀ (s : State) (path : Path) (o : Fin 32) (v : Word), s.dev.pathOpen path = true →
    let n := v.toNat
    let held := bitOf (s.dev.r Reg.FIO_OUT) o = true ∨ s.dev.r (Reg.FIO_OUT_CFG_OWNER o) = 2
    (∀ sig : Bool, s.dev.pathPriv path = false → exec (.fioOutCfgWrite path o sig v) s = onward s (s.dev.countPath path)) ∧
    (∀ sig : Bool, s.dev.pathPriv path = true → held ∨ (sig = false ∧ n % 4 = 2) →
      exec (.fioOutCfgWrite path o sig v) s = onward s (s.dev.w Reg.FIO_STAT_CFG_BUSY 1)) ∧
    (s.dev.pathPriv path = true → ¬held → exec (.fioOutCfgWrite path o true v) s =
      onward s (s.dev.w (Reg.FIO_OUT_SIG_OUT_SIG o) n)) ∧
    (s.dev.Sound → s.dev.pathPriv path = true → ¬held → n % 4 ≠ 2 → ∃ d : Dev,
      exec (.fioOutCfgWrite path o false v) s = onward s d ∧ d.r (Reg.FIO_OUT_CFG_OWNER o) = n % 4 ∧
      d.r (Reg.FIO_OUT_CFG_SAFE_VAL o) = bits n 2 2 ∧ d.r (Reg.FIO_OUT_CFG_OUT_BIT o) = bits n 4 5 ∧
      (bits n 9 8 ≠ 0 → d.r (Reg.FIO_OUT_CFG_RB_BLANK o) = bits n 9 8) ∧
      bitOf d.fio.given o = (bitOf s.dev.fio.given o && s.dev.r (Reg.FIO_OUT_CFG_OWNER o) == n % 4))) ∧
  ∀ (s : State) (p : Packet),
    (s.dev.Ready p 0xC00 0 false → s.dev.ep.front.valid = true → exec (.fioInfo p) s = replied s p 0xC00 (s.dev.taken p 0xC00)
      (.ok (s.dev.ep.frontFio ++ [s.dev.ep.front.epoch % 2 ^ 32, s.dev.ep.front.epoch / 2 ^ 32 % 2 ^ 32]))) ∧
    (s.dev.Ready p 0xC01 1 false →
      let n := p.arg 0
      (4 ≤ n → exec (.fioGrpRead p) s = replied s p 0xC01 (s.dev.taken p 0xC01) (.badParam 2)) ∧
      (n < 4 → exec (.fioGrpRead p) s = replied s p 0xC01 (s.dev.taken p 0xC01)
        (.ok ([s.dev.grpStatWord n, s.dev.r (Reg.FIO_VFIELD_LAST n) + s.dev.r (Reg.FIO_VFIELD_LOWEST n) * 2 ^ 16,
          s.dev.r (Reg.FIO_GRP_CNT_LOST n) + s.dev.r (Reg.FIO_GRP_CNT_SILENT1 n) * 2 ^ 16] ++
          (List.range 8).map (fun o => s.dev.outStatWord (8 * n + o)))))) ∧
    (s.dev.Ready p 0xC02 2 true →
      let d := s.dev.taken p 0xC02
      let e := s.dev.r Reg.EPK_NOW + 1
      ((∃ o : Fin 32, bitOf (p.arg 0) o = true ∧ s.dev.r (Reg.FIO_OUT_CFG_OWNER o) ≠ 3) →
        exec (.fioOutWrite p) s = replied s p 0xC02 d (.badParam 2)) ∧
      ((∀ o : Fin 32, bitOf (p.arg 0) o = true → s.dev.r (Reg.FIO_OUT_CFG_OWNER o) = 3) → ∃ next : Nat,
        exec (.fioOutWrite p) s = replied s p 0xC02 { d with fio := { s.dev.fio with
          hostMask := Nat.lor s.dev.fio.hostMask (p.arg 0), hostNext := next } } (.ok [e % 2 ^ 32, e / 2 ^ 32 % 2 ^ 32]) ∧
        ∀ o : Fin 32, bitOf next o = if bitOf (p.arg 0) o then bitOf (p.arg 1) o else bitOf s.dev.fio.hostNext o)) ∧
    (s.dev.Ready p 0xC03 1 true →
      let d := s.dev.taken p 0xC03
      (p.arg 0 = 0 → exec (.fioOutClear p) s = replied s p 0xC03 d (.ok [0])) ∧
      (∀ o : Fin 32, p.arg 0 = 2 ^ o.val →
        (bitOf s.dev.fio.hot o = true → exec (.fioOutClear p) s = replied s p 0xC03 d (.ok [2 ^ o.val])) ∧
        (bitOf s.dev.fio.hot o = false → exec (.fioOutClear p) s = replied s p 0xC03
          (((d.w (Reg.FIO_OUT_STAT_OVERLOAD o) 0).w (Reg.FIO_OUT_STAT_THERMAL o) 0).driveGroup (o.val / 8)) (.ok [0])))) ∧
    (s.dev.Ready p 0xC04 1 true → s.dev.Sound → ∀ g : Fin 4, p.arg 0 = 2 ^ g.val → ∃ (d : Dev) (left : Nat),
      exec (.fioRearm p) s = replied s p 0xC04 d (.ok [left]) ∧
      (s.dev.b (Reg.FIO_GRP_STAT_SUPPLY_LOST g) = true → s.dev.r (Reg.FIO_VFIELD_LAST g) < 19200 → left = 2 ^ g.val ∧
        d.b (Reg.FIO_GRP_STAT_SUPPLY_LOST g) = true) ∧
      (s.dev.b (Reg.FIO_GRP_STAT_SUPPLY_LOST g) = true → 19200 ≤ s.dev.r (Reg.FIO_VFIELD_LAST g) →
        s.dev.b (Reg.FIO_GRP_STAT_SILENT_OFF g) = false → s.dev.b (Reg.FIO_GRP_STAT_CUT_OPEN g) = false → left = 0 ∧
        d.b (Reg.FIO_GRP_STAT_SUPPLY_LOST g) = false ∧ ∀ o : Nat, o / 8 = g → bitOf d.fio.rearm o = false))

/-- Two modules in a pair: REIN, the tack link, the standby's readiness, takeover, restore, handover and the commands. When
REIN_PEER falls a READY standby claims REIN and begins the takeover, one that is not sets NOT_READY_DROP; when it rises a
starting or handed-over module becomes the standby. The watchdog and a Farrier fault let REIN fall with causes 1 and 2. The
field dies drive 2 µs after the claim. Records with a bad CRC only count; health records, output shadows and snapshot chunks
are kept, and a complete newer snapshot of the same compatibility is verified. A failed self-test clears PASS, a good rotation
sets it. REVERT_PEND follows the dwell. An unconfirmed handover is abandoned. The commands answer as their rules say. Clauses
that follow a reading of the model: log entries 152, 154, 155, 156, 158. (R490, R491, R492, R494, R495, R498, R501, R503,
R504, R508, R509, R512) -/
def Obligations.PairedModules : Prop :=
  (∀ s : State,
    let off := s.dev.w Reg.PAIR_STAT_PEER_HOLD 0
    let up := s.dev.w Reg.PAIR_STAT_PEER_HOLD 1
    let st := s.dev.r Reg.PAIR_STAT_STATE
    s.dev.Sound →
    (s.dev.paired = false ∨ st ≠ 3 → exec .reinPeerFall s = onward s off) ∧
    (s.dev.paired = true → st = 3 → off.readyNow = false → ∃ d : Dev, exec .reinPeerFall s = onward s d ∧
      d.b Reg.PAIR_STAT_NOT_READY_DROP = true ∧ d.b Reg.PAIR_STAT_PEER_HOLD = false ∧ d.r Reg.PAIR_STAT_STATE = 3 ∧
      d.b Reg.PAIR_STAT_HOLDER = s.dev.b Reg.PAIR_STAT_HOLDER) ∧
    (∀ (h : Health) (v : Snapshot), s.dev.paired = true → st = 3 → off.readyNow = true → s.dev.pair.peer = some h →
      s.dev.pair.verified = some v → ∃ d : Dev, exec .reinPeerFall s = onward s d ∧ d.r Reg.PAIR_STAT_STATE = 4 ∧
        d.b Reg.PAIR_STAT_HOLDER = true ∧ d.b Reg.PAIR_STAT_READY = false ∧ d.ep.lastCommitted = h.lastEpoch ∧
        d.r Reg.PAIR_TAKEOVER_CNT = Nat.min (s.dev.r Reg.PAIR_TAKEOVER_CNT + 1) (2 ^ 32 - 1) ∧
        d.pair.takeover = some ⟨s.dev.r Reg.EPK_NOW, h.lastEpoch, v.epoch, s.dev.r Reg.EPK_NOW + cdiv 66000 s.dev.te,
          s.dev.r Reg.EPK_NOW + cdiv 66000 s.dev.te + 1, false⟩) ∧
    (s.dev.paired = false → s.dev.pair.gapHold = false → exec .reinPeerRise s = onward s up) ∧
    (s.dev.paired = true → s.dev.b Reg.PAIR_STAT_HOLDER = false → st = 5 ∨ (st = 1 ∧ s.dev.r Reg.GLB_BOOT_STAGE = 9) →
      ∃ d : Dev, exec .reinPeerRise s = onward s d ∧ d.r Reg.PAIR_STAT_STATE = 3 ∧ d.b Reg.PAIR_STAT_PEER_HOLD = true ∧
        d.r Reg.GLB_BOOT_STAGE = 10 ∧ d.b Reg.PAIR_STAT_REVERT_PEND = false ∧ d.ep.front.valid = false ∧ d.ost.running = []) ∧
    (s.dev.b Reg.PAIR_STAT_HOLDER = false ∨ s.dev.ep.committedOnce = false ∨ st = 4 ∨ st = 5 →
      exec .reinWatchdog s = onward s s.dev) ∧
    (s.dev.b Reg.PAIR_STAT_HOLDER = true → s.dev.ep.committedOnce = true → st ≠ 4 → st ≠ 5 → ∃ d : Dev,
      exec .reinWatchdog s = onward s d ∧ d.b Reg.PAIR_STAT_HOLDER = false ∧ d.r Reg.PAIR_LAST_CAUSE = 1 ∧
      d.r Reg.GLB_BOOT_STAGE = 4 ∧ d.pair.gapHold = s.dev.pair.driving) ∧
    (s.dev.b Reg.PAIR_STAT_HOLDER = true → ∃ d : Dev, exec .farrierFault s = onward s d ∧
      d.b Reg.PAIR_STAT_HOLDER = false ∧ d.r Reg.PAIR_LAST_CAUSE = 2 ∧ d.r Reg.GLB_BOOT_STAGE = 4 ∧
      d.b Reg.GLB_RST_CAUSE_MODULE = true) ∧
    (s.dev.b Reg.PAIR_STAT_HOLDER = false → s.dev.paired = true → exec .farrierFault s = onward s s.dev) ∧
    (s.dev.b Reg.PAIR_STAT_HOLDER = false ∨ s.dev.pair.driving = true → exec .fieldDieDriveStart s = onward s s.dev) ∧
    (s.dev.b Reg.PAIR_STAT_HOLDER = true → s.dev.pair.driving = false → ∃ d : Dev, exec .fieldDieDriveStart s = onward s d ∧
      d.pair = { s.dev.pair with driving := true, gapHold := false } ∧ d.time.c = Nat.max s.dev.time.c (s.dev.pair.reinC + 1600)) ∧
    (s.dev.r Reg.GLB_BOOT_STAGE ≠ 9 ∨ s.dev.paired = false ∨ s.dev.b Reg.PAIR_STAT_HOLDER = true ∨
      s.dev.b Reg.PAIR_STAT_PEER_HOLD = true ∨ s.dev.preferred = true → exec .startWaitExpire s = onward s s.dev) ∧
    (s.dev.r Reg.GLB_BOOT_STAGE = 9 → s.dev.paired = true → s.dev.b Reg.PAIR_STAT_HOLDER = false →
      s.dev.b Reg.PAIR_STAT_PEER_HOLD = false → s.dev.preferred = false → ∃ d : Dev, exec .startWaitExpire s = onward s d ∧
        d.b Reg.PAIR_STAT_HOLDER = true ∧ d.r Reg.GLB_BOOT_STAGE = 10 ∧ d.r Reg.PAIR_STAT_STATE = 2 ∧ d.boot.cold = true)) ∧
  (∀ (s : State) (w0 : Word) (h : Health) (sh : Shadow) (i : Fin 160) (x : Snapshot),
    let bad := s.dev.inc Reg.PAIR_TACK_CRC_CNT
    (s.dev.paired = false → exec (.healthRecordReceive true w0 h) s = onward s s.dev ∧
      exec (.outputShadowReceive true sh) s = onward s s.dev ∧ exec (.snapshotChunkReceive true i x) s = onward s s.dev ∧
      exec .tackLost s = onward s s.dev) ∧
    (s.dev.paired = true →
      exec (.healthRecordReceive false w0 h) s = onward s bad ∧ exec (.outputShadowReceive false sh) s = onward s bad ∧
      exec (.snapshotChunkReceive false i x) s = onward s bad ∧
      exec .tackLost s = onward s ((s.dev.reach (s.dev.pair.peerC + 4 * s.dev.te * 4 / 5)).w Reg.PAIR_STAT_TACK_LOST 1) ∧
      (s.dev.Sound → ∃ d : Dev, exec (.healthRecordReceive true w0 h) s = onward s d ∧ d.pair.peer = some h ∧
        d.pair.peerC = s.dev.time.c ∧ d.r Reg.PAIR_PEER_HEALTH = w0.toNat ∧
        (h.ready = false → d.pair.peerReadyC = none)) ∧
      (s.dev.r Reg.PAIR_STAT_STATE ≠ 3 → exec (.outputShadowReceive true sh) s = onward s s.dev ∧
        exec (.snapshotChunkReceive true i x) s = onward s s.dev) ∧
      (s.dev.r Reg.PAIR_STAT_STATE = 3 → ∃ d : Dev, exec (.outputShadowReceive true sh) s = onward s d ∧
        d.pair.shadow = some sh ∧ d.pair.shadowC = s.dev.time.c ∧ d.fio.safeLevels = sh.safe ∧ d.mem = s.dev.mem) ∧
      (s.dev.r Reg.PAIR_STAT_STATE = 3 → s.dev.pair.rx = none → i.val + 1 ≠ x.chunks →
        exec (.snapshotChunkReceive true i x) s = onward s { s.dev with pair := { s.dev.pair with rx := some (x, [i.val]) } }) ∧
      (∀ got : List Nat, s.dev.Sound → s.dev.r Reg.PAIR_STAT_STATE = 3 → s.dev.pair.rx = some (x, got) → i.val + 1 = x.chunks →
        ∃ d : Dev, exec (.snapshotChunkReceive true i x) s = onward s d ∧ d.pair.rx = none ∧
          ((∀ j : Nat, j < x.chunks → j = i.val ∨ j ∈ got) → (∀ v : Snapshot, s.dev.pair.verified = some v → v.seq < x.seq) →
            x.compat = s.dev.regWord 0xE0_0028 → x.epoch < 2 ^ 64 → d.pair.verified = some x ∧ d.r Reg.PAIR_SNAP_RX = x.epoch) ∧
          ((∃ j : Nat, j < x.chunks ∧ j ≠ i.val ∧ j ∉ got) → d.pair.verified = s.dev.pair.verified ∧
            d.r Reg.PAIR_SNAP_BAD_CNT = Nat.min (s.dev.r Reg.PAIR_SNAP_BAD_CNT + 1) (2 ^ Reg.PAIR_SNAP_BAD_CNT.width - 1))))) ∧
  (∀ (s : State) (lane : Fin 2) (up : Bool), s.dev.Sound → ∃ d : Dev, exec (.tackLaneChange lane up) s = onward s d ∧
    bitOf (d.r Reg.PAIR_STAT_TACK_UP) lane = up ∧ d.mem = s.dev.mem) ∧
  (∀ s : State,
    (s.dev.pair.sending = none → exec .snapshotSendDone s = onward s s.dev) ∧
    (∀ (x : Snapshot) (c : Nat), s.dev.pair.sending = some (x, c) →
      let ns := x.sendNs (popcount 2 (s.dev.r Reg.PAIR_STAT_TACK_UP))
      exec .snapshotSendDone s = onward s (({ s.dev.reach (c + ns * 4 / 5) with
        pair := { s.dev.pair with sending := none } }.w Reg.PAIR_SNAP_TX x.epoch).w Reg.PAIR_SNAP_NS ns)) ∧
    (s.dev.pair.takeover = none ∨ s.dev.pair.verified = none → exec .snapshotRestoreDone s = onward s s.dev) ∧
    (∀ (t : Takeover) (x : Snapshot), s.dev.pair.takeover = some t → s.dev.pair.verified = some x →
      (t.restored = true → exec .snapshotRestoreDone s = onward s s.dev) ∧
      (t.restored = false → ∃ d : Dev, exec .snapshotRestoreDone s = onward s d ∧
        d.pair.takeover = some { t with restored := true } ∧ d.cal.events = x.events ∧ d.cal.switches = x.switches ∧
        d.prf.axes = x.axes ∧ d.prf.cmds = [] ∧ d.ep.heldFrom = x.heldFrom ∧ d.ep.heldCount = x.heldCount ∧
        d.ep.heldRun = some (x.epoch + 1, 1) ∧ d.ost.delays = [])) ∧
    (∀ l : Nat, s.dev.pair.handover = some l →
      (s.dev.r Reg.PAIR_STAT_STATE ≠ 5 ∨ s.dev.pair.confirmed = true ∨
        s.dev.r Reg.EPK_NOW < l + 2 * s.dev.r Reg.PAIR_CFG_SNAP_PERIOD → exec .handoverAbandon s = onward s s.dev) ∧
      (s.dev.Sound → s.dev.r Reg.PAIR_STAT_STATE = 5 → s.dev.pair.confirmed = false →
        l + 2 * s.dev.r Reg.PAIR_CFG_SNAP_PERIOD ≤ s.dev.r Reg.EPK_NOW → ∃ d : Dev, exec .handoverAbandon s = onward s d ∧
          d.r Reg.PAIR_STAT_STATE = 2 ∧ d.pair.handover = none ∧ d.ep.heldRun = some (l + 1, 1))) ∧
    (s.dev.pair.inhibit = true ∨ s.dev.b Reg.PAIR_CFG_AUTO_REVERT = false ∨ s.dev.paired = false →
      exec .revertDwellExpire s = onward s s.dev) ∧
    (∀ c : Nat, s.dev.r Reg.PAIR_STAT_STATE = 3 → s.dev.preferred = true → s.dev.pair.readyC = some c →
      s.dev.b Reg.PAIR_CFG_AUTO_REVERT = true → s.dev.pair.inhibit = false → s.dev.paired = true →
      c + 800000000 * s.dev.r Reg.PAIR_TIMES_REVERT_DWELL ≤ s.dev.time.c →
      exec .revertDwellExpire s = onward s (s.dev.w Reg.PAIR_STAT_REVERT_PEND 1))) ∧
  (∀ (s : State) (code : BitVec 8) (pass last : Bool),
    (s.dev.r Reg.PAIR_STAT_STATE ≠ 3 → exec (.standbySelftest code pass last) s = onward s s.dev) ∧
    (s.dev.Sound → s.dev.r Reg.PAIR_STAT_STATE = 3 → ∃ d : Dev, exec (.standbySelftest code pass last) s = onward s d ∧
      (pass = false → last = false → d.b Reg.PAIR_SELFTEST_PASS = false ∧ d.r Reg.PAIR_SELFTEST_CODE = code.toNat ∧
        d.pair.rotBad = true) ∧
      (pass = false → last = true → d.b Reg.PAIR_SELFTEST_PASS = false ∧ d.pair.rotBad = false) ∧
      (pass = true → last = true → s.dev.pair.rotBad = false → s.dev.brdStateCode ≠ 4 →
        d.b Reg.PAIR_SELFTEST_PASS = true))) ∧
  (∀ (s : State) (r : JoinRec) (good : Bool),
    let own := r.fprint = s.dev.sec.ownFp.1 ∨ r.fprint = s.dev.sec.ownFp.2
    (s.dev.paired = false ∨ (good = true ∧ own) → exec (.tackJoinRecord r good) s = onward s s.dev) ∧
    (s.dev.paired = true → good = false ∨ ¬own → exec (.tackJoinRecord r good) s = onward s
      ({ s.dev with sec := { s.dev.sec with partnerFp := r.fprint } }.w Reg.SEC_STAT_PARTNER_REPLACED 1))) ∧
  ∀ (s : State) (p : Packet),
    (s.dev.Ready p 0xD00 0 false → exec (.pairInfo p) s = replied s p 0xD00 (s.dev.taken p 0xD00)
      (.ok [s.dev.regWord 0xD0_000C, s.dev.regWord 0xD0_0010, s.dev.r Reg.PAIR_SNAP_RX % 2 ^ 32,
        s.dev.r Reg.PAIR_SNAP_RX / 2 ^ 32 % 2 ^ 32, s.dev.r Reg.PAIR_PEER_HEALTH])) ∧
    (s.dev.Ready p 0xD01 1 true →
      let d := s.dev.taken p 0xD01
      (2 ≤ p.arg 0 → exec (.pairSwitch p) s = replied s p 0xD01 d (.badParam 2)) ∧
      (∀ h : Health, p.arg 0 < 2 → s.dev.r Reg.PAIR_STAT_STATE = 2 → s.dev.pair.peer = some h → h.ready = true →
        exec (.pairSwitch p) s = replied s p 0xD01
          { d with pair := { s.dev.pair with switchReq := some (p.arg 0) } } (.ok [])) ∧
      (p.arg 0 < 2 → s.dev.r Reg.PAIR_STAT_STATE ≠ 2 ∨ s.dev.pair.peer = none →
        exec (.pairSwitch p) s = replied s p 0xD01 d .busy)) ∧
    (s.dev.Ready p 0xD02 1 true →
      let d := s.dev.taken p 0xD02
      (p.arg 0 = 0 → exec (.pairRevert p) s = replied s p 0xD02
        ({ d with pair := { s.dev.pair with inhibit := true } }.w Reg.PAIR_STAT_REVERT_PEND 0) (.ok [])) ∧
      (p.arg 0 = 1 → exec (.pairRevert p) s = replied s p 0xD02
        { d with pair := { s.dev.pair with inhibit := false } } (.ok [])) ∧
      (2 ≤ p.arg 0 → exec (.pairRevert p) s = replied s p 0xD02 d (.badParam 2))) ∧
    (s.dev.Ready p 0xD03 0 true →
      let d := s.dev.taken p 0xD03
      (s.dev.b Reg.PAIR_STAT_NOT_READY_DROP = false ∨ s.dev.b Reg.PAIR_STAT_PEER_HOLD = true ∨
        s.dev.b Reg.PAIR_STAT_HOLDER = true → exec (.pairClaim p) s = replied s p 0xD03 d .busy) ∧
      (s.dev.b Reg.PAIR_STAT_NOT_READY_DROP = true → s.dev.b Reg.PAIR_STAT_PEER_HOLD = false →
        s.dev.b Reg.PAIR_STAT_HOLDER = false → exec (.pairClaim p) s = replied s p 0xD03 d.pairDecide (.ok [])))

/-- Security commands, reset sources and their scopes, boot stages, the boot commands. For packets that are ready the security
commands and the boot commands answer and act as their rules say: a report is signed for at most two requesters, an object is
staged only when it verifies and never over the running bank, counters and lifecycle only rise. Resets with power-on scope
keep fuses, certificate and flash and clear time, memory and engines; a module reset keeps timebase, field dies and a SAFE
Bridle. Each boot stage leads to the next or fails with its code; LOCK_WAIT ends when time is locked, and the role follows.
Clauses that follow a reading of the model: log entries 160, 161, 162, 164, 165, 166, 167, 168. (R492, R553, R555, R556, R558,
R559, R562, R564, R569, R572, R573, R577) -/
def Obligations.SecurityResetAndBoot : Prop :=
  (∀ (s : State) (p : Packet),
    (s.dev.Ready p 0xE00 0 false → exec (.secInfo p) s = replied s p 0xE00 (s.dev.taken p 0xE00)
      (.ok ([s.dev.secStatWord, s.dev.regWord 0xE0_0004, s.dev.regWord 0xE0_0014, s.dev.regWord 0xE0_0018] ++
        (List.range 16).map (fun i => s.dev.r (Reg.SEC_FPRINT i))))) ∧
    (∀ ns : Nat, s.dev.Ready p 0xE01 2 false →
      let d := s.dev.taken p 0xE01
      let live := s.dev.sec.signEnds.filter (fun e => decide (s.dev.time.c < e))
      let stop := live.foldl max s.dev.time.c + min ns 30000000 * 4 / 5
      (2 ≤ live.length → exec (.secAttest p ns) s = replied s p 0xE01 d .busy) ∧
      (live.length < 2 → exec (.secAttest p ns) s = replied s p 0xE01
        ({ d with sec := { s.dev.sec with signEnds := live ++ [stop] } }.inc Reg.SEC_SIGN_CNT_REPORTS)
        (.ok (d.report s.grade (pair64 (p.arg 0) (p.arg 1)))))) ∧
    (s.dev.Ready p 0xE02 0 false → exec (.secCertRead p) s = replied s p 0xE02 (s.dev.taken p 0xE02)
      (.ok (Mem.words s.dev.sec.cert 0 74))) ∧
    (∀ (v : Verdict) (backOk : Bool) (ns : Nat), s.dev.Ready p 0xE10 2 true →
      let d := s.dev.taken p 0xE10
      let off := p.arg 0
      let len := p.arg 1
      let w (o : Nat) : Nat := Mem.word d.hk.swm (off + o)
      let kind := kindOf (w 0)
      let bank := if s.dev.sec.running.contains kind then 1 - s.dev.bankSel kind else 0
      let code := d.verifyCode s.grade kind (Nat.min len (bankAt kind bank).2) w { v with readErr := false }
      let free := s.dev.flashBusy = false ∧ s.dev.rollBusy = false
      (¬free → exec (.secFlashStage p v backOk ns) s = replied s p 0xE10 d .busy) ∧
      (free → 0xC0_0000 ≤ off → exec (.secFlashStage p v backOk ns) s = replied s p 0xE10 d (.badParam 2)) ∧
      (free → off < 0xC0_0000 → len < 4 ∨ 0xC0_0000 < off + len →
        exec (.secFlashStage p v backOk ns) s = replied s p 0xE10 d (.badParam 3)) ∧
      (free → off < 0xC0_0000 → 4 ≤ len → off + len ≤ 0xC0_0000 → code ≠ 0 →
        exec (.secFlashStage p v backOk ns) s = replied s p 0xE10 d (.badParam code)) ∧
      (free → off < 0xC0_0000 → 4 ≤ len → off + len ≤ 0xC0_0000 → code = 0 → ∃ e : Dev,
        exec (.secFlashStage p v backOk ns) s = replied s p 0xE10 e (if backOk then .ok [bank, 0] else .failed 7) ∧
        e.sec.flashEnd = s.dev.time.c + ns * 4 / 5 ∧ e.regs = s.dev.regs ∧
        (∀ a : Nat, a < (bankAt kind bank).1 ∨ (bankAt kind bank).1 + (bankAt kind bank).2 ≤ a →
          Mem.get e.sec.flash a = Mem.get s.dev.sec.flash a) ∧
        (Mem.wf s.dev.sec.flash = true → ∀ i : Nat, i < trailerAt kind w + 272 →
          Mem.get e.sec.flash ((bankAt kind bank).1 + i) = 255 - Mem.get d.hk.swm (off + i)))) ∧
    (∀ ns : Nat, s.dev.Ready p 0xE20 1 true →
      let d := s.dev.taken p 0xE20
      let k := p.arg 0
      let svn := svnOf (s.dev.runningVersion k)
      let done := s.dev.sec.running.contains k = false ∨ s.dev.r (rollbackOf k) = 63 ∨ svn ≤ s.dev.r (rollbackOf k)
      (2 < k → exec (.secRollbackCommit p ns) s = replied s p 0xE20 d (.badParam 2)) ∧
      (k ≤ 2 → s.dev.flashBusy = true → exec (.secRollbackCommit p ns) s = replied s p 0xE20 d .busy) ∧
      (k ≤ 2 → s.dev.flashBusy = false → done → exec (.secRollbackCommit p ns) s = replied s p 0xE20 d (.failed 0)) ∧
      (k ≤ 2 → s.dev.flashBusy = false → ¬done → exec (.secRollbackCommit p ns) s = replied s p 0xE20
        ({ d with sec := { s.dev.sec with rollEnd := s.dev.time.c + ns * 4 / 5 } }.w (rollbackOf k) svn) (.ok [svn]))) ∧
    (s.dev.Ready p 0xE21 1 true →
      let d := s.dev.taken p 0xE21
      let slot := p.arg 0
      let kept := 3 < slot ∨ (s.dev.sec.running.contains 1 = true ∧ s.dev.r Reg.SEC_OWNER_CFG_SLOT = slot) ∨
        (s.dev.sec.running.contains 2 = true ∧ s.dev.r Reg.SEC_OWNER_SPS_SLOT = slot) ∨
        (onesOf 4 (s.dev.r Reg.SEC_OWNER_PROGRAMMED)).filter (fun i => !bitOf (s.dev.r Reg.SEC_OWNER_REVOKED) i) = [slot]
      (kept → exec (.secOwnerRevoke p) s = replied s p 0xE21 d (.badParam 2)) ∧
      (¬kept → exec (.secOwnerRevoke p) s = replied s p 0xE21
        (d.w Reg.SEC_OWNER_REVOKED (setBit (s.dev.r Reg.SEC_OWNER_REVOKED) slot true)) (.ok []))) ∧
    (∀ keys : List (Nat × Bool), s.dev.Ready p 0xE30 (1 + 33 * popcount 4 (p.arg 0)) true →
      let d := s.dev.taken p 0xE30
      let slots := onesOf 4 (p.arg 0)
      (s.dev.r Reg.SEC_STAT_LIFECYCLE ≠ 0 → exec (.secCommission p keys) s = replied s p 0xE30 d .busy) ∧
      (s.dev.r Reg.SEC_STAT_LIFECYCLE = 0 → 15 < p.arg 0 → exec (.secCommission p keys) s = replied s p 0xE30 d (.badParam 2)) ∧
      (s.dev.r Reg.SEC_STAT_LIFECYCLE = 0 → p.arg 0 ≤ 15 → ∀ i : Nat, i < slots.length → (keys.getD i (0, false)).2 = false →
        (∀ j : Nat, j < i → (keys.getD j (0, false)).2 = true) →
        exec (.secCommission p keys) s = replied s p 0xE30 d (.badParam (3 + 33 * i))) ∧
      (s.dev.r Reg.SEC_STAT_LIFECYCLE = 0 → p.arg 0 ≤ 15 → s.dev.Sound →
        (∀ j : Nat, j < slots.length → (keys.getD j (0, false)).2 = true) → ∃ e : Dev,
          exec (.secCommission p keys) s = replied s p 0xE30 e (.ok []) ∧ e.r Reg.SEC_STAT_LIFECYCLE = 1 ∧
          e.r Reg.SEC_OWNER_PROGRAMMED = Nat.lor (s.dev.r Reg.SEC_OWNER_PROGRAMMED) (p.arg 0) % 16 ∧
          (∀ j : Nat, j < slots.length → Tab.look 0 (slots.getD j 0) e.sec.ownerHash = (keys.getD j (0, false)).1) ∧
          ∀ i : Fin 4, bitOf (p.arg 0) i = false → Tab.look 0 i.val e.sec.ownerHash = Tab.look 0 i.val s.dev.sec.ownerHash)) ∧
    (s.dev.Ready p 0xE31 0 true →
      let n := Config.debugNonce s.dev.sec.challenges
      exec (.secDebugChallenge p) s = replied s p 0xE31
        { s.dev.taken p 0xE31 with sec := { s.dev.sec with nonce := some n, challenges := s.dev.sec.challenges + 1 } }
        (.ok [bits n 0 32, bits n 32 32, bits n 64 32, bits n 96 32])) ∧
    (∀ tokenOk : Bool, s.dev.Ready p 0xE32 33 true →
      let d := s.dev.taken p 0xE32
      let all := s.dev.r Reg.BRD_ZONE_DEM = 0xFFFF_FFFF ∧ s.dev.sec.nonce ≠ none
      (¬all → exec (.secDebugUnlock p tokenOk) s = replied s p 0xE32 (d.inc Reg.SEC_DBG_REF_CNT) .busy) ∧
      (all → tokenOk = false → exec (.secDebugUnlock p tokenOk) s = replied s p 0xE32 (d.inc Reg.SEC_DBG_REF_CNT) (.badParam 0)) ∧
      (all → tokenOk = true → exec (.secDebugUnlock p tokenOk) s = replied s p 0xE32
        ((d.w Reg.SEC_STAT_DEBUG_OPEN 1).w Reg.SEC_STAT_DEBUG_OPENED 1) (.ok []))) ∧
    (∀ op : Fin 64,
      (0xE00 + op.val ∈ secOpcodes → exec (.secUnlistedOpcode op p) s = onward s s.dev) ∧
      (0xE00 + op.val ∉ secOpcodes → s.dev.Ready p (0xE00 + op.val) p.params.length false →
        exec (.secUnlistedOpcode op p) s = replied s p (0xE00 + op.val) (s.dev.taken p (0xE00 + op.val)) (.badParam 0))) ∧
    (s.dev.Ready p 0x040 0 false → exec (.devBootInfo p) s = replied s p 0x040 (s.dev.taken p 0x040)
      (.ok [s.dev.regWord 0x30, s.dev.regWord 0x34, s.dev.regWord 0x38, s.dev.regWord 0x3C, s.dev.regWord 0x40,
        s.dev.regWord 0xE0_0004])) ∧
    (s.dev.Ready p 0x041 1 true →
      let d := s.dev.taken p 0x041
      let held := (s.dev.paired = true ∧ s.dev.b Reg.PAIR_STAT_HOLDER = true) ∨ s.dev.flashBusy = true ∨ s.dev.rollBusy = true
      (p.arg 0 ≠ 0x5245_5354 → exec (.devReset p) s = replied s p 0x041 d (.badParam 2)) ∧
      (p.arg 0 = 0x5245_5354 → held → exec (.devReset p) s = replied s p 0x041 d .busy) ∧
      (p.arg 0 = 0x5245_5354 → ¬held → exec (.devReset p) s = replied s p 0x041
        { d with boot := { s.dev.boot with resetAt := some (s.dev.time.c + 80000) } } (.ok []))) ∧
    ∀ op : Fin 16,
      (op.val ≤ 1 → exec (.devUnlistedOpcode op p) s = onward s s.dev) ∧
      (1 < op.val → s.dev.Ready p (0x040 + op.val) p.params.length false →
        exec (.devUnlistedOpcode op p) s = replied s p (0x040 + op.val) (s.dev.taken p (0x040 + op.val)) (.badParam 0))) ∧
  (∀ (s : State) (secondary : Bool), s.dev.Sound →
    let kept (d : Dev) : Prop := d.sec.flash = s.dev.sec.flash ∧ d.sec.cert = s.dev.sec.cert ∧
      d.sec.ownerHash = s.dev.sec.ownerHash ∧ d.r Reg.SEC_STAT_LIFECYCLE = s.dev.r Reg.SEC_STAT_LIFECYCLE ∧
      d.r Reg.SEC_RB_FW = s.dev.r Reg.SEC_RB_FW ∧ d.r Reg.SEC_BOOT_CNT = s.dev.r Reg.SEC_BOOT_CNT
    let anew (d : Dev) : Prop := d.time = {} ∧ d.ep = {} ∧ d.mem = [] ∧ d.hk = {} ∧ d.prf = {} ∧ d.loop = {} ∧ d.brd = {} ∧
      d.pair = {} ∧ d.r Reg.GLB_BOOT_STAGE = 1 ∧ d.b Reg.PAIR_STAT_HOLDER = false ∧ d.r Reg.FIO_OUT = 0 ∧
      d.r Reg.PAIR_LAST_CAUSE = if s.dev.b Reg.PAIR_STAT_HOLDER then 5 else 0
    (∃ d : Dev, exec .powerOnReset s = onward s d ∧ kept d ∧ anew d ∧ d.b Reg.GLB_RST_CAUSE_POR = true ∧ d.boot.nrstLow = true ∧
      d.b Reg.SEC_STAT_DEBUG_OPENED = false) ∧
    (∃ d : Dev, exec .brownout s = onward s d ∧ kept d ∧ anew d ∧ d.b Reg.GLB_RST_CAUSE_BROWNOUT = true ∧
      d.b Reg.GLB_RST_CAUSE_POR = false ∧ d.boot.nrstLow = s.dev.boot.nrstLow ∧
      (s.dev.boot.nrstLow = false → d.r Reg.BRD_STAT_STATE = 1)) ∧
    (∃ d : Dev, exec .nrstAssert s = onward s d ∧ kept d ∧ anew d ∧ d.b Reg.GLB_RST_CAUSE_NRST = true ∧ d.boot.nrstLow = true ∧
      d.r Reg.GLB_RST_CNT_NRST = Nat.min (s.dev.r Reg.GLB_RST_CNT_NRST + 1) 65535) ∧
    (s.dev.boot.nrstLow = false → exec (.nrstRelease secondary) s = onward s s.dev) ∧
    (s.dev.boot.nrstLow = true → ∃ d : Dev, exec (.nrstRelease secondary) s = onward s d ∧ d.boot.nrstLow = false ∧
      d.b Reg.PAIR_STAT_ROLE = secondary ∧ d.r Reg.BRD_STAT_STATE = 1 ∧ d.time = s.dev.time) ∧
    (s.dev.boot.resetAt = none → exec .moduleReset s = onward s s.dev) ∧
    ∀ c : Nat, s.dev.boot.resetAt = some c → ∃ d : Dev, exec .moduleReset s = onward s d ∧
      d.time = { s.dev.time with c := Nat.max s.dev.time.c c } ∧ d.fio = s.dev.fio ∧ d.team = s.dev.team ∧
      d.r Reg.GLB_BOOT_STAGE = 4 ∧ d.b Reg.GLB_RST_CAUSE_MODULE = true ∧ d.b Reg.GLB_RST_CAUSE_CMD = true ∧
      d.r Reg.GLB_RST_CAUSE_REIN_CAUSE = 0 ∧ d.r Reg.FIO_OUT = s.dev.r Reg.FIO_OUT ∧ d.b Reg.PAIR_STAT_HOLDER = false ∧
      d.sec.flash = s.dev.sec.flash ∧ d.r Reg.TB_STATE_STATE = s.dev.r Reg.TB_STATE_STATE ∧ d.ep = {} ∧ d.boot.resetAt = none ∧
      (s.dev.r Reg.BRD_STAT_STATE = 4 → d.brd = s.dev.brd ∧ d.r Reg.BRD_STAT_STATE = 4) ∧
      (s.dev.r Reg.BRD_STAT_STATE ≠ 4 → d.brd = {} ∧ d.r Reg.BRD_STAT_STATE = 1)) ∧
  (∀ (s : State) (x : StageEnd), s.dev.Sound →
    let d := s.dev.reach x.c
    let st := s.dev.r Reg.GLB_BOOT_STAGE
    let runs := s.dev.boot.nrstLow = false ∧ s.dev.r Reg.GLB_BOOT_FAIL_STAGE = 0
    let vd (b : Nat) : Verdict := if b = 0 then x.v0 else x.v1
    let good (k b : Nat) : Prop := d.bankCode s.grade k b (vd b) = 0
    (¬runs → exec (.bootStageEnd x) s = onward s s.dev) ∧
    (runs → st = 1 → exec (.bootStageEnd x) s = onward s
      (((d.w Reg.GLB_SUPPLY_RAILS x.rails).wb Reg.GLB_SUPPLY_VFIELD_TP x.vfieldTp).w Reg.GLB_BOOT_STAGE 2)) ∧
    (runs → st = 2 → exec (.bootStageEnd x) s = onward s (d.w Reg.GLB_BOOT_STAGE 3)) ∧
    (runs → st = 3 → x.sfdpOk = true → exec (.bootStageEnd x) s = onward s (d.w Reg.GLB_BOOT_STAGE 4)) ∧
    (runs → st = 3 → x.sfdpOk = false → ∃ e : Dev, exec (.bootStageEnd x) s = onward s e ∧ e.r Reg.GLB_BOOT_STAGE = 3 ∧
      e.r Reg.GLB_BOOT_FAIL_STAGE = 3 ∧ e.r Reg.GLB_BOOT_FAIL_CODE = 10 ∧ e.time = d.time) ∧
    (runs → st = 4 → ∃ e : Dev, exec (.bootStageEnd x) s = onward s e ∧ e.r Reg.GLB_BOOT_STAGE = 5 ∧
      e.r Reg.SEC_BOOT_CNT = Nat.min (s.dev.r Reg.SEC_BOOT_CNT + 1) (2 ^ 32 - 1) ∧
      (¬good 0 0 → ¬good 0 1 → e.b Reg.SEC_STAT_FW_NONE = true ∧ e.r Reg.SEC_FW_VER = 0 ∧ e.sec.running.contains 0 = false) ∧
      (good 0 (d.firstBank 0) → e.b Reg.SEC_STAT_FW_NONE = false ∧ e.bankSel 0 = d.firstBank 0 ∧
        e.r Reg.SEC_FW_VER = d.bankWord 0 (d.firstBank 0) 8 ∧ e.sec.running.contains 0 = true)) ∧
    (runs → st = 5 → ¬good 1 0 → ¬good 1 1 → ∃ e : Dev, exec (.bootStageEnd x) s = onward s e ∧ e.r Reg.GLB_BOOT_STAGE = 5 ∧
      e.r Reg.GLB_BOOT_FAIL_STAGE = 5 ∧
      e.r Reg.GLB_BOOT_FAIL_CODE = d.bankCode s.grade 1 (1 - d.firstBank 1) (vd (1 - d.firstBank 1))) ∧
    (runs → st = 5 → good 1 (d.firstBank 1) → ∃ e : Dev, exec (.bootStageEnd x) s = onward s e ∧ e.boot.cfg = some x.cfg ∧
      e.boot.servo = true ∧ e.ep.pubs = x.cfg.pubs ∧ e.ep.subs = x.cfg.subs ∧ e.tlb.peers = x.cfg.peers ∧
      e.r Reg.SEC_CFG_VER = d.bankWord 1 (d.firstBank 1) 8 ∧ (x.cfg.regs = [] → e.r Reg.GLB_BOOT_STAGE = 6)) ∧
    (runs → st = 6 → s.dev.brd.tested = false → exec (.bootStageEnd x) s = onward s d) ∧
    (runs → st = 6 → s.dev.brd.tested = true → ¬good 2 0 → ¬good 2 1 → ∃ e : Dev, exec (.bootStageEnd x) s = onward s e ∧
      e.r Reg.GLB_BOOT_STAGE = 7 ∧ e.b Reg.GLB_BOOT_SPS_NONE = true ∧ e.brd = s.dev.brd) ∧
    (runs → st = 6 → s.dev.brd.tested = true → good 2 (d.firstBank 2) → s.dev.brdStateCode = 4 → ∃ e : Dev,
      exec (.bootStageEnd x) s = onward s e ∧ e.r Reg.GLB_BOOT_STAGE = 7 ∧ e.brd = s.dev.brd ∧
      e.r Reg.SEC_SPS_VER = d.bankWord 2 (d.firstBank 2) 8) ∧
    (runs → st = 7 → ∃ e : Dev, exec (.bootStageEnd x) s = onward s e ∧ e.r Reg.GLB_BOOT_STAGE = 8 ∧
      e.boot = { s.dev.boot with phyUp := true } ∧ e.time = d.time ∧
      ∀ y : ConfigImage, s.dev.boot.cfg = some y → e.loop.pubAxes = y.pubAxes ∧ e.cal.pub = y.calPub ∧ e.ost.ioMax = y.ioMax) ∧
    (runs → 8 ≤ st → exec (.bootStageEnd x) s = onward s d)) ∧
  (∀ (s : State) (k : Fin 3) (v : Verdict),
    let due := s.dev.b Reg.GLB_BOOT_BG_VERIFY = true ∧ s.dev.sec.background.contains k.val = true
    let b := 1 - s.dev.bankSel k
    let code := s.dev.bankCode s.grade k b v
    let rest := s.dev.sec.background.filter (fun j => j != k.val)
    (¬due → exec (.bgVerifyDone k v) s = onward s s.dev) ∧
    (due → exec (.bgVerifyDone k v) s = onward s ({ s.dev.w (bankField k b) (if code = 0 then 9 else code) with
      sec := { s.dev.sec with background := rest } }.wb Reg.GLB_BOOT_BG_VERIFY (!rest.isEmpty)))) ∧
  ∀ s : State, s.dev.Sound →
    let due := s.dev.r Reg.GLB_BOOT_STAGE = 8 ∧ s.dev.r Reg.GLB_BOOT_FAIL_STAGE = 0 ∧ s.dev.locked = true ∧
      s.dev.time.pendStep = none ∧ s.dev.r Reg.EPK_ORIGIN ≤ s.dev.nowNs
    (¬due → exec .lockWaitEnd s = onward s s.dev) ∧
    (due → ∃ d : Dev, exec .lockWaitEnd s = onward s d ∧
      (s.dev.paired = false → d.r Reg.PAIR_STAT_STATE = 0 ∧ d.b Reg.PAIR_STAT_HOLDER = true ∧ d.r Reg.GLB_BOOT_STAGE = 10 ∧
        d.boot.cold = true) ∧
      (s.dev.paired = true → s.dev.b Reg.PAIR_STAT_PEER_HOLD = true → d.r Reg.PAIR_STAT_STATE = 3 ∧
        d.b Reg.PAIR_STAT_HOLDER = s.dev.b Reg.PAIR_STAT_HOLDER ∧ d.r Reg.GLB_BOOT_STAGE = 10) ∧
      (s.dev.paired = true → s.dev.b Reg.PAIR_STAT_PEER_HOLD = false → s.dev.preferred = true → d.r Reg.PAIR_STAT_STATE = 2 ∧
        d.b Reg.PAIR_STAT_HOLDER = true ∧ d.r Reg.GLB_BOOT_STAGE = 10 ∧ d.boot.cold = true) ∧
      (s.dev.paired = true → s.dev.b Reg.PAIR_STAT_PEER_HOLD = false → s.dev.preferred = false → d.r Reg.PAIR_STAT_STATE = 1 ∧
        d.r Reg.GLB_BOOT_STAGE = 9))
end

