-- ==== Sys2Proof/Laws/State.lean ====
section
/-!
SUPPORT. Laws/State.lean: what each operation on the register file and the record memory leaves alone, one lemma per operation
and part of the state, so that no proof unfolds a record update.
-/
namespace Sys2Proof.Machine

@[simp] theorem Dev.w_mem (d : Dev) (f : Field) (v : Nat) : (d.w f v).mem = d.mem := rfl
@[simp] theorem Dev.w_host (d : Dev) (f : Field) (v : Nat) : (d.w f v).host = d.host := rfl
@[simp] theorem Dev.w_time (d : Dev) (f : Field) (v : Nat) : (d.w f v).time = d.time := rfl
@[simp] theorem Dev.w_ep (d : Dev) (f : Field) (v : Nat) : (d.w f v).ep = d.ep := rfl
@[simp] theorem Dev.w_tlb (d : Dev) (f : Field) (v : Nat) : (d.w f v).tlb = d.tlb := rfl
@[simp] theorem Dev.w_cal (d : Dev) (f : Field) (v : Nat) : (d.w f v).cal = d.cal := rfl
@[simp] theorem Dev.w_fio (d : Dev) (f : Field) (v : Nat) : (d.w f v).fio = d.fio := rfl
@[simp] theorem Dev.w_loop (d : Dev) (f : Field) (v : Nat) : (d.w f v).loop = d.loop := rfl
@[simp] theorem Dev.w_trc (d : Dev) (f : Field) (v : Nat) : (d.w f v).trc = d.trc := rfl
@[simp] theorem Dev.w_prf (d : Dev) (f : Field) (v : Nat) : (d.w f v).prf = d.prf := rfl
@[simp] theorem Dev.w_team (d : Dev) (f : Field) (v : Nat) : (d.w f v).team = d.team := rfl
@[simp] theorem Dev.w_crd (d : Dev) (f : Field) (v : Nat) : (d.w f v).crd = d.crd := rfl
@[simp] theorem Dev.w_hk (d : Dev) (f : Field) (v : Nat) : (d.w f v).hk = d.hk := rfl
@[simp] theorem Dev.w_ost (d : Dev) (f : Field) (v : Nat) : (d.w f v).ost = d.ost := rfl
@[simp] theorem Dev.w_sage (d : Dev) (f : Field) (v : Nat) : (d.w f v).sage = d.sage := rfl
@[simp] theorem Dev.w_pair (d : Dev) (f : Field) (v : Nat) : (d.w f v).pair = d.pair := rfl
@[simp] theorem Dev.w_pdk (d : Dev) (f : Field) (v : Nat) : (d.w f v).pdk = d.pdk := rfl
@[simp] theorem Dev.w_brd (d : Dev) (f : Field) (v : Nat) : (d.w f v).brd = d.brd := rfl
@[simp] theorem Dev.w_sec (d : Dev) (f : Field) (v : Nat) : (d.w f v).sec = d.sec := rfl
@[simp] theorem Dev.w_boot (d : Dev) (f : Field) (v : Nat) : (d.w f v).boot = d.boot := rfl

@[simp] theorem Dev.wb_mem (d : Dev) (f : Field) (v : Bool) : (d.wb f v).mem = d.mem := rfl
@[simp] theorem Dev.wb_host (d : Dev) (f : Field) (v : Bool) : (d.wb f v).host = d.host := rfl
@[simp] theorem Dev.wb_time (d : Dev) (f : Field) (v : Bool) : (d.wb f v).time = d.time := rfl
@[simp] theorem Dev.wb_ep (d : Dev) (f : Field) (v : Bool) : (d.wb f v).ep = d.ep := rfl
@[simp] theorem Dev.wb_tlb (d : Dev) (f : Field) (v : Bool) : (d.wb f v).tlb = d.tlb := rfl
@[simp] theorem Dev.wb_cal (d : Dev) (f : Field) (v : Bool) : (d.wb f v).cal = d.cal := rfl
@[simp] theorem Dev.wb_fio (d : Dev) (f : Field) (v : Bool) : (d.wb f v).fio = d.fio := rfl
@[simp] theorem Dev.wb_loop (d : Dev) (f : Field) (v : Bool) : (d.wb f v).loop = d.loop := rfl
@[simp] theorem Dev.wb_trc (d : Dev) (f : Field) (v : Bool) : (d.wb f v).trc = d.trc := rfl
@[simp] theorem Dev.wb_prf (d : Dev) (f : Field) (v : Bool) : (d.wb f v).prf = d.prf := rfl
@[simp] theorem Dev.wb_team (d : Dev) (f : Field) (v : Bool) : (d.wb f v).team = d.team := rfl
@[simp] theorem Dev.wb_crd (d : Dev) (f : Field) (v : Bool) : (d.wb f v).crd = d.crd := rfl
@[simp] theorem Dev.wb_hk (d : Dev) (f : Field) (v : Bool) : (d.wb f v).hk = d.hk := rfl
@[simp] theorem Dev.wb_ost (d : Dev) (f : Field) (v : Bool) : (d.wb f v).ost = d.ost := rfl
@[simp] theorem Dev.wb_sage (d : Dev) (f : Field) (v : Bool) : (d.wb f v).sage = d.sage := rfl
@[simp] theorem Dev.wb_pair (d : Dev) (f : Field) (v : Bool) : (d.wb f v).pair = d.pair := rfl
@[simp] theorem Dev.wb_pdk (d : Dev) (f : Field) (v : Bool) : (d.wb f v).pdk = d.pdk := rfl
@[simp] theorem Dev.wb_brd (d : Dev) (f : Field) (v : Bool) : (d.wb f v).brd = d.brd := rfl
@[simp] theorem Dev.wb_sec (d : Dev) (f : Field) (v : Bool) : (d.wb f v).sec = d.sec := rfl
@[simp] theorem Dev.wb_boot (d : Dev) (f : Field) (v : Bool) : (d.wb f v).boot = d.boot := rfl

@[simp] theorem Dev.flag_mem (d : Dev) (f : Field) : (d.flag f).mem = d.mem := rfl
@[simp] theorem Dev.flag_host (d : Dev) (f : Field) : (d.flag f).host = d.host := rfl
@[simp] theorem Dev.flag_time (d : Dev) (f : Field) : (d.flag f).time = d.time := rfl
@[simp] theorem Dev.flag_ep (d : Dev) (f : Field) : (d.flag f).ep = d.ep := rfl
@[simp] theorem Dev.flag_tlb (d : Dev) (f : Field) : (d.flag f).tlb = d.tlb := rfl
@[simp] theorem Dev.flag_cal (d : Dev) (f : Field) : (d.flag f).cal = d.cal := rfl
@[simp] theorem Dev.flag_fio (d : Dev) (f : Field) : (d.flag f).fio = d.fio := rfl
@[simp] theorem Dev.flag_loop (d : Dev) (f : Field) : (d.flag f).loop = d.loop := rfl
@[simp] theorem Dev.flag_trc (d : Dev) (f : Field) : (d.flag f).trc = d.trc := rfl
@[simp] theorem Dev.flag_prf (d : Dev) (f : Field) : (d.flag f).prf = d.prf := rfl
@[simp] theorem Dev.flag_team (d : Dev) (f : Field) : (d.flag f).team = d.team := rfl
@[simp] theorem Dev.flag_crd (d : Dev) (f : Field) : (d.flag f).crd = d.crd := rfl
@[simp] theorem Dev.flag_hk (d : Dev) (f : Field) : (d.flag f).hk = d.hk := rfl
@[simp] theorem Dev.flag_ost (d : Dev) (f : Field) : (d.flag f).ost = d.ost := rfl
@[simp] theorem Dev.flag_sage (d : Dev) (f : Field) : (d.flag f).sage = d.sage := rfl
@[simp] theorem Dev.flag_pair (d : Dev) (f : Field) : (d.flag f).pair = d.pair := rfl
@[simp] theorem Dev.flag_pdk (d : Dev) (f : Field) : (d.flag f).pdk = d.pdk := rfl
@[simp] theorem Dev.flag_brd (d : Dev) (f : Field) : (d.flag f).brd = d.brd := rfl
@[simp] theorem Dev.flag_sec (d : Dev) (f : Field) : (d.flag f).sec = d.sec := rfl
@[simp] theorem Dev.flag_boot (d : Dev) (f : Field) : (d.flag f).boot = d.boot := rfl

@[simp] theorem Dev.add_mem (d : Dev) (f : Field) (n : Nat) : (d.add f n).mem = d.mem := rfl
@[simp] theorem Dev.add_host (d : Dev) (f : Field) (n : Nat) : (d.add f n).host = d.host := rfl
@[simp] theorem Dev.add_time (d : Dev) (f : Field) (n : Nat) : (d.add f n).time = d.time := rfl
@[simp] theorem Dev.add_ep (d : Dev) (f : Field) (n : Nat) : (d.add f n).ep = d.ep := rfl
@[simp] theorem Dev.add_tlb (d : Dev) (f : Field) (n : Nat) : (d.add f n).tlb = d.tlb := rfl
@[simp] theorem Dev.add_cal (d : Dev) (f : Field) (n : Nat) : (d.add f n).cal = d.cal := rfl
@[simp] theorem Dev.add_fio (d : Dev) (f : Field) (n : Nat) : (d.add f n).fio = d.fio := rfl
@[simp] theorem Dev.add_loop (d : Dev) (f : Field) (n : Nat) : (d.add f n).loop = d.loop := rfl
@[simp] theorem Dev.add_trc (d : Dev) (f : Field) (n : Nat) : (d.add f n).trc = d.trc := rfl
@[simp] theorem Dev.add_prf (d : Dev) (f : Field) (n : Nat) : (d.add f n).prf = d.prf := rfl
@[simp] theorem Dev.add_team (d : Dev) (f : Field) (n : Nat) : (d.add f n).team = d.team := rfl
@[simp] theorem Dev.add_crd (d : Dev) (f : Field) (n : Nat) : (d.add f n).crd = d.crd := rfl
@[simp] theorem Dev.add_hk (d : Dev) (f : Field) (n : Nat) : (d.add f n).hk = d.hk := rfl
@[simp] theorem Dev.add_ost (d : Dev) (f : Field) (n : Nat) : (d.add f n).ost = d.ost := rfl
@[simp] theorem Dev.add_sage (d : Dev) (f : Field) (n : Nat) : (d.add f n).sage = d.sage := rfl
@[simp] theorem Dev.add_pair (d : Dev) (f : Field) (n : Nat) : (d.add f n).pair = d.pair := rfl
@[simp] theorem Dev.add_pdk (d : Dev) (f : Field) (n : Nat) : (d.add f n).pdk = d.pdk := rfl
@[simp] theorem Dev.add_brd (d : Dev) (f : Field) (n : Nat) : (d.add f n).brd = d.brd := rfl
@[simp] theorem Dev.add_sec (d : Dev) (f : Field) (n : Nat) : (d.add f n).sec = d.sec := rfl
@[simp] theorem Dev.add_boot (d : Dev) (f : Field) (n : Nat) : (d.add f n).boot = d.boot := rfl

@[simp] theorem Dev.inc_mem (d : Dev) (f : Field) : (d.inc f).mem = d.mem := rfl
@[simp] theorem Dev.inc_host (d : Dev) (f : Field) : (d.inc f).host = d.host := rfl
@[simp] theorem Dev.inc_time (d : Dev) (f : Field) : (d.inc f).time = d.time := rfl
@[simp] theorem Dev.inc_ep (d : Dev) (f : Field) : (d.inc f).ep = d.ep := rfl
@[simp] theorem Dev.inc_tlb (d : Dev) (f : Field) : (d.inc f).tlb = d.tlb := rfl
@[simp] theorem Dev.inc_cal (d : Dev) (f : Field) : (d.inc f).cal = d.cal := rfl
@[simp] theorem Dev.inc_fio (d : Dev) (f : Field) : (d.inc f).fio = d.fio := rfl
@[simp] theorem Dev.inc_loop (d : Dev) (f : Field) : (d.inc f).loop = d.loop := rfl
@[simp] theorem Dev.inc_trc (d : Dev) (f : Field) : (d.inc f).trc = d.trc := rfl
@[simp] theorem Dev.inc_prf (d : Dev) (f : Field) : (d.inc f).prf = d.prf := rfl
@[simp] theorem Dev.inc_team (d : Dev) (f : Field) : (d.inc f).team = d.team := rfl
@[simp] theorem Dev.inc_crd (d : Dev) (f : Field) : (d.inc f).crd = d.crd := rfl
@[simp] theorem Dev.inc_hk (d : Dev) (f : Field) : (d.inc f).hk = d.hk := rfl
@[simp] theorem Dev.inc_ost (d : Dev) (f : Field) : (d.inc f).ost = d.ost := rfl
@[simp] theorem Dev.inc_sage (d : Dev) (f : Field) : (d.inc f).sage = d.sage := rfl
@[simp] theorem Dev.inc_pair (d : Dev) (f : Field) : (d.inc f).pair = d.pair := rfl
@[simp] theorem Dev.inc_pdk (d : Dev) (f : Field) : (d.inc f).pdk = d.pdk := rfl
@[simp] theorem Dev.inc_brd (d : Dev) (f : Field) : (d.inc f).brd = d.brd := rfl
@[simp] theorem Dev.inc_sec (d : Dev) (f : Field) : (d.inc f).sec = d.sec := rfl
@[simp] theorem Dev.inc_boot (d : Dev) (f : Field) : (d.inc f).boot = d.boot := rfl

@[simp] theorem Dev.incWrap_mem (d : Dev) (f : Field) : (d.incWrap f).mem = d.mem := rfl
@[simp] theorem Dev.incWrap_host (d : Dev) (f : Field) : (d.incWrap f).host = d.host := rfl
@[simp] theorem Dev.incWrap_time (d : Dev) (f : Field) : (d.incWrap f).time = d.time := rfl
@[simp] theorem Dev.incWrap_ep (d : Dev) (f : Field) : (d.incWrap f).ep = d.ep := rfl
@[simp] theorem Dev.incWrap_tlb (d : Dev) (f : Field) : (d.incWrap f).tlb = d.tlb := rfl
@[simp] theorem Dev.incWrap_cal (d : Dev) (f : Field) : (d.incWrap f).cal = d.cal := rfl
@[simp] theorem Dev.incWrap_fio (d : Dev) (f : Field) : (d.incWrap f).fio = d.fio := rfl
@[simp] theorem Dev.incWrap_loop (d : Dev) (f : Field) : (d.incWrap f).loop = d.loop := rfl
@[simp] theorem Dev.incWrap_trc (d : Dev) (f : Field) : (d.incWrap f).trc = d.trc := rfl
@[simp] theorem Dev.incWrap_prf (d : Dev) (f : Field) : (d.incWrap f).prf = d.prf := rfl
@[simp] theorem Dev.incWrap_team (d : Dev) (f : Field) : (d.incWrap f).team = d.team := rfl
@[simp] theorem Dev.incWrap_crd (d : Dev) (f : Field) : (d.incWrap f).crd = d.crd := rfl
@[simp] theorem Dev.incWrap_hk (d : Dev) (f : Field) : (d.incWrap f).hk = d.hk := rfl
@[simp] theorem Dev.incWrap_ost (d : Dev) (f : Field) : (d.incWrap f).ost = d.ost := rfl
@[simp] theorem Dev.incWrap_sage (d : Dev) (f : Field) : (d.incWrap f).sage = d.sage := rfl
@[simp] theorem Dev.incWrap_pair (d : Dev) (f : Field) : (d.incWrap f).pair = d.pair := rfl
@[simp] theorem Dev.incWrap_pdk (d : Dev) (f : Field) : (d.incWrap f).pdk = d.pdk := rfl
@[simp] theorem Dev.incWrap_brd (d : Dev) (f : Field) : (d.incWrap f).brd = d.brd := rfl
@[simp] theorem Dev.incWrap_sec (d : Dev) (f : Field) : (d.incWrap f).sec = d.sec := rfl
@[simp] theorem Dev.incWrap_boot (d : Dev) (f : Field) : (d.incWrap f).boot = d.boot := rfl

@[simp] theorem Dev.ws_mem (d : Dev) (f : Field) (z : Int) : (d.ws f z).mem = d.mem := rfl
@[simp] theorem Dev.ws_host (d : Dev) (f : Field) (z : Int) : (d.ws f z).host = d.host := rfl
@[simp] theorem Dev.ws_time (d : Dev) (f : Field) (z : Int) : (d.ws f z).time = d.time := rfl
@[simp] theorem Dev.ws_ep (d : Dev) (f : Field) (z : Int) : (d.ws f z).ep = d.ep := rfl
@[simp] theorem Dev.ws_tlb (d : Dev) (f : Field) (z : Int) : (d.ws f z).tlb = d.tlb := rfl
@[simp] theorem Dev.ws_cal (d : Dev) (f : Field) (z : Int) : (d.ws f z).cal = d.cal := rfl
@[simp] theorem Dev.ws_fio (d : Dev) (f : Field) (z : Int) : (d.ws f z).fio = d.fio := rfl
@[simp] theorem Dev.ws_loop (d : Dev) (f : Field) (z : Int) : (d.ws f z).loop = d.loop := rfl
@[simp] theorem Dev.ws_trc (d : Dev) (f : Field) (z : Int) : (d.ws f z).trc = d.trc := rfl
@[simp] theorem Dev.ws_prf (d : Dev) (f : Field) (z : Int) : (d.ws f z).prf = d.prf := rfl
@[simp] theorem Dev.ws_team (d : Dev) (f : Field) (z : Int) : (d.ws f z).team = d.team := rfl
@[simp] theorem Dev.ws_crd (d : Dev) (f : Field) (z : Int) : (d.ws f z).crd = d.crd := rfl
@[simp] theorem Dev.ws_hk (d : Dev) (f : Field) (z : Int) : (d.ws f z).hk = d.hk := rfl
@[simp] theorem Dev.ws_ost (d : Dev) (f : Field) (z : Int) : (d.ws f z).ost = d.ost := rfl
@[simp] theorem Dev.ws_sage (d : Dev) (f : Field) (z : Int) : (d.ws f z).sage = d.sage := rfl
@[simp] theorem Dev.ws_pair (d : Dev) (f : Field) (z : Int) : (d.ws f z).pair = d.pair := rfl
@[simp] theorem Dev.ws_pdk (d : Dev) (f : Field) (z : Int) : (d.ws f z).pdk = d.pdk := rfl
@[simp] theorem Dev.ws_brd (d : Dev) (f : Field) (z : Int) : (d.ws f z).brd = d.brd := rfl
@[simp] theorem Dev.ws_sec (d : Dev) (f : Field) (z : Int) : (d.ws f z).sec = d.sec := rfl
@[simp] theorem Dev.ws_boot (d : Dev) (f : Field) (z : Int) : (d.ws f z).boot = d.boot := rfl

@[simp] theorem Dev.wmax_mem (d : Dev) (f : Field) (v : Nat) : (d.wmax f v).mem = d.mem := rfl
@[simp] theorem Dev.wmax_host (d : Dev) (f : Field) (v : Nat) : (d.wmax f v).host = d.host := rfl
@[simp] theorem Dev.wmax_time (d : Dev) (f : Field) (v : Nat) : (d.wmax f v).time = d.time := rfl
@[simp] theorem Dev.wmax_ep (d : Dev) (f : Field) (v : Nat) : (d.wmax f v).ep = d.ep := rfl
@[simp] theorem Dev.wmax_tlb (d : Dev) (f : Field) (v : Nat) : (d.wmax f v).tlb = d.tlb := rfl
@[simp] theorem Dev.wmax_cal (d : Dev) (f : Field) (v : Nat) : (d.wmax f v).cal = d.cal := rfl
@[simp] theorem Dev.wmax_fio (d : Dev) (f : Field) (v : Nat) : (d.wmax f v).fio = d.fio := rfl
@[simp] theorem Dev.wmax_loop (d : Dev) (f : Field) (v : Nat) : (d.wmax f v).loop = d.loop := rfl
@[simp] theorem Dev.wmax_trc (d : Dev) (f : Field) (v : Nat) : (d.wmax f v).trc = d.trc := rfl
@[simp] theorem Dev.wmax_prf (d : Dev) (f : Field) (v : Nat) : (d.wmax f v).prf = d.prf := rfl
@[simp] theorem Dev.wmax_team (d : Dev) (f : Field) (v : Nat) : (d.wmax f v).team = d.team := rfl
@[simp] theorem Dev.wmax_crd (d : Dev) (f : Field) (v : Nat) : (d.wmax f v).crd = d.crd := rfl
@[simp] theorem Dev.wmax_hk (d : Dev) (f : Field) (v : Nat) : (d.wmax f v).hk = d.hk := rfl
@[simp] theorem Dev.wmax_ost (d : Dev) (f : Field) (v : Nat) : (d.wmax f v).ost = d.ost := rfl
@[simp] theorem Dev.wmax_sage (d : Dev) (f : Field) (v : Nat) : (d.wmax f v).sage = d.sage := rfl
@[simp] theorem Dev.wmax_pair (d : Dev) (f : Field) (v : Nat) : (d.wmax f v).pair = d.pair := rfl
@[simp] theorem Dev.wmax_pdk (d : Dev) (f : Field) (v : Nat) : (d.wmax f v).pdk = d.pdk := rfl
@[simp] theorem Dev.wmax_brd (d : Dev) (f : Field) (v : Nat) : (d.wmax f v).brd = d.brd := rfl
@[simp] theorem Dev.wmax_sec (d : Dev) (f : Field) (v : Nat) : (d.wmax f v).sec = d.sec := rfl
@[simp] theorem Dev.wmax_boot (d : Dev) (f : Field) (v : Nat) : (d.wmax f v).boot = d.boot := rfl

@[simp] theorem Dev.flagIf_mem (d : Dev) (c : Bool) (f : Field) : (d.flagIf c f).mem = d.mem := by cases c <;> rfl
@[simp] theorem Dev.flagIf_host (d : Dev) (c : Bool) (f : Field) : (d.flagIf c f).host = d.host := by cases c <;> rfl
@[simp] theorem Dev.flagIf_time (d : Dev) (c : Bool) (f : Field) : (d.flagIf c f).time = d.time := by cases c <;> rfl
@[simp] theorem Dev.flagIf_ep (d : Dev) (c : Bool) (f : Field) : (d.flagIf c f).ep = d.ep := by cases c <;> rfl
@[simp] theorem Dev.flagIf_tlb (d : Dev) (c : Bool) (f : Field) : (d.flagIf c f).tlb = d.tlb := by cases c <;> rfl
@[simp] theorem Dev.flagIf_cal (d : Dev) (c : Bool) (f : Field) : (d.flagIf c f).cal = d.cal := by cases c <;> rfl
@[simp] theorem Dev.flagIf_fio (d : Dev) (c : Bool) (f : Field) : (d.flagIf c f).fio = d.fio := by cases c <;> rfl
@[simp] theorem Dev.flagIf_loop (d : Dev) (c : Bool) (f : Field) : (d.flagIf c f).loop = d.loop := by cases c <;> rfl
@[simp] theorem Dev.flagIf_trc (d : Dev) (c : Bool) (f : Field) : (d.flagIf c f).trc = d.trc := by cases c <;> rfl
@[simp] theorem Dev.flagIf_prf (d : Dev) (c : Bool) (f : Field) : (d.flagIf c f).prf = d.prf := by cases c <;> rfl
@[simp] theorem Dev.flagIf_team (d : Dev) (c : Bool) (f : Field) : (d.flagIf c f).team = d.team := by cases c <;> rfl
@[simp] theorem Dev.flagIf_crd (d : Dev) (c : Bool) (f : Field) : (d.flagIf c f).crd = d.crd := by cases c <;> rfl
@[simp] theorem Dev.flagIf_hk (d : Dev) (c : Bool) (f : Field) : (d.flagIf c f).hk = d.hk := by cases c <;> rfl
@[simp] theorem Dev.flagIf_ost (d : Dev) (c : Bool) (f : Field) : (d.flagIf c f).ost = d.ost := by cases c <;> rfl
@[simp] theorem Dev.flagIf_sage (d : Dev) (c : Bool) (f : Field) : (d.flagIf c f).sage = d.sage := by cases c <;> rfl
@[simp] theorem Dev.flagIf_pair (d : Dev) (c : Bool) (f : Field) : (d.flagIf c f).pair = d.pair := by cases c <;> rfl
@[simp] theorem Dev.flagIf_pdk (d : Dev) (c : Bool) (f : Field) : (d.flagIf c f).pdk = d.pdk := by cases c <;> rfl
@[simp] theorem Dev.flagIf_brd (d : Dev) (c : Bool) (f : Field) : (d.flagIf c f).brd = d.brd := by cases c <;> rfl
@[simp] theorem Dev.flagIf_sec (d : Dev) (c : Bool) (f : Field) : (d.flagIf c f).sec = d.sec := by cases c <;> rfl
@[simp] theorem Dev.flagIf_boot (d : Dev) (c : Bool) (f : Field) : (d.flagIf c f).boot = d.boot := by cases c <;> rfl

@[simp] theorem Dev.putMw_regs (d : Dev) (a v : Nat) : (d.putMw a v).regs = d.regs := rfl
@[simp] theorem Dev.putMw_host (d : Dev) (a v : Nat) : (d.putMw a v).host = d.host := rfl
@[simp] theorem Dev.putMw_time (d : Dev) (a v : Nat) : (d.putMw a v).time = d.time := rfl
@[simp] theorem Dev.putMw_ep (d : Dev) (a v : Nat) : (d.putMw a v).ep = d.ep := rfl
@[simp] theorem Dev.putMw_tlb (d : Dev) (a v : Nat) : (d.putMw a v).tlb = d.tlb := rfl
@[simp] theorem Dev.putMw_cal (d : Dev) (a v : Nat) : (d.putMw a v).cal = d.cal := rfl
@[simp] theorem Dev.putMw_fio (d : Dev) (a v : Nat) : (d.putMw a v).fio = d.fio := rfl
@[simp] theorem Dev.putMw_loop (d : Dev) (a v : Nat) : (d.putMw a v).loop = d.loop := rfl
@[simp] theorem Dev.putMw_trc (d : Dev) (a v : Nat) : (d.putMw a v).trc = d.trc := rfl
@[simp] theorem Dev.putMw_prf (d : Dev) (a v : Nat) : (d.putMw a v).prf = d.prf := rfl
@[simp] theorem Dev.putMw_team (d : Dev) (a v : Nat) : (d.putMw a v).team = d.team := rfl
@[simp] theorem Dev.putMw_crd (d : Dev) (a v : Nat) : (d.putMw a v).crd = d.crd := rfl
@[simp] theorem Dev.putMw_hk (d : Dev) (a v : Nat) : (d.putMw a v).hk = d.hk := rfl
@[simp] theorem Dev.putMw_ost (d : Dev) (a v : Nat) : (d.putMw a v).ost = d.ost := rfl
@[simp] theorem Dev.putMw_sage (d : Dev) (a v : Nat) : (d.putMw a v).sage = d.sage := rfl
@[simp] theorem Dev.putMw_pair (d : Dev) (a v : Nat) : (d.putMw a v).pair = d.pair := rfl
@[simp] theorem Dev.putMw_pdk (d : Dev) (a v : Nat) : (d.putMw a v).pdk = d.pdk := rfl
@[simp] theorem Dev.putMw_brd (d : Dev) (a v : Nat) : (d.putMw a v).brd = d.brd := rfl
@[simp] theorem Dev.putMw_sec (d : Dev) (a v : Nat) : (d.putMw a v).sec = d.sec := rfl
@[simp] theorem Dev.putMw_boot (d : Dev) (a v : Nat) : (d.putMw a v).boot = d.boot := rfl
@[simp] theorem Dev.putMw_r (d : Dev) (a v : Nat) (f : Field) : (d.putMw a v).r f = d.r f := rfl

@[simp] theorem ok_eq (s : State) (f : Grade → Dev → Dev) : ok s f = .next { s with dev := f s.grade s.dev } := rfl

end Sys2Proof.Machine
end

