-- ==== Sys2Proof/Laws/Regs.lean ====
section
/-!
SUPPORT. Laws/Regs.lean: the laws of the register file: a field that is set reads back, every other field keeps its value, and the
canonical form is kept.
-/
namespace Sys2Proof.Machine

theorem Regs.wf_nil : Regs.wf [] := List.Pairwise.nil

theorem Regs.get_of_lt {rs : Regs} {k : Nat} (dflt : Nat) (h : ∀ e ∈ rs, k < e.1) : Regs.get rs k dflt = dflt := by
  induction rs with
  | nil => rfl
  | cons e r ih =>
    have he := h e (by simp)
    simp only [Regs.get]
    rw [if_neg (by omega)]
    exact ih (fun x hx => h x (by simp [hx]))

/-- A field that is set reads back. -/
theorem Regs.get_set_same {rs : Regs} (h : Regs.wf rs) (k dflt v : Nat) : Regs.get (Regs.set rs k dflt v) k dflt = v := by
  induction rs with
  | nil => by_cases hv : v = dflt <;> simp [Regs.set, Regs.get, hv]
  | cons e r ih =>
    obtain ⟨j, x⟩ := e
    obtain ⟨hj, hr⟩ := List.pairwise_cons.mp h
    simp only [Regs.set]
    split
    · rename_i hlt
      split
      · rename_i hv
        subst hv
        refine Regs.get_of_lt _ (fun e he => ?_)
        rcases List.mem_cons.mp he with rfl | he
        · exact hlt
        · exact Nat.lt_trans hlt (hj e he)
      · simp [Regs.get]
    · split
      · rename_i hk
        subst hk
        split
        · rename_i hv
          subst hv
          exact Regs.get_of_lt _ (fun e he => hj e he)
        · simp [Regs.get]
      · rename_i hk
        simp only [Regs.get, if_neg hk]
        exact ih hr

/-- Every other key keeps its value. -/
theorem Regs.get_set_other (rs : Regs) {k j : Nat} (hk : j ≠ k) (dflt v e : Nat) :
    Regs.get (Regs.set rs k dflt v) j e = Regs.get rs j e := by
  induction rs with
  | nil => by_cases hv : v = dflt <;> simp [Regs.set, Regs.get, hv, hk]
  | cons x r ih =>
    obtain ⟨i, x⟩ := x
    simp only [Regs.set]
    split
    · split
      · rfl
      · simp [Regs.get, hk]
    · split
      · rename_i hki
        subst hki
        split <;> simp [Regs.get, hk]
      · simp only [Regs.get, ih]

theorem Regs.mem_set {rs : Regs} {k dflt v : Nat} {e : Nat × Nat} (he : e ∈ Regs.set rs k dflt v) :
    e.1 = k ∨ e ∈ rs := by
  induction rs with
  | nil =>
    by_cases hv : v = dflt
    · simp [Regs.set, hv] at he
    · simp only [Regs.set, if_neg hv, List.mem_singleton] at he
      exact .inl (by rw [he])
  | cons x r ih =>
    obtain ⟨j, x⟩ := x
    simp only [Regs.set] at he
    split at he
    · split at he
      · exact .inr he
      · rcases List.mem_cons.mp he with rfl | he
        · exact .inl rfl
        · exact .inr he
    · split at he
      · split at he
        · exact .inr (List.mem_cons_of_mem _ he)
        · rcases List.mem_cons.mp he with rfl | he
          · exact .inl rfl
          · exact .inr (List.mem_cons_of_mem _ he)
      · rcases List.mem_cons.mp he with rfl | he
        · exact .inr (by simp)
        · rcases ih he with h | h
          · exact .inl h
          · exact .inr (List.mem_cons_of_mem _ h)

/-- Setting a field keeps the canonical form. -/
theorem Regs.wf_set {rs : Regs} (h : Regs.wf rs) (k dflt v : Nat) : Regs.wf (Regs.set rs k dflt v) := by
  induction rs with
  | nil => by_cases hv : v = dflt <;> simp [Regs.set, Regs.wf, hv]
  | cons e r ih =>
    obtain ⟨j, x⟩ := e
    have hc := h
    obtain ⟨hj, hr⟩ := List.pairwise_cons.mp h
    simp only [Regs.set]
    split
    · rename_i hlt
      split
      · exact hc
      · refine List.pairwise_cons.mpr ⟨fun e he => ?_, hc⟩
        rcases List.mem_cons.mp he with rfl | he
        · exact hlt
        · exact Nat.lt_trans hlt (hj e he)
    · split
      · rename_i hk
        subst hk
        split
        · exact hr
        · exact List.pairwise_cons.mpr ⟨fun e he => hj e he, hr⟩
      · refine List.pairwise_cons.mpr ⟨fun e he => ?_, ih hr⟩
        rcases Regs.mem_set he with h1 | h1
        · have : ¬ k < j := by assumption
          have : ¬ k = j := by assumption
          show j < e.1
          omega
        · exact hj e h1

/-! ### Fields of a device -/

theorem Dev.r_w_same {d : Dev} (h : Regs.wf d.regs) (f : Field) (v : Nat) : (d.w f v).r f = v % 2 ^ f.width :=
  Regs.get_set_same h _ _ _

theorem Dev.r_w_other (d : Dev) {f g : Field} (h : g.key ≠ f.key) (v : Nat) : (d.w f v).r g = d.r g :=
  Regs.get_set_other _ h _ _ _

theorem Dev.wf_w {d : Dev} (h : Regs.wf d.regs) (f : Field) (v : Nat) : Regs.wf (d.w f v).regs := Regs.wf_set h _ _ _

theorem Dev.Sound.w {d : Dev} (h : d.Sound) (f : Field) (v : Nat) : (d.w f v).Sound :=
  ⟨Regs.wf_set h.regs _ _ _, h.frontRegs, h.mem⟩

end Sys2Proof.Machine
end

