-- ==== Sys2Proof/Laws/Mem.lean ====
section
/-!
SUPPORT. Laws/Mem.lean: the laws of the addressed memories: a byte that is written reads back, every other byte keeps its value,
every operation keeps the canonical form, and a word reads back as it was written.
-/
namespace Sys2Proof.Machine

/-- The canonical form as a relation: addresses strictly rising, no byte 0 listed. -/
theorem Mem.wf_cons {a : Nat} {v : Byte} {r : Mem} :
    Mem.wf ((a, v) :: r) = true ↔ v ≠ 0 ∧ (∀ e ∈ r, a < e.1) ∧ Mem.wf r = true := by
  induction r generalizing a v with
  | nil => simp [Mem.wf]
  | cons e r ih =>
    obtain ⟨b, x⟩ := e
    simp only [Mem.wf, Bool.and_eq_true, bne_iff_ne, decide_eq_true_eq, List.mem_cons, forall_eq_or_imp]
    constructor
    · rintro ⟨⟨hv, hab⟩, hr⟩
      obtain ⟨_, hb, _⟩ := ih.mp hr
      exact ⟨hv, ⟨hab, fun e he => Nat.lt_trans hab (hb e he)⟩, hr⟩
    · rintro ⟨hv, ⟨hab, _⟩, hr⟩
      exact ⟨⟨hv, hab⟩, hr⟩

theorem Mem.get_of_lt {m : Mem} {a : Nat} (h : ∀ e ∈ m, a < e.1) : Mem.get m a = 0 := by
  induction m with
  | nil => rfl
  | cons e r ih =>
    have he := h e (by simp)
    simp only [Mem.get]
    rw [if_neg (by omega)]
    exact ih (fun x hx => h x (by simp [hx]))

/-- A byte that is written reads back. -/
theorem Mem.get_set_same {m : Mem} (h : Mem.wf m = true) (a : Nat) (v : Byte) : Mem.get (Mem.set m a v) a = v := by
  induction m with
  | nil => by_cases hv : v = 0#8 <;> simp [Mem.set, Mem.get, hv]
  | cons e r ih =>
    obtain ⟨b, x⟩ := e
    obtain ⟨hx, hb, hr⟩ := Mem.wf_cons.mp h
    simp only [Mem.set]
    split
    · rename_i hlt
      split
      · rename_i hv
        subst hv
        refine Mem.get_of_lt (fun e he => ?_)
        rcases List.mem_cons.mp he with rfl | he
        · exact hlt
        · exact Nat.lt_trans hlt (hb e he)
      · simp [Mem.get]
    · split
      · rename_i hk
        subst hk
        split
        · rename_i hv
          subst hv
          exact Mem.get_of_lt hb
        · simp [Mem.get]
      · rename_i hk
        simp only [Mem.get, if_neg hk]
        exact ih hr

/-- Every other byte keeps its value. -/
theorem Mem.get_set_other (m : Mem) {a b : Nat} (h : b ≠ a) (v : Byte) : Mem.get (Mem.set m a v) b = Mem.get m b := by
  induction m with
  | nil => by_cases hv : v = 0#8 <;> simp [Mem.set, Mem.get, hv, h]
  | cons e r ih =>
    obtain ⟨i, x⟩ := e
    simp only [Mem.set]
    split
    · split
      · rfl
      · simp [Mem.get, h]
    · split
      · rename_i hk
        subst hk
        split <;> simp [Mem.get, h]
      · simp only [Mem.get, ih]

theorem Mem.mem_set {m : Mem} {a : Nat} {v : Byte} {e : Host.Cell} (he : e ∈ Mem.set m a v) : e.1 = a ∨ e ∈ m := by
  induction m with
  | nil =>
    by_cases hv : v = 0
    · simp [Mem.set, hv] at he
    · simp only [Mem.set, if_neg hv, List.mem_singleton] at he
      exact .inl (by rw [he])
  | cons x r ih =>
    obtain ⟨j, x⟩ := x
    simp only [Mem.set] at he
    split at he
    · split at he
      · exact .inr he
      · rcases List.mem_cons.mp he with rfl | he
        · exact .inl rfl
        · exact .inr he
    · split at he
      · split at he
        · exact .inr (List.mem_cons_of_mem _ he)
        · rcases List.mem_cons.mp he with rfl | he
          · exact .inl rfl
          · exact .inr (List.mem_cons_of_mem _ he)
      · rcases List.mem_cons.mp he with rfl | he
        · exact .inr (by simp)
        · rcases ih he with h | h
          · exact .inl h
          · exact .inr (List.mem_cons_of_mem _ h)

/-- Writing a byte keeps the canonical form. -/
theorem Mem.wf_set {m : Mem} (h : Mem.wf m = true) (a : Nat) (v : Byte) : Mem.wf (Mem.set m a v) = true := by
  induction m with
  | nil => by_cases hv : v = 0#8 <;> simp [Mem.set, Mem.wf, hv]
  | cons e r ih =>
    obtain ⟨b, x⟩ := e
    have hc := h
    obtain ⟨hx, hb, hr⟩ := Mem.wf_cons.mp h
    simp only [Mem.set]
    split
    · rename_i hlt
      split
      · exact hc
      · refine Mem.wf_cons.mpr ⟨by assumption, fun e he => ?_, hc⟩
        rcases List.mem_cons.mp he with rfl | he
        · exact hlt
        · exact Nat.lt_trans hlt (hb e he)
    · split
      · rename_i hk
        subst hk
        split
        · exact hr
        · exact Mem.wf_cons.mpr ⟨by assumption, hb, hr⟩
      · refine Mem.wf_cons.mpr ⟨hx, fun e he => ?_, ih hr⟩
        rcases Mem.mem_set he with h1 | h1
        · have : ¬ a < b := by assumption
          have : ¬ a = b := by assumption
          show b < e.1
          omega
        · exact hb e h1

theorem Mem.wf_write {m : Mem} (h : Mem.wf m = true) (a n v : Nat) : Mem.wf (Mem.write m a n v) = true := by
  induction n generalizing m a v with
  | zero => exact h
  | succ n ih => exact ih (Mem.wf_set h _ _) _ _

theorem Mem.wf_putWord {m : Mem} (h : Mem.wf m = true) (a v : Nat) : Mem.wf (Mem.putWord m a v) = true :=
  Mem.wf_write h _ _ _

theorem Mem.wf_putWords {m : Mem} (h : Mem.wf m = true) (a : Nat) (l : List Nat) : Mem.wf (Mem.putWords m a l) = true := by
  induction l generalizing m a with
  | nil => exact h
  | cons v r ih => exact ih (Mem.wf_putWord h _ _) _

/-- A byte outside the bytes written keeps its value. -/
theorem Mem.get_write_other (m : Mem) (a n v b : Nat) (h : b < a ∨ a + n ≤ b) :
    Mem.get (Mem.write m a n v) b = Mem.get m b := by
  induction n generalizing m a v with
  | zero => rfl
  | succ n ih =>
    show Mem.get (Mem.write (Mem.set m a _) (a + 1) n (v / 256)) b = _
    rw [ih _ _ _ (by omega), Mem.get_set_other _ (by omega)]

/-- Bytes that are written read back. -/
theorem Mem.read_write_same {m : Mem} (h : Mem.wf m = true) (a n v : Nat) :
    Mem.read (Mem.write m a n v) a n = v % 256 ^ n := by
  induction n generalizing m a v with
  | zero => simp [Mem.read, Nat.mod_one]
  | succ n ih =>
    simp only [Mem.read, Mem.write]
    rw [Mem.get_write_other _ _ _ _ _ (.inl (Nat.lt_succ_self a)), Mem.get_set_same h, ih (Mem.wf_set h _ _),
      BitVec.toNat_ofNat, show (256 : Nat) ^ (n + 1) = 256 * 256 ^ n from Nat.pow_succ', Nat.mod_mul]

theorem Mem.read_congr {m k : Mem} (a n : Nat) (h : ∀ b, a ≤ b → b < a + n → Mem.get m b = Mem.get k b) :
    Mem.read m a n = Mem.read k a n := by
  induction n generalizing a with
  | zero => rfl
  | succ n ih =>
    simp only [Mem.read]
    rw [h a (Nat.le_refl _) (by omega), ih (a + 1) (fun b h1 h2 => h b (by omega) (by omega))]

/-- A word reads back. -/
theorem Mem.word_putWord_same {m : Mem} (h : Mem.wf m = true) (a v : Nat) : Mem.word (Mem.putWord m a v) a = v % 2 ^ 32 :=
  Mem.read_write_same h a 4 v

/-- A word that does not overlap the word written keeps its value. -/
theorem Mem.word_putWord_other (m : Mem) {a b : Nat} (v : Nat) (h : b + 4 ≤ a ∨ a + 4 ≤ b) :
    Mem.word (Mem.putWord m a v) b = Mem.word m b :=
  Mem.read_congr b 4 (fun _ _ _ => Mem.get_write_other _ _ _ _ _ (by omega))

theorem Dev.Sound.putMw {d : Dev} (h : d.Sound) (a v : Nat) : (d.putMw a v).Sound :=
  ⟨h.regs, h.frontRegs, Mem.wf_putWord h.mem _ _⟩

theorem Dev.mw_putMw_same {d : Dev} (h : d.Sound) (a v : Nat) : (d.putMw a v).mw a = v % 2 ^ 32 :=
  Mem.word_putWord_same h.mem a v

theorem Dev.mw_putMw_other (d : Dev) {a b : Nat} (v : Nat) (h : b + 4 ≤ a ∨ a + 4 ≤ b) : (d.putMw a v).mw b = d.mw b :=
  Mem.word_putWord_other d.mem v h

end Sys2Proof.Machine
end

