-- ==== Sys2Proof/Laws/Packets.lean ====
section
/-!
SUPPORT. Laws/Packets.lean: what taking and answering a packet leaves alone, and what Farrier does with a packet that is ready to run.
-/
namespace Sys2Proof.Machine

@[simp] theorem Dev.setHostSet_regs (d : Dev) (o : Origin) (h : HostSet) : (d.setHostSet o h).regs = d.regs := by cases o <;> rfl
@[simp] theorem Dev.setHostSet_mem (d : Dev) (o : Origin) (h : HostSet) : (d.setHostSet o h).mem = d.mem := by cases o <;> rfl
@[simp] theorem Dev.setHostSet_time (d : Dev) (o : Origin) (h : HostSet) : (d.setHostSet o h).time = d.time := by cases o <;> rfl
@[simp] theorem Dev.setHostSet_ep (d : Dev) (o : Origin) (h : HostSet) : (d.setHostSet o h).ep = d.ep := by cases o <;> rfl
@[simp] theorem Dev.setHostSet_cal (d : Dev) (o : Origin) (h : HostSet) : (d.setHostSet o h).cal = d.cal := by cases o <;> rfl
@[simp] theorem Dev.setHostSet_fio (d : Dev) (o : Origin) (h : HostSet) : (d.setHostSet o h).fio = d.fio := by cases o <;> rfl
@[simp] theorem Dev.setHostSet_loop (d : Dev) (o : Origin) (h : HostSet) : (d.setHostSet o h).loop = d.loop := by cases o <;> rfl
@[simp] theorem Dev.setHostSet_trc (d : Dev) (o : Origin) (h : HostSet) : (d.setHostSet o h).trc = d.trc := by cases o <;> rfl
@[simp] theorem Dev.setHostSet_prf (d : Dev) (o : Origin) (h : HostSet) : (d.setHostSet o h).prf = d.prf := by cases o <;> rfl
@[simp] theorem Dev.setHostSet_team (d : Dev) (o : Origin) (h : HostSet) : (d.setHostSet o h).team = d.team := by cases o <;> rfl
@[simp] theorem Dev.setHostSet_crd (d : Dev) (o : Origin) (h : HostSet) : (d.setHostSet o h).crd = d.crd := by cases o <;> rfl
@[simp] theorem Dev.setHostSet_ost (d : Dev) (o : Origin) (h : HostSet) : (d.setHostSet o h).ost = d.ost := by cases o <;> rfl
@[simp] theorem Dev.setHostSet_sage (d : Dev) (o : Origin) (h : HostSet) : (d.setHostSet o h).sage = d.sage := by cases o <;> rfl
@[simp] theorem Dev.setHostSet_pair (d : Dev) (o : Origin) (h : HostSet) : (d.setHostSet o h).pair = d.pair := by cases o <;> rfl
@[simp] theorem Dev.setHostSet_pdk (d : Dev) (o : Origin) (h : HostSet) : (d.setHostSet o h).pdk = d.pdk := by cases o <;> rfl
@[simp] theorem Dev.setHostSet_brd (d : Dev) (o : Origin) (h : HostSet) : (d.setHostSet o h).brd = d.brd := by cases o <;> rfl
@[simp] theorem Dev.setHostSet_sec (d : Dev) (o : Origin) (h : HostSet) : (d.setHostSet o h).sec = d.sec := by cases o <;> rfl
@[simp] theorem Dev.setHostSet_boot (d : Dev) (o : Origin) (h : HostSet) : (d.setHostSet o h).boot = d.boot := by cases o <;> rfl
@[simp] theorem Dev.setHostSet_tlb (d : Dev) (o : Origin) (h : HostSet) : (d.setHostSet o h).tlb = d.tlb := by cases o <;> rfl
@[simp] theorem Dev.setHostSet_hk (d : Dev) (o : Origin) (h : HostSet) : (d.setHostSet o h).hk = d.hk := by cases o <;> rfl

@[simp] theorem Dev.takePort_regs (d : Dev) (c : Nat) (ws : List Word) : (d.takePort c ws).regs = d.regs := by
  unfold Dev.takePort; dsimp only; split <;> rfl
@[simp] theorem Dev.takePort_mem (d : Dev) (c : Nat) (ws : List Word) : (d.takePort c ws).mem = d.mem := by
  unfold Dev.takePort; dsimp only; split <;> rfl
@[simp] theorem Dev.takePort_time (d : Dev) (c : Nat) (ws : List Word) : (d.takePort c ws).time = d.time := by
  unfold Dev.takePort; dsimp only; split <;> rfl
@[simp] theorem Dev.takePort_ep (d : Dev) (c : Nat) (ws : List Word) : (d.takePort c ws).ep = d.ep := by
  unfold Dev.takePort; dsimp only; split <;> rfl
@[simp] theorem Dev.takePort_cal (d : Dev) (c : Nat) (ws : List Word) : (d.takePort c ws).cal = d.cal := by
  unfold Dev.takePort; dsimp only; split <;> rfl
@[simp] theorem Dev.takePort_fio (d : Dev) (c : Nat) (ws : List Word) : (d.takePort c ws).fio = d.fio := by
  unfold Dev.takePort; dsimp only; split <;> rfl
@[simp] theorem Dev.takePort_loop (d : Dev) (c : Nat) (ws : List Word) : (d.takePort c ws).loop = d.loop := by
  unfold Dev.takePort; dsimp only; split <;> rfl
@[simp] theorem Dev.takePort_trc (d : Dev) (c : Nat) (ws : List Word) : (d.takePort c ws).trc = d.trc := by
  unfold Dev.takePort; dsimp only; split <;> rfl
@[simp] theorem Dev.takePort_prf (d : Dev) (c : Nat) (ws : List Word) : (d.takePort c ws).prf = d.prf := by
  unfold Dev.takePort; dsimp only; split <;> rfl
@[simp] theorem Dev.takePort_team (d : Dev) (c : Nat) (ws : List Word) : (d.takePort c ws).team = d.team := by
  unfold Dev.takePort; dsimp only; split <;> rfl
@[simp] theorem Dev.takePort_crd (d : Dev) (c : Nat) (ws : List Word) : (d.takePort c ws).crd = d.crd := by
  unfold Dev.takePort; dsimp only; split <;> rfl
@[simp] theorem Dev.takePort_ost (d : Dev) (c : Nat) (ws : List Word) : (d.takePort c ws).ost = d.ost := by
  unfold Dev.takePort; dsimp only; split <;> rfl
@[simp] theorem Dev.takePort_sage (d : Dev) (c : Nat) (ws : List Word) : (d.takePort c ws).sage = d.sage := by
  unfold Dev.takePort; dsimp only; split <;> rfl
@[simp] theorem Dev.takePort_pair (d : Dev) (c : Nat) (ws : List Word) : (d.takePort c ws).pair = d.pair := by
  unfold Dev.takePort; dsimp only; split <;> rfl
@[simp] theorem Dev.takePort_pdk (d : Dev) (c : Nat) (ws : List Word) : (d.takePort c ws).pdk = d.pdk := by
  unfold Dev.takePort; dsimp only; split <;> rfl
@[simp] theorem Dev.takePort_brd (d : Dev) (c : Nat) (ws : List Word) : (d.takePort c ws).brd = d.brd := by
  unfold Dev.takePort; dsimp only; split <;> rfl
@[simp] theorem Dev.takePort_sec (d : Dev) (c : Nat) (ws : List Word) : (d.takePort c ws).sec = d.sec := by
  unfold Dev.takePort; dsimp only; split <;> rfl
@[simp] theorem Dev.takePort_boot (d : Dev) (c : Nat) (ws : List Word) : (d.takePort c ws).boot = d.boot := by
  unfold Dev.takePort; dsimp only; split <;> rfl
@[simp] theorem Dev.takePort_tlb (d : Dev) (c : Nat) (ws : List Word) : (d.takePort c ws).tlb = d.tlb := by
  unfold Dev.takePort; dsimp only; split <;> rfl
@[simp] theorem Dev.takePort_host (d : Dev) (c : Nat) (ws : List Word) : (d.takePort c ws).host = d.host := by
  unfold Dev.takePort; dsimp only; split <;> rfl

@[simp] theorem Dev.taken_regs (d : Dev) (p : Packet) (op : Nat) : (d.taken p op).regs = d.regs := by
  unfold Dev.taken Dev.takeWords Dev.takeEnvelope
  split
  · dsimp only; split <;> simp
  · dsimp only; split <;> simp
@[simp] theorem Dev.taken_mem (d : Dev) (p : Packet) (op : Nat) : (d.taken p op).mem = d.mem := by
  unfold Dev.taken Dev.takeWords Dev.takeEnvelope
  split
  · dsimp only; split <;> simp
  · dsimp only; split <;> simp
@[simp] theorem Dev.taken_time (d : Dev) (p : Packet) (op : Nat) : (d.taken p op).time = d.time := by
  unfold Dev.taken Dev.takeWords Dev.takeEnvelope
  split
  · dsimp only; split <;> simp
  · dsimp only; split <;> simp
@[simp] theorem Dev.taken_ep (d : Dev) (p : Packet) (op : Nat) : (d.taken p op).ep = d.ep := by
  unfold Dev.taken Dev.takeWords Dev.takeEnvelope
  split
  · dsimp only; split <;> simp
  · dsimp only; split <;> simp
@[simp] theorem Dev.taken_cal (d : Dev) (p : Packet) (op : Nat) : (d.taken p op).cal = d.cal := by
  unfold Dev.taken Dev.takeWords Dev.takeEnvelope
  split
  · dsimp only; split <;> simp
  · dsimp only; split <;> simp
@[simp] theorem Dev.taken_fio (d : Dev) (p : Packet) (op : Nat) : (d.taken p op).fio = d.fio := by
  unfold Dev.taken Dev.takeWords Dev.takeEnvelope
  split
  · dsimp only; split <;> simp
  · dsimp only; split <;> simp
@[simp] theorem Dev.taken_loop (d : Dev) (p : Packet) (op : Nat) : (d.taken p op).loop = d.loop := by
  unfold Dev.taken Dev.takeWords Dev.takeEnvelope
  split
  · dsimp only; split <;> simp
  · dsimp only; split <;> simp
@[simp] theorem Dev.taken_trc (d : Dev) (p : Packet) (op : Nat) : (d.taken p op).trc = d.trc := by
  unfold Dev.taken Dev.takeWords Dev.takeEnvelope
  split
  · dsimp only; split <;> simp
  · dsimp only; split <;> simp
@[simp] theorem Dev.taken_prf (d : Dev) (p : Packet) (op : Nat) : (d.taken p op).prf = d.prf := by
  unfold Dev.taken Dev.takeWords Dev.takeEnvelope
  split
  · dsimp only; split <;> simp
  · dsimp only; split <;> simp
@[simp] theorem Dev.taken_team (d : Dev) (p : Packet) (op : Nat) : (d.taken p op).team = d.team := by
  unfold Dev.taken Dev.takeWords Dev.takeEnvelope
  split
  · dsimp only; split <;> simp
  · dsimp only; split <;> simp
@[simp] theorem Dev.taken_crd (d : Dev) (p : Packet) (op : Nat) : (d.taken p op).crd = d.crd := by
  unfold Dev.taken Dev.takeWords Dev.takeEnvelope
  split
  · dsimp only; split <;> simp
  · dsimp only; split <;> simp
@[simp] theorem Dev.taken_ost (d : Dev) (p : Packet) (op : Nat) : (d.taken p op).ost = d.ost := by
  unfold Dev.taken Dev.takeWords Dev.takeEnvelope
  split
  · dsimp only; split <;> simp
  · dsimp only; split <;> simp
@[simp] theorem Dev.taken_sage (d : Dev) (p : Packet) (op : Nat) : (d.taken p op).sage = d.sage := by
  unfold Dev.taken Dev.takeWords Dev.takeEnvelope
  split
  · dsimp only; split <;> simp
  · dsimp only; split <;> simp
@[simp] theorem Dev.taken_pair (d : Dev) (p : Packet) (op : Nat) : (d.taken p op).pair = d.pair := by
  unfold Dev.taken Dev.takeWords Dev.takeEnvelope
  split
  · dsimp only; split <;> simp
  · dsimp only; split <;> simp
@[simp] theorem Dev.taken_pdk (d : Dev) (p : Packet) (op : Nat) : (d.taken p op).pdk = d.pdk := by
  unfold Dev.taken Dev.takeWords Dev.takeEnvelope
  split
  · dsimp only; split <;> simp
  · dsimp only; split <;> simp
@[simp] theorem Dev.taken_brd (d : Dev) (p : Packet) (op : Nat) : (d.taken p op).brd = d.brd := by
  unfold Dev.taken Dev.takeWords Dev.takeEnvelope
  split
  · dsimp only; split <;> simp
  · dsimp only; split <;> simp
@[simp] theorem Dev.taken_sec (d : Dev) (p : Packet) (op : Nat) : (d.taken p op).sec = d.sec := by
  unfold Dev.taken Dev.takeWords Dev.takeEnvelope
  split
  · dsimp only; split <;> simp
  · dsimp only; split <;> simp
@[simp] theorem Dev.taken_boot (d : Dev) (p : Packet) (op : Nat) : (d.taken p op).boot = d.boot := by
  unfold Dev.taken Dev.takeWords Dev.takeEnvelope
  split
  · dsimp only; split <;> simp
  · dsimp only; split <;> simp

@[simp] theorem Dev.taken_r (d : Dev) (p : Packet) (op : Nat) (f : Field) : (d.taken p op).r f = d.r f := by
  simp [Dev.r]

@[simp] theorem Dev.taken_b (d : Dev) (p : Packet) (op : Nat) (f : Field) : (d.taken p op).b f = d.b f := by
  simp [Dev.b]

@[simp] theorem Dev.taken_rs (d : Dev) (p : Packet) (op : Nat) (f : Field) : (d.taken p op).rs f = d.rs f := by
  simp [Dev.rs]

@[simp] theorem Dev.taken_mw (d : Dev) (p : Packet) (op : Nat) (a : Nat) : (d.taken p op).mw a = d.mw a := by
  simp [Dev.mw]

theorem Dev.taken_commanders (d : Dev) (p : Packet) (op : Nat) : (d.taken p op).tlb.commanders = d.tlb.commanders := by
  unfold Dev.taken Dev.takeWords Dev.takeEnvelope
  split
  · dsimp only; split <;> simp
  · dsimp only; split <;> simp

@[simp] theorem Dev.taken_privileged (d : Dev) (p : Packet) (op : Nat) (o : Origin) :
    (d.taken p op).privileged o = d.privileged o := by
  cases o <;> simp [Dev.privileged, Dev.taken_commanders]

@[simp] theorem Dev.postReply_regs (d : Dev) (o : Origin) (r : Reply) : (d.postReply o r).regs = d.regs := by
  cases o <;> simp [Dev.postReply, queueOf]
@[simp] theorem Dev.answer_regs (d : Dev) (o : Origin) (op : Nat) (tag : Word) (q : Bool) (res : Res) :
    (d.answer o op tag q res).regs = d.regs := by
  unfold Dev.answer; split <;> simp
@[simp] theorem Dev.postReply_mem (d : Dev) (o : Origin) (r : Reply) : (d.postReply o r).mem = d.mem := by
  cases o <;> simp [Dev.postReply, queueOf]
@[simp] theorem Dev.answer_mem (d : Dev) (o : Origin) (op : Nat) (tag : Word) (q : Bool) (res : Res) :
    (d.answer o op tag q res).mem = d.mem := by
  unfold Dev.answer; split <;> simp
@[simp] theorem Dev.postReply_time (d : Dev) (o : Origin) (r : Reply) : (d.postReply o r).time = d.time := by
  cases o <;> simp [Dev.postReply, queueOf]
@[simp] theorem Dev.answer_time (d : Dev) (o : Origin) (op : Nat) (tag : Word) (q : Bool) (res : Res) :
    (d.answer o op tag q res).time = d.time := by
  unfold Dev.answer; split <;> simp
@[simp] theorem Dev.postReply_ep (d : Dev) (o : Origin) (r : Reply) : (d.postReply o r).ep = d.ep := by
  cases o <;> simp [Dev.postReply, queueOf]
@[simp] theorem Dev.answer_ep (d : Dev) (o : Origin) (op : Nat) (tag : Word) (q : Bool) (res : Res) :
    (d.answer o op tag q res).ep = d.ep := by
  unfold Dev.answer; split <;> simp
@[simp] theorem Dev.postReply_cal (d : Dev) (o : Origin) (r : Reply) : (d.postReply o r).cal = d.cal := by
  cases o <;> simp [Dev.postReply, queueOf]
@[simp] theorem Dev.answer_cal (d : Dev) (o : Origin) (op : Nat) (tag : Word) (q : Bool) (res : Res) :
    (d.answer o op tag q res).cal = d.cal := by
  unfold Dev.answer; split <;> simp
@[simp] theorem Dev.postReply_fio (d : Dev) (o : Origin) (r : Reply) : (d.postReply o r).fio = d.fio := by
  cases o <;> simp [Dev.postReply, queueOf]
@[simp] theorem Dev.answer_fio (d : Dev) (o : Origin) (op : Nat) (tag : Word) (q : Bool) (res : Res) :
    (d.answer o op tag q res).fio = d.fio := by
  unfold Dev.answer; split <;> simp
@[simp] theorem Dev.postReply_loop (d : Dev) (o : Origin) (r : Reply) : (d.postReply o r).loop = d.loop := by
  cases o <;> simp [Dev.postReply, queueOf]
@[simp] theorem Dev.answer_loop (d : Dev) (o : Origin) (op : Nat) (tag : Word) (q : Bool) (res : Res) :
    (d.answer o op tag q res).loop = d.loop := by
  unfold Dev.answer; split <;> simp
@[simp] theorem Dev.postReply_trc (d : Dev) (o : Origin) (r : Reply) : (d.postReply o r).trc = d.trc := by
  cases o <;> simp [Dev.postReply, queueOf]
@[simp] theorem Dev.answer_trc (d : Dev) (o : Origin) (op : Nat) (tag : Word) (q : Bool) (res : Res) :
    (d.answer o op tag q res).trc = d.trc := by
  unfold Dev.answer; split <;> simp
@[simp] theorem Dev.postReply_prf (d : Dev) (o : Origin) (r : Reply) : (d.postReply o r).prf = d.prf := by
  cases o <;> simp [Dev.postReply, queueOf]
@[simp] theorem Dev.answer_prf (d : Dev) (o : Origin) (op : Nat) (tag : Word) (q : Bool) (res : Res) :
    (d.answer o op tag q res).prf = d.prf := by
  unfold Dev.answer; split <;> simp
@[simp] theorem Dev.postReply_team (d : Dev) (o : Origin) (r : Reply) : (d.postReply o r).team = d.team := by
  cases o <;> simp [Dev.postReply, queueOf]
@[simp] theorem Dev.answer_team (d : Dev) (o : Origin) (op : Nat) (tag : Word) (q : Bool) (res : Res) :
    (d.answer o op tag q res).team = d.team := by
  unfold Dev.answer; split <;> simp
@[simp] theorem Dev.postReply_crd (d : Dev) (o : Origin) (r : Reply) : (d.postReply o r).crd = d.crd := by
  cases o <;> simp [Dev.postReply, queueOf]
@[simp] theorem Dev.answer_crd (d : Dev) (o : Origin) (op : Nat) (tag : Word) (q : Bool) (res : Res) :
    (d.answer o op tag q res).crd = d.crd := by
  unfold Dev.answer; split <;> simp
@[simp] theorem Dev.postReply_ost (d : Dev) (o : Origin) (r : Reply) : (d.postReply o r).ost = d.ost := by
  cases o <;> simp [Dev.postReply, queueOf]
@[simp] theorem Dev.answer_ost (d : Dev) (o : Origin) (op : Nat) (tag : Word) (q : Bool) (res : Res) :
    (d.answer o op tag q res).ost = d.ost := by
  unfold Dev.answer; split <;> simp
@[simp] theorem Dev.postReply_sage (d : Dev) (o : Origin) (r : Reply) : (d.postReply o r).sage = d.sage := by
  cases o <;> simp [Dev.postReply, queueOf]
@[simp] theorem Dev.answer_sage (d : Dev) (o : Origin) (op : Nat) (tag : Word) (q : Bool) (res : Res) :
    (d.answer o op tag q res).sage = d.sage := by
  unfold Dev.answer; split <;> simp
@[simp] theorem Dev.postReply_pair (d : Dev) (o : Origin) (r : Reply) : (d.postReply o r).pair = d.pair := by
  cases o <;> simp [Dev.postReply, queueOf]
@[simp] theorem Dev.answer_pair (d : Dev) (o : Origin) (op : Nat) (tag : Word) (q : Bool) (res : Res) :
    (d.answer o op tag q res).pair = d.pair := by
  unfold Dev.answer; split <;> simp
@[simp] theorem Dev.postReply_pdk (d : Dev) (o : Origin) (r : Reply) : (d.postReply o r).pdk = d.pdk := by
  cases o <;> simp [Dev.postReply, queueOf]
@[simp] theorem Dev.answer_pdk (d : Dev) (o : Origin) (op : Nat) (tag : Word) (q : Bool) (res : Res) :
    (d.answer o op tag q res).pdk = d.pdk := by
  unfold Dev.answer; split <;> simp
@[simp] theorem Dev.postReply_brd (d : Dev) (o : Origin) (r : Reply) : (d.postReply o r).brd = d.brd := by
  cases o <;> simp [Dev.postReply, queueOf]
@[simp] theorem Dev.answer_brd (d : Dev) (o : Origin) (op : Nat) (tag : Word) (q : Bool) (res : Res) :
    (d.answer o op tag q res).brd = d.brd := by
  unfold Dev.answer; split <;> simp
@[simp] theorem Dev.postReply_sec (d : Dev) (o : Origin) (r : Reply) : (d.postReply o r).sec = d.sec := by
  cases o <;> simp [Dev.postReply, queueOf]
@[simp] theorem Dev.answer_sec (d : Dev) (o : Origin) (op : Nat) (tag : Word) (q : Bool) (res : Res) :
    (d.answer o op tag q res).sec = d.sec := by
  unfold Dev.answer; split <;> simp
@[simp] theorem Dev.postReply_boot (d : Dev) (o : Origin) (r : Reply) : (d.postReply o r).boot = d.boot := by
  cases o <;> simp [Dev.postReply, queueOf]
@[simp] theorem Dev.answer_boot (d : Dev) (o : Origin) (op : Nat) (tag : Word) (q : Bool) (res : Res) :
    (d.answer o op tag q res).boot = d.boot := by
  unfold Dev.answer; split <;> simp

@[simp] theorem Dev.answer_r (d : Dev) (o : Origin) (op : Nat) (tag : Word) (q : Bool) (res : Res) (f : Field) :
    (d.answer o op tag q res).r f = d.r f := by simp [Dev.r]

theorem Dev.Takes.not_uncorr {d : Dev} {p : Packet} {op : Nat} (h : d.Takes p op) :
    ((d.takeWords p op).2.getD 1 .good == .uncorr) = false := by
  have hg := h.good
  rcases hm : (d.takeWords p op).2 with _ | ⟨a, _ | ⟨b, l⟩⟩
  · rfl
  · rfl
  · rw [hm] at hg
    cases b <;> simp_all

theorem le_replyLimit {n : Nat} (h : n ≤ 367) (o : Origin) : n ≤ replyLimit o := by
  cases o <;> simp only [replyLimit] <;> omega

theorem needN_eq_none {n : Nat} {ps : List Nat} (h : ps.length = n) : needN n ps = none := by simp [needN, h]

/-- The checks of R533 pass. -/
theorem Dev.Ready.precheck {d : Dev} {g : Grade} {spec : CmdSpec} {p : Packet} {n : Nat} {priv : Bool}
    (h : d.Ready p spec.opcode n priv) (hp : spec.priv = priv)
    (hpl : spec.plainOnly p.origin = false) (hf : spec.fitted g (p.params.map BitVec.toNat) = true)
    (hn : spec.need (p.params.map BitVec.toNat) = none) (hr : spec.replyLen (p.params.map BitVec.toNat) ≤ replyLimit p.origin) :
    (d.taken p spec.opcode).precheck g spec p = none := by
  have hb := h.booted
  have ha := h.active
  have ht : ¬ p.tag.toNat ≥ 0xFFFF_FFF0 := by have := h.tag; omega
  have hpr : (spec.priv && !d.privileged p.origin) = false := by
    subst hp
    cases hs : spec.priv
    · rfl
    · simp [h.rights hs]
  unfold Dev.precheck
  simp only [h.rsv, ht, hpl, hpr, hf, hn, Dev.taken_r, Dev.taken_privileged, hb]
  simp [ha]
  exact hr

/-- A packet that is ready runs its command, whose answer goes to its source. -/
theorem Dev.runPacketW_ready {d : Dev} {g : Grade} {spec : CmdSpec} {p : Packet} {n : Nat} {priv : Bool}
    {body : Dev → List Nat → Dev × Option Res}
    (h : d.Ready p spec.opcode n priv) (hp : spec.priv = priv)
    (hpl : spec.plainOnly p.origin = false) (hf : spec.fitted g (p.params.map BitVec.toNat) = true)
    (hn : spec.need (p.params.map BitVec.toNat) = none) (hr : spec.replyLen (p.params.map BitVec.toNat) ≤ replyLimit p.origin) :
    d.runPacketW g spec p body =
      match body (d.taken p spec.opcode) (p.params.map BitVec.toNat) with
      | (d2, some res) => d2.answer p.origin spec.opcode p.tag p.quietOk res
      | (d2, none) => d2 := by
  have hc := h.takes.take
  have hg := h.takes.good
  have h1 := h.takes.not_uncorr
  have hpre := h.precheck (g := g) (spec := spec) hp hpl hf hn hr
  unfold Dev.taken at hpre
  simp only [Dev.runPacketW, hc, h1, hg, Bool.not_true, if_false, Bool.false_eq_true]
  rw [hpre]
  rfl

/-- A packet that is ready runs its command and answers at once. -/
theorem Dev.runPacket_ready {d : Dev} {g : Grade} {spec : CmdSpec} {p : Packet} {n : Nat} {priv : Bool}
    {body : Dev → List Nat → Dev × Res}
    (h : d.Ready p spec.opcode n priv) (hp : spec.priv = priv)
    (hpl : spec.plainOnly p.origin = false) (hf : spec.fitted g (p.params.map BitVec.toNat) = true)
    (hn : spec.need (p.params.map BitVec.toNat) = none) (hr : spec.replyLen (p.params.map BitVec.toNat) ≤ replyLimit p.origin) :
    d.runPacket g spec p body =
      (body (d.taken p spec.opcode) (p.params.map BitVec.toNat)).1.answer p.origin spec.opcode p.tag p.quietOk
        (body (d.taken p spec.opcode) (p.params.map BitVec.toNat)).2 :=
  Dev.runPacketW_ready h hp hpl hf hn hr

end Sys2Proof.Machine
end

