-- ==== Sys2Proof/Laws/Sound.lean ====
section
/-!
SUPPORT. Laws/Sound.lean: how the soundness of a device passes through the forms of which every operation is built: a change of fields
outside the register file and the record memory, a conditional, a list of actions, and what a Hackney instruction answers. The files
Laws/SoundTime.lean … Laws/SoundHackney.lean then have one lemma for each operation and each command. All are proved alike: unfold
the operation, take its local definitions in order (a device among them is sound, then its value is forgotten), and apply the lemma
of the operation that acts last; a change of an operation's body asks at most for one more lemma in its list.
-/
namespace Sys2Proof.Machine

set_option linter.unusedTactic false
set_option linter.unreachableTactic false

/-- Show a fact about a part first, then go on with the fact alone. -/
theorem Dev.Sound.part {P Q : Prop} (hq : P → Q) (hp : P) : Q := hq hp

/-- A change outside the register file and the record memory that keeps the front's copy of the registers keeps a device sound. -/
theorem Dev.Sound.upd {d : Dev} {host time ep tlb cal fio loop trc prf team crd hk ost sage pair pdk brd sec boot}
    (hep : ep.frontRegs = d.ep.frontRegs) (h : d.Sound) :
    Dev.Sound (Dev.mk d.regs d.mem host time ep tlb cal fio loop trc prf team crd hk ost sage pair pdk brd sec boot) :=
  ⟨h.regs, by rw [hep]; exact h.frontRegs, h.mem⟩

/-- A change of the record memory to one in canonical form. -/
theorem Dev.Sound.updMem {d : Dev} {mem host time ep tlb cal fio loop trc prf team crd hk ost sage pair pdk brd sec boot}
    (hep : ep.frontRegs = d.ep.frontRegs) (h : d.Sound) (hm : Mem.wf mem = true) :
    Dev.Sound (Dev.mk d.regs mem host time ep tlb cal fio loop trc prf team crd hk ost sage pair pdk brd sec boot) :=
  ⟨h.regs, by rw [hep]; exact h.frontRegs, hm⟩

/-- A device whose register file and memory are in canonical form, however it was built. -/
theorem Dev.Sound.fresh {regs mem host time ep tlb cal fio loop trc prf team crd hk ost sage pair pdk brd sec boot}
    (hr : Regs.wf regs) (he : Regs.wf ep.frontRegs) (hm : Mem.wf mem = true) :
    Dev.Sound (Dev.mk regs mem host time ep tlb cal fio loop trc prf team crd hk ost sage pair pdk brd sec boot) := ⟨hr, he, hm⟩

theorem Regs.wf_filter {rs : Regs} (h : Regs.wf rs) (f : Nat × Nat → Bool) : Regs.wf (rs.filter f) := List.Pairwise.filter _ h

theorem Regs.wf_foldl {α : Type} {rs : Regs} {l : List α} {f : Regs → α → Regs} (h : Regs.wf rs)
    (hf : ∀ rs x, Regs.wf rs → Regs.wf (f rs x)) : Regs.wf (l.foldl f rs) := by
  induction l generalizing rs with
  | nil => exact h
  | cons x r ih => exact ih (hf rs x h)

theorem Mem.wf_filter {m : Mem} (h : Mem.wf m = true) (f : Host.Cell → Bool) : Mem.wf (m.filter f) = true := by
  induction m with
  | nil => rfl
  | cons e r ih =>
    obtain ⟨a, v⟩ := e
    obtain ⟨hv, ha, hr⟩ := Mem.wf_cons.mp h
    rw [List.filter_cons]
    split
    · exact Mem.wf_cons.mpr ⟨hv, fun e he => ha e (List.mem_of_mem_filter he), ih hr⟩
    · exact ih hr

theorem Mem.wf_foldl {α : Type} {m : Mem} {l : List α} {f : Mem → α → Mem} (h : Mem.wf m = true)
    (hf : ∀ m x, Mem.wf m = true → Mem.wf (f m x) = true) : Mem.wf (l.foldl f m) = true := by
  induction l generalizing m with
  | nil => exact h
  | cons x r ih => exact ih (hf m x h)

theorem Dev.Sound.ite {c : Prop} [Decidable c] {a b : Dev} (ha : a.Sound) (hb : b.Sound) : Dev.Sound (if c then a else b) := by
  split
  · exact ha
  · exact hb

theorem Dev.Sound.ite_fst {β : Type} {c : Prop} [Decidable c] {a b : Dev × β} (ha : a.1.Sound) (hb : b.1.Sound) :
    Dev.Sound (if c then a else b).1 := by
  split
  · exact ha
  · exact hb

theorem Dev.Sound.of_fst {β : Type} {x : Dev × β} {a : Dev} {b : β} (e : x = (a, b)) (h : x.1.Sound) : a.Sound := by
  rw [e] at h
  exact h

theorem Dev.Sound.each {α : Type} {d : Dev} {l : List α} {f : α → Dev → Dev} (h : d.Sound)
    (hf : ∀ x d, d.Sound → (f x d).Sound) : (d.each l f).Sound := by
  unfold Dev.each
  induction l generalizing d with
  | nil => exact h
  | cons x r ih => exact ih (hf x d h)

theorem Dev.Sound.foldl {α : Type} {d : Dev} {l : List α} {f : Dev → α → Dev} (h : d.Sound)
    (hf : ∀ d x, d.Sound → (f d x).Sound) : (l.foldl f d).Sound := by
  induction l generalizing d with
  | nil => exact h
  | cons x r ih => exact ih (hf d x h)

theorem Dev.Sound.foldl_fst {α β : Type} {y : Dev × β} {l : List α} {f : Dev × β → α → Dev × β} (h : y.1.Sound)
    (hf : ∀ y x, y.1.Sound → (f y x).1.Sound) : (l.foldl f y).1.Sound := by
  induction l generalizing y with
  | nil => exact h
  | cons x r ih => exact ih (hf y x h)

/-- What a Hackney instruction answers is sound: the device with which it goes on is. -/
def HkRes.Sound : HkRes → Prop
  | .go _ _ d => d.Sound
  | _ => True

theorem HkRes.Sound.go {k : HkCore} {n : Nat} {d : Dev} (h : d.Sound) : HkRes.Sound (.go k n d) := h

theorem HkRes.Sound.fault {a b : Nat} : HkRes.Sound (.fault a b) := True.intro

theorem HkRes.Sound.stay : HkRes.Sound .stay := True.intro

theorem HkRes.Sound.other : HkRes.Sound .other := True.intro

theorem HkRes.Sound.of_go {x : HkRes} {k : HkCore} {n : Nat} {d : Dev} (e : x = .go k n d) (h : x.Sound) : d.Sound := by
  rw [e] at h
  exact h

theorem HkRes.Sound.ite {c : Prop} [Decidable c] {a b : HkRes} (ha : a.Sound) (hb : b.Sound) : HkRes.Sound (if c then a else b) := by
  split
  · exact ha
  · exact hb

theorem Dev.Sound.mem_some {k : HkCore} {d : Dev} (h : d.Sound) : ∀ y ∈ some (k, d), y.2.Sound := by
  intro y hy
  obtain rfl := Option.mem_some.mp hy
  exact h

theorem Dev.Sound.mem_none : ∀ y ∈ (none : Option (HkCore × Dev)), y.2.Sound := by
  intro y hy
  exact absurd hy (Option.not_mem_none y)

theorem Dev.Sound.mem_ite {c : Prop} [Decidable c] {a b : Option (HkCore × Dev)} (ha : ∀ y ∈ a, y.2.Sound)
    (hb : ∀ y ∈ b, y.2.Sound) :
    ∀ y ∈ (if c then a else b), y.2.Sound := by
  split
  · exact ha
  · exact hb

theorem Dev.Sound.of_some {x : Option (HkCore × Dev)} {k : HkCore} {d : Dev} (e : x = some (k, d)) (h : ∀ y ∈ x, y.2.Sound) :
    d.Sound := h (k, d) e

/-- What a command answers is sound: the device of the next state is. -/
def Outcome.Sound : Host.Outcome State Fault Refusal → Prop
  | .next t => t.dev.Sound
  | _ => True

theorem Outcome.Sound.ok {s : State} {f : Grade → Dev → Dev} (h : s.dev.Sound) (hf : ∀ g d, d.Sound → (f g d).Sound) :
    Outcome.Sound (ok s f) := hf _ _ h

/-! ### Machine/Ops.lean -/

theorem Dev.wb_sound (d : Dev) (f : Field) (v : Bool) (h_d : d.Sound) : Dev.Sound (Dev.wb d f v) := by
  unfold Dev.wb
  repeat' first
    | with_reducible assumption
    | with_reducible apply Dev.Sound.w

theorem Dev.flag_sound (d : Dev) (f : Field) (h_d : d.Sound) : Dev.Sound (Dev.flag d f) := by
  unfold Dev.flag
  repeat' first
    | with_reducible assumption
    | with_reducible apply Dev.Sound.w

theorem Dev.flagIf_sound (d : Dev) (c : Bool) (f : Field) (h_d : d.Sound) : Dev.Sound (Dev.flagIf d c f) := by
  unfold Dev.flagIf
  repeat' first
    | with_reducible assumption
    | with_reducible apply Dev.flag_sound
    | with_reducible apply Dev.Sound.ite

theorem Dev.add_sound (d : Dev) (f : Field) (n : Nat) (h_d : d.Sound) : Dev.Sound (Dev.add d f n) := by
  unfold Dev.add
  repeat' first
    | with_reducible assumption
    | with_reducible apply Dev.Sound.w

theorem Dev.inc_sound (d : Dev) (f : Field) (h_d : d.Sound) : Dev.Sound (Dev.inc d f) := by
  unfold Dev.inc
  repeat' first
    | with_reducible assumption
    | with_reducible apply Dev.add_sound

theorem Dev.incWrap_sound (d : Dev) (f : Field) (h_d : d.Sound) : Dev.Sound (Dev.incWrap d f) := by
  unfold Dev.incWrap
  repeat' first
    | with_reducible assumption
    | with_reducible apply Dev.Sound.w

theorem Dev.ws_sound (d : Dev) (f : Field) (z : Int) (h_d : d.Sound) : Dev.Sound (Dev.ws d f z) := by
  unfold Dev.ws
  repeat' first
    | with_reducible assumption
    | with_reducible apply Dev.Sound.w

theorem Dev.wmax_sound (d : Dev) (f : Field) (v : Nat) (h_d : d.Sound) : Dev.Sound (Dev.wmax d f v) := by
  unfold Dev.wmax
  repeat' first
    | with_reducible assumption
    | with_reducible apply Dev.Sound.w

theorem Dev.putFields_sound (d : Dev) (fs : List Field) (hi : Bool) (v : Nat) (h_d : d.Sound) :
    Dev.Sound (Dev.putFields d fs hi v) := by
  unfold Dev.putFields
  repeat' first
    | with_reducible assumption
    | refine fun _ => ?_
    | with_reducible apply Dev.Sound.w
    | with_reducible apply Dev.Sound.ite
    | with_reducible apply Dev.Sound.each

theorem Dev.putReg_sound (d : Dev) (a v : Nat) (h_d : d.Sound) : Dev.Sound (Dev.putReg d a v) := by
  unfold Dev.putReg
  repeat' first
    | with_reducible assumption
    | with_reducible apply Dev.putFields_sound
    | split

theorem Dev.setHostSet_sound (d : Dev) (o : Origin) (h : HostSet) (h_d : d.Sound) : Dev.Sound (Dev.setHostSet d o h) := by
  unfold Dev.setHostSet
  repeat' first
    | with_reducible assumption
    | (extract_lets +onlyGivenNames -underBinder y; clear_value y)
    | fail_if_no_progress (with_reducible refine Dev.Sound.upd rfl ?_)
    | split

theorem Dev.countViolation_sound (d : Dev) (x0 : Origin) (h_d : d.Sound) : Dev.Sound (Dev.countViolation d x0) := by
  unfold Dev.countViolation
  repeat' first
    | with_reducible assumption
    | with_reducible apply Dev.inc_sound
    | split

theorem Dev.trigger_sound (d : Dev) (o : Origin) (v : Nat) (h_d : d.Sound) : Dev.Sound (Dev.trigger d o v) := by
  unfold Dev.trigger
  repeat' first
    | with_reducible assumption
    | (extract_lets +onlyGivenNames -underBinder y; clear_value y)
    | fail_if_no_progress (with_reducible refine Dev.Sound.upd rfl ?_)
    | split

theorem Dev.postReply_sound (d : Dev) (o : Origin) (r : Reply) (h_d : d.Sound) : Dev.Sound (Dev.postReply d o r) := by
  unfold Dev.postReply
  repeat' first
    | with_reducible assumption
    | (extract_lets +onlyGivenNames -underBinder y; clear_value y)
    | with_reducible apply Dev.setHostSet_sound
    | fail_if_no_progress (with_reducible refine Dev.Sound.upd rfl ?_)
    | split

theorem Dev.answer_sound (d : Dev) (o : Origin) (opcode : Nat) (tag : Word) (quietOk : Bool) (res : Res) (h_d : d.Sound) :
    Dev.Sound (Dev.answer d o opcode tag quietOk res) := by
  unfold Dev.answer
  repeat' first
    | with_reducible assumption
    | with_reducible apply Dev.postReply_sound
    | with_reducible apply Dev.Sound.ite

theorem Dev.takePort_sound (d : Dev) (c : Nat) (ws : List Word) (h_d : d.Sound) : Dev.Sound (Dev.takePort d c ws) := by
  unfold Dev.takePort
  repeat' first
    | with_reducible assumption
    | (extract_lets +onlyGivenNames -underBinder y; clear_value y)
    | fail_if_no_progress (with_reducible refine Dev.Sound.upd rfl ?_)
    | with_reducible apply Dev.Sound.ite

theorem Dev.takeEnvelope_sound (d : Dev) (origin seq : Nat) (priv : Bool) (ws : List Word) (h_d : d.Sound) :
    Dev.Sound (Dev.takeEnvelope d origin seq priv ws) := by
  unfold Dev.takeEnvelope
  repeat' first
    | with_reducible assumption
    | (extract_lets +onlyGivenNames -underBinder y; clear_value y)
    | fail_if_no_progress (with_reducible refine Dev.Sound.upd rfl ?_)

theorem Dev.takeWords_sound (d : Dev) (p : Packet) (opcode : Nat) (h_d : d.Sound) : Dev.Sound (Dev.takeWords d p opcode).1 := by
  unfold Dev.takeWords
  repeat' first
    | with_reducible assumption
    | (extract_lets +onlyGivenNames -underBinder y; clear_value y)
    | with_reducible apply Dev.setHostSet_sound
    | with_reducible apply Dev.takeEnvelope_sound
    | with_reducible apply Dev.takePort_sound
    | with_reducible apply Dev.Sound.ite_fst
    | split

theorem Dev.runPacketW_sound (d : Dev) (g : Grade) (spec : CmdSpec) (p : Packet) (body : Dev → List Nat → Dev × Option Res)
    (h_d : d.Sound) (h_body : ∀ z0 z1, Dev.Sound z0 → Dev.Sound (body z0 z1).1) :
    Dev.Sound (Dev.runPacketW d g spec p body) := by
  unfold Dev.runPacketW
  repeat' first
    | with_reducible assumption
    | with_reducible apply Dev.answer_sound
    | with_reducible apply Dev.countViolation_sound
    | with_reducible apply Dev.takeWords_sound
    | with_reducible apply Dev.Sound.ite
    | with_reducible apply h_body
    | (with_reducible refine Dev.Sound.of_fst (by assumption) ?_)
    | split

theorem Dev.runPacket_sound (d : Dev) (g : Grade) (spec : CmdSpec) (p : Packet) (body : Dev → List Nat → Dev × Res)
    (h_d : d.Sound) (h_body : ∀ z0 z1, Dev.Sound z0 → Dev.Sound (body z0 z1).1) :
    Dev.Sound (Dev.runPacket d g spec p body) := by
  unfold Dev.runPacket
  repeat' first
    | with_reducible assumption
    | with_reducible apply Dev.runPacketW_sound

theorem Dev.wait_sound (d : Dev) (spec : CmdSpec) (p : Packet) (key aux : Nat) (h_d : d.Sound) :
    Dev.Sound (Dev.wait d spec p key aux) := by
  unfold Dev.wait
  repeat' first
    | with_reducible assumption
    | (extract_lets +onlyGivenNames -underBinder y; clear_value y)
    | fail_if_no_progress (with_reducible refine Dev.Sound.upd rfl ?_)

theorem Dev.answerOut_sound (d : Dev) (x : Outstanding) (opcode : Nat) (res : Res) (h_d : d.Sound) :
    Dev.Sound (Dev.answerOut d x opcode res) := by
  unfold Dev.answerOut
  repeat' first
    | with_reducible assumption
    | with_reducible apply Dev.answer_sound
    | with_reducible apply Dev.Sound.ite

theorem Dev.settle_sound (d : Dev) (opcode key : Nat) (res : Res) (h_d : d.Sound) : Dev.Sound (Dev.settle d opcode key res) := by
  unfold Dev.settle
  repeat' first
    | with_reducible assumption
    | refine fun _ => ?_
    | (extract_lets +onlyGivenNames -underBinder y; first
        | (refine Dev.Sound.part (P := Dev.Sound (by apply y)) (fun _ => ?_) ?_ <;> [clear_value y; subst y])
        | clear_value y)
    | with_reducible apply Dev.answerOut_sound
    | fail_if_no_progress (with_reducible refine Dev.Sound.upd rfl ?_)
    | with_reducible apply Dev.Sound.each

theorem Dev.countPath_sound (d : Dev) (x0 : Path) (h_d : d.Sound) : Dev.Sound (Dev.countPath d x0) := by
  unfold Dev.countPath
  repeat' first
    | with_reducible assumption
    | with_reducible apply Dev.inc_sound
    | split

theorem Dev.access_sound (d : Dev) (path : Path) (priv present : Bool) (f : Dev → Dev)
    (h_d : d.Sound) (h_f : ∀ z0, Dev.Sound z0 → Dev.Sound (f z0)) :
    Dev.Sound (Dev.access d path priv present f) := by
  unfold Dev.access
  repeat' first
    | with_reducible assumption
    | with_reducible apply Dev.countPath_sound
    | with_reducible apply Dev.Sound.ite
    | with_reducible apply h_f

theorem Dev.queueTrigger_sound (d : Dev) (o : Origin) (q : Nat) (h_d : d.Sound) : Dev.Sound (Dev.queueTrigger d o q) := by
  unfold Dev.queueTrigger
  repeat' first
    | with_reducible assumption
    | with_reducible apply Dev.trigger_sound
    | split

theorem Dev.putQueue_sound (d : Dev) (o : Origin) (q : Nat) (x : HQueue) (h_d : d.Sound) : Dev.Sound (Dev.putQueue d o q x) := by
  unfold Dev.putQueue
  repeat' first
    | with_reducible assumption
    | (extract_lets +onlyGivenNames -underBinder y; first
        | (refine Dev.Sound.part (P := Dev.Sound (by apply y)) (fun _ => ?_) ?_ <;> [clear_value y; subst y])
        | clear_value y)
    | with_reducible apply Dev.queueTrigger_sound
    | with_reducible apply Dev.setHostSet_sound
    | with_reducible apply Dev.Sound.ite

theorem Dev.readerGets_sound (d : Dev) (o : Origin) (ws : List Word) (h_d : d.Sound) : Dev.Sound (Dev.readerGets d o ws) := by
  unfold Dev.readerGets
  repeat' first
    | with_reducible assumption
    | (extract_lets +onlyGivenNames -underBinder y; clear_value y)
    | fail_if_no_progress (with_reducible refine Dev.Sound.upd rfl ?_)

theorem Dev.popRead_sound (d : Dev) (o : Origin) (q : Nat) (got : List Word) (marks : List EccMark) (n : Nat) (h_d : d.Sound) :
    Dev.Sound (Dev.popRead d o q got marks n) := by
  unfold Dev.popRead
  repeat' first
    | with_reducible assumption
    | (extract_lets +onlyGivenNames -underBinder y;
       refine Dev.Sound.part (P := Dev.Sound (by apply y)) (fun _ => ?_) ?_ <;> [clear_value y; subst y])
    | with_reducible apply Dev.putQueue_sound
    | with_reducible apply Dev.readerGets_sound
    | split

theorem Dev.writeReply_sound (d : Dev) (o : Origin) (q : Nat) (ws : List Word) (h_d : d.Sound) :
    Dev.Sound (Dev.writeReply d o q ws) := by
  unfold Dev.writeReply
  repeat' first
    | with_reducible assumption
    | (extract_lets +onlyGivenNames -underBinder y; first
        | (refine Dev.Sound.part (P := Dev.Sound (by apply y)) (fun _ => ?_) ?_ <;> [clear_value y; subst y])
        | clear_value y)
    | with_reducible apply Dev.popRead_sound
    | with_reducible apply Dev.setHostSet_sound
    | with_reducible apply Dev.trigger_sound
    | split

theorem Dev.notice_sound (d : Dev) (o : Origin) (kind : Nat) (data : List Nat) (h_d : d.Sound) :
    Dev.Sound (Dev.notice d o kind data) := by
  unfold Dev.notice
  repeat' first
    | with_reducible assumption
    | (extract_lets +onlyGivenNames -underBinder y; clear_value y)
    | with_reducible apply Dev.putQueue_sound
    | with_reducible apply Dev.writeReply_sound
    | with_reducible apply Dev.Sound.ite

theorem Dev.withHealth_sound (d : Dev) (f : Dev → Dev) (h_d : d.Sound) (h_f : ∀ z0, Dev.Sound z0 → Dev.Sound (f z0)) :
    Dev.Sound (Dev.withHealth d f) := by
  unfold Dev.withHealth
  repeat' first
    | with_reducible assumption
    | refine fun _ => ?_
    | (extract_lets +onlyGivenNames -underBinder y; first
        | (refine Dev.Sound.part (P := Dev.Sound (by apply y)) (fun _ => ?_) ?_ <;> [clear_value y; subst y])
        | clear_value y)
    | with_reducible apply Dev.notice_sound
    | with_reducible apply Dev.trigger_sound
    | with_reducible apply Dev.Sound.ite
    | with_reducible apply Dev.Sound.each
    | with_reducible apply h_f

theorem Dev.pins_sound (d : Dev) (h_d : d.Sound) : Dev.Sound (Dev.pins d) := by
  unfold Dev.pins
  repeat' first
    | with_reducible assumption
    | refine fun _ => ?_
    | with_reducible apply Dev.wb_sound
    | with_reducible apply Dev.withHealth_sound

end Sys2Proof.Machine
end

