-- ==== Sys2Proof/Laws/SoundTime.lean ====
section
/-!
SUPPORT. Laws/SoundTime.lean: the operations and commands of the timebase, the epochs, the field I/O and the feeds keep a device
sound.
-/
namespace Sys2Proof.Machine

set_option linter.unusedTactic false
set_option linter.unreachableTactic false

/-! ### Machine/Time.lean -/

theorem Dev.reach_sound (d : Dev) (c : Nat) (h_d : d.Sound) : Dev.Sound (Dev.reach d c) := by
  unfold Dev.reach
  repeat' first
    | with_reducible assumption
    | (extract_lets +onlyGivenNames -underBinder y; clear_value y)
    | fail_if_no_progress (with_reducible refine Dev.Sound.upd rfl ?_)

theorem Dev.enter_sound (d : Dev) (st : Nat) (h_d : d.Sound) : Dev.Sound (Dev.enter d st) := by
  unfold Dev.enter
  repeat' first
    | with_reducible assumption
    | (extract_lets +onlyGivenNames -underBinder y; first
        | (refine Dev.Sound.part (P := Dev.Sound (by apply y)) (fun _ => ?_) ?_ <;> [clear_value y; subst y])
        | clear_value y)
    | with_reducible apply Dev.wb_sound
    | with_reducible apply Dev.Sound.w
    | fail_if_no_progress (with_reducible refine Dev.Sound.upd rfl ?_)

theorem Dev.setRate_sound (d : Dev) (r : Int) (h_d : d.Sound) : Dev.Sound (Dev.setRate d r) := by
  unfold Dev.setRate
  repeat' first
    | with_reducible assumption
    | (extract_lets +onlyGivenNames -underBinder y; first
        | (refine Dev.Sound.part (P := Dev.Sound (by apply y)) (fun _ => ?_) ?_ <;> [clear_value y; subst y])
        | clear_value y)
    | with_reducible apply Dev.flagIf_sound
    | fail_if_no_progress (with_reducible refine Dev.Sound.upd rfl ?_)

theorem Dev.epochsAfterRestep_sound (d : Dev) (h_d : d.Sound) : Dev.Sound (Dev.epochsAfterRestep d) := by
  unfold Dev.epochsAfterRestep
  repeat' first
    | with_reducible assumption
    | (extract_lets +onlyGivenNames -underBinder y; first
        | (refine Dev.Sound.part (P := Dev.Sound (by apply y)) (fun _ => ?_) ?_ <;> [clear_value y; subst y])
        | (refine Dev.Sound.part (P := EpochState.frontRegs y = EpochState.frontRegs y) (fun _ => ?_) rfl; subst y)
        | clear_value y)
    | with_reducible apply Dev.flag_sound
    | with_reducible apply Dev.Sound.w
    | fail_if_no_progress (with_reducible refine Dev.Sound.upd rfl ?_)
    | with_reducible apply Dev.Sound.ite

theorem Dev.idle_sound (d : Dev) (h_d : d.Sound) : Dev.Sound (Dev.idle d) := by
  unfold Dev.idle
  repeat' first
    | with_reducible assumption
    | with_reducible apply Dev.reach_sound
    | with_reducible apply Dev.Sound.ite

theorem Dev.ratePoint_sound (d : Dev) (h_d : d.Sound) : Dev.Sound (Dev.ratePoint d) := by
  unfold Dev.ratePoint
  repeat' first
    | with_reducible assumption
    | (extract_lets +onlyGivenNames -underBinder y; first
        | (refine Dev.Sound.part (P := Dev.Sound (by apply y)) (fun _ => ?_) ?_ <;> [clear_value y; subst y])
        | clear_value y)
    | with_reducible apply Dev.epochsAfterRestep_sound
    | with_reducible apply Dev.flag_sound
    | with_reducible apply Dev.inc_sound
    | with_reducible apply Dev.reach_sound
    | with_reducible apply Dev.ws_sound
    | fail_if_no_progress (with_reducible refine Dev.Sound.upd rfl ?_)
    | with_reducible apply Dev.Sound.ite

theorem execRatePoint_sound (s : State) (h_s : s.dev.Sound) : Outcome.Sound (execRatePoint s) := by
  unfold execRatePoint
  repeat' first
    | with_reducible assumption
    | refine fun _ => ?_
    | with_reducible apply Dev.ratePoint_sound
    | with_reducible refine Outcome.Sound.ok h_s ?_

theorem Dev.setPtp_sound (d : Dev) (p : Nat) (x : PtpPort) (h_d : d.Sound) : Dev.Sound (Dev.setPtp d p x) := by
  unfold Dev.setPtp
  repeat' first
    | with_reducible assumption
    | (extract_lets +onlyGivenNames -underBinder y; clear_value y)
    | fail_if_no_progress (with_reducible refine Dev.Sound.upd rfl ?_)

theorem Dev.ptpSend_sound (d : Dev) (p : Nat) (m : PtpMsg) (h_d : d.Sound) : Dev.Sound (Dev.ptpSend d p m) := by
  unfold Dev.ptpSend
  repeat' first
    | with_reducible assumption
    | (extract_lets +onlyGivenNames -underBinder y; clear_value y)
    | fail_if_no_progress (with_reducible refine Dev.Sound.upd rfl ?_)

theorem Dev.ptpAccept_sound (d : Dev) (m : PtpMsg) (h_d : d.Sound) : Dev.Sound (Dev.ptpAccept d m).1 := by
  unfold Dev.ptpAccept
  repeat' first
    | with_reducible assumption
    | (extract_lets +onlyGivenNames -underBinder y;
       refine Dev.Sound.part (P := Dev.Sound (by apply y)) (fun _ => ?_) ?_ <;> [clear_value y; subst y])
    | with_reducible apply Dev.add_sound
    | with_reducible apply Dev.inc_sound
    | with_reducible apply Dev.Sound.ite_fst

theorem Dev.ptpForward_sound (d : Dev) (p : Nat) (m : PtpMsg) (h_d : d.Sound) : Dev.Sound (Dev.ptpForward d p m) := by
  unfold Dev.ptpForward
  repeat' first
    | with_reducible assumption
    | with_reducible apply Dev.ptpSend_sound
    | with_reducible apply Dev.Sound.ite

theorem Dev.showRoles_sound (d : Dev) (h_d : d.Sound) : Dev.Sound (Dev.showRoles d) := by
  unfold Dev.showRoles
  repeat' first
    | with_reducible assumption
    | refine fun _ => ?_
    | (extract_lets +onlyGivenNames -underBinder y; clear_value y)
    | with_reducible apply Dev.Sound.w
    | with_reducible apply Dev.Sound.each

theorem Dev.selfSelected_sound (d : Dev) (st : Nat) (h_d : d.Sound) : Dev.Sound (Dev.bestMaster.selfSelected d st) := by
  unfold Dev.bestMaster.selfSelected
  repeat' first
    | with_reducible assumption
    | (extract_lets +onlyGivenNames -underBinder y; first
        | (refine Dev.Sound.part (P := Dev.Sound (by apply y)) (fun _ => ?_) ?_ <;> [clear_value y; subst y])
        | clear_value y)
    | with_reducible apply Dev.enter_sound
    | with_reducible apply Dev.Sound.w
    | fail_if_no_progress (with_reducible refine Dev.Sound.upd rfl ?_)
    | with_reducible apply Dev.Sound.ite

theorem Dev.bestMaster_sound (d : Dev) (h_d : d.Sound) : Dev.Sound (Dev.bestMaster d) := by
  unfold Dev.bestMaster
  repeat' first
    | with_reducible assumption
    | (extract_lets +onlyGivenNames -underBinder y; first
        | (refine Dev.Sound.part (P := Dev.Sound (by apply y)) (fun _ => ?_) ?_ <;> [clear_value y; subst y])
        | clear_value y)
    | with_reducible apply Dev.enter_sound
    | with_reducible apply Dev.selfSelected_sound
    | with_reducible apply Dev.showRoles_sound
    | with_reducible apply Dev.Sound.w
    | fail_if_no_progress (with_reducible refine Dev.Sound.upd rfl ?_)
    | with_reducible apply Dev.Sound.ite
    | split

theorem Dev.servo_sound (d : Dev) (e : Int) (s : Nat) (h_d : d.Sound) : Dev.Sound (Dev.servo d e s) := by
  unfold Dev.servo
  repeat' first
    | with_reducible assumption
    | (extract_lets +onlyGivenNames -underBinder y; first
        | (refine Dev.Sound.part (P := Dev.Sound (by apply y)) (fun _ => ?_) ?_ <;> [clear_value y; subst y])
        | clear_value y)
    | with_reducible apply Dev.setRate_sound
    | fail_if_no_progress (with_reducible refine Dev.Sound.upd rfl ?_)

theorem Dev.boundCount_sound (d : Dev) (out : Bool) (h_d : d.Sound) : Dev.Sound (Dev.boundCount d out) := by
  unfold Dev.boundCount
  repeat' first
    | with_reducible assumption
    | (extract_lets +onlyGivenNames -underBinder y; first
        | (refine Dev.Sound.part (P := Dev.Sound (by apply y)) (fun _ => ?_) ?_ <;> [clear_value y; subst y])
        | clear_value y)
    | with_reducible apply Dev.flagIf_sound
    | fail_if_no_progress (with_reducible refine Dev.Sound.upd rfl ?_)

theorem Dev.useSync_sound (d : Dev) (m : PtpMsg) (e : Int) (cMac : Nat) (h_d : d.Sound) : Dev.Sound (Dev.useSync d m e cMac) := by
  unfold Dev.useSync
  repeat' first
    | with_reducible assumption
    | (extract_lets +onlyGivenNames -underBinder y; first
        | (refine Dev.Sound.part (P := Dev.Sound (by apply y)) (fun _ => ?_) ?_ <;> [clear_value y; subst y])
        | clear_value y)
    | with_reducible apply Dev.boundCount_sound
    | with_reducible apply Dev.enter_sound
    | with_reducible apply Dev.servo_sound
    | with_reducible apply Dev.ws_sound
    | fail_if_no_progress (with_reducible refine Dev.Sound.upd rfl ?_)
    | with_reducible apply Dev.Sound.ite
    | split

theorem Dev.forwardSync_sound (d : Dev) (p : Nat) (m : PtpMsg) (cMac cOut : Nat) (h_d : d.Sound) :
    Dev.Sound (Dev.forwardSync d p m cMac cOut) := by
  unfold Dev.forwardSync
  repeat' first
    | with_reducible assumption
    | (extract_lets +onlyGivenNames -underBinder y; clear_value y)
    | with_reducible apply Dev.ptpForward_sound

theorem Dev.syncReceive_sound (d : Dev) (p : Nat) (m : PtpMsg) (cMac cOut : Nat) (h_d : d.Sound) :
    Dev.Sound (Dev.syncReceive d p m cMac cOut) := by
  unfold Dev.syncReceive
  repeat' first
    | with_reducible assumption
    | (extract_lets +onlyGivenNames -underBinder y; first
        | (refine Dev.Sound.part (P := Dev.Sound (by apply y)) (fun _ => ?_) ?_ <;> [clear_value y; subst y])
        | clear_value y)
    | with_reducible apply Dev.forwardSync_sound
    | with_reducible apply Dev.inc_sound
    | with_reducible apply Dev.ptpAccept_sound
    | with_reducible apply Dev.reach_sound
    | with_reducible apply Dev.useSync_sound
    | fail_if_no_progress (with_reducible refine Dev.Sound.upd rfl ?_)
    | with_reducible apply Dev.Sound.ite

theorem execSyncReceive_sound (p : Fin 4) (m : PtpMsg) (cMac cOut : Nat) (s : State) (h_s : s.dev.Sound) :
    Outcome.Sound (execSyncReceive p m cMac cOut s) := by
  unfold execSyncReceive
  repeat' first
    | with_reducible assumption
    | refine fun _ => ?_
    | with_reducible apply Dev.syncReceive_sound
    | with_reducible refine Outcome.Sound.ok h_s ?_

theorem Dev.syncTimeout_sound (d : Dev) (h_d : d.Sound) : Dev.Sound (Dev.syncTimeout d) := by
  unfold Dev.syncTimeout
  repeat' first
    | with_reducible assumption
    | with_reducible apply Dev.bestMaster_sound
    | with_reducible apply Dev.enter_sound
    | with_reducible apply Dev.setRate_sound
    | split

theorem execSyncTimeout_sound (s : State) (h_s : s.dev.Sound) : Outcome.Sound (execSyncTimeout s) := by
  unfold execSyncTimeout
  repeat' first
    | with_reducible assumption
    | refine fun _ => ?_
    | with_reducible apply Dev.syncTimeout_sound
    | with_reducible refine Outcome.Sound.ok h_s ?_

theorem Dev.announceReceive_sound (d : Dev) (p : Nat) (m : PtpMsg) (h_d : d.Sound) : Dev.Sound (Dev.announceReceive d p m) := by
  unfold Dev.announceReceive
  repeat' first
    | with_reducible assumption
    | (extract_lets +onlyGivenNames -underBinder y; first
        | (refine Dev.Sound.part (P := Dev.Sound (by apply y)) (fun _ => ?_) ?_ <;> [clear_value y; subst y])
        | clear_value y)
    | with_reducible apply Dev.bestMaster_sound
    | with_reducible apply Dev.ptpAccept_sound
    | with_reducible apply Dev.ptpForward_sound
    | with_reducible apply Dev.setPtp_sound
    | with_reducible apply Dev.Sound.ite

theorem execAnnounceReceive_sound (p : Fin 4) (m : PtpMsg) (s : State) (h_s : s.dev.Sound) :
    Outcome.Sound (execAnnounceReceive p m s) := by
  unfold execAnnounceReceive
  repeat' first
    | with_reducible assumption
    | refine fun _ => ?_
    | with_reducible apply Dev.announceReceive_sound
    | with_reducible refine Outcome.Sound.ok h_s ?_

theorem Dev.announceTimeout_sound (d : Dev) (p : Nat) (h_d : d.Sound) : Dev.Sound (Dev.announceTimeout d p) := by
  unfold Dev.announceTimeout
  repeat' first
    | with_reducible assumption
    | (extract_lets +onlyGivenNames -underBinder y; clear_value y)
    | with_reducible apply Dev.bestMaster_sound
    | with_reducible apply Dev.setPtp_sound
    | with_reducible apply Dev.Sound.ite

theorem execAnnounceTimeout_sound (p : Fin 4) (s : State) (h_s : s.dev.Sound) : Outcome.Sound (execAnnounceTimeout p s) := by
  unfold execAnnounceTimeout
  repeat' first
    | with_reducible assumption
    | refine fun _ => ?_
    | with_reducible apply Dev.announceTimeout_sound
    | with_reducible refine Outcome.Sound.ok h_s ?_

theorem Dev.gmSettleEnd_sound (d : Dev) (h_d : d.Sound) : Dev.Sound (Dev.gmSettleEnd d) := by
  unfold Dev.gmSettleEnd
  repeat' first
    | with_reducible assumption
    | (extract_lets +onlyGivenNames -underBinder y; first
        | (refine Dev.Sound.part (P := Dev.Sound (by apply y)) (fun _ => ?_) ?_ <;> [clear_value y; subst y])
        | clear_value y)
    | with_reducible apply Dev.enter_sound
    | with_reducible apply Dev.showRoles_sound
    | with_reducible apply Dev.Sound.w
    | fail_if_no_progress (with_reducible refine Dev.Sound.upd rfl ?_)
    | split

theorem execGmSettleEnd_sound (s : State) (h_s : s.dev.Sound) : Outcome.Sound (execGmSettleEnd s) := by
  unfold execGmSettleEnd
  repeat' first
    | with_reducible assumption
    | refine fun _ => ?_
    | with_reducible apply Dev.gmSettleEnd_sound
    | with_reducible refine Outcome.Sound.ok h_s ?_

theorem Dev.syncSend_sound (d : Dev) (h_d : d.Sound) : Dev.Sound (Dev.syncSend d) := by
  unfold Dev.syncSend
  repeat' first
    | with_reducible assumption
    | refine fun _ => ?_
    | (extract_lets +onlyGivenNames -underBinder y; clear_value y)
    | with_reducible apply Dev.ptpSend_sound
    | with_reducible apply Dev.setPtp_sound
    | with_reducible apply Dev.Sound.ite
    | with_reducible apply Dev.Sound.each

theorem execSyncSend_sound (s : State) (h_s : s.dev.Sound) : Outcome.Sound (execSyncSend s) := by
  unfold execSyncSend
  repeat' first
    | with_reducible assumption
    | refine fun _ => ?_
    | with_reducible apply Dev.syncSend_sound
    | with_reducible refine Outcome.Sound.ok h_s ?_

theorem Dev.announceSend_sound (d : Dev) (h_d : d.Sound) : Dev.Sound (Dev.announceSend d) := by
  unfold Dev.announceSend
  repeat' first
    | with_reducible assumption
    | refine fun _ => ?_
    | (extract_lets +onlyGivenNames -underBinder y; first
        | (refine Dev.Sound.part (P := Dev.Sound (by apply y)) (fun _ => ?_) ?_ <;> [clear_value y; subst y])
        | clear_value y)
    | with_reducible apply Dev.ptpSend_sound
    | with_reducible apply Dev.setPtp_sound
    | fail_if_no_progress (with_reducible refine Dev.Sound.upd rfl ?_)
    | with_reducible apply Dev.Sound.ite
    | with_reducible apply Dev.Sound.each

theorem execAnnounceSend_sound (s : State) (h_s : s.dev.Sound) : Outcome.Sound (execAnnounceSend s) := by
  unfold execAnnounceSend
  repeat' first
    | with_reducible assumption
    | refine fun _ => ?_
    | with_reducible apply Dev.announceSend_sound
    | with_reducible refine Outcome.Sound.ok h_s ?_

theorem Dev.pdelayReqSend_sound (d : Dev) (p : Nat) (h_d : d.Sound) : Dev.Sound (Dev.pdelayReqSend d p) := by
  unfold Dev.pdelayReqSend
  repeat' first
    | with_reducible assumption
    | (extract_lets +onlyGivenNames -underBinder y; clear_value y)
    | with_reducible apply Dev.ptpSend_sound
    | with_reducible apply Dev.setPtp_sound
    | with_reducible apply Dev.Sound.ite

theorem execPdelayReqSend_sound (p : Fin 4) (s : State) (h_s : s.dev.Sound) : Outcome.Sound (execPdelayReqSend p s) := by
  unfold execPdelayReqSend
  repeat' first
    | with_reducible assumption
    | refine fun _ => ?_
    | with_reducible apply Dev.pdelayReqSend_sound
    | with_reducible refine Outcome.Sound.ok h_s ?_

theorem Dev.pdelayReqReceive_sound (d : Dev) (p : Nat) (m : PtpMsg) (cMac cOut : Nat) (h_d : d.Sound) :
    Dev.Sound (Dev.pdelayReqReceive d p m cMac cOut) := by
  unfold Dev.pdelayReqReceive
  repeat' first
    | with_reducible assumption
    | (extract_lets +onlyGivenNames -underBinder y; first
        | (refine Dev.Sound.part (P := Dev.Sound (by apply y)) (fun _ => ?_) ?_ <;> [clear_value y; subst y])
        | clear_value y)
    | with_reducible apply Dev.ptpAccept_sound
    | with_reducible apply Dev.ptpSend_sound
    | with_reducible apply Dev.reach_sound
    | with_reducible apply Dev.Sound.ite

theorem execPdelayReqReceive_sound (p : Fin 4) (m : PtpMsg) (cMac cOut : Nat) (s : State) (h_s : s.dev.Sound) :
    Outcome.Sound (execPdelayReqReceive p m cMac cOut s) := by
  unfold execPdelayReqReceive
  repeat' first
    | with_reducible assumption
    | refine fun _ => ?_
    | with_reducible apply Dev.pdelayReqReceive_sound
    | with_reducible refine Outcome.Sound.ok h_s ?_

theorem Dev.pdelayDone_sound (d : Dev) (p : Nat) (meas : Int) (h_d : d.Sound) : Dev.Sound (Dev.pdelayDone d p meas) := by
  unfold Dev.pdelayDone
  repeat' first
    | with_reducible assumption
    | (extract_lets +onlyGivenNames -underBinder y; clear_value y)
    | with_reducible apply Dev.bestMaster_sound
    | with_reducible apply Dev.flag_sound
    | with_reducible apply Dev.setPtp_sound
    | with_reducible apply Dev.showRoles_sound
    | with_reducible apply Dev.wb_sound
    | with_reducible apply Dev.Sound.w
    | with_reducible apply Dev.Sound.ite

theorem Dev.pdelayRespReceive_sound (d : Dev) (p : Nat) (m : PtpMsg) (cMac : Nat) (h_d : d.Sound) :
    Dev.Sound (Dev.pdelayRespReceive d p m cMac) := by
  unfold Dev.pdelayRespReceive
  repeat' first
    | with_reducible assumption
    | (extract_lets +onlyGivenNames -underBinder y; first
        | (refine Dev.Sound.part (P := Dev.Sound (by apply y)) (fun _ => ?_) ?_ <;> [clear_value y; subst y])
        | clear_value y)
    | with_reducible apply Dev.inc_sound
    | with_reducible apply Dev.pdelayDone_sound
    | with_reducible apply Dev.ptpAccept_sound
    | with_reducible apply Dev.reach_sound
    | with_reducible apply Dev.setPtp_sound
    | with_reducible apply Dev.Sound.ite

theorem execPdelayRespReceive_sound (p : Fin 4) (m : PtpMsg) (cMac : Nat) (s : State) (h_s : s.dev.Sound) :
    Outcome.Sound (execPdelayRespReceive p m cMac s) := by
  unfold execPdelayRespReceive
  repeat' first
    | with_reducible assumption
    | refine fun _ => ?_
    | with_reducible apply Dev.pdelayRespReceive_sound
    | with_reducible refine Outcome.Sound.ok h_s ?_

theorem Dev.pdelayFollowUp_sound (d : Dev) (p : Nat) (m : PtpMsg) (h_d : d.Sound) : Dev.Sound (Dev.pdelayFollowUp d p m) := by
  unfold Dev.pdelayFollowUp
  repeat' first
    | with_reducible assumption
    | (extract_lets +onlyGivenNames -underBinder y; clear_value y)
    | with_reducible apply Dev.inc_sound
    | with_reducible apply Dev.pdelayDone_sound
    | with_reducible apply Dev.ptpAccept_sound
    | with_reducible apply Dev.Sound.ite
    | split

theorem execPdelayRespFollowUpReceive_sound (p : Fin 4) (m : PtpMsg) (s : State) (h_s : s.dev.Sound) :
    Outcome.Sound (execPdelayRespFollowUpReceive p m s) := by
  unfold execPdelayRespFollowUpReceive
  repeat' first
    | with_reducible assumption
    | refine fun _ => ?_
    | with_reducible apply Dev.pdelayFollowUp_sound
    | with_reducible refine Outcome.Sound.ok h_s ?_

theorem Dev.ptpOther_sound (d : Dev) (p : Nat) (m : PtpMsg) (h_d : d.Sound) : Dev.Sound (Dev.ptpOther d p m) := by
  unfold Dev.ptpOther
  repeat' first
    | with_reducible assumption
    | (extract_lets +onlyGivenNames -underBinder y;
       refine Dev.Sound.part (P := Dev.Sound (by apply y)) (fun _ => ?_) ?_ <;> [clear_value y; subst y])
    | with_reducible apply Dev.inc_sound
    | with_reducible apply Dev.ptpAccept_sound
    | with_reducible apply Dev.ptpForward_sound
    | with_reducible apply Dev.Sound.ite

theorem execPtpOtherReceive_sound (p : Fin 4) (m : PtpMsg) (s : State) (h_s : s.dev.Sound) :
    Outcome.Sound (execPtpOtherReceive p m s) := by
  unfold execPtpOtherReceive
  repeat' first
    | with_reducible assumption
    | refine fun _ => ?_
    | with_reducible apply Dev.ptpOther_sound
    | with_reducible refine Outcome.Sound.ok h_s ?_

theorem execTimeInfo_sound (p : Packet) (s : State) (h_s : s.dev.Sound) : Outcome.Sound (execTimeInfo p s) := by
  unfold execTimeInfo
  repeat' first
    | with_reducible assumption
    | refine fun _ => ?_
    | with_reducible apply Dev.runPacket_sound
    | with_reducible refine Outcome.Sound.ok h_s ?_

theorem Dev.timeSeed_sound (d : Dev) (ns : Nat) (h_d : d.Sound) : Dev.Sound (Dev.timeSeed d ns).1 := by
  unfold Dev.timeSeed
  repeat' first
    | with_reducible assumption
    | (extract_lets +onlyGivenNames -underBinder y; clear_value y)
    | fail_if_no_progress (with_reducible refine Dev.Sound.upd rfl ?_)
    | with_reducible apply Dev.Sound.ite_fst

theorem execTimeSeed_sound (p : Packet) (s : State) (h_s : s.dev.Sound) : Outcome.Sound (execTimeSeed p s) := by
  unfold execTimeSeed
  repeat' first
    | with_reducible assumption
    | refine fun _ => ?_
    | with_reducible apply Dev.runPacket_sound
    | with_reducible apply Dev.timeSeed_sound
    | with_reducible refine Outcome.Sound.ok h_s ?_

theorem Dev.timeRestep_sound (d : Dev) (mode : Nat) (ns : Nat) (h_d : d.Sound) : Dev.Sound (Dev.timeRestep d mode ns).1 := by
  unfold Dev.timeRestep
  repeat' first
    | with_reducible assumption
    | (extract_lets +onlyGivenNames -underBinder y; first
        | (refine Dev.Sound.part (P := ∀ z, y z = y z) (fun _ => ?_) (fun _ => rfl); subst y; beta_reduce)
        | clear_value y)
    | fail_if_no_progress (with_reducible refine Dev.Sound.upd rfl ?_)
    | with_reducible apply Dev.Sound.ite_fst
    | split

theorem execTimeRestep_sound (p : Packet) (s : State) (h_s : s.dev.Sound) : Outcome.Sound (execTimeRestep p s) := by
  unfold execTimeRestep
  repeat' first
    | with_reducible assumption
    | refine fun _ => ?_
    | with_reducible apply Dev.runPacket_sound
    | with_reducible apply Dev.timeRestep_sound
    | with_reducible refine Outcome.Sound.ok h_s ?_

theorem execPtpStatus_sound (p : Packet) (s : State) (h_s : s.dev.Sound) : Outcome.Sound (execPtpStatus p s) := by
  unfold execPtpStatus
  repeat' first
    | with_reducible assumption
    | refine fun _ => ?_
    | (extract_lets +onlyGivenNames -underBinder y; clear_value y)
    | with_reducible apply Dev.runPacket_sound
    | with_reducible refine Outcome.Sound.ok h_s ?_
    | with_reducible apply Dev.Sound.ite_fst

theorem execTimeConvert_sound (p : Packet) (s : State) (h_s : s.dev.Sound) : Outcome.Sound (execTimeConvert p s) := by
  unfold execTimeConvert
  repeat' first
    | with_reducible assumption
    | refine fun _ => ?_
    | with_reducible apply Dev.runPacket_sound
    | with_reducible refine Outcome.Sound.ok h_s ?_

theorem Dev.readTime_sound (d : Dev) (h_d : d.Sound) : Dev.Sound (Dev.readTime d).1 := by
  unfold Dev.readTime
  repeat' first
    | with_reducible assumption
    | (extract_lets +onlyGivenNames -underBinder y; clear_value y)
    | fail_if_no_progress (with_reducible refine Dev.Sound.upd rfl ?_)

/-! ### Machine/Epoch.lean -/

theorem Dev.setPub_sound (d : Dev) (base : Nat) (f : LocalPub → LocalPub) (h_d : d.Sound) : Dev.Sound (Dev.setPub d base f) := by
  unfold Dev.setPub
  repeat' first
    | with_reducible assumption
    | (extract_lets +onlyGivenNames -underBinder y;
       refine Dev.Sound.part (P := EpochState.frontRegs y = EpochState.frontRegs y) (fun _ => ?_) rfl; subst y)
    | fail_if_no_progress (with_reducible refine Dev.Sound.upd rfl ?_)

theorem Dev.stageSignal_sound (d : Dev) (id v : Nat) (h_d : d.Sound) : Dev.Sound (Dev.stageSignal d id v) := by
  unfold Dev.stageSignal
  repeat' first
    | with_reducible assumption
    | (extract_lets +onlyGivenNames -underBinder y;
       refine Dev.Sound.part (P := EpochState.frontRegs y = EpochState.frontRegs y) (fun _ => ?_) rfl; subst y)
    | fail_if_no_progress (with_reducible refine Dev.Sound.upd rfl ?_)

theorem Dev.publish_sound (d : Dev) (base : Nat) (vals : List Nat) (h_d : d.Sound) : Dev.Sound (Dev.publish d base vals) := by
  unfold Dev.publish
  repeat' first
    | with_reducible assumption
    | (extract_lets +onlyGivenNames -underBinder y; first
        | (refine Dev.Sound.part (P := Dev.Sound (by apply y)) (fun _ => ?_) ?_ <;> [clear_value y; subst y])
        | (refine Dev.Sound.part (P := EpochState.frontRegs y = EpochState.frontRegs y) (fun _ => ?_) rfl; subst y))
    | with_reducible apply Dev.setPub_sound
    | fail_if_no_progress (with_reducible refine Dev.Sound.upd rfl ?_)
    | split

theorem Dev.overrun_sound (d : Dev) (h_d : d.Sound) : Dev.Sound (Dev.overrun d) := by
  unfold Dev.overrun
  repeat' first
    | with_reducible assumption
    | (extract_lets +onlyGivenNames -underBinder y; first
        | (refine Dev.Sound.part (P := Dev.Sound (by apply y)) (fun _ => ?_) ?_ <;> [clear_value y; subst y])
        | (refine Dev.Sound.part (P := EpochState.frontRegs y = EpochState.frontRegs y) (fun _ => ?_) rfl; subst y)
        | clear_value y)
    | with_reducible apply Dev.flag_sound
    | with_reducible apply Dev.inc_sound
    | fail_if_no_progress (with_reducible refine Dev.Sound.upd rfl ?_)

theorem Dev.overrunPub_sound (d : Dev) (base : Nat) (h_d : d.Sound) : Dev.Sound (Dev.overrunPub d base) := by
  unfold Dev.overrunPub
  repeat' first
    | with_reducible assumption
    | with_reducible apply Dev.setPub_sound

theorem Dev.deliverPub_sound (d : Dev) (producer base : Nat) (x : RecvPub) (h_d : d.Sound) :
    Dev.Sound (Dev.deliverPub d producer base x) := by
  unfold Dev.deliverPub
  repeat' first
    | with_reducible assumption
    | (extract_lets +onlyGivenNames -underBinder y; first
        | (refine Dev.Sound.part (P := ∀ z, y z = y z) (fun _ => ?_) (fun _ => rfl); subst y; beta_reduce)
        | (refine Dev.Sound.part (P := Dev.Sound (by apply y)) (fun _ => ?_) ?_ <;> [clear_value y; subst y])
        | (refine Dev.Sound.part (P := EpochState.frontRegs y = EpochState.frontRegs y) (fun _ => ?_) rfl; subst y)
        | clear_value y)
    | with_reducible apply Dev.add_sound
    | fail_if_no_progress (with_reducible refine Dev.Sound.upd rfl ?_)

theorem Dev.setHold_sound (d : Dev) (p : Path) (on : Bool) (h_d : d.Sound) : Dev.Sound (Dev.setHold d p on) := by
  unfold Dev.setHold
  repeat' first
    | with_reducible assumption
    | (extract_lets +onlyGivenNames -underBinder y;
       refine Dev.Sound.part (P := EpochState.frontRegs y = EpochState.frontRegs y) (fun _ => ?_) rfl; subst y)
    | fail_if_no_progress (with_reducible refine Dev.Sound.upd rfl ?_)
    | with_reducible apply Dev.Sound.ite

theorem Dev.imgHoldWrite_sound (d : Dev) (p : Path) (v : Nat) (h_d : d.Sound) : Dev.Sound (Dev.imgHoldWrite d p v) := by
  unfold Dev.imgHoldWrite
  repeat' first
    | with_reducible assumption
    | (extract_lets +onlyGivenNames -underBinder y; first
        | (refine Dev.Sound.part (P := Dev.Sound (by apply y)) (fun _ => ?_) ?_ <;> [clear_value y; subst y])
        | (refine Dev.Sound.part (P := EpochState.frontRegs y = EpochState.frontRegs y) (fun _ => ?_) rfl; subst y))
    | with_reducible apply Dev.setHold_sound
    | fail_if_no_progress (with_reducible refine Dev.Sound.upd rfl ?_)
    | with_reducible apply Dev.Sound.ite

theorem execHostHoldSet_sound (p : Path) (s : State) (h_s : s.dev.Sound) : Outcome.Sound (execHostHoldSet p s) := by
  unfold execHostHoldSet
  repeat' first
    | with_reducible assumption
    | refine fun _ => ?_
    | with_reducible apply Dev.access_sound
    | with_reducible apply Dev.setHold_sound
    | with_reducible refine Outcome.Sound.ok h_s ?_

theorem execHostHoldClear_sound (p : Path) (s : State) (h_s : s.dev.Sound) : Outcome.Sound (execHostHoldClear p s) := by
  unfold execHostHoldClear
  repeat' first
    | with_reducible assumption
    | refine fun _ => ?_
    | with_reducible apply Dev.access_sound
    | with_reducible apply Dev.setHold_sound
    | with_reducible refine Outcome.Sound.ok h_s ?_

theorem Dev.holdExpire_sound (d : Dev) (pf1 : Bool) (h_d : d.Sound) : Dev.Sound (Dev.holdExpire d pf1) := by
  unfold Dev.holdExpire
  repeat' first
    | with_reducible assumption
    | (extract_lets +onlyGivenNames -underBinder y; first
        | (refine Dev.Sound.part (P := EpochState.frontRegs y = EpochState.frontRegs y) (fun _ => ?_) rfl; subst y)
        | clear_value y)
    | fail_if_no_progress (with_reducible refine Dev.Sound.upd rfl ?_)
    | with_reducible apply Dev.Sound.ite

theorem execHoldExpire_sound (pf1 : Bool) (s : State) (h_s : s.dev.Sound) : Outcome.Sound (execHoldExpire pf1 s) := by
  unfold execHoldExpire
  repeat' first
    | with_reducible assumption
    | refine fun _ => ?_
    | with_reducible apply Dev.holdExpire_sound
    | with_reducible refine Outcome.Sound.ok h_s ?_

theorem Dev.cmdHoldExpire_sound (d : Dev) (h_d : d.Sound) : Dev.Sound (Dev.cmdHoldExpire d) := by
  unfold Dev.cmdHoldExpire
  repeat' first
    | with_reducible assumption
    | (extract_lets +onlyGivenNames -underBinder y;
       refine Dev.Sound.part (P := EpochState.frontRegs y = EpochState.frontRegs y) (fun _ => ?_) rfl; subst y)
    | fail_if_no_progress (with_reducible refine Dev.Sound.upd rfl ?_)
    | with_reducible apply Dev.Sound.ite

theorem execCmdHoldExpire_sound (s : State) (h_s : s.dev.Sound) : Outcome.Sound (execCmdHoldExpire s) := by
  unfold execCmdHoldExpire
  repeat' first
    | with_reducible assumption
    | refine fun _ => ?_
    | with_reducible apply Dev.cmdHoldExpire_sound
    | with_reducible refine Outcome.Sound.ok h_s ?_

theorem Dev.cutIdle_sound (d : Dev) (h_d : d.Sound) : Dev.Sound (Dev.cutIdle d) := by
  unfold Dev.cutIdle
  repeat' first
    | with_reducible assumption
    | (extract_lets +onlyGivenNames -underBinder y; first
        | (refine Dev.Sound.part (P := Dev.Sound (by apply y)) (fun _ => ?_) ?_ <;> [clear_value y; subst y])
        | (refine Dev.Sound.part (P := EpochState.frontRegs y = EpochState.frontRegs y) (fun _ => ?_) rfl; subst y))
    | with_reducible apply Dev.Sound.w
    | fail_if_no_progress (with_reducible refine Dev.Sound.upd rfl ?_)

theorem Dev.cutExpire_sound (d : Dev) (h_d : d.Sound) : Dev.Sound (Dev.cutExpire d) := by
  unfold Dev.cutExpire
  repeat' first
    | with_reducible assumption
    | with_reducible apply Dev.cutIdle_sound
    | with_reducible apply Dev.flag_sound
    | with_reducible apply Dev.Sound.ite

theorem execCutExpire_sound (s : State) (h_s : s.dev.Sound) : Outcome.Sound (execCutExpire s) := by
  unfold execCutExpire
  repeat' first
    | with_reducible assumption
    | refine fun _ => ?_
    | with_reducible apply Dev.cutExpire_sound
    | with_reducible refine Outcome.Sound.ok h_s ?_

theorem Dev.cutArm_sound (d : Dev) (id b : Nat) (h_d : d.Sound) : Dev.Sound (Dev.cutArm d id b).1 := by
  unfold Dev.cutArm
  repeat' first
    | with_reducible assumption
    | (extract_lets +onlyGivenNames -underBinder y; clear_value y)
    | with_reducible apply Dev.Sound.w
    | with_reducible apply Dev.Sound.ite_fst

theorem execCutArm_sound (p : Packet) (s : State) (h_s : s.dev.Sound) : Outcome.Sound (execCutArm p s) := by
  unfold execCutArm
  repeat' first
    | with_reducible assumption
    | refine fun _ => ?_
    | with_reducible apply Dev.cutArm_sound
    | with_reducible apply Dev.runPacket_sound
    | with_reducible refine Outcome.Sound.ok h_s ?_

theorem Dev.cutRelease_sound (d : Dev) (id : Nat) (h_d : d.Sound) : Dev.Sound (Dev.cutRelease d id).1 := by
  unfold Dev.cutRelease
  repeat' first
    | with_reducible assumption
    | with_reducible apply Dev.cutIdle_sound
    | with_reducible apply Dev.Sound.ite_fst

theorem execCutRelease_sound (p : Packet) (s : State) (h_s : s.dev.Sound) : Outcome.Sound (execCutRelease p s) := by
  unfold execCutRelease
  repeat' first
    | with_reducible assumption
    | refine fun _ => ?_
    | with_reducible apply Dev.cutRelease_sound
    | with_reducible apply Dev.runPacket_sound
    | with_reducible refine Outcome.Sound.ok h_s ?_

theorem execCutStatus_sound (p : Packet) (s : State) (h_s : s.dev.Sound) : Outcome.Sound (execCutStatus p s) := by
  unfold execCutStatus
  repeat' first
    | with_reducible assumption
    | refine fun _ => ?_
    | with_reducible apply Dev.runPacket_sound
    | with_reducible refine Outcome.Sound.ok h_s ?_

theorem Dev.buildImage_sound (d : Dev) (n : Nat) (h_d : d.Sound) : Dev.Sound (Dev.buildImage d n) := by
  unfold Dev.buildImage
  repeat' first
    | with_reducible assumption
    | (extract_lets +onlyGivenNames -underBinder y; first
        | (refine Dev.Sound.part (P := ∀ z, y z = y z) (fun _ => ?_) (fun _ => rfl); subst y; beta_reduce)
        | (refine Dev.Sound.part (P := Dev.Sound (by apply y)) (fun _ => ?_) ?_ <;> [clear_value y; subst y])
        | (refine Dev.Sound.part (P := EpochState.frontRegs y = EpochState.frontRegs y) (fun _ => ?_) rfl; subst y)
        | clear_value y)
    | with_reducible apply Dev.add_sound
    | with_reducible apply Dev.flag_sound
    | fail_if_no_progress (with_reducible refine Dev.Sound.upd rfl ?_)
    | split

theorem Dev.cutFreeze_sound (d : Dev) (n : Nat) (h_d : d.Sound) : Dev.Sound (Dev.cutFreeze d n) := by
  unfold Dev.cutFreeze
  repeat' first
    | with_reducible assumption
    | (extract_lets +onlyGivenNames -underBinder y; first
        | (refine Dev.Sound.part (P := Dev.Sound (by apply y)) (fun _ => ?_) ?_ <;> [clear_value y; subst y])
        | (refine Dev.Sound.part (P := EpochState.frontRegs y = EpochState.frontRegs y) (fun _ => ?_) rfl; subst y))
    | with_reducible apply Dev.wb_sound
    | with_reducible apply Dev.Sound.w
    | fail_if_no_progress (with_reducible refine Dev.Sound.upd rfl ?_)
    | with_reducible apply Dev.Sound.ite

theorem Dev.flip_sound (d : Dev) (h_d : d.Sound) : Dev.Sound (Dev.flip d) := by
  unfold Dev.flip
  repeat' first
    | with_reducible assumption
    | (extract_lets +onlyGivenNames -underBinder y;
       refine Dev.Sound.part (P := EpochState.frontRegs y = EpochState.frontRegs y) (fun _ => ?_) rfl; subst y)
    | with_reducible apply Dev.Sound.w
    | fail_if_no_progress (with_reducible refine Dev.Sound.upd rfl ?_)
    | with_reducible apply Dev.Sound.ite

theorem Dev.ageHolds_sound (d : Dev) (h_d : d.Sound) : Dev.Sound (Dev.ageHolds d) := by
  unfold Dev.ageHolds
  repeat' first
    | with_reducible assumption
    | (extract_lets +onlyGivenNames -underBinder y;
       refine Dev.Sound.part (P := EpochState.frontRegs y = EpochState.frontRegs y) (fun _ => ?_) rfl; subst y)
    | fail_if_no_progress (with_reducible refine Dev.Sound.upd rfl ?_)

theorem Dev.commitImage_sound (d : Dev) (n : Nat) (h_d : d.Sound) : Dev.Sound (Dev.commitImage d n) := by
  unfold Dev.commitImage
  repeat' first
    | with_reducible assumption
    | with_reducible apply Dev.ageHolds_sound
    | with_reducible apply Dev.buildImage_sound
    | with_reducible apply Dev.cutFreeze_sound
    | with_reducible apply Dev.flip_sound

theorem Dev.ofFront_sound (d : Dev) (h_d : d.Sound) : Dev.Sound (Dev.ofFront d) := by
  unfold Dev.ofFront
  exact Dev.Sound.ite ⟨h_d.frontRegs, h_d.frontRegs, h_d.mem⟩ h_d

theorem execEpochInfo_sound (p : Packet) (s : State) (h_s : s.dev.Sound) : Outcome.Sound (execEpochInfo p s) := by
  unfold execEpochInfo
  repeat' first
    | with_reducible assumption
    | refine fun _ => ?_
    | with_reducible apply Dev.runPacket_sound
    | with_reducible refine Outcome.Sound.ok h_s ?_

theorem Dev.standingHold_sound (d : Dev) (h_d : d.Sound) : Dev.Sound (Dev.standingHold d).1 := by
  unfold Dev.standingHold
  repeat' first
    | with_reducible assumption
    | (extract_lets +onlyGivenNames -underBinder y;
       refine Dev.Sound.part (P := EpochState.frontRegs y = EpochState.frontRegs y) (fun _ => ?_) rfl; subst y)
    | fail_if_no_progress (with_reducible refine Dev.Sound.upd rfl ?_)

theorem execImgHold_sound (p : Packet) (s : State) (h_s : s.dev.Sound) : Outcome.Sound (execImgHold p s) := by
  unfold execImgHold
  repeat' first
    | with_reducible assumption
    | refine fun _ => ?_
    | with_reducible apply Dev.runPacket_sound
    | with_reducible apply Dev.standingHold_sound
    | with_reducible refine Outcome.Sound.ok h_s ?_

theorem execImgRelease_sound (p : Packet) (s : State) (h_s : s.dev.Sound) : Outcome.Sound (execImgRelease p s) := by
  unfold execImgRelease
  repeat' first
    | with_reducible assumption
    | refine fun _ => ?_
    | (extract_lets +onlyGivenNames -underBinder y;
       refine Dev.Sound.part (P := EpochState.frontRegs y = EpochState.frontRegs y) (fun _ => ?_) rfl; subst y)
    | with_reducible apply Dev.runPacket_sound
    | with_reducible refine Outcome.Sound.ok h_s ?_
    | fail_if_no_progress (with_reducible refine Dev.Sound.upd rfl ?_)

theorem execImgRead_sound (p : Packet) (s : State) (h_s : s.dev.Sound) : Outcome.Sound (execImgRead p s) := by
  unfold execImgRead
  repeat' first
    | with_reducible assumption
    | refine fun _ => ?_
    | with_reducible apply Dev.runPacket_sound
    | with_reducible refine Outcome.Sound.ok h_s ?_

theorem execImgReadRec_sound (p : Packet) (s : State) (h_s : s.dev.Sound) : Outcome.Sound (execImgReadRec p s) := by
  unfold execImgReadRec
  repeat' first
    | with_reducible assumption
    | refine fun _ => ?_
    | with_reducible apply Dev.runPacket_sound
    | with_reducible refine Outcome.Sound.ok h_s ?_

theorem Dev.setMargin_sound (d : Dev) (ns : Nat) (h_d : d.Sound) : Dev.Sound (Dev.setMargin d ns) := by
  unfold Dev.setMargin
  repeat' first
    | with_reducible assumption
    | (extract_lets +onlyGivenNames -underBinder y; first
        | (refine Dev.Sound.part (P := Dev.Sound (by apply y)) (fun _ => ?_) ?_ <;> [clear_value y; subst y])
        | (refine Dev.Sound.part (P := EpochState.frontRegs y = EpochState.frontRegs y) (fun _ => ?_) rfl; subst y))
    | with_reducible apply Dev.Sound.w
    | fail_if_no_progress (with_reducible refine Dev.Sound.upd rfl ?_)

theorem execEpochSetMargin_sound (p : Packet) (s : State) (h_s : s.dev.Sound) : Outcome.Sound (execEpochSetMargin p s) := by
  unfold execEpochSetMargin
  repeat' first
    | with_reducible assumption
    | refine fun _ => ?_
    | with_reducible apply Dev.runPacket_sound
    | with_reducible apply Dev.setMargin_sound
    | with_reducible refine Outcome.Sound.ok h_s ?_
    | with_reducible apply Dev.Sound.ite_fst

theorem Dev.intakeClose_sound (d : Dev) (h_d : d.Sound) : Dev.Sound (Dev.intakeClose d) := by
  unfold Dev.intakeClose
  repeat' first
    | with_reducible assumption
    | (extract_lets +onlyGivenNames -underBinder y; first
        | (refine Dev.Sound.part (P := Dev.Sound (by apply y)) (fun _ => ?_) ?_ <;> [clear_value y; subst y])
        | (refine Dev.Sound.part (P := EpochState.frontRegs y = EpochState.frontRegs y) (fun _ => ?_) rfl; subst y)
        | clear_value y)
    | with_reducible apply Dev.add_sound
    | fail_if_no_progress (with_reducible refine Dev.Sound.upd rfl ?_)

theorem execIntakeClose_sound (s : State) (h_s : s.dev.Sound) : Outcome.Sound (execIntakeClose s) := by
  unfold execIntakeClose
  repeat' first
    | with_reducible assumption
    | refine fun _ => ?_
    | with_reducible apply Dev.intakeClose_sound
    | with_reducible refine Outcome.Sound.ok h_s ?_

/-! ### Machine/FieldIo.lean -/

theorem Dev.showGroup_sound (d : Dev) (g : Nat) (h_d : d.Sound) : Dev.Sound (Dev.showGroup d g) := by
  unfold Dev.showGroup
  repeat' first
    | with_reducible assumption
    | (extract_lets +onlyGivenNames -underBinder y; first
        | (refine Dev.Sound.part (P := Dev.Sound (by apply y)) (fun _ => ?_) ?_ <;> [clear_value y; subst y])
        | clear_value y)
    | with_reducible apply Dev.wb_sound

theorem Dev.driveGroup_sound (d : Dev) (g : Nat) (h_d : d.Sound) : Dev.Sound (Dev.driveGroup d g) := by
  unfold Dev.driveGroup
  repeat' first
    | with_reducible assumption
    | refine fun _ => ?_
    | (extract_lets +onlyGivenNames -underBinder y; first
        | (refine Dev.Sound.part (P := Dev.Sound (by apply y)) (fun _ => ?_) ?_ <;> [clear_value y; subst y])
        | clear_value y)
    | with_reducible apply Dev.showGroup_sound
    | with_reducible apply Dev.wb_sound
    | with_reducible apply Dev.Sound.w
    | with_reducible apply Dev.Sound.ite
    | with_reducible apply Dev.Sound.each

theorem Dev.driveOutputs_sound (d : Dev) (h_d : d.Sound) : Dev.Sound (Dev.driveOutputs d) := by
  unfold Dev.driveOutputs
  repeat' first
    | with_reducible assumption
    | refine fun _ => ?_
    | with_reducible apply Dev.driveGroup_sound
    | with_reducible apply Dev.Sound.each

theorem Dev.safeNeedRearm_sound (d : Dev) (g : Nat) (h_d : d.Sound) : Dev.Sound (Dev.safeNeedRearm d g) := by
  unfold Dev.safeNeedRearm
  repeat' first
    | with_reducible assumption
    | refine fun _ => ?_
    | (extract_lets +onlyGivenNames -underBinder y; clear_value y)
    | fail_if_no_progress (with_reducible refine Dev.Sound.upd rfl ?_)
    | with_reducible apply Dev.Sound.ite
    | with_reducible apply Dev.Sound.each

theorem Dev.calendarOutput_sound (d : Dev) (o : Nat) (lv : Bool) (h_d : d.Sound) : Dev.Sound (Dev.calendarOutput d o lv) := by
  unfold Dev.calendarOutput
  repeat' first
    | with_reducible assumption
    | (extract_lets +onlyGivenNames -underBinder y; clear_value y)
    | with_reducible apply Dev.driveGroup_sound
    | fail_if_no_progress (with_reducible refine Dev.Sound.upd rfl ?_)

theorem Dev.safeOutputs_sound (d : Dev) (on : Nat) (h_d : d.Sound) : Dev.Sound (Dev.safeOutputs d on) := by
  unfold Dev.safeOutputs
  repeat' first
    | with_reducible assumption
    | (extract_lets +onlyGivenNames -underBinder y; clear_value y)
    | with_reducible apply Dev.driveOutputs_sound
    | fail_if_no_progress (with_reducible refine Dev.Sound.upd rfl ?_)

theorem Dev.commitToken_sound (d : Dev) (h_d : d.Sound) : Dev.Sound (Dev.commitToken d) := by
  unfold Dev.commitToken
  repeat' first
    | with_reducible assumption
    | refine fun _ => ?_
    | (extract_lets +onlyGivenNames -underBinder y; first
        | (refine Dev.Sound.part (P := Dev.Sound (by apply y)) (fun _ => ?_) ?_ <;> [clear_value y; subst y])
        | clear_value y)
    | with_reducible apply Dev.showGroup_sound
    | with_reducible apply Dev.wb_sound
    | fail_if_no_progress (with_reducible refine Dev.Sound.upd rfl ?_)
    | with_reducible apply Dev.Sound.ite
    | with_reducible apply Dev.Sound.each

theorem Dev.fieldKeep_sound (d : Dev) (rb : Nat) (h_d : d.Sound) : Dev.Sound (Dev.fieldKeep d rb) := by
  unfold Dev.fieldKeep
  repeat' first
    | with_reducible assumption
    | (extract_lets +onlyGivenNames -underBinder y; clear_value y)
    | fail_if_no_progress (with_reducible refine Dev.Sound.upd rfl ?_)

theorem Dev.fieldSample_sound (d : Dev) (h_d : d.Sound) : Dev.Sound (Dev.fieldSample d) := by
  unfold Dev.fieldSample
  repeat' first
    | with_reducible assumption
    | with_reducible apply Dev.fieldKeep_sound

theorem Dev.fieldBoundary_sound (d : Dev) (h_d : d.Sound) : Dev.Sound (Dev.fieldBoundary d) := by
  unfold Dev.fieldBoundary
  repeat' first
    | with_reducible assumption
    | (extract_lets +onlyGivenNames -underBinder y; clear_value y)
    | with_reducible apply Dev.driveOutputs_sound
    | with_reducible apply Dev.fieldKeep_sound
    | fail_if_no_progress (with_reducible refine Dev.Sound.upd rfl ?_)

theorem Dev.publishField_sound (d : Dev) (h_d : d.Sound) : Dev.Sound (Dev.publishField d) := by
  unfold Dev.publishField
  repeat' first
    | with_reducible assumption
    | (extract_lets +onlyGivenNames -underBinder y;
       refine Dev.Sound.part (P := ∀ z, y z = y z) (fun _ => ?_) (fun _ => rfl); subst y; beta_reduce)
    | with_reducible apply Dev.publish_sound

theorem Dev.publishSwitch_sound (d : Dev) (o : Nat) (h_d : d.Sound) : Dev.Sound (Dev.publishSwitch d o) := by
  unfold Dev.publishSwitch
  repeat' first
    | with_reducible assumption
    | (extract_lets +onlyGivenNames -underBinder y; clear_value y)
    | fail_if_no_progress (with_reducible refine Dev.Sound.upd rfl ?_)

theorem Dev.unpublishSwitch_sound (d : Dev) (o : Nat) (before : Bool) (h_d : d.Sound) :
    Dev.Sound (Dev.unpublishSwitch d o before) := by
  unfold Dev.unpublishSwitch
  repeat' first
    | with_reducible assumption
    | (extract_lets +onlyGivenNames -underBinder y; clear_value y)
    | fail_if_no_progress (with_reducible refine Dev.Sound.upd rfl ?_)

theorem execFioInputChange_sound (i : Fin 64) (level : Bool) (s : State) (h_s : s.dev.Sound) :
    Outcome.Sound (execFioInputChange i level s) := by
  unfold execFioInputChange
  repeat' first
    | with_reducible assumption
    | refine fun _ => ?_
    | (extract_lets +onlyGivenNames -underBinder y; first
        | (refine Dev.Sound.part (P := Dev.Sound (by apply y)) (fun _ => ?_) ?_ <;> [clear_value y; subst y])
        | clear_value y)
    | with_reducible refine Outcome.Sound.ok h_s ?_
    | with_reducible apply Dev.Sound.w
    | fail_if_no_progress (with_reducible refine Dev.Sound.upd rfl ?_)
    | with_reducible apply Dev.Sound.ite

theorem Dev.readbackFault_sound (d : Dev) (o : Nat) (h_d : d.Sound) : Dev.Sound (Dev.readbackFault d o) := by
  unfold Dev.readbackFault
  repeat' first
    | with_reducible assumption
    | (extract_lets +onlyGivenNames -underBinder y; first
        | (refine Dev.Sound.part (P := Dev.Sound (by apply y)) (fun _ => ?_) ?_ <;> [clear_value y; subst y])
        | clear_value y)
    | with_reducible apply Dev.flag_sound
    | with_reducible apply Dev.showGroup_sound
    | with_reducible apply Dev.wb_sound
    | with_reducible apply Dev.Sound.w
    | with_reducible apply Dev.Sound.ite

theorem execFioRbFault_sound (o : Fin 32) (s : State) (h_s : s.dev.Sound) : Outcome.Sound (execFioRbFault o s) := by
  unfold execFioRbFault
  repeat' first
    | with_reducible assumption
    | refine fun _ => ?_
    | with_reducible apply Dev.readbackFault_sound
    | with_reducible refine Outcome.Sound.ok h_s ?_

theorem execFioOverload_sound (o : Fin 32) (s : State) (h_s : s.dev.Sound) : Outcome.Sound (execFioOverload o s) := by
  unfold execFioOverload
  repeat' first
    | with_reducible assumption
    | refine fun _ => ?_
    | with_reducible apply Dev.driveGroup_sound
    | with_reducible apply Dev.flag_sound
    | with_reducible refine Outcome.Sound.ok h_s ?_
    | with_reducible apply Dev.Sound.ite

theorem execFioThermal_sound (o : Fin 32) (ovr : Bool) (s : State) (h_s : s.dev.Sound) :
    Outcome.Sound (execFioThermal o ovr s) := by
  unfold execFioThermal
  repeat' first
    | with_reducible assumption
    | refine fun _ => ?_
    | (extract_lets +onlyGivenNames -underBinder y; first
        | (refine Dev.Sound.part (P := Dev.Sound (by apply y)) (fun _ => ?_) ?_ <;> [clear_value y; subst y])
        | clear_value y)
    | with_reducible apply Dev.driveGroup_sound
    | with_reducible apply Dev.flag_sound
    | with_reducible refine Outcome.Sound.ok h_s ?_
    | fail_if_no_progress (with_reducible refine Dev.Sound.upd rfl ?_)
    | with_reducible apply Dev.Sound.ite

theorem Dev.vfieldSample_sound (d : Dev) (g mv : Nat) (h_d : d.Sound) : Dev.Sound (Dev.vfieldSample d g mv) := by
  unfold Dev.vfieldSample
  repeat' first
    | with_reducible assumption
    | (extract_lets +onlyGivenNames -underBinder y; first
        | (refine Dev.Sound.part (P := Dev.Sound (by apply y)) (fun _ => ?_) ?_ <;> [clear_value y; subst y])
        | clear_value y)
    | with_reducible apply Dev.flag_sound
    | with_reducible apply Dev.showGroup_sound
    | with_reducible apply Dev.wb_sound
    | with_reducible apply Dev.Sound.w
    | fail_if_no_progress (with_reducible refine Dev.Sound.upd rfl ?_)
    | with_reducible apply Dev.Sound.ite

theorem execVfieldSample_sound (group : Fin 4) (mv : Nat) (s : State) (h_s : s.dev.Sound) :
    Outcome.Sound (execVfieldSample group mv s) := by
  unfold execVfieldSample
  repeat' first
    | with_reducible assumption
    | refine fun _ => ?_
    | with_reducible apply Dev.pins_sound
    | with_reducible apply Dev.vfieldSample_sound
    | with_reducible refine Outcome.Sound.ok h_s ?_

theorem Dev.loseSupply_sound (d : Dev) (g : Nat) (h_d : d.Sound) : Dev.Sound (Dev.loseSupply d g) := by
  unfold Dev.loseSupply
  repeat' first
    | with_reducible assumption
    | with_reducible apply Dev.driveGroup_sound
    | with_reducible apply Dev.flag_sound
    | with_reducible apply Dev.inc_sound
    | with_reducible apply Dev.safeNeedRearm_sound
    | with_reducible apply Dev.Sound.ite

theorem execSupplyLost_sound (group : Fin 4) (s : State) (h_s : s.dev.Sound) : Outcome.Sound (execSupplyLost group s) := by
  unfold execSupplyLost
  repeat' first
    | with_reducible assumption
    | refine fun _ => ?_
    | with_reducible apply Dev.loseSupply_sound
    | with_reducible refine Outcome.Sound.ok h_s ?_

theorem Dev.clearGroup_sound (d : Dev) (g : Nat) (supply silence : Bool) (h_d : d.Sound) :
    Dev.Sound (Dev.clearGroup d g supply silence) := by
  unfold Dev.clearGroup
  repeat' first
    | with_reducible assumption
    | (extract_lets +onlyGivenNames -underBinder y; first
        | (refine Dev.Sound.part (P := Dev.Sound (by apply y)) (fun _ => ?_) ?_ <;> [clear_value y; subst y])
        | clear_value y)
    | with_reducible apply Dev.driveGroup_sound
    | with_reducible apply Dev.wb_sound
    | fail_if_no_progress (with_reducible refine Dev.Sound.upd rfl ?_)
    | with_reducible apply Dev.Sound.ite

theorem Dev.autoRearm_sound (d : Dev) (g : Nat) (h_d : d.Sound) : Dev.Sound (Dev.autoRearm d g) := by
  unfold Dev.autoRearm
  repeat' first
    | with_reducible assumption
    | (extract_lets +onlyGivenNames -underBinder y; clear_value y)
    | with_reducible apply Dev.clearGroup_sound
    | with_reducible apply Dev.Sound.ite

theorem execSupplyAutoRearm_sound (group : Fin 4) (s : State) (h_s : s.dev.Sound) :
    Outcome.Sound (execSupplyAutoRearm group s) := by
  unfold execSupplyAutoRearm
  repeat' first
    | with_reducible assumption
    | refine fun _ => ?_
    | with_reducible apply Dev.autoRearm_sound
    | with_reducible refine Outcome.Sound.ok h_s ?_

theorem execSilent1Timeout_sound (group : Fin 4) (s : State) (h_s : s.dev.Sound) :
    Outcome.Sound (execSilent1Timeout group s) := by
  unfold execSilent1Timeout
  repeat' first
    | with_reducible assumption
    | refine fun _ => ?_
    | (extract_lets +onlyGivenNames -underBinder y; first
        | (refine Dev.Sound.part (P := Dev.Sound (by apply y)) (fun _ => ?_) ?_ <;> [clear_value y; subst y])
        | clear_value y)
    | with_reducible apply Dev.driveGroup_sound
    | with_reducible apply Dev.flag_sound
    | with_reducible apply Dev.inc_sound
    | with_reducible apply Dev.reach_sound
    | with_reducible apply Dev.safeNeedRearm_sound
    | with_reducible refine Outcome.Sound.ok h_s ?_
    | fail_if_no_progress (with_reducible refine Dev.Sound.upd rfl ?_)
    | with_reducible apply Dev.Sound.ite

theorem execSilentOffTimeout_sound (group : Fin 4) (s : State) (h_s : s.dev.Sound) :
    Outcome.Sound (execSilentOffTimeout group s) := by
  unfold execSilentOffTimeout
  repeat' first
    | with_reducible assumption
    | refine fun _ => ?_
    | (extract_lets +onlyGivenNames -underBinder y; first
        | (refine Dev.Sound.part (P := Dev.Sound (by apply y)) (fun _ => ?_) ?_ <;> [clear_value y; subst y])
        | clear_value y)
    | with_reducible apply Dev.driveGroup_sound
    | with_reducible apply Dev.flag_sound
    | with_reducible apply Dev.reach_sound
    | with_reducible apply Dev.safeNeedRearm_sound
    | with_reducible refine Outcome.Sound.ok h_s ?_
    | fail_if_no_progress (with_reducible refine Dev.Sound.upd rfl ?_)
    | with_reducible apply Dev.Sound.ite

theorem Dev.outCfgWrite_sound (d : Dev) (o : Nat) (sig : Bool) (v : Nat) (h_d : d.Sound) :
    Dev.Sound (Dev.outCfgWrite d o sig v) := by
  unfold Dev.outCfgWrite
  repeat' first
    | with_reducible assumption
    | (extract_lets +onlyGivenNames -underBinder y; first
        | (refine Dev.Sound.part (P := Dev.Sound (by apply y)) (fun _ => ?_) ?_ <;> [clear_value y; subst y])
        | clear_value y)
    | with_reducible apply Dev.flag_sound
    | with_reducible apply Dev.Sound.w
    | fail_if_no_progress (with_reducible refine Dev.Sound.upd rfl ?_)
    | with_reducible apply Dev.Sound.ite

theorem execFioOutCfgWrite_sound (path : Path) (o : Fin 32) (sig : Bool) (v : Word) (s : State) (h_s : s.dev.Sound) :
    Outcome.Sound (execFioOutCfgWrite path o sig v s) := by
  unfold execFioOutCfgWrite
  repeat' first
    | with_reducible assumption
    | refine fun _ => ?_
    | with_reducible apply Dev.access_sound
    | with_reducible apply Dev.outCfgWrite_sound
    | with_reducible refine Outcome.Sound.ok h_s ?_

theorem execFioInfo_sound (p : Packet) (s : State) (h_s : s.dev.Sound) : Outcome.Sound (execFioInfo p s) := by
  unfold execFioInfo
  repeat' first
    | with_reducible assumption
    | refine fun _ => ?_
    | with_reducible apply Dev.runPacket_sound
    | with_reducible refine Outcome.Sound.ok h_s ?_

theorem execFioGrpRead_sound (p : Packet) (s : State) (h_s : s.dev.Sound) : Outcome.Sound (execFioGrpRead p s) := by
  unfold execFioGrpRead
  repeat' first
    | with_reducible assumption
    | refine fun _ => ?_
    | (extract_lets +onlyGivenNames -underBinder y; clear_value y)
    | with_reducible apply Dev.runPacket_sound
    | with_reducible refine Outcome.Sound.ok h_s ?_
    | with_reducible apply Dev.Sound.ite_fst

theorem Dev.outWrite_sound (d : Dev) (mask lv : Nat) (h_d : d.Sound) : Dev.Sound (Dev.outWrite d mask lv).1 := by
  unfold Dev.outWrite
  repeat' first
    | with_reducible assumption
    | (extract_lets +onlyGivenNames -underBinder y; clear_value y)
    | fail_if_no_progress (with_reducible refine Dev.Sound.upd rfl ?_)
    | with_reducible apply Dev.Sound.ite_fst

theorem execFioOutWrite_sound (p : Packet) (s : State) (h_s : s.dev.Sound) : Outcome.Sound (execFioOutWrite p s) := by
  unfold execFioOutWrite
  repeat' first
    | with_reducible assumption
    | refine fun _ => ?_
    | with_reducible apply Dev.outWrite_sound
    | with_reducible apply Dev.runPacket_sound
    | with_reducible refine Outcome.Sound.ok h_s ?_

theorem Dev.outClear_sound (d : Dev) (mask : Nat) (h_d : d.Sound) : Dev.Sound (Dev.outClear d mask).1 := by
  unfold Dev.outClear
  repeat' first
    | with_reducible assumption
    | refine fun _ => ?_
    | (extract_lets +onlyGivenNames -underBinder y; first
        | (refine Dev.Sound.part (P := Dev.Sound (by apply y)) (fun _ => ?_) ?_ <;> [clear_value y; subst y])
        | clear_value y)
    | with_reducible apply Dev.driveGroup_sound
    | with_reducible apply Dev.wb_sound
    | with_reducible apply Dev.Sound.each

theorem execFioOutClear_sound (p : Packet) (s : State) (h_s : s.dev.Sound) : Outcome.Sound (execFioOutClear p s) := by
  unfold execFioOutClear
  repeat' first
    | with_reducible assumption
    | refine fun _ => ?_
    | with_reducible apply Dev.outClear_sound
    | with_reducible apply Dev.runPacket_sound
    | with_reducible refine Outcome.Sound.ok h_s ?_

theorem Dev.rearmGroup_sound (d : Dev) (g : Nat) (h_d : d.Sound) : Dev.Sound (Dev.rearmGroup d g) := by
  unfold Dev.rearmGroup
  repeat' first
    | with_reducible assumption
    | (extract_lets +onlyGivenNames -underBinder y; first
        | (refine Dev.Sound.part (P := Dev.Sound (by apply y)) (fun _ => ?_) ?_ <;> [clear_value y; subst y])
        | clear_value y)
    | with_reducible apply Dev.clearGroup_sound
    | with_reducible apply Dev.driveGroup_sound
    | fail_if_no_progress (with_reducible refine Dev.Sound.upd rfl ?_)
    | with_reducible apply Dev.Sound.ite

theorem execFioRearm_sound (p : Packet) (s : State) (h_s : s.dev.Sound) : Outcome.Sound (execFioRearm p s) := by
  unfold execFioRearm
  repeat' first
    | with_reducible assumption
    | refine fun _ => ?_
    | (extract_lets +onlyGivenNames -underBinder y; first
        | (refine Dev.Sound.part (P := Dev.Sound (by apply y)) (fun _ => ?_) ?_ <;> [clear_value y; subst y])
        | clear_value y)
    | with_reducible apply Dev.rearmGroup_sound
    | with_reducible apply Dev.runPacket_sound
    | with_reducible refine Outcome.Sound.ok h_s ?_
    | with_reducible apply Dev.Sound.each

/-! ### Machine/Feeds.lean -/

theorem Dev.setLp_sound (d : Dev) (a : Nat) (x : LoopAx) (h_d : d.Sound) : Dev.Sound (Dev.setLp d a x) := by
  unfold Dev.setLp
  repeat' first
    | with_reducible assumption
    | (extract_lets +onlyGivenNames -underBinder y; clear_value y)
    | fail_if_no_progress (with_reducible refine Dev.Sound.upd rfl ?_)

theorem Dev.setPx_sound (d : Dev) (a : Nat) (x : PrfAx) (h_d : d.Sound) : Dev.Sound (Dev.setPx d a x) := by
  unfold Dev.setPx
  repeat' first
    | with_reducible assumption
    | (extract_lets +onlyGivenNames -underBinder y; clear_value y)
    | fail_if_no_progress (with_reducible refine Dev.Sound.upd rfl ?_)

theorem Dev.setTx_sound (d : Dev) (t : Nat) (x : TeamX) (h_d : d.Sound) : Dev.Sound (Dev.setTx d t x) := by
  unfold Dev.setTx
  repeat' first
    | with_reducible assumption
    | (extract_lets +onlyGivenNames -underBinder y; clear_value y)
    | fail_if_no_progress (with_reducible refine Dev.Sound.upd rfl ?_)

theorem Dev.setEx_sound (d : Dev) (e : Nat) (x : EncX) (h_d : d.Sound) : Dev.Sound (Dev.setEx d e x) := by
  unfold Dev.setEx
  repeat' first
    | with_reducible assumption
    | (extract_lets +onlyGivenNames -underBinder y; clear_value y)
    | fail_if_no_progress (with_reducible refine Dev.Sound.upd rfl ?_)

theorem Dev.setRp_sound (d : Dev) (p : Nat) (x : RingPort) (h_d : d.Sound) : Dev.Sound (Dev.setRp d p x) := by
  unfold Dev.setRp
  repeat' first
    | with_reducible assumption
    | (extract_lets +onlyGivenNames -underBinder y; clear_value y)
    | fail_if_no_progress (with_reducible refine Dev.Sound.upd rfl ?_)

end Sys2Proof.Machine
end

