-- ==== Sys2Proof/Laws/SoundMotion.lean ====
section
/-!
SUPPORT. Laws/SoundMotion.lean: the operations and commands of the calendar, the power teams, the steppers, the loop core, the
profile generator and the trace keep a device sound.
-/
namespace Sys2Proof.Machine

set_option linter.unusedTactic false
set_option linter.unreachableTactic false

/-! ### Machine/Calendar.lean -/

theorem Dev.setCoord_sound (d : Dev) (n : Nat) (x : Coord) (h_d : d.Sound) : Dev.Sound (Dev.setCoord d n x) := by
  unfold Dev.setCoord
  repeat' first
    | with_reducible assumption
    | (extract_lets +onlyGivenNames -underBinder y; clear_value y)
    | fail_if_no_progress (with_reducible refine Dev.Sound.upd rfl ?_)

theorem Dev.showCoord_sound (d : Dev) (n : Nat) (h_d : d.Sound) : Dev.Sound (Dev.showCoord d n) := by
  unfold Dev.showCoord
  repeat' first
    | with_reducible assumption
    | (extract_lets +onlyGivenNames -underBinder y; clear_value y)
    | with_reducible apply Dev.ws_sound

theorem Dev.applyPreset_sound (d : Dev) (n : Nat) (h_d : d.Sound) : Dev.Sound (Dev.applyPreset d n) := by
  unfold Dev.applyPreset
  repeat' first
    | with_reducible assumption
    | (extract_lets +onlyGivenNames -underBinder y; first
        | (refine Dev.Sound.part (P := ∀ z, y z = y z) (fun _ => ?_) (fun _ => rfl); subst y; beta_reduce)
        | clear_value y)
    | with_reducible apply Dev.flag_sound
    | with_reducible apply Dev.setCoord_sound
    | with_reducible apply Dev.Sound.ite
    | split

theorem Dev.latchCoord_sound (d : Dev) (n : Nat) (h_d : d.Sound) : Dev.Sound (Dev.latchCoord d n) := by
  unfold Dev.latchCoord
  repeat' first
    | with_reducible assumption
    | (extract_lets +onlyGivenNames -underBinder y; first
        | (refine Dev.Sound.part (P := Dev.Sound (by apply y)) (fun _ => ?_) ?_ <;> [clear_value y; subst y])
        | clear_value y)
    | with_reducible apply Dev.applyPreset_sound
    | with_reducible apply Dev.flag_sound
    | with_reducible apply Dev.setCoord_sound
    | with_reducible apply Dev.showCoord_sound
    | with_reducible apply Dev.wb_sound
    | with_reducible apply Dev.Sound.ite
    | split

theorem Dev.calendarBoundary_sound (d : Dev) (h_d : d.Sound) : Dev.Sound (Dev.calendarBoundary d) := by
  unfold Dev.calendarBoundary
  repeat' first
    | with_reducible assumption
    | refine fun _ => ?_
    | (extract_lets +onlyGivenNames -underBinder y; first
        | (refine Dev.Sound.part (P := Dev.Sound (by apply y)) (fun _ => ?_) ?_ <;> [clear_value y; subst y])
        | clear_value y)
    | with_reducible apply Dev.setCoord_sound
    | fail_if_no_progress (with_reducible refine Dev.Sound.upd rfl ?_)
    | with_reducible apply Dev.Sound.ite
    | with_reducible apply Dev.Sound.each

theorem execCalendarLatch_sound (s : State) (h_s : s.dev.Sound) : Outcome.Sound (execCalendarLatch s) := by
  unfold execCalendarLatch
  repeat' first
    | with_reducible assumption
    | refine fun _ => ?_
    | with_reducible apply Dev.latchCoord_sound
    | with_reducible refine Outcome.Sound.ok h_s ?_
    | with_reducible apply Dev.Sound.ite
    | with_reducible apply Dev.Sound.each

theorem Dev.entryBit_sound (d : Dev) (i bit : Nat) (v : Bool) (h_d : d.Sound) : Dev.Sound (Dev.entryBit d i bit v) := by
  unfold Dev.entryBit
  repeat' first
    | with_reducible assumption
    | with_reducible apply Dev.Sound.putMw

theorem Dev.countEnabled_sound (d : Dev) (h_d : d.Sound) : Dev.Sound (Dev.countEnabled d) := by
  unfold Dev.countEnabled
  repeat' first
    | with_reducible assumption
    | with_reducible apply Dev.Sound.w

theorem Dev.enableEntry_sound (d : Dev) (i : Nat) (h_d : d.Sound) : Dev.Sound (Dev.enableEntry d i) := by
  unfold Dev.enableEntry
  repeat' first
    | with_reducible assumption
    | (extract_lets +onlyGivenNames -underBinder y; first
        | (refine Dev.Sound.part (P := Dev.Sound (by apply y)) (fun _ => ?_) ?_ <;> [clear_value y; subst y])
        | clear_value y)
    | with_reducible apply Dev.countEnabled_sound
    | with_reducible apply Dev.entryBit_sound
    | fail_if_no_progress (with_reducible refine Dev.Sound.upd rfl ?_)
    | with_reducible apply Dev.Sound.ite

theorem Dev.disableEntry_sound (d : Dev) (i : Nat) (h_d : d.Sound) : Dev.Sound (Dev.disableEntry d i) := by
  unfold Dev.disableEntry
  repeat' first
    | with_reducible assumption
    | (extract_lets +onlyGivenNames -underBinder y; first
        | (refine Dev.Sound.part (P := Dev.Sound (by apply y)) (fun _ => ?_) ?_ <;> [clear_value y; subst y])
        | clear_value y)
    | with_reducible apply Dev.countEnabled_sound
    | with_reducible apply Dev.entryBit_sound
    | fail_if_no_progress (with_reducible refine Dev.Sound.upd rfl ?_)

theorem Dev.entryWrite_sound (d : Dev) (i w v : Nat) (h_d : d.Sound) : Dev.Sound (Dev.entryWrite d i w v) := by
  unfold Dev.entryWrite
  repeat' first
    | with_reducible assumption
    | (extract_lets +onlyGivenNames -underBinder y; first
        | (refine Dev.Sound.part (P := Dev.Sound (by apply y)) (fun _ => ?_) ?_ <;> [clear_value y; subst y])
        | clear_value y)
    | with_reducible apply Dev.disableEntry_sound
    | with_reducible apply Dev.enableEntry_sound
    | with_reducible apply Dev.entryBit_sound
    | with_reducible apply Dev.flag_sound
    | with_reducible apply Dev.Sound.putMw
    | with_reducible apply Dev.Sound.ite

theorem execCalEntryWrite_sound (path : Path) (i : Fin 4096) (w : Fin 8) (v : Word) (s : State) (h_s : s.dev.Sound) :
    Outcome.Sound (execCalEntryWrite path i w v s) := by
  unfold execCalEntryWrite
  repeat' first
    | with_reducible assumption
    | refine fun _ => ?_
    | with_reducible apply Dev.access_sound
    | with_reducible apply Dev.entryWrite_sound
    | with_reducible refine Outcome.Sound.ok h_s ?_

theorem execCalEntryEnableWrite_sound (path : Path) (i : Fin 4096) (v : Word) (s : State) (h_s : s.dev.Sound) :
    Outcome.Sound (execCalEntryEnableWrite path i v s) := by
  unfold execCalEntryEnableWrite
  repeat' first
    | with_reducible assumption
    | refine fun _ => ?_
    | with_reducible apply Dev.access_sound
    | with_reducible apply Dev.entryWrite_sound
    | with_reducible refine Outcome.Sound.ok h_s ?_

theorem Dev.setCalLevel_sound (d : Dev) (e : Entry) (lv : Bool) (instant : Nat) (h_d : d.Sound) :
    Dev.Sound (Dev.setCalLevel d e lv instant) := by
  unfold Dev.setCalLevel
  repeat' first
    | with_reducible assumption
    | (extract_lets +onlyGivenNames -underBinder y; first
        | (refine Dev.Sound.part (P := Dev.Sound (by apply y)) (fun _ => ?_) ?_ <;> [clear_value y; subst y])
        | clear_value y)
    | with_reducible apply Dev.calendarOutput_sound
    | fail_if_no_progress (with_reducible refine Dev.Sound.upd rfl ?_)
    | with_reducible apply Dev.Sound.ite
    | split

theorem Dev.calNotice_sound (d : Dev) (pf1 : Bool) (i : Nat) (c : Coord) (h_d : d.Sound) :
    Dev.Sound (Dev.calNotice d pf1 i c) := by
  unfold Dev.calNotice
  repeat' first
    | with_reducible assumption
    | (extract_lets +onlyGivenNames -underBinder y; clear_value y)
    | with_reducible apply Dev.notice_sound
    | with_reducible apply Dev.Sound.ite

theorem Dev.fireAction_sound (d : Dev) (i : Nat) (e : Entry) (h_d : d.Sound) : Dev.Sound (Dev.fireAction d i e) := by
  unfold Dev.fireAction
  repeat' first
    | with_reducible assumption
    | (extract_lets +onlyGivenNames -underBinder y; clear_value y)
    | with_reducible apply Dev.calNotice_sound
    | with_reducible apply Dev.enableEntry_sound
    | with_reducible apply Dev.flag_sound
    | fail_if_no_progress (with_reducible refine Dev.Sound.upd rfl ?_)
    | with_reducible apply Dev.Sound.ite
    | split

theorem Dev.markFired_sound (d : Dev) (i : Nat) (h_d : d.Sound) : Dev.Sound (Dev.markFired d i) := by
  unfold Dev.markFired
  repeat' first
    | with_reducible assumption
    | (extract_lets +onlyGivenNames -underBinder y; first
        | (refine Dev.Sound.part (P := Dev.Sound (by apply y)) (fun _ => ?_) ?_ <;> [clear_value y; subst y])
        | clear_value y)
    | with_reducible apply Dev.entryBit_sound
    | with_reducible apply Dev.inc_sound
    | fail_if_no_progress (with_reducible refine Dev.Sound.upd rfl ?_)

theorem Dev.afterCross_sound (d : Dev) (i : Nat) (e : Entry) (h_d : d.Sound) : Dev.Sound (Dev.afterCross d i e) := by
  unfold Dev.afterCross
  repeat' first
    | with_reducible assumption
    | (extract_lets +onlyGivenNames -underBinder y; first
        | (refine Dev.Sound.part (P := Dev.Sound (by apply y)) (fun _ => ?_) ?_ <;> [clear_value y; subst y])
        | clear_value y)
    | with_reducible apply Dev.disableEntry_sound
    | with_reducible apply Dev.entryBit_sound
    | with_reducible apply Dev.Sound.putMw
    | fail_if_no_progress (with_reducible refine Dev.Sound.upd rfl ?_)
    | split

theorem Dev.predict_sound (d : Dev) (i : Nat) (e : Entry) (c : Coord) (m : Nat) (x : Int) (rising : Bool) (lv : Bool)
    (h_d : d.Sound) :
    Dev.Sound (Dev.predict d i e c m x rising lv) := by
  unfold Dev.predict
  repeat' first
    | with_reducible assumption
    | (extract_lets +onlyGivenNames -underBinder y; first
        | (refine Dev.Sound.part (P := Dev.Sound (by apply y)) (fun _ => ?_) ?_ <;> [clear_value y; subst y])
        | clear_value y)
    | with_reducible apply Dev.entryBit_sound
    | with_reducible apply Dev.flag_sound
    | with_reducible apply Dev.inc_sound
    | fail_if_no_progress (with_reducible refine Dev.Sound.upd rfl ?_)
    | with_reducible apply Dev.Sound.ite

theorem Dev.dropSwitch_sound (d : Dev) (w : Switch) (h_d : d.Sound) : Dev.Sound (Dev.dropSwitch d w) := by
  unfold Dev.dropSwitch
  repeat' first
    | with_reducible assumption
    | (extract_lets +onlyGivenNames -underBinder y; first
        | (refine Dev.Sound.part (P := Dev.Sound (by apply y)) (fun _ => ?_) ?_ <;> [clear_value y; subst y])
        | clear_value y)
    | with_reducible apply Dev.entryBit_sound
    | fail_if_no_progress (with_reducible refine Dev.Sound.upd rfl ?_)
    | with_reducible apply Dev.Sound.ite

theorem Dev.retract_sound (d : Dev) (w : Switch) (h_d : d.Sound) : Dev.Sound (Dev.retract d w) := by
  unfold Dev.retract
  repeat' first
    | with_reducible assumption
    | (extract_lets +onlyGivenNames -underBinder y; first
        | (refine Dev.Sound.part (P := Dev.Sound (by apply y)) (fun _ => ?_) ?_ <;> [clear_value y; subst y])
        | clear_value y)
    | with_reducible apply Dev.dropSwitch_sound
    | with_reducible apply Dev.inc_sound
    | with_reducible apply Dev.setCalLevel_sound
    | with_reducible apply Dev.unpublishSwitch_sound
    | fail_if_no_progress (with_reducible refine Dev.Sound.upd rfl ?_)
    | with_reducible apply Dev.Sound.ite

theorem evalLevel_sound (x : Dev × EvalAcc) (e : Entry) (lv : Bool) (h_x : x.1.Sound) : Dev.Sound (evalLevel x e lv).1 := by
  unfold evalLevel
  repeat' first
    | with_reducible assumption
    | with_reducible apply Dev.setCalLevel_sound

theorem evalFire_sound (x : Dev × EvalAcc) (i : Nat) (e : Entry) (lv now : Bool) (h_x : x.1.Sound) :
    Dev.Sound (evalFire x i e lv now).1 := by
  unfold evalFire
  repeat' first
    | with_reducible assumption
    | (extract_lets +onlyGivenNames -underBinder y; first
        | (refine Dev.Sound.part (P := Dev.Sound (by apply y)) (fun _ => ?_) ?_ <;> [clear_value y; subst y])
        | (refine Dev.Sound.part (P := Dev.Sound y.1) (fun _ => ?_) ?_ <;> [clear_value y; subst y]))
    | with_reducible apply Dev.afterCross_sound
    | with_reducible apply evalLevel_sound
    | with_reducible apply Dev.fireAction_sound
    | with_reducible apply Dev.markFired_sound
    | with_reducible apply Dev.Sound.ite
    | with_reducible apply Dev.Sound.ite_fst

theorem decideSwitch_sound (x : Dev × EvalAcc) (i : Nat) (e : Entry) (c : Coord) (m : Nat) (q : Bool) (w : Switch)
    (redo : Dev → Dev) (h_x : x.1.Sound) (h_redo : ∀ z0, Dev.Sound z0 → Dev.Sound (redo z0)) :
    Dev.Sound (decideSwitch x i e c m q w redo).1 := by
  unfold decideSwitch
  repeat' first
    | with_reducible assumption
    | (extract_lets +onlyGivenNames -underBinder y; first
        | (refine Dev.Sound.part (P := Dev.Sound (by apply y)) (fun _ => ?_) ?_ <;> [clear_value y; subst y])
        | clear_value y)
    | with_reducible apply Dev.dropSwitch_sound
    | with_reducible apply evalFire_sound
    | with_reducible apply Dev.retract_sound
    | fail_if_no_progress (with_reducible refine Dev.Sound.upd rfl ?_)
    | with_reducible apply Dev.Sound.ite_fst
    | with_reducible apply h_redo
    | split

theorem Dev.predictCross_sound (d : Dev) (i : Nat) (e : Entry) (c : Coord) (m : Nat) (h_d : d.Sound) :
    Dev.Sound (Dev.predictCross d i e c m) := by
  unfold Dev.predictCross
  repeat' first
    | with_reducible assumption
    | (extract_lets +onlyGivenNames -underBinder y; clear_value y)
    | with_reducible apply Dev.predict_sound
    | with_reducible apply Dev.Sound.ite

theorem evalCross_sound (x : Dev × EvalAcc) (i : Nat) (e : Entry) (c : Coord) (m : Nat) (em : EventMem) (q : Bool)
    (h_x : x.1.Sound) :
    Dev.Sound (evalCross x i e c m em q).1 := by
  unfold evalCross
  repeat' first
    | with_reducible assumption
    | refine fun _ => ?_
    | (extract_lets +onlyGivenNames -underBinder y; first
        | (refine Dev.Sound.part (P := ∀ z, y z = y z) (fun _ => ?_) (fun _ => rfl); subst y; beta_reduce)
        | (refine Dev.Sound.part (P := Dev.Sound (by apply y)) (fun _ => ?_) ?_ <;> [clear_value y; subst y])
        | clear_value y)
    | with_reducible apply decideSwitch_sound
    | with_reducible apply Dev.entryBit_sound
    | with_reducible apply evalFire_sound
    | with_reducible apply Dev.inc_sound
    | with_reducible apply Dev.predictCross_sound
    | fail_if_no_progress (with_reducible refine Dev.Sound.upd rfl ?_)
    | with_reducible apply Dev.Sound.ite
    | with_reducible apply Dev.Sound.ite_fst
    | split

theorem evalWindow_sound (x : Dev × EvalAcc) (i : Nat) (e : Entry) (c : Coord) (em : EventMem) (q : Bool) (h_x : x.1.Sound) :
    Dev.Sound (evalWindow x i e c em q).1 := by
  unfold evalWindow
  repeat' first
    | with_reducible assumption
    | (extract_lets +onlyGivenNames -underBinder y; clear_value y)
    | with_reducible apply evalLevel_sound
    | with_reducible apply Dev.fireAction_sound
    | with_reducible apply Dev.markFired_sound
    | fail_if_no_progress (with_reducible refine Dev.Sound.upd rfl ?_)
    | with_reducible apply Dev.Sound.ite_fst

theorem Dev.predictCam_sound (d : Dev) (i : Nat) (e : Entry) (c : Coord) (m : Nat) (inside : Bool) (h_d : d.Sound) :
    Dev.Sound (Dev.predictCam d i e c m inside) := by
  unfold Dev.predictCam
  repeat' first
    | with_reducible assumption
    | (extract_lets +onlyGivenNames -underBinder y; clear_value y)
    | with_reducible apply Dev.predict_sound

theorem evalCam_sound (x : Dev × EvalAcc) (i : Nat) (e : Entry) (c : Coord) (m : Nat) (em : EventMem) (q : Bool)
    (h_x : x.1.Sound) :
    Dev.Sound (evalCam x i e c m em q).1 := by
  unfold evalCam
  repeat' first
    | with_reducible assumption
    | refine fun _ => ?_
    | (extract_lets +onlyGivenNames -underBinder y; first
        | (refine Dev.Sound.part (P := ∀ z, y z = y z) (fun _ => ?_) (fun _ => rfl); subst y; beta_reduce)
        | (refine Dev.Sound.part (P := Dev.Sound (by apply y)) (fun _ => ?_) ?_ <;> [clear_value y; subst y])
        | (refine Dev.Sound.part (P := Dev.Sound y.1) (fun _ => ?_) ?_ <;> [clear_value y; subst y])
        | clear_value y)
    | with_reducible apply decideSwitch_sound
    | with_reducible apply evalFire_sound
    | with_reducible apply evalLevel_sound
    | with_reducible apply Dev.inc_sound
    | with_reducible apply Dev.predictCam_sound
    | fail_if_no_progress (with_reducible refine Dev.Sound.upd rfl ?_)
    | with_reducible apply Dev.Sound.ite
    | with_reducible apply Dev.Sound.ite_fst
    | split

theorem evalEvent_sound (x : Dev × EvalAcc) (i : Nat) (h_x : x.1.Sound) : Dev.Sound (evalEvent x i).1 := by
  unfold evalEvent
  repeat' first
    | with_reducible assumption
    | refine fun _ => ?_
    | (extract_lets +onlyGivenNames -underBinder y; clear_value y)
    | with_reducible apply evalCam_sound
    | with_reducible apply evalCross_sound
    | with_reducible apply evalWindow_sound
    | with_reducible apply Dev.retract_sound
    | with_reducible apply Dev.Sound.ite_fst
    | with_reducible apply Dev.Sound.each
    | split

theorem Dev.publishCalendar_sound (d : Dev) (h_d : d.Sound) : Dev.Sound (Dev.publishCalendar d) := by
  unfold Dev.publishCalendar
  repeat' first
    | with_reducible assumption
    | with_reducible apply Dev.publish_sound
    | split

theorem Dev.calendarEvaluate_sound (d : Dev) (h_d : d.Sound) : Dev.Sound (Dev.calendarEvaluate d) := by
  unfold Dev.calendarEvaluate
  repeat' first
    | with_reducible assumption
    | refine fun _ => ?_
    | (extract_lets +onlyGivenNames -underBinder y; first
        | (refine Dev.Sound.part (P := Dev.Sound (by apply y)) (fun _ => ?_) ?_ <;> [clear_value y; subst y])
        | clear_value y)
    | with_reducible apply Dev.dropSwitch_sound
    | with_reducible apply evalEvent_sound
    | with_reducible apply Dev.flag_sound
    | with_reducible apply Dev.inc_sound
    | with_reducible apply Dev.publishCalendar_sound
    | with_reducible apply Dev.retract_sound
    | fail_if_no_progress (with_reducible refine Dev.Sound.upd rfl ?_)
    | with_reducible apply Dev.Sound.ite
    | with_reducible apply Dev.Sound.each
    | with_reducible apply Dev.Sound.foldl_fst

theorem execCalendarEvaluation_sound (s : State) (h_s : s.dev.Sound) : Outcome.Sound (execCalendarEvaluation s) := by
  unfold execCalendarEvaluation
  repeat' first
    | with_reducible assumption
    | refine fun _ => ?_
    | with_reducible apply Dev.calendarEvaluate_sound
    | with_reducible refine Outcome.Sound.ok h_s ?_

theorem Dev.switchInstant_sound (d : Dev) (h_d : d.Sound) : Dev.Sound (Dev.switchInstant d) := by
  unfold Dev.switchInstant
  repeat' first
    | with_reducible assumption
    | refine fun _ => ?_
    | (extract_lets +onlyGivenNames -underBinder y; first
        | (refine Dev.Sound.part (P := Dev.Sound (by apply y)) (fun _ => ?_) ?_ <;> [clear_value y; subst y])
        | clear_value y)
    | with_reducible apply Dev.flag_sound
    | with_reducible apply Dev.inc_sound
    | with_reducible apply Dev.publishSwitch_sound
    | with_reducible apply Dev.setCalLevel_sound
    | fail_if_no_progress (with_reducible refine Dev.Sound.upd rfl ?_)
    | with_reducible apply Dev.Sound.ite
    | with_reducible apply Dev.Sound.each
    | split

theorem execSwitchInstant_sound (s : State) (h_s : s.dev.Sound) : Outcome.Sound (execSwitchInstant s) := by
  unfold execSwitchInstant
  repeat' first
    | with_reducible assumption
    | refine fun _ => ?_
    | with_reducible apply Dev.switchInstant_sound
    | with_reducible refine Outcome.Sound.ok h_s ?_

theorem Dev.coordCfgWrite_sound (d : Dev) (g : Grade) (n v : Nat) (h_d : d.Sound) : Dev.Sound (Dev.coordCfgWrite d g n v) := by
  unfold Dev.coordCfgWrite
  repeat' first
    | with_reducible assumption
    | (extract_lets +onlyGivenNames -underBinder y; first
        | (refine Dev.Sound.part (P := Dev.Sound (by apply y)) (fun _ => ?_) ?_ <;> [clear_value y; subst y])
        | clear_value y)
    | with_reducible apply Dev.flag_sound
    | with_reducible apply Dev.setCoord_sound
    | with_reducible apply Dev.wb_sound
    | with_reducible apply Dev.Sound.w
    | with_reducible apply Dev.Sound.ite

theorem execCoordCfgWrite_sound (path : Path) (n : Fin 8) (v : Word) (s : State) (h_s : s.dev.Sound) :
    Outcome.Sound (execCoordCfgWrite path n v s) := by
  unfold execCoordCfgWrite
  repeat' first
    | with_reducible assumption
    | refine fun _ => ?_
    | with_reducible apply Dev.access_sound
    | with_reducible apply Dev.coordCfgWrite_sound
    | with_reducible refine Outcome.Sound.ok h_s ?_

theorem execCoordRead_sound (p : Packet) (s : State) (h_s : s.dev.Sound) : Outcome.Sound (execCoordRead p s) := by
  unfold execCoordRead
  repeat' first
    | with_reducible assumption
    | refine fun _ => ?_
    | (extract_lets +onlyGivenNames -underBinder y; clear_value y)
    | with_reducible apply Dev.runPacket_sound
    | with_reducible refine Outcome.Sound.ok h_s ?_
    | with_reducible apply Dev.Sound.ite_fst

theorem Dev.coordPreset_sound (d : Dev) (n : Nat) (v : Int) (h_d : d.Sound) : Dev.Sound (Dev.coordPreset d n v).1 := by
  unfold Dev.coordPreset
  repeat' first
    | with_reducible assumption
    | (extract_lets +onlyGivenNames -underBinder y; clear_value y)
    | with_reducible apply Dev.setCoord_sound
    | with_reducible apply Dev.Sound.ite_fst

theorem execCoordPreset_sound (p : Packet) (s : State) (h_s : s.dev.Sound) : Outcome.Sound (execCoordPreset p s) := by
  unfold execCoordPreset
  repeat' first
    | with_reducible assumption
    | refine fun _ => ?_
    | with_reducible apply Dev.coordPreset_sound
    | with_reducible apply Dev.runPacket_sound
    | with_reducible refine Outcome.Sound.ok h_s ?_

theorem Dev.calWrite_sound (d : Dev) (i : Nat) (ws : List Nat) (h_d : d.Sound) : Dev.Sound (Dev.calWrite d i ws).1 := by
  unfold Dev.calWrite
  repeat' first
    | with_reducible assumption
    | refine fun _ => ?_
    | (extract_lets +onlyGivenNames -underBinder y; first
        | (refine Dev.Sound.part (P := Dev.Sound (by apply y)) (fun _ => ?_) ?_ <;> [clear_value y; subst y])
        | clear_value y)
    | with_reducible apply Dev.Sound.putMw
    | with_reducible apply Dev.Sound.ite_fst
    | with_reducible apply Dev.Sound.each

theorem execCalWrite_sound (p : Packet) (s : State) (h_s : s.dev.Sound) : Outcome.Sound (execCalWrite p s) := by
  unfold execCalWrite
  repeat' first
    | with_reducible assumption
    | refine fun _ => ?_
    | with_reducible apply Dev.calWrite_sound
    | with_reducible apply Dev.runPacket_sound
    | with_reducible refine Outcome.Sound.ok h_s ?_

theorem execCalRead_sound (p : Packet) (s : State) (h_s : s.dev.Sound) : Outcome.Sound (execCalRead p s) := by
  unfold execCalRead
  repeat' first
    | with_reducible assumption
    | refine fun _ => ?_
    | with_reducible apply Dev.runPacket_sound
    | with_reducible refine Outcome.Sound.ok h_s ?_
    | split

theorem Dev.calEnable_sound (d : Dev) (i n on : Nat) (h_d : d.Sound) : Dev.Sound (Dev.calEnable d i n on).1 := by
  unfold Dev.calEnable
  repeat' first
    | with_reducible assumption
    | refine fun _ => ?_
    | (extract_lets +onlyGivenNames -underBinder y; clear_value y)
    | with_reducible apply Dev.disableEntry_sound
    | with_reducible apply Dev.enableEntry_sound
    | with_reducible apply Dev.flag_sound
    | with_reducible apply Dev.Sound.ite_fst
    | with_reducible apply Dev.Sound.each
    | split

theorem execCalEnable_sound (p : Packet) (s : State) (h_s : s.dev.Sound) : Outcome.Sound (execCalEnable p s) := by
  unfold execCalEnable
  repeat' first
    | with_reducible assumption
    | refine fun _ => ?_
    | with_reducible apply Dev.calEnable_sound
    | with_reducible apply Dev.runPacket_sound
    | with_reducible refine Outcome.Sound.ok h_s ?_

theorem execCalCounters_sound (p : Packet) (s : State) (h_s : s.dev.Sound) : Outcome.Sound (execCalCounters p s) := by
  unfold execCalCounters
  repeat' first
    | with_reducible assumption
    | refine fun _ => ?_
    | with_reducible apply Dev.runPacket_sound
    | with_reducible refine Outcome.Sound.ok h_s ?_

/-! ### Machine/Team.lean -/

theorem Dev.driveTeam_sound (d : Dev) (t : Nat) (h_d : d.Sound) : Dev.Sound (Dev.driveTeam d t) := by
  unfold Dev.driveTeam
  repeat' first
    | with_reducible assumption
    | (extract_lets +onlyGivenNames -underBinder y; clear_value y)
    | with_reducible apply Dev.setTx_sound
    | with_reducible apply Dev.wb_sound
    | with_reducible apply Dev.Sound.w

theorem Dev.countDrops_sound (d : Dev) (t : Nat) (h_d : d.Sound) : Dev.Sound (Dev.countDrops d t) := by
  unfold Dev.countDrops
  repeat' first
    | with_reducible assumption
    | (extract_lets +onlyGivenNames -underBinder y; clear_value y)
    | with_reducible apply Dev.add_sound
    | with_reducible apply Dev.flag_sound
    | with_reducible apply Dev.Sound.ite

theorem Dev.tripTeam_sound (d : Dev) (t : Nat) (src : TripSrc) (h_d : d.Sound) : Dev.Sound (Dev.tripTeam d t src) := by
  unfold Dev.tripTeam
  repeat' first
    | with_reducible assumption
    | (extract_lets +onlyGivenNames -underBinder y; first
        | (refine Dev.Sound.part (P := Dev.Sound (by apply y)) (fun _ => ?_) ?_ <;> [clear_value y; subst y])
        | clear_value y)
    | with_reducible apply Dev.driveTeam_sound
    | with_reducible apply Dev.flag_sound
    | with_reducible apply Dev.inc_sound
    | with_reducible apply Dev.setTx_sound
    | with_reducible apply Dev.Sound.w
    | fail_if_no_progress (with_reducible refine Dev.Sound.upd rfl ?_)
    | with_reducible apply Dev.Sound.ite
    | split

theorem execTripPin_sound (t : Fin 24) (s : State) (h_s : s.dev.Sound) : Outcome.Sound (execTripPin t s) := by
  unfold execTripPin
  repeat' first
    | with_reducible assumption
    | refine fun _ => ?_
    | (extract_lets +onlyGivenNames -underBinder y; first
        | (refine Dev.Sound.part (P := Dev.Sound (by apply y)) (fun _ => ?_) ?_ <;> [clear_value y; subst y])
        | clear_value y)
    | with_reducible apply Dev.setTx_sound
    | with_reducible apply Dev.tripTeam_sound
    | with_reducible refine Outcome.Sound.ok h_s ?_
    | with_reducible apply Dev.Sound.ite

theorem execGtripInput_sound (g : Fin 4) (s : State) (h_s : s.dev.Sound) : Outcome.Sound (execGtripInput g s) := by
  unfold execGtripInput
  repeat' first
    | with_reducible assumption
    | refine fun _ => ?_
    | (extract_lets +onlyGivenNames -underBinder y; first
        | (refine Dev.Sound.part (P := Dev.Sound (by apply y)) (fun _ => ?_) ?_ <;> [clear_value y; subst y])
        | clear_value y)
    | with_reducible apply Dev.tripTeam_sound
    | with_reducible refine Outcome.Sound.ok h_s ?_
    | fail_if_no_progress (with_reducible refine Dev.Sound.upd rfl ?_)
    | with_reducible apply Dev.Sound.each

theorem execTripInputRelease_sound (input : Fin 28) (s : State) (h_s : s.dev.Sound) :
    Outcome.Sound (execTripInputRelease input s) := by
  unfold execTripInputRelease
  repeat' first
    | with_reducible assumption
    | refine fun _ => ?_
    | (extract_lets +onlyGivenNames -underBinder y; first
        | (refine Dev.Sound.part (P := Dev.Sound (by apply y)) (fun _ => ?_) ?_ <;> [clear_value y; subst y])
        | clear_value y)
    | with_reducible apply Dev.setTx_sound
    | with_reducible refine Outcome.Sound.ok h_s ?_
    | fail_if_no_progress (with_reducible refine Dev.Sound.upd rfl ?_)
    | with_reducible apply Dev.Sound.ite
    | with_reducible apply Dev.Sound.each

theorem Dev.clearTrip_sound (d : Dev) (t : Nat) (h_d : d.Sound) : Dev.Sound (Dev.clearTrip d t) := by
  unfold Dev.clearTrip
  repeat' first
    | with_reducible assumption
    | (extract_lets +onlyGivenNames -underBinder y; first
        | (refine Dev.Sound.part (P := Dev.Sound (by apply y)) (fun _ => ?_) ?_ <;> [clear_value y; subst y])
        | clear_value y)
    | with_reducible apply Dev.driveTeam_sound
    | with_reducible apply Dev.flag_sound
    | with_reducible apply Dev.inc_sound
    | with_reducible apply Dev.setTx_sound
    | with_reducible apply Dev.Sound.w
    | with_reducible apply Dev.Sound.ite

theorem Dev.setSto_sound (d : Dev) (t : Nat) (on : Bool) (h_d : d.Sound) : Dev.Sound (Dev.setSto d t on) := by
  unfold Dev.setSto
  repeat' first
    | with_reducible assumption
    | (extract_lets +onlyGivenNames -underBinder y; first
        | (refine Dev.Sound.part (P := Dev.Sound (by apply y)) (fun _ => ?_) ?_ <;> [clear_value y; subst y])
        | clear_value y)
    | with_reducible apply Dev.driveTeam_sound
    | with_reducible apply Dev.flag_sound
    | with_reducible apply Dev.setTx_sound
    | with_reducible apply Dev.wb_sound
    | with_reducible apply Dev.Sound.w
    | fail_if_no_progress (with_reducible refine Dev.Sound.upd rfl ?_)
    | with_reducible apply Dev.Sound.ite

theorem Dev.loseDemand_sound (d : Dev) (t : Nat) (h_d : d.Sound) : Dev.Sound (Dev.loseDemand d t) := by
  unfold Dev.loseDemand
  repeat' first
    | with_reducible assumption
    | (extract_lets +onlyGivenNames -underBinder y; clear_value y)
    | with_reducible apply Dev.driveTeam_sound
    | with_reducible apply Dev.flag_sound
    | with_reducible apply Dev.setTx_sound
    | with_reducible apply Dev.Sound.w

theorem execDemandHoldExpire_sound (t : Fin 24) (s : State) (h_s : s.dev.Sound) : Outcome.Sound (execDemandHoldExpire t s) := by
  unfold execDemandHoldExpire
  repeat' first
    | with_reducible assumption
    | refine fun _ => ?_
    | with_reducible apply Dev.loseDemand_sound
    | with_reducible refine Outcome.Sound.ok h_s ?_
    | with_reducible apply Dev.Sound.ite

theorem execTeamCtrlForceTrip_sound (path : Path) (t : Fin 24) (s : State) (h_s : s.dev.Sound) :
    Outcome.Sound (execTeamCtrlForceTrip path t s) := by
  unfold execTeamCtrlForceTrip
  repeat' first
    | with_reducible assumption
    | refine fun _ => ?_
    | with_reducible apply Dev.access_sound
    | with_reducible apply Dev.tripTeam_sound
    | with_reducible refine Outcome.Sound.ok h_s ?_

theorem execTeamCtrlTripClear_sound (path : Path) (t : Fin 24) (s : State) (h_s : s.dev.Sound) :
    Outcome.Sound (execTeamCtrlTripClear path t s) := by
  unfold execTeamCtrlTripClear
  repeat' first
    | with_reducible assumption
    | refine fun _ => ?_
    | with_reducible apply Dev.access_sound
    | with_reducible apply Dev.clearTrip_sound
    | with_reducible refine Outcome.Sound.ok h_s ?_

theorem Dev.stepPeriod_sound (d : Dev) (t j : Nat) (h_d : d.Sound) : Dev.Sound (Dev.stepPeriod d t j) := by
  unfold Dev.stepPeriod
  repeat' first
    | with_reducible assumption
    | (extract_lets +onlyGivenNames -underBinder y; clear_value y)
    | with_reducible apply Dev.setTx_sound
    | with_reducible apply Dev.ws_sound
    | with_reducible apply Dev.Sound.w

theorem Dev.stepPeriodEnd_sound (d : Dev) (t : Nat) (h_d : d.Sound) : Dev.Sound (Dev.stepPeriodEnd d t) := by
  unfold Dev.stepPeriodEnd
  repeat' first
    | with_reducible assumption
    | (extract_lets +onlyGivenNames -underBinder y; first
        | (refine Dev.Sound.part (P := ∀ z, y z = y z) (fun _ => ?_) (fun _ => rfl); subst y; beta_reduce)
        | clear_value y)
    | with_reducible apply Dev.add_sound
    | with_reducible apply Dev.flag_sound
    | with_reducible apply Dev.setTx_sound
    | with_reducible apply Dev.Sound.ite

theorem Dev.stepMode_sound (d : Dev) (t : Nat) (h_d : d.Sound) : Dev.Sound (Dev.stepMode d t) := by
  unfold Dev.stepMode
  repeat' first
    | with_reducible assumption
    | (extract_lets +onlyGivenNames -underBinder y; clear_value y)
    | with_reducible apply Dev.incWrap_sound
    | with_reducible apply Dev.setTx_sound
    | with_reducible apply Dev.wb_sound
    | with_reducible apply Dev.Sound.ite

theorem Dev.stepEpoch_sound (d : Dev) (t : Nat) (h_d : d.Sound) : Dev.Sound (Dev.stepEpoch d t) := by
  unfold Dev.stepEpoch
  repeat' first
    | with_reducible assumption
    | (extract_lets +onlyGivenNames -underBinder y; first
        | (refine Dev.Sound.part (P := Dev.Sound (by apply y)) (fun _ => ?_) ?_ <;> [clear_value y; subst y])
        | clear_value y)
    | with_reducible apply Dev.setTx_sound
    | with_reducible apply Dev.stepMode_sound
    | with_reducible apply Dev.wb_sound
    | with_reducible apply Dev.Sound.w
    | split

theorem execTstillExpire_sound (t : Fin 24) (s : State) (h_s : s.dev.Sound) : Outcome.Sound (execTstillExpire t s) := by
  unfold execTstillExpire
  repeat' first
    | with_reducible assumption
    | refine fun _ => ?_
    | (extract_lets +onlyGivenNames -underBinder y; clear_value y)
    | with_reducible apply Dev.flag_sound
    | with_reducible apply Dev.setTx_sound
    | with_reducible refine Outcome.Sound.ok h_s ?_
    | with_reducible apply Dev.Sound.ite

theorem Dev.stageTeam_sound (d : Dev) (t : Nat) (h_d : d.Sound) : Dev.Sound (Dev.stageTeam d t) := by
  unfold Dev.stageTeam
  repeat' first
    | with_reducible assumption
    | (extract_lets +onlyGivenNames -underBinder y; first
        | (refine Dev.Sound.part (P := ∀ z, y z = y z) (fun _ => ?_) (fun _ => rfl); subst y; beta_reduce)
        | clear_value y)
    | with_reducible apply Dev.setTx_sound

theorem Dev.loadShadows_sound (d : Dev) (t : Nat) (h_d : d.Sound) : Dev.Sound (Dev.loadShadows d t) := by
  unfold Dev.loadShadows
  repeat' first
    | with_reducible assumption
    | (extract_lets +onlyGivenNames -underBinder y; first
        | (refine Dev.Sound.part (P := ∀ z, y z = y z) (fun _ => ?_) (fun _ => rfl); subst y; beta_reduce)
        | clear_value y)
    | with_reducible apply Dev.setTx_sound

theorem Dev.applyEnable_sound (d : Dev) (t : Nat) (h_d : d.Sound) : Dev.Sound (Dev.applyEnable d t) := by
  unfold Dev.applyEnable
  repeat' first
    | with_reducible assumption
    | (extract_lets +onlyGivenNames -underBinder y; first
        | (refine Dev.Sound.part (P := Dev.Sound (by apply y)) (fun _ => ?_) ?_ <;> [clear_value y; subst y])
        | clear_value y)
    | with_reducible apply Dev.setTx_sound
    | with_reducible apply Dev.wb_sound
    | with_reducible apply Dev.Sound.w
    | split

theorem Dev.loadDemands_sound (d : Dev) (t : Nat) (h_d : d.Sound) : Dev.Sound (Dev.loadDemands d t) := by
  unfold Dev.loadDemands
  repeat' first
    | with_reducible assumption
    | (extract_lets +onlyGivenNames -underBinder y; first
        | (refine Dev.Sound.part (P := Dev.Sound (by apply y)) (fun _ => ?_) ?_ <;> [clear_value y; subst y])
        | clear_value y)
    | with_reducible apply Dev.flag_sound
    | with_reducible apply Dev.loseDemand_sound
    | with_reducible apply Dev.setTx_sound
    | with_reducible apply Dev.stepEpoch_sound
    | with_reducible apply Dev.Sound.w
    | with_reducible apply Dev.Sound.ite

theorem Dev.loadSector_sound (d : Dev) (t : Nat) (h_d : d.Sound) : Dev.Sound (Dev.loadSector d t) := by
  unfold Dev.loadSector
  repeat' first
    | with_reducible assumption
    | (extract_lets +onlyGivenNames -underBinder y; clear_value y)
    | with_reducible apply Dev.setTx_sound
    | with_reducible apply Dev.Sound.ite

theorem Dev.startPeriod_sound (d : Dev) (t j : Nat) (h_d : d.Sound) : Dev.Sound (Dev.startPeriod d t j) := by
  unfold Dev.startPeriod
  repeat' first
    | with_reducible assumption
    | refine fun _ => ?_
    | (extract_lets +onlyGivenNames -underBinder y; first
        | (refine Dev.Sound.part (P := Dev.Sound (by apply y)) (fun _ => ?_) ?_ <;> [clear_value y; subst y])
        | clear_value y)
    | with_reducible apply Dev.countDrops_sound
    | with_reducible apply Dev.driveTeam_sound
    | with_reducible apply Dev.loadShadows_sound
    | with_reducible apply Dev.setTx_sound
    | with_reducible apply Dev.stepPeriod_sound
    | with_reducible apply Dev.Sound.w
    | with_reducible apply Dev.Sound.ite
    | with_reducible apply Dev.Sound.each

theorem Dev.epochPeriod_sound (d : Dev) (t : Nat) (h_d : d.Sound) : Dev.Sound (Dev.epochPeriod d t) := by
  unfold Dev.epochPeriod
  repeat' first
    | with_reducible assumption
    | (extract_lets +onlyGivenNames -underBinder y; first
        | (refine Dev.Sound.part (P := Dev.Sound (by apply y)) (fun _ => ?_) ?_ <;> [clear_value y; subst y])
        | clear_value y)
    | with_reducible apply Dev.applyEnable_sound
    | with_reducible apply Dev.loadDemands_sound
    | with_reducible apply Dev.loadSector_sound
    | with_reducible apply Dev.setTx_sound
    | with_reducible apply Dev.startPeriod_sound
    | with_reducible apply Dev.stepPeriodEnd_sound

theorem Dev.periodBoundary_sound (d : Dev) (t : Nat) (h_d : d.Sound) : Dev.Sound (Dev.periodBoundary d t) := by
  unfold Dev.periodBoundary
  repeat' first
    | with_reducible assumption
    | (extract_lets +onlyGivenNames -underBinder y; clear_value y)
    | with_reducible apply Dev.epochPeriod_sound
    | with_reducible apply Dev.startPeriod_sound
    | with_reducible apply Dev.stepPeriodEnd_sound
    | with_reducible apply Dev.Sound.ite

theorem execPeriodBoundary_sound (t : Fin 24) (s : State) (h_s : s.dev.Sound) : Outcome.Sound (execPeriodBoundary t s) := by
  unfold execPeriodBoundary
  repeat' first
    | with_reducible assumption
    | refine fun _ => ?_
    | with_reducible apply Dev.periodBoundary_sound
    | with_reducible refine Outcome.Sound.ok h_s ?_

theorem Dev.teamsCommit_sound (d : Dev) (h_d : d.Sound) : Dev.Sound (Dev.teamsCommit d) := by
  unfold Dev.teamsCommit
  repeat' first
    | with_reducible assumption
    | refine fun _ => ?_
    | with_reducible apply Dev.epochPeriod_sound
    | with_reducible apply Dev.stageTeam_sound
    | with_reducible apply Dev.Sound.ite
    | with_reducible apply Dev.Sound.each

theorem execHallCodeChange_sound (e : Fin 24) (code : Fin 8) (s : State) (h_s : s.dev.Sound) :
    Outcome.Sound (execHallCodeChange e code s) := by
  unfold execHallCodeChange
  repeat' first
    | with_reducible assumption
    | refine fun _ => ?_
    | (extract_lets +onlyGivenNames -underBinder y; first
        | (refine Dev.Sound.part (P := Dev.Sound (by apply y)) (fun _ => ?_) ?_ <;> [clear_value y; subst y])
        | clear_value y)
    | with_reducible apply Dev.driveTeam_sound
    | with_reducible apply Dev.inc_sound
    | with_reducible apply Dev.setEx_sound
    | with_reducible apply Dev.setTx_sound
    | with_reducible refine Outcome.Sound.ok h_s ?_
    | with_reducible apply Dev.Sound.ite
    | with_reducible apply Dev.Sound.each

theorem Dev.startConv_sound (d : Dev) (i : Nat) (shifted : Bool) (h_d : d.Sound) : Dev.Sound (Dev.startConv d i shifted) := by
  unfold Dev.startConv
  repeat' first
    | with_reducible assumption
    | (extract_lets +onlyGivenNames -underBinder y; first
        | (refine Dev.Sound.part (P := Dev.Sound (by apply y)) (fun _ => ?_) ?_ <;> [clear_value y; subst y])
        | clear_value y)
    | with_reducible apply Dev.inc_sound
    | fail_if_no_progress (with_reducible refine Dev.Sound.upd rfl ?_)
    | with_reducible apply Dev.Sound.ite

theorem Dev.adcTrigger_sound (d : Dev) (i : Nat) (h_d : d.Sound) : Dev.Sound (Dev.adcTrigger d i) := by
  unfold Dev.adcTrigger
  repeat' first
    | with_reducible assumption
    | (extract_lets +onlyGivenNames -underBinder y; clear_value y)
    | with_reducible apply Dev.inc_sound
    | with_reducible apply Dev.startConv_sound
    | fail_if_no_progress (with_reducible refine Dev.Sound.upd rfl ?_)
    | with_reducible apply Dev.Sound.ite
    | split

theorem execAdcTrigger_sound (t : Fin 24) (j : Fin 4) (s : State) (h_s : s.dev.Sound) : Outcome.Sound (execAdcTrigger t j s) := by
  unfold execAdcTrigger
  repeat' first
    | with_reducible assumption
    | refine fun _ => ?_
    | (extract_lets +onlyGivenNames -underBinder y; clear_value y)
    | with_reducible apply Dev.adcTrigger_sound
    | with_reducible refine Outcome.Sound.ok h_s ?_
    | with_reducible apply Dev.Sound.ite

theorem Dev.adcLimit_sound (d : Dev) (i : Nat) (a : Int) (h_d : d.Sound) : Dev.Sound (Dev.adcLimit d i a) := by
  unfold Dev.adcLimit
  repeat' first
    | with_reducible assumption
    | refine fun _ => ?_
    | (extract_lets +onlyGivenNames -underBinder y; clear_value y)
    | with_reducible apply Dev.setTx_sound
    | with_reducible apply Dev.tripTeam_sound
    | with_reducible apply Dev.Sound.ite
    | with_reducible apply Dev.Sound.each

theorem Dev.encFault_sound (d : Dev) (e : Nat) (h_d : d.Sound) : Dev.Sound (Dev.encFault d e) := by
  unfold Dev.encFault
  repeat' first
    | with_reducible assumption
    | with_reducible apply Dev.flag_sound

theorem Dev.sincosCount_sound (d : Dev) (e : Nat) (h_d : d.Sound) : Dev.Sound (Dev.sincosCount d e) := by
  unfold Dev.sincosCount
  repeat' first
    | with_reducible assumption
    | (extract_lets +onlyGivenNames -underBinder y; clear_value y)
    | with_reducible apply Dev.encFault_sound
    | with_reducible apply Dev.setEx_sound
    | with_reducible apply Dev.Sound.w
    | with_reducible apply Dev.Sound.ite
    | split

theorem execAdcConversionDone_sound (c : Fin 8) (raw : BitVec 16) (s : State) (h_s : s.dev.Sound) :
    Outcome.Sound (execAdcConversionDone c raw s) := by
  unfold execAdcConversionDone
  repeat' first
    | with_reducible assumption
    | refine fun _ => ?_
    | (extract_lets +onlyGivenNames -underBinder y; first
        | (refine Dev.Sound.part (P := Dev.Sound (by apply y)) (fun _ => ?_) ?_ <;> [clear_value y; subst y])
        | clear_value y)
    | with_reducible apply Dev.adcLimit_sound
    | with_reducible apply Dev.sincosCount_sound
    | with_reducible apply Dev.startConv_sound
    | with_reducible apply Dev.wb_sound
    | with_reducible apply Dev.ws_sound
    | with_reducible refine Outcome.Sound.ok h_s ?_
    | with_reducible apply Dev.Sound.w
    | fail_if_no_progress (with_reducible refine Dev.Sound.upd rfl ?_)
    | with_reducible apply Dev.Sound.ite
    | with_reducible apply Dev.Sound.each
    | split

theorem Dev.quadEdge_sound (d : Dev) (e : Nat) (a b : Bool) (h_d : d.Sound) : Dev.Sound (Dev.quadEdge d e a b) := by
  unfold Dev.quadEdge
  repeat' first
    | with_reducible assumption
    | (extract_lets +onlyGivenNames -underBinder y; first
        | (refine Dev.Sound.part (P := Dev.Sound (by apply y)) (fun _ => ?_) ?_ <;> [clear_value y; subst y])
        | clear_value y)
    | with_reducible apply Dev.encFault_sound
    | with_reducible apply Dev.setEx_sound
    | with_reducible apply Dev.Sound.ite

theorem execEncQuadEdge_sound (e : Fin 24) (a b : Bool) (s : State) (h_s : s.dev.Sound) :
    Outcome.Sound (execEncQuadEdge e a b s) := by
  unfold execEncQuadEdge
  repeat' first
    | with_reducible assumption
    | refine fun _ => ?_
    | with_reducible apply Dev.quadEdge_sound
    | with_reducible refine Outcome.Sound.ok h_s ?_

theorem execEncIndexLatch_sound (e : Fin 24) (s : State) (h_s : s.dev.Sound) : Outcome.Sound (execEncIndexLatch e s) := by
  unfold execEncIndexLatch
  repeat' first
    | with_reducible assumption
    | refine fun _ => ?_
    | with_reducible apply Dev.flag_sound
    | with_reducible apply Dev.ws_sound
    | with_reducible refine Outcome.Sound.ok h_s ?_
    | with_reducible apply Dev.Sound.ite

theorem execSsiFrameDone_sound (e : Fin 24) (data : Word) (good : Bool) (s : State) (h_s : s.dev.Sound) :
    Outcome.Sound (execSsiFrameDone e data good s) := by
  unfold execSsiFrameDone
  repeat' first
    | with_reducible assumption
    | refine fun _ => ?_
    | (extract_lets +onlyGivenNames -underBinder y; clear_value y)
    | with_reducible apply Dev.encFault_sound
    | with_reducible apply Dev.setEx_sound
    | with_reducible refine Outcome.Sound.ok h_s ?_
    | with_reducible apply Dev.Sound.w
    | with_reducible apply Dev.Sound.ite

theorem Dev.senseBoundary_sound (d : Dev) (h_d : d.Sound) : Dev.Sound (Dev.senseBoundary d) := by
  unfold Dev.senseBoundary
  repeat' first
    | with_reducible assumption
    | refine fun _ => ?_
    | (extract_lets +onlyGivenNames -underBinder y; first
        | (refine Dev.Sound.part (P := Dev.Sound (by apply y)) (fun _ => ?_) ?_ <;> [clear_value y; subst y])
        | clear_value y)
    | with_reducible apply Dev.adcTrigger_sound
    | with_reducible apply Dev.setEx_sound
    | with_reducible apply Dev.ws_sound
    | with_reducible apply Dev.Sound.w
    | fail_if_no_progress (with_reducible refine Dev.Sound.upd rfl ?_)
    | with_reducible apply Dev.Sound.ite
    | with_reducible apply Dev.Sound.each
    | split

theorem Dev.encWrite_sound (d : Dev) (e off v : Nat) (h_d : d.Sound) : Dev.Sound (Dev.encWrite d e off v) := by
  unfold Dev.encWrite
  repeat' first
    | with_reducible assumption
    | (extract_lets +onlyGivenNames -underBinder y; first
        | (refine Dev.Sound.part (P := Dev.Sound (by apply y)) (fun _ => ?_) ?_ <;> [clear_value y; subst y])
        | clear_value y)
    | with_reducible apply Dev.flag_sound
    | with_reducible apply Dev.putReg_sound
    | with_reducible apply Dev.setEx_sound
    | with_reducible apply Dev.Sound.ite

theorem Dev.teamWrite_sound (d : Dev) (t off v : Nat) (h_d : d.Sound) : Dev.Sound (Dev.teamWrite d t off v) := by
  unfold Dev.teamWrite
  repeat' first
    | with_reducible assumption
    | (extract_lets +onlyGivenNames -underBinder y; first
        | (refine Dev.Sound.part (P := Dev.Sound (by apply y)) (fun _ => ?_) ?_ <;> [clear_value y; subst y])
        | clear_value y)
    | with_reducible apply Dev.flag_sound
    | with_reducible apply Dev.putReg_sound
    | with_reducible apply Dev.setTx_sound
    | with_reducible apply Dev.Sound.ite

theorem Dev.teamCtrl_sound (d : Dev) (t v : Nat) (h_d : d.Sound) : Dev.Sound (Dev.teamCtrl d t v) := by
  unfold Dev.teamCtrl
  repeat' first
    | with_reducible assumption
    | (extract_lets +onlyGivenNames -underBinder y;
       refine Dev.Sound.part (P := Dev.Sound (by apply y)) (fun _ => ?_) ?_ <;> [clear_value y; subst y])
    | with_reducible apply Dev.clearTrip_sound
    | with_reducible apply Dev.tripTeam_sound
    | with_reducible apply Dev.Sound.ite

theorem execTeamRegWrite_sound (path : Path) (t : Fin 24) (w : Fin 64) (v : Word) (s : State) (h_s : s.dev.Sound) :
    Outcome.Sound (execTeamRegWrite path t w v s) := by
  unfold execTeamRegWrite
  repeat' first
    | with_reducible assumption
    | refine fun _ => ?_
    | (extract_lets +onlyGivenNames -underBinder y; clear_value y)
    | with_reducible apply Dev.access_sound
    | with_reducible apply Dev.teamCtrl_sound
    | with_reducible apply Dev.teamWrite_sound
    | with_reducible refine Outcome.Sound.ok h_s ?_
    | with_reducible apply Dev.Sound.ite

theorem execTeamInfo_sound (p : Packet) (s : State) (h_s : s.dev.Sound) : Outcome.Sound (execTeamInfo p s) := by
  unfold execTeamInfo
  repeat' first
    | with_reducible assumption
    | refine fun _ => ?_
    | with_reducible apply Dev.runPacket_sound
    | with_reducible refine Outcome.Sound.ok h_s ?_

theorem Dev.teamConfig_sound (d : Dev) (t : Nat) (ws : List Nat) (h_d : d.Sound) : Dev.Sound (Dev.teamConfig d t ws).1 := by
  unfold Dev.teamConfig
  repeat' first
    | with_reducible assumption
    | refine fun _ => ?_
    | (extract_lets +onlyGivenNames -underBinder y; clear_value y)
    | with_reducible apply Dev.teamWrite_sound
    | with_reducible apply Dev.Sound.ite_fst
    | with_reducible apply Dev.Sound.each
    | split

theorem execTeamConfig_sound (p : Packet) (s : State) (h_s : s.dev.Sound) : Outcome.Sound (execTeamConfig p s) := by
  unfold execTeamConfig
  repeat' first
    | with_reducible assumption
    | refine fun _ => ?_
    | with_reducible apply Dev.runPacket_sound
    | with_reducible apply Dev.teamConfig_sound
    | with_reducible refine Outcome.Sound.ok h_s ?_

theorem Dev.teamEnable_sound (d : Dev) (mask on : Nat) (h_d : d.Sound) : Dev.Sound (Dev.teamEnable d mask on).1 := by
  unfold Dev.teamEnable
  repeat' first
    | with_reducible assumption
    | refine fun _ => ?_
    | (extract_lets +onlyGivenNames -underBinder y; first
        | (refine Dev.Sound.part (P := Dev.Sound (by apply y)) (fun _ => ?_) ?_ <;> [clear_value y; subst y])
        | clear_value y)
    | with_reducible apply Dev.setTx_sound
    | with_reducible apply Dev.Sound.ite_fst
    | with_reducible apply Dev.Sound.each

theorem execTeamEnable_sound (p : Packet) (s : State) (h_s : s.dev.Sound) : Outcome.Sound (execTeamEnable p s) := by
  unfold execTeamEnable
  repeat' first
    | with_reducible assumption
    | refine fun _ => ?_
    | with_reducible apply Dev.runPacket_sound
    | with_reducible apply Dev.teamEnable_sound
    | with_reducible refine Outcome.Sound.ok h_s ?_

theorem Dev.clearTrips_sound (d : Dev) (mask : Nat) (h_d : d.Sound) : Dev.Sound (Dev.clearTrips d mask).1 := by
  unfold Dev.clearTrips
  repeat' first
    | with_reducible assumption
    | refine fun _ => ?_
    | (extract_lets +onlyGivenNames -underBinder y; clear_value y)
    | with_reducible apply Dev.clearTrip_sound
    | with_reducible apply Dev.Sound.each

theorem execTeamTripClear_sound (p : Packet) (s : State) (h_s : s.dev.Sound) : Outcome.Sound (execTeamTripClear p s) := by
  unfold execTeamTripClear
  repeat' first
    | with_reducible assumption
    | refine fun _ => ?_
    | with_reducible apply Dev.clearTrips_sound
    | with_reducible apply Dev.runPacket_sound
    | with_reducible refine Outcome.Sound.ok h_s ?_

theorem execTeamForceTrip_sound (p : Packet) (s : State) (h_s : s.dev.Sound) : Outcome.Sound (execTeamForceTrip p s) := by
  unfold execTeamForceTrip
  repeat' first
    | with_reducible assumption
    | refine fun _ => ?_
    | with_reducible apply Dev.runPacket_sound
    | with_reducible apply Dev.tripTeam_sound
    | with_reducible refine Outcome.Sound.ok h_s ?_
    | with_reducible apply Dev.Sound.each

theorem execTeamRead_sound (p : Packet) (s : State) (h_s : s.dev.Sound) : Outcome.Sound (execTeamRead p s) := by
  unfold execTeamRead
  repeat' first
    | with_reducible assumption
    | refine fun _ => ?_
    | (extract_lets +onlyGivenNames -underBinder y; first
        | (refine Dev.Sound.part (P := Dev.Sound (by apply y)) (fun _ => ?_) ?_ <;> [clear_value y; subst y])
        | clear_value y)
    | with_reducible apply Dev.ofFront_sound
    | with_reducible apply Dev.runPacket_sound
    | with_reducible refine Outcome.Sound.ok h_s ?_
    | with_reducible apply Dev.Sound.ite_fst

theorem execAdcRead_sound (p : Packet) (s : State) (h_s : s.dev.Sound) : Outcome.Sound (execAdcRead p s) := by
  unfold execAdcRead
  repeat' first
    | with_reducible assumption
    | refine fun _ => ?_
    | (extract_lets +onlyGivenNames -underBinder y; clear_value y)
    | with_reducible apply Dev.runPacket_sound
    | with_reducible refine Outcome.Sound.ok h_s ?_
    | with_reducible apply Dev.Sound.ite_fst

theorem execEncRead_sound (p : Packet) (s : State) (h_s : s.dev.Sound) : Outcome.Sound (execEncRead p s) := by
  unfold execEncRead
  repeat' first
    | with_reducible assumption
    | refine fun _ => ?_
    | (extract_lets +onlyGivenNames -underBinder y; clear_value y)
    | with_reducible apply Dev.runPacket_sound
    | with_reducible refine Outcome.Sound.ok h_s ?_
    | with_reducible apply Dev.Sound.ite_fst

/-! ### Machine/Stepper.lean -/

theorem Dev.setPhase_sound (d : Dev) (t : Nat) (b : Bool) (p : Phase) (h_d : d.Sound) : Dev.Sound (Dev.setPhase d t b p) := by
  unfold Dev.setPhase
  repeat' first
    | with_reducible assumption
    | (extract_lets +onlyGivenNames -underBinder y; clear_value y)
    | with_reducible apply Dev.driveTeam_sound
    | with_reducible apply Dev.setTx_sound

theorem execChopBlankEnd_sound (t : Fin 24) (phaseB : Bool) (s : State) (h_s : s.dev.Sound) :
    Outcome.Sound (execChopBlankEnd t phaseB s) := by
  unfold execChopBlankEnd
  repeat' first
    | with_reducible assumption
    | refine fun _ => ?_
    | (extract_lets +onlyGivenNames -underBinder y; clear_value y)
    | with_reducible apply Dev.setPhase_sound
    | with_reducible refine Outcome.Sound.ok h_s ?_
    | with_reducible apply Dev.Sound.ite

theorem execChopComparatorSwitch_sound (t : Fin 24) (phaseB : Bool) (tick : Nat) (s : State) (h_s : s.dev.Sound) :
    Outcome.Sound (execChopComparatorSwitch t phaseB tick s) := by
  unfold execChopComparatorSwitch
  repeat' first
    | with_reducible assumption
    | refine fun _ => ?_
    | (extract_lets +onlyGivenNames -underBinder y; clear_value y)
    | with_reducible apply Dev.setPhase_sound
    | with_reducible refine Outcome.Sound.ok h_s ?_
    | with_reducible apply Dev.Sound.ite

theorem execChopFastEnd_sound (t : Fin 24) (phaseB : Bool) (s : State) (h_s : s.dev.Sound) :
    Outcome.Sound (execChopFastEnd t phaseB s) := by
  unfold execChopFastEnd
  repeat' first
    | with_reducible assumption
    | refine fun _ => ?_
    | (extract_lets +onlyGivenNames -underBinder y; clear_value y)
    | with_reducible apply Dev.setPhase_sound
    | with_reducible refine Outcome.Sound.ok h_s ?_
    | with_reducible apply Dev.Sound.ite

theorem Dev.stopStepperAxis_sound (d : Dev) (t : Nat) (h_d : d.Sound) : Dev.Sound (Dev.stopStepperAxis d t) := by
  unfold Dev.stopStepperAxis
  repeat' first
    | with_reducible assumption
    | (extract_lets +onlyGivenNames -underBinder y; clear_value y)
    | with_reducible apply Dev.setPx_sound
    | split

theorem Dev.stallEstimate_sound (d : Dev) (t : Nat) (h_d : d.Sound) : Dev.Sound (Dev.stallEstimate d t) := by
  unfold Dev.stallEstimate
  repeat' first
    | with_reducible assumption
    | (extract_lets +onlyGivenNames -underBinder y; first
        | (refine Dev.Sound.part (P := Dev.Sound (by apply y)) (fun _ => ?_) ?_ <;> [clear_value y; subst y])
        | clear_value y)
    | with_reducible apply Dev.flag_sound
    | with_reducible apply Dev.inc_sound
    | with_reducible apply Dev.setTx_sound
    | with_reducible apply Dev.stopStepperAxis_sound
    | with_reducible apply Dev.tripTeam_sound
    | with_reducible apply Dev.Sound.ite
    | split

theorem Dev.estimate_sound (d : Dev) (t : Nat) (h_d : d.Sound) : Dev.Sound (Dev.estimate d t) := by
  unfold Dev.estimate
  repeat' first
    | with_reducible assumption
    | (extract_lets +onlyGivenNames -underBinder y; clear_value y)
    | with_reducible apply Dev.flag_sound
    | with_reducible apply Dev.setTx_sound
    | with_reducible apply Dev.stallEstimate_sound
    | with_reducible apply Dev.wb_sound
    | with_reducible apply Dev.ws_sound
    | with_reducible apply Dev.Sound.w
    | with_reducible apply Dev.Sound.ite
    | split

theorem execLoadAngleEstimate_sound (t : Fin 24) (s : State) (h_s : s.dev.Sound) : Outcome.Sound (execLoadAngleEstimate t s) := by
  unfold execLoadAngleEstimate
  repeat' first
    | with_reducible assumption
    | refine fun _ => ?_
    | with_reducible apply Dev.estimate_sound
    | with_reducible refine Outcome.Sound.ok h_s ?_

theorem Dev.stepConfig_sound (d : Dev) (t : Nat) (ws : List Nat) (h_d : d.Sound) : Dev.Sound (Dev.stepConfig d t ws).1 := by
  unfold Dev.stepConfig
  repeat' first
    | with_reducible assumption
    | refine fun _ => ?_
    | (extract_lets +onlyGivenNames -underBinder y; clear_value y)
    | with_reducible apply Dev.teamWrite_sound
    | with_reducible apply Dev.Sound.ite_fst
    | with_reducible apply Dev.Sound.each
    | split

theorem execStepConfig_sound (p : Packet) (s : State) (h_s : s.dev.Sound) : Outcome.Sound (execStepConfig p s) := by
  unfold execStepConfig
  repeat' first
    | with_reducible assumption
    | refine fun _ => ?_
    | with_reducible apply Dev.runPacket_sound
    | with_reducible apply Dev.stepConfig_sound
    | with_reducible refine Outcome.Sound.ok h_s ?_

theorem Dev.stepCurrent_sound (d : Dev) (mask irun ihold : Nat) (h_d : d.Sound) :
    Dev.Sound (Dev.stepCurrent d mask irun ihold).1 := by
  unfold Dev.stepCurrent
  repeat' first
    | with_reducible assumption
    | refine fun _ => ?_
    | with_reducible apply Dev.teamWrite_sound
    | with_reducible apply Dev.Sound.ite_fst
    | with_reducible apply Dev.Sound.each

theorem execStepCurrent_sound (p : Packet) (s : State) (h_s : s.dev.Sound) : Outcome.Sound (execStepCurrent p s) := by
  unfold execStepCurrent
  repeat' first
    | with_reducible assumption
    | refine fun _ => ?_
    | with_reducible apply Dev.runPacket_sound
    | with_reducible apply Dev.stepCurrent_sound
    | with_reducible refine Outcome.Sound.ok h_s ?_

theorem execStepRead_sound (p : Packet) (s : State) (h_s : s.dev.Sound) : Outcome.Sound (execStepRead p s) := by
  unfold execStepRead
  repeat' first
    | with_reducible assumption
    | refine fun _ => ?_
    | (extract_lets +onlyGivenNames -underBinder y; first
        | (refine Dev.Sound.part (P := Dev.Sound (by apply y)) (fun _ => ?_) ?_ <;> [clear_value y; subst y])
        | clear_value y)
    | with_reducible apply Dev.ofFront_sound
    | with_reducible apply Dev.runPacket_sound
    | with_reducible refine Outcome.Sound.ok h_s ?_
    | with_reducible apply Dev.Sound.ite_fst

/-! ### Machine/Loop.lean -/

theorem Dev.zeroStates_sound (d : Dev) (a : Nat) (h_d : d.Sound) : Dev.Sound (Dev.zeroStates d a) := by
  unfold Dev.zeroStates
  repeat' first
    | with_reducible assumption
    | refine fun _ => ?_
    | with_reducible apply Dev.Sound.putMw
    | with_reducible apply Dev.Sound.each

theorem Dev.takePosition_sound (d : Dev) (a : Nat) (h_d : d.Sound) : Dev.Sound (Dev.takePosition d a) := by
  unfold Dev.takePosition
  repeat' first
    | with_reducible assumption
    | (extract_lets +onlyGivenNames -underBinder y; first
        | (refine Dev.Sound.part (P := Dev.Sound (by apply y)) (fun _ => ?_) ?_ <;> [clear_value y; subst y])
        | clear_value y)
    | with_reducible apply Dev.setLp_sound
    | with_reducible apply Dev.setPx_sound
    | with_reducible apply Dev.ws_sound
    | with_reducible apply Dev.Sound.w
    | with_reducible apply Dev.Sound.ite
    | split

theorem Dev.setInjector_sound (d : Dev) (n : Nat) (x : Injector) (h_d : d.Sound) : Dev.Sound (Dev.setInjector d n x) := by
  unfold Dev.setInjector
  repeat' first
    | with_reducible assumption
    | (extract_lets +onlyGivenNames -underBinder y; clear_value y)
    | fail_if_no_progress (with_reducible refine Dev.Sound.upd rfl ?_)

theorem Dev.injStop_sound (d : Dev) (n : Nat) (aborted : Bool) (h_d : d.Sound) : Dev.Sound (Dev.injStop d n aborted) := by
  unfold Dev.injStop
  repeat' first
    | with_reducible assumption
    | (extract_lets +onlyGivenNames -underBinder y;
       refine Dev.Sound.part (P := Dev.Sound (by apply y)) (fun _ => ?_) ?_ <;> [clear_value y; subst y])
    | with_reducible apply Dev.flag_sound
    | with_reducible apply Dev.Sound.w
    | with_reducible apply Dev.Sound.ite

theorem Dev.injStopAxis_sound (d : Dev) (a : Nat) (h_d : d.Sound) : Dev.Sound (Dev.injStopAxis d a) := by
  unfold Dev.injStopAxis
  repeat' first
    | with_reducible assumption
    | refine fun _ => ?_
    | with_reducible apply Dev.injStop_sound
    | with_reducible apply Dev.Sound.each

theorem Dev.injAdvance_sound (d : Dev) (a n : Nat) (h_d : d.Sound) : Dev.Sound (Dev.injAdvance d a n) := by
  unfold Dev.injAdvance
  repeat' first
    | with_reducible assumption
    | refine fun _ => ?_
    | with_reducible apply Dev.injStop_sound
    | with_reducible apply Dev.setInjector_sound
    | with_reducible apply Dev.Sound.w
    | with_reducible apply Dev.Sound.ite
    | with_reducible apply Dev.Sound.each

theorem Dev.writeBack_sound (d : Dev) (a bank : Nat) (ws : List CandRes) (c : CandRes) (h_d : d.Sound) :
    Dev.Sound (Dev.writeBack d a bank ws c) := by
  unfold Dev.writeBack
  repeat' first
    | with_reducible assumption
    | refine fun _ => ?_
    | (extract_lets +onlyGivenNames -underBinder y; clear_value y)
    | with_reducible apply Dev.Sound.putMw
    | with_reducible apply Dev.Sound.ite
    | with_reducible apply Dev.Sound.each

theorem Dev.faultAxis_sound (d : Dev) (a code : Nat) (off : Bool) (h_d : d.Sound) : Dev.Sound (Dev.faultAxis d a code off) := by
  unfold Dev.faultAxis
  repeat' first
    | with_reducible assumption
    | (extract_lets +onlyGivenNames -underBinder y; first
        | (refine Dev.Sound.part (P := Dev.Sound (by apply y)) (fun _ => ?_) ?_ <;> [clear_value y; subst y])
        | clear_value y)
    | with_reducible apply Dev.flag_sound
    | with_reducible apply Dev.injStopAxis_sound
    | with_reducible apply Dev.setLp_sound
    | with_reducible apply Dev.zeroStates_sound
    | with_reducible apply Dev.Sound.w
    | fail_if_no_progress (with_reducible refine Dev.Sound.upd rfl ?_)
    | with_reducible apply Dev.Sound.ite

theorem Dev.followError_sound (d : Dev) (a bank : Nat) (h_d : d.Sound) : Dev.Sound (Dev.followError d a bank) := by
  unfold Dev.followError
  repeat' first
    | with_reducible assumption
    | (extract_lets +onlyGivenNames -underBinder y; first
        | (refine Dev.Sound.part (P := Dev.Sound (by apply y)) (fun _ => ?_) ?_ <;> [clear_value y; subst y])
        | clear_value y)
    | with_reducible apply Dev.faultAxis_sound
    | with_reducible apply Dev.inc_sound
    | with_reducible apply Dev.setPx_sound
    | with_reducible apply Dev.ws_sound
    | with_reducible apply Dev.Sound.w
    | with_reducible apply Dev.Sound.ite

theorem Dev.swapAxis_sound (d : Dev) (a : Nat) (h_d : d.Sound) : Dev.Sound (Dev.swapAxis d a) := by
  unfold Dev.swapAxis
  repeat' first
    | with_reducible assumption
    | (extract_lets +onlyGivenNames -underBinder y; first
        | (refine Dev.Sound.part (P := Dev.Sound (by apply y)) (fun _ => ?_) ?_ <;> [clear_value y; subst y])
        | clear_value y)
    | with_reducible apply Dev.flag_sound
    | with_reducible apply Dev.injStopAxis_sound
    | with_reducible apply Dev.zeroStates_sound
    | with_reducible apply Dev.Sound.w
    | fail_if_no_progress (with_reducible refine Dev.Sound.upd rfl ?_)
    | with_reducible apply Dev.Sound.ite

theorem Dev.evalAxis_sound (d : Dev) (a n : Nat) (h_d : d.Sound) : Dev.Sound (Dev.evalAxis d a n) := by
  unfold Dev.evalAxis
  repeat' first
    | with_reducible assumption
    | refine fun _ => ?_
    | (extract_lets +onlyGivenNames -underBinder y; first
        | (refine Dev.Sound.part (P := Dev.Sound (by apply y)) (fun _ => ?_) ?_ <;> [clear_value y; subst y])
        | clear_value y)
    | with_reducible apply Dev.flagIf_sound
    | with_reducible apply Dev.followError_sound
    | with_reducible apply Dev.incWrap_sound
    | with_reducible apply Dev.injAdvance_sound
    | with_reducible apply Dev.setLp_sound
    | with_reducible apply Dev.swapAxis_sound
    | with_reducible apply Dev.writeBack_sound
    | with_reducible apply Dev.ws_sound
    | with_reducible apply Dev.Sound.w
    | with_reducible apply Dev.Sound.ite
    | with_reducible apply Dev.Sound.each

theorem Dev.missAxis_sound (d : Dev) (a n : Nat) (h_d : d.Sound) : Dev.Sound (Dev.missAxis d a n) := by
  unfold Dev.missAxis
  repeat' first
    | with_reducible assumption
    | (extract_lets +onlyGivenNames -underBinder y; first
        | (refine Dev.Sound.part (P := Dev.Sound (by apply y)) (fun _ => ?_) ?_ <;> [clear_value y; subst y])
        | clear_value y)
    | with_reducible apply Dev.faultAxis_sound
    | with_reducible apply Dev.flag_sound
    | with_reducible apply Dev.inc_sound
    | with_reducible apply Dev.setLp_sound
    | with_reducible apply Dev.Sound.ite

theorem Dev.groupReady_sound (d : Dev) (g ns : Nat) (h_d : d.Sound) : Dev.Sound (Dev.groupReady d g ns) := by
  unfold Dev.groupReady
  repeat' first
    | with_reducible assumption
    | refine fun _ => ?_
    | (extract_lets +onlyGivenNames -underBinder y; first
        | (refine Dev.Sound.part (P := Dev.Sound (by apply y)) (fun _ => ?_) ?_ <;> [clear_value y; subst y])
        | clear_value y)
    | with_reducible apply Dev.takePosition_sound
    | fail_if_no_progress (with_reducible refine Dev.Sound.upd rfl ?_)
    | with_reducible apply Dev.Sound.each

theorem Dev.passAxis_sound (d : Dev) (a endNs deadline : Nat) (memErr : List Nat) (h_d : d.Sound) :
    Dev.Sound (Dev.passAxis d a endNs deadline memErr) := by
  unfold Dev.passAxis
  repeat' first
    | with_reducible assumption
    | (extract_lets +onlyGivenNames -underBinder y; clear_value y)
    | with_reducible apply Dev.evalAxis_sound
    | with_reducible apply Dev.faultAxis_sound
    | fail_if_no_progress (with_reducible refine Dev.Sound.upd rfl ?_)
    | with_reducible apply Dev.Sound.ite

theorem Dev.runPass_sound (d : Dev) (g ns corr : Nat) (memErr : List Nat) (h_d : d.Sound) :
    Dev.Sound (Dev.runPass d g ns corr memErr) := by
  unfold Dev.runPass
  repeat' first
    | with_reducible assumption
    | refine fun _ => ?_
    | (extract_lets +onlyGivenNames -underBinder y; first
        | (refine Dev.Sound.part (P := ∀ z, y z = y z) (fun _ => ?_) (fun _ => rfl); subst y; beta_reduce)
        | (refine Dev.Sound.part (P := Dev.Sound (by apply y)) (fun _ => ?_) ?_ <;> [clear_value y; subst y])
        | clear_value y)
    | with_reducible apply Dev.add_sound
    | with_reducible apply Dev.flag_sound
    | with_reducible apply Dev.flagIf_sound
    | with_reducible apply Dev.inc_sound
    | with_reducible apply Dev.missAxis_sound
    | with_reducible apply Dev.overrun_sound
    | with_reducible apply Dev.overrunPub_sound
    | with_reducible apply Dev.passAxis_sound
    | fail_if_no_progress (with_reducible refine Dev.Sound.upd rfl ?_)
    | with_reducible apply Dev.Sound.ite
    | with_reducible apply Dev.Sound.each

theorem execLoopPass_sound (corr : Nat) (memErr : List Nat) (s : State) (h_s : s.dev.Sound) :
    Outcome.Sound (execLoopPass corr memErr s) := by
  unfold execLoopPass
  repeat' first
    | with_reducible assumption
    | refine fun _ => ?_
    | with_reducible apply Dev.runPass_sound
    | with_reducible refine Outcome.Sound.ok h_s ?_
    | split

theorem Dev.localReady_sound (d : Dev) (h_d : d.Sound) : Dev.Sound (Dev.localReady d) := by
  unfold Dev.localReady
  repeat' first
    | with_reducible assumption
    | refine fun _ => ?_
    | (extract_lets +onlyGivenNames -underBinder y; first
        | (refine Dev.Sound.part (P := Dev.Sound (by apply y)) (fun _ => ?_) ?_ <;> [clear_value y; subst y])
        | clear_value y)
    | with_reducible apply Dev.encFault_sound
    | with_reducible apply Dev.flagIf_sound
    | with_reducible apply Dev.groupReady_sound
    | with_reducible apply Dev.reach_sound
    | fail_if_no_progress (with_reducible refine Dev.Sound.upd rfl ?_)
    | with_reducible apply Dev.Sound.ite
    | with_reducible apply Dev.Sound.each

theorem execLocalReady_sound (s : State) (h_s : s.dev.Sound) : Outcome.Sound (execLocalReady s) := by
  unfold execLocalReady
  repeat' first
    | with_reducible assumption
    | refine fun _ => ?_
    | with_reducible apply Dev.localReady_sound
    | with_reducible refine Outcome.Sound.ok h_s ?_

theorem Dev.loopDeadline_sound (d : Dev) (h_d : d.Sound) : Dev.Sound (Dev.loopDeadline d) := by
  unfold Dev.loopDeadline
  repeat' first
    | with_reducible assumption
    | refine fun _ => ?_
    | (extract_lets +onlyGivenNames -underBinder y; first
        | (refine Dev.Sound.part (P := Dev.Sound (by apply y)) (fun _ => ?_) ?_ <;> [clear_value y; subst y])
        | clear_value y)
    | with_reducible apply Dev.missAxis_sound
    | with_reducible apply Dev.runPass_sound
    | fail_if_no_progress (with_reducible refine Dev.Sound.upd rfl ?_)
    | with_reducible apply Dev.Sound.each
    | split

theorem Dev.produceSignal_sound (d : Dev) (id v : Nat) (h_d : d.Sound) : Dev.Sound (Dev.produceSignal d id v) := by
  unfold Dev.produceSignal
  repeat' first
    | with_reducible assumption
    | (extract_lets +onlyGivenNames -underBinder y; first
        | (refine Dev.Sound.part (P := Dev.Sound (by apply y)) (fun _ => ?_) ?_ <;> [clear_value y; subst y])
        | (refine Dev.Sound.part (P := EpochState.frontRegs y = EpochState.frontRegs y) (fun _ => ?_) rfl; subst y))
    | with_reducible apply Dev.stageSignal_sound
    | fail_if_no_progress (with_reducible refine Dev.Sound.upd rfl ?_)

theorem Dev.deliverOut_sound (d : Dev) (a : Nat) (h_d : d.Sound) : Dev.Sound (Dev.deliverOut d a) := by
  unfold Dev.deliverOut
  repeat' first
    | with_reducible assumption
    | (extract_lets +onlyGivenNames -underBinder y; clear_value y)
    | with_reducible apply Dev.produceSignal_sound
    | with_reducible apply Dev.setRp_sound
    | with_reducible apply Dev.setTx_sound
    | with_reducible apply Dev.Sound.ite
    | split

theorem Dev.showEvaluated_sound (d : Dev) (h_d : d.Sound) : Dev.Sound (Dev.showEvaluated d) := by
  unfold Dev.showEvaluated
  repeat' first
    | with_reducible assumption
    | refine fun _ => ?_
    | with_reducible apply Dev.wb_sound
    | with_reducible apply Dev.Sound.each

theorem Dev.loopCommit_sound (d : Dev) (h_d : d.Sound) : Dev.Sound (Dev.loopCommit d) := by
  unfold Dev.loopCommit
  repeat' first
    | with_reducible assumption
    | refine fun _ => ?_
    | (extract_lets +onlyGivenNames -underBinder y; first
        | (refine Dev.Sound.part (P := Dev.Sound (by apply y)) (fun _ => ?_) ?_ <;> [clear_value y; subst y])
        | clear_value y)
    | with_reducible apply Dev.deliverOut_sound
    | with_reducible apply Dev.publish_sound
    | with_reducible apply Dev.showEvaluated_sound
    | with_reducible apply Dev.wmax_sound
    | with_reducible apply Dev.Sound.w
    | with_reducible apply Dev.Sound.ite
    | with_reducible apply Dev.Sound.each

theorem Dev.applyAxisEnable_sound (d : Dev) (a : Nat) (h_d : d.Sound) : Dev.Sound (Dev.applyAxisEnable d a) := by
  unfold Dev.applyAxisEnable
  repeat' first
    | with_reducible assumption
    | (extract_lets +onlyGivenNames -underBinder y; first
        | (refine Dev.Sound.part (P := Dev.Sound (by apply y)) (fun _ => ?_) ?_ <;> [clear_value y; subst y])
        | clear_value y)
    | with_reducible apply Dev.injStopAxis_sound
    | with_reducible apply Dev.setLp_sound
    | with_reducible apply Dev.zeroStates_sound
    | with_reducible apply Dev.Sound.w
    | with_reducible apply Dev.Sound.ite
    | split

theorem Dev.loopBoundary_sound (d : Dev) (h_d : d.Sound) : Dev.Sound (Dev.loopBoundary d) := by
  unfold Dev.loopBoundary
  repeat' first
    | with_reducible assumption
    | refine fun _ => ?_
    | (extract_lets +onlyGivenNames -underBinder y; first
        | (refine Dev.Sound.part (P := Dev.Sound (by apply y)) (fun _ => ?_) ?_ <;> [clear_value y; subst y])
        | clear_value y)
    | with_reducible apply Dev.applyAxisEnable_sound
    | with_reducible apply Dev.injStop_sound
    | with_reducible apply Dev.setInjector_sound
    | with_reducible apply Dev.setLp_sound
    | with_reducible apply Dev.swapAxis_sound
    | with_reducible apply Dev.wb_sound
    | fail_if_no_progress (with_reducible refine Dev.Sound.upd rfl ?_)
    | with_reducible apply Dev.Sound.ite
    | with_reducible apply Dev.Sound.each

theorem Dev.loopMemWrite_sound (d : Dev) (off v : Nat) (h_d : d.Sound) : Dev.Sound (Dev.loopMemWrite d off v) := by
  unfold Dev.loopMemWrite
  repeat' first
    | with_reducible assumption
    | (extract_lets +onlyGivenNames -underBinder y; clear_value y)
    | with_reducible apply Dev.flag_sound
    | with_reducible apply Dev.inc_sound
    | with_reducible apply Dev.Sound.putMw
    | with_reducible apply Dev.Sound.ite

theorem execCoeffWindowWrite_sound (path : Path) (w : Fin 131072) (v : Word) (s : State) (h_s : s.dev.Sound) :
    Outcome.Sound (execCoeffWindowWrite path w v s) := by
  unfold execCoeffWindowWrite
  repeat' first
    | with_reducible assumption
    | refine fun _ => ?_
    | with_reducible apply Dev.access_sound
    | with_reducible apply Dev.loopMemWrite_sound
    | with_reducible refine Outcome.Sound.ok h_s ?_

theorem execLoopInfo_sound (p : Packet) (s : State) (h_s : s.dev.Sound) : Outcome.Sound (execLoopInfo p s) := by
  unfold execLoopInfo
  repeat' first
    | with_reducible assumption
    | refine fun _ => ?_
    | with_reducible apply Dev.runPacket_sound
    | with_reducible refine Outcome.Sound.ok h_s ?_

theorem Dev.loopEnable_sound (d : Dev) (g : Grade) (axes : List Nat) (mode : Nat) (h_d : d.Sound) :
    Dev.Sound (Dev.loopEnable d g axes mode).1 := by
  unfold Dev.loopEnable
  repeat' first
    | with_reducible assumption
    | refine fun _ => ?_
    | (extract_lets +onlyGivenNames -underBinder y; first
        | (refine Dev.Sound.part (P := Dev.Sound (by apply y)) (fun _ => ?_) ?_ <;> [clear_value y; subst y])
        | clear_value y)
    | with_reducible apply Dev.setLp_sound
    | with_reducible apply Dev.Sound.ite_fst
    | with_reducible apply Dev.Sound.each
    | split

theorem execLoopEnable_sound (p : Packet) (s : State) (h_s : s.dev.Sound) : Outcome.Sound (execLoopEnable p s) := by
  unfold execLoopEnable
  repeat' first
    | with_reducible assumption
    | refine fun _ => ?_
    | with_reducible apply Dev.loopEnable_sound
    | with_reducible apply Dev.runPacket_sound
    | with_reducible refine Outcome.Sound.ok h_s ?_

theorem Dev.loopSwap_sound (d : Dev) (g : Grade) (axes : List Nat) (e mode : Nat) (h_d : d.Sound) :
    Dev.Sound (Dev.loopSwap d g axes e mode).1 := by
  unfold Dev.loopSwap
  repeat' first
    | with_reducible assumption
    | (extract_lets +onlyGivenNames -underBinder y; first
        | (refine Dev.Sound.part (P := Dev.Sound (by apply y)) (fun _ => ?_) ?_ <;> [clear_value y; subst y])
        | clear_value y)
    | with_reducible apply Dev.flag_sound
    | with_reducible apply Dev.Sound.w
    | fail_if_no_progress (with_reducible refine Dev.Sound.upd rfl ?_)
    | with_reducible apply Dev.Sound.ite_fst
    | split

theorem execLoopSwap_sound (p : Packet) (s : State) (h_s : s.dev.Sound) : Outcome.Sound (execLoopSwap p s) := by
  unfold execLoopSwap
  repeat' first
    | with_reducible assumption
    | refine fun _ => ?_
    | with_reducible apply Dev.loopSwap_sound
    | with_reducible apply Dev.runPacket_sound
    | with_reducible refine Outcome.Sound.ok h_s ?_

theorem Dev.clearAxis_sound (d : Dev) (a : Nat) (h_d : d.Sound) : Dev.Sound (Dev.clearAxis d a) := by
  unfold Dev.clearAxis
  repeat' first
    | with_reducible assumption
    | (extract_lets +onlyGivenNames -underBinder y; first
        | (refine Dev.Sound.part (P := Dev.Sound (by apply y)) (fun _ => ?_) ?_ <;> [clear_value y; subst y])
        | clear_value y)
    | with_reducible apply Dev.setLp_sound
    | with_reducible apply Dev.setPx_sound
    | with_reducible apply Dev.wb_sound
    | with_reducible apply Dev.zeroStates_sound
    | with_reducible apply Dev.Sound.w
    | with_reducible apply Dev.Sound.ite

theorem execLoopFaultClear_sound (p : Packet) (s : State) (h_s : s.dev.Sound) : Outcome.Sound (execLoopFaultClear p s) := by
  unfold execLoopFaultClear
  repeat' first
    | with_reducible assumption
    | refine fun _ => ?_
    | (extract_lets +onlyGivenNames -underBinder y; clear_value y)
    | with_reducible apply Dev.clearAxis_sound
    | with_reducible apply Dev.runPacket_sound
    | with_reducible refine Outcome.Sound.ok h_s ?_
    | with_reducible apply Dev.Sound.each

theorem execLoopAxisRead_sound (p : Packet) (s : State) (h_s : s.dev.Sound) : Outcome.Sound (execLoopAxisRead p s) := by
  unfold execLoopAxisRead
  repeat' first
    | with_reducible assumption
    | refine fun _ => ?_
    | (extract_lets +onlyGivenNames -underBinder y; first
        | (refine Dev.Sound.part (P := Dev.Sound (by apply y)) (fun _ => ?_) ?_ <;> [clear_value y; subst y])
        | clear_value y)
    | with_reducible apply Dev.ofFront_sound
    | with_reducible apply Dev.runPacket_sound
    | with_reducible refine Outcome.Sound.ok h_s ?_
    | with_reducible apply Dev.Sound.ite_fst

/-! ### Machine/Profile.lean -/

theorem Dev.setMode_sound (d : Dev) (a m : Nat) (h_d : d.Sound) : Dev.Sound (Dev.setMode d a m) := by
  unfold Dev.setMode
  repeat' first
    | with_reducible assumption
    | with_reducible apply Dev.Sound.w

theorem Dev.countReplan_sound (d : Dev) (a : Nat) (h_d : d.Sound) : Dev.Sound (Dev.countReplan d a) := by
  unfold Dev.countReplan
  repeat' first
    | with_reducible assumption
    | (extract_lets +onlyGivenNames -underBinder y; first
        | (refine Dev.Sound.part (P := Dev.Sound (by apply y)) (fun _ => ?_) ?_ <;> [clear_value y; subst y])
        | clear_value y)
    | with_reducible apply Dev.incWrap_sound
    | fail_if_no_progress (with_reducible refine Dev.Sound.upd rfl ?_)

theorem Dev.buildPlan_sound (d : Dev) (a n : Nat) (target : Int) (l : Lims) (v0 a0 : Nat) (h_d : d.Sound) :
    Dev.Sound (Dev.buildPlan d a n target l v0 a0) := by
  unfold Dev.buildPlan
  repeat' first
    | with_reducible assumption
    | (extract_lets +onlyGivenNames -underBinder y; clear_value y)
    | with_reducible apply Dev.countReplan_sound
    | with_reducible apply Dev.setPx_sound
    | with_reducible apply Dev.wb_sound
    | with_reducible apply Dev.ws_sound

theorem Dev.replanAxis_sound (d : Dev) (a n : Nat) (l : Lims) (h_d : d.Sound) : Dev.Sound (Dev.replanAxis d a n l) := by
  unfold Dev.replanAxis
  repeat' first
    | with_reducible assumption
    | (extract_lets +onlyGivenNames -underBinder y; clear_value y)
    | with_reducible apply Dev.buildPlan_sound
    | with_reducible apply Dev.countReplan_sound
    | with_reducible apply Dev.setPx_sound
    | with_reducible apply Dev.Sound.ite

theorem Dev.limitsChanged_sound (d : Dev) (a n : Nat) (h_d : d.Sound) : Dev.Sound (Dev.limitsChanged d a n) := by
  unfold Dev.limitsChanged
  repeat' first
    | with_reducible assumption
    | (extract_lets +onlyGivenNames -underBinder y; first
        | (refine Dev.Sound.part (P := Dev.Sound (by apply y)) (fun _ => ?_) ?_ <;> [clear_value y; subst y])
        | clear_value y)
    | with_reducible apply Dev.countReplan_sound
    | with_reducible apply Dev.flag_sound
    | with_reducible apply Dev.replanAxis_sound
    | with_reducible apply Dev.setPx_sound
    | with_reducible apply Dev.Sound.w
    | with_reducible apply Dev.Sound.ite

theorem Dev.enterHold_sound (d : Dev) (a : Nat) (h_d : d.Sound) : Dev.Sound (Dev.enterHold d a) := by
  unfold Dev.enterHold
  repeat' first
    | with_reducible assumption
    | (extract_lets +onlyGivenNames -underBinder y; clear_value y)
    | with_reducible apply Dev.setMode_sound
    | with_reducible apply Dev.setPx_sound

theorem Dev.applyStop_sound (d : Dev) (a n k : Nat) (h_d : d.Sound) : Dev.Sound (Dev.applyStop d a n k) := by
  unfold Dev.applyStop
  repeat' first
    | with_reducible assumption
    | (extract_lets +onlyGivenNames -underBinder y; first
        | (refine Dev.Sound.part (P := Dev.Sound (by apply y)) (fun _ => ?_) ?_ <;> [clear_value y; subst y])
        | clear_value y)
    | with_reducible apply Dev.countReplan_sound
    | with_reducible apply Dev.enterHold_sound
    | with_reducible apply Dev.setMode_sound
    | with_reducible apply Dev.setPx_sound
    | with_reducible apply Dev.Sound.w
    | with_reducible apply Dev.Sound.ite

theorem Dev.endPlan_sound (d : Dev) (a : Nat) (p : Plan) (h_d : d.Sound) : Dev.Sound (Dev.endPlan d a p) := by
  unfold Dev.endPlan
  repeat' first
    | with_reducible assumption
    | (extract_lets +onlyGivenNames -underBinder y;
       refine Dev.Sound.part (P := Dev.Sound (by apply y)) (fun _ => ?_) ?_ <;> [clear_value y; subst y])
    | with_reducible apply Dev.enterHold_sound
    | with_reducible apply Dev.flag_sound
    | with_reducible apply Dev.Sound.ite

theorem Dev.timeMotion_sound (d : Dev) (a n : Nat) (h_d : d.Sound) : Dev.Sound (Dev.timeMotion d a n).1 := by
  unfold Dev.timeMotion
  repeat' first
    | with_reducible assumption
    | (extract_lets +onlyGivenNames -underBinder y; first
        | (refine Dev.Sound.part (P := ∀ z, y z = y z) (fun _ => ?_) (fun _ => rfl); subst y; beta_reduce)
        | clear_value y)
    | with_reducible apply Dev.countReplan_sound
    | with_reducible apply Dev.endPlan_sound
    | with_reducible apply Dev.enterHold_sound
    | with_reducible apply Dev.setPx_sound
    | with_reducible apply Dev.wb_sound
    | with_reducible apply Dev.Sound.ite_fst
    | split

theorem Dev.coordMotion_sound (d : Dev) (a : Nat) (h_d : d.Sound) : Dev.Sound (Dev.coordMotion d a).1 := by
  unfold Dev.coordMotion
  repeat' first
    | with_reducible assumption
    | (extract_lets +onlyGivenNames -underBinder y; first
        | (refine Dev.Sound.part (P := ∀ z, y z = y z) (fun _ => ?_) (fun _ => rfl); subst y; beta_reduce)
        | (refine Dev.Sound.part (P := Dev.Sound (by apply y)) (fun _ => ?_) ?_ <;> [clear_value y; subst y])
        | clear_value y)
    | with_reducible apply Dev.countReplan_sound
    | with_reducible apply Dev.flag_sound
    | with_reducible apply Dev.setPx_sound
    | with_reducible apply Dev.wb_sound
    | with_reducible apply Dev.Sound.ite
    | with_reducible apply Dev.Sound.ite_fst
    | split

theorem Dev.takeEntry_sound (d : Dev) (a : Nat) (e : GearEntry) (xs sigma : Int) (h_d : d.Sound) :
    Dev.Sound (Dev.takeEntry d a e xs sigma) := by
  unfold Dev.takeEntry
  repeat' first
    | with_reducible assumption
    | (extract_lets +onlyGivenNames -underBinder y; first
        | (refine Dev.Sound.part (P := Dev.Sound (by apply y)) (fun _ => ?_) ?_ <;> [clear_value y; subst y])
        | clear_value y)
    | with_reducible apply Dev.setPx_sound
    | with_reducible apply Dev.Sound.putMw
    | with_reducible apply Dev.Sound.w
    | split

theorem Dev.gearMotion_sound (d : Dev) (a : Nat) (h_d : d.Sound) : Dev.Sound (Dev.gearMotion d a).1 := by
  unfold Dev.gearMotion
  repeat' first
    | with_reducible assumption
    | refine fun _ => ?_
    | (extract_lets +onlyGivenNames -underBinder y; first
        | (refine Dev.Sound.part (P := ∀ z, y z = y z) (fun _ => ?_) (fun _ => rfl); subst y; beta_reduce)
        | (refine Dev.Sound.part (P := Dev.Sound (by apply y)) (fun _ => ?_) ?_ <;> [clear_value y; subst y])
        | clear_value y)
    | with_reducible apply Dev.takeEntry_sound
    | with_reducible apply Dev.wb_sound
    | with_reducible apply Dev.Sound.each
    | split

theorem Dev.adoptPlan_sound (d : Dev) (a n : Nat) (h_d : d.Sound) : Dev.Sound (Dev.adoptPlan d a n) := by
  unfold Dev.adoptPlan
  repeat' first
    | with_reducible assumption
    | (extract_lets +onlyGivenNames -underBinder y; first
        | (refine Dev.Sound.part (P := Dev.Sound (by apply y)) (fun _ => ?_) ?_ <;> [clear_value y; subst y])
        | clear_value y)
    | with_reducible apply Dev.enterHold_sound
    | with_reducible apply Dev.flag_sound
    | with_reducible apply Dev.setMode_sound
    | with_reducible apply Dev.setPx_sound
    | with_reducible apply Dev.Sound.w
    | with_reducible apply Dev.Sound.ite
    | split

theorem Dev.planMotion_sound (d : Dev) (a n : Nat) (h_d : d.Sound) : Dev.Sound (Dev.planMotion d a n).1 := by
  unfold Dev.planMotion
  repeat' first
    | with_reducible assumption
    | (extract_lets +onlyGivenNames -underBinder y; clear_value y)
    | with_reducible apply Dev.Sound.ite_fst
    | split

theorem Dev.motionOf_sound (d : Dev) (a n : Nat) (h_d : d.Sound) : Dev.Sound (Dev.motionOf d a n).1 := by
  unfold Dev.motionOf
  repeat' first
    | with_reducible assumption
    | (extract_lets +onlyGivenNames -underBinder y; first
        | (refine Dev.Sound.part (P := Dev.Sound (by apply y)) (fun _ => ?_) ?_ <;> [clear_value y; subst y])
        | clear_value y)
    | with_reducible apply Dev.applyStop_sound
    | with_reducible apply Dev.coordMotion_sound
    | with_reducible apply Dev.gearMotion_sound
    | with_reducible apply Dev.planMotion_sound
    | with_reducible apply Dev.timeMotion_sound
    | with_reducible apply Dev.Sound.ite_fst
    | (with_reducible refine Dev.Sound.of_fst (by assumption) ?_)
    | split

theorem Dev.applyCap_sound (d : Dev) (a n : Nat) (h_d : d.Sound) : Dev.Sound (Dev.applyCap d a n) := by
  unfold Dev.applyCap
  repeat' first
    | with_reducible assumption
    | (extract_lets +onlyGivenNames -underBinder y; first
        | (refine Dev.Sound.part (P := Dev.Sound (by apply y)) (fun _ => ?_) ?_ <;> [clear_value y; subst y])
        | clear_value y)
    | with_reducible apply Dev.replanAxis_sound
    | with_reducible apply Dev.wb_sound
    | with_reducible apply Dev.Sound.w
    | with_reducible apply Dev.Sound.ite

theorem Dev.capBreak_sound (d : Dev) (a n : Nat) (r : Dev × Motion) (h_d : d.Sound) (h_r : r.1.Sound) :
    Dev.Sound (Dev.capBreak d a n r).1 := by
  unfold Dev.capBreak
  repeat' first
    | with_reducible assumption
    | with_reducible apply Dev.applyStop_sound
    | with_reducible apply Dev.flag_sound
    | with_reducible apply Dev.motionOf_sound
    | with_reducible apply Dev.Sound.ite_fst

theorem Dev.virtualLimits_sound (d : Dev) (a n : Nat) (r : Dev × Motion) (h_d : d.Sound) (h_r : r.1.Sound) :
    Dev.Sound (Dev.virtualLimits d a n r).1 := by
  unfold Dev.virtualLimits
  repeat' first
    | with_reducible assumption
    | (extract_lets +onlyGivenNames -underBinder y; clear_value y)
    | with_reducible apply Dev.applyStop_sound
    | with_reducible apply Dev.flag_sound
    | with_reducible apply Dev.motionOf_sound
    | with_reducible apply Dev.wb_sound
    | with_reducible apply Dev.Sound.w
    | with_reducible apply Dev.Sound.ite
    | with_reducible apply Dev.Sound.ite_fst

theorem Dev.grabPosition_sound (d : Dev) (a : Nat) (p : Int) (h_d : d.Sound) : Dev.Sound (Dev.grabPosition d a p) := by
  unfold Dev.grabPosition
  repeat' first
    | with_reducible assumption
    | (extract_lets +onlyGivenNames -underBinder y; first
        | (refine Dev.Sound.part (P := Dev.Sound (by apply y)) (fun _ => ?_) ?_ <;> [clear_value y; subst y])
        | clear_value y)
    | with_reducible apply Dev.enterHold_sound
    | with_reducible apply Dev.setPx_sound
    | with_reducible apply Dev.ws_sound
    | with_reducible apply Dev.Sound.w

theorem Dev.clearStop_sound (d : Dev) (a : Nat) (h_d : d.Sound) : Dev.Sound (Dev.clearStop d a) := by
  unfold Dev.clearStop
  repeat' first
    | with_reducible assumption
    | (extract_lets +onlyGivenNames -underBinder y; first
        | (refine Dev.Sound.part (P := Dev.Sound (by apply y)) (fun _ => ?_) ?_ <;> [clear_value y; subst y])
        | clear_value y)
    | with_reducible apply Dev.setPx_sound
    | with_reducible apply Dev.Sound.w
    | with_reducible apply Dev.Sound.ite

theorem Dev.startSlot_sound (d : Dev) (a n : Nat) (s : SlotRec) (h_d : d.Sound) : Dev.Sound (Dev.startSlot d a n s) := by
  unfold Dev.startSlot
  repeat' first
    | with_reducible assumption
    | (extract_lets +onlyGivenNames -underBinder y; first
        | (refine Dev.Sound.part (P := Dev.Sound (by apply y)) (fun _ => ?_) ?_ <;> [clear_value y; subst y])
        | clear_value y)
    | with_reducible apply Dev.buildPlan_sound
    | with_reducible apply Dev.clearStop_sound
    | with_reducible apply Dev.countReplan_sound
    | with_reducible apply Dev.replanAxis_sound
    | with_reducible apply Dev.setMode_sound
    | with_reducible apply Dev.setPx_sound
    | with_reducible apply Dev.ws_sound
    | with_reducible apply Dev.Sound.w
    | with_reducible apply Dev.Sound.ite

theorem Dev.applyPrfCmd_sound (d : Dev) (n : Nat) (c : Nat × Nat × List Nat) (h_d : d.Sound) :
    Dev.Sound (Dev.applyPrfCmd d n c) := by
  unfold Dev.applyPrfCmd
  repeat' first
    | with_reducible assumption
    | (extract_lets +onlyGivenNames -underBinder y; first
        | (refine Dev.Sound.part (P := Dev.Sound (by apply y)) (fun _ => ?_) ?_ <;> [clear_value y; subst y])
        | clear_value y)
    | with_reducible apply Dev.clearStop_sound
    | with_reducible apply Dev.limitsChanged_sound
    | with_reducible apply Dev.replanAxis_sound
    | with_reducible apply Dev.setMode_sound
    | with_reducible apply Dev.setPx_sound
    | with_reducible apply Dev.startSlot_sound
    | with_reducible apply Dev.ws_sound
    | with_reducible apply Dev.Sound.w
    | with_reducible apply Dev.Sound.ite
    | split

theorem Dev.standAt_sound (d : Dev) (a : Nat) (p : Int) (h_d : d.Sound) : Dev.Sound (Dev.standAt d a p) := by
  unfold Dev.standAt
  repeat' first
    | with_reducible assumption
    | (extract_lets +onlyGivenNames -underBinder y; clear_value y)
    | with_reducible apply Dev.setPx_sound
    | with_reducible apply Dev.ws_sound

theorem Dev.rebaseAxis_sound (d : Dev) (a n : Nat) (h_d : d.Sound) : Dev.Sound (Dev.rebaseAxis d a n) := by
  unfold Dev.rebaseAxis
  repeat' first
    | with_reducible assumption
    | (extract_lets +onlyGivenNames -underBinder y; first
        | (refine Dev.Sound.part (P := Dev.Sound (by apply y)) (fun _ => ?_) ?_ <;> [clear_value y; subst y])
        | clear_value y)
    | with_reducible apply Dev.enterHold_sound
    | with_reducible apply Dev.flag_sound
    | with_reducible apply Dev.setPx_sound
    | with_reducible apply Dev.standAt_sound
    | with_reducible apply Dev.Sound.ite
    | split

theorem Dev.resumeAxis_sound (d : Dev) (a n : Nat) (h_d : d.Sound) : Dev.Sound (Dev.resumeAxis d a n) := by
  unfold Dev.resumeAxis
  repeat' first
    | with_reducible assumption
    | (extract_lets +onlyGivenNames -underBinder y; first
        | (refine Dev.Sound.part (P := Dev.Sound (by apply y)) (fun _ => ?_) ?_ <;> [clear_value y; subst y])
        | clear_value y)
    | with_reducible apply Dev.applyStop_sound
    | with_reducible apply Dev.buildPlan_sound
    | with_reducible apply Dev.countReplan_sound
    | with_reducible apply Dev.replanAxis_sound
    | with_reducible apply Dev.setPx_sound
    | with_reducible apply Dev.standAt_sound
    | with_reducible apply Dev.Sound.w
    | with_reducible apply Dev.Sound.ite
    | split

theorem Dev.genAxis_sound (d : Dev) (a n : Nat) (h_d : d.Sound) : Dev.Sound (Dev.genAxis d a n) := by
  unfold Dev.genAxis
  repeat' first
    | with_reducible assumption
    | (extract_lets +onlyGivenNames -underBinder y; first
        | (refine Dev.Sound.part (P := Dev.Sound (by apply y)) (fun _ => ?_) ?_ <;> [clear_value y; subst y])
        | clear_value y)
    | with_reducible apply Dev.adoptPlan_sound
    | with_reducible apply Dev.applyCap_sound
    | with_reducible apply Dev.applyStop_sound
    | with_reducible apply Dev.capBreak_sound
    | with_reducible apply Dev.flag_sound
    | with_reducible apply Dev.grabPosition_sound
    | with_reducible apply Dev.inc_sound
    | with_reducible apply Dev.incWrap_sound
    | with_reducible apply Dev.motionOf_sound
    | with_reducible apply Dev.setPx_sound
    | with_reducible apply Dev.virtualLimits_sound
    | with_reducible apply Dev.Sound.ite

theorem Dev.rebaseAll_sound (d : Dev) (axes : List Nat) (n : Nat) (h_d : d.Sound) : Dev.Sound (Dev.rebaseAll d axes n) := by
  unfold Dev.rebaseAll
  repeat' first
    | with_reducible assumption
    | refine fun _ => ?_
    | with_reducible apply Dev.rebaseAxis_sound
    | with_reducible apply Dev.resumeAxis_sound
    | with_reducible apply Dev.Sound.each
    | split

theorem Dev.waitAxis_sound (d : Dev) (a : Nat) (h_d : d.Sound) : Dev.Sound (Dev.waitAxis d a) := by
  unfold Dev.waitAxis
  repeat' first
    | with_reducible assumption
    | (extract_lets +onlyGivenNames -underBinder y; clear_value y)
    | with_reducible apply Dev.setPx_sound

theorem Dev.deliverStep_sound (d : Dev) (a : Nat) (h_d : d.Sound) : Dev.Sound (Dev.deliverStep d a) := by
  unfold Dev.deliverStep
  repeat' first
    | with_reducible assumption
    | (extract_lets +onlyGivenNames -underBinder y; clear_value y)
    | with_reducible apply Dev.setTx_sound
    | split

theorem Dev.generate_sound (d : Dev) (g : Grade) (h_d : d.Sound) : Dev.Sound (Dev.generate d g) := by
  unfold Dev.generate
  repeat' first
    | with_reducible assumption
    | refine fun _ => ?_
    | (extract_lets +onlyGivenNames -underBinder y; first
        | (refine Dev.Sound.part (P := Dev.Sound (by apply y)) (fun _ => ?_) ?_ <;> [clear_value y; subst y])
        | clear_value y)
    | with_reducible apply Dev.applyPrfCmd_sound
    | with_reducible apply Dev.deliverStep_sound
    | with_reducible apply Dev.flag_sound
    | with_reducible apply Dev.genAxis_sound
    | with_reducible apply Dev.overrun_sound
    | with_reducible apply Dev.reach_sound
    | with_reducible apply Dev.rebaseAll_sound
    | with_reducible apply Dev.setPx_sound
    | with_reducible apply Dev.startSlot_sound
    | with_reducible apply Dev.waitAxis_sound
    | with_reducible apply Dev.Sound.putMw
    | with_reducible apply Dev.Sound.w
    | with_reducible apply Dev.Sound.ite
    | with_reducible apply Dev.Sound.each
    | with_reducible apply Mem.wf_putWords
    | with_reducible apply Dev.Sound.mem
    | with_reducible refine Dev.Sound.updMem rfl ?_ ?_

theorem execGeneratorInstant_sound (s : State) (h_s : s.dev.Sound) : Outcome.Sound (execGeneratorInstant s) := by
  unfold execGeneratorInstant
  repeat' first
    | with_reducible assumption
    | refine fun _ => ?_
    | with_reducible apply Dev.generate_sound
    | with_reducible refine Outcome.Sound.ok h_s ?_

theorem Dev.prfBoundary_sound (d : Dev) (h_d : d.Sound) : Dev.Sound (Dev.prfBoundary d) := by
  unfold Dev.prfBoundary
  repeat' first
    | with_reducible assumption
    | refine fun _ => ?_
    | (extract_lets +onlyGivenNames -underBinder y; first
        | (refine Dev.Sound.part (P := Dev.Sound (by apply y)) (fun _ => ?_) ?_ <;> [clear_value y; subst y])
        | clear_value y)
    | with_reducible apply Dev.setPx_sound
    | with_reducible apply Dev.wb_sound
    | with_reducible apply Dev.ws_sound
    | with_reducible apply Dev.Sound.w
    | fail_if_no_progress (with_reducible refine Dev.Sound.upd rfl ?_)
    | with_reducible apply Dev.Sound.ite
    | with_reducible apply Dev.Sound.each

theorem Dev.paramWrite_sound (d : Dev) (g : Grade) (a w : Nat) (vs : List Nat) (h_d : d.Sound) :
    Dev.Sound (Dev.paramWrite d g a w vs) := by
  unfold Dev.paramWrite
  repeat' first
    | with_reducible assumption
    | (extract_lets +onlyGivenNames -underBinder y; clear_value y)
    | with_reducible apply Dev.flag_sound
    | fail_if_no_progress (with_reducible refine Dev.Sound.upd rfl ?_)
    | with_reducible apply Dev.Sound.ite

theorem execPrfParamRecordWrite_sound (path : Path) (a : Fin 128) (w : Fin 16) (vs : List Word) (s : State) (h_s : s.dev.Sound) :
    Outcome.Sound (execPrfParamRecordWrite path a w vs s) := by
  unfold execPrfParamRecordWrite
  repeat' first
    | with_reducible assumption
    | refine fun _ => ?_
    | with_reducible apply Dev.access_sound
    | with_reducible apply Dev.paramWrite_sound
    | with_reducible refine Outcome.Sound.ok h_s ?_

theorem Dev.gearWrite_sound (d : Dev) (a g w v : Nat) (h_d : d.Sound) : Dev.Sound (Dev.gearWrite d a g w v) := by
  unfold Dev.gearWrite
  repeat' first
    | with_reducible assumption
    | with_reducible apply Dev.Sound.putMw
    | with_reducible apply Dev.Sound.ite

theorem Dev.prfQueue_sound (d : Dev) (a op : Nat) (ws : List Nat) (h_d : d.Sound) : Dev.Sound (Dev.prfQueue d a op ws) := by
  unfold Dev.prfQueue
  repeat' first
    | with_reducible assumption
    | (extract_lets +onlyGivenNames -underBinder y; clear_value y)
    | fail_if_no_progress (with_reducible refine Dev.Sound.upd rfl ?_)

theorem execPrfInfo_sound (p : Packet) (s : State) (h_s : s.dev.Sound) : Outcome.Sound (execPrfInfo p s) := by
  unfold execPrfInfo
  repeat' first
    | with_reducible assumption
    | refine fun _ => ?_
    | with_reducible apply Dev.runPacket_sound
    | with_reducible refine Outcome.Sound.ok h_s ?_

theorem Dev.prfStart_sound (d : Dev) (g : Grade) (a sl : Nat) (h_d : d.Sound) : Dev.Sound (Dev.prfStart d g a sl).1 := by
  unfold Dev.prfStart
  repeat' first
    | with_reducible assumption
    | (extract_lets +onlyGivenNames -underBinder y; clear_value y)
    | with_reducible apply Dev.prfQueue_sound
    | with_reducible apply Dev.Sound.ite_fst
    | split

theorem execPrfStart_sound (p : Packet) (s : State) (h_s : s.dev.Sound) : Outcome.Sound (execPrfStart p s) := by
  unfold execPrfStart
  repeat' first
    | with_reducible assumption
    | refine fun _ => ?_
    | with_reducible apply Dev.prfStart_sound
    | with_reducible apply Dev.runPacket_sound
    | with_reducible refine Outcome.Sound.ok h_s ?_

theorem Dev.prfTarget_sound (d : Dev) (g : Grade) (a : Nat) (ws : List Nat) (h_d : d.Sound) :
    Dev.Sound (Dev.prfTarget d g a ws).1 := by
  unfold Dev.prfTarget
  repeat' first
    | with_reducible assumption
    | (extract_lets +onlyGivenNames -underBinder y; clear_value y)
    | with_reducible apply Dev.prfQueue_sound
    | with_reducible apply Dev.Sound.ite_fst

theorem execPrfTarget_sound (p : Packet) (s : State) (h_s : s.dev.Sound) : Outcome.Sound (execPrfTarget p s) := by
  unfold execPrfTarget
  repeat' first
    | with_reducible assumption
    | refine fun _ => ?_
    | with_reducible apply Dev.prfTarget_sound
    | with_reducible apply Dev.runPacket_sound
    | with_reducible refine Outcome.Sound.ok h_s ?_

theorem Dev.prfLimits_sound (d : Dev) (g : Grade) (a : Nat) (ws : List Nat) (h_d : d.Sound) :
    Dev.Sound (Dev.prfLimits d g a ws).1 := by
  unfold Dev.prfLimits
  repeat' first
    | with_reducible assumption
    | with_reducible apply Dev.prfQueue_sound
    | with_reducible apply Dev.Sound.ite_fst
    | split

theorem execPrfLimits_sound (p : Packet) (s : State) (h_s : s.dev.Sound) : Outcome.Sound (execPrfLimits p s) := by
  unfold execPrfLimits
  repeat' first
    | with_reducible assumption
    | refine fun _ => ?_
    | with_reducible apply Dev.prfLimits_sound
    | with_reducible apply Dev.runPacket_sound
    | with_reducible refine Outcome.Sound.ok h_s ?_

theorem Dev.prfStop_sound (d : Dev) (g : Grade) (axes : List Nat) (mode : Nat) (h_d : d.Sound) :
    Dev.Sound (Dev.prfStop d g axes mode).1 := by
  unfold Dev.prfStop
  repeat' first
    | with_reducible assumption
    | refine fun _ => ?_
    | (extract_lets +onlyGivenNames -underBinder y; clear_value y)
    | with_reducible apply Dev.setPx_sound
    | with_reducible apply Dev.Sound.ite_fst
    | with_reducible apply Dev.Sound.each

theorem execPrfStop_sound (p : Packet) (s : State) (h_s : s.dev.Sound) : Outcome.Sound (execPrfStop p s) := by
  unfold execPrfStop
  repeat' first
    | with_reducible assumption
    | refine fun _ => ?_
    | with_reducible apply Dev.prfStop_sound
    | with_reducible apply Dev.runPacket_sound
    | with_reducible refine Outcome.Sound.ok h_s ?_

theorem Dev.gearStart_sound (d : Dev) (g : Grade) (a : Nat) (ws : List Nat) (h_d : d.Sound) :
    Dev.Sound (Dev.gearStart d g a ws).1 := by
  unfold Dev.gearStart
  repeat' first
    | with_reducible assumption
    | (extract_lets +onlyGivenNames -underBinder y; clear_value y)
    | with_reducible apply Dev.prfQueue_sound
    | with_reducible apply Dev.Sound.ite_fst

theorem execGearStart_sound (p : Packet) (s : State) (h_s : s.dev.Sound) : Outcome.Sound (execGearStart p s) := by
  unfold execGearStart
  repeat' first
    | with_reducible assumption
    | refine fun _ => ?_
    | with_reducible apply Dev.gearStart_sound
    | with_reducible apply Dev.runPacket_sound
    | with_reducible refine Outcome.Sound.ok h_s ?_

theorem Dev.gearArm_sound (d : Dev) (g : Grade) (a e on : Nat) (h_d : d.Sound) : Dev.Sound (Dev.gearArm d g a e on).1 := by
  unfold Dev.gearArm
  repeat' first
    | with_reducible assumption
    | with_reducible apply Dev.Sound.putMw
    | with_reducible apply Dev.Sound.ite_fst

theorem execGearArm_sound (p : Packet) (s : State) (h_s : s.dev.Sound) : Outcome.Sound (execGearArm p s) := by
  unfold execGearArm
  repeat' first
    | with_reducible assumption
    | refine fun _ => ?_
    | with_reducible apply Dev.gearArm_sound
    | with_reducible apply Dev.runPacket_sound
    | with_reducible refine Outcome.Sound.ok h_s ?_

theorem Dev.planStartCmd_sound (d : Dev) (g : Grade) (axes : List Nat) (h_d : d.Sound) :
    Dev.Sound (Dev.planStartCmd d g axes).1 := by
  unfold Dev.planStartCmd
  repeat' first
    | with_reducible assumption
    | refine fun _ => ?_
    | (extract_lets +onlyGivenNames -underBinder y;
       refine Dev.Sound.part (P := ∀ z, y z = y z) (fun _ => ?_) (fun _ => rfl); subst y; beta_reduce)
    | with_reducible apply Dev.prfQueue_sound
    | with_reducible apply Dev.Sound.ite_fst
    | with_reducible apply Dev.Sound.each

theorem execPlanStart_sound (p : Packet) (s : State) (h_s : s.dev.Sound) : Outcome.Sound (execPlanStart p s) := by
  unfold execPlanStart
  repeat' first
    | with_reducible assumption
    | refine fun _ => ?_
    | with_reducible apply Dev.planStartCmd_sound
    | with_reducible apply Dev.runPacket_sound
    | with_reducible refine Outcome.Sound.ok h_s ?_

theorem Dev.prfRelease_sound (d : Dev) (axes : List Nat) (h_d : d.Sound) : Dev.Sound (Dev.prfRelease d axes).1 := by
  unfold Dev.prfRelease
  repeat' first
    | with_reducible assumption
    | refine fun _ => ?_
    | (extract_lets +onlyGivenNames -underBinder y;
       refine Dev.Sound.part (P := ∀ z, y z = y z) (fun _ => ?_) (fun _ => rfl); subst y; beta_reduce)
    | with_reducible apply Dev.Sound.w
    | with_reducible apply Dev.Sound.each

theorem execPrfRelease_sound (p : Packet) (s : State) (h_s : s.dev.Sound) : Outcome.Sound (execPrfRelease p s) := by
  unfold execPrfRelease
  repeat' first
    | with_reducible assumption
    | refine fun _ => ?_
    | with_reducible apply Dev.prfRelease_sound
    | with_reducible apply Dev.runPacket_sound
    | with_reducible refine Outcome.Sound.ok h_s ?_

theorem execPrfAxisRead_sound (p : Packet) (s : State) (h_s : s.dev.Sound) : Outcome.Sound (execPrfAxisRead p s) := by
  unfold execPrfAxisRead
  repeat' first
    | with_reducible assumption
    | refine fun _ => ?_
    | (extract_lets +onlyGivenNames -underBinder y; first
        | (refine Dev.Sound.part (P := ∀ z, y z = y z) (fun _ => ?_) (fun _ => rfl); subst y; beta_reduce)
        | (refine Dev.Sound.part (P := Dev.Sound (by apply y)) (fun _ => ?_) ?_ <;> [clear_value y; subst y])
        | clear_value y)
    | with_reducible apply Dev.ofFront_sound
    | with_reducible apply Dev.runPacket_sound
    | with_reducible refine Outcome.Sound.ok h_s ?_
    | with_reducible apply Dev.Sound.ite_fst

theorem Dev.prfParamWrite_sound (d : Dev) (g : Grade) (a : Nat) (ws : List Nat) (h_d : d.Sound) :
    Dev.Sound (Dev.prfParamWrite d g a ws).1 := by
  unfold Dev.prfParamWrite
  repeat' first
    | with_reducible assumption
    | (extract_lets +onlyGivenNames -underBinder y; clear_value y)
    | fail_if_no_progress (with_reducible refine Dev.Sound.upd rfl ?_)
    | with_reducible apply Dev.Sound.ite_fst
    | split

theorem execPrfParamWrite_sound (p : Packet) (s : State) (h_s : s.dev.Sound) : Outcome.Sound (execPrfParamWrite p s) := by
  unfold execPrfParamWrite
  repeat' first
    | with_reducible assumption
    | refine fun _ => ?_
    | with_reducible apply Dev.prfParamWrite_sound
    | with_reducible apply Dev.runPacket_sound
    | with_reducible refine Outcome.Sound.ok h_s ?_

/-! ### Machine/Trace.lean -/

theorem Dev.trcPointers_sound (d : Dev) (h_d : d.Sound) : Dev.Sound (Dev.trcPointers d) := by
  unfold Dev.trcPointers
  repeat' first
    | with_reducible assumption
    | (extract_lets +onlyGivenNames -underBinder y; first
        | (refine Dev.Sound.part (P := Dev.Sound (by apply y)) (fun _ => ?_) ?_ <;> [clear_value y; subst y])
        | clear_value y)
    | with_reducible apply Dev.Sound.w
    | fail_if_no_progress (with_reducible refine Dev.Sound.upd rfl ?_)

theorem Dev.trcReset_sound (d : Dev) (h_d : d.Sound) : Dev.Sound (Dev.trcReset d) := by
  unfold Dev.trcReset
  repeat' first
    | with_reducible assumption
    | (extract_lets +onlyGivenNames -underBinder y; first
        | (refine Dev.Sound.part (P := Dev.Sound (by apply y)) (fun _ => ?_) ?_ <;> [clear_value y; subst y])
        | clear_value y)
    | with_reducible apply Dev.trcPointers_sound
    | with_reducible apply Dev.Sound.w
    | fail_if_no_progress (with_reducible refine Dev.Sound.upd rfl ?_)

theorem Dev.trcGeometryWrite_sound (d : Dev) (sel v : Nat) (h_d : d.Sound) : Dev.Sound (Dev.trcGeometryWrite d sel v) := by
  unfold Dev.trcGeometryWrite
  repeat' first
    | with_reducible assumption
    | (extract_lets +onlyGivenNames -underBinder y; first
        | (refine Dev.Sound.part (P := Dev.Sound (by apply y)) (fun _ => ?_) ?_ <;> [clear_value y; subst y])
        | clear_value y)
    | with_reducible apply Dev.flag_sound
    | with_reducible apply Dev.trcReset_sound
    | with_reducible apply Dev.Sound.w
    | with_reducible apply Dev.Sound.ite

theorem execTrcGeometryWrite_sound (sel : Fin 19) (v : Word) (s : State) (h_s : s.dev.Sound) :
    Outcome.Sound (execTrcGeometryWrite sel v s) := by
  unfold execTrcGeometryWrite
  repeat' first
    | with_reducible assumption
    | refine fun _ => ?_
    | with_reducible apply Dev.trcGeometryWrite_sound
    | with_reducible refine Outcome.Sound.ok h_s ?_

theorem Dev.trcParamWrite_sound (d : Dev) (a v : Nat) (h_d : d.Sound) : Dev.Sound (Dev.trcParamWrite d a v) := by
  unfold Dev.trcParamWrite
  repeat' first
    | with_reducible assumption
    | with_reducible apply Dev.flag_sound
    | with_reducible apply Dev.putReg_sound
    | with_reducible apply Dev.Sound.ite

theorem Dev.trcArm_sound (d : Dev) (h_d : d.Sound) : Dev.Sound (Dev.trcArm d).1 := by
  unfold Dev.trcArm
  repeat' first
    | with_reducible assumption
    | (extract_lets +onlyGivenNames -underBinder y; first
        | (refine Dev.Sound.part (P := Dev.Sound (by apply y)) (fun _ => ?_) ?_ <;> [clear_value y; subst y])
        | clear_value y)
    | with_reducible apply Dev.flag_sound
    | with_reducible apply Dev.trcPointers_sound
    | fail_if_no_progress (with_reducible refine Dev.Sound.upd rfl ?_)
    | with_reducible apply Dev.Sound.ite_fst

theorem execTrcCtrlArm_sound (s : State) (h_s : s.dev.Sound) : Outcome.Sound (execTrcCtrlArm s) := by
  unfold execTrcCtrlArm
  repeat' first
    | with_reducible assumption
    | refine fun _ => ?_
    | with_reducible apply Dev.trcArm_sound
    | with_reducible refine Outcome.Sound.ok h_s ?_

theorem execTrcArm_sound (p : Packet) (s : State) (h_s : s.dev.Sound) : Outcome.Sound (execTrcArm p s) := by
  unfold execTrcArm
  repeat' first
    | with_reducible assumption
    | refine fun _ => ?_
    | with_reducible apply Dev.runPacket_sound
    | with_reducible apply Dev.trcArm_sound
    | with_reducible refine Outcome.Sound.ok h_s ?_

theorem Dev.trcStop_sound (d : Dev) (h_d : d.Sound) : Dev.Sound (Dev.trcStop d) := by
  unfold Dev.trcStop
  repeat' first
    | with_reducible assumption
    | (extract_lets +onlyGivenNames -underBinder y; clear_value y)
    | fail_if_no_progress (with_reducible refine Dev.Sound.upd rfl ?_)

theorem execTrcCtrlStop_sound (s : State) (h_s : s.dev.Sound) : Outcome.Sound (execTrcCtrlStop s) := by
  unfold execTrcCtrlStop
  repeat' first
    | with_reducible assumption
    | refine fun _ => ?_
    | with_reducible apply Dev.trcStop_sound
    | with_reducible refine Outcome.Sound.ok h_s ?_

theorem execTrcStop_sound (p : Packet) (s : State) (h_s : s.dev.Sound) : Outcome.Sound (execTrcStop p s) := by
  unfold execTrcStop
  repeat' first
    | with_reducible assumption
    | refine fun _ => ?_
    | with_reducible apply Dev.runPacket_sound
    | with_reducible apply Dev.trcStop_sound
    | with_reducible refine Outcome.Sound.ok h_s ?_

theorem Dev.trcTrigger_sound (d : Dev) (h_d : d.Sound) : Dev.Sound (Dev.trcTrigger d).1 := by
  unfold Dev.trcTrigger
  repeat' first
    | with_reducible assumption
    | (extract_lets +onlyGivenNames -underBinder y; clear_value y)
    | fail_if_no_progress (with_reducible refine Dev.Sound.upd rfl ?_)
    | with_reducible apply Dev.Sound.ite_fst

theorem execTrcCtrlTrig_sound (s : State) (h_s : s.dev.Sound) : Outcome.Sound (execTrcCtrlTrig s) := by
  unfold execTrcCtrlTrig
  repeat' first
    | with_reducible assumption
    | refine fun _ => ?_
    | with_reducible apply Dev.trcTrigger_sound
    | with_reducible refine Outcome.Sound.ok h_s ?_

theorem execTrcTrigger_sound (p : Packet) (s : State) (h_s : s.dev.Sound) : Outcome.Sound (execTrcTrigger p s) := by
  unfold execTrcTrigger
  repeat' first
    | with_reducible assumption
    | refine fun _ => ?_
    | with_reducible apply Dev.runPacket_sound
    | with_reducible apply Dev.trcTrigger_sound
    | with_reducible refine Outcome.Sound.ok h_s ?_

theorem Dev.trcDrop_sound (d : Dev) (h_d : d.Sound) : Dev.Sound (Dev.trcDrop d) := by
  unfold Dev.trcDrop
  repeat' first
    | with_reducible assumption
    | with_reducible apply Dev.trcReset_sound
    | with_reducible apply Dev.Sound.ite

theorem Dev.writeRow_sound (d : Dev) (n : Nat) (row : List (Nat × Bool)) (trig : Bool) (h_d : d.Sound) :
    Dev.Sound (Dev.writeRow d n row trig) := by
  unfold Dev.writeRow
  repeat' first
    | with_reducible assumption
    | (extract_lets +onlyGivenNames -underBinder y; first
        | (refine Dev.Sound.part (P := Dev.Sound (by apply y)) (fun _ => ?_) ?_ <;> [clear_value y; subst y])
        | clear_value y)
    | with_reducible apply Dev.Sound.w
    | with_reducible apply Dev.Sound.mem
    | with_reducible refine Dev.Sound.updMem rfl ?_ ?_

theorem Dev.trcFire_sound (d : Dev) (n row : Nat) (h_d : d.Sound) : Dev.Sound (Dev.trcFire d n row) := by
  unfold Dev.trcFire
  repeat' first
    | with_reducible assumption
    | (extract_lets +onlyGivenNames -underBinder y; first
        | (refine Dev.Sound.part (P := Dev.Sound (by apply y)) (fun _ => ?_) ?_ <;> [clear_value y; subst y])
        | clear_value y)
    | with_reducible apply Dev.Sound.w
    | fail_if_no_progress (with_reducible refine Dev.Sound.upd rfl ?_)

theorem Dev.captureRow_sound (d : Dev) (n : Nat) (h_d : d.Sound) : Dev.Sound (Dev.captureRow d n) := by
  unfold Dev.captureRow
  repeat' first
    | with_reducible assumption
    | (extract_lets +onlyGivenNames -underBinder y; first
        | (refine Dev.Sound.part (P := Dev.Sound (by apply y)) (fun _ => ?_) ?_ <;> [clear_value y; subst y])
        | clear_value y)
    | with_reducible apply Dev.trcFire_sound
    | with_reducible apply Dev.writeRow_sound
    | with_reducible apply Dev.Sound.w
    | fail_if_no_progress (with_reducible refine Dev.Sound.upd rfl ?_)
    | with_reducible apply Dev.Sound.ite

theorem Dev.captureStop_sound (d : Dev) (h_d : d.Sound) : Dev.Sound (Dev.captureStop d) := by
  unfold Dev.captureStop
  repeat' first
    | with_reducible assumption
    | (extract_lets +onlyGivenNames -underBinder y; clear_value y)
    | with_reducible apply Dev.Sound.w
    | split

theorem Dev.traceCommit_sound (d : Dev) (n : Nat) (h_d : d.Sound) : Dev.Sound (Dev.traceCommit d n) := by
  unfold Dev.traceCommit
  repeat' first
    | with_reducible assumption
    | (extract_lets +onlyGivenNames -underBinder y; first
        | (refine Dev.Sound.part (P := Dev.Sound (by apply y)) (fun _ => ?_) ?_ <;> [clear_value y; subst y])
        | clear_value y)
    | with_reducible apply Dev.captureRow_sound
    | with_reducible apply Dev.captureStop_sound
    | fail_if_no_progress (with_reducible refine Dev.Sound.upd rfl ?_)
    | with_reducible apply Dev.Sound.ite

theorem Dev.traceBoundary_sound (d : Dev) (n : Nat) (h_d : d.Sound) : Dev.Sound (Dev.traceBoundary d n) := by
  unfold Dev.traceBoundary
  repeat' first
    | with_reducible assumption
    | (extract_lets +onlyGivenNames -underBinder y; first
        | (refine Dev.Sound.part (P := Dev.Sound (by apply y)) (fun _ => ?_) ?_ <;> [clear_value y; subst y])
        | clear_value y)
    | with_reducible apply Dev.Sound.w
    | fail_if_no_progress (with_reducible refine Dev.Sound.upd rfl ?_)
    | with_reducible apply Dev.Sound.ite

theorem execTrcInfo_sound (p : Packet) (s : State) (h_s : s.dev.Sound) : Outcome.Sound (execTrcInfo p s) := by
  unfold execTrcInfo
  repeat' first
    | with_reducible assumption
    | refine fun _ => ?_
    | with_reducible apply Dev.runPacket_sound
    | with_reducible refine Outcome.Sound.ok h_s ?_

theorem Dev.trcSetup_sound (d : Dev) (ps : List Nat) (h_d : d.Sound) : Dev.Sound (Dev.trcSetup d ps).1 := by
  unfold Dev.trcSetup
  repeat' first
    | with_reducible assumption
    | refine fun _ => ?_
    | (extract_lets +onlyGivenNames -underBinder y;
       refine Dev.Sound.part (P := Dev.Sound (by apply y)) (fun _ => ?_) ?_ <;> [clear_value y; subst y])
    | with_reducible apply Dev.flag_sound
    | with_reducible apply Dev.putReg_sound
    | with_reducible apply Dev.trcReset_sound
    | with_reducible apply Dev.Sound.ite_fst
    | with_reducible apply Dev.Sound.each
    | split

theorem execTrcSetup_sound (p : Packet) (s : State) (h_s : s.dev.Sound) : Outcome.Sound (execTrcSetup p s) := by
  unfold execTrcSetup
  repeat' first
    | with_reducible assumption
    | refine fun _ => ?_
    | with_reducible apply Dev.runPacket_sound
    | with_reducible apply Dev.trcSetup_sound
    | with_reducible refine Outcome.Sound.ok h_s ?_

theorem Dev.trcRead_sound (d : Dev) (first count unc limit : Nat) (h_d : d.Sound) :
    Dev.Sound (Dev.trcRead d first count unc limit).1 := by
  unfold Dev.trcRead
  repeat' first
    | with_reducible assumption
    | (extract_lets +onlyGivenNames -underBinder y; clear_value y)
    | with_reducible apply Dev.add_sound
    | with_reducible apply Dev.Sound.ite_fst

theorem execTrcRead_sound (p : Packet) (unc : Nat) (s : State) (h_s : s.dev.Sound) : Outcome.Sound (execTrcRead p unc s) := by
  unfold execTrcRead
  repeat' first
    | with_reducible assumption
    | refine fun _ => ?_
    | with_reducible apply Dev.runPacket_sound
    | with_reducible apply Dev.trcRead_sound
    | with_reducible refine Outcome.Sound.ok h_s ?_

theorem Dev.injStart_sound (d : Dev) (i e : Nat) (h_d : d.Sound) : Dev.Sound (Dev.injStart d i e).1 := by
  unfold Dev.injStart
  repeat' first
    | with_reducible assumption
    | (extract_lets +onlyGivenNames -underBinder y; first
        | (refine Dev.Sound.part (P := Dev.Sound (by apply y)) (fun _ => ?_) ?_ <;> [clear_value y; subst y])
        | clear_value y)
    | with_reducible apply Dev.flag_sound
    | with_reducible apply Dev.setInjector_sound
    | with_reducible apply Dev.Sound.w
    | with_reducible apply Dev.Sound.ite_fst

theorem execInjStart_sound (p : Packet) (s : State) (h_s : s.dev.Sound) : Outcome.Sound (execInjStart p s) := by
  unfold execInjStart
  repeat' first
    | with_reducible assumption
    | refine fun _ => ?_
    | with_reducible apply Dev.injStart_sound
    | with_reducible apply Dev.runPacket_sound
    | with_reducible refine Outcome.Sound.ok h_s ?_

theorem execInjStop_sound (p : Packet) (s : State) (h_s : s.dev.Sound) : Outcome.Sound (execInjStop p s) := by
  unfold execInjStop
  repeat' first
    | with_reducible assumption
    | refine fun _ => ?_
    | (extract_lets +onlyGivenNames -underBinder y; clear_value y)
    | with_reducible apply Dev.injStop_sound
    | with_reducible apply Dev.runPacket_sound
    | with_reducible refine Outcome.Sound.ok h_s ?_
    | with_reducible apply Dev.Sound.ite_fst

end Sys2Proof.Machine
end

