-- ==== Sys2Proof/Laws/SoundRings.lean ====
section
/-!
SUPPORT. Laws/SoundRings.lean: the operations and commands of the rings, the dispatcher, the monitor Paddock and the backbone
keep a device sound.
-/
namespace Sys2Proof.Machine

set_option linter.unusedTactic false
set_option linter.unreachableTactic false

/-! ### Machine/Cerid.lean -/

theorem Dev.portBreak_sound (d : Dev) (p : Nat) (v : Bool) (h_d : d.Sound) : Dev.Sound (Dev.portBreak d p v) := by
  unfold Dev.portBreak
  repeat' first
    | with_reducible assumption
    | with_reducible apply Dev.wb_sound
    | with_reducible apply Dev.Sound.w

theorem Dev.portClosed_sound (d : Dev) (p : Nat) (v : Bool) (h_d : d.Sound) : Dev.Sound (Dev.portClosed d p v) := by
  unfold Dev.portClosed
  repeat' first
    | with_reducible assumption
    | with_reducible apply Dev.wb_sound
    | with_reducible apply Dev.Sound.w

theorem Dev.portRunning_sound (d : Dev) (p : Nat) (v : Bool) (h_d : d.Sound) : Dev.Sound (Dev.portRunning d p v) := by
  unfold Dev.portRunning
  repeat' first
    | with_reducible assumption
    | with_reducible apply Dev.Sound.w

theorem Dev.crdCfgWrite_sound (d : Dev) (p a v : Nat) (h_d : d.Sound) : Dev.Sound (Dev.crdCfgWrite d p a v) := by
  unfold Dev.crdCfgWrite
  repeat' first
    | with_reducible assumption
    | with_reducible apply Dev.flag_sound
    | with_reducible apply Dev.putReg_sound
    | with_reducible apply Dev.Sound.ite

theorem Dev.crdTypeWrite_sound (d : Dev) (v : Nat) (h_d : d.Sound) : Dev.Sound (Dev.crdTypeWrite d v) := by
  unfold Dev.crdTypeWrite
  repeat' first
    | with_reducible assumption
    | with_reducible apply Dev.flag_sound
    | with_reducible apply Dev.putReg_sound
    | with_reducible apply Dev.Sound.ite

theorem execCrdLinkChange_sound (p : Fin 4) (up rightMode : Bool) (s : State) (h_s : s.dev.Sound) :
    Outcome.Sound (execCrdLinkChange p up rightMode s) := by
  unfold execCrdLinkChange
  repeat' first
    | with_reducible assumption
    | refine fun _ => ?_
    | with_reducible apply Dev.wb_sound
    | with_reducible refine Outcome.Sound.ok h_s ?_

theorem Dev.pushAcyc_sound (d : Dev) (p target op addr d0 d1 purpose : Nat) (h_d : d.Sound) :
    Dev.Sound (Dev.pushAcyc d p target op addr d0 d1 purpose) := by
  unfold Dev.pushAcyc
  repeat' first
    | with_reducible assumption
    | (extract_lets +onlyGivenNames -underBinder y; clear_value y)
    | with_reducible apply Dev.setRp_sound

theorem Dev.startFail_sound (d : Dev) (p code : Nat) (h_d : d.Sound) : Dev.Sound (Dev.startFail d p code) := by
  unfold Dev.startFail
  repeat' first
    | with_reducible assumption
    | (extract_lets +onlyGivenNames -underBinder y; clear_value y)
    | with_reducible apply Dev.setRp_sound

theorem Dev.startResult_sound (d : Dev) (p : Nat) (j : AcycJob) (rsp : Option AcycRsp) (h_d : d.Sound) :
    Dev.Sound (Dev.startResult d p j rsp) := by
  unfold Dev.startResult
  repeat' first
    | with_reducible assumption
    | (extract_lets +onlyGivenNames -underBinder y; clear_value y)
    | with_reducible apply Dev.setRp_sound
    | with_reducible apply Dev.startFail_sound
    | with_reducible apply Dev.Sound.ite
    | split

theorem Dev.acycDone_sound (d : Dev) (p : Nat) (j : AcycJob) (rsp : Option AcycRsp) (h_d : d.Sound) :
    Dev.Sound (Dev.acycDone d p j rsp) := by
  unfold Dev.acycDone
  repeat' first
    | with_reducible assumption
    | (extract_lets +onlyGivenNames -underBinder y; first
        | (refine Dev.Sound.part (P := Dev.Sound (by apply y)) (fun _ => ?_) ?_ <;> [clear_value y; subst y])
        | clear_value y)
    | with_reducible apply Dev.setRp_sound
    | with_reducible apply Dev.settle_sound
    | with_reducible apply Dev.startResult_sound
    | split

theorem Dev.acycReturn_sound (d : Dev) (p n : Nat) (r : AcycRsp) (h_d : d.Sound) : Dev.Sound (Dev.acycReturn d p n r) := by
  unfold Dev.acycReturn
  repeat' first
    | with_reducible assumption
    | with_reducible apply Dev.acycDone_sound
    | with_reducible apply Dev.Sound.ite
    | split

theorem Dev.acycTimeout_sound (d : Dev) (p : Nat) (h_d : d.Sound) : Dev.Sound (Dev.acycTimeout d p) := by
  unfold Dev.acycTimeout
  repeat' first
    | with_reducible assumption
    | (extract_lets +onlyGivenNames -underBinder y; clear_value y)
    | with_reducible apply Dev.acycDone_sound
    | with_reducible apply Dev.setRp_sound
    | with_reducible apply Dev.Sound.ite
    | split

theorem execAcycTimeout_sound (p : Fin 4) (s : State) (h_s : s.dev.Sound) : Outcome.Sound (execAcycTimeout p s) := by
  unfold execAcycTimeout
  repeat' first
    | with_reducible assumption
    | refine fun _ => ?_
    | with_reducible apply Dev.acycTimeout_sound
    | with_reducible refine Outcome.Sound.ok h_s ?_

theorem Dev.timedOut_sound (d : Dev) (p b : Nat) (s : SlotCfg) (h_d : d.Sound) : Dev.Sound (Dev.timedOut d p b s).1 := by
  unfold Dev.timedOut
  repeat' first
    | with_reducible assumption
    | (extract_lets +onlyGivenNames -underBinder y; first
        | (refine Dev.Sound.part (P := Dev.Sound (by apply y)) (fun _ => ?_) ?_ <;> [clear_value y; subst y])
        | clear_value y)
    | with_reducible apply Dev.add_sound
    | with_reducible apply Dev.setRp_sound

theorem Dev.buildSlot_sound (d : Dev) (p b : Nat) (fill : Bool) (s : SlotCfg) (h_d : d.Sound) :
    Dev.Sound (Dev.buildSlot d p b fill s).1 := by
  unfold Dev.buildSlot
  repeat' first
    | with_reducible assumption
    | (extract_lets +onlyGivenNames -underBinder y; first
        | (refine Dev.Sound.part (P := ∀ z, y z = y z) (fun _ => ?_) (fun _ => rfl); subst y; beta_reduce)
        | clear_value y)
    | with_reducible apply Dev.setRp_sound
    | with_reducible apply Dev.timedOut_sound
    | with_reducible apply Dev.Sound.ite_fst
    | split

theorem Dev.takeTimed_sound (d : Dev) (h_d : d.Sound) : Dev.Sound (Dev.takeTimed d) := by
  unfold Dev.takeTimed
  repeat' first
    | with_reducible assumption
    | refine fun _ => ?_
    | (extract_lets +onlyGivenNames -underBinder y; first
        | (refine Dev.Sound.part (P := Dev.Sound (by apply y)) (fun _ => ?_) ?_ <;> [clear_value y; subst y])
        | clear_value y)
    | with_reducible apply Dev.setRp_sound
    | fail_if_no_progress (with_reducible refine Dev.Sound.upd rfl ?_)
    | with_reducible apply Dev.Sound.ite
    | with_reducible apply Dev.Sound.each

theorem Dev.acycAreas_sound (d : Dev) (p n : Nat) (h_d : d.Sound) : Dev.Sound (Dev.acycAreas d p n).1 := by
  unfold Dev.acycAreas
  repeat' first
    | with_reducible assumption
    | (extract_lets +onlyGivenNames -underBinder y; clear_value y)
    | with_reducible apply Dev.setRp_sound
    | with_reducible apply Dev.Sound.ite_fst
    | split

theorem Dev.sendFrame_sound (d : Dev) (p : Nat) (h_d : d.Sound) : Dev.Sound (Dev.sendFrame d p) := by
  unfold Dev.sendFrame
  repeat' first
    | with_reducible assumption
    | refine fun _ => ?_
    | (extract_lets +onlyGivenNames -underBinder y; clear_value y)
    | with_reducible apply Dev.acycAreas_sound
    | with_reducible apply Dev.buildSlot_sound
    | with_reducible apply Dev.setRp_sound
    | with_reducible apply Dev.Sound.foldl_fst

theorem Dev.sendClosing_sound (d : Dev) (p : Nat) (slots : List FrameSlot) (h_d : d.Sound) :
    Dev.Sound (Dev.sendClosing d p slots) := by
  unfold Dev.sendClosing
  repeat' first
    | with_reducible assumption
    | (extract_lets +onlyGivenNames -underBinder y; clear_value y)
    | with_reducible apply Dev.setRp_sound

theorem Dev.stopPort_sound (d : Dev) (p : Nat) (h_d : d.Sound) : Dev.Sound (Dev.stopPort d p) := by
  unfold Dev.stopPort
  repeat' first
    | with_reducible assumption
    | refine fun _ => ?_
    | (extract_lets +onlyGivenNames -underBinder y; first
        | (refine Dev.Sound.part (P := Dev.Sound (by apply y)) (fun _ => ?_) ?_ <;> [clear_value y; subst y])
        | clear_value y)
    | with_reducible apply Dev.portBreak_sound
    | with_reducible apply Dev.portClosed_sound
    | with_reducible apply Dev.portRunning_sound
    | with_reducible apply Dev.setRp_sound
    | with_reducible apply Dev.settle_sound
    | with_reducible apply Dev.Sound.w
    | with_reducible apply Dev.Sound.each

theorem Dev.ringBoundary_sound (d : Dev) (h_d : d.Sound) : Dev.Sound (Dev.ringBoundary d) := by
  unfold Dev.ringBoundary
  repeat' first
    | with_reducible assumption
    | refine fun _ => ?_
    | (extract_lets +onlyGivenNames -underBinder y; first
        | (refine Dev.Sound.part (P := Dev.Sound (by apply y)) (fun _ => ?_) ?_ <;> [clear_value y; subst y])
        | clear_value y)
    | with_reducible apply Dev.portRunning_sound
    | with_reducible apply Dev.sendClosing_sound
    | with_reducible apply Dev.sendFrame_sound
    | with_reducible apply Dev.setRp_sound
    | with_reducible apply Dev.stopPort_sound
    | with_reducible apply Dev.takeTimed_sound
    | with_reducible apply Dev.wb_sound
    | with_reducible apply Dev.Sound.ite
    | with_reducible apply Dev.Sound.each
    | split

theorem Dev.judgeSlot_sound (d : Dev) (p : Nat) (own far : Option TraceFrame) (s : SlotCfg) (h_d : d.Sound) :
    Dev.Sound (Dev.judgeSlot d p own far s) := by
  unfold Dev.judgeSlot
  repeat' first
    | with_reducible assumption
    | (extract_lets +onlyGivenNames -underBinder y; first
        | (refine Dev.Sound.part (P := Dev.Sound (by apply y)) (fun _ => ?_) ?_ <;> [clear_value y; subst y])
        | clear_value y)
    | with_reducible apply Dev.flag_sound
    | with_reducible apply Dev.inc_sound
    | with_reducible apply Dev.publish_sound
    | with_reducible apply Dev.setRp_sound
    | with_reducible apply Dev.wb_sound
    | with_reducible apply Dev.Sound.w
    | with_reducible apply Dev.Sound.ite
    | split

theorem Dev.judgeRing_sound (d : Dev) (p : Nat) (ready : Option Nat) (h_d : d.Sound) : Dev.Sound (Dev.judgeRing d p ready) := by
  unfold Dev.judgeRing
  repeat' first
    | with_reducible assumption
    | refine fun _ => ?_
    | (extract_lets +onlyGivenNames -underBinder y; first
        | (refine Dev.Sound.part (P := Dev.Sound (by apply y)) (fun _ => ?_) ?_ <;> [clear_value y; subst y])
        | clear_value y)
    | with_reducible apply Dev.groupReady_sound
    | with_reducible apply Dev.judgeSlot_sound
    | with_reducible apply Dev.setRp_sound
    | with_reducible apply Dev.wmax_sound
    | with_reducible apply Dev.Sound.w
    | with_reducible apply Dev.Sound.each
    | split

theorem Dev.startClosure_sound (d : Dev) (p : Nat) (h_d : d.Sound) : Dev.Sound (Dev.startClosure d p) := by
  unfold Dev.startClosure
  repeat' first
    | with_reducible assumption
    | (extract_lets +onlyGivenNames -underBinder y; clear_value y)
    | with_reducible apply Dev.portClosed_sound
    | with_reducible apply Dev.setRp_sound
    | with_reducible apply Dev.Sound.ite

theorem Dev.judgeLine_sound (d : Dev) (p : Nat) (f : TraceFrame) (h_d : d.Sound) : Dev.Sound (Dev.judgeLine d p f) := by
  unfold Dev.judgeLine
  repeat' first
    | with_reducible assumption
    | (extract_lets +onlyGivenNames -underBinder y; first
        | (refine Dev.Sound.part (P := Dev.Sound (by apply y)) (fun _ => ?_) ?_ <;> [clear_value y; subst y])
        | clear_value y)
    | with_reducible apply Dev.inc_sound
    | with_reducible apply Dev.portBreak_sound
    | with_reducible apply Dev.setRp_sound
    | with_reducible apply Dev.startClosure_sound
    | with_reducible apply Dev.Sound.w
    | with_reducible apply Dev.Sound.ite

theorem Dev.frameReturn_sound (d : Dev) (p : Nat) (f : TraceFrame) (cIn readyNs : Nat) (h_d : d.Sound) :
    Dev.Sound (Dev.frameReturn d p f cIn readyNs) := by
  unfold Dev.frameReturn
  repeat' first
    | with_reducible assumption
    | (extract_lets +onlyGivenNames -underBinder y; first
        | (refine Dev.Sound.part (P := Dev.Sound (by apply y)) (fun _ => ?_) ?_ <;> [clear_value y; subst y])
        | clear_value y)
    | with_reducible apply Dev.acycReturn_sound
    | with_reducible apply Dev.flag_sound
    | with_reducible apply Dev.inc_sound
    | with_reducible apply Dev.judgeLine_sound
    | with_reducible apply Dev.judgeRing_sound
    | with_reducible apply Dev.reach_sound
    | with_reducible apply Dev.setRp_sound
    | with_reducible apply Dev.Sound.w
    | with_reducible apply Dev.Sound.ite
    | split

theorem execTraceFrameReturn_sound (p : Fin 4) (f : TraceFrame) (cIn readyNs : Nat) (s : State) (h_s : s.dev.Sound) :
    Outcome.Sound (execTraceFrameReturn p f cIn readyNs s) := by
  unfold execTraceFrameReturn
  repeat' first
    | with_reducible assumption
    | refine fun _ => ?_
    | with_reducible apply Dev.frameReturn_sound
    | with_reducible refine Outcome.Sound.ok h_s ?_

theorem Dev.ringDeadline_sound (d : Dev) (h_d : d.Sound) : Dev.Sound (Dev.ringDeadline d) := by
  unfold Dev.ringDeadline
  repeat' first
    | with_reducible assumption
    | refine fun _ => ?_
    | (extract_lets +onlyGivenNames -underBinder y; first
        | (refine Dev.Sound.part (P := Dev.Sound (by apply y)) (fun _ => ?_) ?_ <;> [clear_value y; subst y])
        | clear_value y)
    | with_reducible apply Dev.flag_sound
    | with_reducible apply Dev.inc_sound
    | with_reducible apply Dev.judgeRing_sound
    | with_reducible apply Dev.setRp_sound
    | with_reducible apply Dev.startClosure_sound
    | with_reducible apply Dev.Sound.ite
    | with_reducible apply Dev.Sound.each

theorem Dev.closureEnd_sound (d : Dev) (p : Nat) (h_d : d.Sound) : Dev.Sound (Dev.closureEnd d p) := by
  unfold Dev.closureEnd
  repeat' first
    | with_reducible assumption
    | (extract_lets +onlyGivenNames -underBinder y; clear_value y)
    | with_reducible apply Dev.portClosed_sound
    | with_reducible apply Dev.setRp_sound
    | with_reducible apply Dev.Sound.ite

theorem execClosureEnd_sound (p : Fin 4) (s : State) (h_s : s.dev.Sound) : Outcome.Sound (execClosureEnd p s) := by
  unfold execClosureEnd
  repeat' first
    | with_reducible assumption
    | refine fun _ => ?_
    | with_reducible apply Dev.closureEnd_sound
    | with_reducible refine Outcome.Sound.ok h_s ?_

theorem Dev.partnerTurn_sound (d : Dev) (p : Nat) (f : TraceFrame) (cOut : Nat) (h_d : d.Sound) :
    Dev.Sound (Dev.partnerTurn d p f cOut) := by
  unfold Dev.partnerTurn
  repeat' first
    | with_reducible assumption
    | (extract_lets +onlyGivenNames -underBinder y; first
        | (refine Dev.Sound.part (P := Dev.Sound (by apply y)) (fun _ => ?_) ?_ <;> [clear_value y; subst y])
        | clear_value y)
    | with_reducible apply Dev.reach_sound
    | with_reducible apply Dev.setRp_sound
    | with_reducible apply Dev.Sound.ite

theorem execPartnerFrameTurn_sound (p : Fin 4) (f : TraceFrame) (cOut : Nat) (s : State) (h_s : s.dev.Sound) :
    Outcome.Sound (execPartnerFrameTurn p f cOut s) := by
  unfold execPartnerFrameTurn
  repeat' first
    | with_reducible assumption
    | refine fun _ => ?_
    | with_reducible apply Dev.partnerTurn_sound
    | with_reducible refine Outcome.Sound.ok h_s ?_

theorem Dev.tackRecord_sound (d : Dev) (p : Nat) (r : TackRec) (h_d : d.Sound) : Dev.Sound (Dev.tackRecord d p r) := by
  unfold Dev.tackRecord
  repeat' first
    | with_reducible assumption
    | (extract_lets +onlyGivenNames -underBinder y; first
        | (refine Dev.Sound.part (P := Dev.Sound (by apply y)) (fun _ => ?_) ?_ <;> [clear_value y; subst y])
        | clear_value y)
    | with_reducible apply Dev.judgeRing_sound
    | with_reducible apply Dev.setRp_sound
    | with_reducible apply Dev.Sound.ite
    | split

theorem execTackClosureRecord_sound (p : Fin 4) (r : TackRec) (s : State) (h_s : s.dev.Sound) :
    Outcome.Sound (execTackClosureRecord p r s) := by
  unfold execTackClosureRecord
  repeat' first
    | with_reducible assumption
    | refine fun _ => ?_
    | with_reducible apply Dev.tackRecord_sound
    | with_reducible refine Outcome.Sound.ok h_s ?_

theorem Dev.phaseJobs_sound (d : Dev) (p k : Nat) (h_d : d.Sound) : Dev.Sound (Dev.phaseJobs d p k) := by
  unfold Dev.phaseJobs
  repeat' first
    | with_reducible assumption
    | refine fun _ => ?_
    | (extract_lets +onlyGivenNames -underBinder y; first
        | (refine Dev.Sound.part (P := Dev.Sound (by apply y)) (fun _ => ?_) ?_ <;> [clear_value y; subst y])
        | clear_value y)
    | with_reducible apply Dev.pushAcyc_sound
    | with_reducible apply Dev.setRp_sound
    | with_reducible apply Dev.Sound.each
    | split

theorem Dev.beginPhase_sound (d : Dev) (p k : Nat) (h_d : d.Sound) : Dev.Sound (Dev.beginPhase d p k) := by
  unfold Dev.beginPhase
  repeat' first
    | with_reducible assumption
    | with_reducible apply Dev.phaseJobs_sound
    | with_reducible apply Dev.setRp_sound

theorem Dev.failStart_sound (d : Dev) (p code : Nat) (h_d : d.Sound) : Dev.Sound (Dev.failStart d p code) := by
  unfold Dev.failStart
  repeat' first
    | with_reducible assumption
    | (extract_lets +onlyGivenNames -underBinder y; first
        | (refine Dev.Sound.part (P := Dev.Sound (by apply y)) (fun _ => ?_) ?_ <;> [clear_value y; subst y])
        | clear_value y)
    | with_reducible apply Dev.setRp_sound
    | with_reducible apply Dev.settle_sound
    | with_reducible apply Dev.Sound.w

theorem Dev.writeDelays_sound (d : Dev) (p : Nat) (meas : List (Int × Int)) (h_d : d.Sound) :
    Dev.Sound (Dev.writeDelays d p meas) := by
  unfold Dev.writeDelays
  repeat' first
    | with_reducible assumption
    | refine fun _ => ?_
    | (extract_lets +onlyGivenNames -underBinder y; first
        | (refine Dev.Sound.part (P := ∀ z, y z = y z) (fun _ => ?_) (fun _ => rfl); subst y; beta_reduce)
        | clear_value y)
    | with_reducible apply Dev.pushAcyc_sound
    | with_reducible apply Dev.Sound.each

theorem Dev.startPhase_sound (d : Dev) (p : Nat) (timeUp : Bool) (meas : List (Int × Int)) (h_d : d.Sound) :
    Dev.Sound (Dev.startPhase d p timeUp meas) := by
  unfold Dev.startPhase
  repeat' first
    | with_reducible assumption
    | (extract_lets +onlyGivenNames -underBinder y; first
        | (refine Dev.Sound.part (P := Dev.Sound (by apply y)) (fun _ => ?_) ?_ <;> [clear_value y; subst y])
        | clear_value y)
    | with_reducible apply Dev.beginPhase_sound
    | with_reducible apply Dev.failStart_sound
    | with_reducible apply Dev.phaseJobs_sound
    | with_reducible apply Dev.reach_sound
    | with_reducible apply Dev.setRp_sound
    | with_reducible apply Dev.settle_sound
    | with_reducible apply Dev.writeDelays_sound
    | with_reducible apply Dev.Sound.w
    | with_reducible apply Dev.Sound.ite
    | split

theorem execCrdStartPhase_sound (p : Fin 4) (timeUp : Bool) (meas : List (Int × Int)) (s : State) (h_s : s.dev.Sound) :
    Outcome.Sound (execCrdStartPhase p timeUp meas s) := by
  unfold execCrdStartPhase
  repeat' first
    | with_reducible assumption
    | refine fun _ => ?_
    | with_reducible apply Dev.startPhase_sound
    | with_reducible refine Outcome.Sound.ok h_s ?_

theorem execCrdInfo_sound (p : Packet) (s : State) (h_s : s.dev.Sound) : Outcome.Sound (execCrdInfo p s) := by
  unfold execCrdInfo
  repeat' first
    | with_reducible assumption
    | refine fun _ => ?_
    | with_reducible apply Dev.runPacket_sound
    | with_reducible refine Outcome.Sound.ok h_s ?_

theorem Dev.startPort_sound (d : Dev) (p : Nat) (h_d : d.Sound) : Dev.Sound (Dev.startPort d p) := by
  unfold Dev.startPort
  repeat' first
    | with_reducible assumption
    | with_reducible apply Dev.beginPhase_sound
    | with_reducible apply Dev.Sound.w

theorem execCrdStart_sound (p : Packet) (s : State) (h_s : s.dev.Sound) : Outcome.Sound (execCrdStart p s) := by
  unfold execCrdStart
  repeat' first
    | with_reducible assumption
    | refine fun _ => ?_
    | (extract_lets +onlyGivenNames -underBinder y; clear_value y)
    | with_reducible apply Dev.runPacketW_sound
    | with_reducible apply Dev.startPort_sound
    | with_reducible apply Dev.wait_sound
    | with_reducible refine Outcome.Sound.ok h_s ?_
    | with_reducible apply Dev.Sound.ite_fst

theorem execCrdStop_sound (p : Packet) (s : State) (h_s : s.dev.Sound) : Outcome.Sound (execCrdStop p s) := by
  unfold execCrdStop
  repeat' first
    | with_reducible assumption
    | refine fun _ => ?_
    | (extract_lets +onlyGivenNames -underBinder y; first
        | (refine Dev.Sound.part (P := Dev.Sound (by apply y)) (fun _ => ?_) ?_ <;> [clear_value y; subst y])
        | clear_value y)
    | with_reducible apply Dev.pushAcyc_sound
    | with_reducible apply Dev.runPacketW_sound
    | with_reducible apply Dev.setRp_sound
    | with_reducible apply Dev.wait_sound
    | with_reducible refine Outcome.Sound.ok h_s ?_
    | with_reducible apply Dev.Sound.ite_fst

theorem execCrdPortRead_sound (p : Packet) (s : State) (h_s : s.dev.Sound) : Outcome.Sound (execCrdPortRead p s) := by
  unfold execCrdPortRead
  repeat' first
    | with_reducible assumption
    | refine fun _ => ?_
    | with_reducible apply Dev.runPacket_sound
    | with_reducible refine Outcome.Sound.ok h_s ?_

theorem execCrdSlotRead_sound (p : Packet) (s : State) (h_s : s.dev.Sound) : Outcome.Sound (execCrdSlotRead p s) := by
  unfold execCrdSlotRead
  repeat' first
    | with_reducible assumption
    | refine fun _ => ?_
    | (extract_lets +onlyGivenNames -underBinder y; clear_value y)
    | with_reducible apply Dev.runPacket_sound
    | with_reducible refine Outcome.Sound.ok h_s ?_
    | with_reducible apply Dev.Sound.ite_fst

theorem Dev.nodeRequest_sound (d : Dev) (spec : CmdSpec) (p : Packet) (port target op addr d0 d1 : Nat) (h_d : d.Sound) :
    Dev.Sound (Dev.nodeRequest d spec p port target op addr d0 d1).1 := by
  unfold Dev.nodeRequest
  repeat' first
    | with_reducible assumption
    | (extract_lets +onlyGivenNames -underBinder y;
       refine Dev.Sound.part (P := Dev.Sound (by apply y)) (fun _ => ?_) ?_ <;> [clear_value y; subst y])
    | with_reducible apply Dev.pushAcyc_sound
    | with_reducible apply Dev.wait_sound
    | with_reducible apply Dev.Sound.ite_fst

theorem execCrdNodeRead_sound (p : Packet) (s : State) (h_s : s.dev.Sound) : Outcome.Sound (execCrdNodeRead p s) := by
  unfold execCrdNodeRead
  repeat' first
    | with_reducible assumption
    | refine fun _ => ?_
    | (extract_lets +onlyGivenNames -underBinder y; clear_value y)
    | with_reducible apply Dev.nodeRequest_sound
    | with_reducible apply Dev.runPacketW_sound
    | with_reducible refine Outcome.Sound.ok h_s ?_
    | with_reducible apply Dev.Sound.ite_fst

theorem execCrdNodeWrite_sound (p : Packet) (s : State) (h_s : s.dev.Sound) : Outcome.Sound (execCrdNodeWrite p s) := by
  unfold execCrdNodeWrite
  repeat' first
    | with_reducible assumption
    | refine fun _ => ?_
    | (extract_lets +onlyGivenNames -underBinder y; clear_value y)
    | with_reducible apply Dev.nodeRequest_sound
    | with_reducible apply Dev.runPacketW_sound
    | with_reducible refine Outcome.Sound.ok h_s ?_
    | with_reducible apply Dev.Sound.ite_fst

theorem execCrdNodeState_sound (p : Packet) (s : State) (h_s : s.dev.Sound) : Outcome.Sound (execCrdNodeState p s) := by
  unfold execCrdNodeState
  repeat' first
    | with_reducible assumption
    | refine fun _ => ?_
    | (extract_lets +onlyGivenNames -underBinder y; clear_value y)
    | with_reducible apply Dev.nodeRequest_sound
    | with_reducible apply Dev.runPacketW_sound
    | with_reducible refine Outcome.Sound.ok h_s ?_
    | with_reducible apply Dev.Sound.ite_fst

/-! ### Machine/RingNode.lean -/

theorem Dev.setNode_sound (d : Dev) (ring pos : Nat) (x : NodeX) (h_d : d.Sound) : Dev.Sound (Dev.setNode d ring pos x) := by
  unfold Dev.setNode
  repeat' first
    | with_reducible assumption
    | (extract_lets +onlyGivenNames -underBinder y; clear_value y)
    | fail_if_no_progress (with_reducible refine Dev.Sound.upd rfl ?_)

theorem Dev.onNode_sound (d : Dev) (ring : Fin 4) (pos : Fin 126) (f : NodeX → NodeX) (h_d : d.Sound) :
    Dev.Sound (Dev.onNode d ring pos f) := by
  unfold Dev.onNode
  repeat' first
    | with_reducible assumption
    | with_reducible apply Dev.setNode_sound

theorem execNodeFrameReceive_sound (ring : Fin 4) (pos : Fin 126) (fromU ours : Bool) (a : Nat) (f : TraceFrame)
    (sample : List (Nat × Nat)) (s : State) (h_s : s.dev.Sound) :
    Outcome.Sound (execNodeFrameReceive ring pos fromU ours a f sample s) := by
  unfold execNodeFrameReceive
  repeat' first
    | with_reducible assumption
    | refine fun _ => ?_
    | with_reducible apply Dev.onNode_sound
    | with_reducible refine Outcome.Sound.ok h_s ?_

theorem execNodeApply_sound (ring : Fin 4) (pos : Fin 126) (s : State) (h_s : s.dev.Sound) :
    Outcome.Sound (execNodeApply ring pos s) := by
  unfold execNodeApply
  repeat' first
    | with_reducible assumption
    | refine fun _ => ?_
    | with_reducible apply Dev.onNode_sound
    | with_reducible refine Outcome.Sound.ok h_s ?_

theorem execNodeTimedSwitch_sound (ring : Fin 4) (pos : Fin 126) (s : State) (h_s : s.dev.Sound) :
    Outcome.Sound (execNodeTimedSwitch ring pos s) := by
  unfold execNodeTimedSwitch
  repeat' first
    | with_reducible assumption
    | refine fun _ => ?_
    | with_reducible apply Dev.onNode_sound
    | with_reducible refine Outcome.Sound.ok h_s ?_

theorem execNodeHoldExpire_sound (ring : Fin 4) (pos : Fin 126) (s : State) (h_s : s.dev.Sound) :
    Outcome.Sound (execNodeHoldExpire ring pos s) := by
  unfold execNodeHoldExpire
  repeat' first
    | with_reducible assumption
    | refine fun _ => ?_
    | with_reducible apply Dev.onNode_sound
    | with_reducible refine Outcome.Sound.ok h_s ?_

theorem execNodeLinkDown_sound (ring : Fin 4) (pos : Fin 126) (upstream : Bool) (s : State) (h_s : s.dev.Sound) :
    Outcome.Sound (execNodeLinkDown ring pos upstream s) := by
  unfold execNodeLinkDown
  repeat' first
    | with_reducible assumption
    | refine fun _ => ?_
    | with_reducible apply Dev.onNode_sound
    | with_reducible refine Outcome.Sound.ok h_s ?_

theorem execNodeLinkUp_sound (ring : Fin 4) (pos : Fin 126) (upstream : Bool) (s : State) (h_s : s.dev.Sound) :
    Outcome.Sound (execNodeLinkUp ring pos upstream s) := by
  unfold execNodeLinkUp
  repeat' first
    | with_reducible assumption
    | refine fun _ => ?_
    | with_reducible apply Dev.onNode_sound
    | with_reducible refine Outcome.Sound.ok h_s ?_

theorem execNodeReset_sound (ring : Fin 4) (pos : Fin 126) (s : State) (h_s : s.dev.Sound) :
    Outcome.Sound (execNodeReset ring pos s) := by
  unfold execNodeReset
  repeat' first
    | with_reducible assumption
    | refine fun _ => ?_
    | with_reducible apply Dev.onNode_sound
    | with_reducible refine Outcome.Sound.ok h_s ?_

theorem execNodeWatchdogExpire_sound (ring : Fin 4) (pos : Fin 126) (s : State) (h_s : s.dev.Sound) :
    Outcome.Sound (execNodeWatchdogExpire ring pos s) := by
  unfold execNodeWatchdogExpire
  repeat' first
    | with_reducible assumption
    | refine fun _ => ?_
    | with_reducible apply Dev.onNode_sound
    | with_reducible refine Outcome.Sound.ok h_s ?_

theorem execNodeInternalFault_sound (ring : Fin 4) (pos : Fin 126) (persists : Bool) (s : State) (h_s : s.dev.Sound) :
    Outcome.Sound (execNodeInternalFault ring pos persists s) := by
  unfold execNodeInternalFault
  repeat' first
    | with_reducible assumption
    | refine fun _ => ?_
    | with_reducible apply Dev.onNode_sound
    | with_reducible refine Outcome.Sound.ok h_s ?_

theorem execAcycRead_sound (ring : Fin 4) (pos : Fin 126) (s : State) (h_s : s.dev.Sound) :
    Outcome.Sound (execAcycRead ring pos s) := by
  unfold execAcycRead
  repeat' first
    | with_reducible assumption
    | refine fun _ => ?_
    | with_reducible apply Dev.onNode_sound
    | with_reducible refine Outcome.Sound.ok h_s ?_

theorem execAcycWrite_sound (ring : Fin 4) (pos : Fin 126) (s : State) (h_s : s.dev.Sound) :
    Outcome.Sound (execAcycWrite ring pos s) := by
  unfold execAcycWrite
  repeat' first
    | with_reducible assumption
    | refine fun _ => ?_
    | with_reducible apply Dev.onNode_sound
    | with_reducible refine Outcome.Sound.ok h_s ?_

theorem execAcycAddress_sound (ring : Fin 4) (pos : Fin 126) (s : State) (h_s : s.dev.Sound) :
    Outcome.Sound (execAcycAddress ring pos s) := by
  unfold execAcycAddress
  repeat' first
    | with_reducible assumption
    | refine fun _ => ?_
    | with_reducible apply Dev.onNode_sound
    | with_reducible refine Outcome.Sound.ok h_s ?_

theorem execAcycState_sound (ring : Fin 4) (pos : Fin 126) (s : State) (h_s : s.dev.Sound) :
    Outcome.Sound (execAcycState ring pos s) := by
  unfold execAcycState
  repeat' first
    | with_reducible assumption
    | refine fun _ => ?_
    | with_reducible apply Dev.onNode_sound
    | with_reducible refine Outcome.Sound.ok h_s ?_

/-! ### Machine/Ostler.lean -/

theorem Dev.setDescState_sound (d : Dev) (i st : Nat) (h_d : d.Sound) : Dev.Sound (Dev.setDescState d i st) := by
  unfold Dev.setDescState
  repeat' first
    | with_reducible assumption
    | with_reducible apply Dev.Sound.putMw

theorem Dev.ostRecord_sound (d : Dev) (desc core kind info code : Nat) (h_d : d.Sound) :
    Dev.Sound (Dev.ostRecord d desc core kind info code) := by
  unfold Dev.ostRecord
  repeat' first
    | with_reducible assumption
    | (extract_lets +onlyGivenNames -underBinder y; first
        | (refine Dev.Sound.part (P := Dev.Sound (by apply y)) (fun _ => ?_) ?_ <;> [clear_value y; subst y])
        | skip)
    | with_reducible apply Dev.inc_sound
    | with_reducible apply Dev.incWrap_sound
    | with_reducible apply Dev.Sound.w
    | with_reducible apply Dev.Sound.ite
    | with_reducible apply Mem.wf_putWords
    | with_reducible apply Dev.Sound.mem
    | with_reducible refine Dev.Sound.updMem rfl ?_ ?_

theorem Dev.setCore_sound (d : Dev) (c : Nat) (x : HkCore) (h_d : d.Sound) : Dev.Sound (Dev.setCore d c x) := by
  unfold Dev.setCore
  repeat' first
    | with_reducible assumption
    | (extract_lets +onlyGivenNames -underBinder y; clear_value y)
    | fail_if_no_progress (with_reducible refine Dev.Sound.upd rfl ?_)

theorem Dev.dispatch_sound (d : Dev) (c i at' power : Nat) (h_d : d.Sound) : Dev.Sound (Dev.dispatch d c i at' power) := by
  unfold Dev.dispatch
  repeat' first
    | with_reducible assumption
    | (extract_lets +onlyGivenNames -underBinder y; first
        | (refine Dev.Sound.part (P := Dev.Sound (by apply y)) (fun _ => ?_) ?_ <;> [clear_value y; subst y])
        | clear_value y)
    | with_reducible apply Dev.inc_sound
    | with_reducible apply Dev.ostRecord_sound
    | with_reducible apply Dev.setCore_sound
    | with_reducible apply Dev.setDescState_sound
    | with_reducible apply Dev.Sound.w
    | with_reducible apply Dev.Sound.mem
    | with_reducible refine Dev.Sound.updMem rfl ?_ ?_

theorem Dev.cyclicDispatch_sound (d : Dev) (c at' : Nat) (h_d : d.Sound) : Dev.Sound (Dev.cyclicDispatch d c at') := by
  unfold Dev.cyclicDispatch
  repeat' first
    | with_reducible assumption
    | (extract_lets +onlyGivenNames -underBinder y; clear_value y)
    | with_reducible apply Dev.dispatch_sound
    | fail_if_no_progress (with_reducible refine Dev.Sound.upd rfl ?_)
    | with_reducible apply Dev.Sound.ite
    | split

theorem Dev.dropRelease_sound (d : Dev) (i why : Nat) (h_d : d.Sound) : Dev.Sound (Dev.dropRelease d i why) := by
  unfold Dev.dropRelease
  repeat' first
    | with_reducible assumption
    | with_reducible apply Dev.flag_sound
    | with_reducible apply Dev.inc_sound
    | with_reducible apply Dev.ostRecord_sound

theorem Dev.setEnd_sound (d : Dev) (i code last : Nat) (h_d : d.Sound) : Dev.Sound (Dev.setEnd d i code last) := by
  unfold Dev.setEnd
  repeat' first
    | with_reducible assumption
    | (extract_lets +onlyGivenNames -underBinder y; clear_value y)
    | with_reducible apply Dev.Sound.putMw

theorem Dev.countEnd_sound (d : Dev) (i code : Nat) (h_d : d.Sound) : Dev.Sound (Dev.countEnd d i code) := by
  unfold Dev.countEnd
  repeat' first
    | with_reducible assumption
    | refine fun _ => ?_
    | with_reducible apply Dev.inc_sound
    | with_reducible apply Dev.overrun_sound
    | with_reducible apply Dev.overrunPub_sound
    | with_reducible apply Dev.Sound.ite
    | with_reducible apply Dev.Sound.each

theorem Dev.completeStore_sound (d : Dev) (c : Nat) (s : BufStore) (h_d : d.Sound) : Dev.Sound (Dev.completeStore d c s) := by
  unfold Dev.completeStore
  repeat' first
    | with_reducible assumption
    | (extract_lets +onlyGivenNames -underBinder y; clear_value y)
    | with_reducible apply Dev.inc_sound
    | with_reducible apply Dev.setCore_sound
    | fail_if_no_progress (with_reducible refine Dev.Sound.upd rfl ?_)
    | with_reducible apply Dev.Sound.ite

theorem Dev.drainTo_sound (d : Dev) (c t : Nat) (h_d : d.Sound) : Dev.Sound (Dev.drainTo d c t) := by
  unfold Dev.drainTo
  repeat' first
    | with_reducible assumption
    | refine fun _ => ?_
    | (extract_lets +onlyGivenNames -underBinder y; first
        | (refine Dev.Sound.part (P := Dev.Sound (by apply y)) (fun _ => ?_) ?_ <;> [clear_value y; subst y])
        | clear_value y)
    | with_reducible apply Dev.completeStore_sound
    | with_reducible apply Dev.setCore_sound
    | with_reducible apply Dev.Sound.each

theorem Dev.drainAll_sound (d : Dev) (c : Nat) (h_d : d.Sound) : Dev.Sound (Dev.drainAll d c) := by
  unfold Dev.drainAll
  repeat' first
    | with_reducible assumption
    | refine fun _ => ?_
    | (extract_lets +onlyGivenNames -underBinder y; first
        | (refine Dev.Sound.part (P := Dev.Sound (by apply y)) (fun _ => ?_) ?_ <;> [clear_value y; subst y])
        | clear_value y)
    | with_reducible apply Dev.completeStore_sound
    | with_reducible apply Dev.setCore_sound
    | with_reducible apply Dev.Sound.each

theorem Dev.ostEnd_sound (d : Dev) (c code last : Nat) (h_d : d.Sound) : Dev.Sound (Dev.ostEnd d c code last) := by
  unfold Dev.ostEnd
  repeat' first
    | with_reducible assumption
    | refine fun _ => ?_
    | (extract_lets +onlyGivenNames -underBinder y; first
        | (refine Dev.Sound.part (P := Dev.Sound (by apply y)) (fun _ => ?_) ?_ <;> [clear_value y; subst y])
        | clear_value y)
    | with_reducible apply Dev.countEnd_sound
    | with_reducible apply Dev.cyclicDispatch_sound
    | with_reducible apply Dev.drainAll_sound
    | with_reducible apply Dev.ostRecord_sound
    | with_reducible apply Dev.publish_sound
    | with_reducible apply Dev.setCore_sound
    | with_reducible apply Dev.setEnd_sound
    | with_reducible apply Dev.wmax_sound
    | with_reducible apply Dev.Sound.w
    | fail_if_no_progress (with_reducible refine Dev.Sound.upd rfl ?_)
    | with_reducible apply Dev.Sound.ite
    | with_reducible apply Dev.Sound.each
    | split

theorem Dev.showGirth_sound (d : Dev) (h_d : d.Sound) : Dev.Sound (Dev.showGirth d) := by
  unfold Dev.showGirth
  repeat' first
    | with_reducible assumption
    | (extract_lets +onlyGivenNames -underBinder y;
       refine Dev.Sound.part (P := Dev.Sound (by apply y)) (fun _ => ?_) ?_ <;> [clear_value y; subst y])
    | with_reducible apply Dev.Sound.w

theorem Dev.showFloor_sound (d : Dev) (h_d : d.Sound) : Dev.Sound (Dev.showFloor d) := by
  unfold Dev.showFloor
  repeat' first
    | with_reducible assumption
    | with_reducible apply Dev.Sound.w

theorem Dev.budgetWrite_sound (d : Dev) (v : Nat) (h_d : d.Sound) : Dev.Sound (Dev.budgetWrite d v) := by
  unfold Dev.budgetWrite
  repeat' first
    | with_reducible assumption
    | (extract_lets +onlyGivenNames -underBinder y; clear_value y)
    | with_reducible apply Dev.flag_sound
    | with_reducible apply Dev.Sound.w
    | fail_if_no_progress (with_reducible refine Dev.Sound.upd rfl ?_)
    | with_reducible apply Dev.Sound.ite

theorem execGirthBudgetWrite_sound (path : Path) (v : Word) (s : State) (h_s : s.dev.Sound) :
    Outcome.Sound (execGirthBudgetWrite path v s) := by
  unfold execGirthBudgetWrite
  repeat' first
    | with_reducible assumption
    | refine fun _ => ?_
    | with_reducible apply Dev.access_sound
    | with_reducible apply Dev.budgetWrite_sound
    | with_reducible refine Outcome.Sound.ok h_s ?_

theorem Dev.classWrite_sound (d : Dev) (k v : Nat) (h_d : d.Sound) : Dev.Sound (Dev.classWrite d k v) := by
  unfold Dev.classWrite
  repeat' first
    | with_reducible assumption
    | (extract_lets +onlyGivenNames -underBinder y;
       refine Dev.Sound.part (P := Dev.Sound (by apply y)) (fun _ => ?_) ?_ <;> [clear_value y; subst y])
    | with_reducible apply Dev.flag_sound
    | with_reducible apply Dev.showFloor_sound
    | with_reducible apply Dev.Sound.w
    | with_reducible apply Dev.Sound.ite

theorem Dev.derate_sound (d : Dev) (tj : Int) (h_d : d.Sound) : Dev.Sound (Dev.derate d tj) := by
  unfold Dev.derate
  repeat' first
    | with_reducible assumption
    | refine fun _ => ?_
    | (extract_lets +onlyGivenNames -underBinder y; first
        | (refine Dev.Sound.part (P := Dev.Sound (by apply y)) (fun _ => ?_) ?_ <;> [clear_value y; subst y])
        | clear_value y)
    | with_reducible apply Dev.flag_sound
    | with_reducible apply Dev.wb_sound
    | with_reducible apply Dev.withHealth_sound
    | with_reducible apply Dev.ws_sound
    | with_reducible apply Dev.Sound.w
    | with_reducible apply Dev.Sound.ite

theorem execGirthDerate_sound (tj : Int) (s : State) (h_s : s.dev.Sound) : Outcome.Sound (execGirthDerate tj s) := by
  unfold execGirthDerate
  repeat' first
    | with_reducible assumption
    | refine fun _ => ?_
    | with_reducible apply Dev.derate_sound
    | with_reducible apply Dev.pins_sound
    | with_reducible refine Outcome.Sound.ok h_s ?_

theorem Dev.laneGrant_sound (d : Dev) (g : Grade) (h_d : d.Sound) : Dev.Sound (Dev.laneGrant d g) := by
  unfold Dev.laneGrant
  repeat' first
    | with_reducible assumption
    | (extract_lets +onlyGivenNames -underBinder y; first
        | (refine Dev.Sound.part (P := ∀ z, y z = y z) (fun _ => ?_) (fun _ => rfl); subst y; beta_reduce)
        | (refine Dev.Sound.part (P := Dev.Sound (by apply y)) (fun _ => ?_) ?_ <;> [clear_value y; subst y])
        | clear_value y)
    | with_reducible apply Dev.flag_sound
    | with_reducible apply Dev.inc_sound
    | with_reducible apply Dev.ostRecord_sound
    | with_reducible apply Dev.Sound.w
    | fail_if_no_progress (with_reducible refine Dev.Sound.upd rfl ?_)
    | with_reducible apply Dev.Sound.ite

theorem Dev.makeReady_sound (d : Dev) (i : Nat) (h_d : d.Sound) : Dev.Sound (Dev.makeReady d i) := by
  unfold Dev.makeReady
  repeat' first
    | with_reducible assumption
    | (extract_lets +onlyGivenNames -underBinder y; first
        | (refine Dev.Sound.part (P := Dev.Sound (by apply y)) (fun _ => ?_) ?_ <;> [clear_value y; subst y])
        | clear_value y)
    | with_reducible apply Dev.dropRelease_sound
    | with_reducible apply Dev.ostRecord_sound
    | with_reducible apply Dev.setDescState_sound
    | fail_if_no_progress (with_reducible refine Dev.Sound.upd rfl ?_)
    | with_reducible apply Dev.Sound.ite

theorem Dev.cyclicRelease_sound (d : Dev) (h_d : d.Sound) : Dev.Sound (Dev.cyclicRelease d) := by
  unfold Dev.cyclicRelease
  repeat' first
    | with_reducible assumption
    | refine fun _ => ?_
    | (extract_lets +onlyGivenNames -underBinder y; first
        | (refine Dev.Sound.part (P := Dev.Sound (by apply y)) (fun _ => ?_) ?_ <;> [clear_value y; subst y])
        | clear_value y)
    | with_reducible apply Dev.cyclicDispatch_sound
    | with_reducible apply Dev.dropRelease_sound
    | with_reducible apply Dev.ostRecord_sound
    | with_reducible apply Dev.setDescState_sound
    | fail_if_no_progress (with_reducible refine Dev.Sound.upd rfl ?_)
    | with_reducible apply Dev.Sound.ite
    | with_reducible apply Dev.Sound.each

theorem Dev.admission_sound (d : Dev) (g : Grade) (t : Nat) (h_d : d.Sound) : Dev.Sound (Dev.admission d g t) := by
  unfold Dev.admission
  repeat' first
    | with_reducible assumption
    | refine fun _ => ?_
    | (extract_lets +onlyGivenNames -underBinder y; clear_value y)
    | with_reducible apply Dev.dispatch_sound
    | with_reducible apply Dev.flag_sound
    | with_reducible apply Dev.inc_sound
    | with_reducible apply Dev.laneGrant_sound
    | with_reducible apply Dev.ostRecord_sound
    | fail_if_no_progress (with_reducible refine Dev.Sound.upd rfl ?_)
    | with_reducible apply Dev.Sound.ite
    | with_reducible apply Dev.Sound.each

theorem Dev.showDelays_sound (d : Dev) (h_d : d.Sound) : Dev.Sound (Dev.showDelays d) := by
  unfold Dev.showDelays
  repeat' first
    | with_reducible assumption
    | with_reducible apply Dev.wmax_sound
    | with_reducible apply Dev.Sound.w

theorem Dev.unrelease_sound (d : Dev) (i : Nat) (h_d : d.Sound) : Dev.Sound (Dev.unrelease d i) := by
  unfold Dev.unrelease
  repeat' first
    | with_reducible assumption
    | (extract_lets +onlyGivenNames -underBinder y; first
        | (refine Dev.Sound.part (P := Dev.Sound (by apply y)) (fun _ => ?_) ?_ <;> [clear_value y; subst y])
        | clear_value y)
    | with_reducible apply Dev.setDescState_sound
    | with_reducible apply Dev.showDelays_sound
    | fail_if_no_progress (with_reducible refine Dev.Sound.upd rfl ?_)

theorem Dev.cmdRelease_sound (d : Dev) (t : Nat) (ps : List Nat) (h_d : d.Sound) : Dev.Sound (Dev.cmdRelease d t ps).1 := by
  unfold Dev.cmdRelease
  repeat' first
    | with_reducible assumption
    | (extract_lets +onlyGivenNames -underBinder y; first
        | (refine Dev.Sound.part (P := ∀ z, y z = y z) (fun _ => ?_) (fun _ => rfl); subst y; beta_reduce)
        | (refine Dev.Sound.part (P := Dev.Sound (by apply y)) (fun _ => ?_) ?_ <;> [clear_value y; subst y])
        | clear_value y)
    | with_reducible apply Dev.dropRelease_sound
    | with_reducible apply Dev.flag_sound
    | with_reducible apply Dev.makeReady_sound
    | with_reducible apply Dev.ostRecord_sound
    | with_reducible apply Dev.setDescState_sound
    | with_reducible apply Dev.showDelays_sound
    | fail_if_no_progress (with_reducible refine Dev.Sound.upd rfl ?_)
    | with_reducible apply Dev.Sound.ite_fst

theorem Dev.cmdCancel_sound (d : Dev) (i : Nat) (h_d : d.Sound) : Dev.Sound (Dev.cmdCancel d i).1 := by
  unfold Dev.cmdCancel
  repeat' first
    | with_reducible assumption
    | (extract_lets +onlyGivenNames -underBinder y; clear_value y)
    | with_reducible apply Dev.unrelease_sound
    | with_reducible apply Dev.Sound.ite_fst

theorem Dev.cmdAbort_sound (d : Dev) (i : Nat) (was : Bool) (h_d : d.Sound) : Dev.Sound (Dev.cmdAbort d i was).1 := by
  unfold Dev.cmdAbort
  repeat' first
    | with_reducible assumption
    | with_reducible apply Dev.ostEnd_sound
    | with_reducible apply Dev.Sound.ite_fst
    | split

theorem Dev.cmdEnable_sound (d : Dev) (first n on : Nat) (h_d : d.Sound) : Dev.Sound (Dev.cmdEnable d first n on).1 := by
  unfold Dev.cmdEnable
  repeat' first
    | with_reducible assumption
    | refine fun _ => ?_
    | (extract_lets +onlyGivenNames -underBinder y; first
        | (refine Dev.Sound.part (P := Dev.Sound (by apply y)) (fun _ => ?_) ?_ <;> [clear_value y; subst y])
        | clear_value y)
    | with_reducible apply Dev.showFloor_sound
    | with_reducible apply Dev.unrelease_sound
    | with_reducible apply Dev.Sound.putMw
    | fail_if_no_progress (with_reducible refine Dev.Sound.upd rfl ?_)
    | with_reducible apply Dev.Sound.ite
    | with_reducible apply Dev.Sound.ite_fst
    | with_reducible apply Dev.Sound.each
    | split

theorem Dev.ostCmd_sound (d : Dev) (t : Nat) (q : OstCmd) (h_d : d.Sound) : Dev.Sound (Dev.ostCmd d t q).1 := by
  unfold Dev.ostCmd
  repeat' first
    | with_reducible assumption
    | (extract_lets +onlyGivenNames -underBinder y; clear_value y)
    | with_reducible apply Dev.cmdAbort_sound
    | with_reducible apply Dev.cmdCancel_sound
    | with_reducible apply Dev.cmdEnable_sound
    | with_reducible apply Dev.cmdRelease_sound
    | split

theorem Dev.ostTick_sound (d : Dev) (g : Grade) (h_d : d.Sound) : Dev.Sound (Dev.ostTick d g) := by
  unfold Dev.ostTick
  repeat' first
    | with_reducible assumption
    | refine fun _ => ?_
    | (extract_lets +onlyGivenNames -underBinder y; first
        | (refine Dev.Sound.part (P := Dev.Sound (by apply y)) (fun _ => ?_) ?_ <;> [clear_value y; subst y])
        | clear_value y)
    | with_reducible apply Dev.admission_sound
    | with_reducible apply Dev.cyclicRelease_sound
    | with_reducible apply Dev.laneGrant_sound
    | with_reducible apply Dev.makeReady_sound
    | with_reducible apply Dev.ostCmd_sound
    | with_reducible apply Dev.reach_sound
    | with_reducible apply Dev.settle_sound
    | with_reducible apply Dev.showDelays_sound
    | with_reducible apply Dev.showGirth_sound
    | fail_if_no_progress (with_reducible refine Dev.Sound.upd rfl ?_)
    | with_reducible apply Dev.Sound.ite
    | with_reducible apply Dev.Sound.each

theorem execOstlerTick_sound (s : State) (h_s : s.dev.Sound) : Outcome.Sound (execOstlerTick s) := by
  unfold execOstlerTick
  repeat' first
    | with_reducible assumption
    | refine fun _ => ?_
    | with_reducible apply Dev.ostTick_sound
    | with_reducible refine Outcome.Sound.ok h_s ?_

theorem Dev.runLimit_sound (d : Dev) (c : Nat) (h_d : d.Sound) : Dev.Sound (Dev.runLimit d c) := by
  unfold Dev.runLimit
  repeat' first
    | with_reducible assumption
    | with_reducible apply Dev.ostEnd_sound
    | with_reducible apply Dev.reach_sound
    | split

theorem execRunLimitExpire_sound (core : Fin 16) (s : State) (h_s : s.dev.Sound) : Outcome.Sound (execRunLimitExpire core s) := by
  unfold execRunLimitExpire
  repeat' first
    | with_reducible assumption
    | refine fun _ => ?_
    | with_reducible apply Dev.runLimit_sound
    | with_reducible refine Outcome.Sound.ok h_s ?_

theorem Dev.ostDeadline_sound (d : Dev) (h_d : d.Sound) : Dev.Sound (Dev.ostDeadline d) := by
  unfold Dev.ostDeadline
  repeat' first
    | with_reducible assumption
    | refine fun _ => ?_
    | (extract_lets +onlyGivenNames -underBinder y; first
        | (refine Dev.Sound.part (P := Dev.Sound (by apply y)) (fun _ => ?_) ?_ <;> [clear_value y; subst y])
        | clear_value y)
    | with_reducible apply Dev.countEnd_sound
    | with_reducible apply Dev.ostEnd_sound
    | with_reducible apply Dev.ostRecord_sound
    | with_reducible apply Dev.setEnd_sound
    | fail_if_no_progress (with_reducible refine Dev.Sound.upd rfl ?_)
    | with_reducible apply Dev.Sound.each

theorem Dev.ostBoundary_sound (d : Dev) (h_d : d.Sound) : Dev.Sound (Dev.ostBoundary d) := by
  unfold Dev.ostBoundary
  repeat' first
    | with_reducible assumption
    | (extract_lets +onlyGivenNames -underBinder y; clear_value y)
    | with_reducible apply Dev.wb_sound
    | fail_if_no_progress (with_reducible refine Dev.Sound.upd rfl ?_)

theorem execOstInfo_sound (p : Packet) (s : State) (h_s : s.dev.Sound) : Outcome.Sound (execOstInfo p s) := by
  unfold execOstInfo
  repeat' first
    | with_reducible assumption
    | refine fun _ => ?_
    | with_reducible apply Dev.runPacket_sound
    | with_reducible refine Outcome.Sound.ok h_s ?_

theorem Dev.tickCommand_sound (d : Dev) (spec : CmdSpec) (p : Packet) (ps : List Nat) (was : Bool) (h_d : d.Sound) :
    Dev.Sound (Dev.tickCommand d spec p ps was).1 := by
  unfold Dev.tickCommand
  repeat' first
    | with_reducible assumption
    | (extract_lets +onlyGivenNames -underBinder y; first
        | (refine Dev.Sound.part (P := Dev.Sound (by apply y)) (fun _ => ?_) ?_ <;> [clear_value y; subst y])
        | clear_value y)
    | with_reducible apply Dev.ostCmd_sound
    | with_reducible apply Dev.wait_sound
    | fail_if_no_progress (with_reducible refine Dev.Sound.upd rfl ?_)
    | with_reducible apply Dev.Sound.ite_fst

theorem execOstRelease_sound (p : Packet) (s : State) (h_s : s.dev.Sound) : Outcome.Sound (execOstRelease p s) := by
  unfold execOstRelease
  repeat' first
    | with_reducible assumption
    | refine fun _ => ?_
    | (extract_lets +onlyGivenNames -underBinder y; clear_value y)
    | with_reducible apply Dev.runPacketW_sound
    | with_reducible apply Dev.tickCommand_sound
    | with_reducible refine Outcome.Sound.ok h_s ?_
    | with_reducible apply Dev.Sound.ite_fst

theorem execOstCancel_sound (p : Packet) (s : State) (h_s : s.dev.Sound) : Outcome.Sound (execOstCancel p s) := by
  unfold execOstCancel
  repeat' first
    | with_reducible assumption
    | refine fun _ => ?_
    | (extract_lets +onlyGivenNames -underBinder y; clear_value y)
    | with_reducible apply Dev.runPacketW_sound
    | with_reducible apply Dev.tickCommand_sound
    | with_reducible refine Outcome.Sound.ok h_s ?_
    | with_reducible apply Dev.Sound.ite_fst

theorem execOstAbort_sound (p : Packet) (s : State) (h_s : s.dev.Sound) : Outcome.Sound (execOstAbort p s) := by
  unfold execOstAbort
  repeat' first
    | with_reducible assumption
    | refine fun _ => ?_
    | (extract_lets +onlyGivenNames -underBinder y; clear_value y)
    | with_reducible apply Dev.runPacketW_sound
    | with_reducible apply Dev.tickCommand_sound
    | with_reducible refine Outcome.Sound.ok h_s ?_
    | with_reducible apply Dev.Sound.ite_fst

theorem execOstDescWrite_sound (p : Packet) (s : State) (h_s : s.dev.Sound) : Outcome.Sound (execOstDescWrite p s) := by
  unfold execOstDescWrite
  repeat' first
    | with_reducible assumption
    | refine fun _ => ?_
    | (extract_lets +onlyGivenNames -underBinder y; clear_value y)
    | with_reducible apply Dev.flag_sound
    | with_reducible apply Dev.runPacket_sound
    | with_reducible apply Dev.Sound.putMw
    | with_reducible refine Outcome.Sound.ok h_s ?_
    | with_reducible apply Dev.Sound.ite_fst
    | with_reducible apply Dev.Sound.each

theorem execOstDescRead_sound (p : Packet) (s : State) (h_s : s.dev.Sound) : Outcome.Sound (execOstDescRead p s) := by
  unfold execOstDescRead
  repeat' first
    | with_reducible assumption
    | refine fun _ => ?_
    | with_reducible apply Dev.runPacket_sound
    | with_reducible refine Outcome.Sound.ok h_s ?_
    | split

theorem execOstEnable_sound (p : Packet) (s : State) (h_s : s.dev.Sound) : Outcome.Sound (execOstEnable p s) := by
  unfold execOstEnable
  repeat' first
    | with_reducible assumption
    | refine fun _ => ?_
    | (extract_lets +onlyGivenNames -underBinder y; clear_value y)
    | with_reducible apply Dev.runPacketW_sound
    | with_reducible apply Dev.tickCommand_sound
    | with_reducible refine Outcome.Sound.ok h_s ?_
    | with_reducible apply Dev.Sound.ite_fst
    | split

theorem execOstTrcRead_sound (p : Packet) (s : State) (h_s : s.dev.Sound) : Outcome.Sound (execOstTrcRead p s) := by
  unfold execOstTrcRead
  repeat' first
    | with_reducible assumption
    | refine fun _ => ?_
    | with_reducible apply Dev.runPacket_sound
    | with_reducible refine Outcome.Sound.ok h_s ?_
    | split

theorem execGirthInfo_sound (p : Packet) (s : State) (h_s : s.dev.Sound) : Outcome.Sound (execGirthInfo p s) := by
  unfold execGirthInfo
  repeat' first
    | with_reducible assumption
    | refine fun _ => ?_
    | with_reducible apply Dev.runPacket_sound
    | with_reducible refine Outcome.Sound.ok h_s ?_

theorem execGirthSetBudget_sound (p : Packet) (s : State) (h_s : s.dev.Sound) : Outcome.Sound (execGirthSetBudget p s) := by
  unfold execGirthSetBudget
  repeat' first
    | with_reducible assumption
    | refine fun _ => ?_
    | (extract_lets +onlyGivenNames -underBinder y; clear_value y)
    | with_reducible apply Dev.budgetWrite_sound
    | with_reducible apply Dev.flag_sound
    | with_reducible apply Dev.runPacket_sound
    | with_reducible refine Outcome.Sound.ok h_s ?_
    | with_reducible apply Dev.Sound.ite_fst

/-! ### Machine/Paddock.lean -/

theorem Dev.showPstop_sound (d : Dev) (g : Grade) (h_d : d.Sound) : Dev.Sound (Dev.showPstop d g) := by
  unfold Dev.showPstop
  repeat' first
    | with_reducible assumption
    | with_reducible apply Dev.Sound.w

theorem Dev.armStop_sound (d : Dev) (a cause : Nat) (h_d : d.Sound) : Dev.Sound (Dev.armStop d a cause) := by
  unfold Dev.armStop
  repeat' first
    | with_reducible assumption
    | (extract_lets +onlyGivenNames -underBinder y; first
        | (refine Dev.Sound.part (P := Dev.Sound (by apply y)) (fun _ => ?_) ?_ <;> [clear_value y; subst y])
        | clear_value y)
    | with_reducible apply Dev.Sound.w
    | fail_if_no_progress (with_reducible refine Dev.Sound.upd rfl ?_)

theorem Dev.handCaps_sound (d : Dev) (g : Grade) (h_d : d.Sound) : Dev.Sound (Dev.handCaps d g) := by
  unfold Dev.handCaps
  repeat' first
    | with_reducible assumption
    | (extract_lets +onlyGivenNames -underBinder y; clear_value y)
    | fail_if_no_progress (with_reducible refine Dev.Sound.upd rfl ?_)

theorem Dev.stopAll_sound (d : Dev) (g : Grade) (cause : Nat) (h_d : d.Sound) : Dev.Sound (Dev.stopAll d g cause) := by
  unfold Dev.stopAll
  repeat' first
    | with_reducible assumption
    | refine fun _ => ?_
    | (extract_lets +onlyGivenNames -underBinder y;
       refine Dev.Sound.part (P := Dev.Sound (by apply y)) (fun _ => ?_) ?_ <;> [clear_value y; subst y])
    | with_reducible apply Dev.armStop_sound
    | with_reducible apply Dev.handCaps_sound
    | with_reducible apply Dev.showPstop_sound
    | with_reducible apply Dev.Sound.w
    | with_reducible apply Dev.Sound.each

theorem Dev.pdkSelftest_sound (d : Dev) (g : Grade) (h_d : d.Sound) : Dev.Sound (Dev.pdkSelftest d g) := by
  unfold Dev.pdkSelftest
  repeat' first
    | with_reducible assumption
    | (extract_lets +onlyGivenNames -underBinder y; first
        | (refine Dev.Sound.part (P := Dev.Sound (by apply y)) (fun _ => ?_) ?_ <;> [clear_value y; subst y])
        | clear_value y)
    | with_reducible apply Dev.stopAll_sound
    | with_reducible apply Dev.Sound.w
    | fail_if_no_progress (with_reducible refine Dev.Sound.upd rfl ?_)

theorem Dev.codedFault_sound (d : Dev) (g : Grade) (h_d : d.Sound) : Dev.Sound (Dev.codedFault d g) := by
  unfold Dev.codedFault
  repeat' first
    | with_reducible assumption
    | (extract_lets +onlyGivenNames -underBinder y;
       refine Dev.Sound.part (P := Dev.Sound (by apply y)) (fun _ => ?_) ?_ <;> [clear_value y; subst y])
    | with_reducible apply Dev.flag_sound
    | with_reducible apply Dev.inc_sound
    | with_reducible apply Dev.stopAll_sound
    | with_reducible apply Dev.Sound.w

theorem Dev.pdkCommit_sound (d : Dev) (h_d : d.Sound) : Dev.Sound (Dev.pdkCommit d) := by
  unfold Dev.pdkCommit
  repeat' first
    | with_reducible assumption
    | (extract_lets +onlyGivenNames -underBinder y; clear_value y)
    | fail_if_no_progress (with_reducible refine Dev.Sound.upd rfl ?_)
    | split

theorem Dev.pdkStart_sound (d : Dev) (h_d : d.Sound) : Dev.Sound (Dev.pdkStart d) := by
  unfold Dev.pdkStart
  repeat' first
    | with_reducible assumption
    | refine fun _ => ?_
    | (extract_lets +onlyGivenNames -underBinder y; first
        | (refine Dev.Sound.part (P := Dev.Sound (by apply y)) (fun _ => ?_) ?_ <;> [clear_value y; subst y])
        | clear_value y)
    | with_reducible apply Dev.reach_sound
    | with_reducible apply Dev.wb_sound
    | with_reducible apply Dev.Sound.w
    | fail_if_no_progress (with_reducible refine Dev.Sound.upd rfl ?_)
    | with_reducible apply Dev.Sound.ite
    | with_reducible apply Dev.Sound.each
    | split

theorem execPdkCycleStart_sound (s : State) (h_s : s.dev.Sound) : Outcome.Sound (execPdkCycleStart s) := by
  unfold execPdkCycleStart
  repeat' first
    | with_reducible assumption
    | refine fun _ => ?_
    | with_reducible apply Dev.pdkStart_sound
    | with_reducible refine Outcome.Sound.ok h_s ?_

theorem Dev.showStale_sound (d : Dev) (h_d : d.Sound) : Dev.Sound (Dev.showStale d) := by
  unfold Dev.showStale
  repeat' first
    | with_reducible assumption
    | refine fun _ => ?_
    | (extract_lets +onlyGivenNames -underBinder y; first
        | (refine Dev.Sound.part (P := Dev.Sound (by apply y)) (fun _ => ?_) ?_ <;> [clear_value y; subst y])
        | clear_value y)
    | with_reducible apply Dev.wb_sound
    | with_reducible apply Dev.Sound.each

theorem Dev.sensorStale_sound (d : Dev) (g : Grade) (s : Nat) (h_d : d.Sound) : Dev.Sound (Dev.sensorStale d g s) := by
  unfold Dev.sensorStale
  repeat' first
    | with_reducible assumption
    | refine fun _ => ?_
    | (extract_lets +onlyGivenNames -underBinder y;
       refine Dev.Sound.part (P := Dev.Sound (by apply y)) (fun _ => ?_) ?_ <;> [clear_value y; subst y])
    | with_reducible apply Dev.armStop_sound
    | with_reducible apply Dev.handCaps_sound
    | with_reducible apply Dev.showPstop_sound
    | with_reducible apply Dev.showStale_sound
    | with_reducible apply Dev.Sound.ite
    | with_reducible apply Dev.Sound.each

theorem execSensorStale_sound (sensor : Fin 16) (s : State) (h_s : s.dev.Sound) : Outcome.Sound (execSensorStale sensor s) := by
  unfold execSensorStale
  repeat' first
    | with_reducible assumption
    | refine fun _ => ?_
    | with_reducible apply Dev.sensorStale_sound
    | with_reducible refine Outcome.Sound.ok h_s ?_

theorem Dev.pdkTake_sound (d : Dev) (g : Grade) (h_d : d.Sound) : Dev.Sound (Dev.pdkTake d g) := by
  unfold Dev.pdkTake
  repeat' first
    | with_reducible assumption
    | refine fun _ => ?_
    | (extract_lets +onlyGivenNames -underBinder y; first
        | (refine Dev.Sound.part (P := Dev.Sound (by apply y)) (fun _ => ?_) ?_ <;> [clear_value y; subst y])
        | clear_value y)
    | fail_if_no_progress (with_reducible refine Dev.Sound.upd rfl ?_)
    | with_reducible apply Dev.Sound.ite
    | with_reducible apply Dev.Sound.each
    | split

theorem Dev.pdkEpochEnd_sound (d : Dev) (g : Grade) (h_d : d.Sound) : Dev.Sound (Dev.pdkEpochEnd d g) := by
  unfold Dev.pdkEpochEnd
  repeat' first
    | with_reducible assumption
    | (extract_lets +onlyGivenNames -underBinder y; first
        | (refine Dev.Sound.part (P := Dev.Sound (by apply y)) (fun _ => ?_) ?_ <;> [clear_value y; subst y])
        | clear_value y)
    | with_reducible apply Dev.flag_sound
    | with_reducible apply Dev.pdkTake_sound
    | fail_if_no_progress (with_reducible refine Dev.Sound.upd rfl ?_)
    | with_reducible apply Dev.Sound.ite

theorem Dev.pstopRelease_sound (d : Dev) (a : Nat) (h_d : d.Sound) : Dev.Sound (Dev.pstopRelease d a) := by
  unfold Dev.pstopRelease
  repeat' first
    | with_reducible assumption
    | (extract_lets +onlyGivenNames -underBinder y; first
        | (refine Dev.Sound.part (P := Dev.Sound (by apply y)) (fun _ => ?_) ?_ <;> [clear_value y; subst y])
        | clear_value y)
    | with_reducible apply Dev.Sound.w
    | fail_if_no_progress (with_reducible refine Dev.Sound.upd rfl ?_)

theorem Dev.armResult_sound (d : Dev) (n : Nat) (f : ArmFind) (h_d : d.Sound) : Dev.Sound (Dev.armResult d n f) := by
  unfold Dev.armResult
  repeat' first
    | with_reducible assumption
    | (extract_lets +onlyGivenNames -underBinder y; clear_value y)
    | with_reducible apply Dev.armStop_sound
    | with_reducible apply Dev.pstopRelease_sound
    | with_reducible apply Dev.wb_sound
    | with_reducible apply Dev.ws_sound
    | with_reducible apply Dev.Sound.w
    | fail_if_no_progress (with_reducible refine Dev.Sound.upd rfl ?_)
    | with_reducible apply Dev.Sound.ite

theorem Dev.pdkPublish_sound (d : Dev) (h_d : d.Sound) : Dev.Sound (Dev.pdkPublish d) := by
  unfold Dev.pdkPublish
  repeat' first
    | with_reducible assumption
    | with_reducible apply Dev.publish_sound

theorem Dev.pdkCompute_sound (d : Dev) (g : Grade) (n : Nat) (h_d : d.Sound) : Dev.Sound (Dev.pdkCompute d g n) := by
  unfold Dev.pdkCompute
  repeat' first
    | with_reducible assumption
    | refine fun _ => ?_
    | (extract_lets +onlyGivenNames -underBinder y; first
        | (refine Dev.Sound.part (P := ∀ z, y z = y z) (fun _ => ?_) (fun _ => rfl); subst y; beta_reduce)
        | (refine Dev.Sound.part (P := Dev.Sound (by apply y)) (fun _ => ?_) ?_ <;> [clear_value y; subst y])
        | clear_value y)
    | with_reducible apply Dev.armResult_sound
    | with_reducible apply Dev.flagIf_sound
    | with_reducible apply Dev.showStale_sound
    | with_reducible apply Dev.wmax_sound
    | with_reducible apply Dev.Sound.w
    | with_reducible apply Dev.Sound.each
    | split
    | with_reducible apply Mem.wf_putWords
    | with_reducible apply Dev.Sound.mem
    | with_reducible refine Dev.Sound.updMem rfl ?_ ?_

theorem Dev.pdkDone_sound (d : Dev) (g : Grade) (ns : Nat) (fault : Bool) (h_d : d.Sound) :
    Dev.Sound (Dev.pdkDone d g ns fault) := by
  unfold Dev.pdkDone
  dsimp only
  repeat' first
    | with_reducible assumption
    | with_reducible apply Dev.codedFault_sound
    | with_reducible apply Dev.handCaps_sound
    | with_reducible apply Dev.pdkCompute_sound
    | with_reducible apply Dev.pdkPublish_sound
    | with_reducible apply Dev.pdkTake_sound
    | with_reducible apply Dev.reach_sound
    | with_reducible apply Dev.showPstop_sound
    | with_reducible apply Dev.wmax_sound
    | with_reducible apply Dev.Sound.w
    | fail_if_no_progress (with_reducible refine Dev.Sound.upd rfl ?_)
    | with_reducible apply Dev.Sound.ite
    | split

theorem execPdkComputationDone_sound (ns : Nat) (fault : Bool) (s : State) (h_s : s.dev.Sound) :
    Outcome.Sound (execPdkComputationDone ns fault s) := by
  unfold execPdkComputationDone
  repeat' first
    | with_reducible assumption
    | refine fun _ => ?_
    | with_reducible apply Dev.pdkDone_sound
    | with_reducible apply Dev.pins_sound
    | with_reducible refine Outcome.Sound.ok h_s ?_

theorem Dev.pdkAuto_sound (d : Dev) (g : Grade) (a : Nat) (h_d : d.Sound) : Dev.Sound (Dev.pdkAuto d g a) := by
  unfold Dev.pdkAuto
  repeat' first
    | with_reducible assumption
    | (extract_lets +onlyGivenNames -underBinder y; clear_value y)
    | with_reducible apply Dev.handCaps_sound
    | with_reducible apply Dev.pstopRelease_sound
    | with_reducible apply Dev.showPstop_sound
    | with_reducible apply Dev.Sound.w
    | fail_if_no_progress (with_reducible refine Dev.Sound.upd rfl ?_)
    | with_reducible apply Dev.Sound.ite

theorem execPdkAutoRelease_sound (arm : Fin 16) (s : State) (h_s : s.dev.Sound) : Outcome.Sound (execPdkAutoRelease arm s) := by
  unfold execPdkAutoRelease
  repeat' first
    | with_reducible assumption
    | refine fun _ => ?_
    | with_reducible apply Dev.pdkAuto_sound
    | with_reducible refine Outcome.Sound.ok h_s ?_

theorem Dev.pdkSelftestEnd_sound (d : Dev) (h_d : d.Sound) : Dev.Sound (Dev.pdkSelftestEnd d) := by
  unfold Dev.pdkSelftestEnd
  repeat' first
    | with_reducible assumption
    | (extract_lets +onlyGivenNames -underBinder y; clear_value y)
    | with_reducible apply Dev.Sound.w
    | fail_if_no_progress (with_reducible refine Dev.Sound.upd rfl ?_)
    | with_reducible apply Dev.Sound.ite

theorem execPdkSelftestEnd_sound (s : State) (h_s : s.dev.Sound) : Outcome.Sound (execPdkSelftestEnd s) := by
  unfold execPdkSelftestEnd
  repeat' first
    | with_reducible assumption
    | refine fun _ => ?_
    | with_reducible apply Dev.pdkSelftestEnd_sound
    | with_reducible refine Outcome.Sound.ok h_s ?_

theorem execPdkInfo_sound (p : Packet) (s : State) (h_s : s.dev.Sound) : Outcome.Sound (execPdkInfo p s) := by
  unfold execPdkInfo
  repeat' first
    | with_reducible assumption
    | refine fun _ => ?_
    | with_reducible apply Dev.runPacket_sound
    | with_reducible refine Outcome.Sound.ok h_s ?_

theorem execPdkArmRead_sound (p : Packet) (s : State) (h_s : s.dev.Sound) : Outcome.Sound (execPdkArmRead p s) := by
  unfold execPdkArmRead
  repeat' first
    | with_reducible assumption
    | refine fun _ => ?_
    | (extract_lets +onlyGivenNames -underBinder y; clear_value y)
    | with_reducible apply Dev.runPacket_sound
    | with_reducible refine Outcome.Sound.ok h_s ?_
    | with_reducible apply Dev.Sound.ite_fst

theorem execPdkIntrRead_sound (p : Packet) (s : State) (h_s : s.dev.Sound) : Outcome.Sound (execPdkIntrRead p s) := by
  unfold execPdkIntrRead
  repeat' first
    | with_reducible assumption
    | refine fun _ => ?_
    | with_reducible apply Dev.runPacket_sound
    | with_reducible refine Outcome.Sound.ok h_s ?_
    | split

theorem execPdkPaddockRead_sound (p : Packet) (s : State) (h_s : s.dev.Sound) : Outcome.Sound (execPdkPaddockRead p s) := by
  unfold execPdkPaddockRead
  repeat' first
    | with_reducible assumption
    | refine fun _ => ?_
    | with_reducible apply Dev.runPacket_sound
    | with_reducible refine Outcome.Sound.ok h_s ?_
    | with_reducible apply Dev.Sound.ite_fst

theorem Dev.pdkRelease_sound (d : Dev) (g : Grade) (mask : Nat) (h_d : d.Sound) : Dev.Sound (Dev.pdkRelease d g mask).1 := by
  unfold Dev.pdkRelease
  repeat' first
    | with_reducible assumption
    | refine fun _ => ?_
    | (extract_lets +onlyGivenNames -underBinder y; first
        | (refine Dev.Sound.part (P := ∀ z, y z = y z) (fun _ => ?_) (fun _ => rfl); subst y; beta_reduce)
        | (refine Dev.Sound.part (P := Dev.Sound (by apply y)) (fun _ => ?_) ?_ <;> [clear_value y; subst y])
        | clear_value y)
    | with_reducible apply Dev.Sound.w
    | fail_if_no_progress (with_reducible refine Dev.Sound.upd rfl ?_)
    | with_reducible apply Dev.Sound.ite_fst
    | with_reducible apply Dev.Sound.each

theorem execPdkRelease_sound (p : Packet) (s : State) (h_s : s.dev.Sound) : Outcome.Sound (execPdkRelease p s) := by
  unfold execPdkRelease
  repeat' first
    | with_reducible assumption
    | refine fun _ => ?_
    | with_reducible apply Dev.pdkRelease_sound
    | with_reducible apply Dev.runPacket_sound
    | with_reducible refine Outcome.Sound.ok h_s ?_

theorem execPdkRestart_sound (p : Packet) (s : State) (h_s : s.dev.Sound) : Outcome.Sound (execPdkRestart p s) := by
  unfold execPdkRestart
  repeat' first
    | with_reducible assumption
    | refine fun _ => ?_
    | with_reducible apply Dev.pdkSelftest_sound
    | with_reducible apply Dev.runPacket_sound
    | with_reducible refine Outcome.Sound.ok h_s ?_
    | with_reducible apply Dev.Sound.ite_fst

/-! ### Machine/Tilbor.lean -/

theorem Dev.showTx_sound (d : Dev) (h_d : d.Sound) : Dev.Sound (Dev.showTx d) := by
  unfold Dev.showTx
  repeat' first
    | with_reducible assumption
    | with_reducible apply Dev.wb_sound

theorem Dev.tlbEnter_sound (d : Dev) (st : Nat) (h_d : d.Sound) : Dev.Sound (Dev.tlbEnter d st) := by
  unfold Dev.tlbEnter
  repeat' first
    | with_reducible assumption
    | with_reducible apply Dev.showTx_sound
    | with_reducible apply Dev.Sound.w

theorem Dev.cycleStart_sound (d : Dev) (h_d : d.Sound) : Dev.Sound (Dev.cycleStart d) := by
  unfold Dev.cycleStart
  repeat' first
    | with_reducible assumption
    | refine fun _ => ?_
    | (extract_lets +onlyGivenNames -underBinder y; first
        | (refine Dev.Sound.part (P := Dev.Sound (by apply y)) (fun _ => ?_) ?_ <;> [clear_value y; subst y])
        | clear_value y)
    | with_reducible apply Dev.add_sound
    | with_reducible apply Dev.reach_sound
    | with_reducible apply Dev.tlbEnter_sound
    | with_reducible apply Dev.Sound.w
    | fail_if_no_progress (with_reducible refine Dev.Sound.upd rfl ?_)
    | with_reducible apply Dev.Sound.ite
    | with_reducible apply Dev.Sound.each

theorem execTlbCycleStart_sound (s : State) (h_s : s.dev.Sound) : Outcome.Sound (execTlbCycleStart s) := by
  unfold execTlbCycleStart
  repeat' first
    | with_reducible assumption
    | refine fun _ => ?_
    | with_reducible apply Dev.cycleStart_sound
    | with_reducible refine Outcome.Sound.ok h_s ?_

theorem Dev.memberEntry_sound (d : Dev) (h_d : d.Sound) : Dev.Sound (Dev.memberEntry d) := by
  unfold Dev.memberEntry
  repeat' first
    | with_reducible assumption
    | with_reducible apply Dev.tlbEnter_sound
    | with_reducible apply Dev.Sound.ite

theorem execTlbMemberEntry_sound (s : State) (h_s : s.dev.Sound) : Outcome.Sound (execTlbMemberEntry s) := by
  unfold execTlbMemberEntry
  repeat' first
    | with_reducible assumption
    | refine fun _ => ?_
    | with_reducible apply Dev.memberEntry_sound
    | with_reducible refine Outcome.Sound.ok h_s ?_

theorem Dev.slotMute_sound (d : Dev) (h_d : d.Sound) : Dev.Sound (Dev.slotMute d) := by
  unfold Dev.slotMute
  repeat' first
    | with_reducible assumption
    | (extract_lets +onlyGivenNames -underBinder y; clear_value y)
    | with_reducible apply Dev.flag_sound
    | with_reducible apply Dev.inc_sound
    | with_reducible apply Dev.Sound.w
    | with_reducible apply Dev.Sound.ite

theorem Dev.slotFrames_sound (d : Dev) (s : Nat) (sl : TlbSlot) (h_d : d.Sound) : Dev.Sound (Dev.slotFrames d s sl) := by
  unfold Dev.slotFrames
  repeat' first
    | with_reducible assumption
    | (extract_lets +onlyGivenNames -underBinder y; first
        | (refine Dev.Sound.part (P := ∀ z, y z = y z) (fun _ => ?_) (fun _ => rfl); subst y; beta_reduce)
        | (refine Dev.Sound.part (P := Dev.Sound (by apply y)) (fun _ => ?_) ?_ <;> [clear_value y; subst y])
        | clear_value y)
    | with_reducible apply Dev.inc_sound
    | fail_if_no_progress (with_reducible refine Dev.Sound.upd rfl ?_)
    | with_reducible apply Dev.Sound.ite

theorem Dev.slotStart_sound (d : Dev) (s : Nat) (h_d : d.Sound) : Dev.Sound (Dev.slotStart d s) := by
  unfold Dev.slotStart
  repeat' first
    | with_reducible assumption
    | (extract_lets +onlyGivenNames -underBinder y; first
        | (refine Dev.Sound.part (P := Dev.Sound (by apply y)) (fun _ => ?_) ?_ <;> [clear_value y; subst y])
        | clear_value y)
    | with_reducible apply Dev.reach_sound
    | with_reducible apply Dev.slotFrames_sound
    | with_reducible apply Dev.slotMute_sound
    | with_reducible apply Dev.tlbEnter_sound
    | fail_if_no_progress (with_reducible refine Dev.Sound.upd rfl ?_)
    | with_reducible apply Dev.Sound.ite
    | split

theorem execTlbSlotStart_sound (slot : Fin 16) (s : State) (h_s : s.dev.Sound) : Outcome.Sound (execTlbSlotStart slot s) := by
  unfold execTlbSlotStart
  repeat' first
    | with_reducible assumption
    | refine fun _ => ?_
    | with_reducible apply Dev.slotStart_sound
    | with_reducible refine Outcome.Sound.ok h_s ?_

theorem Dev.frameSend_sound (d : Dev) (busy : List Nat) (h_d : d.Sound) : Dev.Sound (Dev.frameSend d busy) := by
  unfold Dev.frameSend
  repeat' first
    | with_reducible assumption
    | refine fun _ => ?_
    | (extract_lets +onlyGivenNames -underBinder y; first
        | (refine Dev.Sound.part (P := Dev.Sound (by apply y)) (fun _ => ?_) ?_ <;> [clear_value y; subst y])
        | clear_value y)
    | with_reducible apply Dev.inc_sound
    | with_reducible apply Dev.reach_sound
    | fail_if_no_progress (with_reducible refine Dev.Sound.upd rfl ?_)
    | with_reducible apply Dev.Sound.ite
    | with_reducible apply Dev.Sound.each
    | split

theorem execTlbFrameSend_sound (busy : List Nat) (s : State) (h_s : s.dev.Sound) : Outcome.Sound (execTlbFrameSend busy s) := by
  unfold execTlbFrameSend
  repeat' first
    | with_reducible assumption
    | refine fun _ => ?_
    | with_reducible apply Dev.frameSend_sound
    | with_reducible refine Outcome.Sound.ok h_s ?_

theorem Dev.gateClose_sound (d : Dev) (h_d : d.Sound) : Dev.Sound (Dev.gateClose d) := by
  unfold Dev.gateClose
  repeat' first
    | with_reducible assumption
    | refine fun _ => ?_
    | (extract_lets +onlyGivenNames -underBinder y; first
        | (refine Dev.Sound.part (P := Dev.Sound (by apply y)) (fun _ => ?_) ?_ <;> [clear_value y; subst y])
        | clear_value y)
    | with_reducible apply Dev.inc_sound
    | with_reducible apply Dev.reach_sound
    | fail_if_no_progress (with_reducible refine Dev.Sound.upd rfl ?_)
    | with_reducible apply Dev.Sound.ite
    | with_reducible apply Dev.Sound.each

theorem execTlbGateClose_sound (s : State) (h_s : s.dev.Sound) : Outcome.Sound (execTlbGateClose s) := by
  unfold execTlbGateClose
  repeat' first
    | with_reducible assumption
    | refine fun _ => ?_
    | with_reducible apply Dev.gateClose_sound
    | with_reducible refine Outcome.Sound.ok h_s ?_

theorem Dev.frameForward_sound (d : Dev) (p : Nat) (f : TlbFrame) (cIn : Nat) (h_d : d.Sound) :
    Dev.Sound (Dev.frameForward d p f cIn) := by
  unfold Dev.frameForward
  repeat' first
    | with_reducible assumption
    | (extract_lets +onlyGivenNames -underBinder y; first
        | (refine Dev.Sound.part (P := Dev.Sound (by apply y)) (fun _ => ?_) ?_ <;> [clear_value y; subst y])
        | clear_value y)
    | with_reducible apply Dev.inc_sound
    | with_reducible apply Dev.reach_sound
    | fail_if_no_progress (with_reducible refine Dev.Sound.upd rfl ?_)
    | with_reducible apply Dev.Sound.ite

theorem execTlbFrameForward_sound (port : Fin 4) (f : TlbFrame) (cIn : Nat) (s : State) (h_s : s.dev.Sound) :
    Outcome.Sound (execTlbFrameForward port f cIn s) := by
  unfold execTlbFrameForward
  repeat' first
    | with_reducible assumption
    | refine fun _ => ?_
    | with_reducible apply Dev.frameForward_sound
    | with_reducible refine Outcome.Sound.ok h_s ?_

theorem Dev.rxChecks_sound (d : Dev) (p : Nat) (f : TlbFrame) (cIn : Nat) (h_d : d.Sound) :
    Dev.Sound (Dev.rxChecks d p f cIn).1 := by
  unfold Dev.rxChecks
  repeat' first
    | with_reducible assumption
    | (extract_lets +onlyGivenNames -underBinder y; first
        | (refine Dev.Sound.part (P := Dev.Sound (by apply y)) (fun _ => ?_) ?_ <;> [clear_value y; subst y])
        | clear_value y)
    | with_reducible apply Dev.inc_sound
    | with_reducible apply Dev.Sound.w
    | fail_if_no_progress (with_reducible refine Dev.Sound.upd rfl ?_)
    | with_reducible apply Dev.Sound.ite
    | with_reducible apply Dev.Sound.ite_fst
    | split

theorem Dev.receive_sound (d : Dev) (type : Nat) (p : Nat) (f : TlbFrame) (cIn : Nat) (use : Dev → Dev)
    (h_d : d.Sound) (h_use : ∀ z0, Dev.Sound z0 → Dev.Sound (use z0)) :
    Dev.Sound (Dev.receive d type p f cIn use) := by
  unfold Dev.receive
  repeat' first
    | with_reducible assumption
    | (extract_lets +onlyGivenNames -underBinder y;
       refine Dev.Sound.part (P := Dev.Sound (by apply y)) (fun _ => ?_) ?_ <;> [clear_value y; subst y])
    | with_reducible apply Dev.reach_sound
    | with_reducible apply Dev.rxChecks_sound
    | with_reducible apply Dev.Sound.ite
    | with_reducible apply h_use

theorem Dev.useData_sound (d : Dev) (f : TlbFrame) (h_d : d.Sound) : Dev.Sound (Dev.useData d f) := by
  unfold Dev.useData
  repeat' first
    | with_reducible assumption
    | (extract_lets +onlyGivenNames -underBinder y; first
        | (refine Dev.Sound.part (P := ∀ z, y z = y z) (fun _ => ?_) (fun _ => rfl); subst y; beta_reduce)
        | clear_value y)
    | with_reducible apply Dev.deliverPub_sound
    | with_reducible apply Dev.inc_sound
    | fail_if_no_progress (with_reducible refine Dev.Sound.upd rfl ?_)
    | with_reducible apply Dev.Sound.ite

theorem execDataFrameReceive_sound (port : Fin 4) (f : TlbFrame) (cIn : Nat) (s : State) (h_s : s.dev.Sound) :
    Outcome.Sound (execDataFrameReceive port f cIn s) := by
  unfold execDataFrameReceive
  repeat' first
    | with_reducible assumption
    | refine fun _ => ?_
    | with_reducible apply Dev.receive_sound
    | with_reducible apply Dev.useData_sound
    | with_reducible refine Outcome.Sound.ok h_s ?_

theorem execSafeFrameReceive_sound (port : Fin 4) (f : TlbFrame) (cIn : Nat) (s : State) (h_s : s.dev.Sound) :
    Outcome.Sound (execSafeFrameReceive port f cIn s) := by
  unfold execSafeFrameReceive
  repeat' first
    | with_reducible assumption
    | refine fun _ => ?_
    | (extract_lets +onlyGivenNames -underBinder y; clear_value y)
    | with_reducible apply Dev.receive_sound
    | with_reducible refine Outcome.Sound.ok h_s ?_
    | fail_if_no_progress (with_reducible refine Dev.Sound.upd rfl ?_)

theorem Dev.sendRequest_sound (d : Dev) (dest : Nat) (priv attest : Bool) (words : List Word) (h_d : d.Sound) :
    Dev.Sound (Dev.sendRequest d dest priv attest words).1 := by
  unfold Dev.sendRequest
  repeat' first
    | with_reducible assumption
    | (extract_lets +onlyGivenNames -underBinder y; clear_value y)
    | fail_if_no_progress (with_reducible refine Dev.Sound.upd rfl ?_)

theorem Dev.remoteReply_sound (d : Dev) (e : Envelope) (h_d : d.Sound) : Dev.Sound (Dev.remoteReply d e) := by
  unfold Dev.remoteReply
  repeat' first
    | with_reducible assumption
    | refine fun _ => ?_
    | (extract_lets +onlyGivenNames -underBinder y; first
        | (refine Dev.Sound.part (P := ∀ z, y z = y z) (fun _ => ?_) (fun _ => rfl); subst y; beta_reduce)
        | (refine Dev.Sound.part (P := Dev.Sound (by apply y)) (fun _ => ?_) ?_ <;> [clear_value y; subst y])
        | clear_value y)
    | with_reducible apply Dev.answerOut_sound
    | with_reducible apply Dev.inc_sound
    | with_reducible apply Dev.settle_sound
    | fail_if_no_progress (with_reducible refine Dev.Sound.upd rfl ?_)
    | with_reducible apply Dev.Sound.ite
    | with_reducible apply Dev.Sound.each
    | split

theorem Dev.remoteTimeouts_sound (d : Dev) (attest : Bool) (h_d : d.Sound) : Dev.Sound (Dev.remoteTimeouts d attest) := by
  unfold Dev.remoteTimeouts
  repeat' first
    | with_reducible assumption
    | refine fun _ => ?_
    | (extract_lets +onlyGivenNames -underBinder y; first
        | (refine Dev.Sound.part (P := ∀ z, y z = y z) (fun _ => ?_) (fun _ => rfl); subst y; beta_reduce)
        | (refine Dev.Sound.part (P := Dev.Sound (by apply y)) (fun _ => ?_) ?_ <;> [clear_value y; subst y])
        | clear_value y)
    | with_reducible apply Dev.settle_sound
    | fail_if_no_progress (with_reducible refine Dev.Sound.upd rfl ?_)
    | with_reducible apply Dev.Sound.each

theorem Dev.useCmd_sound (d : Dev) (f : TlbFrame) (h_d : d.Sound) : Dev.Sound (Dev.useCmd d f) := by
  unfold Dev.useCmd
  repeat' first
    | with_reducible assumption
    | refine fun _ => ?_
    | (extract_lets +onlyGivenNames -underBinder y; clear_value y)
    | with_reducible apply Dev.inc_sound
    | with_reducible apply Dev.remoteReply_sound
    | fail_if_no_progress (with_reducible refine Dev.Sound.upd rfl ?_)
    | with_reducible apply Dev.Sound.ite
    | with_reducible apply Dev.Sound.each

theorem execCmdFrameReceive_sound (port : Fin 4) (f : TlbFrame) (cIn : Nat) (s : State) (h_s : s.dev.Sound) :
    Outcome.Sound (execCmdFrameReceive port f cIn s) := by
  unfold execCmdFrameReceive
  repeat' first
    | with_reducible assumption
    | refine fun _ => ?_
    | with_reducible apply Dev.receive_sound
    | with_reducible apply Dev.useCmd_sound
    | with_reducible refine Outcome.Sound.ok h_s ?_

theorem Dev.setPeer_sound (d : Dev) (i : Nat) (x : TlbPeer) (h_d : d.Sound) : Dev.Sound (Dev.setPeer d i x) := by
  unfold Dev.setPeer
  repeat' first
    | with_reducible assumption
    | (extract_lets +onlyGivenNames -underBinder y; clear_value y)
    | fail_if_no_progress (with_reducible refine Dev.Sound.upd rfl ?_)

theorem Dev.useJoin_sound (d : Dev) (f : TlbFrame) (h_d : d.Sound) : Dev.Sound (Dev.useJoin d f) := by
  unfold Dev.useJoin
  repeat' first
    | with_reducible assumption
    | (extract_lets +onlyGivenNames -underBinder y; first
        | (refine Dev.Sound.part (P := Dev.Sound (by apply y)) (fun _ => ?_) ?_ <;> [clear_value y; subst y])
        | clear_value y)
    | with_reducible apply Dev.flagIf_sound
    | with_reducible apply Dev.setPeer_sound
    | with_reducible apply Dev.Sound.w
    | with_reducible apply Dev.Sound.ite
    | split

theorem execJoinFrameReceive_sound (port : Fin 4) (f : TlbFrame) (cIn : Nat) (s : State) (h_s : s.dev.Sound) :
    Outcome.Sound (execJoinFrameReceive port f cIn s) := by
  unfold execJoinFrameReceive
  repeat' first
    | with_reducible assumption
    | refine fun _ => ?_
    | with_reducible apply Dev.receive_sound
    | with_reducible apply Dev.useJoin_sound
    | with_reducible refine Outcome.Sound.ok h_s ?_

theorem Dev.joinVerified_sound (d : Dev) (i : Nat) (sigOk : Bool) (h_d : d.Sound) : Dev.Sound (Dev.joinVerified d i sigOk) := by
  unfold Dev.joinVerified
  repeat' first
    | with_reducible assumption
    | (extract_lets +onlyGivenNames -underBinder y; clear_value y)
    | with_reducible apply Dev.flagIf_sound
    | with_reducible apply Dev.setPeer_sound
    | with_reducible apply Dev.wb_sound
    | with_reducible apply Dev.Sound.w
    | with_reducible apply Dev.Sound.ite
    | split

theorem execJoinVerifyDone_sound (producer : Fin 4096) (sigOk : Bool) (s : State) (h_s : s.dev.Sound) :
    Outcome.Sound (execJoinVerifyDone producer sigOk s) := by
  unfold execJoinVerifyDone
  repeat' first
    | with_reducible assumption
    | refine fun _ => ?_
    | with_reducible apply Dev.joinVerified_sound
    | with_reducible refine Outcome.Sound.ok h_s ?_

theorem Dev.linkChange_sound (d : Dev) (p : Nat) (up : Bool) (speed : Nat) (h_d : d.Sound) :
    Dev.Sound (Dev.linkChange d p up speed) := by
  unfold Dev.linkChange
  repeat' first
    | with_reducible assumption
    | (extract_lets +onlyGivenNames -underBinder y; first
        | (refine Dev.Sound.part (P := ∀ z, y z = y z) (fun _ => ?_) (fun _ => rfl); subst y; beta_reduce)
        | (refine Dev.Sound.part (P := Dev.Sound (by apply y)) (fun _ => ?_) ?_ <;> [clear_value y; subst y]))
    | with_reducible apply Dev.wb_sound
    | with_reducible apply Dev.Sound.w

theorem execTlbLinkChange_sound (port : Fin 4) (up : Bool) (speed : Fin 3) (s : State) (h_s : s.dev.Sound) :
    Outcome.Sound (execTlbLinkChange port up speed s) := by
  unfold execTlbLinkChange
  repeat' first
    | with_reducible assumption
    | refine fun _ => ?_
    | with_reducible apply Dev.linkChange_sound
    | with_reducible refine Outcome.Sound.ok h_s ?_

theorem Dev.tlbCfgWrite_sound (d : Dev) (v : Nat) (h_d : d.Sound) : Dev.Sound (Dev.tlbCfgWrite d v) := by
  unfold Dev.tlbCfgWrite
  repeat' first
    | with_reducible assumption
    | with_reducible apply Dev.flag_sound
    | with_reducible apply Dev.putReg_sound
    | with_reducible apply Dev.Sound.ite

theorem execTlbInfo_sound (p : Packet) (s : State) (h_s : s.dev.Sound) : Outcome.Sound (execTlbInfo p s) := by
  unfold execTlbInfo
  repeat' first
    | with_reducible assumption
    | refine fun _ => ?_
    | with_reducible apply Dev.runPacket_sound
    | with_reducible refine Outcome.Sound.ok h_s ?_

theorem execTlbPortRead_sound (p : Packet) (s : State) (h_s : s.dev.Sound) : Outcome.Sound (execTlbPortRead p s) := by
  unfold execTlbPortRead
  repeat' first
    | with_reducible assumption
    | refine fun _ => ?_
    | (extract_lets +onlyGivenNames -underBinder y; clear_value y)
    | with_reducible apply Dev.runPacket_sound
    | with_reducible refine Outcome.Sound.ok h_s ?_
    | with_reducible apply Dev.Sound.ite_fst

theorem execTlbPeerRead_sound (p : Packet) (s : State) (h_s : s.dev.Sound) : Outcome.Sound (execTlbPeerRead p s) := by
  unfold execTlbPeerRead
  repeat' first
    | with_reducible assumption
    | refine fun _ => ?_
    | with_reducible apply Dev.runPacket_sound
    | with_reducible refine Outcome.Sound.ok h_s ?_
    | split

theorem execTlbStart_sound (p : Packet) (s : State) (h_s : s.dev.Sound) : Outcome.Sound (execTlbStart p s) := by
  unfold execTlbStart
  repeat' first
    | with_reducible assumption
    | refine fun _ => ?_
    | with_reducible apply Dev.runPacket_sound
    | with_reducible apply Dev.tlbEnter_sound
    | with_reducible refine Outcome.Sound.ok h_s ?_
    | with_reducible apply Dev.Sound.ite_fst

theorem execTlbStop_sound (p : Packet) (s : State) (h_s : s.dev.Sound) : Outcome.Sound (execTlbStop p s) := by
  unfold execTlbStop
  repeat' first
    | with_reducible assumption
    | refine fun _ => ?_
    | (extract_lets +onlyGivenNames -underBinder y; clear_value y)
    | with_reducible apply Dev.runPacket_sound
    | with_reducible refine Outcome.Sound.ok h_s ?_
    | fail_if_no_progress (with_reducible refine Dev.Sound.upd rfl ?_)
    | with_reducible apply Dev.Sound.ite

theorem execTlbSafeRead_sound (p : Packet) (s : State) (h_s : s.dev.Sound) : Outcome.Sound (execTlbSafeRead p s) := by
  unfold execTlbSafeRead
  repeat' first
    | with_reducible assumption
    | refine fun _ => ?_
    | (extract_lets +onlyGivenNames -underBinder y; clear_value y)
    | with_reducible apply Dev.runPacket_sound
    | with_reducible refine Outcome.Sound.ok h_s ?_
    | with_reducible apply Dev.Sound.ite_fst

theorem execTlbAttest_sound (p : Packet) (s : State) (h_s : s.dev.Sound) : Outcome.Sound (execTlbAttest p s) := by
  unfold execTlbAttest
  repeat' first
    | with_reducible assumption
    | refine fun _ => ?_
    | (extract_lets +onlyGivenNames -underBinder y; clear_value y)
    | with_reducible apply Dev.runPacketW_sound
    | with_reducible apply Dev.sendRequest_sound
    | with_reducible apply Dev.wait_sound
    | with_reducible refine Outcome.Sound.ok h_s ?_
    | with_reducible apply Dev.Sound.ite_fst

theorem execTlbAttestTimeout_sound (s : State) (h_s : s.dev.Sound) : Outcome.Sound (execTlbAttestTimeout s) := by
  unfold execTlbAttestTimeout
  repeat' first
    | with_reducible assumption
    | refine fun _ => ?_
    | with_reducible apply Dev.remoteTimeouts_sound
    | with_reducible refine Outcome.Sound.ok h_s ?_

end Sys2Proof.Machine
end

