-- ==== Sys2Proof/Laws/SoundSafety.lean ====
section
/-!
SUPPORT. Laws/SoundSafety.lean: the operations and commands of Bridle, Sage, the pair, security, reset and boot keep a device
sound.
-/
namespace Sys2Proof.Machine

set_option linter.unusedTactic false
set_option linter.unreachableTactic false

/-! ### Machine/PairCore.lean -/

theorem Dev.pairEnter_sound (d : Dev) (st : Nat) (h_d : d.Sound) : Dev.Sound (Dev.pairEnter d st) := by
  unfold Dev.pairEnter
  repeat' first
    | with_reducible assumption
    | refine fun _ => ?_
    | with_reducible apply Dev.flag_sound
    | with_reducible apply Dev.withHealth_sound
    | with_reducible apply Dev.Sound.w
    | with_reducible apply Dev.Sound.ite

theorem Dev.driveDies_sound (d : Dev) (h_d : d.Sound) : Dev.Sound (Dev.driveDies d) := by
  unfold Dev.driveDies
  repeat' first
    | with_reducible assumption
    | refine fun _ => ?_
    | with_reducible apply Dev.driveOutputs_sound
    | with_reducible apply Dev.driveTeam_sound
    | with_reducible apply Dev.Sound.each

theorem Dev.setDriving_sound (d : Dev) (on : Bool) (h_d : d.Sound) : Dev.Sound (Dev.setDriving d on) := by
  unfold Dev.setDriving
  repeat' first
    | with_reducible assumption
    | (extract_lets +onlyGivenNames -underBinder y; first
        | (refine Dev.Sound.part (P := Dev.Sound (by apply y)) (fun _ => ?_) ?_ <;> [clear_value y; subst y])
        | clear_value y)
    | with_reducible apply Dev.driveDies_sound
    | with_reducible apply Dev.Sound.w
    | fail_if_no_progress (with_reducible refine Dev.Sound.upd rfl ?_)
    | with_reducible apply Dev.Sound.ite

theorem Dev.moduleReset_sound (d : Dev) (cause : Nat) (cmd : Bool) (h_d : d.Sound) : Dev.Sound (Dev.moduleReset d cause cmd) := by
  unfold Dev.moduleReset
  repeat' first
    | with_reducible assumption
    | refine fun _ => ?_
    | (extract_lets +onlyGivenNames -underBinder y; first
        | (refine Dev.Sound.part (P := Dev.Sound (by apply y)) (fun _ => ?_) ?_ <;> [clear_value y; subst y])
        | clear_value y)
    | with_reducible apply Dev.flag_sound
    | with_reducible apply Dev.inc_sound
    | with_reducible apply Dev.pins_sound
    | with_reducible apply Dev.wb_sound
    | exact Dev.Sound.fresh (Regs.wf_filter h_d.regs _) Regs.wf_nil (Mem.wf_filter h_d.mem _)
    | with_reducible apply Dev.Sound.w
    | with_reducible apply Dev.Sound.ite
    | with_reducible apply Dev.Sound.each

theorem Dev.reinFall_sound (d : Dev) (cause : Nat) (h_d : d.Sound) : Dev.Sound (Dev.reinFall d cause) := by
  unfold Dev.reinFall
  repeat' first
    | with_reducible assumption
    | (extract_lets +onlyGivenNames -underBinder y; first
        | (refine Dev.Sound.part (P := Dev.Sound (by apply y)) (fun _ => ?_) ?_ <;> [clear_value y; subst y])
        | clear_value y)
    | with_reducible apply Dev.moduleReset_sound
    | with_reducible apply Dev.showTx_sound
    | with_reducible apply Dev.Sound.w
    | fail_if_no_progress (with_reducible refine Dev.Sound.upd rfl ?_)
    | with_reducible apply Dev.Sound.ite

theorem Dev.reinClaim_sound (d : Dev) (h_d : d.Sound) : Dev.Sound (Dev.reinClaim d) := by
  unfold Dev.reinClaim
  repeat' first
    | with_reducible assumption
    | (extract_lets +onlyGivenNames -underBinder y; first
        | (refine Dev.Sound.part (P := Dev.Sound (by apply y)) (fun _ => ?_) ?_ <;> [clear_value y; subst y])
        | clear_value y)
    | with_reducible apply Dev.showTx_sound
    | with_reducible apply Dev.Sound.w
    | fail_if_no_progress (with_reducible refine Dev.Sound.upd rfl ?_)

/-! ### Machine/BridleConn.lean -/

theorem Dev.setConn_sound (d : Dev) (c : Nat) (x : SafeConn) (h_d : d.Sound) : Dev.Sound (Dev.setConn d c x) := by
  unfold Dev.setConn
  repeat' first
    | with_reducible assumption
    | (extract_lets +onlyGivenNames -underBinder y; clear_value y)
    | fail_if_no_progress (with_reducible refine Dev.Sound.upd rfl ?_)

theorem Dev.sensorPdu_sound (d : Dev) (c : Nat) (p : SafePdu) (h_d : d.Sound) : Dev.Sound (Dev.sensorPdu d c p) := by
  unfold Dev.sensorPdu
  repeat' first
    | with_reducible assumption
    | (extract_lets +onlyGivenNames -underBinder y; first
        | (refine Dev.Sound.part (P := Dev.Sound (by apply y)) (fun _ => ?_) ?_ <;> [clear_value y; subst y])
        | clear_value y)
    | with_reducible apply Dev.add_sound
    | with_reducible apply Dev.setConn_sound
    | fail_if_no_progress (with_reducible refine Dev.Sound.upd rfl ?_)
    | with_reducible apply Dev.Sound.ite

theorem Dev.deliver_sound (d : Dev) (c : Nat) (p : SafePdu) (single : Option Nat) (h_d : d.Sound) :
    Dev.Sound (Dev.deliver d c p single) := by
  unfold Dev.deliver
  repeat' first
    | with_reducible assumption
    | (extract_lets +onlyGivenNames -underBinder y; first
        | (refine Dev.Sound.part (P := Dev.Sound (by apply y)) (fun _ => ?_) ?_ <;> [clear_value y; subst y])
        | clear_value y)
    | with_reducible apply Dev.sensorPdu_sound
    | with_reducible apply Dev.setConn_sound
    | with_reducible apply Dev.Sound.ite

theorem Dev.checkCopy_sound (d : Dev) (net src : Nat) (p : SafePdu) (h_d : d.Sound) : Dev.Sound (Dev.checkCopy d net src p) := by
  unfold Dev.checkCopy
  repeat' first
    | with_reducible assumption
    | (extract_lets +onlyGivenNames -underBinder y; first
        | (refine Dev.Sound.part (P := Dev.Sound (by apply y)) (fun _ => ?_) ?_ <;> [clear_value y; subst y])
        | clear_value y)
    | with_reducible apply Dev.deliver_sound
    | with_reducible apply Dev.inc_sound
    | with_reducible apply Dev.setConn_sound
    | with_reducible apply Dev.Sound.ite
    | split

theorem Dev.twinTimeout_sound (d : Dev) (c : Nat) (h_d : d.Sound) : Dev.Sound (Dev.twinTimeout d c) := by
  unfold Dev.twinTimeout
  repeat' first
    | with_reducible assumption
    | (extract_lets +onlyGivenNames -underBinder y; clear_value y)
    | with_reducible apply Dev.deliver_sound
    | with_reducible apply Dev.setConn_sound
    | split

theorem Dev.connWatchdog_sound (d : Dev) (c : Nat) (h_d : d.Sound) : Dev.Sound (Dev.connWatchdog d c) := by
  unfold Dev.connWatchdog
  repeat' first
    | with_reducible assumption
    | (extract_lets +onlyGivenNames -underBinder y; clear_value y)
    | with_reducible apply Dev.setConn_sound
    | with_reducible apply Dev.Sound.ite

theorem Dev.connStart_sound (d : Dev) (c : Nat) (h_d : d.Sound) : Dev.Sound (Dev.connStart d c) := by
  unfold Dev.connStart
  repeat' first
    | with_reducible assumption
    | with_reducible apply Dev.setConn_sound

theorem Dev.ringIn_sound (d : Dev) (c : Nat) (h_d : d.Sound) : Dev.Sound (Dev.ringIn d c) := by
  unfold Dev.ringIn
  repeat' first
    | with_reducible assumption
    | (extract_lets +onlyGivenNames -underBinder y; first
        | (refine Dev.Sound.part (P := Dev.Sound (by apply y)) (fun _ => ?_) ?_ <;> [clear_value y; subst y])
        | clear_value y)
    | with_reducible apply Dev.deliver_sound
    | with_reducible apply Dev.inc_sound
    | with_reducible apply Dev.setConn_sound
    | with_reducible apply Dev.Sound.ite
    | split

theorem Dev.buildPdus_sound (d : Dev) (run : Bool) (h_d : d.Sound) : Dev.Sound (Dev.buildPdus d run) := by
  unfold Dev.buildPdus
  repeat' first
    | with_reducible assumption
    | refine fun _ => ?_
    | (extract_lets +onlyGivenNames -underBinder y; first
        | (refine Dev.Sound.part (P := Dev.Sound (by apply y)) (fun _ => ?_) ?_ <;> [clear_value y; subst y])
        | clear_value y)
    | with_reducible apply Dev.setConn_sound
    | with_reducible apply Dev.setRp_sound
    | with_reducible apply Dev.Sound.ite
    | with_reducible apply Dev.Sound.each
    | split

/-! ### Machine/Verify.lean -/

theorem Dev.selectBank_sound (d : Dev) (g : Grade) (kind : Nat) (v0 v1 : Verdict) (h_d : d.Sound) :
    Dev.Sound (Dev.selectBank d g kind v0 v1).1 := by
  unfold Dev.selectBank
  repeat' first
    | with_reducible assumption
    | (extract_lets +onlyGivenNames -underBinder y; first
        | (refine Dev.Sound.part (P := ∀ z, y z = y z) (fun _ => ?_) (fun _ => rfl); subst y; beta_reduce)
        | (refine Dev.Sound.part (P := Dev.Sound (by apply y)) (fun _ => ?_) ?_ <;> [clear_value y; subst y])
        | clear_value y)
    | with_reducible apply Dev.Sound.w
    | fail_if_no_progress (with_reducible refine Dev.Sound.upd rfl ?_)
    | with_reducible apply Dev.Sound.ite
    | with_reducible apply Dev.Sound.ite_fst

theorem Dev.flashWrite_sound (d : Dev) (kind b : Nat) (len : Nat) (bytes : Nat → Byte) (h_d : d.Sound) :
    Dev.Sound (Dev.flashWrite d kind b len bytes) := by
  unfold Dev.flashWrite
  repeat' first
    | with_reducible assumption
    | fail_if_no_progress (with_reducible refine Dev.Sound.upd rfl ?_)

/-! ### Machine/Bridle.lean -/

theorem Dev.setFx_sound (d : Dev) (f : Nat) (x : BrdFunc) (h_d : d.Sound) : Dev.Sound (Dev.setFx d f x) := by
  unfold Dev.setFx
  repeat' first
    | with_reducible assumption
    | (extract_lets +onlyGivenNames -underBinder y; clear_value y)
    | fail_if_no_progress (with_reducible refine Dev.Sound.upd rfl ?_)

theorem Dev.setZx_sound (d : Dev) (z : Nat) (x : BrdZone) (h_d : d.Sound) : Dev.Sound (Dev.setZx d z x) := by
  unfold Dev.setZx
  repeat' first
    | with_reducible assumption
    | (extract_lets +onlyGivenNames -underBinder y; clear_value y)
    | fail_if_no_progress (with_reducible refine Dev.Sound.upd rfl ?_)

theorem Dev.brdEnter_sound (d : Dev) (st : Nat) (h_d : d.Sound) : Dev.Sound (Dev.brdEnter d st) := by
  unfold Dev.brdEnter
  repeat' first
    | with_reducible assumption
    | refine fun _ => ?_
    | with_reducible apply Dev.flag_sound
    | with_reducible apply Dev.pins_sound
    | with_reducible apply Dev.withHealth_sound
    | with_reducible apply Dev.Sound.w
    | with_reducible apply Dev.Sound.ite

theorem Dev.commandSto_sound (d : Dev) (m : Nat) (h_d : d.Sound) : Dev.Sound (Dev.commandSto d m) := by
  unfold Dev.commandSto
  repeat' first
    | with_reducible assumption
    | refine fun _ => ?_
    | (extract_lets +onlyGivenNames -underBinder y; first
        | (refine Dev.Sound.part (P := Dev.Sound (by apply y)) (fun _ => ?_) ?_ <;> [clear_value y; subst y])
        | clear_value y)
    | with_reducible apply Dev.setSto_sound
    | fail_if_no_progress (with_reducible refine Dev.Sound.upd rfl ?_)
    | with_reducible apply Dev.Sound.each

theorem Dev.commandOuts_sound (d : Dev) (m : Nat) (h_d : d.Sound) : Dev.Sound (Dev.commandOuts d m) := by
  unfold Dev.commandOuts
  repeat' first
    | with_reducible assumption
    | (extract_lets +onlyGivenNames -underBinder y; first
        | (refine Dev.Sound.part (P := Dev.Sound (by apply y)) (fun _ => ?_) ?_ <;> [clear_value y; subst y])
        | clear_value y)
    | with_reducible apply Dev.safeOutputs_sound
    | with_reducible apply Dev.Sound.w
    | fail_if_no_progress (with_reducible refine Dev.Sound.upd rfl ?_)

theorem Dev.showZones_sound (d : Dev) (h_d : d.Sound) : Dev.Sound (Dev.showZones d) := by
  unfold Dev.showZones
  repeat' first
    | with_reducible assumption
    | (extract_lets +onlyGivenNames -underBinder y; first
        | (refine Dev.Sound.part (P := ∀ z, y z = y z) (fun _ => ?_) (fun _ => rfl); subst y; beta_reduce)
        | clear_value y)
    | with_reducible apply Dev.wb_sound
    | with_reducible apply Dev.Sound.w

theorem Dev.applyZones_sound (d : Dev) (h_d : d.Sound) : Dev.Sound (Dev.applyZones d) := by
  unfold Dev.applyZones
  repeat' first
    | with_reducible assumption
    | (extract_lets +onlyGivenNames -underBinder y;
       refine Dev.Sound.part (P := Dev.Sound (by apply y)) (fun _ => ?_) ?_ <;> [clear_value y; subst y])
    | with_reducible apply Dev.commandOuts_sound
    | with_reducible apply Dev.commandSto_sound
    | with_reducible apply Dev.showZones_sound
    | with_reducible apply Dev.Sound.ite

theorem Dev.demandAll_sound (d : Dev) (h_d : d.Sound) : Dev.Sound (Dev.demandAll d) := by
  unfold Dev.demandAll
  repeat' first
    | with_reducible assumption
    | refine fun _ => ?_
    | with_reducible apply Dev.showZones_sound
    | with_reducible apply Dev.Sound.w
    | with_reducible apply Dev.Sound.each

theorem Dev.brdSafe_sound (d : Dev) (cause : Nat) (h_d : d.Sound) : Dev.Sound (Dev.brdSafe d cause) := by
  unfold Dev.brdSafe
  repeat' first
    | with_reducible assumption
    | (extract_lets +onlyGivenNames -underBinder y;
       refine Dev.Sound.part (P := Dev.Sound (by apply y)) (fun _ => ?_) ?_ <;> [clear_value y; subst y])
    | with_reducible apply Dev.brdEnter_sound
    | with_reducible apply Dev.commandOuts_sound
    | with_reducible apply Dev.commandSto_sound
    | with_reducible apply Dev.demandAll_sound
    | with_reducible apply Dev.reinFall_sound
    | with_reducible apply Dev.Sound.w
    | with_reducible apply Dev.Sound.ite

theorem execBridleFault_sound (cause : Fin 9) (s : State) (h_s : s.dev.Sound) : Outcome.Sound (execBridleFault cause s) := by
  unfold execBridleFault
  repeat' first
    | with_reducible assumption
    | refine fun _ => ?_
    | with_reducible apply Dev.brdSafe_sound
    | with_reducible refine Outcome.Sound.ok h_s ?_
    | with_reducible apply Dev.Sound.ite

theorem execBridleSelftestDone_sound (s : State) (h_s : s.dev.Sound) : Outcome.Sound (execBridleSelftestDone s) := by
  unfold execBridleSelftestDone
  repeat' first
    | with_reducible assumption
    | refine fun _ => ?_
    | (extract_lets +onlyGivenNames -underBinder y; clear_value y)
    | with_reducible apply Dev.brdEnter_sound
    | with_reducible apply Dev.commandSto_sound
    | with_reducible refine Outcome.Sound.ok h_s ?_
    | fail_if_no_progress (with_reducible refine Dev.Sound.upd rfl ?_)
    | with_reducible apply Dev.Sound.ite

theorem execTestPulse_sound (source : Fin 8) (s : State) (h_s : s.dev.Sound) : Outcome.Sound (execTestPulse source s) := by
  unfold execTestPulse
  repeat' first
    | with_reducible assumption
    | refine fun _ => ?_
    | (extract_lets +onlyGivenNames -underBinder y; clear_value y)
    | with_reducible refine Outcome.Sound.ok h_s ?_
    | with_reducible apply Dev.Sound.w
    | with_reducible apply Dev.Sound.ite

theorem Dev.checkSources_sound (d : Dev) (rb i : Nat) (h_d : d.Sound) : Dev.Sound (Dev.checkSources d rb i) := by
  unfold Dev.checkSources
  repeat' first
    | with_reducible assumption
    | refine fun _ => ?_
    | (extract_lets +onlyGivenNames -underBinder y; first
        | (refine Dev.Sound.part (P := Dev.Sound (by apply y)) (fun _ => ?_) ?_ <;> [clear_value y; subst y])
        | clear_value y)
    | with_reducible apply Dev.Sound.w
    | fail_if_no_progress (with_reducible refine Dev.Sound.upd rfl ?_)
    | with_reducible apply Dev.Sound.each

theorem Dev.inputFault_sound (d : Dev) (i : Nat) (h_d : d.Sound) : Dev.Sound (Dev.inputFault d i) := by
  unfold Dev.inputFault
  repeat' first
    | with_reducible assumption
    | with_reducible apply Dev.Sound.w

theorem Dev.filterInput_sound (d : Dev) (i : Nat) (v : Bool) (t : Nat) (h_d : d.Sound) : Dev.Sound (Dev.filterInput d i v t) := by
  unfold Dev.filterInput
  repeat' first
    | with_reducible assumption
    | (extract_lets +onlyGivenNames -underBinder y; first
        | (refine Dev.Sound.part (P := Dev.Sound (by apply y)) (fun _ => ?_) ?_ <;> [clear_value y; subst y])
        | clear_value y)
    | with_reducible apply Dev.inputFault_sound
    | with_reducible apply Dev.Sound.w
    | fail_if_no_progress (with_reducible refine Dev.Sound.upd rfl ?_)
    | with_reducible apply Dev.Sound.ite

theorem Dev.showInputFault_sound (d : Dev) (f : Nat) (h_d : d.Sound) : Dev.Sound (Dev.showInputFault d f) := by
  unfold Dev.showInputFault
  repeat' first
    | with_reducible assumption
    | with_reducible apply Dev.wb_sound

theorem Dev.clearInputs_sound (d : Dev) (f : Nat) (h_d : d.Sound) : Dev.Sound (Dev.clearInputs d f).1 := by
  unfold Dev.clearInputs
  repeat' first
    | with_reducible assumption
    | (extract_lets +onlyGivenNames -underBinder y; first
        | (refine Dev.Sound.part (P := ∀ z, y z = y z) (fun _ => ?_) (fun _ => rfl); subst y; beta_reduce)
        | clear_value y)
    | with_reducible apply Dev.showInputFault_sound
    | with_reducible apply Dev.Sound.w

theorem Dev.fnTick_sound (d : Dev) (f : Nat) (h_d : d.Sound) : Dev.Sound (Dev.fnTick d f) := by
  unfold Dev.fnTick
  repeat' first
    | with_reducible assumption
    | (extract_lets +onlyGivenNames -underBinder y; clear_value y)
    | with_reducible apply Dev.clearInputs_sound
    | with_reducible apply Dev.setFx_sound
    | with_reducible apply Dev.Sound.w
    | with_reducible apply Dev.Sound.ite
    | with_reducible apply Dev.Sound.ite_fst

theorem Dev.fnOnset_sound (d : Dev) (f : Nat) (h_d : d.Sound) : Dev.Sound (Dev.fnOnset d f) := by
  unfold Dev.fnOnset
  repeat' first
    | with_reducible assumption
    | with_reducible apply Dev.inc_sound
    | with_reducible apply Dev.Sound.ite

theorem Dev.discFault_sound (d : Dev) (f : Nat) (h_d : d.Sound) : Dev.Sound (Dev.discFault d f) := by
  unfold Dev.discFault
  repeat' first
    | with_reducible assumption
    | (extract_lets +onlyGivenNames -underBinder y; first
        | (refine Dev.Sound.part (P := Dev.Sound (by apply y)) (fun _ => ?_) ?_ <;> [clear_value y; subst y])
        | clear_value y)
    | with_reducible apply Dev.fnOnset_sound
    | with_reducible apply Dev.setFx_sound
    | with_reducible apply Dev.Sound.w
    | with_reducible apply Dev.Sound.ite

theorem execDiscFault_sound (f : Fin 128) (s : State) (h_s : s.dev.Sound) : Outcome.Sound (execDiscFault f s) := by
  unfold execDiscFault
  repeat' first
    | with_reducible assumption
    | refine fun _ => ?_
    | with_reducible apply Dev.discFault_sound
    | with_reducible refine Outcome.Sound.ok h_s ?_

theorem Dev.fnOk_sound (d : Dev) (f : Nat) (h_d : d.Sound) : Dev.Sound (Dev.fnOk d f).1 := by
  unfold Dev.fnOk
  repeat' first
    | with_reducible assumption
    | (extract_lets +onlyGivenNames -underBinder y; clear_value y)
    | with_reducible apply Dev.Sound.w
    | with_reducible apply Dev.Sound.ite_fst
    | split

theorem Dev.fnEval_sound (d : Dev) (f : Nat) (h_d : d.Sound) : Dev.Sound (Dev.fnEval d f) := by
  unfold Dev.fnEval
  repeat' first
    | with_reducible assumption
    | with_reducible apply Dev.fnOk_sound
    | with_reducible apply Dev.fnOnset_sound
    | with_reducible apply Dev.setFx_sound
    | with_reducible apply Dev.showInputFault_sound
    | with_reducible apply Dev.Sound.w
    | with_reducible apply Dev.Sound.ite

theorem Dev.speedCheck_sound (d : Dev) (z : Nat) (h_d : d.Sound) : Dev.Sound (Dev.speedCheck d z) := by
  unfold Dev.speedCheck
  repeat' first
    | with_reducible assumption
    | (extract_lets +onlyGivenNames -underBinder y; first
        | (refine Dev.Sound.part (P := Dev.Sound (by apply y)) (fun _ => ?_) ?_ <;> [clear_value y; subst y])
        | clear_value y)
    | with_reducible apply Dev.flagIf_sound
    | with_reducible apply Dev.setZx_sound

theorem Dev.zoneSto_sound (d : Dev) (z : Nat) (h_d : d.Sound) : Dev.Sound (Dev.zoneSto d z) := by
  unfold Dev.zoneSto
  repeat' first
    | with_reducible assumption
    | (extract_lets +onlyGivenNames -underBinder y; clear_value y)
    | with_reducible apply Dev.setZx_sound
    | with_reducible apply Dev.Sound.w
    | with_reducible apply Dev.Sound.ite

theorem Dev.zoneSs1_sound (d : Dev) (z : Nat) (h_d : d.Sound) : Dev.Sound (Dev.zoneSs1 d z) := by
  unfold Dev.zoneSs1
  repeat' first
    | with_reducible assumption
    | refine fun _ => ?_
    | (extract_lets +onlyGivenNames -underBinder y; first
        | (refine Dev.Sound.part (P := Dev.Sound (by apply y)) (fun _ => ?_) ?_ <;> [clear_value y; subst y])
        | clear_value y)
    | with_reducible apply Dev.setPx_sound
    | with_reducible apply Dev.setZx_sound
    | with_reducible apply Dev.zoneSto_sound
    | with_reducible apply Dev.Sound.w
    | with_reducible apply Dev.Sound.ite
    | with_reducible apply Dev.Sound.each

theorem Dev.zoneDemand_sound (d : Dev) (z cat : Nat) (h_d : d.Sound) : Dev.Sound (Dev.zoneDemand d z cat) := by
  unfold Dev.zoneDemand
  repeat' first
    | with_reducible assumption
    | (extract_lets +onlyGivenNames -underBinder y;
       refine Dev.Sound.part (P := Dev.Sound (by apply y)) (fun _ => ?_) ?_ <;> [clear_value y; subst y])
    | with_reducible apply Dev.inc_sound
    | with_reducible apply Dev.zoneSs1_sound
    | with_reducible apply Dev.zoneSto_sound
    | with_reducible apply Dev.Sound.w
    | with_reducible apply Dev.Sound.ite

theorem Dev.zoneEval_sound (d : Dev) (dem z : Nat) (h_d : d.Sound) : Dev.Sound (Dev.zoneEval d dem z) := by
  unfold Dev.zoneEval
  repeat' first
    | with_reducible assumption
    | (extract_lets +onlyGivenNames -underBinder y; first
        | (refine Dev.Sound.part (P := Dev.Sound (by apply y)) (fun _ => ?_) ?_ <;> [clear_value y; subst y])
        | clear_value y)
    | with_reducible apply Dev.setZx_sound
    | with_reducible apply Dev.wb_sound
    | with_reducible apply Dev.zoneDemand_sound
    | with_reducible apply Dev.Sound.w
    | with_reducible apply Dev.Sound.ite

theorem Dev.ss1Timeout_sound (d : Dev) (z : Nat) (h_d : d.Sound) : Dev.Sound (Dev.ss1Timeout d z) := by
  unfold Dev.ss1Timeout
  repeat' first
    | with_reducible assumption
    | with_reducible apply Dev.applyZones_sound
    | with_reducible apply Dev.zoneSto_sound
    | with_reducible apply Dev.Sound.ite

theorem execSs1Timeout_sound (z : Fin 32) (s : State) (h_s : s.dev.Sound) : Outcome.Sound (execSs1Timeout z s) := by
  unfold execSs1Timeout
  repeat' first
    | with_reducible assumption
    | refine fun _ => ?_
    | with_reducible apply Dev.ss1Timeout_sound
    | with_reducible refine Outcome.Sound.ok h_s ?_

theorem Dev.stoConf_sound (d : Dev) (z : Nat) (h_d : d.Sound) : Dev.Sound (Dev.stoConf d z) := by
  unfold Dev.stoConf
  repeat' first
    | with_reducible assumption
    | with_reducible apply Dev.flag_sound
    | with_reducible apply Dev.Sound.ite
    | split

theorem execStoConfTimeout_sound (z : Fin 32) (s : State) (h_s : s.dev.Sound) : Outcome.Sound (execStoConfTimeout z s) := by
  unfold execStoConfTimeout
  repeat' first
    | with_reducible assumption
    | refine fun _ => ?_
    | with_reducible apply Dev.stoConf_sound
    | with_reducible refine Outcome.Sound.ok h_s ?_

theorem Dev.stuckOn_sound (d : Dev) (o : Nat) (h_d : d.Sound) : Dev.Sound (Dev.stuckOn d o) := by
  unfold Dev.stuckOn
  repeat' first
    | with_reducible assumption
    | refine fun _ => ?_
    | (extract_lets +onlyGivenNames -underBinder y; first
        | (refine Dev.Sound.part (P := Dev.Sound (by apply y)) (fun _ => ?_) ?_ <;> [clear_value y; subst y])
        | clear_value y)
    | with_reducible apply Dev.applyZones_sound
    | with_reducible apply Dev.driveGroup_sound
    | with_reducible apply Dev.flag_sound
    | with_reducible apply Dev.zoneDemand_sound
    | with_reducible apply Dev.Sound.w
    | with_reducible apply Dev.Sound.each

theorem Dev.checkOut_sound (d : Dev) (o : Nat) (rb : Bool) (h_d : d.Sound) : Dev.Sound (Dev.checkOut d o rb) := by
  unfold Dev.checkOut
  repeat' first
    | with_reducible assumption
    | (extract_lets +onlyGivenNames -underBinder y; first
        | (refine Dev.Sound.part (P := Dev.Sound (by apply y)) (fun _ => ?_) ?_ <;> [clear_value y; subst y])
        | clear_value y)
    | with_reducible apply Dev.commandOuts_sound
    | with_reducible apply Dev.stuckOn_sound
    | with_reducible apply Dev.Sound.w
    | fail_if_no_progress (with_reducible refine Dev.Sound.upd rfl ?_)
    | with_reducible apply Dev.Sound.ite

theorem Dev.darkTest_sound (d : Dev) (o : Nat) (ending rb : Bool) (h_d : d.Sound) : Dev.Sound (Dev.darkTest d o ending rb) := by
  unfold Dev.darkTest
  repeat' first
    | with_reducible assumption
    | (extract_lets +onlyGivenNames -underBinder y; first
        | (refine Dev.Sound.part (P := Dev.Sound (by apply y)) (fun _ => ?_) ?_ <;> [clear_value y; subst y])
        | clear_value y)
    | with_reducible apply Dev.driveGroup_sound
    | with_reducible apply Dev.reach_sound
    | with_reducible apply Dev.stuckOn_sound
    | fail_if_no_progress (with_reducible refine Dev.Sound.upd rfl ?_)
    | with_reducible apply Dev.Sound.ite
    | split

theorem execDarkTest_sound (o : Fin 32) (ending rb : Bool) (s : State) (h_s : s.dev.Sound) :
    Outcome.Sound (execDarkTest o ending rb s) := by
  unfold execDarkTest
  repeat' first
    | with_reducible assumption
    | refine fun _ => ?_
    | with_reducible apply Dev.darkTest_sound
    | with_reducible refine Outcome.Sound.ok h_s ?_

theorem Dev.evalOuts_sound (d : Dev) (h_d : d.Sound) : Dev.Sound (Dev.evalOuts d) := by
  unfold Dev.evalOuts
  repeat' first
    | with_reducible assumption
    | (extract_lets +onlyGivenNames -underBinder y; first
        | (refine Dev.Sound.part (P := ∀ z, y z = y z) (fun _ => ?_) (fun _ => rfl); subst y; beta_reduce)
        | (refine Dev.Sound.part (P := Dev.Sound (by apply y)) (fun _ => ?_) ?_ <;> [clear_value y; subst y])
        | clear_value y)
    | with_reducible apply Dev.commandOuts_sound
    | fail_if_no_progress (with_reducible refine Dev.Sound.upd rfl ?_)

theorem Dev.refreshLoss_sound (d : Dev) (die : Nat) (h_d : d.Sound) : Dev.Sound (Dev.refreshLoss d die) := by
  unfold Dev.refreshLoss
  repeat' first
    | with_reducible assumption
    | refine fun _ => ?_
    | (extract_lets +onlyGivenNames -underBinder y; first
        | (refine Dev.Sound.part (P := Dev.Sound (by apply y)) (fun _ => ?_) ?_ <;> [clear_value y; subst y])
        | clear_value y)
    | with_reducible apply Dev.driveOutputs_sound
    | with_reducible apply Dev.setSto_sound
    | fail_if_no_progress (with_reducible refine Dev.Sound.upd rfl ?_)
    | with_reducible apply Dev.Sound.each

theorem execFieldDieRefreshLoss_sound (die : Fin 2) (s : State) (h_s : s.dev.Sound) :
    Outcome.Sound (execFieldDieRefreshLoss die s) := by
  unfold execFieldDieRefreshLoss
  repeat' first
    | with_reducible assumption
    | refine fun _ => ?_
    | with_reducible apply Dev.refreshLoss_sound
    | with_reducible refine Outcome.Sound.ok h_s ?_

theorem Dev.nextTick_sound (d : Dev) (h_d : d.Sound) : Dev.Sound (Dev.nextTick d) := by
  unfold Dev.nextTick
  repeat' first
    | with_reducible assumption
    | (extract_lets +onlyGivenNames -underBinder y; first
        | (refine Dev.Sound.part (P := Dev.Sound (by apply y)) (fun _ => ?_) ?_ <;> [clear_value y; subst y])
        | clear_value y)
    | with_reducible apply Dev.flagIf_sound
    | with_reducible apply Dev.reach_sound
    | with_reducible apply Dev.Sound.w
    | fail_if_no_progress (with_reducible refine Dev.Sound.upd rfl ?_)
    | with_reducible apply Dev.Sound.ite

theorem Dev.brdRole_sound (d : Dev) (h_d : d.Sound) : Dev.Sound (Dev.brdRole d) := by
  unfold Dev.brdRole
  repeat' first
    | with_reducible assumption
    | with_reducible apply Dev.brdEnter_sound
    | with_reducible apply Dev.commandOuts_sound
    | with_reducible apply Dev.commandSto_sound
    | with_reducible apply Dev.Sound.ite

theorem Dev.tickInputs_sound (d : Dev) (inputs tpRb i : Nat) (h_d : d.Sound) : Dev.Sound (Dev.tickInputs d inputs tpRb i) := by
  unfold Dev.tickInputs
  repeat' first
    | with_reducible assumption
    | refine fun _ => ?_
    | (extract_lets +onlyGivenNames -underBinder y; first
        | (refine Dev.Sound.part (P := Dev.Sound (by apply y)) (fun _ => ?_) ?_ <;> [clear_value y; subst y])
        | clear_value y)
    | with_reducible apply Dev.checkCopy_sound
    | with_reducible apply Dev.checkSources_sound
    | with_reducible apply Dev.connWatchdog_sound
    | with_reducible apply Dev.filterInput_sound
    | with_reducible apply Dev.ringIn_sound
    | fail_if_no_progress (with_reducible refine Dev.Sound.upd rfl ?_)
    | with_reducible apply Dev.Sound.ite
    | with_reducible apply Dev.Sound.each

theorem Dev.zoneTick_sound (d : Dev) (z : Nat) (h_d : d.Sound) : Dev.Sound (Dev.zoneTick d z) := by
  unfold Dev.zoneTick
  repeat' first
    | with_reducible assumption
    | (extract_lets +onlyGivenNames -underBinder y;
       refine Dev.Sound.part (P := Dev.Sound (by apply y)) (fun _ => ?_) ?_ <;> [clear_value y; subst y])
    | with_reducible apply Dev.speedCheck_sound
    | with_reducible apply Dev.zoneDemand_sound
    | with_reducible apply Dev.Sound.w
    | with_reducible apply Dev.Sound.ite
    | split

theorem Dev.tickReadbacks_sound (d : Dev) (outRb stoRb : Nat) (h_d : d.Sound) : Dev.Sound (Dev.tickReadbacks d outRb stoRb) := by
  unfold Dev.tickReadbacks
  repeat' first
    | with_reducible assumption
    | refine fun _ => ?_
    | (extract_lets +onlyGivenNames -underBinder y; first
        | (refine Dev.Sound.part (P := Dev.Sound (by apply y)) (fun _ => ?_) ?_ <;> [clear_value y; subst y])
        | clear_value y)
    | with_reducible apply Dev.brdSafe_sound
    | with_reducible apply Dev.checkOut_sound
    | fail_if_no_progress (with_reducible refine Dev.Sound.upd rfl ?_)
    | with_reducible apply Dev.Sound.ite
    | with_reducible apply Dev.Sound.each

theorem Dev.brdTick_sound (d : Dev) (inputs outRb tpRb stoRb : Nat) (h_d : d.Sound) :
    Dev.Sound (Dev.brdTick d inputs outRb tpRb stoRb) := by
  unfold Dev.brdTick
  repeat' first
    | with_reducible assumption
    | refine fun _ => ?_
    | (extract_lets +onlyGivenNames -underBinder y;
       refine Dev.Sound.part (P := Dev.Sound (by apply y)) (fun _ => ?_) ?_ <;> [clear_value y; subst y])
    | with_reducible apply Dev.applyZones_sound
    | with_reducible apply Dev.brdRole_sound
    | with_reducible apply Dev.buildPdus_sound
    | with_reducible apply Dev.fnTick_sound
    | with_reducible apply Dev.nextTick_sound
    | with_reducible apply Dev.tickInputs_sound
    | with_reducible apply Dev.tickReadbacks_sound
    | with_reducible apply Dev.zoneTick_sound
    | with_reducible apply Dev.Sound.w
    | with_reducible apply Dev.Sound.ite
    | with_reducible apply Dev.Sound.each

theorem execBridleTick_sound (inputs : BitVec 64) (outRb : BitVec 32) (tpRb : BitVec 8) (stoRb : BitVec 24) (s : State)
    (h_s : s.dev.Sound) :
    Outcome.Sound (execBridleTick inputs outRb tpRb stoRb s) := by
  unfold execBridleTick
  repeat' first
    | with_reducible assumption
    | refine fun _ => ?_
    | with_reducible apply Dev.brdTick_sound
    | with_reducible refine Outcome.Sound.ok h_s ?_
    | with_reducible apply Dev.Sound.ite

theorem execSafeTwinTimeout_sound (conn : Fin 256) (s : State) (h_s : s.dev.Sound) :
    Outcome.Sound (execSafeTwinTimeout conn s) := by
  unfold execSafeTwinTimeout
  repeat' first
    | with_reducible assumption
    | refine fun _ => ?_
    | with_reducible apply Dev.twinTimeout_sound
    | with_reducible refine Outcome.Sound.ok h_s ?_

theorem execSafeConnWatchdog_sound (ring : Bool) (conn : Fin 256) (s : State) (h_s : s.dev.Sound) :
    Outcome.Sound (execSafeConnWatchdog ring conn s) := by
  unfold execSafeConnWatchdog
  repeat' first
    | with_reducible assumption
    | refine fun _ => ?_
    | with_reducible apply Dev.connWatchdog_sound
    | with_reducible refine Outcome.Sound.ok h_s ?_

theorem Dev.spsActivate_sound (d : Dev) (g : Grade) (x : SpsSet) (h_d : d.Sound) : Dev.Sound (Dev.spsActivate d g x) := by
  unfold Dev.spsActivate
  repeat' first
    | with_reducible assumption
    | refine fun _ => ?_
    | (extract_lets +onlyGivenNames -underBinder y; first
        | (refine Dev.Sound.part (P := ∀ z, y z = y z) (fun _ => ?_) (fun _ => rfl); subst y; beta_reduce)
        | (refine Dev.Sound.part (P := Dev.Sound (by apply y)) (fun _ => ?_) ?_ <;> [clear_value y; subst y])
        | clear_value y)
    | with_reducible apply Dev.commandOuts_sound
    | with_reducible apply Dev.connStart_sound
    | with_reducible apply Dev.demandAll_sound
    | with_reducible apply Dev.pdkSelftest_sound
    | exact Mem.wf_foldl (Mem.wf_filter (Dev.Sound.mem (by assumption)) _) (fun _ _ h => Mem.wf_putWord h _ _)
    | with_reducible apply Dev.Sound.w
    | with_reducible apply Dev.Sound.ite
    | with_reducible apply Dev.Sound.each
    | with_reducible apply Dev.Sound.mem
    | with_reducible refine Dev.Sound.updMem rfl ?_ ?_

theorem Dev.spsLoad_sound (d : Dev) (g : Grade) (off len : Nat) (v : Verdict) (recs : List (Nat × Nat)) (h_d : d.Sound) :
    Dev.Sound (Dev.spsLoad d g off len v recs).1 := by
  unfold Dev.spsLoad
  repeat' first
    | with_reducible assumption
    | (extract_lets +onlyGivenNames -underBinder y; first
        | (refine Dev.Sound.part (P := ∀ z, y z = y z) (fun _ => ?_) (fun _ => rfl); subst y; beta_reduce)
        | (refine Dev.Sound.part (P := Dev.Sound (by apply y)) (fun _ => ?_) ?_ <;> [clear_value y; subst y])
        | clear_value y)
    | with_reducible apply Dev.flag_sound
    | fail_if_no_progress (with_reducible refine Dev.Sound.upd rfl ?_)
    | with_reducible apply Dev.Sound.ite_fst

theorem execSpsLoad_sound (p : Packet) (v : Verdict) (recs : List (Nat × Nat)) (s : State) (h_s : s.dev.Sound) :
    Outcome.Sound (execSpsLoad p v recs s) := by
  unfold execSpsLoad
  repeat' first
    | with_reducible assumption
    | refine fun _ => ?_
    | with_reducible apply Dev.runPacket_sound
    | with_reducible apply Dev.spsLoad_sound
    | with_reducible refine Outcome.Sound.ok h_s ?_

theorem Dev.spsAccept_sound (d : Dev) (id crc : Nat) (h_d : d.Sound) : Dev.Sound (Dev.spsAccept d id crc).1 := by
  unfold Dev.spsAccept
  repeat' first
    | with_reducible assumption
    | (extract_lets +onlyGivenNames -underBinder y; clear_value y)
    | fail_if_no_progress (with_reducible refine Dev.Sound.upd rfl ?_)
    | with_reducible apply Dev.Sound.ite_fst
    | split

theorem execSpsAccept_sound (p : Packet) (s : State) (h_s : s.dev.Sound) : Outcome.Sound (execSpsAccept p s) := by
  unfold execSpsAccept
  repeat' first
    | with_reducible assumption
    | refine fun _ => ?_
    | with_reducible apply Dev.runPacket_sound
    | with_reducible apply Dev.spsAccept_sound
    | with_reducible refine Outcome.Sound.ok h_s ?_

theorem Dev.checkSignature_sound (d : Dev) (h_d : d.Sound) : Dev.Sound (Dev.checkSignature d) := by
  unfold Dev.checkSignature
  repeat' first
    | with_reducible assumption
    | (extract_lets +onlyGivenNames -underBinder y; first
        | (refine Dev.Sound.part (P := Dev.Sound (by apply y)) (fun _ => ?_) ?_ <;> [clear_value y; subst y])
        | clear_value y)
    | with_reducible apply Dev.flag_sound
    | with_reducible apply Dev.Sound.w
    | fail_if_no_progress (with_reducible refine Dev.Sound.upd rfl ?_)
    | with_reducible apply Dev.Sound.ite

theorem Dev.sampleEncoders_sound (d : Dev) (h_d : d.Sound) : Dev.Sound (Dev.sampleEncoders d) := by
  unfold Dev.sampleEncoders
  repeat' first
    | with_reducible assumption
    | (extract_lets +onlyGivenNames -underBinder y; clear_value y)
    | fail_if_no_progress (with_reducible refine Dev.Sound.upd rfl ?_)

theorem Dev.cycleEval_sound (d : Dev) (g : Grade) (h_d : d.Sound) : Dev.Sound (Dev.cycleEval d g) := by
  unfold Dev.cycleEval
  repeat' first
    | with_reducible assumption
    | refine fun _ => ?_
    | (extract_lets +onlyGivenNames -underBinder y; first
        | (refine Dev.Sound.part (P := Dev.Sound (by apply y)) (fun _ => ?_) ?_ <;> [clear_value y; subst y])
        | clear_value y)
    | with_reducible apply Dev.applyZones_sound
    | with_reducible apply Dev.brdRole_sound
    | with_reducible apply Dev.checkSignature_sound
    | with_reducible apply Dev.evalOuts_sound
    | with_reducible apply Dev.fnEval_sound
    | with_reducible apply Dev.sampleEncoders_sound
    | with_reducible apply Dev.spsActivate_sound
    | with_reducible apply Dev.zoneEval_sound
    | fail_if_no_progress (with_reducible refine Dev.Sound.upd rfl ?_)
    | with_reducible apply Dev.Sound.ite
    | with_reducible apply Dev.Sound.each
    | split

theorem execSafetyCycleEval_sound (s : State) (h_s : s.dev.Sound) : Outcome.Sound (execSafetyCycleEval s) := by
  unfold execSafetyCycleEval
  repeat' first
    | with_reducible assumption
    | refine fun _ => ?_
    | with_reducible apply Dev.cycleEval_sound
    | with_reducible apply Dev.pins_sound
    | with_reducible refine Outcome.Sound.ok h_s ?_

theorem execBridleEvalDeadline_sound (s : State) (h_s : s.dev.Sound) : Outcome.Sound (execBridleEvalDeadline s) := by
  unfold execBridleEvalDeadline
  repeat' first
    | with_reducible assumption
    | refine fun _ => ?_
    | (extract_lets +onlyGivenNames -underBinder y; clear_value y)
    | with_reducible apply Dev.brdSafe_sound
    | with_reducible refine Outcome.Sound.ok h_s ?_
    | with_reducible apply Dev.Sound.ite

theorem execBrdInfo_sound (p : Packet) (s : State) (h_s : s.dev.Sound) : Outcome.Sound (execBrdInfo p s) := by
  unfold execBrdInfo
  repeat' first
    | with_reducible assumption
    | refine fun _ => ?_
    | with_reducible apply Dev.runPacket_sound
    | with_reducible refine Outcome.Sound.ok h_s ?_

theorem execBrdFuncRead_sound (p : Packet) (s : State) (h_s : s.dev.Sound) : Outcome.Sound (execBrdFuncRead p s) := by
  unfold execBrdFuncRead
  repeat' first
    | with_reducible assumption
    | refine fun _ => ?_
    | with_reducible apply Dev.runPacket_sound
    | with_reducible refine Outcome.Sound.ok h_s ?_
    | split

theorem execBrdZoneRead_sound (p : Packet) (s : State) (h_s : s.dev.Sound) : Outcome.Sound (execBrdZoneRead p s) := by
  unfold execBrdZoneRead
  repeat' first
    | with_reducible assumption
    | refine fun _ => ?_
    | (extract_lets +onlyGivenNames -underBinder y; clear_value y)
    | with_reducible apply Dev.runPacket_sound
    | with_reducible refine Outcome.Sound.ok h_s ?_
    | with_reducible apply Dev.Sound.ite_fst

theorem execBrdIoRead_sound (p : Packet) (s : State) (h_s : s.dev.Sound) : Outcome.Sound (execBrdIoRead p s) := by
  unfold execBrdIoRead
  repeat' first
    | with_reducible assumption
    | refine fun _ => ?_
    | with_reducible apply Dev.runPacket_sound
    | with_reducible refine Outcome.Sound.ok h_s ?_

theorem execBrdConnRead_sound (p : Packet) (s : State) (h_s : s.dev.Sound) : Outcome.Sound (execBrdConnRead p s) := by
  unfold execBrdConnRead
  repeat' first
    | with_reducible assumption
    | refine fun _ => ?_
    | with_reducible apply Dev.runPacket_sound
    | with_reducible refine Outcome.Sound.ok h_s ?_
    | with_reducible apply Dev.Sound.ite_fst
    | split

theorem Dev.resetFunction_sound (d : Dev) (f : Nat) (h_d : d.Sound) : Dev.Sound (Dev.resetFunction d f).1 := by
  unfold Dev.resetFunction
  repeat' first
    | with_reducible assumption
    | with_reducible apply Dev.clearInputs_sound
    | with_reducible apply Dev.setFx_sound
    | with_reducible apply Dev.Sound.ite_fst

theorem execBrdReset_sound (p : Packet) (s : State) (h_s : s.dev.Sound) : Outcome.Sound (execBrdReset p s) := by
  unfold execBrdReset
  repeat' first
    | with_reducible assumption
    | refine fun _ => ?_
    | (extract_lets +onlyGivenNames -underBinder y; first
        | (refine Dev.Sound.part (P := Dev.Sound y.1) (fun _ => ?_) ?_ <;> [clear_value y; subst y])
        | clear_value y)
    | with_reducible apply Dev.resetFunction_sound
    | with_reducible apply Dev.runPacket_sound
    | with_reducible refine Outcome.Sound.ok h_s ?_
    | with_reducible apply Dev.Sound.ite_fst
    | with_reducible apply Dev.Sound.foldl_fst

theorem execBrdConnRestart_sound (p : Packet) (s : State) (h_s : s.dev.Sound) : Outcome.Sound (execBrdConnRestart p s) := by
  unfold execBrdConnRestart
  repeat' first
    | with_reducible assumption
    | refine fun _ => ?_
    | with_reducible apply Dev.connStart_sound
    | with_reducible apply Dev.runPacket_sound
    | with_reducible refine Outcome.Sound.ok h_s ?_
    | with_reducible apply Dev.Sound.ite_fst
    | split

/-! ### Machine/Sage.lean -/

theorem Dev.giveKnots_sound (d : Dev) (c : Nat) (x : List Nat) (w : Nat) (h_d : d.Sound) : Dev.Sound (Dev.giveKnots d c x w) := by
  unfold Dev.giveKnots
  repeat' first
    | with_reducible assumption
    | refine fun _ => ?_
    | (extract_lets +onlyGivenNames -underBinder y; first
        | (refine Dev.Sound.part (P := ∀ z, y z = y z) (fun _ => ?_) (fun _ => rfl); subst y; beta_reduce)
        | clear_value y)
    | with_reducible apply Dev.setPx_sound
    | with_reducible apply Dev.Sound.each

theorem Dev.sagePublish_sound (d : Dev) (cycle bound endNs : Nat) (warm : Bool) (iters lanes : Nat) (o : SageOut)
    (h_d : d.Sound) :
    Dev.Sound (Dev.sagePublish d cycle bound endNs warm iters lanes o) := by
  unfold Dev.sagePublish
  repeat' first
    | with_reducible assumption
    | (extract_lets +onlyGivenNames -underBinder y; first
        | (refine Dev.Sound.part (P := ∀ z, y z = y z) (fun _ => ?_) (fun _ => rfl); subst y; beta_reduce)
        | (refine Dev.Sound.part (P := Dev.Sound (by apply y)) (fun _ => ?_) ?_ <;> [clear_value y; subst y])
        | clear_value y)
    | with_reducible apply Dev.flag_sound
    | with_reducible apply Dev.flagIf_sound
    | with_reducible apply Dev.giveKnots_sound
    | with_reducible apply Dev.inc_sound
    | with_reducible apply Dev.publish_sound
    | with_reducible apply Dev.reach_sound
    | with_reducible apply Dev.wb_sound
    | with_reducible apply Dev.wmax_sound
    | with_reducible apply Dev.Sound.w
    | fail_if_no_progress (with_reducible refine Dev.Sound.upd rfl ?_)
    | with_reducible apply Dev.Sound.ite

theorem Dev.sageMiss_sound (d : Dev) (endNs : Nat) (h_d : d.Sound) : Dev.Sound (Dev.sageMiss d endNs) := by
  unfold Dev.sageMiss
  repeat' first
    | with_reducible assumption
    | (extract_lets +onlyGivenNames -underBinder y;
       refine Dev.Sound.part (P := ∀ z, y z = y z) (fun _ => ?_) (fun _ => rfl); subst y; beta_reduce)
    | with_reducible apply Dev.incWrap_sound
    | with_reducible apply Dev.sagePublish_sound
    | with_reducible apply Dev.Sound.ite
    | split

theorem Dev.sageSingular_sound (d : Dev) (endNs affected : Nat) (small inertia overflow : Bool) (h_d : d.Sound) :
    Dev.Sound (Dev.sageSingular d endNs affected small inertia overflow) := by
  unfold Dev.sageSingular
  repeat' first
    | with_reducible assumption
    | (extract_lets +onlyGivenNames -underBinder y; clear_value y)
    | with_reducible apply Dev.incWrap_sound
    | with_reducible apply Dev.sagePublish_sound
    | with_reducible apply Dev.Sound.ite
    | split

theorem Dev.sageSolved_sound (d : Dev) (p : SageProb) (r : SageResid) (endNs : Nat) (h_d : d.Sound) :
    Dev.Sound (Dev.sageSolved d p r endNs) := by
  unfold Dev.sageSolved
  repeat' first
    | with_reducible assumption
    | (extract_lets +onlyGivenNames -underBinder y; clear_value y)
    | with_reducible apply Dev.sagePublish_sound
    | with_reducible apply Dev.Sound.w
    | split

theorem Dev.structSwitch_sound (d : Dev) (g : Grade) (c : Nat) (h_d : d.Sound) : Dev.Sound (Dev.structSwitch d g c) := by
  unfold Dev.structSwitch
  repeat' first
    | with_reducible assumption
    | refine fun _ => ?_
    | (extract_lets +onlyGivenNames -underBinder y; first
        | (refine Dev.Sound.part (P := Dev.Sound (by apply y)) (fun _ => ?_) ?_ <;> [clear_value y; subst y])
        | clear_value y)
    | with_reducible apply Dev.flag_sound
    | with_reducible apply Dev.setPx_sound
    | with_reducible apply Dev.Sound.w
    | fail_if_no_progress (with_reducible refine Dev.Sound.upd rfl ?_)
    | with_reducible apply Dev.Sound.ite
    | with_reducible apply Dev.Sound.each
    | split

theorem Dev.countStale_sound (d : Dev) (n : Nat) (h_d : d.Sound) : Dev.Sound (Dev.countStale d n) := by
  unfold Dev.countStale
  repeat' first
    | with_reducible assumption
    | with_reducible apply Dev.add_sound
    | with_reducible apply Dev.flag_sound
    | with_reducible apply Dev.Sound.ite

theorem Dev.applyDeltas_sound (d : Dev) (h_d : d.Sound) : Dev.Sound (Dev.applyDeltas d).1 := by
  unfold Dev.applyDeltas
  repeat' first
    | with_reducible assumption
    | (extract_lets +onlyGivenNames -underBinder y; first
        | (refine Dev.Sound.part (P := Dev.Sound (by apply y)) (fun _ => ?_) ?_ <;> [clear_value y; subst y])
        | clear_value y)
    | with_reducible apply Dev.countStale_sound
    | with_reducible apply Dev.Sound.w
    | fail_if_no_progress (with_reducible refine Dev.Sound.upd rfl ?_)

theorem Dev.applyBindings_sound (d : Dev) (t : SageStruct) (n : Nat) (h_d : d.Sound) : Dev.Sound (Dev.applyBindings d t n) := by
  unfold Dev.applyBindings
  repeat' first
    | with_reducible assumption
    | refine fun _ => ?_
    | (extract_lets +onlyGivenNames -underBinder y; clear_value y)
    | fail_if_no_progress (with_reducible refine Dev.Sound.upd rfl ?_)
    | with_reducible apply Dev.Sound.each

theorem Dev.startPoint_sound (d : Dev) (p : SageProb) (push : Nat) (h_d : d.Sound) : Dev.Sound (Dev.startPoint d p push).1 := by
  unfold Dev.startPoint
  repeat' first
    | with_reducible assumption
    | (extract_lets +onlyGivenNames -underBinder y; first
        | (refine Dev.Sound.part (P := ∀ z, y z = y z) (fun _ => ?_) (fun _ => rfl); subst y; beta_reduce)
        | clear_value y)
    | with_reducible apply Dev.flag_sound
    | with_reducible apply Dev.inc_sound
    | with_reducible apply Dev.Sound.ite_fst
    | split

theorem Dev.sageLatch_sound (d : Dev) (g : Grade) (memErr : Bool) (h_d : d.Sound) : Dev.Sound (Dev.sageLatch d g memErr) := by
  unfold Dev.sageLatch
  repeat' first
    | with_reducible assumption
    | (extract_lets +onlyGivenNames -underBinder y; first
        | (refine Dev.Sound.part (P := Dev.Sound (by apply y)) (fun _ => ?_) ?_ <;> [clear_value y; subst y])
        | clear_value y)
    | with_reducible apply Dev.applyBindings_sound
    | with_reducible apply Dev.applyDeltas_sound
    | with_reducible apply Dev.flag_sound
    | with_reducible apply Dev.sageMiss_sound
    | with_reducible apply Dev.sagePublish_sound
    | with_reducible apply Dev.sageSolved_sound
    | with_reducible apply Dev.startPoint_sound
    | with_reducible apply Dev.structSwitch_sound
    | with_reducible apply Dev.wb_sound
    | with_reducible apply Dev.Sound.w
    | fail_if_no_progress (with_reducible refine Dev.Sound.upd rfl ?_)
    | with_reducible apply Dev.Sound.ite
    | split

theorem execSageLatch_sound (memErr : Bool) (s : State) (h_s : s.dev.Sound) : Outcome.Sound (execSageLatch memErr s) := by
  unfold execSageLatch
  repeat' first
    | with_reducible assumption
    | refine fun _ => ?_
    | with_reducible apply Dev.sageLatch_sound
    | with_reducible refine Outcome.Sound.ok h_s ?_

theorem Dev.sageIteration_sound (d : Dev) (g : Grade) (memErr : Bool) (h_d : d.Sound) :
    Dev.Sound (Dev.sageIteration d g memErr) := by
  unfold Dev.sageIteration
  repeat' first
    | with_reducible assumption
    | (extract_lets +onlyGivenNames -underBinder y; first
        | (refine Dev.Sound.part (P := Dev.Sound (by apply y)) (fun _ => ?_) ?_ <;> [clear_value y; subst y])
        | clear_value y)
    | with_reducible apply Dev.reach_sound
    | with_reducible apply Dev.sageMiss_sound
    | with_reducible apply Dev.sagePublish_sound
    | with_reducible apply Dev.sageSingular_sound
    | with_reducible apply Dev.sageSolved_sound
    | with_reducible apply Dev.Sound.w
    | fail_if_no_progress (with_reducible refine Dev.Sound.upd rfl ?_)
    | with_reducible apply Dev.Sound.ite
    | split

theorem execSageIteration_sound (memErr : Bool) (s : State) (h_s : s.dev.Sound) : Outcome.Sound (execSageIteration memErr s) := by
  unfold execSageIteration
  repeat' first
    | with_reducible assumption
    | refine fun _ => ?_
    | with_reducible apply Dev.sageIteration_sound
    | with_reducible refine Outcome.Sound.ok h_s ?_

theorem Dev.sageDeadline_sound (d : Dev) (h_d : d.Sound) : Dev.Sound (Dev.sageDeadline d) := by
  unfold Dev.sageDeadline
  repeat' first
    | with_reducible assumption
    | with_reducible apply Dev.sageMiss_sound
    | split

theorem execSageSolveDeadline_sound (s : State) (h_s : s.dev.Sound) : Outcome.Sound (execSageSolveDeadline s) := by
  unfold execSageSolveDeadline
  repeat' first
    | with_reducible assumption
    | refine fun _ => ?_
    | with_reducible apply Dev.sageDeadline_sound
    | with_reducible refine Outcome.Sound.ok h_s ?_

theorem Dev.sageAnalysed_sound (d : Dev) (g : Grade) (h_d : d.Sound) : Dev.Sound (Dev.sageAnalysed d g) := by
  unfold Dev.sageAnalysed
  repeat' first
    | with_reducible assumption
    | (extract_lets +onlyGivenNames -underBinder y; clear_value y)
    | with_reducible apply Dev.Sound.w
    | fail_if_no_progress (with_reducible refine Dev.Sound.upd rfl ?_)
    | with_reducible apply Dev.Sound.ite

theorem execSageAnalysisDone_sound (s : State) (h_s : s.dev.Sound) : Outcome.Sound (execSageAnalysisDone s) := by
  unfold execSageAnalysisDone
  repeat' first
    | with_reducible assumption
    | refine fun _ => ?_
    | with_reducible apply Dev.sageAnalysed_sound
    | with_reducible refine Outcome.Sound.ok h_s ?_

theorem Dev.sageCtrlWrite_sound (d : Dev) (v : Nat) (h_d : d.Sound) : Dev.Sound (Dev.sageCtrlWrite d v) := by
  unfold Dev.sageCtrlWrite
  repeat' first
    | with_reducible assumption
    | with_reducible apply Dev.flagIf_sound
    | with_reducible apply Dev.Sound.w

theorem execSageCtrlColdNext_sound (path : Path) (v : Word) (s : State) (h_s : s.dev.Sound) :
    Outcome.Sound (execSageCtrlColdNext path v s) := by
  unfold execSageCtrlColdNext
  repeat' first
    | with_reducible assumption
    | refine fun _ => ?_
    | with_reducible apply Dev.access_sound
    | with_reducible apply Dev.sageCtrlWrite_sound
    | with_reducible refine Outcome.Sound.ok h_s ?_

theorem Dev.sageIterWrite_sound (d : Dev) (v : Nat) (h_d : d.Sound) : Dev.Sound (Dev.sageIterWrite d v) := by
  unfold Dev.sageIterWrite
  repeat' first
    | with_reducible assumption
    | (extract_lets +onlyGivenNames -underBinder y; first
        | (refine Dev.Sound.part (P := Dev.Sound (by apply y)) (fun _ => ?_) ?_ <;> [clear_value y; subst y])
        | clear_value y)
    | with_reducible apply Dev.flag_sound
    | with_reducible apply Dev.Sound.w
    | with_reducible apply Dev.Sound.ite

theorem Dev.sageParamWrite_sound (d : Dev) (o v : Nat) (h_d : d.Sound) : Dev.Sound (Dev.sageParamWrite d o v) := by
  unfold Dev.sageParamWrite
  repeat' first
    | with_reducible assumption
    | (extract_lets +onlyGivenNames -underBinder y; clear_value y)
    | with_reducible apply Dev.flag_sound
    | with_reducible apply Dev.Sound.w
    | fail_if_no_progress (with_reducible refine Dev.Sound.upd rfl ?_)
    | with_reducible apply Dev.Sound.ite

theorem execSageInfo_sound (p : Packet) (s : State) (h_s : s.dev.Sound) : Outcome.Sound (execSageInfo p s) := by
  unfold execSageInfo
  repeat' first
    | with_reducible assumption
    | refine fun _ => ?_
    | with_reducible apply Dev.runPacket_sound
    | with_reducible refine Outcome.Sound.ok h_s ?_

theorem Dev.structLoad_sound (d : Dev) (off len : Nat) (h_d : d.Sound) : Dev.Sound (Dev.structLoad d off len).1 := by
  unfold Dev.structLoad
  repeat' first
    | with_reducible assumption
    | (extract_lets +onlyGivenNames -underBinder y; first
        | (refine Dev.Sound.part (P := Dev.Sound (by apply y)) (fun _ => ?_) ?_ <;> [clear_value y; subst y])
        | clear_value y)
    | with_reducible apply Dev.flag_sound
    | with_reducible apply Dev.Sound.w
    | fail_if_no_progress (with_reducible refine Dev.Sound.upd rfl ?_)
    | with_reducible apply Dev.Sound.ite_fst

theorem execSageStructLoad_sound (p : Packet) (s : State) (h_s : s.dev.Sound) : Outcome.Sound (execSageStructLoad p s) := by
  unfold execSageStructLoad
  repeat' first
    | with_reducible assumption
    | refine fun _ => ?_
    | with_reducible apply Dev.runPacket_sound
    | with_reducible apply Dev.structLoad_sound
    | with_reducible refine Outcome.Sound.ok h_s ?_

theorem execSageStructCommit_sound (p : Packet) (s : State) (h_s : s.dev.Sound) : Outcome.Sound (execSageStructCommit p s) := by
  unfold execSageStructCommit
  repeat' first
    | with_reducible assumption
    | refine fun _ => ?_
    | (extract_lets +onlyGivenNames -underBinder y; clear_value y)
    | with_reducible apply Dev.flag_sound
    | with_reducible apply Dev.runPacket_sound
    | with_reducible refine Outcome.Sound.ok h_s ?_
    | with_reducible apply Dev.Sound.w
    | with_reducible apply Dev.Sound.ite_fst

theorem Dev.postDeltas_sound (d : Dev) (id : Nat) (es : List SageDelta) (h_d : d.Sound) :
    Dev.Sound (Dev.postDeltas d id es).1 := by
  unfold Dev.postDeltas
  repeat' first
    | with_reducible assumption
    | (extract_lets +onlyGivenNames -underBinder y; first
        | (refine Dev.Sound.part (P := ∀ z, y z = y z) (fun _ => ?_) (fun _ => rfl); subst y; beta_reduce)
        | (refine Dev.Sound.part (P := Dev.Sound (by apply y)) (fun _ => ?_) ?_ <;> [clear_value y; subst y])
        | clear_value y)
    | with_reducible apply Dev.countStale_sound
    | with_reducible apply Dev.flag_sound
    | with_reducible apply Dev.inc_sound
    | with_reducible apply Dev.Sound.w
    | fail_if_no_progress (with_reducible refine Dev.Sound.upd rfl ?_)
    | with_reducible apply Dev.Sound.ite_fst
    | split

theorem execSageDelta_sound (p : Packet) (s : State) (h_s : s.dev.Sound) : Outcome.Sound (execSageDelta p s) := by
  unfold execSageDelta
  repeat' first
    | with_reducible assumption
    | refine fun _ => ?_
    | with_reducible apply Dev.postDeltas_sound
    | with_reducible apply Dev.runPacket_sound
    | with_reducible refine Outcome.Sound.ok h_s ?_
    | with_reducible apply Dev.Sound.ite_fst

theorem execSageRead_sound (p : Packet) (s : State) (h_s : s.dev.Sound) : Outcome.Sound (execSageRead p s) := by
  unfold execSageRead
  repeat' first
    | with_reducible assumption
    | refine fun _ => ?_
    | (extract_lets +onlyGivenNames -underBinder y; clear_value y)
    | with_reducible apply Dev.runPacket_sound
    | with_reducible refine Outcome.Sound.ok h_s ?_
    | split

theorem execSageCold_sound (p : Packet) (s : State) (h_s : s.dev.Sound) : Outcome.Sound (execSageCold p s) := by
  unfold execSageCold
  repeat' first
    | with_reducible assumption
    | refine fun _ => ?_
    | with_reducible apply Dev.flag_sound
    | with_reducible apply Dev.runPacket_sound
    | with_reducible refine Outcome.Sound.ok h_s ?_

/-! ### Machine/PairSnap.lean -/

theorem Dev.loadTeam_sound (d : Dev) (t : Nat) (s : TeamShadow) (h_d : d.Sound) : Dev.Sound (Dev.loadTeam d t s) := by
  unfold Dev.loadTeam
  repeat' first
    | with_reducible assumption
    | (extract_lets +onlyGivenNames -underBinder y; first
        | (refine Dev.Sound.part (P := Dev.Sound (by apply y)) (fun _ => ?_) ?_ <;> [clear_value y; subst y])
        | clear_value y)
    | with_reducible apply Dev.setSto_sound
    | with_reducible apply Dev.setTx_sound
    | with_reducible apply Dev.wb_sound
    | with_reducible apply Dev.Sound.w
    | with_reducible apply Dev.Sound.ite

theorem Dev.loadShadow_sound (d : Dev) (s : Shadow) (h_d : d.Sound) : Dev.Sound (Dev.loadShadow d s) := by
  unfold Dev.loadShadow
  repeat' first
    | with_reducible assumption
    | refine fun _ => ?_
    | (extract_lets +onlyGivenNames -underBinder y; first
        | (refine Dev.Sound.part (P := Dev.Sound (by apply y)) (fun _ => ?_) ?_ <;> [clear_value y; subst y])
        | clear_value y)
    | with_reducible apply Dev.loadTeam_sound
    | fail_if_no_progress (with_reducible refine Dev.Sound.upd rfl ?_)
    | with_reducible apply Dev.Sound.each

theorem Dev.putRegion_sound (d : Dev) (r : AppRegion) (x : Mem) (h_d : d.Sound) : Dev.Sound (Dev.putRegion d r x) := by
  unfold Dev.putRegion
  repeat' first
    | with_reducible assumption
    | (extract_lets +onlyGivenNames -underBinder y; clear_value y)
    | with_reducible apply Dev.setCore_sound
    | split
    | with_reducible apply Dev.Sound.mem
    | with_reducible refine Dev.Sound.updMem rfl ?_ ?_

theorem Dev.sendSnapshot_sound (d : Dev) (n : Nat) (h_d : d.Sound) : Dev.Sound (Dev.sendSnapshot d n) := by
  unfold Dev.sendSnapshot
  repeat' first
    | with_reducible assumption
    | (extract_lets +onlyGivenNames -underBinder y; clear_value y)
    | with_reducible apply Dev.Sound.w
    | fail_if_no_progress (with_reducible refine Dev.Sound.upd rfl ?_)

theorem Dev.snapshotDue_sound (d : Dev) (n : Nat) (h_d : d.Sound) : Dev.Sound (Dev.snapshotDue d n) := by
  unfold Dev.snapshotDue
  repeat' first
    | with_reducible assumption
    | with_reducible apply Dev.flag_sound
    | with_reducible apply Dev.sendSnapshot_sound
    | with_reducible apply Dev.Sound.ite

theorem Dev.restoreRecords_sound (d : Dev) (s : Snapshot) (h_d : d.Sound) : Dev.Sound (Dev.restoreRecords d s) :=
  ⟨Regs.wf_foldl (Regs.wf_filter h_d.regs _) (fun _ _ h => Regs.wf_set h _ _ _), h_d.frontRegs,
    Mem.wf_foldl (Mem.wf_filter h_d.mem _) (fun _ _ h => Mem.wf_set h _ _)⟩

theorem Dev.restoreConn_sound (d : Dev) (c : Nat) (s : ConnSnap) (h_d : d.Sound) : Dev.Sound (Dev.restoreConn d c s) := by
  unfold Dev.restoreConn
  repeat' first
    | with_reducible assumption
    | (extract_lets +onlyGivenNames -underBinder y; clear_value y)
    | with_reducible apply Dev.setConn_sound

theorem Dev.restoreEngines_sound (d : Dev) (s : Snapshot) (h_d : d.Sound) : Dev.Sound (Dev.restoreEngines d s) := by
  unfold Dev.restoreEngines
  repeat' first
    | with_reducible assumption
    | refine fun _ => ?_
    | (extract_lets +onlyGivenNames -underBinder y; first
        | (refine Dev.Sound.part (P := Dev.Sound (by apply y)) (fun _ => ?_) ?_ <;> [clear_value y; subst y])
        | clear_value y)
    | with_reducible apply Dev.wb_sound
    | with_reducible apply Dev.Sound.w
    | fail_if_no_progress (with_reducible refine Dev.Sound.upd rfl ?_)
    | with_reducible apply Dev.Sound.each

theorem Dev.restoreRest_sound (d : Dev) (s : Snapshot) (h_d : d.Sound) : Dev.Sound (Dev.restoreRest d s) := by
  unfold Dev.restoreRest
  repeat' first
    | with_reducible assumption
    | refine fun _ => ?_
    | (extract_lets +onlyGivenNames -underBinder y; first
        | (refine Dev.Sound.part (P := Dev.Sound (by apply y)) (fun _ => ?_) ?_ <;> [clear_value y; subst y])
        | (refine Dev.Sound.part (P := EpochState.frontRegs y = EpochState.frontRegs y) (fun _ => ?_) rfl; subst y))
    | with_reducible apply Dev.putRegion_sound
    | with_reducible apply Dev.restoreConn_sound
    | with_reducible apply Dev.Sound.w
    | fail_if_no_progress (with_reducible refine Dev.Sound.upd rfl ?_)
    | with_reducible apply Dev.Sound.each
    | split

theorem Dev.restore_sound (d : Dev) (g : Grade) (h_d : d.Sound) : Dev.Sound (Dev.restore d g) := by
  unfold Dev.restore
  repeat' first
    | with_reducible assumption
    | (extract_lets +onlyGivenNames -underBinder y; first
        | (refine Dev.Sound.part (P := Dev.Sound (by apply y)) (fun _ => ?_) ?_ <;> [clear_value y; subst y])
        | clear_value y)
    | with_reducible apply Dev.pdkSelftest_sound
    | with_reducible apply Dev.restoreEngines_sound
    | with_reducible apply Dev.restoreRecords_sound
    | with_reducible apply Dev.restoreRest_sound
    | with_reducible apply Dev.trcDrop_sound
    | fail_if_no_progress (with_reducible refine Dev.Sound.upd rfl ?_)
    | with_reducible apply Dev.Sound.ite
    | split

/-! ### Machine/Pair.lean -/

theorem Dev.stopEngines_sound (d : Dev) (h_d : d.Sound) : Dev.Sound (Dev.stopEngines d) := by
  unfold Dev.stopEngines
  repeat' first
    | with_reducible assumption
    | refine fun _ => ?_
    | (extract_lets +onlyGivenNames -underBinder y; first
        | (refine Dev.Sound.part (P := Dev.Sound (by apply y)) (fun _ => ?_) ?_ <;> [clear_value y; subst y])
        | clear_value y)
    | with_reducible apply Dev.setDescState_sound
    | with_reducible apply Dev.trcDrop_sound
    | with_reducible apply Dev.Sound.w
    | fail_if_no_progress (with_reducible refine Dev.Sound.upd rfl ?_)
    | with_reducible apply Dev.Sound.each

theorem Dev.emptyFront_sound (d : Dev) (h_d : d.Sound) : Dev.Sound (Dev.emptyFront d) := by
  unfold Dev.emptyFront
  dsimp only
  repeat' first
    | with_reducible assumption
    | with_reducible apply Dev.Sound.w
    | fail_if_no_progress (with_reducible refine Dev.Sound.upd rfl ?_)

theorem Dev.becomeStandby_sound (d : Dev) (h_d : d.Sound) : Dev.Sound (Dev.becomeStandby d) := by
  unfold Dev.becomeStandby
  repeat' first
    | with_reducible assumption
    | (extract_lets +onlyGivenNames -underBinder y; first
        | (refine Dev.Sound.part (P := Dev.Sound (by apply y)) (fun _ => ?_) ?_ <;> [clear_value y; subst y])
        | clear_value y)
    | with_reducible apply Dev.brdEnter_sound
    | with_reducible apply Dev.emptyFront_sound
    | with_reducible apply Dev.pairEnter_sound
    | with_reducible apply Dev.pins_sound
    | with_reducible apply Dev.stopEngines_sound
    | with_reducible apply Dev.Sound.w
    | fail_if_no_progress (with_reducible refine Dev.Sound.upd rfl ?_)
    | with_reducible apply Dev.Sound.ite

theorem Dev.coldClaim_sound (d : Dev) (h_d : d.Sound) : Dev.Sound (Dev.coldClaim d) := by
  unfold Dev.coldClaim
  repeat' first
    | with_reducible assumption
    | (extract_lets +onlyGivenNames -underBinder y; first
        | (refine Dev.Sound.part (P := Dev.Sound (by apply y)) (fun _ => ?_) ?_ <;> [clear_value y; subst y])
        | clear_value y)
    | with_reducible apply Dev.pairEnter_sound
    | with_reducible apply Dev.reinClaim_sound
    | with_reducible apply Dev.Sound.w
    | fail_if_no_progress (with_reducible refine Dev.Sound.upd rfl ?_)

theorem Dev.pairDecide_sound (d : Dev) (h_d : d.Sound) : Dev.Sound (Dev.pairDecide d) := by
  unfold Dev.pairDecide
  repeat' first
    | with_reducible assumption
    | (extract_lets +onlyGivenNames -underBinder y;
       refine Dev.Sound.part (P := Dev.Sound (by apply y)) (fun _ => ?_) ?_ <;> [clear_value y; subst y])
    | with_reducible apply Dev.becomeStandby_sound
    | with_reducible apply Dev.coldClaim_sound
    | with_reducible apply Dev.pairEnter_sound
    | with_reducible apply Dev.Sound.w
    | with_reducible apply Dev.Sound.ite

theorem execStartWaitExpire_sound (s : State) (h_s : s.dev.Sound) : Outcome.Sound (execStartWaitExpire s) := by
  unfold execStartWaitExpire
  repeat' first
    | with_reducible assumption
    | refine fun _ => ?_
    | with_reducible apply Dev.coldClaim_sound
    | with_reducible refine Outcome.Sound.ok h_s ?_
    | with_reducible apply Dev.Sound.ite

theorem Dev.showReady_sound (d : Dev) (h_d : d.Sound) : Dev.Sound (Dev.showReady d) := by
  unfold Dev.showReady
  repeat' first
    | with_reducible assumption
    | (extract_lets +onlyGivenNames -underBinder y; first
        | (refine Dev.Sound.part (P := Dev.Sound (by apply y)) (fun _ => ?_) ?_ <;> [clear_value y; subst y])
        | clear_value y)
    | with_reducible apply Dev.wb_sound
    | with_reducible apply Dev.Sound.w
    | fail_if_no_progress (with_reducible refine Dev.Sound.upd rfl ?_)
    | with_reducible apply Dev.Sound.ite

theorem Dev.dropPartial_sound (d : Dev) (h_d : d.Sound) : Dev.Sound (Dev.dropPartial d) := by
  unfold Dev.dropPartial
  repeat' first
    | with_reducible assumption
    | (extract_lets +onlyGivenNames -underBinder y; clear_value y)
    | with_reducible apply Dev.inc_sound
    | fail_if_no_progress (with_reducible refine Dev.Sound.upd rfl ?_)
    | with_reducible apply Dev.Sound.ite

theorem Dev.takeOver_sound (d : Dev) (h_d : d.Sound) : Dev.Sound (Dev.takeOver d) := by
  unfold Dev.takeOver
  repeat' first
    | with_reducible assumption
    | refine fun _ => ?_
    | (extract_lets +onlyGivenNames -underBinder y; first
        | (refine Dev.Sound.part (P := Dev.Sound (by apply y)) (fun _ => ?_) ?_ <;> [clear_value y; subst y])
        | (refine Dev.Sound.part (P := EpochState.frontRegs y = EpochState.frontRegs y) (fun _ => ?_) rfl; subst y)
        | clear_value y)
    | with_reducible apply Dev.dropPartial_sound
    | with_reducible apply Dev.inc_sound
    | with_reducible apply Dev.pairEnter_sound
    | with_reducible apply Dev.reach_sound
    | with_reducible apply Dev.reinClaim_sound
    | with_reducible apply Dev.setRp_sound
    | with_reducible apply Dev.Sound.w
    | fail_if_no_progress (with_reducible refine Dev.Sound.upd rfl ?_)
    | with_reducible apply Dev.Sound.each

theorem Dev.peerFall_sound (d : Dev) (h_d : d.Sound) : Dev.Sound (Dev.peerFall d) := by
  unfold Dev.peerFall
  repeat' first
    | with_reducible assumption
    | (extract_lets +onlyGivenNames -underBinder y;
       refine Dev.Sound.part (P := Dev.Sound (by apply y)) (fun _ => ?_) ?_ <;> [clear_value y; subst y])
    | with_reducible apply Dev.dropPartial_sound
    | with_reducible apply Dev.flag_sound
    | with_reducible apply Dev.showReady_sound
    | with_reducible apply Dev.takeOver_sound
    | with_reducible apply Dev.Sound.w
    | with_reducible apply Dev.Sound.ite

theorem execReinPeerFall_sound (s : State) (h_s : s.dev.Sound) : Outcome.Sound (execReinPeerFall s) := by
  unfold execReinPeerFall
  repeat' first
    | with_reducible assumption
    | refine fun _ => ?_
    | with_reducible apply Dev.peerFall_sound
    | with_reducible refine Outcome.Sound.ok h_s ?_

theorem Dev.peerRise_sound (d : Dev) (h_d : d.Sound) : Dev.Sound (Dev.peerRise d) := by
  unfold Dev.peerRise
  repeat' first
    | with_reducible assumption
    | (extract_lets +onlyGivenNames -underBinder y; first
        | (refine Dev.Sound.part (P := Dev.Sound (by apply y)) (fun _ => ?_) ?_ <;> [clear_value y; subst y])
        | clear_value y)
    | with_reducible apply Dev.becomeStandby_sound
    | with_reducible apply Dev.reinFall_sound
    | with_reducible apply Dev.setDriving_sound
    | with_reducible apply Dev.Sound.w
    | with_reducible apply Dev.Sound.ite

theorem execReinPeerRise_sound (s : State) (h_s : s.dev.Sound) : Outcome.Sound (execReinPeerRise s) := by
  unfold execReinPeerRise
  repeat' first
    | with_reducible assumption
    | refine fun _ => ?_
    | with_reducible apply Dev.peerRise_sound
    | with_reducible refine Outcome.Sound.ok h_s ?_

theorem Dev.reinWatchdog_sound (d : Dev) (h_d : d.Sound) : Dev.Sound (Dev.reinWatchdog d) := by
  unfold Dev.reinWatchdog
  repeat' first
    | with_reducible assumption
    | (extract_lets +onlyGivenNames -underBinder y; clear_value y)
    | with_reducible apply Dev.reach_sound
    | with_reducible apply Dev.reinFall_sound
    | with_reducible apply Dev.Sound.ite

theorem execReinWatchdog_sound (s : State) (h_s : s.dev.Sound) : Outcome.Sound (execReinWatchdog s) := by
  unfold execReinWatchdog
  repeat' first
    | with_reducible assumption
    | refine fun _ => ?_
    | with_reducible apply Dev.reinWatchdog_sound
    | with_reducible refine Outcome.Sound.ok h_s ?_

theorem Dev.farrierFault_sound (d : Dev) (h_d : d.Sound) : Dev.Sound (Dev.farrierFault d) := by
  unfold Dev.farrierFault
  repeat' first
    | with_reducible assumption
    | with_reducible apply Dev.moduleReset_sound
    | with_reducible apply Dev.reinFall_sound
    | with_reducible apply Dev.Sound.ite

theorem execFarrierFault_sound (s : State) (h_s : s.dev.Sound) : Outcome.Sound (execFarrierFault s) := by
  unfold execFarrierFault
  repeat' first
    | with_reducible assumption
    | refine fun _ => ?_
    | with_reducible apply Dev.farrierFault_sound
    | with_reducible refine Outcome.Sound.ok h_s ?_

theorem Dev.driveStart_sound (d : Dev) (h_d : d.Sound) : Dev.Sound (Dev.driveStart d) := by
  unfold Dev.driveStart
  repeat' first
    | with_reducible assumption
    | with_reducible apply Dev.reach_sound
    | with_reducible apply Dev.setDriving_sound
    | with_reducible apply Dev.Sound.ite

theorem execFieldDieDriveStart_sound (s : State) (h_s : s.dev.Sound) : Outcome.Sound (execFieldDieDriveStart s) := by
  unfold execFieldDieDriveStart
  repeat' first
    | with_reducible assumption
    | refine fun _ => ?_
    | with_reducible apply Dev.driveStart_sound
    | with_reducible refine Outcome.Sound.ok h_s ?_

theorem Dev.tackTake_sound (d : Dev) (crcOk : Bool) (f : Dev → Dev)
    (h_d : d.Sound) (h_f : ∀ z0, Dev.Sound z0 → Dev.Sound (f z0)) :
    Dev.Sound (Dev.tackTake d crcOk f) := by
  unfold Dev.tackTake
  repeat' first
    | with_reducible assumption
    | with_reducible apply Dev.inc_sound
    | with_reducible apply Dev.Sound.ite
    | with_reducible apply h_f

theorem Dev.compareDemand_sound (d : Dev) (h : Health) (h_d : d.Sound) : Dev.Sound (Dev.compareDemand d h) := by
  unfold Dev.compareDemand
  repeat' first
    | with_reducible assumption
    | (extract_lets +onlyGivenNames -underBinder y; first
        | (refine Dev.Sound.part (P := Dev.Sound (by apply y)) (fun _ => ?_) ?_ <;> [clear_value y; subst y])
        | clear_value y)
    | with_reducible apply Dev.flag_sound
    | with_reducible apply Dev.inc_sound
    | with_reducible apply Dev.Sound.w
    | fail_if_no_progress (with_reducible refine Dev.Sound.upd rfl ?_)
    | with_reducible apply Dev.Sound.ite

theorem Dev.partnerHealth_sound (d : Dev) (h : Health) (h_d : d.Sound) : Dev.Sound (Dev.partnerHealth d h) := by
  unfold Dev.partnerHealth
  dsimp only
  repeat' first
    | with_reducible assumption
    | with_reducible apply Dev.Sound.w
    | fail_if_no_progress (with_reducible refine Dev.Sound.upd rfl ?_)
    | with_reducible apply Dev.Sound.ite

theorem Dev.healthReceive_sound (d : Dev) (w0 : Nat) (h : Health) (h_d : d.Sound) : Dev.Sound (Dev.healthReceive d w0 h) := by
  unfold Dev.healthReceive
  repeat' first
    | with_reducible assumption
    | (extract_lets +onlyGivenNames -underBinder y; first
        | (refine Dev.Sound.part (P := Dev.Sound (by apply y)) (fun _ => ?_) ?_ <;> [clear_value y; subst y])
        | clear_value y)
    | with_reducible apply Dev.compareDemand_sound
    | with_reducible apply Dev.partnerHealth_sound
    | with_reducible apply Dev.showReady_sound
    | with_reducible apply Dev.Sound.w
    | fail_if_no_progress (with_reducible refine Dev.Sound.upd rfl ?_)

theorem execHealthRecordReceive_sound (crcOk : Bool) (w0 : Word) (h : Health) (s : State) (h_s : s.dev.Sound) :
    Outcome.Sound (execHealthRecordReceive crcOk w0 h s) := by
  unfold execHealthRecordReceive
  repeat' first
    | with_reducible assumption
    | refine fun _ => ?_
    | with_reducible apply Dev.healthReceive_sound
    | with_reducible apply Dev.tackTake_sound
    | with_reducible refine Outcome.Sound.ok h_s ?_

theorem execTackLost_sound (s : State) (h_s : s.dev.Sound) : Outcome.Sound (execTackLost s) := by
  unfold execTackLost
  repeat' first
    | with_reducible assumption
    | refine fun _ => ?_
    | with_reducible apply Dev.flag_sound
    | with_reducible apply Dev.reach_sound
    | with_reducible refine Outcome.Sound.ok h_s ?_
    | with_reducible apply Dev.Sound.ite

theorem execTackLaneChange_sound (lane : Fin 2) (up : Bool) (s : State) (h_s : s.dev.Sound) :
    Outcome.Sound (execTackLaneChange lane up s) := by
  unfold execTackLaneChange
  repeat' first
    | with_reducible assumption
    | refine fun _ => ?_
    | with_reducible apply Dev.showReady_sound
    | with_reducible refine Outcome.Sound.ok h_s ?_
    | with_reducible apply Dev.Sound.w

theorem execOutputShadowReceive_sound (crcOk : Bool) (sh : Shadow) (s : State) (h_s : s.dev.Sound) :
    Outcome.Sound (execOutputShadowReceive crcOk sh s) := by
  unfold execOutputShadowReceive
  repeat' first
    | with_reducible assumption
    | refine fun _ => ?_
    | with_reducible apply Dev.loadShadow_sound
    | with_reducible apply Dev.showReady_sound
    | with_reducible apply Dev.tackTake_sound
    | with_reducible refine Outcome.Sound.ok h_s ?_
    | with_reducible apply Dev.Sound.ite

theorem Dev.verifySnapshot_sound (d : Dev) (s : Snapshot) (got : List Nat) (h_d : d.Sound) :
    Dev.Sound (Dev.verifySnapshot d s got) := by
  unfold Dev.verifySnapshot
  repeat' first
    | with_reducible assumption
    | (extract_lets +onlyGivenNames -underBinder y; first
        | (refine Dev.Sound.part (P := Dev.Sound (by apply y)) (fun _ => ?_) ?_ <;> [clear_value y; subst y])
        | clear_value y)
    | with_reducible apply Dev.inc_sound
    | with_reducible apply Dev.Sound.w
    | fail_if_no_progress (with_reducible refine Dev.Sound.upd rfl ?_)
    | with_reducible apply Dev.Sound.ite

theorem Dev.chunkReceive_sound (d : Dev) (index : Nat) (x : Snapshot) (h_d : d.Sound) :
    Dev.Sound (Dev.chunkReceive d index x) := by
  unfold Dev.chunkReceive
  repeat' first
    | with_reducible assumption
    | (extract_lets +onlyGivenNames -underBinder y; first
        | (refine Dev.Sound.part (P := Dev.Sound (by apply y)) (fun _ => ?_) ?_ <;> [clear_value y; subst y])
        | clear_value y)
    | with_reducible apply Dev.dropPartial_sound
    | with_reducible apply Dev.showReady_sound
    | with_reducible apply Dev.verifySnapshot_sound
    | fail_if_no_progress (with_reducible refine Dev.Sound.upd rfl ?_)
    | with_reducible apply Dev.Sound.ite
    | split

theorem execSnapshotChunkReceive_sound (crcOk : Bool) (index : Fin 160) (x : Snapshot) (s : State) (h_s : s.dev.Sound) :
    Outcome.Sound (execSnapshotChunkReceive crcOk index x s) := by
  unfold execSnapshotChunkReceive
  repeat' first
    | with_reducible assumption
    | refine fun _ => ?_
    | with_reducible apply Dev.chunkReceive_sound
    | with_reducible apply Dev.tackTake_sound
    | with_reducible refine Outcome.Sound.ok h_s ?_

theorem Dev.sendDone_sound (d : Dev) (h_d : d.Sound) : Dev.Sound (Dev.sendDone d) := by
  unfold Dev.sendDone
  repeat' first
    | with_reducible assumption
    | (extract_lets +onlyGivenNames -underBinder y; first
        | (refine Dev.Sound.part (P := Dev.Sound (by apply y)) (fun _ => ?_) ?_ <;> [clear_value y; subst y])
        | clear_value y)
    | with_reducible apply Dev.reach_sound
    | with_reducible apply Dev.Sound.w
    | fail_if_no_progress (with_reducible refine Dev.Sound.upd rfl ?_)
    | split

theorem execSnapshotSendDone_sound (s : State) (h_s : s.dev.Sound) : Outcome.Sound (execSnapshotSendDone s) := by
  unfold execSnapshotSendDone
  repeat' first
    | with_reducible assumption
    | refine fun _ => ?_
    | with_reducible apply Dev.sendDone_sound
    | with_reducible refine Outcome.Sound.ok h_s ?_

theorem execSnapshotRestoreDone_sound (s : State) (h_s : s.dev.Sound) : Outcome.Sound (execSnapshotRestoreDone s) := by
  unfold execSnapshotRestoreDone
  repeat' first
    | with_reducible assumption
    | refine fun _ => ?_
    | with_reducible apply Dev.restore_sound
    | with_reducible refine Outcome.Sound.ok h_s ?_

theorem Dev.standbySelftest_sound (d : Dev) (code : Nat) (pass last : Bool) (h_d : d.Sound) :
    Dev.Sound (Dev.standbySelftest d code pass last) := by
  unfold Dev.standbySelftest
  repeat' first
    | with_reducible assumption
    | (extract_lets +onlyGivenNames -underBinder y; first
        | (refine Dev.Sound.part (P := Dev.Sound (by apply y)) (fun _ => ?_) ?_ <;> [clear_value y; subst y])
        | clear_value y)
    | with_reducible apply Dev.inc_sound
    | with_reducible apply Dev.showReady_sound
    | with_reducible apply Dev.Sound.w
    | fail_if_no_progress (with_reducible refine Dev.Sound.upd rfl ?_)
    | with_reducible apply Dev.Sound.ite

theorem execStandbySelftest_sound (code : BitVec 8) (pass last : Bool) (s : State) (h_s : s.dev.Sound) :
    Outcome.Sound (execStandbySelftest code pass last s) := by
  unfold execStandbySelftest
  repeat' first
    | with_reducible assumption
    | refine fun _ => ?_
    | with_reducible apply Dev.standbySelftest_sound
    | with_reducible refine Outcome.Sound.ok h_s ?_

theorem execTackJoinRecord_sound (rec : JoinRec) (sigOk : Bool) (s : State) (h_s : s.dev.Sound) :
    Outcome.Sound (execTackJoinRecord rec sigOk s) := by
  unfold execTackJoinRecord
  repeat' first
    | with_reducible assumption
    | refine fun _ => ?_
    | (extract_lets +onlyGivenNames -underBinder y; clear_value y)
    | with_reducible apply Dev.flag_sound
    | with_reducible refine Outcome.Sound.ok h_s ?_
    | fail_if_no_progress (with_reducible refine Dev.Sound.upd rfl ?_)
    | with_reducible apply Dev.Sound.ite

theorem Dev.revertDwell_sound (d : Dev) (h_d : d.Sound) : Dev.Sound (Dev.revertDwell d) := by
  unfold Dev.revertDwell
  repeat' first
    | with_reducible assumption
    | (extract_lets +onlyGivenNames -underBinder y; clear_value y)
    | with_reducible apply Dev.flag_sound
    | with_reducible apply Dev.Sound.ite
    | split

theorem execRevertDwellExpire_sound (s : State) (h_s : s.dev.Sound) : Outcome.Sound (execRevertDwellExpire s) := by
  unfold execRevertDwellExpire
  repeat' first
    | with_reducible assumption
    | refine fun _ => ?_
    | with_reducible apply Dev.revertDwell_sound
    | with_reducible refine Outcome.Sound.ok h_s ?_

theorem Dev.handoverStart_sound (d : Dev) (n : Nat) (h_d : d.Sound) : Dev.Sound (Dev.handoverStart d n) := by
  unfold Dev.handoverStart
  repeat' first
    | with_reducible assumption
    | (extract_lets +onlyGivenNames -underBinder y; first
        | (refine Dev.Sound.part (P := Dev.Sound (by apply y)) (fun _ => ?_) ?_ <;> [clear_value y; subst y])
        | clear_value y)
    | with_reducible apply Dev.pairEnter_sound
    | with_reducible apply Dev.sendSnapshot_sound
    | fail_if_no_progress (with_reducible refine Dev.Sound.upd rfl ?_)
    | with_reducible apply Dev.Sound.ite

theorem Dev.handoverRelease_sound (d : Dev) (h_d : d.Sound) : Dev.Sound (Dev.handoverRelease d) := by
  unfold Dev.handoverRelease
  repeat' first
    | with_reducible assumption
    | (extract_lets +onlyGivenNames -underBinder y;
       refine Dev.Sound.part (P := Dev.Sound (by apply y)) (fun _ => ?_) ?_ <;> [clear_value y; subst y])
    | with_reducible apply Dev.brdEnter_sound
    | with_reducible apply Dev.inc_sound
    | with_reducible apply Dev.reinFall_sound
    | with_reducible apply Dev.Sound.ite

theorem Dev.handoverAbandon_sound (d : Dev) (h_d : d.Sound) : Dev.Sound (Dev.handoverAbandon d) := by
  unfold Dev.handoverAbandon
  repeat' first
    | with_reducible assumption
    | (extract_lets +onlyGivenNames -underBinder y; first
        | (refine Dev.Sound.part (P := Dev.Sound (by apply y)) (fun _ => ?_) ?_ <;> [clear_value y; subst y])
        | (refine Dev.Sound.part (P := EpochState.frontRegs y = EpochState.frontRegs y) (fun _ => ?_) rfl; subst y)
        | clear_value y)
    | with_reducible apply Dev.pairEnter_sound
    | fail_if_no_progress (with_reducible refine Dev.Sound.upd rfl ?_)
    | with_reducible apply Dev.Sound.ite
    | split

theorem execHandoverAbandon_sound (s : State) (h_s : s.dev.Sound) : Outcome.Sound (execHandoverAbandon s) := by
  unfold execHandoverAbandon
  repeat' first
    | with_reducible assumption
    | refine fun _ => ?_
    | with_reducible apply Dev.handoverAbandon_sound
    | with_reducible refine Outcome.Sound.ok h_s ?_

theorem Dev.pairCommit_sound (d : Dev) (g : Grade) (n : Nat) (h_d : d.Sound) : Dev.Sound (Dev.pairCommit d g n) := by
  unfold Dev.pairCommit
  repeat' first
    | with_reducible assumption
    | (extract_lets +onlyGivenNames -underBinder y; first
        | (refine Dev.Sound.part (P := Dev.Sound (by apply y)) (fun _ => ?_) ?_ <;> [clear_value y; subst y])
        | clear_value y)
    | with_reducible apply Dev.handoverStart_sound
    | with_reducible apply Dev.snapshotDue_sound
    | fail_if_no_progress (with_reducible refine Dev.Sound.upd rfl ?_)
    | with_reducible apply Dev.Sound.ite

theorem Dev.pairIdle_sound (d : Dev) (n : Nat) (h_d : d.Sound) : Dev.Sound (Dev.pairIdle d n) := by
  unfold Dev.pairIdle
  repeat' first
    | with_reducible assumption
    | (extract_lets +onlyGivenNames -underBinder y; first
        | (refine Dev.Sound.part (P := Dev.Sound (by apply y)) (fun _ => ?_) ?_ <;> [clear_value y; subst y])
        | (refine Dev.Sound.part (P := EpochState.frontRegs y = EpochState.frontRegs y) (fun _ => ?_) rfl; subst y)
        | clear_value y)
    | with_reducible apply Dev.showReady_sound
    | fail_if_no_progress (with_reducible refine Dev.Sound.upd rfl ?_)
    | with_reducible apply Dev.Sound.ite

theorem Dev.takeoverDone_sound (d : Dev) (n : Nat) (h_d : d.Sound) : Dev.Sound (Dev.takeoverDone d n) := by
  unfold Dev.takeoverDone
  repeat' first
    | with_reducible assumption
    | (extract_lets +onlyGivenNames -underBinder y; clear_value y)
    | with_reducible apply Dev.pairEnter_sound
    | with_reducible apply Dev.Sound.w
    | fail_if_no_progress (with_reducible refine Dev.Sound.upd rfl ?_)
    | split

theorem execPairInfo_sound (p : Packet) (s : State) (h_s : s.dev.Sound) : Outcome.Sound (execPairInfo p s) := by
  unfold execPairInfo
  repeat' first
    | with_reducible assumption
    | refine fun _ => ?_
    | with_reducible apply Dev.runPacket_sound
    | with_reducible refine Outcome.Sound.ok h_s ?_

theorem Dev.pairSwitch_sound (d : Dev) (mode : Nat) (h_d : d.Sound) : Dev.Sound (Dev.pairSwitch d mode).1 := by
  unfold Dev.pairSwitch
  repeat' first
    | with_reducible assumption
    | (extract_lets +onlyGivenNames -underBinder y; clear_value y)
    | fail_if_no_progress (with_reducible refine Dev.Sound.upd rfl ?_)
    | with_reducible apply Dev.Sound.ite_fst

theorem execPairSwitch_sound (p : Packet) (s : State) (h_s : s.dev.Sound) : Outcome.Sound (execPairSwitch p s) := by
  unfold execPairSwitch
  repeat' first
    | with_reducible assumption
    | refine fun _ => ?_
    | with_reducible apply Dev.pairSwitch_sound
    | with_reducible apply Dev.runPacket_sound
    | with_reducible refine Outcome.Sound.ok h_s ?_

theorem Dev.pairRevert_sound (d : Dev) (v : Nat) (h_d : d.Sound) : Dev.Sound (Dev.pairRevert d v).1 := by
  unfold Dev.pairRevert
  repeat' first
    | with_reducible assumption
    | (extract_lets +onlyGivenNames -underBinder y; clear_value y)
    | with_reducible apply Dev.Sound.w
    | fail_if_no_progress (with_reducible refine Dev.Sound.upd rfl ?_)
    | split

theorem execPairRevert_sound (p : Packet) (s : State) (h_s : s.dev.Sound) : Outcome.Sound (execPairRevert p s) := by
  unfold execPairRevert
  repeat' first
    | with_reducible assumption
    | refine fun _ => ?_
    | with_reducible apply Dev.pairRevert_sound
    | with_reducible apply Dev.runPacket_sound
    | with_reducible refine Outcome.Sound.ok h_s ?_

theorem Dev.pairClaim_sound (d : Dev) (h_d : d.Sound) : Dev.Sound (Dev.pairClaim d).1 := by
  unfold Dev.pairClaim
  repeat' first
    | with_reducible assumption
    | with_reducible apply Dev.pairDecide_sound
    | with_reducible apply Dev.Sound.ite_fst

theorem execPairClaim_sound (p : Packet) (s : State) (h_s : s.dev.Sound) : Outcome.Sound (execPairClaim p s) := by
  unfold execPairClaim
  repeat' first
    | with_reducible assumption
    | refine fun _ => ?_
    | with_reducible apply Dev.pairClaim_sound
    | with_reducible apply Dev.runPacket_sound
    | with_reducible refine Outcome.Sound.ok h_s ?_

/-! ### Machine/Secure.lean -/

theorem execSecInfo_sound (p : Packet) (s : State) (h_s : s.dev.Sound) : Outcome.Sound (execSecInfo p s) := by
  unfold execSecInfo
  repeat' first
    | with_reducible assumption
    | refine fun _ => ?_
    | with_reducible apply Dev.runPacket_sound
    | with_reducible refine Outcome.Sound.ok h_s ?_

theorem Dev.attest_sound (d : Dev) (g : Grade) (nonce ns : Nat) (h_d : d.Sound) : Dev.Sound (Dev.attest d g nonce ns).1 := by
  unfold Dev.attest
  repeat' first
    | with_reducible assumption
    | (extract_lets +onlyGivenNames -underBinder y; clear_value y)
    | with_reducible apply Dev.inc_sound
    | fail_if_no_progress (with_reducible refine Dev.Sound.upd rfl ?_)
    | with_reducible apply Dev.Sound.ite_fst

theorem execSecAttest_sound (p : Packet) (ns : Nat) (s : State) (h_s : s.dev.Sound) : Outcome.Sound (execSecAttest p ns s) := by
  unfold execSecAttest
  repeat' first
    | with_reducible assumption
    | refine fun _ => ?_
    | with_reducible apply Dev.attest_sound
    | with_reducible apply Dev.runPacket_sound
    | with_reducible refine Outcome.Sound.ok h_s ?_

theorem execSecCertRead_sound (p : Packet) (s : State) (h_s : s.dev.Sound) : Outcome.Sound (execSecCertRead p s) := by
  unfold execSecCertRead
  repeat' first
    | with_reducible assumption
    | refine fun _ => ?_
    | with_reducible apply Dev.runPacket_sound
    | with_reducible refine Outcome.Sound.ok h_s ?_

theorem Dev.flashStage_sound (d : Dev) (g : Grade) (off len : Nat) (v : Verdict) (backOk : Bool) (ns : Nat) (h_d : d.Sound) :
    Dev.Sound (Dev.flashStage d g off len v backOk ns).1 := by
  unfold Dev.flashStage
  repeat' first
    | with_reducible assumption
    | (extract_lets +onlyGivenNames -underBinder y; first
        | (refine Dev.Sound.part (P := ∀ z, y z = y z) (fun _ => ?_) (fun _ => rfl); subst y; beta_reduce)
        | (refine Dev.Sound.part (P := Dev.Sound (by apply y)) (fun _ => ?_) ?_ <;> [clear_value y; subst y])
        | clear_value y)
    | with_reducible apply Dev.flashWrite_sound
    | fail_if_no_progress (with_reducible refine Dev.Sound.upd rfl ?_)
    | with_reducible apply Dev.Sound.ite_fst

theorem execSecFlashStage_sound (p : Packet) (v : Verdict) (backOk : Bool) (ns : Nat) (s : State) (h_s : s.dev.Sound) :
    Outcome.Sound (execSecFlashStage p v backOk ns s) := by
  unfold execSecFlashStage
  repeat' first
    | with_reducible assumption
    | refine fun _ => ?_
    | with_reducible apply Dev.flashStage_sound
    | with_reducible apply Dev.runPacket_sound
    | with_reducible refine Outcome.Sound.ok h_s ?_

theorem Dev.rollbackCommit_sound (d : Dev) (kind ns : Nat) (h_d : d.Sound) : Dev.Sound (Dev.rollbackCommit d kind ns).1 := by
  unfold Dev.rollbackCommit
  repeat' first
    | with_reducible assumption
    | (extract_lets +onlyGivenNames -underBinder y; clear_value y)
    | with_reducible apply Dev.Sound.w
    | fail_if_no_progress (with_reducible refine Dev.Sound.upd rfl ?_)
    | with_reducible apply Dev.Sound.ite_fst

theorem execSecRollbackCommit_sound (p : Packet) (ns : Nat) (s : State) (h_s : s.dev.Sound) :
    Outcome.Sound (execSecRollbackCommit p ns s) := by
  unfold execSecRollbackCommit
  repeat' first
    | with_reducible assumption
    | refine fun _ => ?_
    | with_reducible apply Dev.rollbackCommit_sound
    | with_reducible apply Dev.runPacket_sound
    | with_reducible refine Outcome.Sound.ok h_s ?_

theorem Dev.ownerRevoke_sound (d : Dev) (slot : Nat) (h_d : d.Sound) : Dev.Sound (Dev.ownerRevoke d slot).1 := by
  unfold Dev.ownerRevoke
  repeat' first
    | with_reducible assumption
    | (extract_lets +onlyGivenNames -underBinder y; first
        | (refine Dev.Sound.part (P := ∀ z, y z = y z) (fun _ => ?_) (fun _ => rfl); subst y; beta_reduce)
        | clear_value y)
    | with_reducible apply Dev.Sound.w
    | with_reducible apply Dev.Sound.ite_fst

theorem execSecOwnerRevoke_sound (p : Packet) (s : State) (h_s : s.dev.Sound) : Outcome.Sound (execSecOwnerRevoke p s) := by
  unfold execSecOwnerRevoke
  repeat' first
    | with_reducible assumption
    | refine fun _ => ?_
    | with_reducible apply Dev.ownerRevoke_sound
    | with_reducible apply Dev.runPacket_sound
    | with_reducible refine Outcome.Sound.ok h_s ?_

theorem Dev.commission_sound (d : Dev) (mask : Nat) (keys : List (Nat × Bool)) (h_d : d.Sound) :
    Dev.Sound (Dev.commission d mask keys).1 := by
  unfold Dev.commission
  repeat' first
    | with_reducible assumption
    | (extract_lets +onlyGivenNames -underBinder y; first
        | (refine Dev.Sound.part (P := Dev.Sound (by apply y)) (fun _ => ?_) ?_ <;> [clear_value y; subst y])
        | clear_value y)
    | with_reducible apply Dev.Sound.w
    | fail_if_no_progress (with_reducible refine Dev.Sound.upd rfl ?_)
    | with_reducible apply Dev.Sound.ite_fst
    | split

theorem execSecCommission_sound (p : Packet) (keys : List (Nat × Bool)) (s : State) (h_s : s.dev.Sound) :
    Outcome.Sound (execSecCommission p keys s) := by
  unfold execSecCommission
  repeat' first
    | with_reducible assumption
    | refine fun _ => ?_
    | with_reducible apply Dev.commission_sound
    | with_reducible apply Dev.runPacket_sound
    | with_reducible refine Outcome.Sound.ok h_s ?_

theorem execSecDebugChallenge_sound (p : Packet) (s : State) (h_s : s.dev.Sound) : Outcome.Sound (execSecDebugChallenge p s) := by
  unfold execSecDebugChallenge
  repeat' first
    | with_reducible assumption
    | refine fun _ => ?_
    | (extract_lets +onlyGivenNames -underBinder y; clear_value y)
    | with_reducible apply Dev.runPacket_sound
    | with_reducible refine Outcome.Sound.ok h_s ?_
    | fail_if_no_progress (with_reducible refine Dev.Sound.upd rfl ?_)

theorem Dev.debugUnlock_sound (d : Dev) (tokenOk : Bool) (h_d : d.Sound) : Dev.Sound (Dev.debugUnlock d tokenOk).1 := by
  unfold Dev.debugUnlock
  repeat' first
    | with_reducible assumption
    | with_reducible apply Dev.flag_sound
    | with_reducible apply Dev.inc_sound
    | with_reducible apply Dev.Sound.ite_fst

theorem execSecDebugUnlock_sound (p : Packet) (tokenOk : Bool) (s : State) (h_s : s.dev.Sound) :
    Outcome.Sound (execSecDebugUnlock p tokenOk s) := by
  unfold execSecDebugUnlock
  repeat' first
    | with_reducible assumption
    | refine fun _ => ?_
    | with_reducible apply Dev.debugUnlock_sound
    | with_reducible apply Dev.runPacket_sound
    | with_reducible refine Outcome.Sound.ok h_s ?_

theorem execSecUnlistedOpcode_sound (op : Fin 64) (p : Packet) (s : State) (h_s : s.dev.Sound) :
    Outcome.Sound (execSecUnlistedOpcode op p s) := by
  unfold execSecUnlistedOpcode
  repeat' first
    | with_reducible assumption
    | refine fun _ => ?_
    | with_reducible apply Dev.runPacket_sound
    | with_reducible refine Outcome.Sound.ok h_s ?_
    | with_reducible apply Dev.Sound.ite

/-! ### Machine/Boot.lean -/

theorem Dev.fullReset_sound (d : Dev) (source : Nat) (h_d : d.Sound) : Dev.Sound (Dev.fullReset d source) := by
  unfold Dev.fullReset
  repeat' first
    | with_reducible assumption
    | (extract_lets +onlyGivenNames -underBinder y;
       refine Dev.Sound.part (P := Dev.Sound (by apply y)) (fun _ => ?_) ?_ <;> [clear_value y; subst y])
    | with_reducible apply Dev.inc_sound
    | with_reducible apply Dev.wb_sound
    | exact Dev.Sound.fresh (Regs.wf_filter h_d.regs _) Regs.wf_nil rfl
    | with_reducible apply Dev.Sound.w
    | with_reducible apply Dev.Sound.ite

theorem execPowerOnReset_sound (s : State) (h_s : s.dev.Sound) : Outcome.Sound (execPowerOnReset s) := by
  unfold execPowerOnReset
  repeat' first
    | with_reducible assumption
    | refine fun _ => ?_
    | with_reducible apply Dev.fullReset_sound
    | with_reducible refine Outcome.Sound.ok h_s ?_

theorem execBrownout_sound (s : State) (h_s : s.dev.Sound) : Outcome.Sound (execBrownout s) := by
  unfold execBrownout
  repeat' first
    | with_reducible assumption
    | refine fun _ => ?_
    | (extract_lets +onlyGivenNames -underBinder y;
       refine Dev.Sound.part (P := Dev.Sound (by apply y)) (fun _ => ?_) ?_ <;> [clear_value y; subst y])
    | with_reducible apply Dev.fullReset_sound
    | with_reducible apply Dev.pins_sound
    | with_reducible apply Dev.wb_sound
    | with_reducible refine Outcome.Sound.ok h_s ?_
    | with_reducible apply Dev.Sound.w
    | fail_if_no_progress (with_reducible refine Dev.Sound.upd rfl ?_)
    | with_reducible apply Dev.Sound.ite

theorem execNrstAssert_sound (s : State) (h_s : s.dev.Sound) : Outcome.Sound (execNrstAssert s) := by
  unfold execNrstAssert
  repeat' first
    | with_reducible assumption
    | refine fun _ => ?_
    | with_reducible apply Dev.fullReset_sound
    | with_reducible refine Outcome.Sound.ok h_s ?_

theorem execNrstRelease_sound (secondary : Bool) (s : State) (h_s : s.dev.Sound) :
    Outcome.Sound (execNrstRelease secondary s) := by
  unfold execNrstRelease
  repeat' first
    | with_reducible assumption
    | refine fun _ => ?_
    | (extract_lets +onlyGivenNames -underBinder y; clear_value y)
    | with_reducible apply Dev.pins_sound
    | with_reducible apply Dev.wb_sound
    | with_reducible refine Outcome.Sound.ok h_s ?_
    | with_reducible apply Dev.Sound.w
    | fail_if_no_progress (with_reducible refine Dev.Sound.upd rfl ?_)
    | with_reducible apply Dev.Sound.ite

theorem execModuleReset_sound (s : State) (h_s : s.dev.Sound) : Outcome.Sound (execModuleReset s) := by
  unfold execModuleReset
  repeat' first
    | with_reducible assumption
    | refine fun _ => ?_
    | with_reducible apply Dev.moduleReset_sound
    | with_reducible apply Dev.reach_sound
    | with_reducible refine Outcome.Sound.ok h_s ?_
    | split

theorem Dev.bootFail_sound (d : Dev) (code : Nat) (h_d : d.Sound) : Dev.Sound (Dev.bootFail d code) := by
  unfold Dev.bootFail
  repeat' first
    | with_reducible assumption
    | with_reducible apply Dev.pins_sound
    | with_reducible apply Dev.Sound.w

theorem Dev.nextStage_sound (d : Dev) (h_d : d.Sound) : Dev.Sound (Dev.nextStage d) := by
  unfold Dev.nextStage
  repeat' first
    | with_reducible assumption
    | with_reducible apply Dev.Sound.w

theorem Dev.loadReg_sound (d : Dev) (a v : Nat) (h_d : d.Sound) : Dev.Sound (Dev.loadReg d a v) := by
  unfold Dev.loadReg
  repeat' first
    | with_reducible assumption
    | refine fun _ => ?_
    | with_reducible apply Dev.Sound.w
    | with_reducible apply Dev.Sound.ite
    | with_reducible apply Dev.Sound.each
    | split

theorem Dev.putHash_sound (d : Dev) (f : Nat → Field) (h : Nat) (h_d : d.Sound) : Dev.Sound (Dev.putHash d f h) := by
  unfold Dev.putHash
  repeat' first
    | with_reducible assumption
    | refine fun _ => ?_
    | with_reducible apply Dev.Sound.w
    | with_reducible apply Dev.Sound.each

theorem Dev.bootFw_sound (d : Dev) (g : Grade) (x : StageEnd) (h_d : d.Sound) : Dev.Sound (Dev.bootFw d g x) := by
  unfold Dev.bootFw
  repeat' first
    | with_reducible assumption
    | with_reducible apply Dev.inc_sound
    | with_reducible apply Dev.nextStage_sound
    | with_reducible apply Dev.putHash_sound
    | with_reducible apply Dev.selectBank_sound
    | with_reducible apply Dev.Sound.w
    | split

theorem Dev.applyCfg_sound (d : Dev) (x : ConfigImage) (h_d : d.Sound) : Dev.Sound (Dev.applyCfg d x) := by
  unfold Dev.applyCfg
  repeat' first
    | with_reducible assumption
    | refine fun _ => ?_
    | (extract_lets +onlyGivenNames -underBinder y; first
        | (refine Dev.Sound.part (P := Dev.Sound (by apply y)) (fun _ => ?_) ?_ <;> [clear_value y; subst y])
        | (refine Dev.Sound.part (P := EpochState.frontRegs y = EpochState.frontRegs y) (fun _ => ?_) rfl; subst y)
        | clear_value y)
    | with_reducible apply Dev.loadReg_sound
    | fail_if_no_progress (with_reducible refine Dev.Sound.upd rfl ?_)
    | with_reducible apply Dev.Sound.each

theorem Dev.bootCfg_sound (d : Dev) (g : Grade) (x : StageEnd) (h_d : d.Sound) : Dev.Sound (Dev.bootCfg d g x) := by
  unfold Dev.bootCfg
  repeat' first
    | with_reducible assumption
    | (extract_lets +onlyGivenNames -underBinder y; first
        | (refine Dev.Sound.part (P := Dev.Sound (by apply y)) (fun _ => ?_) ?_ <;> [clear_value y; subst y])
        | clear_value y)
    | with_reducible apply Dev.applyCfg_sound
    | with_reducible apply Dev.bootFail_sound
    | with_reducible apply Dev.nextStage_sound
    | with_reducible apply Dev.pairEnter_sound
    | with_reducible apply Dev.putHash_sound
    | with_reducible apply Dev.selectBank_sound
    | with_reducible apply Dev.tlbEnter_sound
    | with_reducible apply Dev.wb_sound
    | with_reducible apply Dev.Sound.w
    | with_reducible apply Dev.Sound.ite
    | (with_reducible refine Dev.Sound.of_fst (by assumption) ?_)
    | split

theorem Dev.bootSps_sound (d : Dev) (g : Grade) (x : StageEnd) (h_d : d.Sound) : Dev.Sound (Dev.bootSps d g x) := by
  unfold Dev.bootSps
  repeat' first
    | with_reducible assumption
    | (extract_lets +onlyGivenNames -underBinder y; first
        | (refine Dev.Sound.part (P := ∀ z, y z = y z) (fun _ => ?_) (fun _ => rfl); subst y; beta_reduce)
        | (refine Dev.Sound.part (P := Dev.Sound (by apply y)) (fun _ => ?_) ?_ <;> [clear_value y; subst y])
        | clear_value y)
    | with_reducible apply Dev.brdRole_sound
    | with_reducible apply Dev.nextStage_sound
    | with_reducible apply Dev.selectBank_sound
    | with_reducible apply Dev.spsActivate_sound
    | with_reducible apply Dev.Sound.w
    | with_reducible apply Dev.Sound.ite
    | (with_reducible refine Dev.Sound.of_fst (by assumption) ?_)
    | split

theorem Dev.loadCores_sound (d : Dev) (x : ConfigImage) (h_d : d.Sound) : Dev.Sound (Dev.loadCores d x) := by
  unfold Dev.loadCores
  repeat' first
    | with_reducible assumption
    | (extract_lets +onlyGivenNames -underBinder y; clear_value y)
    | with_reducible apply Dev.Sound.mem
    | with_reducible refine Dev.Sound.updMem rfl ?_ ?_

theorem Mem.wf_copyBanks {m : Mem} (h : Mem.wf m = true) : Mem.wf (copyBanks m) = true :=
  Mem.wf_foldl (Mem.wf_filter h _) (fun _ _ h => Mem.wf_set h _ _)

theorem Dev.loadMemories_sound (d : Dev) (x : ConfigImage) (h_d : d.Sound) : Dev.Sound (Dev.loadMemories d x) := by
  unfold Dev.loadMemories
  repeat' first
    | with_reducible assumption
    | (extract_lets +onlyGivenNames -underBinder y; first
        | (refine Dev.Sound.part (P := Dev.Sound (by apply y)) (fun _ => ?_) ?_ <;> [clear_value y; subst y])
        | clear_value y)
    | exact Mem.wf_copyBanks (Mem.wf_foldl (Dev.Sound.mem (by assumption)) (fun _ _ h => Mem.wf_putWord h _ _))
    | with_reducible apply Dev.Sound.mem
    | with_reducible refine Dev.Sound.updMem rfl ?_ ?_

theorem Dev.loadExpect_sound (d : Dev) (x : ConfigImage) (h_d : d.Sound) : Dev.Sound (Dev.loadExpect d x) := by
  unfold Dev.loadExpect
  repeat' first
    | with_reducible assumption
    | refine fun _ => ?_
    | (extract_lets +onlyGivenNames -underBinder y; clear_value y)
    | with_reducible apply Dev.setRp_sound
    | with_reducible apply Dev.Sound.each

theorem Dev.bootLoad_sound (d : Dev) (h_d : d.Sound) : Dev.Sound (Dev.bootLoad d) := by
  unfold Dev.bootLoad
  repeat' first
    | with_reducible assumption
    | (extract_lets +onlyGivenNames -underBinder y; first
        | (refine Dev.Sound.part (P := Dev.Sound (by apply y)) (fun _ => ?_) ?_ <;> [clear_value y; subst y])
        | clear_value y)
    | with_reducible apply Dev.countEnabled_sound
    | with_reducible apply Dev.loadCores_sound
    | with_reducible apply Dev.loadExpect_sound
    | with_reducible apply Dev.loadMemories_sound
    | with_reducible apply Dev.nextStage_sound
    | with_reducible apply Dev.showFloor_sound
    | fail_if_no_progress (with_reducible refine Dev.Sound.upd rfl ?_)

theorem Dev.stageEnd_sound (d : Dev) (g : Grade) (x : StageEnd) (h_d : d.Sound) : Dev.Sound (Dev.stageEnd d g x) := by
  unfold Dev.stageEnd
  repeat' first
    | with_reducible assumption
    | (extract_lets +onlyGivenNames -underBinder y;
       refine Dev.Sound.part (P := Dev.Sound (by apply y)) (fun _ => ?_) ?_ <;> [clear_value y; subst y])
    | with_reducible apply Dev.bootCfg_sound
    | with_reducible apply Dev.bootFail_sound
    | with_reducible apply Dev.bootFw_sound
    | with_reducible apply Dev.bootLoad_sound
    | with_reducible apply Dev.bootSps_sound
    | with_reducible apply Dev.nextStage_sound
    | with_reducible apply Dev.reach_sound
    | with_reducible apply Dev.wb_sound
    | with_reducible apply Dev.Sound.w
    | with_reducible apply Dev.Sound.ite
    | split

theorem execBootStageEnd_sound (x : StageEnd) (s : State) (h_s : s.dev.Sound) : Outcome.Sound (execBootStageEnd x s) := by
  unfold execBootStageEnd
  repeat' first
    | with_reducible assumption
    | refine fun _ => ?_
    | with_reducible apply Dev.stageEnd_sound
    | with_reducible refine Outcome.Sound.ok h_s ?_
    | with_reducible apply Dev.Sound.ite

theorem Dev.lockWaitEnd_sound (d : Dev) (h_d : d.Sound) : Dev.Sound (Dev.lockWaitEnd d) := by
  unfold Dev.lockWaitEnd
  repeat' first
    | with_reducible assumption
    | with_reducible apply Dev.pairDecide_sound
    | with_reducible apply Dev.Sound.ite

theorem execLockWaitEnd_sound (s : State) (h_s : s.dev.Sound) : Outcome.Sound (execLockWaitEnd s) := by
  unfold execLockWaitEnd
  repeat' first
    | with_reducible assumption
    | refine fun _ => ?_
    | with_reducible apply Dev.lockWaitEnd_sound
    | with_reducible refine Outcome.Sound.ok h_s ?_

theorem Dev.autoStart_sound (d : Dev) (g : Grade) (h_d : d.Sound) : Dev.Sound (Dev.autoStart d g) := by
  unfold Dev.autoStart
  repeat' first
    | with_reducible assumption
    | refine fun _ => ?_
    | (extract_lets +onlyGivenNames -underBinder y; first
        | (refine Dev.Sound.part (P := ∀ z, y z = y z) (fun _ => ?_) (fun _ => rfl); subst y; beta_reduce)
        | (refine Dev.Sound.part (P := Dev.Sound (by apply y)) (fun _ => ?_) ?_ <;> [clear_value y; subst y])
        | clear_value y)
    | with_reducible apply Dev.startPort_sound
    | with_reducible apply Dev.tlbEnter_sound
    | with_reducible apply Dev.wb_sound
    | with_reducible apply Dev.Sound.ite
    | with_reducible apply Dev.Sound.each

theorem Dev.firstCommit_sound (d : Dev) (g : Grade) (h_d : d.Sound) : Dev.Sound (Dev.firstCommit d g) := by
  unfold Dev.firstCommit
  repeat' first
    | with_reducible assumption
    | (extract_lets +onlyGivenNames -underBinder y; first
        | (refine Dev.Sound.part (P := Dev.Sound (by apply y)) (fun _ => ?_) ?_ <;> [clear_value y; subst y])
        | clear_value y)
    | with_reducible apply Dev.autoStart_sound
    | with_reducible apply Dev.wb_sound
    | with_reducible apply Dev.Sound.w
    | fail_if_no_progress (with_reducible refine Dev.Sound.upd rfl ?_)
    | with_reducible apply Dev.Sound.ite

theorem Dev.bgVerifyDone_sound (d : Dev) (g : Grade) (kind : Nat) (v : Verdict) (h_d : d.Sound) :
    Dev.Sound (Dev.bgVerifyDone d g kind v) := by
  unfold Dev.bgVerifyDone
  repeat' first
    | with_reducible assumption
    | (extract_lets +onlyGivenNames -underBinder y; first
        | (refine Dev.Sound.part (P := Dev.Sound (by apply y)) (fun _ => ?_) ?_ <;> [clear_value y; subst y])
        | clear_value y)
    | with_reducible apply Dev.wb_sound
    | with_reducible apply Dev.Sound.w
    | fail_if_no_progress (with_reducible refine Dev.Sound.upd rfl ?_)
    | with_reducible apply Dev.Sound.ite

theorem execBgVerifyDone_sound (kind : Fin 3) (v : Verdict) (s : State) (h_s : s.dev.Sound) :
    Outcome.Sound (execBgVerifyDone kind v s) := by
  unfold execBgVerifyDone
  repeat' first
    | with_reducible assumption
    | refine fun _ => ?_
    | with_reducible apply Dev.bgVerifyDone_sound
    | with_reducible refine Outcome.Sound.ok h_s ?_

theorem execDevBootInfo_sound (p : Packet) (s : State) (h_s : s.dev.Sound) : Outcome.Sound (execDevBootInfo p s) := by
  unfold execDevBootInfo
  repeat' first
    | with_reducible assumption
    | refine fun _ => ?_
    | with_reducible apply Dev.runPacket_sound
    | with_reducible refine Outcome.Sound.ok h_s ?_

theorem Dev.devReset_sound (d : Dev) (key : Nat) (h_d : d.Sound) : Dev.Sound (Dev.devReset d key).1 := by
  unfold Dev.devReset
  repeat' first
    | with_reducible assumption
    | (extract_lets +onlyGivenNames -underBinder y; clear_value y)
    | fail_if_no_progress (with_reducible refine Dev.Sound.upd rfl ?_)
    | with_reducible apply Dev.Sound.ite_fst

theorem execDevReset_sound (p : Packet) (s : State) (h_s : s.dev.Sound) : Outcome.Sound (execDevReset p s) := by
  unfold execDevReset
  repeat' first
    | with_reducible assumption
    | refine fun _ => ?_
    | with_reducible apply Dev.devReset_sound
    | with_reducible apply Dev.runPacket_sound
    | with_reducible refine Outcome.Sound.ok h_s ?_

theorem execDevUnlistedOpcode_sound (op : Fin 16) (p : Packet) (s : State) (h_s : s.dev.Sound) :
    Outcome.Sound (execDevUnlistedOpcode op p s) := by
  unfold execDevUnlistedOpcode
  repeat' first
    | with_reducible assumption
    | refine fun _ => ?_
    | with_reducible apply Dev.runPacket_sound
    | with_reducible refine Outcome.Sound.ok h_s ?_
    | with_reducible apply Dev.Sound.ite

end Sys2Proof.Machine
end

