-- ==== Sys2Proof/Laws/SoundHost.lean ====
section
/-!
SUPPORT. Laws/SoundHost.lean: the operations and commands of the host paths and of the commit point keep a device sound.
-/
namespace Sys2Proof.Machine

set_option linter.unusedTactic false
set_option linter.unreachableTactic false

/-! ### Machine/HostMap.lean -/

theorem Dev.unmapped_sound (d : Dev) (h_d : d.Sound) : Dev.Sound (Dev.unmapped d) := by
  unfold Dev.unmapped
  repeat' first
    | with_reducible assumption
    | with_reducible apply Dev.inc_sound

theorem Dev.push_sound (d : Dev) (path : Path) (q : Nat) (v : Word) (m : EccMark) (h_d : d.Sound) :
    Dev.Sound (Dev.push d path q v m) := by
  unfold Dev.push
  repeat' first
    | with_reducible assumption
    | (extract_lets +onlyGivenNames -underBinder y; clear_value y)
    | with_reducible apply Dev.putQueue_sound
    | with_reducible apply Dev.unmapped_sound
    | with_reducible apply Dev.Sound.ite

theorem Dev.popAbort_sound (d : Dev) (o : Origin) (q : Nat) (h_d : d.Sound) : Dev.Sound (Dev.popAbort d o q) := by
  unfold Dev.popAbort
  repeat' first
    | with_reducible assumption
    | (extract_lets +onlyGivenNames -underBinder y; first
        | (refine Dev.Sound.part (P := Dev.Sound (by apply y)) (fun _ => ?_) ?_ <;> [clear_value y; subst y])
        | clear_value y)
    | with_reducible apply Dev.setHostSet_sound
    | fail_if_no_progress (with_reducible refine Dev.Sound.upd rfl ?_)
    | split

theorem Dev.queueReset_sound (d : Dev) (path : Path) (q : Nat) (h_d : d.Sound) : Dev.Sound (Dev.queueReset d path q) := by
  unfold Dev.queueReset
  repeat' first
    | with_reducible assumption
    | (extract_lets +onlyGivenNames -underBinder y; first
        | (refine Dev.Sound.part (P := ∀ z, y z = y z) (fun _ => ?_) (fun _ => rfl); subst y; beta_reduce)
        | (refine Dev.Sound.part (P := Dev.Sound (by apply y)) (fun _ => ?_) ?_ <;> [clear_value y; subst y])
        | clear_value y)
    | with_reducible apply Dev.popAbort_sound
    | with_reducible apply Dev.setHostSet_sound
    | fail_if_no_progress (with_reducible refine Dev.Sound.upd rfl ?_)

theorem Dev.queueWrite_sound (d : Dev) (path : Path) (o v : Nat) (h_d : d.Sound) : Dev.Sound (Dev.queueWrite d path o v) := by
  unfold Dev.queueWrite
  repeat' first
    | with_reducible assumption
    | (extract_lets +onlyGivenNames -underBinder y; clear_value y)
    | with_reducible apply Dev.push_sound
    | with_reducible apply Dev.queueReset_sound
    | with_reducible apply Dev.setHostSet_sound
    | with_reducible apply Dev.unmapped_sound
    | with_reducible apply Dev.Sound.ite

theorem Dev.queueRead_sound (d : Dev) (path : Path) (o : Nat) (h_d : d.Sound) : Dev.Sound (Dev.queueRead d path o).1 := by
  unfold Dev.queueRead
  repeat' first
    | with_reducible assumption
    | (extract_lets +onlyGivenNames -underBinder y; clear_value y)
    | with_reducible apply Dev.unmapped_sound
    | with_reducible apply Dev.Sound.ite
    | with_reducible apply Dev.Sound.ite_fst
    | split

theorem Dev.putField_sound (d : Dev) (f : Field) (hi : Bool) (v : Nat) (h_d : d.Sound) : Dev.Sound (Dev.putField d f hi v) := by
  unfold Dev.putField
  repeat' first
    | with_reducible assumption
    | with_reducible apply Dev.Sound.w
    | with_reducible apply Dev.Sound.ite
    | split

theorem Dev.regWrite_sound (d : Dev) (a v : Nat) (h_d : d.Sound) : Dev.Sound (Dev.regWrite d a v) := by
  unfold Dev.regWrite
  repeat' first
    | with_reducible assumption
    | refine fun _ => ?_
    | with_reducible apply Dev.putField_sound
    | with_reducible apply Dev.unmapped_sound
    | with_reducible apply Dev.Sound.ite
    | with_reducible apply Dev.Sound.each
    | split

theorem Dev.writeGlobal_sound (d : Dev) (path : Path) (a v : Nat) (h_d : d.Sound) : Dev.Sound (Dev.writeGlobal d path a v) := by
  unfold Dev.writeGlobal
  repeat' first
    | with_reducible assumption
    | refine fun _ => ?_
    | with_reducible apply Dev.regWrite_sound
    | with_reducible apply Dev.setHostSet_sound
    | with_reducible apply Dev.withHealth_sound
    | with_reducible apply Dev.Sound.ite

theorem Dev.writeEpoch_sound (d : Dev) (path : Path) (a v : Nat) (h_d : d.Sound) : Dev.Sound (Dev.writeEpoch d path a v) := by
  unfold Dev.writeEpoch
  repeat' first
    | with_reducible assumption
    | with_reducible apply Dev.flag_sound
    | with_reducible apply Dev.imgHoldWrite_sound
    | with_reducible apply Dev.regWrite_sound
    | with_reducible apply Dev.setMargin_sound
    | with_reducible apply Dev.Sound.ite
    | split

theorem Dev.writeCoord_sound (d : Dev) (g : Grade) (n off a v : Nat) (h_d : d.Sound) :
    Dev.Sound (Dev.writeCoord d g n off a v) := by
  unfold Dev.writeCoord
  repeat' first
    | with_reducible assumption
    | (extract_lets +onlyGivenNames -underBinder y; first
        | (refine Dev.Sound.part (P := Dev.Sound (by apply y)) (fun _ => ?_) ?_ <;> [clear_value y; subst y])
        | clear_value y)
    | with_reducible apply Dev.coordCfgWrite_sound
    | with_reducible apply Dev.flag_sound
    | with_reducible apply Dev.regWrite_sound
    | with_reducible apply Dev.setCoord_sound
    | with_reducible apply Dev.Sound.ite
    | split

theorem Dev.slotWrite_sound (d : Dev) (a v : Nat) (h_d : d.Sound) : Dev.Sound (Dev.slotWrite d a v) := by
  unfold Dev.slotWrite
  repeat' first
    | with_reducible assumption
    | (extract_lets +onlyGivenNames -underBinder y; clear_value y)
    | with_reducible apply Dev.Sound.putMw
    | with_reducible apply Dev.Sound.ite

theorem Dev.writeMotion_sound (d : Dev) (g : Grade) (a v : Nat) (h_d : d.Sound) : Dev.Sound (Dev.writeMotion d g a v) := by
  unfold Dev.writeMotion
  repeat' first
    | with_reducible assumption
    | with_reducible apply Dev.entryWrite_sound
    | with_reducible apply Dev.gearWrite_sound
    | with_reducible apply Dev.paramWrite_sound
    | with_reducible apply Dev.regWrite_sound
    | with_reducible apply Dev.slotWrite_sound
    | with_reducible apply Dev.writeCoord_sound
    | with_reducible apply Dev.Sound.ite

theorem Dev.writeTeams_sound (d : Dev) (a v : Nat) (h_d : d.Sound) : Dev.Sound (Dev.writeTeams d a v) := by
  unfold Dev.writeTeams
  repeat' first
    | with_reducible assumption
    | (extract_lets +onlyGivenNames -underBinder y; clear_value y)
    | with_reducible apply Dev.encWrite_sound
    | with_reducible apply Dev.regWrite_sound
    | with_reducible apply Dev.teamCtrl_sound
    | with_reducible apply Dev.teamWrite_sound
    | with_reducible apply Dev.Sound.ite

theorem Dev.writeSage_sound (d : Dev) (a v : Nat) (h_d : d.Sound) : Dev.Sound (Dev.writeSage d a v) := by
  unfold Dev.writeSage
  repeat' first
    | with_reducible assumption
    | with_reducible apply Dev.regWrite_sound
    | with_reducible apply Dev.sageCtrlWrite_sound
    | with_reducible apply Dev.sageIterWrite_sound
    | with_reducible apply Dev.sageParamWrite_sound
    | with_reducible apply Dev.Sound.ite

theorem Dev.writeCerid_sound (d : Dev) (a v : Nat) (h_d : d.Sound) : Dev.Sound (Dev.writeCerid d a v) := by
  unfold Dev.writeCerid
  repeat' first
    | with_reducible assumption
    | with_reducible apply Dev.crdCfgWrite_sound
    | with_reducible apply Dev.crdTypeWrite_sound
    | with_reducible apply Dev.regWrite_sound
    | with_reducible apply Dev.Sound.ite

theorem Dev.writeOst_sound (d : Dev) (a v : Nat) (h_d : d.Sound) : Dev.Sound (Dev.writeOst d a v) := by
  unfold Dev.writeOst
  repeat' first
    | with_reducible assumption
    | refine fun _ => ?_
    | (extract_lets +onlyGivenNames -underBinder y;
       refine Dev.Sound.part (P := Dev.Sound (by apply y)) (fun _ => ?_) ?_ <;> [clear_value y; subst y])
    | with_reducible apply Dev.budgetWrite_sound
    | with_reducible apply Dev.classWrite_sound
    | with_reducible apply Dev.pins_sound
    | with_reducible apply Dev.regWrite_sound
    | with_reducible apply Dev.wb_sound
    | with_reducible apply Dev.withHealth_sound
    | with_reducible apply Dev.Sound.ite

theorem Dev.writeFio_sound (d : Dev) (a v : Nat) (h_d : d.Sound) : Dev.Sound (Dev.writeFio d a v) := by
  unfold Dev.writeFio
  repeat' first
    | with_reducible assumption
    | with_reducible apply Dev.flag_sound
    | with_reducible apply Dev.outCfgWrite_sound
    | with_reducible apply Dev.regWrite_sound
    | with_reducible apply Dev.Sound.ite

theorem Dev.writePair_sound (d : Dev) (a v : Nat) (h_d : d.Sound) : Dev.Sound (Dev.writePair d a v) := by
  unfold Dev.writePair
  repeat' first
    | with_reducible assumption
    | with_reducible apply Dev.regWrite_sound
    | with_reducible apply Dev.Sound.w
    | with_reducible apply Dev.Sound.ite

theorem Dev.trcCtrl_sound (d : Dev) (v : Nat) (h_d : d.Sound) : Dev.Sound (Dev.trcCtrl d v) := by
  unfold Dev.trcCtrl
  repeat' first
    | with_reducible assumption
    | (extract_lets +onlyGivenNames -underBinder y;
       refine Dev.Sound.part (P := Dev.Sound (by apply y)) (fun _ => ?_) ?_ <;> [clear_value y; subst y])
    | with_reducible apply Dev.trcArm_sound
    | with_reducible apply Dev.trcStop_sound
    | with_reducible apply Dev.trcTrigger_sound
    | with_reducible apply Dev.Sound.ite

theorem Dev.writeTrace_sound (d : Dev) (a v : Nat) (h_d : d.Sound) : Dev.Sound (Dev.writeTrace d a v) := by
  unfold Dev.writeTrace
  repeat' first
    | with_reducible assumption
    | with_reducible apply Dev.regWrite_sound
    | with_reducible apply Dev.trcCtrl_sound
    | with_reducible apply Dev.trcGeometryWrite_sound
    | with_reducible apply Dev.trcParamWrite_sound
    | with_reducible apply Dev.Sound.ite

theorem Dev.writeBlock_sound (d : Dev) (g : Grade) (path : Path) (a v : Nat) (h_d : d.Sound) :
    Dev.Sound (Dev.writeBlock d g path a v) := by
  unfold Dev.writeBlock
  repeat' first
    | with_reducible assumption
    | with_reducible apply Dev.loopMemWrite_sound
    | with_reducible apply Dev.regWrite_sound
    | with_reducible apply Dev.tlbCfgWrite_sound
    | with_reducible apply Dev.writeCerid_sound
    | with_reducible apply Dev.writeEpoch_sound
    | with_reducible apply Dev.writeFio_sound
    | with_reducible apply Dev.writeGlobal_sound
    | with_reducible apply Dev.writeMotion_sound
    | with_reducible apply Dev.writeOst_sound
    | with_reducible apply Dev.writePair_sound
    | with_reducible apply Dev.writeSage_sound
    | with_reducible apply Dev.writeTeams_sound
    | with_reducible apply Dev.writeTrace_sound
    | with_reducible apply Dev.Sound.ite
    | split

theorem Dev.writeWindow_sound (d : Dev) (path : Path) (a v : Nat) (h_d : d.Sound) : Dev.Sound (Dev.writeWindow d path a v) := by
  unfold Dev.writeWindow
  repeat' first
    | with_reducible assumption
    | (extract_lets +onlyGivenNames -underBinder y; clear_value y)
    | with_reducible apply Dev.countPath_sound
    | with_reducible apply Dev.inc_sound
    | with_reducible apply Dev.unmapped_sound
    | fail_if_no_progress (with_reducible refine Dev.Sound.upd rfl ?_)
    | with_reducible apply Dev.Sound.ite

theorem Dev.hostWrite_sound (d : Dev) (g : Grade) (path : Path) (a v : Nat) (h_d : d.Sound) :
    Dev.Sound (Dev.hostWrite d g path a v) := by
  unfold Dev.hostWrite
  repeat' first
    | with_reducible assumption
    | with_reducible apply Dev.countPath_sound
    | with_reducible apply Dev.queueWrite_sound
    | with_reducible apply Dev.writeBlock_sound
    | with_reducible apply Dev.writeWindow_sound
    | with_reducible apply Dev.Sound.ite

theorem Dev.latchPair_sound (d : Dev) (path : Path) (a hi : Nat) (h_d : d.Sound) : Dev.Sound (Dev.latchPair d path a hi) := by
  unfold Dev.latchPair
  repeat' first
    | with_reducible assumption
    | (extract_lets +onlyGivenNames -underBinder y; clear_value y)
    | with_reducible apply Dev.setHostSet_sound

theorem Dev.readReg_sound (d : Dev) (path : Path) (a : Nat) (h_d : d.Sound) : Dev.Sound (Dev.readReg d path a).1 := by
  unfold Dev.readReg
  repeat' first
    | with_reducible assumption
    | with_reducible apply Dev.latchPair_sound
    | with_reducible apply Dev.readTime_sound
    | with_reducible apply Dev.unmapped_sound
    | with_reducible apply Dev.Sound.ite_fst
    | split

theorem Dev.readWindow_sound (d : Dev) (path : Path) (a : Nat) (h_d : d.Sound) : Dev.Sound (Dev.readWindow d path a).1 := by
  unfold Dev.readWindow
  repeat' first
    | with_reducible assumption
    | (extract_lets +onlyGivenNames -underBinder y; clear_value y)
    | with_reducible apply Dev.latchPair_sound
    | with_reducible apply Dev.unmapped_sound
    | with_reducible apply Dev.Sound.ite_fst

theorem Dev.hostRead_sound (d : Dev) (g : Grade) (path : Path) (a : Nat) (h_d : d.Sound) :
    Dev.Sound (Dev.hostRead d g path a).1 := by
  unfold Dev.hostRead
  repeat' first
    | with_reducible assumption
    | with_reducible apply Dev.countPath_sound
    | with_reducible apply Dev.queueRead_sound
    | with_reducible apply Dev.readReg_sound
    | with_reducible apply Dev.readWindow_sound
    | with_reducible apply Dev.Sound.ite_fst
    | split

/-! ### Machine/Host.lean -/

theorem Dev.writeAccess_sound (d : Dev) (g : Grade) (path : Path) (a v : Nat) (full : Bool) (h_d : d.Sound) :
    Dev.Sound (Dev.writeAccess d g path a v full) := by
  unfold Dev.writeAccess
  repeat' first
    | with_reducible assumption
    | with_reducible apply Dev.hostWrite_sound
    | with_reducible apply Dev.inc_sound
    | with_reducible apply Dev.Sound.ite

theorem execRegWrite_sound (path : Path) (a v : Word) (full : Bool) (s : State) (h_s : s.dev.Sound) :
    Outcome.Sound (execRegWrite path a v full s) := by
  unfold execRegWrite
  repeat' first
    | with_reducible assumption
    | refine fun _ => ?_
    | with_reducible apply Dev.writeAccess_sound
    | with_reducible refine Outcome.Sound.ok h_s ?_

theorem execLatchedPairRead_sound (path : Path) (a : Word) (s : State) (h_s : s.dev.Sound) :
    Outcome.Sound (execLatchedPairRead path a s) := by
  unfold execLatchedPairRead
  repeat' first
    | with_reducible assumption
    | refine fun _ => ?_
    | with_reducible apply Dev.hostRead_sound
    | with_reducible apply Dev.readerGets_sound
    | with_reducible refine Outcome.Sound.ok h_s ?_
    | with_reducible apply Dev.Sound.ite

theorem execDomainTimeRead_sound (path : Path) (s : State) (h_s : s.dev.Sound) : Outcome.Sound (execDomainTimeRead path s) := by
  unfold execDomainTimeRead
  repeat' first
    | with_reducible assumption
    | refine fun _ => ?_
    | with_reducible apply Dev.access_sound
    | with_reducible apply Dev.readTime_sound
    | with_reducible apply Dev.readerGets_sound
    | with_reducible refine Outcome.Sound.ok h_s ?_

theorem execQueuePush_sound (path : Path) (q : Fin 8) (v : Word) (m : EccMark) (s : State) (h_s : s.dev.Sound) :
    Outcome.Sound (execQueuePush path q v m s) := by
  unfold execQueuePush
  repeat' first
    | with_reducible assumption
    | refine fun _ => ?_
    | with_reducible apply Dev.push_sound
    | with_reducible refine Outcome.Sound.ok h_s ?_
    | with_reducible apply Dev.Sound.ite

theorem Dev.queueSeen_sound (d : Dev) (path : Path) (q : Nat) (h_d : d.Sound) : Dev.Sound (Dev.queueSeen d path q) := by
  unfold Dev.queueSeen
  repeat' first
    | with_reducible assumption
    | (extract_lets +onlyGivenNames -underBinder y; clear_value y)
    | fail_if_no_progress (with_reducible refine Dev.Sound.upd rfl ?_)
    | split

theorem Dev.queuePop_sound (d : Dev) (path : Path) (q n : Nat) (marks : List EccMark) (h_d : d.Sound) :
    Dev.Sound (Dev.queuePop d path q n marks) := by
  unfold Dev.queuePop
  repeat' first
    | with_reducible assumption
    | (extract_lets +onlyGivenNames -underBinder y; clear_value y)
    | with_reducible apply Dev.popRead_sound
    | with_reducible apply Dev.queueSeen_sound
    | with_reducible apply Dev.readerGets_sound
    | with_reducible apply Dev.Sound.ite

theorem execQueuePop_sound (path : Path) (q : Fin 8) (n : Fin 513) (marks : List EccMark) (s : State) (h_s : s.dev.Sound) :
    Outcome.Sound (execQueuePop path q n marks s) := by
  unfold execQueuePop
  repeat' first
    | with_reducible assumption
    | refine fun _ => ?_
    | with_reducible apply Dev.queuePop_sound
    | with_reducible refine Outcome.Sound.ok h_s ?_
    | with_reducible apply Dev.Sound.ite

theorem Dev.popExpire_sound (d : Dev) (path : Path) (q : Nat) (h_d : d.Sound) : Dev.Sound (Dev.popExpire d path q) := by
  unfold Dev.popExpire
  repeat' first
    | with_reducible assumption
    | (extract_lets +onlyGivenNames -underBinder y; first
        | (refine Dev.Sound.part (P := Dev.Sound (by apply y)) (fun _ => ?_) ?_ <;> [clear_value y; subst y])
        | clear_value y)
    | with_reducible apply Dev.putQueue_sound
    | with_reducible apply Dev.readerGets_sound
    | fail_if_no_progress (with_reducible refine Dev.Sound.upd rfl ?_)
    | with_reducible apply Dev.Sound.ite
    | split

theorem execPopStallExpire_sound (path : Path) (q : Fin 8) (s : State) (h_s : s.dev.Sound) :
    Outcome.Sound (execPopStallExpire path q s) := by
  unfold execPopStallExpire
  repeat' first
    | with_reducible assumption
    | refine fun _ => ?_
    | with_reducible apply Dev.popExpire_sound
    | with_reducible refine Outcome.Sound.ok h_s ?_

theorem execQCtrlReset_sound (path : Path) (q : Fin 8) (s : State) (h_s : s.dev.Sound) :
    Outcome.Sound (execQCtrlReset path q s) := by
  unfold execQCtrlReset
  repeat' first
    | with_reducible assumption
    | refine fun _ => ?_
    | with_reducible apply Dev.queueReset_sound
    | with_reducible refine Outcome.Sound.ok h_s ?_
    | with_reducible apply Dev.Sound.ite

theorem Dev.queueHalt_sound (d : Dev) (path : Path) (q : Nat) (h_d : d.Sound) : Dev.Sound (Dev.queueHalt d path q) := by
  unfold Dev.queueHalt
  repeat' first
    | with_reducible assumption
    | (extract_lets +onlyGivenNames -underBinder y; first
        | (refine Dev.Sound.part (P := Dev.Sound (by apply y)) (fun _ => ?_) ?_ <;> [clear_value y; subst y])
        | clear_value y)
    | with_reducible apply Dev.answer_sound
    | with_reducible apply Dev.putQueue_sound
    | with_reducible apply Dev.Sound.ite
    | split

theorem execQueueHalt_sound (path : Path) (q : Fin 4) (s : State) (h_s : s.dev.Sound) :
    Outcome.Sound (execQueueHalt path q s) := by
  unfold execQueueHalt
  repeat' first
    | with_reducible assumption
    | refine fun _ => ?_
    | with_reducible apply Dev.queueHalt_sound
    | with_reducible refine Outcome.Sound.ok h_s ?_

theorem execBadOpcodePacket_sound (op : BitVec 12) (p : Packet) (s : State) (h_s : s.dev.Sound) :
    Outcome.Sound (execBadOpcodePacket op p s) := by
  unfold execBadOpcodePacket
  repeat' first
    | with_reducible assumption
    | refine fun _ => ?_
    | with_reducible apply Dev.runPacket_sound
    | with_reducible refine Outcome.Sound.ok h_s ?_
    | with_reducible apply Dev.Sound.ite

theorem Dev.replyWrite_sound (d : Dev) (o : Origin) (q : Nat) (h_d : d.Sound) : Dev.Sound (Dev.replyWrite d o q) := by
  unfold Dev.replyWrite
  repeat' first
    | with_reducible assumption
    | (extract_lets +onlyGivenNames -underBinder y; clear_value y)
    | with_reducible apply Dev.setHostSet_sound
    | with_reducible apply Dev.writeReply_sound
    | with_reducible apply Dev.Sound.ite
    | split

theorem execReplyWrite_sound (path : Path) (q : Fin 4) (s : State) (h_s : s.dev.Sound) :
    Outcome.Sound (execReplyWrite path q s) := by
  unfold execReplyWrite
  repeat' first
    | with_reducible assumption
    | refine fun _ => ?_
    | with_reducible apply Dev.replyWrite_sound
    | with_reducible refine Outcome.Sound.ok h_s ?_

theorem Dev.onFunction_sound (d : Dev) (pf1 : Bool) (f : HostSet → HostSet) (h_d : d.Sound) :
    Dev.Sound (Dev.onFunction d pf1 f) := by
  unfold Dev.onFunction
  repeat' first
    | with_reducible assumption
    | (extract_lets +onlyGivenNames -underBinder y; clear_value y)
    | fail_if_no_progress (with_reducible refine Dev.Sound.upd rfl ?_)
    | with_reducible apply Dev.Sound.ite

theorem execMsixUnmask_sound (pf1 : Bool) (v : Fin 8) (s : State) (h_s : s.dev.Sound) :
    Outcome.Sound (execMsixUnmask pf1 v s) := by
  unfold execMsixUnmask
  repeat' first
    | with_reducible assumption
    | refine fun _ => ?_
    | with_reducible apply Dev.onFunction_sound
    | with_reducible refine Outcome.Sound.ok h_s ?_
    | with_reducible apply Dev.Sound.ite

theorem execPciePerst_sound (low : Bool) (s : State) (h_s : s.dev.Sound) : Outcome.Sound (execPciePerst low s) := by
  unfold execPciePerst
  repeat' first
    | with_reducible assumption
    | refine fun _ => ?_
    | (extract_lets +onlyGivenNames -underBinder y; first
        | (refine Dev.Sound.part (P := Dev.Sound (by apply y)) (fun _ => ?_) ?_ <;> [clear_value y; subst y])
        | clear_value y)
    | with_reducible apply Dev.onFunction_sound
    | with_reducible refine Outcome.Sound.ok h_s ?_
    | fail_if_no_progress (with_reducible refine Dev.Sound.upd rfl ?_)
    | with_reducible apply Dev.Sound.ite

theorem execPciePowerState_sound (pf1 d3 : Bool) (s : State) (h_s : s.dev.Sound) :
    Outcome.Sound (execPciePowerState pf1 d3 s) := by
  unfold execPciePowerState
  repeat' first
    | with_reducible assumption
    | refine fun _ => ?_
    | with_reducible apply Dev.onFunction_sound
    | with_reducible refine Outcome.Sound.ok h_s ?_
    | with_reducible apply Dev.Sound.ite

theorem Dev.spiTransaction_sound (d : Dev) (asked : Bool) (f : Dev → Dev)
    (h_d : d.Sound) (h_f : ∀ z0, Dev.Sound z0 → Dev.Sound (f z0)) :
    Dev.Sound (Dev.spiTransaction d asked f) := by
  unfold Dev.spiTransaction
  repeat' first
    | with_reducible assumption
    | (extract_lets +onlyGivenNames -underBinder y; clear_value y)
    | with_reducible apply Dev.Sound.w
    | with_reducible apply Dev.Sound.ite
    | with_reducible apply h_f

theorem Dev.spiWrite_sound (d : Dev) (g : Grade) (asked : Bool) (a : Nat) (ws : List Word) (part : Bool) (h_d : d.Sound) :
    Dev.Sound (Dev.spiWrite d g asked a ws part) := by
  unfold Dev.spiWrite
  repeat' first
    | with_reducible assumption
    | refine fun _ => ?_
    | (extract_lets +onlyGivenNames -underBinder y;
       refine Dev.Sound.part (P := Dev.Sound (by apply y)) (fun _ => ?_) ?_ <;> [clear_value y; subst y])
    | with_reducible apply Dev.inc_sound
    | with_reducible apply Dev.spiTransaction_sound
    | with_reducible apply Dev.writeAccess_sound
    | with_reducible apply Dev.Sound.ite
    | with_reducible apply Dev.Sound.each

theorem execSpiWrite_sound (a : Word) (ws : List Word) (part : Bool) (s : State) (h_s : s.dev.Sound) :
    Outcome.Sound (execSpiWrite a ws part s) := by
  unfold execSpiWrite
  repeat' first
    | with_reducible assumption
    | refine fun _ => ?_
    | with_reducible apply Dev.spiWrite_sound
    | with_reducible refine Outcome.Sound.ok h_s ?_

theorem execSpiWritePrivileged_sound (a : Word) (ws : List Word) (part : Bool) (s : State) (h_s : s.dev.Sound) :
    Outcome.Sound (execSpiWritePrivileged a ws part s) := by
  unfold execSpiWritePrivileged
  repeat' first
    | with_reducible assumption
    | refine fun _ => ?_
    | with_reducible apply Dev.spiWrite_sound
    | with_reducible refine Outcome.Sound.ok h_s ?_

theorem Dev.spiWords_sound (d : Dev) (g : Grade) (path : Path) (a : Nat) (got : List Word) (marks : List EccMark) (x0 : Nat)
    (h_d : d.Sound) :
    Dev.Sound (Dev.spiWords d g path a got marks x0) := by
  induction x0 generalizing d a got marks with
  | zero =>
    unfold Dev.spiWords
    repeat' first
      | with_reducible assumption
      | (extract_lets +onlyGivenNames -underBinder y; first
          | (refine Dev.Sound.part (P := Dev.Sound (by apply y)) (fun _ => ?_) ?_ <;> [clear_value y; subst y])
          | clear_value y)
      | with_reducible apply Dev.hostRead_sound
      | with_reducible apply Dev.putQueue_sound
      | with_reducible apply Dev.queueSeen_sound
      | with_reducible apply Dev.readerGets_sound
      | with_reducible apply Dev.Sound.ite
      | split
  | succ n ih =>
    unfold Dev.spiWords
    repeat' first
      | with_reducible assumption
      | with_reducible apply ih
      | (extract_lets +onlyGivenNames -underBinder y; first
          | (refine Dev.Sound.part (P := Dev.Sound (by apply y)) (fun _ => ?_) ?_ <;> [clear_value y; subst y])
          | clear_value y)
      | with_reducible apply Dev.hostRead_sound
      | with_reducible apply Dev.putQueue_sound
      | with_reducible apply Dev.queueSeen_sound
      | with_reducible apply Dev.readerGets_sound
      | with_reducible apply Dev.Sound.ite
      | split

theorem Dev.spiRead_sound (d : Dev) (g : Grade) (asked : Bool) (a n : Nat) (marks : List EccMark) (h_d : d.Sound) :
    Dev.Sound (Dev.spiRead d g asked a n marks) := by
  unfold Dev.spiRead
  repeat' first
    | with_reducible assumption
    | refine fun _ => ?_
    | (extract_lets +onlyGivenNames -underBinder y; clear_value y)
    | with_reducible apply Dev.spiTransaction_sound
    | with_reducible apply Dev.spiWords_sound
    | fail_if_no_progress (with_reducible refine Dev.Sound.upd rfl ?_)
    | with_reducible apply Dev.Sound.ite

theorem execSpiRead_sound (a : Word) (n : Nat) (marks : List EccMark) (s : State) (h_s : s.dev.Sound) :
    Outcome.Sound (execSpiRead a n marks s) := by
  unfold execSpiRead
  repeat' first
    | with_reducible assumption
    | refine fun _ => ?_
    | with_reducible apply Dev.spiRead_sound
    | with_reducible refine Outcome.Sound.ok h_s ?_

theorem execSpiReadPrivileged_sound (a : Word) (n : Nat) (marks : List EccMark) (s : State) (h_s : s.dev.Sound) :
    Outcome.Sound (execSpiReadPrivileged a n marks s) := by
  unfold execSpiReadPrivileged
  repeat' first
    | with_reducible assumption
    | refine fun _ => ?_
    | with_reducible apply Dev.spiRead_sound
    | with_reducible refine Outcome.Sound.ok h_s ?_

theorem execSpiStatus_sound (s : State) (h_s : s.dev.Sound) : Outcome.Sound (execSpiStatus s) := by
  unfold execSpiStatus
  repeat' first
    | with_reducible assumption
    | refine fun _ => ?_
    | (extract_lets +onlyGivenNames -underBinder y; clear_value y)
    | with_reducible refine Outcome.Sound.ok h_s ?_
    | fail_if_no_progress (with_reducible refine Dev.Sound.upd rfl ?_)
    | with_reducible apply Dev.Sound.ite

theorem execSpiUnknownCommand_sound (cmd : Byte) (s : State) (h_s : s.dev.Sound) :
    Outcome.Sound (execSpiUnknownCommand cmd s) := by
  unfold execSpiUnknownCommand
  repeat' first
    | with_reducible assumption
    | refine fun _ => ?_
    | with_reducible apply Dev.unmapped_sound
    | with_reducible refine Outcome.Sound.ok h_s ?_
    | with_reducible apply Dev.Sound.ite

theorem execDevInfo_sound (p : Packet) (s : State) (h_s : s.dev.Sound) : Outcome.Sound (execDevInfo p s) := by
  unfold execDevInfo
  repeat' first
    | with_reducible assumption
    | refine fun _ => ?_
    | with_reducible apply Dev.runPacket_sound
    | with_reducible refine Outcome.Sound.ok h_s ?_

theorem execDevEcho_sound (p : Packet) (s : State) (h_s : s.dev.Sound) : Outcome.Sound (execDevEcho p s) := by
  unfold execDevEcho
  repeat' first
    | with_reducible assumption
    | refine fun _ => ?_
    | with_reducible apply Dev.runPacket_sound
    | with_reducible refine Outcome.Sound.ok h_s ?_

theorem execDevHostStat_sound (p : Packet) (s : State) (h_s : s.dev.Sound) : Outcome.Sound (execDevHostStat p s) := by
  unfold execDevHostStat
  repeat' first
    | with_reducible assumption
    | refine fun _ => ?_
    | with_reducible apply Dev.runPacket_sound
    | with_reducible refine Outcome.Sound.ok h_s ?_

theorem execDevNoticeCfg_sound (p : Packet) (s : State) (h_s : s.dev.Sound) : Outcome.Sound (execDevNoticeCfg p s) := by
  unfold execDevNoticeCfg
  repeat' first
    | with_reducible assumption
    | refine fun _ => ?_
    | (extract_lets +onlyGivenNames -underBinder y; clear_value y)
    | with_reducible apply Dev.runPacket_sound
    | with_reducible apply Dev.setHostSet_sound
    | with_reducible refine Outcome.Sound.ok h_s ?_

theorem execDevRemote_sound (p : Packet) (s : State) (h_s : s.dev.Sound) : Outcome.Sound (execDevRemote p s) := by
  unfold execDevRemote
  repeat' first
    | with_reducible assumption
    | refine fun _ => ?_
    | (extract_lets +onlyGivenNames -underBinder y; clear_value y)
    | with_reducible apply Dev.runPacketW_sound
    | with_reducible apply Dev.sendRequest_sound
    | with_reducible apply Dev.wait_sound
    | with_reducible refine Outcome.Sound.ok h_s ?_
    | with_reducible apply Dev.Sound.ite_fst

theorem execDevRemoteTimeout_sound (s : State) (h_s : s.dev.Sound) : Outcome.Sound (execDevRemoteTimeout s) := by
  unfold execDevRemoteTimeout
  repeat' first
    | with_reducible assumption
    | refine fun _ => ?_
    | with_reducible apply Dev.remoteTimeouts_sound
    | with_reducible refine Outcome.Sound.ok h_s ?_

theorem execDevHealth_sound (p : Packet) (s : State) (h_s : s.dev.Sound) : Outcome.Sound (execDevHealth p s) := by
  unfold execDevHealth
  repeat' first
    | with_reducible assumption
    | refine fun _ => ?_
    | with_reducible apply Dev.runPacket_sound
    | with_reducible refine Outcome.Sound.ok h_s ?_

theorem Dev.commitNotices_sound (d : Dev) (h_d : d.Sound) : Dev.Sound (Dev.commitNotices d) := by
  unfold Dev.commitNotices
  repeat' first
    | with_reducible assumption
    | with_reducible apply Dev.onFunction_sound

/-! ### Machine/Commit.lean -/

theorem Dev.firstDone_sound (d : Dev) (g : Grade) (was : Bool) (h_d : d.Sound) : Dev.Sound (Dev.firstDone d g was) := by
  unfold Dev.firstDone
  repeat' first
    | with_reducible assumption
    | with_reducible apply Dev.firstCommit_sound
    | with_reducible apply Dev.Sound.ite

theorem Dev.keepFront_sound (d : Dev) (n : Nat) (h_d : d.Sound) : Dev.Sound (Dev.keepFront d n) := by
  unfold Dev.keepFront
  repeat' first
    | with_reducible assumption
    | (extract_lets +onlyGivenNames -underBinder y; first
        | (refine Dev.Sound.part (P := EpochState.frontRegs y = EpochState.frontRegs y) (fun _ => ?_) rfl; subst y)
        | clear_value y)
    | exact Dev.Sound.fresh h_d.regs h_d.regs h_d.mem
    | with_reducible apply Dev.Sound.ite

theorem Dev.commitEpoch_sound (d : Dev) (g : Grade) (n : Nat) (h_d : d.Sound) : Dev.Sound (Dev.commitEpoch d g n) := by
  unfold Dev.commitEpoch
  repeat' first
    | with_reducible assumption
    | (extract_lets +onlyGivenNames -underBinder y; first
        | (refine Dev.Sound.part (P := Dev.Sound (by apply y)) (fun _ => ?_) ?_ <;> [clear_value y; subst y])
        | clear_value y)
    | with_reducible apply Dev.commitImage_sound
    | with_reducible apply Dev.commitNotices_sound
    | with_reducible apply Dev.firstDone_sound
    | with_reducible apply Dev.keepFront_sound
    | with_reducible apply Dev.loopCommit_sound
    | with_reducible apply Dev.pairCommit_sound
    | with_reducible apply Dev.pdkEpochEnd_sound
    | with_reducible apply Dev.pins_sound
    | with_reducible apply Dev.publishField_sound
    | with_reducible apply Dev.takeoverDone_sound
    | with_reducible apply Dev.traceCommit_sound

theorem Dev.dropEpoch_sound (d : Dev) (h_d : d.Sound) : Dev.Sound (Dev.dropEpoch d) := by
  unfold Dev.dropEpoch
  repeat' first
    | with_reducible assumption
    | refine fun _ => ?_
    | (extract_lets +onlyGivenNames -underBinder y; first
        | (refine Dev.Sound.part (P := Dev.Sound (by apply y)) (fun _ => ?_) ?_ <;> [clear_value y; subst y])
        | (refine Dev.Sound.part (P := EpochState.frontRegs y = EpochState.frontRegs y) (fun _ => ?_) rfl; subst y)
        | clear_value y)
    | with_reducible apply Dev.setTx_sound
    | fail_if_no_progress (with_reducible refine Dev.Sound.upd rfl ?_)
    | with_reducible apply Dev.Sound.ite
    | with_reducible apply Dev.Sound.each

theorem Dev.skipEpoch_sound (d : Dev) (n : Nat) (h_d : d.Sound) : Dev.Sound (Dev.skipEpoch d n) := by
  unfold Dev.skipEpoch
  repeat' first
    | with_reducible assumption
    | with_reducible apply Dev.dropEpoch_sound
    | with_reducible apply Dev.handoverRelease_sound
    | with_reducible apply Dev.pairIdle_sound

theorem Dev.beginEpoch_sound (d : Dev) (n : Nat) (h_d : d.Sound) : Dev.Sound (Dev.beginEpoch d n) := by
  unfold Dev.beginEpoch
  repeat' first
    | with_reducible assumption
    | (extract_lets +onlyGivenNames -underBinder y; first
        | (refine Dev.Sound.part (P := Dev.Sound (by apply y)) (fun _ => ?_) ?_ <;> [clear_value y; subst y])
        | (refine Dev.Sound.part (P := EpochState.frontRegs y = EpochState.frontRegs y) (fun _ => ?_) rfl; subst y))
    | with_reducible apply Dev.wb_sound
    | with_reducible apply Dev.Sound.w
    | fail_if_no_progress (with_reducible refine Dev.Sound.upd rfl ?_)
    | with_reducible apply Dev.Sound.ite

theorem Dev.rebaseRestore_sound (d : Dev) (g : Grade) (h_d : d.Sound) : Dev.Sound (Dev.rebaseRestore d g) := by
  unfold Dev.rebaseRestore
  repeat' first
    | with_reducible assumption
    | with_reducible apply Dev.restore_sound
    | with_reducible apply Dev.Sound.ite
    | split

theorem Dev.applyCommit_sound (d : Dev) (h_d : d.Sound) : Dev.Sound (Dev.applyCommit d) := by
  unfold Dev.applyCommit
  repeat' first
    | with_reducible assumption
    | with_reducible apply Dev.commitToken_sound
    | with_reducible apply Dev.fieldBoundary_sound
    | with_reducible apply Dev.pdkCommit_sound
    | with_reducible apply Dev.teamsCommit_sound

theorem Dev.loopStart_sound (d : Dev) (h_d : d.Sound) : Dev.Sound (Dev.loopStart d) := by
  unfold Dev.loopStart
  repeat' first
    | with_reducible assumption
    | (extract_lets +onlyGivenNames -underBinder y; first
        | (refine Dev.Sound.part (P := Dev.Sound (by apply y)) (fun _ => ?_) ?_ <;> [clear_value y; subst y])
        | clear_value y)
    | with_reducible apply Dev.loopBoundary_sound
    | with_reducible apply Dev.trcDrop_sound
    | with_reducible apply Dev.Sound.ite

theorem Dev.enginesStart_sound (d : Dev) (n : Nat) (h_d : d.Sound) : Dev.Sound (Dev.enginesStart d n) := by
  unfold Dev.enginesStart
  repeat' first
    | with_reducible assumption
    | (extract_lets +onlyGivenNames -underBinder y;
       refine Dev.Sound.part (P := Dev.Sound (by apply y)) (fun _ => ?_) ?_ <;> [clear_value y; subst y])
    | with_reducible apply Dev.calendarBoundary_sound
    | with_reducible apply Dev.loopStart_sound
    | with_reducible apply Dev.ostBoundary_sound
    | with_reducible apply Dev.prfBoundary_sound
    | with_reducible apply Dev.traceBoundary_sound
    | with_reducible apply Dev.Sound.ite

theorem Dev.boundary_sound (d : Dev) (g : Grade) (n : Nat) (committed : Bool) (h_d : d.Sound) :
    Dev.Sound (Dev.boundary d g n committed) := by
  unfold Dev.boundary
  repeat' first
    | with_reducible assumption
    | (extract_lets +onlyGivenNames -underBinder y;
       refine Dev.Sound.part (P := Dev.Sound (by apply y)) (fun _ => ?_) ?_ <;> [clear_value y; subst y])
    | with_reducible apply Dev.applyCommit_sound
    | with_reducible apply Dev.beginEpoch_sound
    | with_reducible apply Dev.enginesStart_sound
    | with_reducible apply Dev.fieldSample_sound
    | with_reducible apply Dev.pins_sound
    | with_reducible apply Dev.rebaseRestore_sound
    | with_reducible apply Dev.ringBoundary_sound
    | with_reducible apply Dev.senseBoundary_sound
    | with_reducible apply Dev.Sound.ite

theorem Dev.commitPoint_sound (d : Dev) (g : Grade) (h_d : d.Sound) : Dev.Sound (Dev.commitPoint d g) := by
  unfold Dev.commitPoint
  repeat' first
    | with_reducible assumption
    | (extract_lets +onlyGivenNames -underBinder y; first
        | (refine Dev.Sound.part (P := Dev.Sound (by apply y)) (fun _ => ?_) ?_ <;> [clear_value y; subst y])
        | clear_value y)
    | with_reducible apply Dev.boundary_sound
    | with_reducible apply Dev.commitEpoch_sound
    | with_reducible apply Dev.reach_sound
    | with_reducible apply Dev.skipEpoch_sound
    | with_reducible apply Dev.Sound.ite

theorem execCommitPoint_sound (s : State) (h_s : s.dev.Sound) : Outcome.Sound (execCommitPoint s) := by
  unfold execCommitPoint
  repeat' first
    | with_reducible assumption
    | refine fun _ => ?_
    | with_reducible apply Dev.commitPoint_sound
    | with_reducible refine Outcome.Sound.ok h_s ?_

theorem Dev.deadline_sound (d : Dev) (h_d : d.Sound) : Dev.Sound (Dev.deadline d) := by
  unfold Dev.deadline
  repeat' first
    | with_reducible assumption
    | (extract_lets +onlyGivenNames -underBinder y; first
        | (refine Dev.Sound.part (P := Dev.Sound (by apply y)) (fun _ => ?_) ?_ <;> [clear_value y; subst y])
        | (refine Dev.Sound.part (P := EpochState.frontRegs y = EpochState.frontRegs y) (fun _ => ?_) rfl; subst y))
    | with_reducible apply Dev.loopDeadline_sound
    | with_reducible apply Dev.ostDeadline_sound
    | with_reducible apply Dev.reach_sound
    | with_reducible apply Dev.ringDeadline_sound
    | fail_if_no_progress (with_reducible refine Dev.Sound.upd rfl ?_)
    | with_reducible apply Dev.Sound.ite

theorem execEpochDeadline_sound (s : State) (h_s : s.dev.Sound) : Outcome.Sound (execEpochDeadline s) := by
  unfold execEpochDeadline
  repeat' first
    | with_reducible assumption
    | refine fun _ => ?_
    | with_reducible apply Dev.deadline_sound
    | with_reducible refine Outcome.Sound.ok h_s ?_

end Sys2Proof.Machine
end

