-- ==== Sys2Proof/Laws/SoundHackney.lean ====
section
/-!
SUPPORT. Laws/SoundHackney.lean: the operations and commands of the Hackney cores keep a device sound.
-/
namespace Sys2Proof.Machine

set_option linter.unusedTactic false
set_option linter.unreachableTactic false

/-! ### Machine/HkCore.lean -/

theorem Dev.hkFault_sound (d : Dev) (c cause addr : Nat) (h_d : d.Sound) : Dev.Sound (Dev.hkFault d c cause addr) := by
  unfold Dev.hkFault
  repeat' first
    | with_reducible assumption
    | (extract_lets +onlyGivenNames -underBinder y; first
        | (refine Dev.Sound.part (P := Dev.Sound (by apply y)) (fun _ => ?_) ?_ <;> [clear_value y; subst y])
        | clear_value y)
    | with_reducible apply Dev.inc_sound
    | with_reducible apply Dev.ostEnd_sound
    | with_reducible apply Dev.Sound.w

theorem Dev.showCore_sound (d : Dev) (c : Nat) (h_d : d.Sound) : Dev.Sound (Dev.showCore d c) := by
  unfold Dev.showCore
  repeat' first
    | with_reducible assumption
    | (extract_lets +onlyGivenNames -underBinder y; first
        | (refine Dev.Sound.part (P := Dev.Sound (by apply y)) (fun _ => ?_) ?_ <;> [clear_value y; subst y])
        | clear_value y)
    | with_reducible apply Dev.reach_sound
    | with_reducible apply Dev.wb_sound
    | with_reducible apply Dev.Sound.w

theorem Dev.hkIssue_sound (d : Dev) (x : HkIssue) (w : HkWant) (body : HkCore → HkCore → Nat → Dev → HkRes)
    (h_d : d.Sound) (h_body : ∀ z0 z1 z2 z3, Dev.Sound z3 → HkRes.Sound (body z0 z1 z2 z3)) :
    Dev.Sound (Dev.hkIssue d x w body) := by
  unfold Dev.hkIssue
  repeat' first
    | with_reducible assumption
    | (extract_lets +onlyGivenNames -underBinder y; first
        | (refine Dev.Sound.part (P := Dev.Sound (by apply y)) (fun _ => ?_) ?_ <;> [clear_value y; subst y])
        | clear_value y)
    | with_reducible apply Dev.drainTo_sound
    | with_reducible apply Dev.hkFault_sound
    | with_reducible apply Dev.inc_sound
    | with_reducible apply Dev.setCore_sound
    | with_reducible apply Dev.showCore_sound
    | with_reducible apply Dev.Sound.ite
    | (with_reducible refine HkRes.Sound.of_go (by assumption) ?_)
    | with_reducible apply h_body
    | split

theorem Dev.hkAlu_sound (d : Dev) (x : HkIssue) (w : HkWant) (n rd : Nat) (f : HkCore → Nat) (h_d : d.Sound) :
    Dev.Sound (Dev.hkAlu d x w n rd f) := by
  unfold Dev.hkAlu
  repeat' first
    | with_reducible assumption
    | refine fun _ => ?_
    | with_reducible apply Dev.hkIssue_sound
    | with_reducible apply HkRes.Sound.go

theorem Dev.hkIllegal_sound (d : Dev) (x : HkIssue) (h_d : d.Sound) : Dev.Sound (Dev.hkIllegal d x) := by
  unfold Dev.hkIllegal
  repeat' first
    | with_reducible assumption
    | refine fun _ => ?_
    | (extract_lets +onlyGivenNames -underBinder y; clear_value y)
    | with_reducible apply Dev.hkIssue_sound
    | with_reducible apply Dev.Sound.ite
    | exact HkRes.Sound.fault

theorem execIllegalInstruction_sound (x : HkIssue) (s : State) (h_s : s.dev.Sound) :
    Outcome.Sound (execIllegalInstruction x s) := by
  unfold execIllegalInstruction
  repeat' first
    | with_reducible assumption
    | refine fun _ => ?_
    | with_reducible apply Dev.hkIllegal_sound
    | with_reducible refine Outcome.Sound.ok h_s ?_

theorem Dev.swmDelay_sound (d : Dev) (h_d : d.Sound) : Dev.Sound (Dev.swmDelay d).1 := by
  unfold Dev.swmDelay
  repeat' first
    | with_reducible assumption
    | (extract_lets +onlyGivenNames -underBinder y; clear_value y)
    | fail_if_no_progress (with_reducible refine Dev.Sound.upd rfl ?_)

theorem Dev.hkLoad_sound (d : Dev) (c : Nat) (k : HkCore) (a n : Nat) (h_d : d.Sound) : Dev.Sound (Dev.hkLoad d c k a n).1 := by
  unfold Dev.hkLoad
  repeat' first
    | with_reducible assumption
    | (extract_lets +onlyGivenNames -underBinder y; clear_value y)
    | with_reducible apply Dev.swmDelay_sound
    | split

theorem Dev.hkStore_sound (d : Dev) (k : HkCore) (t a n v : Nat) (h_d : d.Sound) : HkRes.Sound (Dev.hkStore d k t a n v) := by
  unfold Dev.hkStore
  repeat' first
    | with_reducible assumption
    | with_reducible apply Dev.swmDelay_sound
    | with_reducible apply Dev.Sound.ite_fst
    | exact HkRes.Sound.stay
    | with_reducible apply HkRes.Sound.go
    | with_reducible apply HkRes.Sound.ite

/-! ### Machine/HkInt.lean -/

theorem hkR3_sound (x : HkIssue) (fn n : Nat) (d a b : Fin 32) (f : Nat → Nat → Nat) (s : State) (h_s : s.dev.Sound) :
    Outcome.Sound (hkR3 x fn n d a b f s) := by
  unfold hkR3
  repeat' first
    | with_reducible assumption
    | refine fun _ => ?_
    | with_reducible apply Dev.hkAlu_sound
    | with_reducible refine Outcome.Sound.ok h_s ?_

theorem hkRK_sound (x : HkIssue) (mop : Nat) (d a : Fin 32) (k16 : BitVec 16) (f : Nat → Nat → Nat) (s : State)
    (h_s : s.dev.Sound) :
    Outcome.Sound (hkRK x mop d a k16 f s) := by
  unfold hkRK
  repeat' first
    | with_reducible assumption
    | refine fun _ => ?_
    | with_reducible apply Dev.hkAlu_sound
    | with_reducible refine Outcome.Sound.ok h_s ?_

theorem hkShiftK_sound (x : HkIssue) (mop : Nat) (d a : Fin 32) (k5 : Fin 32) (f : Nat → Nat → Nat) (s : State)
    (h_s : s.dev.Sound) :
    Outcome.Sound (hkShiftK x mop d a k5 f s) := by
  unfold hkShiftK
  repeat' first
    | with_reducible assumption
    | refine fun _ => ?_
    | with_reducible apply Dev.hkAlu_sound
    | with_reducible refine Outcome.Sound.ok h_s ?_

theorem execAdd_sound (x : HkIssue) (d a b : Fin 32) (s : State) (h_s : s.dev.Sound) : Outcome.Sound (execAdd x d a b s) := by
  unfold execAdd
  repeat' first
    | with_reducible assumption
    | with_reducible apply hkR3_sound

theorem execSub_sound (x : HkIssue) (d a b : Fin 32) (s : State) (h_s : s.dev.Sound) : Outcome.Sound (execSub x d a b s) := by
  unfold execSub
  repeat' first
    | with_reducible assumption
    | with_reducible apply hkR3_sound

theorem execAnd_sound (x : HkIssue) (d a b : Fin 32) (s : State) (h_s : s.dev.Sound) : Outcome.Sound (execAnd x d a b s) := by
  unfold execAnd
  repeat' first
    | with_reducible assumption
    | with_reducible apply hkR3_sound

theorem execOr_sound (x : HkIssue) (d a b : Fin 32) (s : State) (h_s : s.dev.Sound) : Outcome.Sound (execOr x d a b s) := by
  unfold execOr
  repeat' first
    | with_reducible assumption
    | with_reducible apply hkR3_sound

theorem execXor_sound (x : HkIssue) (d a b : Fin 32) (s : State) (h_s : s.dev.Sound) : Outcome.Sound (execXor x d a b s) := by
  unfold execXor
  repeat' first
    | with_reducible assumption
    | with_reducible apply hkR3_sound

theorem execShl_sound (x : HkIssue) (d a b : Fin 32) (s : State) (h_s : s.dev.Sound) : Outcome.Sound (execShl x d a b s) := by
  unfold execShl
  repeat' first
    | with_reducible assumption
    | with_reducible apply hkR3_sound

theorem execShr_sound (x : HkIssue) (d a b : Fin 32) (s : State) (h_s : s.dev.Sound) : Outcome.Sound (execShr x d a b s) := by
  unfold execShr
  repeat' first
    | with_reducible assumption
    | with_reducible apply hkR3_sound

theorem execSar_sound (x : HkIssue) (d a b : Fin 32) (s : State) (h_s : s.dev.Sound) : Outcome.Sound (execSar x d a b s) := by
  unfold execSar
  repeat' first
    | with_reducible assumption
    | with_reducible apply hkR3_sound

theorem execClt_sound (x : HkIssue) (d a b : Fin 32) (s : State) (h_s : s.dev.Sound) : Outcome.Sound (execClt x d a b s) := by
  unfold execClt
  repeat' first
    | with_reducible assumption
    | with_reducible apply hkR3_sound

theorem execCltu_sound (x : HkIssue) (d a b : Fin 32) (s : State) (h_s : s.dev.Sound) : Outcome.Sound (execCltu x d a b s) := by
  unfold execCltu
  repeat' first
    | with_reducible assumption
    | with_reducible apply hkR3_sound

theorem execMul_sound (x : HkIssue) (d a b : Fin 32) (s : State) (h_s : s.dev.Sound) : Outcome.Sound (execMul x d a b s) := by
  unfold execMul
  repeat' first
    | with_reducible assumption
    | with_reducible apply hkR3_sound

theorem execMulhs_sound (x : HkIssue) (d a b : Fin 32) (s : State) (h_s : s.dev.Sound) : Outcome.Sound (execMulhs x d a b s) := by
  unfold execMulhs
  repeat' first
    | with_reducible assumption
    | with_reducible apply hkR3_sound

theorem execMulhu_sound (x : HkIssue) (d a b : Fin 32) (s : State) (h_s : s.dev.Sound) : Outcome.Sound (execMulhu x d a b s) := by
  unfold execMulhu
  repeat' first
    | with_reducible assumption
    | with_reducible apply hkR3_sound

theorem execAddsat_sound (x : HkIssue) (d a b : Fin 32) (s : State) (h_s : s.dev.Sound) :
    Outcome.Sound (execAddsat x d a b s) := by
  unfold execAddsat
  repeat' first
    | with_reducible assumption
    | with_reducible apply hkR3_sound

theorem execSubsat_sound (x : HkIssue) (d a b : Fin 32) (s : State) (h_s : s.dev.Sound) :
    Outcome.Sound (execSubsat x d a b s) := by
  unfold execSubsat
  repeat' first
    | with_reducible assumption
    | with_reducible apply hkR3_sound

theorem execMin_sound (x : HkIssue) (d a b : Fin 32) (s : State) (h_s : s.dev.Sound) : Outcome.Sound (execMin x d a b s) := by
  unfold execMin
  repeat' first
    | with_reducible assumption
    | with_reducible apply hkR3_sound

theorem execMax_sound (x : HkIssue) (d a b : Fin 32) (s : State) (h_s : s.dev.Sound) : Outcome.Sound (execMax x d a b s) := by
  unfold execMax
  repeat' first
    | with_reducible assumption
    | with_reducible apply hkR3_sound

theorem execClz_sound (x : HkIssue) (d a : Fin 32) (s : State) (h_s : s.dev.Sound) : Outcome.Sound (execClz x d a s) := by
  unfold execClz
  repeat' first
    | with_reducible assumption
    | refine fun _ => ?_
    | with_reducible apply Dev.hkAlu_sound
    | with_reducible refine Outcome.Sound.ok h_s ?_

theorem execAddK_sound (x : HkIssue) (d a : Fin 32) (k : BitVec 16) (s : State) (h_s : s.dev.Sound) :
    Outcome.Sound (execAddK x d a k s) := by
  unfold execAddK
  repeat' first
    | with_reducible assumption
    | with_reducible apply hkRK_sound

theorem execAndK_sound (x : HkIssue) (d a : Fin 32) (k : BitVec 16) (s : State) (h_s : s.dev.Sound) :
    Outcome.Sound (execAndK x d a k s) := by
  unfold execAndK
  repeat' first
    | with_reducible assumption
    | with_reducible apply hkRK_sound

theorem execOrK_sound (x : HkIssue) (d a : Fin 32) (k : BitVec 16) (s : State) (h_s : s.dev.Sound) :
    Outcome.Sound (execOrK x d a k s) := by
  unfold execOrK
  repeat' first
    | with_reducible assumption
    | with_reducible apply hkRK_sound

theorem execXorK_sound (x : HkIssue) (d a : Fin 32) (k : BitVec 16) (s : State) (h_s : s.dev.Sound) :
    Outcome.Sound (execXorK x d a k s) := by
  unfold execXorK
  repeat' first
    | with_reducible assumption
    | with_reducible apply hkRK_sound

theorem execCltK_sound (x : HkIssue) (d a : Fin 32) (k : BitVec 16) (s : State) (h_s : s.dev.Sound) :
    Outcome.Sound (execCltK x d a k s) := by
  unfold execCltK
  repeat' first
    | with_reducible assumption
    | with_reducible apply hkRK_sound

theorem execMovh_sound (x : HkIssue) (d : Fin 32) (k : BitVec 16) (s : State) (h_s : s.dev.Sound) :
    Outcome.Sound (execMovh x d k s) := by
  unfold execMovh
  repeat' first
    | with_reducible assumption
    | refine fun _ => ?_
    | with_reducible apply Dev.hkAlu_sound
    | with_reducible refine Outcome.Sound.ok h_s ?_

theorem execShlK_sound (x : HkIssue) (d a k : Fin 32) (s : State) (h_s : s.dev.Sound) : Outcome.Sound (execShlK x d a k s) := by
  unfold execShlK
  repeat' first
    | with_reducible assumption
    | with_reducible apply hkShiftK_sound

theorem execShrK_sound (x : HkIssue) (d a k : Fin 32) (s : State) (h_s : s.dev.Sound) : Outcome.Sound (execShrK x d a k s) := by
  unfold execShrK
  repeat' first
    | with_reducible assumption
    | with_reducible apply hkShiftK_sound

theorem execSarK_sound (x : HkIssue) (d a k : Fin 32) (s : State) (h_s : s.dev.Sound) : Outcome.Sound (execSarK x d a k s) := by
  unfold execSarK
  repeat' first
    | with_reducible assumption
    | with_reducible apply hkShiftK_sound

/-! ### Machine/HkMem.lean -/

theorem Dev.popPort_sound (d : Dev) (c : Nat) (h_d : d.Sound) : Dev.Sound (Dev.popPort d c).1 := by
  unfold Dev.popPort
  repeat' first
    | with_reducible assumption
    | (extract_lets +onlyGivenNames -underBinder y; clear_value y)
    | with_reducible apply Dev.setCore_sound
    | fail_if_no_progress (with_reducible refine Dev.Sound.upd rfl ?_)
    | split

theorem Dev.dataEcc_sound (d : Dev) (x : HkIssue) (a : Nat) (h_d : d.Sound) : Dev.Sound (Dev.dataEcc d x a).1 := by
  unfold Dev.dataEcc
  repeat' first
    | with_reducible assumption
    | with_reducible apply Dev.inc_sound
    | with_reducible apply Dev.Sound.ite_fst
    | split

theorem Dev.doLoad_sound (d : Dev) (x : HkIssue) (k k1 : HkCore) (t a n : Nat) (sign : Bool) (rd ra ptr : Nat) (h_d : d.Sound) :
    HkRes.Sound (Dev.doLoad d x k k1 t a n sign rd ra ptr) := by
  unfold Dev.doLoad
  repeat' first
    | with_reducible assumption
    | (extract_lets +onlyGivenNames -underBinder y; clear_value y)
    | with_reducible apply Dev.dataEcc_sound
    | with_reducible apply Dev.hkLoad_sound
    | with_reducible apply Dev.popPort_sound
    | with_reducible apply Dev.Sound.w
    | exact HkRes.Sound.fault
    | with_reducible apply HkRes.Sound.go
    | with_reducible apply HkRes.Sound.ite
    | (with_reducible refine Dev.Sound.of_fst (by assumption) ?_)
    | split

theorem hkLd_sound (x : HkIssue) (mop n : Nat) (sign : Bool) (d a : Fin 32) (k16 : BitVec 16) (s : State) (h_s : s.dev.Sound) :
    Outcome.Sound (hkLd x mop n sign d a k16 s) := by
  unfold hkLd
  repeat' first
    | with_reducible assumption
    | refine fun _ => ?_
    | with_reducible apply Dev.doLoad_sound
    | with_reducible apply Dev.hkIssue_sound
    | with_reducible refine Outcome.Sound.ok h_s ?_

theorem Dev.doStore_sound (d : Dev) (k k1 : HkCore) (t a n v ra ptr : Nat) (h_d : d.Sound) :
    HkRes.Sound (Dev.doStore d k k1 t a n v ra ptr) := by
  unfold Dev.doStore
  repeat' first
    | with_reducible assumption
    | with_reducible apply Dev.hkStore_sound
    | exact HkRes.Sound.fault
    | split

theorem hkSt_sound (x : HkIssue) (mop n : Nat) (d a : Fin 32) (k16 : BitVec 16) (s : State) (h_s : s.dev.Sound) :
    Outcome.Sound (hkSt x mop n d a k16 s) := by
  unfold hkSt
  repeat' first
    | with_reducible assumption
    | refine fun _ => ?_
    | with_reducible apply Dev.doStore_sound
    | with_reducible apply Dev.hkIssue_sound
    | with_reducible refine Outcome.Sound.ok h_s ?_

theorem hkPtr_sound (x : HkIssue) (mop : Nat) (load : Bool) (d a : Fin 32) (mb : Fin 3) (step : BitVec 12) (s : State)
    (h_s : s.dev.Sound) :
    Outcome.Sound (hkPtr x mop load d a mb step s) := by
  unfold hkPtr
  repeat' first
    | with_reducible assumption
    | refine fun _ => ?_
    | (extract_lets +onlyGivenNames -underBinder y; clear_value y)
    | with_reducible apply Dev.doLoad_sound
    | with_reducible apply Dev.doStore_sound
    | with_reducible apply Dev.hkIssue_sound
    | with_reducible refine Outcome.Sound.ok h_s ?_
    | exact HkRes.Sound.fault
    | with_reducible apply HkRes.Sound.ite
    | split

theorem hkAtom_sound (x : HkIssue) (fn : Nat) (d a b : Fin 32) (f : Nat → Nat → Nat) (s : State) (h_s : s.dev.Sound) :
    Outcome.Sound (hkAtom x fn d a b f s) := by
  unfold hkAtom
  repeat' first
    | with_reducible assumption
    | refine fun _ => ?_
    | (extract_lets +onlyGivenNames -underBinder y; first
        | (refine Dev.Sound.part (P := Dev.Sound (by apply y)) (fun _ => ?_) ?_ <;> [clear_value y; subst y])
        | clear_value y)
    | with_reducible apply Dev.drainAll_sound
    | with_reducible apply Dev.hkIssue_sound
    | with_reducible apply Dev.inc_sound
    | with_reducible apply Dev.swmDelay_sound
    | with_reducible refine Outcome.Sound.ok h_s ?_
    | fail_if_no_progress (with_reducible refine Dev.Sound.upd rfl ?_)
    | exact HkRes.Sound.fault
    | with_reducible apply HkRes.Sound.go
    | with_reducible apply HkRes.Sound.ite
    | split

theorem execLdW_sound (x : HkIssue) (d a : Fin 32) (k : BitVec 16) (s : State) (h_s : s.dev.Sound) :
    Outcome.Sound (execLdW x d a k s) := by
  unfold execLdW
  repeat' first
    | with_reducible assumption
    | with_reducible apply hkLd_sound

theorem execLdH_sound (x : HkIssue) (d a : Fin 32) (k : BitVec 16) (s : State) (h_s : s.dev.Sound) :
    Outcome.Sound (execLdH x d a k s) := by
  unfold execLdH
  repeat' first
    | with_reducible assumption
    | with_reducible apply hkLd_sound

theorem execLdHu_sound (x : HkIssue) (d a : Fin 32) (k : BitVec 16) (s : State) (h_s : s.dev.Sound) :
    Outcome.Sound (execLdHu x d a k s) := by
  unfold execLdHu
  repeat' first
    | with_reducible assumption
    | with_reducible apply hkLd_sound

theorem execLdB_sound (x : HkIssue) (d a : Fin 32) (k : BitVec 16) (s : State) (h_s : s.dev.Sound) :
    Outcome.Sound (execLdB x d a k s) := by
  unfold execLdB
  repeat' first
    | with_reducible assumption
    | with_reducible apply hkLd_sound

theorem execLdBu_sound (x : HkIssue) (d a : Fin 32) (k : BitVec 16) (s : State) (h_s : s.dev.Sound) :
    Outcome.Sound (execLdBu x d a k s) := by
  unfold execLdBu
  repeat' first
    | with_reducible assumption
    | with_reducible apply hkLd_sound

theorem execStW_sound (x : HkIssue) (d a : Fin 32) (k : BitVec 16) (s : State) (h_s : s.dev.Sound) :
    Outcome.Sound (execStW x d a k s) := by
  unfold execStW
  repeat' first
    | with_reducible assumption
    | with_reducible apply hkSt_sound

theorem execStH_sound (x : HkIssue) (d a : Fin 32) (k : BitVec 16) (s : State) (h_s : s.dev.Sound) :
    Outcome.Sound (execStH x d a k s) := by
  unfold execStH
  repeat' first
    | with_reducible assumption
    | with_reducible apply hkSt_sound

theorem execStB_sound (x : HkIssue) (d a : Fin 32) (k : BitVec 16) (s : State) (h_s : s.dev.Sound) :
    Outcome.Sound (execStB x d a k s) := by
  unfold execStB
  repeat' first
    | with_reducible assumption
    | with_reducible apply hkSt_sound

theorem execLdWp_sound (x : HkIssue) (d a : Fin 32) (mb : Fin 3) (step : BitVec 12) (s : State) (h_s : s.dev.Sound) :
    Outcome.Sound (execLdWp x d a mb step s) := by
  unfold execLdWp
  repeat' first
    | with_reducible assumption
    | with_reducible apply hkPtr_sound

theorem execStWp_sound (x : HkIssue) (d a : Fin 32) (mb : Fin 3) (step : BitVec 12) (s : State) (h_s : s.dev.Sound) :
    Outcome.Sound (execStWp x d a mb step s) := by
  unfold execStWp
  repeat' first
    | with_reducible assumption
    | with_reducible apply hkPtr_sound

theorem execAtomSwap_sound (x : HkIssue) (d a b : Fin 32) (s : State) (h_s : s.dev.Sound) :
    Outcome.Sound (execAtomSwap x d a b s) := by
  unfold execAtomSwap
  repeat' first
    | with_reducible assumption
    | with_reducible apply hkAtom_sound

theorem execAtomAdd_sound (x : HkIssue) (d a b : Fin 32) (s : State) (h_s : s.dev.Sound) :
    Outcome.Sound (execAtomAdd x d a b s) := by
  unfold execAtomAdd
  repeat' first
    | with_reducible assumption
    | with_reducible apply hkAtom_sound

theorem execAtomOr_sound (x : HkIssue) (d a b : Fin 32) (s : State) (h_s : s.dev.Sound) :
    Outcome.Sound (execAtomOr x d a b s) := by
  unfold execAtomOr
  repeat' first
    | with_reducible assumption
    | with_reducible apply hkAtom_sound

theorem execAtomAnd_sound (x : HkIssue) (d a b : Fin 32) (s : State) (h_s : s.dev.Sound) :
    Outcome.Sound (execAtomAnd x d a b s) := by
  unfold execAtomAnd
  repeat' first
    | with_reducible assumption
    | with_reducible apply hkAtom_sound

theorem execHkCqPush_sound (x : HkIssue) (d a : Fin 32) (k : BitVec 16) (s : State) (h_s : s.dev.Sound) :
    Outcome.Sound (execHkCqPush x d a k s) := by
  unfold execHkCqPush
  repeat' first
    | with_reducible assumption
    | refine fun _ => ?_
    | with_reducible apply Dev.doStore_sound
    | with_reducible apply Dev.hkIssue_sound
    | with_reducible refine Outcome.Sound.ok h_s ?_
    | exact HkRes.Sound.stay
    | with_reducible apply HkRes.Sound.ite

theorem execHkCqPop_sound (x : HkIssue) (d a : Fin 32) (k : BitVec 16) (s : State) (h_s : s.dev.Sound) :
    Outcome.Sound (execHkCqPop x d a k s) := by
  unfold execHkCqPop
  repeat' first
    | with_reducible assumption
    | refine fun _ => ?_
    | with_reducible apply Dev.doLoad_sound
    | with_reducible apply Dev.hkIssue_sound
    | with_reducible refine Outcome.Sound.ok h_s ?_
    | exact HkRes.Sound.stay
    | with_reducible apply HkRes.Sound.ite

theorem Dev.popArrive_sound (d : Dev) (c : Nat) (h_d : d.Sound) : Dev.Sound (Dev.popArrive d c) := by
  unfold Dev.popArrive
  repeat' first
    | with_reducible assumption
    | (extract_lets +onlyGivenNames -underBinder y; clear_value y)
    | with_reducible apply Dev.popPort_sound
    | with_reducible apply Dev.setCore_sound
    | with_reducible apply Dev.showCore_sound
    | with_reducible apply Dev.Sound.w
    | (with_reducible refine Dev.Sound.of_fst (by assumption) ?_)
    | split

theorem execCqPopWordArrive_sound (core : Fin 16) (s : State) (h_s : s.dev.Sound) :
    Outcome.Sound (execCqPopWordArrive core s) := by
  unfold execCqPopWordArrive
  repeat' first
    | with_reducible assumption
    | refine fun _ => ?_
    | with_reducible apply Dev.popArrive_sound
    | with_reducible refine Outcome.Sound.ok h_s ?_

theorem Dev.bufferDrain_sound (d : Dev) (c : Nat) (h_d : d.Sound) : Dev.Sound (Dev.bufferDrain d c) := by
  unfold Dev.bufferDrain
  repeat' first
    | with_reducible assumption
    | (extract_lets +onlyGivenNames -underBinder y; clear_value y)
    | with_reducible apply Dev.completeStore_sound
    | with_reducible apply Dev.setCore_sound
    | with_reducible apply Dev.showCore_sound
    | split

theorem execStoreBufferDrain_sound (core : Fin 16) (s : State) (h_s : s.dev.Sound) :
    Outcome.Sound (execStoreBufferDrain core s) := by
  unfold execStoreBufferDrain
  repeat' first
    | with_reducible assumption
    | refine fun _ => ?_
    | with_reducible apply Dev.bufferDrain_sound
    | with_reducible refine Outcome.Sound.ok h_s ?_

theorem execHkCoreRead_sound (p : Packet) (s : State) (h_s : s.dev.Sound) : Outcome.Sound (execHkCoreRead p s) := by
  unfold execHkCoreRead
  repeat' first
    | with_reducible assumption
    | refine fun _ => ?_
    | (extract_lets +onlyGivenNames -underBinder y; clear_value y)
    | with_reducible apply Dev.runPacket_sound
    | with_reducible refine Outcome.Sound.ok h_s ?_
    | with_reducible apply Dev.Sound.ite_fst

theorem execHkMemRead_sound (p : Packet) (bad : Nat) (s : State) (h_s : s.dev.Sound) : Outcome.Sound (execHkMemRead p bad s) := by
  unfold execHkMemRead
  repeat' first
    | with_reducible assumption
    | refine fun _ => ?_
    | (extract_lets +onlyGivenNames -underBinder y; clear_value y)
    | with_reducible apply Dev.add_sound
    | with_reducible apply Dev.runPacket_sound
    | with_reducible refine Outcome.Sound.ok h_s ?_
    | with_reducible apply Dev.Sound.ite_fst

/-! ### Machine/HkFlow.lean -/

theorem hkBr_sound (x : HkIssue) (mop : Nat) (a b : Fin 32) (k16 : BitVec 16) (taken : Nat → Nat → Bool) (s : State)
    (h_s : s.dev.Sound) :
    Outcome.Sound (hkBr x mop a b k16 taken s) := by
  unfold hkBr
  repeat' first
    | with_reducible assumption
    | refine fun _ => ?_
    | with_reducible apply Dev.hkIssue_sound
    | with_reducible refine Outcome.Sound.ok h_s ?_
    | with_reducible apply HkRes.Sound.go

theorem execBrEq_sound (x : HkIssue) (a b : Fin 32) (k : BitVec 16) (s : State) (h_s : s.dev.Sound) :
    Outcome.Sound (execBrEq x a b k s) := by
  unfold execBrEq
  repeat' first
    | with_reducible assumption
    | with_reducible apply hkBr_sound

theorem execBrNe_sound (x : HkIssue) (a b : Fin 32) (k : BitVec 16) (s : State) (h_s : s.dev.Sound) :
    Outcome.Sound (execBrNe x a b k s) := by
  unfold execBrNe
  repeat' first
    | with_reducible assumption
    | with_reducible apply hkBr_sound

theorem execBrLt_sound (x : HkIssue) (a b : Fin 32) (k : BitVec 16) (s : State) (h_s : s.dev.Sound) :
    Outcome.Sound (execBrLt x a b k s) := by
  unfold execBrLt
  repeat' first
    | with_reducible assumption
    | with_reducible apply hkBr_sound

theorem execBrGe_sound (x : HkIssue) (a b : Fin 32) (k : BitVec 16) (s : State) (h_s : s.dev.Sound) :
    Outcome.Sound (execBrGe x a b k s) := by
  unfold execBrGe
  repeat' first
    | with_reducible assumption
    | with_reducible apply hkBr_sound

theorem execBrLtu_sound (x : HkIssue) (a b : Fin 32) (k : BitVec 16) (s : State) (h_s : s.dev.Sound) :
    Outcome.Sound (execBrLtu x a b k s) := by
  unfold execBrLtu
  repeat' first
    | with_reducible assumption
    | with_reducible apply hkBr_sound

theorem execBrGeu_sound (x : HkIssue) (a b : Fin 32) (k : BitVec 16) (s : State) (h_s : s.dev.Sound) :
    Outcome.Sound (execBrGeu x a b k s) := by
  unfold execBrGeu
  repeat' first
    | with_reducible assumption
    | with_reducible apply hkBr_sound

theorem hkJump_sound (x : HkIssue) (mop : Nat) (link : Bool) (k26 : BitVec 26) (s : State) (h_s : s.dev.Sound) :
    Outcome.Sound (hkJump x mop link k26 s) := by
  unfold hkJump
  repeat' first
    | with_reducible assumption
    | refine fun _ => ?_
    | (extract_lets +onlyGivenNames -underBinder y; clear_value y)
    | with_reducible apply Dev.hkIssue_sound
    | with_reducible refine Outcome.Sound.ok h_s ?_
    | with_reducible apply HkRes.Sound.go

theorem hkJumpReg_sound (x : HkIssue) (fn : Nat) (link : Bool) (a : Fin 32) (s : State) (h_s : s.dev.Sound) :
    Outcome.Sound (hkJumpReg x fn link a s) := by
  unfold hkJumpReg
  repeat' first
    | with_reducible assumption
    | refine fun _ => ?_
    | (extract_lets +onlyGivenNames -underBinder y; clear_value y)
    | with_reducible apply Dev.hkIssue_sound
    | with_reducible refine Outcome.Sound.ok h_s ?_
    | with_reducible apply HkRes.Sound.go

theorem execJmp_sound (x : HkIssue) (k : BitVec 26) (s : State) (h_s : s.dev.Sound) : Outcome.Sound (execJmp x k s) := by
  unfold execJmp
  repeat' first
    | with_reducible assumption
    | with_reducible apply hkJump_sound

theorem execCall_sound (x : HkIssue) (k : BitVec 26) (s : State) (h_s : s.dev.Sound) : Outcome.Sound (execCall x k s) := by
  unfold execCall
  repeat' first
    | with_reducible assumption
    | with_reducible apply hkJump_sound

theorem execJmpr_sound (x : HkIssue) (a : Fin 32) (s : State) (h_s : s.dev.Sound) : Outcome.Sound (execJmpr x a s) := by
  unfold execJmpr
  repeat' first
    | with_reducible assumption
    | with_reducible apply hkJumpReg_sound

theorem execCallr_sound (x : HkIssue) (a : Fin 32) (s : State) (h_s : s.dev.Sound) : Outcome.Sound (execCallr x a s) := by
  unfold execCallr
  repeat' first
    | with_reducible assumption
    | with_reducible apply hkJumpReg_sound

theorem execRep_sound (x : HkIssue) (a : Fin 32) (count : Fin 1024) (len : Fin 32) (s : State) (h_s : s.dev.Sound) :
    Outcome.Sound (execRep x a count len s) := by
  unfold execRep
  repeat' first
    | with_reducible assumption
    | refine fun _ => ?_
    | (extract_lets +onlyGivenNames -underBinder y; clear_value y)
    | with_reducible apply Dev.hkIssue_sound
    | with_reducible refine Outcome.Sound.ok h_s ?_
    | exact HkRes.Sound.fault
    | with_reducible apply HkRes.Sound.go
    | with_reducible apply HkRes.Sound.ite

theorem hkSys_sound (x : HkIssue) (fn : Nat) (flow : Bool) (body : HkCore → HkCore → Dev → HkRes) (s : State)
    (h_body : ∀ z0 z1 z2, Dev.Sound z2 → HkRes.Sound (body z0 z1 z2)) (h_s : s.dev.Sound) :
    Outcome.Sound (hkSys x fn flow body s) := by
  unfold hkSys
  repeat' first
    | with_reducible assumption
    | refine fun _ => ?_
    | with_reducible apply Dev.hkIssue_sound
    | with_reducible refine Outcome.Sound.ok h_s ?_
    | with_reducible apply h_body

theorem execExit_sound (x : HkIssue) (a : Fin 32) (s : State) (h_s : s.dev.Sound) : Outcome.Sound (execExit x a s) := by
  unfold execExit
  repeat' first
    | with_reducible assumption
    | refine fun _ => ?_
    | with_reducible apply Dev.hkIssue_sound
    | with_reducible refine Outcome.Sound.ok h_s ?_
    | with_reducible apply HkRes.Sound.go

theorem Dev.exitComplete_sound (d : Dev) (c : Nat) (h_d : d.Sound) : Dev.Sound (Dev.exitComplete d c) := by
  unfold Dev.exitComplete
  repeat' first
    | with_reducible assumption
    | (extract_lets +onlyGivenNames -underBinder y; first
        | (refine Dev.Sound.part (P := Dev.Sound (by apply y)) (fun _ => ?_) ?_ <;> [clear_value y; subst y])
        | clear_value y)
    | with_reducible apply Dev.drainAll_sound
    | with_reducible apply Dev.inc_sound
    | with_reducible apply Dev.ostEnd_sound
    | with_reducible apply Dev.reach_sound
    | with_reducible apply Dev.setCore_sound
    | with_reducible apply Dev.Sound.ite
    | split

theorem execExitComplete_sound (core : Fin 16) (s : State) (h_s : s.dev.Sound) : Outcome.Sound (execExitComplete core s) := by
  unfold execExitComplete
  repeat' first
    | with_reducible assumption
    | refine fun _ => ?_
    | with_reducible apply Dev.exitComplete_sound
    | with_reducible refine Outcome.Sound.ok h_s ?_

theorem execWait_sound (x : HkIssue) (s : State) (h_s : s.dev.Sound) : Outcome.Sound (execWait x s) := by
  unfold execWait
  repeat' first
    | with_reducible assumption
    | refine fun _ => ?_
    | with_reducible apply hkSys_sound
    | with_reducible apply Dev.Sound.w
    | with_reducible apply HkRes.Sound.go
    | with_reducible apply HkRes.Sound.ite

theorem Dev.enterIrq_sound (d : Dev) (c : Nat) (h_d : d.Sound) : Dev.Sound (Dev.enterIrq d c) := by
  unfold Dev.enterIrq
  repeat' first
    | with_reducible assumption
    | (extract_lets +onlyGivenNames -underBinder y; first
        | (refine Dev.Sound.part (P := Dev.Sound (by apply y)) (fun _ => ?_) ?_ <;> [clear_value y; subst y])
        | clear_value y)
    | with_reducible apply Dev.hkFault_sound
    | with_reducible apply Dev.setCore_sound
    | with_reducible apply Dev.showCore_sound
    | with_reducible apply Dev.wmax_sound
    | with_reducible apply Dev.Sound.w
    | with_reducible apply Dev.Sound.ite

theorem Dev.interruptEntry_sound (d : Dev) (c : Nat) (h_d : d.Sound) : Dev.Sound (Dev.interruptEntry d c) := by
  unfold Dev.interruptEntry
  repeat' first
    | with_reducible assumption
    | (extract_lets +onlyGivenNames -underBinder y; clear_value y)
    | with_reducible apply Dev.enterIrq_sound
    | with_reducible apply Dev.setCore_sound
    | with_reducible apply Dev.Sound.ite
    | split

theorem execInterruptEntry_sound (core : Fin 16) (s : State) (h_s : s.dev.Sound) : Outcome.Sound (execInterruptEntry core s) := by
  unfold execInterruptEntry
  repeat' first
    | with_reducible assumption
    | refine fun _ => ?_
    | with_reducible apply Dev.interruptEntry_sound
    | with_reducible refine Outcome.Sound.ok h_s ?_

theorem Dev.waitWake_sound (d : Dev) (c : Nat) (h_d : d.Sound) : Dev.Sound (Dev.waitWake d c) := by
  unfold Dev.waitWake
  repeat' first
    | with_reducible assumption
    | (extract_lets +onlyGivenNames -underBinder y; first
        | (refine Dev.Sound.part (P := Dev.Sound (by apply y)) (fun _ => ?_) ?_ <;> [clear_value y; subst y])
        | clear_value y)
    | with_reducible apply Dev.enterIrq_sound
    | with_reducible apply Dev.setCore_sound
    | with_reducible apply Dev.showCore_sound
    | with_reducible apply Dev.Sound.w
    | with_reducible apply Dev.Sound.ite

theorem execWaitWake_sound (core : Fin 16) (s : State) (h_s : s.dev.Sound) : Outcome.Sound (execWaitWake core s) := by
  unfold execWaitWake
  repeat' first
    | with_reducible assumption
    | refine fun _ => ?_
    | with_reducible apply Dev.waitWake_sound
    | with_reducible refine Outcome.Sound.ok h_s ?_

theorem execRti_sound (x : HkIssue) (s : State) (h_s : s.dev.Sound) : Outcome.Sound (execRti x s) := by
  unfold execRti
  repeat' first
    | with_reducible assumption
    | refine fun _ => ?_
    | with_reducible apply hkSys_sound
    | exact HkRes.Sound.fault
    | with_reducible apply HkRes.Sound.go
    | with_reducible apply HkRes.Sound.ite

theorem execEi_sound (x : HkIssue) (s : State) (h_s : s.dev.Sound) : Outcome.Sound (execEi x s) := by
  unfold execEi
  repeat' first
    | with_reducible assumption
    | refine fun _ => ?_
    | with_reducible apply hkSys_sound
    | exact HkRes.Sound.fault
    | with_reducible apply HkRes.Sound.go
    | with_reducible apply HkRes.Sound.ite

theorem execDi_sound (x : HkIssue) (s : State) (h_s : s.dev.Sound) : Outcome.Sound (execDi x s) := by
  unfold execDi
  repeat' first
    | with_reducible assumption
    | refine fun _ => ?_
    | with_reducible apply hkSys_sound
    | with_reducible apply HkRes.Sound.go

theorem execFence_sound (x : HkIssue) (s : State) (h_s : s.dev.Sound) : Outcome.Sound (execFence x s) := by
  unfold execFence
  repeat' first
    | with_reducible assumption
    | refine fun _ => ?_
    | with_reducible apply hkSys_sound
    | exact HkRes.Sound.stay
    | with_reducible apply HkRes.Sound.go
    | with_reducible apply HkRes.Sound.ite

theorem execBrk_sound (x : HkIssue) (s : State) (h_s : s.dev.Sound) : Outcome.Sound (execBrk x s) := by
  unfold execBrk
  repeat' first
    | with_reducible assumption
    | refine fun _ => ?_
    | with_reducible apply hkSys_sound
    | exact HkRes.Sound.fault

theorem execRdcr_sound (x : HkIssue) (d : Fin 32) (cr : BitVec 16) (s : State) (h_s : s.dev.Sound) :
    Outcome.Sound (execRdcr x d cr s) := by
  unfold execRdcr
  repeat' first
    | with_reducible assumption
    | refine fun _ => ?_
    | with_reducible apply Dev.hkIssue_sound
    | with_reducible refine Outcome.Sound.ok h_s ?_
    | exact HkRes.Sound.fault
    | with_reducible apply HkRes.Sound.go
    | split

theorem Dev.doorbell_sound (d : Dev) (c m : Nat) (h_d : d.Sound) : Dev.Sound (Dev.doorbell d c m) := by
  unfold Dev.doorbell
  repeat' first
    | with_reducible assumption
    | refine fun _ => ?_
    | (extract_lets +onlyGivenNames -underBinder y; clear_value y)
    | with_reducible apply Dev.setCore_sound
    | with_reducible apply Dev.Sound.each

theorem Dev.writeCr_sound (d : Dev) (c : Nat) (k : HkCore) (t cr v : Nat) (h_d : d.Sound) :
    ∀ y ∈ (Dev.writeCr d c k t cr v), Dev.Sound y.2 := by
  unfold Dev.writeCr
  repeat' first
    | with_reducible assumption
    | with_reducible apply Dev.doorbell_sound
    | with_reducible apply Dev.Sound.mem_some
    | with_reducible apply Dev.Sound.mem_none
    | split

theorem execWrcr_sound (x : HkIssue) (a : Fin 32) (cr : BitVec 16) (s : State) (h_s : s.dev.Sound) :
    Outcome.Sound (execWrcr x a cr s) := by
  unfold execWrcr
  repeat' first
    | with_reducible assumption
    | refine fun _ => ?_
    | with_reducible apply Dev.hkIssue_sound
    | with_reducible apply Dev.writeCr_sound
    | with_reducible refine Outcome.Sound.ok h_s ?_
    | (with_reducible refine Dev.Sound.of_some (by assumption) ?_)
    | exact HkRes.Sound.fault
    | with_reducible apply HkRes.Sound.go
    | split

theorem Dev.setPend_sound (d : Dev) (c bit : Nat) (h_d : d.Sound) : Dev.Sound (Dev.setPend d c bit) := by
  unfold Dev.setPend
  repeat' first
    | with_reducible assumption
    | (extract_lets +onlyGivenNames -underBinder y; clear_value y)
    | with_reducible apply Dev.setCore_sound

theorem Dev.timerMatch_sound (d : Dev) (c : Nat) (h_d : d.Sound) : Dev.Sound (Dev.timerMatch d c) := by
  unfold Dev.timerMatch
  repeat' first
    | with_reducible assumption
    | (extract_lets +onlyGivenNames -underBinder y; first
        | (refine Dev.Sound.part (P := Dev.Sound (by apply y)) (fun _ => ?_) ?_ <;> [clear_value y; subst y])
        | clear_value y)
    | with_reducible apply Dev.reach_sound
    | with_reducible apply Dev.setCore_sound
    | with_reducible apply Dev.setPend_sound
    | with_reducible apply Dev.Sound.ite

theorem execHkTimerMatch_sound (core : Fin 16) (s : State) (h_s : s.dev.Sound) : Outcome.Sound (execHkTimerMatch core s) := by
  unfold execHkTimerMatch
  repeat' first
    | with_reducible assumption
    | refine fun _ => ?_
    | with_reducible apply Dev.timerMatch_sound
    | with_reducible refine Outcome.Sound.ok h_s ?_

theorem Dev.hkWarn_sound (d : Dev) (c : Nat) (h_d : d.Sound) : Dev.Sound (Dev.hkWarn d c) := by
  unfold Dev.hkWarn
  repeat' first
    | with_reducible assumption
    | (extract_lets +onlyGivenNames -underBinder y; clear_value y)
    | with_reducible apply Dev.reach_sound
    | with_reducible apply Dev.setPend_sound
    | with_reducible apply Dev.Sound.ite
    | split

theorem execHkWarn_sound (core : Fin 16) (s : State) (h_s : s.dev.Sound) : Outcome.Sound (execHkWarn core s) := by
  unfold execHkWarn
  repeat' first
    | with_reducible assumption
    | refine fun _ => ?_
    | with_reducible apply Dev.hkWarn_sound
    | with_reducible refine Outcome.Sound.ok h_s ?_

/-! ### Machine/HkFloat.lean -/

theorem hkFp_sound (x : HkIssue) (w : HkWant) (n : Nat) (d : Fin 32) (f : HkCore → Nat × FpFlags) (s : State)
    (h_s : s.dev.Sound) :
    Outcome.Sound (hkFp x w n d f s) := by
  unfold hkFp
  repeat' first
    | with_reducible assumption
    | refine fun _ => ?_
    | (extract_lets +onlyGivenNames -underBinder y; clear_value y)
    | with_reducible apply Dev.hkIssue_sound
    | with_reducible refine Outcome.Sound.ok h_s ?_
    | with_reducible apply HkRes.Sound.go

theorem hkFp2_sound (x : HkIssue) (fn n : Nat) (d a b : Fin 32) (f : Nat → Nat → Nat × FpFlags) (s : State) (h_s : s.dev.Sound) :
    Outcome.Sound (hkFp2 x fn n d a b f s) := by
  unfold hkFp2
  repeat' first
    | with_reducible assumption
    | with_reducible apply hkFp_sound

theorem hkFp1_sound (x : HkIssue) (fn : Nat) (d a : Fin 32) (f : Nat → Nat × FpFlags) (s : State) (h_s : s.dev.Sound) :
    Outcome.Sound (hkFp1 x fn d a f s) := by
  unfold hkFp1
  repeat' first
    | with_reducible assumption
    | with_reducible apply hkFp_sound

theorem hkFused_sound (x : HkIssue) (fn : Nat) (d a b c : Fin 32) (f : Nat → Nat → Nat → Nat × FpFlags) (s : State)
    (h_s : s.dev.Sound) :
    Outcome.Sound (hkFused x fn d a b c f s) := by
  unfold hkFused
  repeat' first
    | with_reducible assumption
    | with_reducible apply hkFp_sound

theorem execFadd_sound (x : HkIssue) (d a b : Fin 32) (s : State) (h_s : s.dev.Sound) : Outcome.Sound (execFadd x d a b s) := by
  unfold execFadd
  repeat' first
    | with_reducible assumption
    | with_reducible apply hkFp2_sound

theorem execFsub_sound (x : HkIssue) (d a b : Fin 32) (s : State) (h_s : s.dev.Sound) : Outcome.Sound (execFsub x d a b s) := by
  unfold execFsub
  repeat' first
    | with_reducible assumption
    | with_reducible apply hkFp2_sound

theorem execFmul_sound (x : HkIssue) (d a b : Fin 32) (s : State) (h_s : s.dev.Sound) : Outcome.Sound (execFmul x d a b s) := by
  unfold execFmul
  repeat' first
    | with_reducible assumption
    | with_reducible apply hkFp2_sound

theorem execFdiv_sound (x : HkIssue) (d a b : Fin 32) (s : State) (h_s : s.dev.Sound) : Outcome.Sound (execFdiv x d a b s) := by
  unfold execFdiv
  repeat' first
    | with_reducible assumption
    | with_reducible apply hkFp2_sound

theorem execFsqrt_sound (x : HkIssue) (d a : Fin 32) (s : State) (h_s : s.dev.Sound) : Outcome.Sound (execFsqrt x d a s) := by
  unfold execFsqrt
  repeat' first
    | with_reducible assumption
    | with_reducible apply hkFp_sound

theorem execFmin_sound (x : HkIssue) (d a b : Fin 32) (s : State) (h_s : s.dev.Sound) : Outcome.Sound (execFmin x d a b s) := by
  unfold execFmin
  repeat' first
    | with_reducible assumption
    | with_reducible apply hkFp2_sound

theorem execFmax_sound (x : HkIssue) (d a b : Fin 32) (s : State) (h_s : s.dev.Sound) : Outcome.Sound (execFmax x d a b s) := by
  unfold execFmax
  repeat' first
    | with_reducible assumption
    | with_reducible apply hkFp2_sound

theorem execFabs_sound (x : HkIssue) (d a : Fin 32) (s : State) (h_s : s.dev.Sound) : Outcome.Sound (execFabs x d a s) := by
  unfold execFabs
  repeat' first
    | with_reducible assumption
    | with_reducible apply hkFp1_sound

theorem execFneg_sound (x : HkIssue) (d a : Fin 32) (s : State) (h_s : s.dev.Sound) : Outcome.Sound (execFneg x d a s) := by
  unfold execFneg
  repeat' first
    | with_reducible assumption
    | with_reducible apply hkFp1_sound

theorem execFceq_sound (x : HkIssue) (d a b : Fin 32) (s : State) (h_s : s.dev.Sound) : Outcome.Sound (execFceq x d a b s) := by
  unfold execFceq
  repeat' first
    | with_reducible assumption
    | with_reducible apply hkFp2_sound

theorem execFclt_sound (x : HkIssue) (d a b : Fin 32) (s : State) (h_s : s.dev.Sound) : Outcome.Sound (execFclt x d a b s) := by
  unfold execFclt
  repeat' first
    | with_reducible assumption
    | with_reducible apply hkFp2_sound

theorem execFcle_sound (x : HkIssue) (d a b : Fin 32) (s : State) (h_s : s.dev.Sound) : Outcome.Sound (execFcle x d a b s) := by
  unfold execFcle
  repeat' first
    | with_reducible assumption
    | with_reducible apply hkFp2_sound

theorem execFtoi_sound (x : HkIssue) (d a : Fin 32) (s : State) (h_s : s.dev.Sound) : Outcome.Sound (execFtoi x d a s) := by
  unfold execFtoi
  repeat' first
    | with_reducible assumption
    | with_reducible apply hkFp1_sound

theorem execFtoin_sound (x : HkIssue) (d a : Fin 32) (s : State) (h_s : s.dev.Sound) : Outcome.Sound (execFtoin x d a s) := by
  unfold execFtoin
  repeat' first
    | with_reducible assumption
    | with_reducible apply hkFp1_sound

theorem execItof_sound (x : HkIssue) (d a : Fin 32) (s : State) (h_s : s.dev.Sound) : Outcome.Sound (execItof x d a s) := by
  unfold execItof
  repeat' first
    | with_reducible assumption
    | with_reducible apply hkFp1_sound

theorem execFma_sound (x : HkIssue) (d a b c : Fin 32) (s : State) (h_s : s.dev.Sound) : Outcome.Sound (execFma x d a b c s) := by
  unfold execFma
  repeat' first
    | with_reducible assumption
    | with_reducible apply hkFused_sound

theorem execFms_sound (x : HkIssue) (d a b c : Fin 32) (s : State) (h_s : s.dev.Sound) : Outcome.Sound (execFms x d a b c s) := by
  unfold execFms
  repeat' first
    | with_reducible assumption
    | with_reducible apply hkFused_sound

theorem execFnma_sound (x : HkIssue) (d a b c : Fin 32) (s : State) (h_s : s.dev.Sound) :
    Outcome.Sound (execFnma x d a b c s) := by
  unfold execFnma
  repeat' first
    | with_reducible assumption
    | with_reducible apply hkFused_sound

/-! ### Machine/HkMac.lean -/

theorem hkMacOp_sound (x : HkIssue) (sub : Nat) (acc : Fin 4) (a b : Fin 32) (f : Int → Int → Int) (s : State)
    (h_s : s.dev.Sound) :
    Outcome.Sound (hkMacOp x sub acc a b f s) := by
  unfold hkMacOp
  repeat' first
    | with_reducible assumption
    | refine fun _ => ?_
    | with_reducible apply Dev.hkIssue_sound
    | with_reducible refine Outcome.Sound.ok h_s ?_
    | with_reducible apply HkRes.Sound.go

theorem execMac_sound (x : HkIssue) (acc : Fin 4) (a b : Fin 32) (s : State) (h_s : s.dev.Sound) :
    Outcome.Sound (execMac x acc a b s) := by
  unfold execMac
  repeat' first
    | with_reducible assumption
    | with_reducible apply hkMacOp_sound

theorem execMsb_sound (x : HkIssue) (acc : Fin 4) (a b : Fin 32) (s : State) (h_s : s.dev.Sound) :
    Outcome.Sound (execMsb x acc a b s) := by
  unfold execMsb
  repeat' first
    | with_reducible assumption
    | with_reducible apply hkMacOp_sound

theorem execMpy_sound (x : HkIssue) (acc : Fin 4) (a b : Fin 32) (s : State) (h_s : s.dev.Sound) :
    Outcome.Sound (execMpy x acc a b s) := by
  unfold execMpy
  repeat' first
    | with_reducible assumption
    | with_reducible apply hkMacOp_sound

theorem execAclr_sound (x : HkIssue) (acc : Fin 4) (s : State) (h_s : s.dev.Sound) : Outcome.Sound (execAclr x acc s) := by
  unfold execAclr
  repeat' first
    | with_reducible assumption
    | refine fun _ => ?_
    | with_reducible apply Dev.hkIssue_sound
    | with_reducible refine Outcome.Sound.ok h_s ?_
    | with_reducible apply HkRes.Sound.go

theorem hkTapOp_sound (x : HkIssue) (word : Nat) (acc : Fin 4) (a b : Fin 32) (mba mbb : Nat) (step : Int) (move : Bool)
    (s : State) (h_s : s.dev.Sound) :
    Outcome.Sound (hkTapOp x word acc a b mba mbb step move s) := by
  unfold hkTapOp
  repeat' first
    | with_reducible assumption
    | refine fun _ => ?_
    | (extract_lets +onlyGivenNames -underBinder y; first
        | (refine Dev.Sound.part (P := Dev.Sound (by apply y)) (fun _ => ?_) ?_ <;> [clear_value y; subst y])
        | clear_value y)
    | with_reducible apply Dev.hkIssue_sound
    | with_reducible apply Dev.inc_sound
    | with_reducible refine Outcome.Sound.ok h_s ?_
    | with_reducible apply Dev.Sound.ite
    | exact HkRes.Sound.fault
    | with_reducible apply HkRes.Sound.go
    | with_reducible apply HkRes.Sound.ite
    | split

theorem execTap_sound (x : HkIssue) (acc : Fin 4) (a b : Fin 32) (mba mbb : Fin 3) (dir : Bool) (s : State) (h_s : s.dev.Sound) :
    Outcome.Sound (execTap x acc a b mba mbb dir s) := by
  unfold execTap
  repeat' first
    | with_reducible assumption
    | with_reducible apply hkTapOp_sound

theorem execTapmv_sound (x : HkIssue) (acc : Fin 4) (a b : Fin 32) (mba : Fin 3) (s : State) (h_s : s.dev.Sound) :
    Outcome.Sound (execTapmv x acc a b mba s) := by
  unfold execTapmv
  repeat' first
    | with_reducible assumption
    | with_reducible apply hkTapOp_sound

theorem execArd_sound (x : HkIssue) (acc : Fin 4) (d : Fin 32) (sh : Fin 56) (s : State) (h_s : s.dev.Sound) :
    Outcome.Sound (execArd x acc d sh s) := by
  unfold execArd
  repeat' first
    | with_reducible assumption
    | refine fun _ => ?_
    | (extract_lets +onlyGivenNames -underBinder y; clear_value y)
    | with_reducible apply Dev.hkIssue_sound
    | with_reducible refine Outcome.Sound.ok h_s ?_
    | with_reducible apply HkRes.Sound.go

theorem hkAmvRead_sound (x : HkIssue) (fn : Nat) (acc : Fin 4) (r : Fin 32) (f : Int → Nat) (s : State) (h_s : s.dev.Sound) :
    Outcome.Sound (hkAmvRead x fn acc r f s) := by
  unfold hkAmvRead
  repeat' first
    | with_reducible assumption
    | refine fun _ => ?_
    | with_reducible apply Dev.hkIssue_sound
    | with_reducible refine Outcome.Sound.ok h_s ?_
    | with_reducible apply HkRes.Sound.go

theorem hkAmvWrite_sound (x : HkIssue) (fn : Nat) (acc : Fin 4) (r : Fin 32) (f : Nat → Nat → Nat) (s : State)
    (h_s : s.dev.Sound) :
    Outcome.Sound (hkAmvWrite x fn acc r f s) := by
  unfold hkAmvWrite
  repeat' first
    | with_reducible assumption
    | refine fun _ => ?_
    | with_reducible apply Dev.hkIssue_sound
    | with_reducible refine Outcome.Sound.ok h_s ?_
    | with_reducible apply HkRes.Sound.go

theorem execAmvReadLo_sound (x : HkIssue) (acc : Fin 4) (r : Fin 32) (s : State) (h_s : s.dev.Sound) :
    Outcome.Sound (execAmvReadLo x acc r s) := by
  unfold execAmvReadLo
  repeat' first
    | with_reducible assumption
    | with_reducible apply hkAmvRead_sound

theorem execAmvReadHi_sound (x : HkIssue) (acc : Fin 4) (r : Fin 32) (s : State) (h_s : s.dev.Sound) :
    Outcome.Sound (execAmvReadHi x acc r s) := by
  unfold execAmvReadHi
  repeat' first
    | with_reducible assumption
    | with_reducible apply hkAmvRead_sound

theorem execAmvWriteLo_sound (x : HkIssue) (acc : Fin 4) (r : Fin 32) (s : State) (h_s : s.dev.Sound) :
    Outcome.Sound (execAmvWriteLo x acc r s) := by
  unfold execAmvWriteLo
  repeat' first
    | with_reducible assumption
    | with_reducible apply hkAmvWrite_sound

theorem execAmvWriteHi_sound (x : HkIssue) (acc : Fin 4) (r : Fin 32) (s : State) (h_s : s.dev.Sound) :
    Outcome.Sound (execAmvWriteHi x acc r s) := by
  unfold execAmvWriteHi
  repeat' first
    | with_reducible assumption
    | with_reducible apply hkAmvWrite_sound

end Sys2Proof.Machine
end

