-- ==== Sys2Proof/Laws/Tables.lean ====
section
/-!
SUPPORT. Laws/Tables.lean: the laws of the sparse tables and of the host's queues.
-/
namespace Sys2Proof.Machine

/-- An entry that is put reads back. -/
theorem Tab.look_put_same {α : Type} (d : α) (i : Nat) (x : α) (t : Tab α) : Tab.look d i (Tab.put i x t) = x := by
  induction t with
  | nil => simp [Tab.put, Tab.look]
  | cons e r ih =>
    obtain ⟨j, y⟩ := e
    simp only [Tab.put]
    split
    · simp [Tab.look]
    · split
      · simp [Tab.look]
      · rename_i h; simp [Tab.look, h, ih]

/-- Every other entry keeps its value. -/
theorem Tab.look_put_other {α : Type} (d : α) {i j : Nat} (h : j ≠ i) (x : α) (t : Tab α) :
    Tab.look d j (Tab.put i x t) = Tab.look d j t := by
  induction t with
  | nil => simp [Tab.put, Tab.look, h]
  | cons e r ih =>
    obtain ⟨k, y⟩ := e
    simp only [Tab.put]
    split
    · simp [Tab.look, h]
    · split
      · rename_i h2; subst h2; simp [Tab.look, h]
      · simp [Tab.look, ih]

theorem Dev.hostSet_setHostSet (d : Dev) {o : Origin} (h : HostSet) (hq : queueOf o ≠ none) :
    (d.setHostSet o h).hostSet o = h := by
  cases o <;> simp_all [queueOf, Dev.setHostSet, Dev.hostSet]

theorem HostSet.queue_trigger (h : HostSet) (v q : Nat) : (h.trigger v).queue q = h.queue q := by
  unfold HostSet.trigger
  split
  · rfl
  · split <;> rfl

theorem Dev.queue_trigger (d : Dev) (o o' : Origin) (v q : Nat) :
    ((d.trigger o v).hostSet o').queue q = (d.hostSet o').queue q := by
  cases o <;> cases o' <;> simp [Dev.trigger, Dev.hostSet, HostSet.queue_trigger]

/-- A queue that is put back is the queue that the source then has. -/
theorem Dev.queue_putQueue (d : Dev) {o : Origin} (q : Nat) (x : HQueue) (h : queueOf o ≠ none) :
    ((d.putQueue o q x).hostSet o).queue q = x := by
  unfold Dev.putQueue
  dsimp only
  split
  · unfold Dev.queueTrigger
    split <;> simp only [Dev.queue_trigger] <;> rw [Dev.hostSet_setHostSet _ _ h] <;>
      simp [HostSet.setQueue, HostSet.queue, Tab.look_put_same]
  · rw [Dev.hostSet_setHostSet _ _ h]
    simp [HostSet.setQueue, HostSet.queue, Tab.look_put_same]

end Sys2Proof.Machine
end

