-- ==== Sys2Proof/WellFormed.lean ====
section
/-!
DEFINITION. WellFormed.lean: what the operands of a command must satisfy beyond their types: fields within the widths that the
spec gives them on the wire, packet lengths within R530, memories in canonical form. `Instr.wf` asks each command for its own.
No meaning needs it: an ill-formed operand is one that the hardware cannot bring.
-/
namespace Sys2Proof
open Sys2Proof.Machine

/-- A count of the timebase or of a port's clock (R82): 64 bits. -/
def countWf (n : Nat) : Bool := decide (n < 2 ^ 64)

/-- A source of packets: a producer index has 12 bits (R544). -/
def Origin.wf : Origin → Bool
  | .backbone p _ _ => decide (p < 4096)
  | _ => true

/-- A packet (R530, R545): LENGTH 2 … 1 024 words, at most 367 on the backbone, and two reserved bits. -/
def Packet.wf (p : Packet) : Bool :=
  p.origin.wf && decide (p.rsv < 4) && decide (p.params.length ≤ 1022) &&
    (match p.origin with
      | .backbone _ _ _ => decide (p.params.length ≤ 365)
      | _ => true)

/-- A PTP message (R95, R96): the header fields within their widths. -/
def PtpMsg.wf (m : PtpMsg) : Bool :=
  decide (m.version < 16) && decide (m.domain < 2 ^ 8) && decide (m.srcId < 2 ^ 64) && decide (m.srcPort < 2 ^ 16) &&
    decide (m.seq < 2 ^ 16) && decide (-128 ≤ m.logInterval ∧ m.logInterval ≤ 127) && decide (m.kind < 16) &&
    decide (-2 ^ 63 ≤ m.corr ∧ m.corr < 2 ^ 63) && decide (m.reqId < 2 ^ 64) && decide (m.reqPort < 2 ^ 16) &&
    decide (m.priority1 < 2 ^ 8) && decide (m.clockClass < 2 ^ 8) && decide (m.accuracy < 2 ^ 8) &&
    decide (m.variance < 2 ^ 16) && decide (m.priority2 < 2 ^ 8) && decide (m.gmId < 2 ^ 64) && decide (m.steps < 2 ^ 16)

/-- A request area (R321). -/
def AcycReq.wf (r : AcycReq) : Bool :=
  decide (r.target < 2 ^ 7) && decide (r.seq < 2 ^ 8) && decide (r.op < 2 ^ 16) && decide (r.addr < 2 ^ 32) &&
    decide (r.d0 < 2 ^ 32) && decide (r.d1 < 2 ^ 32)

/-- A response area (R321). -/
def AcycRsp.wf (r : AcycRsp) : Bool :=
  decide (r.node < 2 ^ 7) && decide (r.seq < 2 ^ 8) && decide (r.status < 2 ^ 16) && decide (r.count < 2 ^ 32) &&
    decide (r.d0 < 2 ^ 32) && decide (r.d1 < 2 ^ 32)

/-- A slot of a trace frame (R312): LEN has 8 bits, a data word 16. -/
def FrameSlot.wf (x : FrameSlot) : Bool :=
  decide (x.node < 2 ^ 7) && decide (x.slot < 2 ^ 4) && decide (x.tally < 2 ^ 8) && decide (x.words.length < 2 ^ 8) &&
    x.words.all (fun w => decide (w < 2 ^ 16))

/-- A trace frame (R309, R310, R313): at most 256 slots in at most 1 500 bytes of payload. -/
def TraceFrame.wf (f : TraceFrame) : Bool :=
  decide (f.version < 16) && decide (f.ring < 4) && decide (f.turnPos < 2 ^ 7) && decide (f.epochLo < 2 ^ 32) &&
    decide (f.tSend < 2 ^ 80) && decide (f.lead < 2 ^ 16) && decide (f.k < 2 ^ 8) && decide (f.hop < 2 ^ 8) && f.req.wf &&
    f.rsp.wf && decide (f.slots.length ≤ 256) &&
    decide (56 + (f.slots.map (fun x => 4 + 2 * x.words.length)).sum ≤ 1500) && f.slots.all FrameSlot.wf

/-- A ring record of the tack link (R324, R334). -/
def TackRec.wf : TackRec → Bool
  | .turn ns => decide (ns < 2 ^ 32)
  | .outData slots => decide (slots.length ≤ 256) && slots.all FrameSlot.wf
  | .inData f ready => f.wf && decide (ready < 2 ^ 32)

/-- A health record (R495). -/
def Health.wf (h : Health) : Bool :=
  decide (h.state < 2 ^ 8) && decide (h.lastEpoch < 2 ^ 64) && decide (h.snapEpoch < 2 ^ 64) && decide (h.selftest < 2 ^ 8) &&
    decide (h.bridle < 2 ^ 8) && decide (h.demand < 2 ^ 32) && decide (h.cause < 2 ^ 8) &&
    decide (-2 ^ 15 ≤ h.tj ∧ h.tj < 2 ^ 15)

/-- A safe PDU (R353). -/
def SafePdu.wf (x : SafePdu) : Bool :=
  decide (x.connId < 2 ^ 32) && decide (x.seq < 2 ^ 16) && decide (x.flags < 2 ^ 8) && decide (x.len < 2 ^ 8) &&
    decide (x.ts < 2 ^ 32) && decide (4 * x.data.length = x.len) && decide (x.crc < 2 ^ 32)

/-- An envelope (R544): two words and a packet of at most 367. -/
def Envelope.wf (e : Envelope) : Bool :=
  decide (e.dest < 4096) && decide (e.origin < 4096) && decide (2 ≤ e.words.length ∧ e.words.length ≤ 367)

/-- The fields of a JOIN frame (R363). -/
def JoinRec.wf (j : JoinRec) : Bool :=
  decide (j.fprint < 2 ^ 256) && decide (j.cfgHash < 2 ^ 256) && decide (j.dt < 2 ^ 64) && decide (j.index < 4096)

/-- A Tilbor frame (R340, R341). -/
def TlbFrame.wf (f : TlbFrame) : Bool :=
  decide (f.version < 16) && decide (f.type < 16) && decide (f.net < 2) && decide (f.src < 4096) && decide (f.hops < 2 ^ 8) &&
    decide (f.frag < 2 ^ 8) && decide (f.nfrag < 2 ^ 8) && decide (f.k < 2 ^ 7) && decide (f.base < 2 ^ 18) &&
    decide (f.count < 2 ^ 15) && decide (f.epoch < 2 ^ 64) && decide (f.vals.length ≤ 360) && f.pdus.all SafePdu.wf &&
    f.envs.all Envelope.wf && (f.join.map JoinRec.wf).getD true

/-- An output shadow (R496). -/
def Machine.Shadow.wf (x : Shadow) : Bool :=
  decide (x.epoch < 2 ^ 64) && decide (x.outs < 2 ^ 32) && decide (x.safe < 2 ^ 32) && decide (x.sto < 2 ^ 24) &&
    x.teams.all (fun e => decide (e.1 < 24) && decide (e.2.act.length ≤ 3))

/-- A snapshot (R497): its memories in canonical form. -/
def Machine.Snapshot.wf (x : Snapshot) : Bool :=
  decide (x.epoch < 2 ^ 64) && Mem.wf x.mem && Mem.wf x.calSigs && x.app.all (fun e => Mem.wf e.2)

/-- A verdict on an object in flash (R552). -/
def Machine.Verdict.wf (v : Verdict) : Bool := decide (v.keyHash < 2 ^ 256) && decide (v.sha < 2 ^ 256)

/-- Words at word-aligned addresses. -/
def wordsWf (l : List (Nat × Nat)) : Bool := l.all (fun e => e.1 % 4 == 0 && decide (e.2 < 2 ^ 32))

/-- In words of a node that are samples, by number (R313). -/
def sampleWf (l : List (Nat × Nat)) : Bool := l.all (fun e => decide (e.1 < 64) && decide (e.2 < 2 ^ 16))

/-- The end of a boot stage: the image bodies are lists of words, their memories in canonical form. -/
def Machine.StageEnd.wf (x : StageEnd) : Bool :=
  countWf x.c && decide (x.rails < 2 ^ 8) && x.v0.wf && x.v1.wf && wordsWf x.recs && wordsWf x.cfg.regs && wordsWf x.cfg.mem &&
    x.cfg.imem.all (fun e => decide (e.1 < 16) && Mem.wf e.2) && x.cfg.dmem.all (fun e => decide (e.1 < 16) && Mem.wf e.2)

/-- The operands of a command are such as the hardware can bring. -/
def Instr.wf : Instr → Bool
  | .regWrite _ _ _ _ => true
  | .latchedPairRead _ _ => true
  | .commitPoint => true
  | .holdExpire _ => true
  | .cmdHoldExpire => true
  | .cutExpire => true
  | .hostHoldSet _ => true
  | .hostHoldClear _ => true
  | .epochDeadline => true
  | .intakeClose => true
  | .epochInfo p => p.wf
  | .imgHold p => p.wf
  | .imgRelease p => p.wf
  | .imgRead p => p.wf
  | .imgReadRec p => p.wf
  | .cutArm p => p.wf
  | .cutRelease p => p.wf
  | .cutStatus p => p.wf
  | .epochSetMargin p => p.wf
  | .calendarLatch => true
  | .calendarEvaluation => true
  | .switchInstant => true
  | .coordCfgWrite _ _ _ => true
  | .calEntryEnableWrite _ _ _ => true
  | .coordRead p => p.wf
  | .coordPreset p => p.wf
  | .calWrite p => p.wf
  | .calRead p => p.wf
  | .calEnable p => p.wf
  | .calCounters p => p.wf
  | .ratePoint => true
  | .domainTimeRead _ => true
  | .syncReceive _ m cMac cOut => m.wf && countWf cMac && countWf cOut
  | .syncTimeout => true
  | .announceReceive _ m => m.wf
  | .announceTimeout _ => true
  | .gmSettleEnd => true
  | .syncSend => true
  | .announceSend => true
  | .pdelayReqSend _ => true
  | .pdelayReqReceive _ m cMac cOut => m.wf && countWf cMac && countWf cOut
  | .pdelayRespReceive _ m cMac => m.wf && countWf cMac
  | .pdelayRespFollowUpReceive _ m => m.wf
  | .ptpOtherReceive _ m => m.wf
  | .timeInfo p => p.wf
  | .timeSeed p => p.wf
  | .timeRestep p => p.wf
  | .ptpStatus p => p.wf
  | .timeConvert p => p.wf
  | .localReady => true
  | .loopPass corr memErr => countWf corr && memErr.all (fun k => decide (k < 4096))
  | .coeffWindowWrite _ _ _ => true
  | .loopInfo p => p.wf
  | .loopEnable p => p.wf
  | .loopSwap p => p.wf
  | .loopFaultClear p => p.wf
  | .loopAxisRead p => p.wf
  | .trcCtrlArm => true
  | .trcCtrlStop => true
  | .trcCtrlTrig => true
  | .trcGeometryWrite _ _ => true
  | .trcInfo p => p.wf
  | .trcSetup p => p.wf
  | .trcArm p => p.wf
  | .trcTrigger p => p.wf
  | .trcStop p => p.wf
  | .trcRead p unc => p.wf && decide (unc < 2 ^ 32)
  | .injStart p => p.wf
  | .injStop p => p.wf
  | .generatorInstant => true
  | .prfParamRecordWrite _ _ _ vs => decide (vs.length ≤ 16)
  | .prfInfo p => p.wf
  | .prfStart p => p.wf
  | .prfTarget p => p.wf
  | .prfLimits p => p.wf
  | .prfStop p => p.wf
  | .gearStart p => p.wf
  | .gearArm p => p.wf
  | .planStart p => p.wf
  | .prfRelease p => p.wf
  | .prfAxisRead p => p.wf
  | .prfParamWrite p => p.wf
  | .periodBoundary _ => true
  | .demandHoldExpire _ => true
  | .tripPin _ => true
  | .gtripInput _ => true
  | .hallCodeChange _ _ => true
  | .adcTrigger _ _ => true
  | .adcConversionDone _ _ => true
  | .encIndexLatch _ => true
  | .ssiFrameDone _ _ _ => true
  | .teamCtrlForceTrip _ _ => true
  | .teamCtrlTripClear _ _ => true
  | .teamInfo p => p.wf
  | .teamConfig p => p.wf
  | .teamEnable p => p.wf
  | .teamTripClear p => p.wf
  | .teamForceTrip p => p.wf
  | .teamRead p => p.wf
  | .adcRead p => p.wf
  | .encRead p => p.wf
  | .tstillExpire _ => true
  | .chopBlankEnd _ _ => true
  | .chopComparatorSwitch _ _ tick => countWf tick
  | .chopFastEnd _ _ => true
  | .loadAngleEstimate _ => true
  | .stepConfig p => p.wf
  | .stepCurrent p => p.wf
  | .stepRead p => p.wf
  | .pdkCycleStart => true
  | .sensorStale _ => true
  | .pdkComputationDone ns _ => countWf ns
  | .pdkAutoRelease _ => true
  | .pdkSelftestEnd => true
  | .pdkInfo p => p.wf
  | .pdkArmRead p => p.wf
  | .pdkIntrRead p => p.wf
  | .pdkPaddockRead p => p.wf
  | .pdkRelease p => p.wf
  | .pdkRestart p => p.wf
  | .sageLatch _ => true
  | .sageIteration _ => true
  | .sageSolveDeadline => true
  | .sageAnalysisDone => true
  | .sageCtrlColdNext _ _ => true
  | .sageInfo p => p.wf
  | .sageStructLoad p => p.wf
  | .sageStructCommit p => p.wf
  | .sageDelta p => p.wf
  | .sageRead p => p.wf
  | .sageCold p => p.wf
  | .traceFrameReturn _ f cIn readyNs => f.wf && countWf cIn && countWf readyNs
  | .closureEnd _ => true
  | .partnerFrameTurn _ f cOut => f.wf && countWf cOut
  | .tackClosureRecord _ r => r.wf
  | .crdLinkChange _ _ _ => true
  | .crdStartPhase _ _ _ => true
  | .acycTimeout _ => true
  | .nodeFrameReceive _ _ _ _ a f sample => countWf a && f.wf && sampleWf sample
  | .nodeApply _ _ => true
  | .nodeTimedSwitch _ _ => true
  | .nodeHoldExpire _ _ => true
  | .nodeLinkDown _ _ _ => true
  | .nodeReset _ _ => true
  | .acycRead _ _ => true
  | .acycWrite _ _ => true
  | .acycAddress _ _ => true
  | .acycState _ _ => true
  | .crdInfo p => p.wf
  | .crdStart p => p.wf
  | .crdStop p => p.wf
  | .crdPortRead p => p.wf
  | .crdSlotRead p => p.wf
  | .crdNodeRead p => p.wf
  | .crdNodeWrite p => p.wf
  | .crdNodeState p => p.wf
  | .tlbCycleStart => true
  | .tlbMemberEntry => true
  | .tlbSlotStart _ => true
  | .tlbFrameSend busy => busy.all (fun k => decide (k < 4096))
  | .tlbGateClose => true
  | .tlbFrameForward _ f cIn => f.wf && countWf cIn
  | .dataFrameReceive _ f cIn => f.wf && countWf cIn
  | .safeFrameReceive _ f cIn => f.wf && countWf cIn
  | .cmdFrameReceive _ f cIn => f.wf && countWf cIn
  | .joinFrameReceive _ f cIn => f.wf && countWf cIn
  | .joinVerifyDone _ _ => true
  | .tlbLinkChange _ _ _ => true
  | .tlbAttestTimeout => true
  | .tlbInfo p => p.wf
  | .tlbPortRead p => p.wf
  | .tlbPeerRead p => p.wf
  | .tlbStart p => p.wf
  | .tlbStop p => p.wf
  | .tlbSafeRead p => p.wf
  | .tlbAttest p => p.wf
  | .add _ _ _ _ => true
  | .sub _ _ _ _ => true
  | .and_ _ _ _ _ => true
  | .or_ _ _ _ _ => true
  | .xor _ _ _ _ => true
  | .shl _ _ _ _ => true
  | .shr _ _ _ _ => true
  | .sar _ _ _ _ => true
  | .clt _ _ _ _ => true
  | .cltu _ _ _ _ => true
  | .mul _ _ _ _ => true
  | .mulhs _ _ _ _ => true
  | .mulhu _ _ _ _ => true
  | .addsat _ _ _ _ => true
  | .subsat _ _ _ _ => true
  | .min _ _ _ _ => true
  | .max _ _ _ _ => true
  | .clz _ _ _ => true
  | .addK _ _ _ _ => true
  | .andK _ _ _ _ => true
  | .orK _ _ _ _ => true
  | .xorK _ _ _ _ => true
  | .cltK _ _ _ _ => true
  | .movh _ _ _ => true
  | .shlK _ _ _ _ => true
  | .shrK _ _ _ _ => true
  | .sarK _ _ _ _ => true
  | .ldW _ _ _ _ => true
  | .ldH _ _ _ _ => true
  | .ldHu _ _ _ _ => true
  | .ldB _ _ _ _ => true
  | .ldBu _ _ _ _ => true
  | .stW _ _ _ _ => true
  | .stH _ _ _ _ => true
  | .stB _ _ _ _ => true
  | .ldWp _ _ _ _ _ => true
  | .stWp _ _ _ _ _ => true
  | .atomSwap _ _ _ _ => true
  | .atomAdd _ _ _ _ => true
  | .atomOr _ _ _ _ => true
  | .atomAnd _ _ _ _ => true
  | .brEq _ _ _ _ => true
  | .brNe _ _ _ _ => true
  | .brLt _ _ _ _ => true
  | .brGe _ _ _ _ => true
  | .brLtu _ _ _ _ => true
  | .brGeu _ _ _ _ => true
  | .jmp _ _ => true
  | .call _ _ => true
  | .jmpr _ _ => true
  | .callr _ _ => true
  | .rep _ _ _ _ => true
  | .fadd _ _ _ _ => true
  | .fsub _ _ _ _ => true
  | .fmul _ _ _ _ => true
  | .fdiv _ _ _ _ => true
  | .fsqrt _ _ _ => true
  | .fmin _ _ _ _ => true
  | .fmax _ _ _ _ => true
  | .fabs _ _ _ => true
  | .fneg _ _ _ => true
  | .fceq _ _ _ _ => true
  | .fclt _ _ _ _ => true
  | .fcle _ _ _ _ => true
  | .ftoi _ _ _ => true
  | .ftoin _ _ _ => true
  | .itof _ _ _ => true
  | .fma _ _ _ _ _ => true
  | .fms _ _ _ _ _ => true
  | .fnma _ _ _ _ _ => true
  | .mac _ _ _ _ => true
  | .msb _ _ _ _ => true
  | .mpy _ _ _ _ => true
  | .aclr _ _ => true
  | .tap _ _ _ _ _ _ _ => true
  | .tapmv _ _ _ _ _ => true
  | .ard _ _ _ _ => true
  | .amvReadLo _ _ _ => true
  | .amvReadHi _ _ _ => true
  | .amvWriteLo _ _ _ => true
  | .amvWriteHi _ _ _ => true
  | .exit _ _ => true
  | .exitComplete _ => true
  | .wait _ => true
  | .waitWake _ => true
  | .rti _ => true
  | .ei _ => true
  | .di _ => true
  | .fence _ => true
  | .brk _ => true
  | .rdcr _ _ _ => true
  | .wrcr _ _ _ => true
  | .illegalInstruction _ => true
  | .storeBufferDrain _ => true
  | .hkTimerMatch _ => true
  | .hkWarn _ => true
  | .interruptEntry _ => true
  | .hkCqPush _ _ _ _ => true
  | .hkCqPop _ _ _ _ => true
  | .cqPopWordArrive _ => true
  | .hkCoreRead p => p.wf
  | .hkMemRead p bad => p.wf && decide (bad < 2 ^ 32)
  | .ostlerTick => true
  | .runLimitExpire _ => true
  | .girthDerate tj => decide (-2 ^ 15 ≤ tj ∧ tj < 2 ^ 15)
  | .girthBudgetWrite _ _ => true
  | .ostInfo p => p.wf
  | .ostRelease p => p.wf
  | .ostCancel p => p.wf
  | .ostAbort p => p.wf
  | .ostDescWrite p => p.wf
  | .ostDescRead p => p.wf
  | .ostEnable p => p.wf
  | .ostTrcRead p => p.wf
  | .girthInfo p => p.wf
  | .girthSetBudget p => p.wf
  | .bridleTick _ _ _ _ => true
  | .safeTwinTimeout _ => true
  | .safeConnWatchdog _ _ => true
  | .safetyCycleEval => true
  | .discFault _ => true
  | .ss1Timeout _ => true
  | .stoConfTimeout _ => true
  | .bridleEvalDeadline => true
  | .bridleFault _ => true
  | .bridleSelftestDone => true
  | .testPulse _ => true
  | .darkTest _ _ _ => true
  | .fieldDieRefreshLoss _ => true
  | .brdInfo p => p.wf
  | .brdFuncRead p => p.wf
  | .brdZoneRead p => p.wf
  | .brdIoRead p => p.wf
  | .brdConnRead p => p.wf
  | .brdReset p => p.wf
  | .brdConnRestart p => p.wf
  | .spsLoad p v recs => p.wf && v.wf && wordsWf recs
  | .spsAccept p => p.wf
  | .fioInputChange _ _ => true
  | .fioRbFault _ => true
  | .fioOverload _ => true
  | .fioThermal _ _ => true
  | .vfieldSample _ mv => decide (mv < 2 ^ 16)
  | .supplyLost _ => true
  | .supplyAutoRearm _ => true
  | .silent1Timeout _ => true
  | .silentOffTimeout _ => true
  | .fioOutCfgWrite _ _ _ _ => true
  | .fioInfo p => p.wf
  | .fioGrpRead p => p.wf
  | .fioOutWrite p => p.wf
  | .fioOutClear p => p.wf
  | .fioRearm p => p.wf
  | .reinPeerFall => true
  | .reinPeerRise => true
  | .reinWatchdog => true
  | .farrierFault => true
  | .fieldDieDriveStart => true
  | .healthRecordReceive _ _ h => h.wf
  | .tackLost => true
  | .tackLaneChange _ _ => true
  | .outputShadowReceive _ sh => sh.wf
  | .snapshotChunkReceive _ _ x => x.wf
  | .snapshotRestoreDone => true
  | .standbySelftest _ _ _ => true
  | .revertDwellExpire => true
  | .handoverAbandon => true
  | .startWaitExpire => true
  | .tackJoinRecord rec _ => rec.wf
  | .pairInfo p => p.wf
  | .pairSwitch p => p.wf
  | .pairRevert p => p.wf
  | .pairClaim p => p.wf
  | .queuePush _ _ _ _ => true
  | .queuePop _ _ _ _ => true
  | .popStallExpire _ _ => true
  | .qCtrlReset _ _ => true
  | .queueHalt _ _ => true
  | .badOpcodePacket _ p => p.wf
  | .replyWrite _ _ => true
  | .msixUnmask _ _ => true
  | .spiWrite _ _ _ => true
  | .spiWritePrivileged _ _ _ => true
  | .spiRead _ n _ => decide (n ≤ 2 ^ 26)
  | .spiReadPrivileged _ n _ => decide (n ≤ 2 ^ 26)
  | .spiStatus => true
  | .spiUnknownCommand _ => true
  | .pciePerst _ => true
  | .devRemoteTimeout => true
  | .devInfo p => p.wf
  | .devEcho p => p.wf
  | .devHostStat p => p.wf
  | .devNoticeCfg p => p.wf
  | .devRemote p => p.wf
  | .devHealth p => p.wf
  | .secInfo p => p.wf
  | .secAttest p ns => p.wf && countWf ns
  | .secCertRead p => p.wf
  | .secFlashStage p v _ ns => p.wf && v.wf && countWf ns
  | .secRollbackCommit p ns => p.wf && countWf ns
  | .secOwnerRevoke p => p.wf
  | .secCommission p keys => p.wf && keys.all (fun k => decide (k.1 < 2 ^ 256))
  | .secDebugChallenge p => p.wf
  | .secDebugUnlock p _ => p.wf
  | .secUnlistedOpcode _ p => p.wf
  | .powerOnReset => true
  | .brownout => true
  | .nrstAssert => true
  | .nrstRelease _ => true
  | .moduleReset => true
  | .bootStageEnd x => x.wf
  | .bgVerifyDone _ v => v.wf
  | .lockWaitEnd => true
  | .devBootInfo p => p.wf
  | .devReset p => p.wf
  | .devUnlistedOpcode _ p => p.wf
  | .tripInputRelease _ => true
  | .encQuadEdge _ _ _ => true
  | .nodeLinkUp _ _ _ => true
  | .nodeWatchdogExpire _ _ => true
  | .nodeInternalFault _ _ _ => true
  | .snapshotSendDone => true
  | .calEntryWrite _ _ _ _ => true
  | .teamRegWrite _ _ _ _ => true
  | .pciePowerState _ _ => true

end Sys2Proof
end

