-- ==== Sys2Proof/Tests/Slice0.lean ====
section
/-!
SUPPORT. Tests/Slice0.lean: ill-formed operands that WellFormed refuses, small facts that the spec's own numbers give, and for each
statement of Certificates/Slice0 with hypotheses a state and operands that meet them.
-/
namespace Sys2Proof.Tests
open Sys2Proof.Machine

/-! ### Helpers -/

/-- A packet of queue 0 of PF1 with the parameters `ps`. -/
def pk (ps : List Word := []) : Packet := { origin := .pf1 0, tag := 1#32, params := ps }

/-- The reset device with fields set. -/
def dv (l : List (Field × Nat) := []) : Dev := l.foldl (fun d e => d.w e.1 e.2) {}

/-- A state with the device `d`. -/
def st (d : Dev) (g : Grade := .fx8_128) : State := { grade := g, dev := d, pending := [] }

/-- `Dev.Ready` as a test. -/
def readyB (d : Dev) (p : Packet) (op n : Nat) (priv : Bool) : Bool :=
  d.canTake p && !(d.takeWords p op).2.contains .uncorr && p.rsv % 4 == 0 && decide (p.tag.toNat < 0xFFFF_FFF0) &&
    (!priv || d.privileged p.origin) && p.params.length == n && d.r Reg.GLB_BOOT_FAIL_STAGE == 0 &&
    d.r Reg.PAIR_STAT_STATE != 3

theorem ready_iff {d : Dev} {p : Packet} {op n : Nat} {priv : Bool} :
    d.Ready p op n priv ↔ readyB d p op n priv = true := by
  constructor
  · rintro ⟨⟨h1, h2⟩, h3, h4, h5, h6, h7, h8⟩
    cases priv <;> simp_all [readyB]
  · intro h
    simp only [readyB, Bool.and_eq_true, beq_iff_eq, decide_eq_true_eq, bne_iff_ne, Bool.or_eq_true, Bool.not_eq_true'] at h
    obtain ⟨⟨⟨⟨⟨⟨⟨h1, h2⟩, h3⟩, h4⟩, h5⟩, h6⟩, h7⟩, h8⟩ := h
    exact ⟨⟨h1, h2⟩, h3, h4, fun hp => by simpa [hp] using h5, h6, h7, h8⟩

theorem takes_iff {d : Dev} {p : Packet} {op : Nat} :
    d.Takes p op ↔ d.canTake p = true ∧ (d.takeWords p op).2.contains .uncorr = false :=
  ⟨fun h => ⟨h.1, h.2⟩, fun h => ⟨h.1, h.2⟩⟩

theorem sound_iff {d : Dev} :
    d.Sound ↔ d.regs.Pairwise (fun a b => a.1 < b.1) ∧ d.ep.frontRegs.Pairwise (fun a b => a.1 < b.1) ∧ Mem.wf d.mem = true :=
  ⟨fun h => ⟨h.1, h.2, h.3⟩, fun h => ⟨h.1, h.2.1, h.2.2⟩⟩

/-- A structure of one variable. -/
def oneVar : SageStruct :=
  { id := 5, n := 1, me := 0, mi := 0, nval := 2, w := 2, nstep := 1, nblk := 1, h := [(0, 0)], a := [], c := [], order := [0],
    blocks := [1], knots := [], binds := [], init := [0x3FF0_0000_0000_0000, 0] }

/-- An outbound trace frame without slots. -/
def frame : TraceFrame :=
  { ring := 0, epochLo := 0, tSend := 0, lead := 0, k := 1, req := ⟨0, false, 0, 0, 0, 0, 0⟩, rsp := ⟨0, false, 0, 0, 0, 0, 0⟩,
    slots := [] }

/-- The device of a next state. -/
def nextDev (o : Host.Outcome State Fault Refusal) : Option Dev :=
  match o with
  | .next s => some s.dev
  | _ => none

/-! ### Witnesses of the statements: sound states, host interface -/

theorem witness_EmptyQueueIdles : State.reset.pending = [] := rfl

theorem witness_StepKeepsSound : State.reset.dev.Sound ∧ (dv [(Reg.IMG_CUT_ID, 7), (Reg.EPK_NOW, 1)]).Sound := by
  simp only [sound_iff]; decide

/-- SEC_STAT, a write of PF0, an address of no register, and the Paddock status. -/
theorem witness_RegisterWriteByAccessType :
    (dv).pathOpen .pf1 = true ∧ (dv).pathOpen .pf0 = true ∧ 0xE0_0000 % 4 = 0 ∧ 0xE0_0000 / 0x10_0000 ∈ [5, 0xB, 0xE] ∧
    privAddr 0xE0_0000 = true ∧ (dv).pathPriv .pf0 = false ∧ (dv).pathPriv .pf1 = true ∧
    absent .fx8_128 0xE0_0FFC = false ∧ (regAt 0xE0_0FFC).isNone = true ∧ inRecords 0xE0_0FFC = false ∧
    absent .fx8_128 0x50_0000 = false ∧ (dv).Sound ∧
    (regAt 0x50_0000).map (fun x => (x.2.2, decide ((x.2.1.map Field.key).Nodup), x.2.1.all (fun f => decide (f.width ≤ 32)))) =
      some (false, true, true) := by
  simp only [sound_iff]; decide

/-- EPK_NOW, low word and high word. -/
theorem witness_PairReadLatchesHighWord :
    (dv).pathOpen .pf1 = true ∧ 0x10_0008 % 4 = 0 ∧ 0x10_0000 ≤ 0x10_0008 ∧ 0x10_000C < 0x100_0000 ∧
    privAddr 0x10_0008 = false ∧ absent .fx8_128 0x10_0008 = false ∧ absent .fx8_128 0x10_000C = false ∧
    (dv).computedWord .fx8_128 .pf1 0x10_0008 = none ∧ (dv).computedWord .fx8_128 .pf1 0x10_000C = none ∧
    (regAt 0x10_0008).map (fun x => (x.1.wide, x.2.2)) = some (true, false) ∧
    (regAt 0x10_000C).map (fun x => x.2.2) = some true := by
  decide

/-- A full queue 0 of PF1, and an empty one. -/
theorem witness_QueuePushAndOverrun :
    (dv).pathOpen .pf1 = true ∧ (((dv).hostSet (pathOrigin .pf1)).queue 0).halted = false ∧
    (((dv).hostSet (pathOrigin .pf1)).queue 0).free ≠ 0 ∧
    queueOf (.pf1 0) ≠ none := by
  decide

theorem witness_full (w : Word × EccMark) : ({ words := List.replicate 1024 w } : HQueue).free = 0 := by
  show 1024 - (List.replicate 1024 w).length = 0
  rw [List.length_replicate]

theorem witness_QueueReadsResetsAndHalts :
    (dv).pathOpen .pf1 = true ∧ isPcie .pf1 = true ∧ (((dv).hostSet (pathOrigin .pf1)).queue 4).stall = none ∧
    (((dv).hostSet (pathOrigin .pf1)).queue 4).words = [] ∧
    Tab.look [] 4 (dv).host.pf1.waiting = [] ∧ (dv).host.outstanding = [] ∧ (1#32).toNat % 2 ^ 16 < 2 ∧
    1024 < (1025#32).toNat % 2 ^ 16 ∧
    opcodeExists 0xFFF = false ∧ (dv).Ready (pk) 0xFFF 0 false := by
  simp only [ready_iff]; decide

theorem witness_PacketChecksInOrder :
    (dv).Takes (pk [1000]) 0x120 ∧ (dv).Takes { pk [1000] with rsv := 1 } 0x120 ∧
    (dv).Takes { pk with tag := 0xFFFF_FFF0#32 } 0x120 ∧ (dv).Takes { pk with origin := .pf0 0 } 0x120 ∧
    (dv).privileged (.pf0 0) = false ∧ (dv).privileged (.pf1 0) = true ∧ (pk [1000]).params.length = 1 ∧
    (dv [(Reg.GLB_BOOT_FAIL_STAGE, 5)]).Takes (pk [1000]) 0x120 ∧ (dv [(Reg.GLB_BOOT_FAIL_STAGE, 5)]).r Reg.GLB_BOOT_FAIL_STAGE ≠ 0 := by
  simp only [takes_iff]; decide

theorem witness_HostLinks :
    (dv).host.perst = false ∧ bitOf (dv).host.pf0.pend 7 = false ∧
    bitOf ({ dv with host := { pf1 := { pend := 128 } } } : Dev).host.pf1.pend 7 = true ∧
    (dv).host.pf1.d3hot = false ∧ ({ d3hot := true } : HostSet).d3hot = true ∧
    (dv [(Reg.GLB_HOST_CFG_SPI_EN, 1), (Reg.GLB_HOST_CFG_SPI_PRIV, 1)]).b Reg.GLB_HOST_CFG_SPI_PRIV = true ∧
    (dv [(Reg.GLB_HOST_CFG_SPI_EN, 1), (Reg.GLB_HOST_CFG_SPI_PRIV, 1)]).b Reg.GLB_HOST_CFG_SPI_EN = true ∧
    (dv [(Reg.GLB_HOST_CFG_SPI_EN, 0)]).b Reg.GLB_HOST_CFG_SPI_EN = false ∧
    queueRegion 0x10_0008 = none ∧ (∀ q ∈ [4, 5, 6, 7], ((dv).host.spi.queue q).stall = none) ∧
    (0xFF : Nat) ∉ [0x02, 0x12, 0x0B, 0x1B, 0x05] := by
  decide

/-- A joined peer 1, and a remote packet that has waited 16 cycles. -/
theorem witness_DeviceCommands :
    (dv).Ready (pk) 0x000 0 false ∧ (dv).Ready (pk [1, 2, 3]) 0x001 3 false ∧ (dv).Ready (pk) 0x002 0 false ∧
    (dv).Ready { pk [3] with origin := .pf0 0 } 0x003 1 false ∧ (dv).Ready (pk) 0x020 0 false ∧
    (dv [(Reg.TLB_PEER_STATE 1, 2)]).Ready (pk [1, 0, 0x0002_0000, 5]) 0x010 4 false ∧
    (dv).r (Reg.TLB_PEER_STATE 1) ≠ 2 ∧ (dv [(Reg.TLB_PEER_STATE 1, 2)]).r (Reg.TLB_PEER_STATE 1) = 2 ∧
    1 ≠ (dv).r Reg.TLB_DOMAIN_SELF ∧ 16 ≤ (dv [(Reg.TLB_DCYCLE, 16)]).r Reg.TLB_DCYCLE := by
  simp only [ready_iff]; decide

theorem witness_ImageCommands :
    (dv).Ready (pk) 0x100 0 false ∧ (dv).Ready (pk) 0x101 0 false ∧ (dv).Ready (pk) 0x102 0 false ∧
    (dv).Ready (pk [262143, 1]) 0x103 2 false ∧ 5 + 1 ≤ replyLimit (.pf1 0) ∧
    ({ dv with ep := { front := { valid := true } } } : Dev).Ready (pk [262143]) 0x104 1 false ∧
    (dv).Ready (pk [7, 0, 0]) 0x110 3 false ∧
    (dv [(Reg.IMG_CUT_STAT_STATE, 1), (Reg.IMG_CUT_ID, 7)]).Ready (pk [7]) 0x111 1 false ∧
    (dv).Ready (pk) 0x112 0 false ∧ (dv).Ready (pk [1000]) 0x120 1 true ∧ 2 * 1000 ≤ (dv).r Reg.EPK_CFG_K * 15625 := by
  simp only [ready_iff]; decide

theorem witness_FrontHolders : (dv).pathOpen .pf1 = true ∧ (dv).pathOpen .pf0 = true := by decide

/-- Locked in stage PAIR: with no epoch placed, with one placed that commits, and with one that does not. -/
theorem witness_CommitPointOrder :
    let d := dv [(Reg.TB_STATE_LOCKED, 1), (Reg.GLB_BOOT_STAGE, 10), (Reg.PAIR_STAT_HOLDER, 1), (Reg.PAIR_STAT_STATE, 2)]
    (dv).locked = false ∧ d.locked = true ∧ 9 ≤ d.r Reg.GLB_BOOT_STAGE ∧ d.r Reg.GLB_BOOT_FAIL_STAGE = 0 ∧ d.ep.placed = false ∧
    ({ d with ep := { placed := true } } : Dev).commits = true ∧ (dv).commits = false ∧
    (dv).ep.deadlinePassed = false ∧ (dv).pinned = false ∧ ({ dv with ep := { pf1Hold := true } } : Dev).pinned = true ∧ (dv).Sound := by
  simp only [sound_iff]; decide

/-! ### Time and calendar -/

/-- A device in time state `x`, locked. -/
def tbd (x : Nat) : Dev := dv [(Reg.TB_STATE_STATE, x), (Reg.TB_STATE_LOCKED, 1)]

theorem witness_TimeCommands :
    (dv).Ready (pk) 0x900 0 false ∧ (dv).Ready (pk [0, 1]) 0x901 2 true ∧ (dv).tstate = 0 ∧ (tbd 4).tstate = 4 ∧
    (dv).r Reg.TB_SEED_FLOOR ≤ pair64 0 1 ∧ pair64 0 0 < (dv [(Reg.TB_SEED_FLOOR, 1)]).r Reg.TB_SEED_FLOOR ∧
    (tbd 2).tstate ≠ 0 ∧ (tbd 2).tstate ≠ 4 ∧ (tbd 2).Ready (pk [0]) 0x902 1 true ∧ (tbd 2).time.pendRestep = false ∧
    (tbd 5).Ready (pk [1, 5, 0]) 0x902 3 true ∧ (tbd 5).tstate = 5 ∧ (dv).Ready (pk [3]) 0x903 1 false ∧
    (dv).Ready (pk [4]) 0x903 1 false ∧ (dv).Ready (pk [0, 0]) 0x904 2 false := by
  simp only [ready_iff]; decide

theorem witness_RatePointsAndTimeStates :
    (dv).time.pendR = none ∧ (dv).time.pendStep = none ∧ ({ dv with time := { pendR := some 5 } } : Dev).time.pendR ≠ none ∧
    (tbd 2).tstate = 2 ∧ (tbd 1).tstate = 1 ∧ (tbd 0).tstate ≠ 1 ∧ (tbd 0).tstate ≠ 2 ∧ (tbd 4).tstate = 4 ∧
    ({ tbd 4 with time := { seed := some 7 } } : Dev).time.seed = some 7 ∧ (tbd 4).time.seed = none ∧ (dv).Sound := by
  simp only [sound_iff]; decide

/-- A slave port 0 that hears master 9, with a Sync of it. -/
theorem witness_SyncIsUsedAndForwarded :
    let d : Dev := { dv [(Reg.PORT_STAT_AS_CAPABLE 0, 1)] with
      boot := { servo := true }, time := { slavePort := some 0, ports := [(0, { foreign := some ⟨[], 9, 0, 9, 1⟩ })] } }
    let m : PtpMsg := { srcId := 9, srcPort := 1 }
    (dv).boot.servo = false ∧ (d.ptpAccept m).2 = true ∧ m.twoStep = false ∧ (d.ptpAccept { m with version := 1 }).2 = false ∧
    (Tab.look [] 0 d.time.fwd).contains (m.srcId, m.srcPort, m.seq) = false ∧ d.b (Reg.PORT_STAT_AS_CAPABLE 0) = true ∧
    (d.ptp 0).foreign = some ⟨[], 9, 0, 9, 1⟩ ∧ (dv).Sound ∧ (dv).tstate = 0 := by
  simp only [sound_iff]; decide

/-- A started servo; a grandmaster with link on port 3 alone; an answer to request 0 of port 0. -/
theorem witness_PtpMessagesInAndOut :
    let d : Dev := { dv [(Reg.TB_STATE_STATE, 5), (Reg.TB_CLOCK_ID, 77), (Reg.TLB_PORT_STAT_LINK 3, 1)] with
      boot := { servo := true }, time := { ports := [(0, { req := some (0, 5), twoStep := some (5, 6, 7) })] } }
    let m : PtpMsg := { srcId := 9, reqId := 77, reqPort := 1 }
    (d.ptpAccept m).2 = true ∧ m.gmId ≠ d.r Reg.TB_CLOCK_ID ∧ (((d.reach 9).ptpAccept m).2 = true) ∧ d.tstate = 5 ∧
    [0, 1, 2, 3].filter d.portLink = [3] ∧
    (((d.reach 9).ptpAccept m).1).pdelayMatches 0 m = true ∧ (d.ptp 0).twoStep = some (5, 6, 7) ∧
    (dv).tstate ≠ 4 ∧ (dv).tstate ≠ 5 := by
  decide

theorem witness_CalendarEntriesAndCommands :
    let on := (dv).putMw 0x32_0000 (2 ^ 31)
    (dv).pathOpen .pf1 = true ∧ on.entryOn 0 = true ∧ (dv).entryOn 4095 = false ∧ bitOf (setBit 0 31 true) 30 = false ∧
    6 ≤ 6 % 8 ∧ 8 < bits (9 * 2 ^ 26) 26 4 ∧ 16 < bits (17 * 2 ^ 21) 21 5 ∧ (dv).Sound ∧ on.Sound ∧
    5 % 8 < 6 ∧ bits 5 26 4 ≤ 8 ∧ bits (16 * 2 ^ 21) 21 5 ≤ 16 ∧ bitOf 5 31 = false ∧
    (dv).Ready (pk [7]) 0x360 1 false ∧ (dv).Ready (pk [7, 0, 0]) 0x361 3 false ∧
    (dv).Ready (pk [4095, 0, 0, 0, 0, 0, 0, 0, 0]) 0x362 9 false ∧ on.Ready (pk [0, 0, 0, 0, 0, 0, 0, 0, 0]) 0x362 9 false ∧
    (dv).Ready (pk [4064, 32]) 0x363 2 false ∧ 3 + 8 * 32 ≤ replyLimit (.pf1 0) ∧
    (dv).Ready (pk [4095, 1, 0]) 0x364 3 false ∧ (dv).Ready (pk [4095, 1, 1]) 0x364 3 false ∧ (dv).Ready (pk) 0x365 0 false := by
  simp only [ready_iff, sound_iff]; decide

/-- A running calendar, a standby, an output switch that is due. -/
theorem witness_CalendarLatchAndEvaluation :
    let run : Dev := { dv with cal := { run := true } }
    let w : Switch := { event := 0, instant := 5, before := false, level := true, threshold := 0, rising := true, lastEpoch := 0 }
    let d : Dev := (dv).putMw 0x32_0000 (2 ^ 28 + 2 ^ 31)
    (dv [(Reg.PAIR_STAT_STATE, 3)]).enginesStill = true ∧ run.enginesStill = false ∧ run.cal.orphans = [] ∧
    run.cal.stopping = false ∧ (dv).cal.run = false ∧ w.occurred = false ∧
    ((dv).putMw 0x32_0000 (2 ^ 31 + 2 ^ 24)).entryOn 0 = true ∧ d.entryOn 0 = true ∧ (d.entry 0).kind = 0 ∧
    bitOf (d.mw 0x32_0000) 28 = true ∧ d.cal.switches = [] ∧
    (dv [(Reg.COORD_CFG_ENABLE 0, 1)]).b (Reg.COORD_CFG_ENABLE 0) = true ∧
    (dv [(Reg.COORD_CFG_ENABLE 0, 1)]).b (Reg.COORD_STAT_LOST 0) = false := by
  decide

theorem witness_ShortestSignedDistance :
    (0 : Int) ≤ 3 ∧ (3 : Int) < 10 ∧ (0 : Nat) < 10 ∧ (9 : Int) ≠ 0 ∧ diffC 10 5 0 = -5 ∧ diffC 10 4 0 = 4 := by
  decide

/-! ### Loop, trace and profile -/

/-- Axis 0 enabled on bank 0; the bank of an empty memory. -/
theorem witness_LoopMemoryAndCommands :
    let on : Dev := dv [(Reg.AXIS_STAT_ENABLED 0, 1)]
    (dv).pathOpen .pf0 = true ∧ (dv).pathPriv .pf0 = false ∧ (dv).pathPriv .pf1 = true ∧ 131071 / 1024 < axesOf .fx8_128 ∧
    on.axisOn 0 = true ∧ 0 / 0x400 = on.bankOf 0 ∧ (dv).axisOn 127 = false ∧ 0x97C < 0x980 ∧ 0x400 / 0x400 ≠ on.bankOf 0 ∧
    (dv).Ready (pk) 0x200 0 false ∧ (dv).Ready (pk [1, 0, 0, 0, 0]) 0x201 5 true ∧ (dv).Ready (pk [0, 0, 0, 0, 2]) 0x201 5 true ∧
    axisList [1, 0, 0, 0, 2] = [0] ∧ axisList [0, 0, 0, 0x8000_0000, 2] = [127] ∧
    (dv).bankBad .fx8_128 0 0 [0] = true ∧ 127 < axesOf .fx8_128 ∧ (dv).Ready (pk [1, 0, 0, 0, 0, 0, 1]) 0x202 7 true ∧
    pair64 0 0 ≤ (dv).r Reg.EPK_NOW ∧ (dv [(Reg.EPK_NOW, 7)]).r Reg.EPK_NOW < pair64 8 0 ∧
    (dv [(Reg.LOOP_STAT_SWAP_PENDING, 1)]).b Reg.LOOP_STAT_SWAP_PENDING = true ∧ (dv).b Reg.LOOP_STAT_SWAP_PENDING = false ∧
    (dv).Ready (pk [1, 0, 0, 0]) 0x203 4 true ∧ (dv).Ready (pk [127]) 0x204 1 false ∧ (dv).ep.front.valid = false := by
  simp only [ready_iff]; decide

theorem witness_CandidateOutput :
    (dv).injected 0 0 0 0 = 0 ∧ (dv).injected 0 0 1 0 = 0 ∧ 0 < bits (((dv).putMw 0x28_0020 (1 * 64)).mw 0x28_0020) 6 4 := by
  decide

/-- Group 4 ready with no due axis, and a pass that none has. -/
theorem witness_LoopPassesRun :
    let d : Dev := { dv with loop := { ready := [(4, 2000)] } }
    (dv).nextPass = none ∧ d.nextPass = some (4, 2000) ∧ d.dueAxes 4 = [] ∧ (∃ e ∈ d.loop.ready, e.1 = 4) ∧
    (∀ e ∈ (dv).loop.ready, e.1 ≠ 4) := by
  decide

theorem witness_TraceCaptureCommands :
    let arm : Dev := dv [(Reg.TRC_STAT_STATE, 1)]
    let idle : Dev := dv [(Reg.TRC_LEN, 4), (Reg.TRC_PRE, 1), (Reg.TRC_POST, 4), (Reg.TRC_FMT_NCH, 16), (Reg.TRC_FMT_DIV, 1)]
    let done : Dev := dv [(Reg.TRC_STAT_STATE, 3), (Reg.TRC_LEN, 4), (Reg.TRC_VALID_ROWS, 4), (Reg.TRC_FMT_NCH, 1)]
    arm.trcBusy = true ∧ idle.trcBusy = false ∧ idle.r Reg.TRC_PRE < idle.r Reg.TRC_LEN ∧ 1 ≤ idle.r Reg.TRC_POST ∧
    idle.r Reg.TRC_POST ≤ idle.r Reg.TRC_LEN ∧ geometryBad 16 1 4 4 = true ∧ geometryBad 16 1 8 4 = false ∧
    (dv).Ready (pk) 0xF00 0 false ∧
    (dv).Ready (pk [0x0001_0001, 8, 174762, 0, 1, 0, 0, 0]) 0xF01 (7 + bits 0x0001_0001 16 5) false ∧
    setupBad [0x0001_0001, 4, 1, 0, 1, 0, 0, 0] = some 3 ∧ setupBad [0x0001_0001, 8, 1, 0, 1, 0, 0, 0] = none ∧
    idle.Ready (pk) 0xF02 0 false ∧ arm.Ready (pk) 0xF03 0 false ∧ (dv).Ready (pk) 0xF04 0 false ∧
    done.Ready (pk [3, 1]) 0xF05 2 false ∧ 3 + 1 * (2 + done.r Reg.TRC_FMT_NCH) ≤ replyLimit (.pf1 0) ∧
    3 + 1 ≤ done.r Reg.TRC_VALID_ROWS ∧
    (let inj : Dev := dv [(Reg.INJ_COUNT 3, 5), (Reg.AXIS_STAT_ENABLED 0, 1)]
     inj.Ready (pk [3, 1, 0]) 0xF10 3 true ∧ inj.r Reg.EPK_NOW < pair64 1 0 ∧ inj.axisOn 0 = true ∧
       inj.r (Reg.AXIS_STAT_FAULT 0) = 0 ∧ inj.r (Reg.INJ_CTRL_WAVE 3) ≤ 1 ∧ inj.r (Reg.INJ_COUNT 3) ≠ 0 ∧
       (∀ j ∈ [0, 1, 2, 3], inj.b (Reg.INJ_STAT_ACTIVE j) = false)) ∧
    (dv [(Reg.INJ_STAT_ACTIVE 0, 1)]).Ready (pk [0]) 0xF11 1 true ∧
    (dv [(Reg.INJ_STAT_ACTIVE 0, 1)]).b (Reg.INJ_STAT_ACTIVE 0) = true := by
  simp only [ready_iff]; decide

/-- An axis in HOLD, in TIME, in GEAR, and after a limit stop; a slot whose four limits are 1.0. -/
theorem witness_ProfileCommands :
    let time : Dev := dv [(Reg.AX_PRF_STAT_MODE 0, 1)]
    let gear : Dev := dv [(Reg.AX_PRF_STAT_MODE 0, 3)]
    let one : Nat := 0x3FF0_0000
    let slot : List Nat := [0, 0, 0, 0, one, 0, one, 0, one, 0, one]
    (dv).Ready (pk) 0x300 0 false ∧ (dv).Ready (pk [127, 15]) 0x301 2 false ∧ (dv).startRefused 0 (slotOf []) = some (.badParam 0) ∧
    (dv).startRefused 0 (slotOf slot) = none ∧ (dv).Ready (pk [0, 1, 0]) 0x302 3 false ∧
    (dv [(Reg.AX_PRF_STAT_STOP_KIND 0, 3)]).motionDenied 0 = true ∧ (dv).motionDenied 0 = false ∧
    (dv).b (Reg.AX_PRF_STAT_OUTSIDE 0) = false ∧ (dv).modeOf 0 ≠ 1 ∧ (dv).modeOf 0 ≠ 2 ∧ time.modeOf 0 = 1 ∧
    time.tooFar 0 1 = false ∧ time.vlimEn 0 = false ∧
    time.Ready (pk [0, 0, 0x3FF0_0000, 0, 0x3FF0_0000, 0, 0x3FF0_0000, 0, 0x3FF0_0000]) 0x303 9 false ∧
    f64.isPos (pair64 0 0x3FF0_0000) = true ∧ (dv).Ready (pk [1, 0, 0, 0, 1]) 0x304 5 false ∧
    (∀ a ∈ axisList [1, 0, 0, 0x8000_0000, 1], a < axesOf .fx8_128) ∧
    (dv).Ready (pk [127, 7, 2, 0, 0, 0, 0, 0, 0]) 0x305 9 false ∧ time.atRest 0 = false ∧ (dv).atRest 0 = true ∧
    (dv).b (Reg.COORD_STAT_VALID 7) = false ∧ (dv [(Reg.COORD_STAT_VALID 7, 1)]).b (Reg.COORD_STAT_VALID 7) = true ∧
    gear.Ready (pk [0, 15, 1]) 0x306 3 false ∧ gear.modeOf 0 = 3 ∧ bits (gear.mw (gearAddr 0 15)) 1 2 ≠ 3 ∧
    (dv).Ready (pk [1, 0, 0, 0]) 0x307 4 false ∧ (dv).Ready (pk [1, 0, 0, 0]) 0x308 4 false ∧
    (dv).Ready (pk [127]) 0x309 1 false ∧
    (dv).Ready (pk [127, 0, 0, 0, 0, 0, 0, 0, 0, 0, 0, 0, 0, 0, 0, 0, 0]) 0x30A 17 true ∧ (dv).holdRest 127 = true ∧
    (dv).paramBad .fx8_128 0 [0, 0, 0, 0, 0, 0, one, 0, one, 0, one, 0, one, 0, one] = none ∧ time.holdRest 0 = false := by
  simp only [ready_iff]; decide

theorem witness_ParameterRecordsAndGenerator :
    let run : Dev := { dv with prf := { run := true } }
    (dv).pathOpen .pf0 = true ∧ (dv).pathPriv .pf0 = false ∧ (dv).pathPriv .pf1 = true ∧ 127 < axesOf .fx8_128 ∧
    (dv).holdRest 127 = true ∧ ((dv).paramBad .fx8_128 0 []).isSome = true ∧
    (dv [(Reg.PAIR_STAT_STATE, 3)]).enginesStill = true ∧ (dv).enginesStill = false ∧ (dv).ep.placed = false ∧
    (dv).prf.run = false ∧ run.enginesStill = false ∧ run.prf.run = true := by
  decide

/-- A plan of no segments from set-point 5 has reached its target; a stop without limits. -/
theorem witness_SetPointsOfTheModes :
    let p : Plan := { org := 5, v0 := 0, a0 := 0, segs := [], target := some 5, start := 0 }
    let d : Dev := { dv [(Reg.AX_PRF_STAT_MODE 0, 1)] with prf := { axes := [(0, { plan := some p })] } }
    (dv).modeOf 0 = 0 ∧ d.modeOf 0 = 1 ∧ (d.px 0).plan = some p ∧ p.at (fint (((0 + 1 : Nat) : Int) - p.start)) = none ∧
    p.rev = false ∧ p.kind = 0 ∧ p.ovr = false ∧ d.Sound ∧ 0 ≤ d.r (Reg.AX_PRF_STAT_STOP_KIND 127) ∧
    ({ p with cruise := true } : Plan).at (fint (((0 + 1 : Nat) : Int) - p.start)) ≠ none ∧
    f64.isPos (d.stopLimits 0 3).1 = false := by
  simp only [sound_iff]; decide

theorem witness_GearLawOfOneCoordinate :
    let l : GearLaw := ⟨0, 0, 0, 2 ^ 32, 2 ^ 32, 1⟩
    let d : Dev := { dv [(Reg.AX_PRF_STAT_MODE 0, 3)] with prf := { axes := [(0, { gear := some l })] } }
    (l.sigma = 1 ∨ l.sigma = -1) ∧ 0 ≤ l.b ∧ d.modeOf 0 = 3 ∧ d.armedEntries 0 = [] ∧ (d.px 0).gear = some l ∧
    l.value (2 ^ 32) = 2 ^ 23 ∧ l.value (3 * 2 ^ 31) = 2 ^ 24 ∧ l.value (-1) = 0 := by
  decide

/-! ### Teams, Paddock, Sage, rings -/

theorem witness_DutyOfADemand :
    (∀ v ∈ ((dv).tx 0).act, -32768 ≤ v ∧ v ≤ 32767) ∧ (dv [(Reg.TEAM_CFG_MODE 0, 1)]).r (Reg.TEAM_CFG_MODE 0) = 1 ∧
    (dv).r (Reg.TEAM_COMM_SRC 0) = 0 ∧ (dv [(Reg.TEAM_COMM_SRC 0, 2)]).r (Reg.TEAM_COMM_SRC 0) ≠ 0 ∧
    (dv [(Reg.TEAM_CFG_MODE 0, 2)]).r (Reg.TEAM_CFG_MODE 0) = 2 ∧
    (∀ v ∈ [(-32768 : Int), 32767], -32768 ≤ v ∧ v ≤ 32767) ∧ tOn 65535 40 = 39 ∧ tOn 0 40 = 0 := by
  decide

/-- A driving, enabled team, one that is tripped, and one that holds. -/
theorem witness_TripsAndClears :
    let run : Dev := { dv [(Reg.TEAM_STAT_ENABLED 23, 1), (Reg.TEAM_TRIP_CFG_EN_ON_TRIP 23, 1)] with pair := { driving := true } }
    let hold : Dev := dv [(Reg.TEAM_STAT_HOLDING 0, 1)]
    24 ≤ 27 ∧ 23 < teamsOf .fx8_128 ∧ (dv).pathOpen .pf0 = true ∧ (dv).pathPriv .pf0 = false ∧ (dv).pathPriv .pf1 = true ∧
    (dv).Ready (pk [0x80_0001]) 0x403 1 true ∧ (dv).Ready (pk [0x80_0001]) 0x404 1 true ∧
    (∀ t ∈ onesOf 24 0x80_0001, t < teamsOf .fx8_128) ∧ run.Sound ∧ run.b (Reg.TEAM_STAT_TRIPPED 23) = false ∧
    (dv [(Reg.TEAM_STAT_TRIPPED 23, 1)]).b (Reg.TEAM_STAT_TRIPPED 23) = true ∧ run.b (Reg.TEAM_STAT_ENABLED 23) = true ∧
    bitOf run.team.sto 23 = false ∧ (run.tx 23).safe ≠ 1 ∧ run.b (Reg.TEAM_TRIP_CFG_EN_ON_TRIP 23) = true ∧
    (dv).clearOk 0 = true ∧ ({ dv with team := { sto := 1 } } : Dev).clearOk 0 = false ∧
    (dv).b (Reg.TEAM_STAT_HOLDING 0) = false ∧ hold.b (Reg.TEAM_STAT_HOLDING 0) = true ∧
    hold.r (Reg.TEAM_CFG_HOLD_EPOCHS 0) ≤ (({ hold with team := { teams := [(0, { held := 99 })] } } : Dev).tx 0).held := by
  simp only [ready_iff, sound_iff]; decide

theorem witness_TeamAndStepperCommands :
    let on : Dev := dv [(Reg.TEAM_STAT_ENABLED 0, 1), (Reg.TEAM_CFG_MODE 0, 1)]
    let step : Dev := dv [(Reg.TEAM_CFG_MODE 0, 3)]
    lockedTeamReg (4 * 0) = true ∧ lockedTeamReg (4 * 46) = true ∧ on.b (Reg.TEAM_STAT_ENABLED 0) = true ∧
    (dv).b (Reg.TEAM_STAT_ENABLED 0) = false ∧ (dv).Ready (pk) 0x400 0 false ∧
    (dv).Ready (pk (List.replicate 18 0)) 0x401 18 true ∧ (dv).teamConfigBad 0 (List.replicate 17 0) = some 3 ∧
    (dv).teamConfigBad 0 [512, 0, 0, 0, 0, 0, 0, 0, 1, 0, 0, 0, 0, 0, 0, 0, 0] = none ∧
    on.Ready (pk [1, 1]) 0x402 2 true ∧ (dv).r (Reg.TEAM_CFG_MODE 0) = 0 ∧ on.r (Reg.TEAM_CFG_MODE 0) ≠ 0 ∧
    (dv).Ready (pk [23]) 0x405 1 false ∧ (dv).ep.front.valid = false ∧ step.Ready (pk (List.replicate 16 0)) 0x406 16 true ∧
    step.r (Reg.TEAM_CFG_MODE 0) = 3 ∧
    step.stepConfigBad 0 [0x1_0002, 0, 0, 1, 0, 0, 0, 0x10_0000, 1, 0, 0, 0x3F80_0000, 0x3F80_0000, 0x3F80_0000, 0] = none ∧
    step.Ready (pk [1, 32767, 0]) 0x407 3 true ∧ (dv).Ready (pk [23]) 0x408 1 false ∧ (dv).Ready (pk [47, 1]) 0x410 2 false ∧
    5 + 48 ≤ replyLimit (.pf1 0) ∧ (dv).Ready (pk [23]) 0x420 1 false := by
  simp only [ready_iff]; decide

theorem witness_PeriodsAndSensing :
    let on : Dev := { dv [(Reg.TEAM_STAT_ENABLED 0, 1), (Reg.TEAM_CFG_MODE 0, 2), (Reg.TEAM_CFG_PDIV 0, 2)] with
      team := { teams := [(0, { due := true, staged := [some 5] }), (1, { cmps := [2 ^ 26 + 2 ^ 25 + 47 * 2 ^ 19 + 5, 0, 0, 0] })],
                conv := [(7, { busy := some ⟨47, false, 0, true⟩ })], enc := [(0, { seen := true })] } }
    let enc : Dev := dv [(Reg.ENC_CFG_MODE 0, 1), (Reg.ENC_CFG_MODE 1, 2), (Reg.ENC_CFG_MODE 2, 4)]
    (dv).r (Reg.TEAM_CFG_MODE 0) ≠ 3 ∧ ((dv).tx 0).due = false ∧ 0 + 1 < on.r (Reg.TEAM_CFG_PDIV 0) ∧ (on.tx 0).due = true ∧
    (on.tx 0).enNext = none ∧ on.b (Reg.TEAM_STAT_ENABLED 0) = true ∧
    (∀ i ∈ on.demandsUsed 0, ((on.tx 0).staged.getD i none).isSome = true) ∧
    (∃ i ∈ on.demandsUsed 0, (on.tx 1).staged.getD i none = none) ∧ on.b (Reg.TEAM_STAT_DEMAND_LOST 0) = false ∧ on.Sound ∧
    bitOf ((on.tx 1).cmps.getD 0 0) 26 = true ∧ 100 * bits ((on.tx 1).cmps.getD 0 0) 0 19 < on.periodUnits 0 ∧
    bitOf ((on.tx 1).cmps.getD 0 0) 25 = true ∧ bits ((on.tx 1).cmps.getD 0 0) 19 6 < 48 ∧ convOf 47 = 7 ∧
    (Tab.look {} 7 on.team.conv : ConvX).busy.isSome = true ∧ (Tab.look {} 7 (dv).team.conv : ConvX).busy = none ∧
    on.b (Reg.ADC_LIM_MASK_LIM_EN 47) = false ∧ (∀ e : Fin 24, on.r (Reg.ENC_CFG_MODE e.val) ≠ 3) ∧
    enc.r (Reg.ENC_CFG_MODE 0) = 1 ∧ enc.r (Reg.ENC_CFG_MODE 1) = 2 ∧ enc.r (Reg.ENC_CFG_MODE 2) = 4 ∧
    enc.b (Reg.ENC_CFG_GRAY 1) = false ∧ (on.ex 0).seen = true := by
  simp only [sound_iff]; decide

theorem witness_ChopperAndLoadAngle :
    let d : Dev := { dv [(Reg.TEAM_CFG_MODE 0, 3), (Reg.STEP_STAT_STRONG 0, 1), (Reg.TEAM_STAT_ENABLED 0, 1), (Reg.STEP_CFG_DECAY 0, 0),
        (Reg.ADC_EPOCH_VALID 0, 1), (Reg.ADC_EPOCH_VALID 1, 1)] with
      team := { teams := [(0, { step := { still := 99999, ixPrev := [some 1, some 2], a := { st := 1, armed := true }, b := { st := 2 } } })] } }
    (dv).r (Reg.TEAM_CFG_MODE 0) ≠ 3 ∧ d.r (Reg.TEAM_CFG_MODE 0) = 3 ∧ d.r (Reg.STEP_CFG_TSTILL 0) ≤ (d.tx 0).step.still ∧
    (dv).strong 0 = false ∧ d.strong 0 = true ∧ (d.tx 0).step.a.st = 1 ∧ (d.tx 0).step.a.armed = true ∧ (d.tx 0).step.b.st = 2 ∧
    d.b (Reg.STEP_CFG_DECAY 0) = false ∧ d.b (Reg.TEAM_STAT_ENABLED 0) = true ∧ d.adcNow 0 = some 0 ∧ d.adcNow 1 = some 0 ∧
    (d.tx 0).step.ixPrev = [some 1, some 2] ∧ d.adcNow (d.r (Reg.STEP_VBUS 0)) = some 0 ∧ (dv).adcNow 0 = none ∧ d.Sound := by
  simp only [sound_iff]; decide

theorem witness_SeparationDistance : 0 < (⟨256, 0, 0, 0, 0, 0⟩ : SepLaw).a ∧ (⟨256, 0, 0, 0, 0, 0⟩ : SepLaw).tooNear (-1) 0 = true ∧
    (⟨256, 0, 0, 0, 0, 0⟩ : SepLaw).tooNear 0 0 = false := by decide

theorem witness_PaddockCommands :
    let run : Dev := dv [(Reg.PDK_STAT_STATE, 2)]
    (dv).Ready (pk) 0x500 0 false ∧ (dv).Ready (pk [15]) 0x501 1 false ∧ 15 < armsOf .fx8_128 ∧ (dv).Ready (pk [63, 1]) 0x502 2 false ∧
    63 < intrudersOf .fx8_128 ∧ 5 + 8 * 64 ≤ replyLimit (.pf1 0) ∧ (dv).Ready (pk [31]) 0x503 1 false ∧
    run.Ready (pk [0xFFFF]) 0x504 1 true ∧ 0xFFFF % 2 ^ 16 < 2 ^ armsOf .fx8_128 ∧ run.r Reg.PDK_STAT_STATE = 2 ∧
    (dv).r Reg.PDK_STAT_STATE ≠ 2 ∧ (dv).Ready (pk) 0x505 0 true ∧ (dv [(Reg.PDK_STAT_STATE, 3)]).r Reg.PDK_STAT_STATE = 3 ∧
    (dv).Sound := by
  simp only [ready_iff, sound_iff]; decide

/-- Arm 0 enabled with automatic release, sensor 0 enabled for it, in RUN, and a cycle that is computed. -/
theorem witness_PaddockCyclesAndStops :
    let d : Dev := { ((dv [(Reg.PDK_STAT_STATE, 2), (Reg.ARM_STAT_PSTOP 0, 1), (Reg.ARM_STAT_CAUSE 0, 0x20), (Reg.EPK_CFG_K, 1),
        (Reg.EPK_NOW, 33)]).putMw 0x51_6000 (2 ^ 12 + 2 ^ 13)).putMw 0x51_6400 3 with
      pdk := { cycle := some 1, epoch := 32, busy := true, taken := true, capRun := [(0, 1)] } }
    (dv).r Reg.PDK_STAT_STATE = 0 ∧ d.pdkCycleAt 32 = some 1 ∧ d.pdkCycleAt (d.r Reg.EPK_NOW) = none ∧
    d.r Reg.PDK_STAT_STATE ≠ 0 ∧ ({ d with ep := { placed := true } } : Dev).ep.placed = true ∧ d.enginesStill = false ∧
    bitOf ((dv).sensWord 15 0) 0 = false ∧ bitOf (d.sensWord 0 0) 0 = true ∧
    bits (d.sensWord 0 0) 17 8 ≤ d.r (Reg.PDK_SENS_STAT_AGE 0) ∧ 0 ∈ d.armsOn .fx8_128 ∧
    bitOf (bits (d.sensWord 0 0) 1 16) 0 = true ∧ (dv).pdk.cycle = none ∧ (dv).pdk.busy = false ∧ d.pdk.cycle = some 1 ∧
    d.pdk.busy = true ∧ d.pdk.taken = true ∧ d.pdk.epoch ≠ d.r Reg.EPK_NOW ∧ d.Sound ∧
    d.b (Reg.ARM_STAT_PSTOP 0) = true ∧ bitOf (d.armWord 0 0) 13 = true ∧ d.r (Reg.ARM_STAT_CAUSE 0) &&& 0x19E = 0 ∧
    max 1 (bits (d.armWord 0 8) 0 16) ≤ Tab.look 0 0 d.pdk.capRun := by
  simp only [sound_iff]; decide

theorem witness_SageCommands :
    let d : Dev := { dv with sage := { active := some oneVar, result := some ⟨0, 0, 5, [0, 0, 0], [], [], 0⟩ } }
    (dv).pathOpen .pf0 = true ∧ (dv).pathPriv .pf0 = false ∧ (dv).pathPriv .pf1 = true ∧ sageFitted .fx8_128 = true ∧
    sageFitted .fx8_032 = false ∧ (dv).Ready (pk) 0x600 0 false ∧ (dv).Ready (pk [0, 16]) 0x601 2 true ∧
    (dv [(Reg.SAGE_STAGED_STAT_STATE, 1)]).r Reg.SAGE_STAGED_STAT_STATE = 1 ∧ (dv).r Reg.SAGE_STAGED_STAT_STATE ≠ 1 ∧
    (dv).b Reg.SAGE_STAGED_STAT_COMMIT_PENDING = false ∧ (dv [(Reg.SAGE_STAGED_ID, 7)]).Ready (pk [7, 1, 0]) 0x602 3 true ∧
    7 = (dv [(Reg.SAGE_STAGED_ID, 7)]).r Reg.SAGE_STAGED_ID ∧ pair64 0 0 ≤ (dv).sageCycle ∧ (dv).sageCycle < pair64 1 0 ∧
    d.Ready (pk [5, 1, 1, 0, 0]) 0x603 (2 + 3 * 1) false ∧ d.sage.active = some oneVar ∧ 1 % 2 ^ 18 < oneVar.nval ∧
    fin64 (pair64 0 0) = true ∧ d.sage.deltas.length + 1 ≤ 16384 ∧ d.Ready (pk [2, 1]) 0x604 2 false ∧
    6 + 2 * 1 ≤ replyLimit (.pf1 0) ∧ (dv).Ready (pk) 0x605 0 true := by
  simp only [ready_iff]; decide

theorem witness_SageCyclesAndResults :
    let d : Dev := { dv [(Reg.SAGE_CTRL_RUN, 1), (Reg.SAGE_CFG_KC, 8), (Reg.EPK_NOW, 8)] with
      sage := { active := some oneVar, vals := oneVar.init }, ep := { placed := true } }
    let q : SageSolve := { cycle := 1, bound := 0, par := [], iterMax := 10, shiftMax := 2, first := true, warm := false, ready := 0,
                           x := [0], y := [], z := [], s := [] }
    sageFitted .fx8_032 = false ∧ (dv [(Reg.PAIR_STAT_STATE, 3)]).enginesStill = true ∧ d.enginesStill = false ∧ d.kc ≠ 0 ∧
    d.r Reg.EPK_NOW % d.kc = 0 ∧ (dv [(Reg.SAGE_CFG_KC, 8), (Reg.EPK_NOW, 9)]).r Reg.EPK_NOW % d.kc ≠ 0 ∧
    d.sage.lastCycle ≠ some d.sageCycle ∧ d.sage.solve = none ∧ d.b Reg.SAGE_STAGED_STAT_COMMIT_PENDING = false ∧ d.Sound ∧
    (dv).b Reg.SAGE_CTRL_RUN = false ∧ d.b Reg.SAGE_CTRL_RUN = true ∧ oneVar.binds = [] ∧ d.sage.deltas = [] ∧
    (∀ v ∈ d.sage.vals, fin64 v = true) ∧ q.first = true ∧ 0 < q.shiftMax ∧ q.iters + 1 < q.iterMax ∧
    (dv).r Reg.SAGE_STAGED_STAT_STATE ≠ 1 ∧ (dv [(Reg.SAGE_STAGED_STAT_STATE, 1)]).Sound ∧
    (analyse (List.replicate 16 1) 128 16 0 none).1 = 2 := by
  simp only [sound_iff]; decide

/-- A node in RUN with slot 0, one in HOLD whose time is over, one in READY and aligned. -/
theorem witness_RingNodeEvents :
    let run : NodeX := { st := 3, number := 5 }
    let hold : NodeX := { st := 4, noFrame := 2, hold := 2 }
    let f : TraceFrame := frame
    run.live = true ∧ ({} : NodeX).live = false ∧ ({} : NodeX).runAt = none ∧ ({} : NodeX).st = 0 ∧ ({} : NodeX).rsp = none ∧
    f.req.valid = false ∧ ({} : NodeX).dLink = true ∧ ({ dLink := false } : NodeX).dLink = false ∧ run.processed = false ∧
    run.delayU = none ∧ run.delayD = none ∧ run.stepped = false ∧ (∀ fs ∈ f.slots, fs.words.length ≤ 128) ∧ run.outSlots = [] ∧
    run.wdraws = [] ∧ run.timed = [] ∧ 0 < hold.noFrame ∧ hold.hold ≤ hold.noFrame ∧
    ({ run with slots := [(0, (0, 0))] } : NodeX).st = 3 ∧ (run.regPair 0).isSome = true ∧ run.regPair 0x1FC = none ∧
    ({ st := 2, aligned := true } : NodeX).aligned = true := by
  decide

theorem witness_RingPortEvents :
    let f : TraceFrame := { frame with returning := true, hop := 3, turnPos := 2 }
    let d : Dev := { dv [(Reg.CRD_PORT_STAT_STATE 3, 1), (Reg.CRD_PORT_CFG_PAIRED 0, 1), (Reg.PAIR_CFG_PAIRED, 1)] with
      crd := { ports := [(0, { frame := some f, acyc := [⟨5, 0, 1, 0, 0, 0, 0x706, 3, some 0⟩] }), (3, { phase := 1 }),
                         (2, { closeFrom := some 0, goodRun := 64 })] } }
    (d.rp 1).frame = none ∧ (d.rp 0).frame.isSome = true ∧ (d.rp 0).judged = false ∧ (d.rp 0).returned = none ∧
    f.epochLo = loW (d.r Reg.EPK_NOW) ∧ 0 < d.te - d.ep.margin ∧ f.origin = false ∧ f.rsp.valid = false ∧ d.needsFar 0 = false ∧
    d.Sound ∧ inWordsOf none ⟨0, 5, 0, 0, 0, 0, 0, 1, 0, none, none⟩ = none ∧
    (d.rp 1).acyc = [] ∧ 0 < (dv [(Reg.EPK_NOW, 1)]).r Reg.EPK_NOW ∧ (d.rp 2).closeFrom.isSome = true ∧ 64 ≤ (d.rp 2).goodRun ∧
    (dv [(Reg.PAIR_STAT_HOLDER, 1)]).b Reg.PAIR_STAT_HOLDER = true ∧ d.b Reg.PAIR_STAT_HOLDER = false ∧
    d.b (Reg.CRD_PORT_CFG_PAIRED 0) = true ∧ d.b Reg.PAIR_CFG_PAIRED = true ∧ d.crdState 3 = 1 ∧ d.crdState 2 ≠ 1 ∧
    (d.rp 3).startBad = none ∧ (d.rp 3).phase = 1 ∧ d.b (Reg.CRD_PORT_STAT_LINK 3) = false ∧
    (dv [(Reg.CRD_PORT_STAT_LINK 3, 1)]).b (Reg.CRD_PORT_STAT_LINK 3) = true := by
  simp only [sound_iff]; decide

theorem witness_RingCommands :
    let run : Dev := dv [(Reg.CRD_PORT_STAT_STATE 0, 2)]
    (dv).Ready (pk) 0x700 0 false ∧ (dv).Ready (pk [3]) 0x701 1 true ∧ 3 < ringsOf .fx8_128 ∧ run.crdState 0 ≠ 0 ∧
    (dv).crdState 3 = 0 ∧ (dv).Sound ∧ run.Ready (pk [0]) 0x702 1 true ∧ run.ringSends 0 = true ∧ (dv).Ready (pk [3]) 0x703 1 false ∧
    (dv).Ready (pk [3, 255, 1]) 0x704 3 false ∧ (dv).Ready (pk [3, 125, 0]) 0x705 3 false ∧ (dv).ringSends 3 = false ∧
    run.Ready (pk [0, 127, 0x28, 5, 6]) 0x706 5 true ∧ run.Ready (pk [0, 1, 3, 2, 0]) 0x707 5 true ∧
    pair64 1 0 ≤ run.r Reg.EPK_NOW + 1 ∧ run.r Reg.EPK_NOW + 1 < pair64 2 0 ∧ run.Ready (pk [0, 127, 5]) 0x707 3 true := by
  simp only [ready_iff, sound_iff]; decide

/-- Core 0 issues. -/
def x0 : HkIssue := { core := 0 }

/-- A device whose core 0 runs with a word at its program counter. -/
def hkDev (word : Nat) (f : HkCore → HkCore := id) : Dev :=
  { dv [(Reg.HK_STAT_STATE 0, 1)] with hk := { cores := [(0, f { imem := Mem.putWord [] 0 word })] } }

/-- `Dev.CanIssue` as a test. -/
def canIssueB (d : Dev) (x : HkIssue) (w : HkWant) : Bool :=
  let k := d.core x.core.val
  d.r (Reg.HK_STAT_STATE x.core.val) == 1 && decide (k.waiting = .none) && (!k.irq || !k.atBoundary) && decide (k.pc < 0x1_0000) &&
    k.pc % 4 == 0 && decide (x.fetch = .good) && Mem.word k.imem k.pc &&& w.mask == w.word &&& w.mask &&
    (!w.flow || (k.slot == 0 && decide (k.rep = none))) && (!w.load || decide (k.rep ≠ none) || decide (k.chain < 8)) &&
    (decide (k.rep = none) || decide (k.issueAt w ≤ k.cycle))

theorem canIssue_of (d : Dev) (x : HkIssue) (w : HkWant) (h : canIssueB d x w = true) : d.CanIssue x w := by
  simp only [canIssueB, Bool.and_eq_true, beq_iff_eq, decide_eq_true_eq, Bool.or_eq_true, Bool.not_eq_true'] at h
  obtain ⟨⟨⟨⟨⟨⟨⟨⟨⟨h1, h2⟩, h3⟩, h4⟩, h5⟩, h6⟩, h7⟩, h8⟩, h9⟩, h10⟩ := h
  exact ⟨h1, h2, h3, h4, h5, h6, h7, fun hf => h8.resolve_left (by simp [hf]),
    fun hl hr => (h9.resolve_left (by simp [hl, hr])), fun hr => h10.resolve_left hr⟩

theorem witness_BackboneFramesReceived :
    let d : Dev := { dv [(Reg.TLB_STAT_STATE, 3), (Reg.TLB_GUARD_GUARD, 1000), (Reg.TLB_PEER_STATE 5, 2),
        (Reg.TLB_PORT_STAT_LINK 1, 1), (Reg.PAIR_STAT_HOLDER, 1), (Reg.GLB_HOST_CFG_BB_CMD_EN, 1)] with
      tlb := { sched := [⟨0, 0, 5, 7, 0, 0⟩, ⟨0, 1, 5, 0, 0, 0⟩, ⟨0, 2, 5, 0, 0, 0⟩, ⟨0, 3, 6, 0, 0, 0⟩], peers := [(6, { fp0 := 0, fp1 := 0 })] } }
    let data : TlbFrame := { type := 0, src := 5, base := 7, epoch := 3 }
    (d.rxChecks 0 data 0).2 = true ∧ (d.rxChecks 0 { data with fcsOk := false } 0).2 = false ∧ data.null = false ∧
    data.nfrag = 1 ∧ (∀ y ∈ (d.rxChecks 0 data 0).1.tlb.partials, y.src ≠ data.src) ∧
    (d.rxChecks 0 { type := 1, src := 5, epoch := 3 } 0).2 = true ∧
    (d.rxChecks 0 { type := 2, src := 5, epoch := 3, envs := [⟨0, 5, false, false, 0, []⟩] } 0).2 = true ∧
    (d.rxChecks 0 { type := 2, src := 5, epoch := 3 } 0).1.r Reg.TLB_DOMAIN_SELF = 0 ∧
    (d.rxChecks 0 { type := 3, src := 6, epoch := 3, join := some ⟨0, 0, 0, 0, 0⟩ } 0).2 = true ∧
    (d.rxChecks 0 { type := 3, src := 6, epoch := 3 } 0).1.tlb.peers.find? (fun e => e.1 == 6) = some (6, { fp0 := 0, fp1 := 0 }) ∧
    (d.rxChecks 0 { type := 3, src := 6, epoch := 3 } 0).1.r (Reg.TLB_PEER_STATE 6) = 0 ∧ (dv).tlbState = 0 ∧ d.tlbState ≠ 0 ∧
    data.hops ≠ 63 ∧ frameKey data ∉ Tab.look [] 0 d.tlb.fwdKeys ∧ d.b (Reg.TLB_PORT_STAT_LINK 1) = true ∧
    Tab.look 0 1 d.tlb.ownEnd ≤ d.nowNs := by
  decide

theorem witness_BackboneSlotsAndSending :
    let d : Dev := { dv [(Reg.TLB_STAT_STATE, 3), (Reg.TLB_GUARD_GUARD, 1000), (Reg.TLB_PORT_STAT_LINK 1, 1),
        (Reg.PAIR_STAT_HOLDER, 1), (Reg.TB_STATE_STATE, 5)] with
      ep := { placed := true }, tlb := { counting := true, slots := [⟨0, 100, [], 0⟩, ⟨5000, 20000, [(10, .data 7 0)], 0⟩] } }
    let f : TlbFrame := { type := 0, src := 5, epoch := 3 }
    (dv).ep.placed = false ∧ d.ep.placed = true ∧ d.Sound ∧ (dv).tlb.slots[1]? = none ∧
    d.tlb.slots[1]? = some ⟨5000, 20000, [(10, .data 7 0)], 0⟩ ∧ d.tlbState = 3 ∧ d.tlb.counting = true ∧ 1 ∉ d.tlb.started ∧
    d.b Reg.PAIR_STAT_HOLDER = true ∧ (dv).b Reg.PAIR_STAT_HOLDER = false ∧ d.tlb.envOut = [] ∧ d.b Reg.TLB_STAT_MUTE = false ∧
    2 * (d.reach (d.countAt (d.cycleNs (d.r Reg.TLB_DCYCLE) + 5000))).errEst ≤ d.r Reg.TLB_GUARD_GUARD ∧
    (d.dataFrame (((d.cycleNs (d.r Reg.TLB_DCYCLE) + 5000 : Nat) - 1500 - (d.r Reg.EPK_ORIGIN : Int)) / d.te - 1) 7 0).isSome = true ∧
    (dv).tlb.queue = [] ∧ f.null = false ∧ d.b (Reg.TLB_PORT_STAT_LINK 1) = true ∧
    (∀ q : Nat, q < 4 → q ≠ 1 → d.b (Reg.TLB_PORT_STAT_LINK q) = false) ∧
    5010 + [].getD 1 0 < ({ d with tlb := { d.tlb with slotNow := some 1, queue := [(5010, f)] } } : Dev).gateNs ∧
    (dv).gateNs ≤ 5010 + [].getD 1 0 ∧ (dv).tlb.slotNow = none ∧
    ({ d.tlb with slotNow := some 1 } : TlbState).slotNow.isSome = true := by
  simp only [sound_iff]; decide

theorem witness_BackboneCommandsAndPeers :
    let j : JoinRec := ⟨7, 0, 0, 0, 0⟩
    let q : TlbPeer := { fp0 := 7, fp1 := 8 }
    let d : Dev := { dv [(Reg.TLB_PEER_STATE 9, 2), (Reg.TLB_STAT_STATE, 3), (Reg.TLB_DCYCLE, 20)] with
      tlb := { peers := [(9, { q with cand := some j })], remotes := [⟨3, 9, true, some 4⟩] } }
    (dv).Sound ∧ d.tlb.peers.find? (fun e => e.1 == 9) = some (9, { q with cand := some j }) ∧ q.cand = none ∧
    j.fprint = q.fp0 ∧ d.nowNs ≤ j.dt + 1000000000 ∧ j.dt < d.nowNs + 1000000 ∧ 6 ≠ q.fp0 ∧ 6 ≠ q.fp1 ∧
    d.tlb.remotes = [⟨3, 9, true, some 4⟩] ∧ 4 + 16 ≤ d.r Reg.TLB_DCYCLE ∧ (dv).r Reg.TLB_DCYCLE < 4 + 16 ∧
    (dv).Ready (pk) 0x800 0 false ∧ (dv).Ready (pk [3]) 0x801 1 false ∧ (dv).Ready (pk [4095, 1]) 0x802 2 false ∧
    3 + 1 ≤ replyLimit (.pf1 0) ∧ (dv).Ready (pk) 0x803 0 true ∧ (dv).tlbState = 0 ∧ d.Ready (pk) 0x804 0 true ∧ d.tlbState ≠ 0 ∧
    (dv).Ready (pk [511]) 0x805 1 false ∧ d.Ready (pk [9, 1, 2]) 0x806 3 true ∧ d.r (Reg.TLB_PEER_STATE 9) = 2 ∧
    ((dv [(Reg.TLB_PEER_STATE 9, 2)]).taken (pk [9, 1, 2]) 0x806).tlb.remotes = [] := by
  simp only [ready_iff, sound_iff]; decide

theorem witness_HackneyIssueAndHazards :
    let d := hkDev 0
    let body : RepBlock := ⟨0, 1, 2⟩
    let e : Dev := { d with ost := { running := [(0, ⟨3, true, 0, 500⟩)] } }
    d.CanIssue x0 { word := 0 } ∧ (hkDev 0 (fun k => { k with rep := some body })).CanIssue x0 { word := 0 } ∧
    (hkDev 0 (fun k => { k with slot := 1, target := 64 })).CanIssue x0 { word := 0 } ∧
    (dv).r (Reg.HK_STAT_STATE 0) ≠ 1 ∧ ({ gie := true, ien := 1, ipend := 1 } : HkCore).irq = true ∧
    ({} : HkCore).atBoundary = true ∧ ({} : HkCore).irq = false ∧ d.r (Reg.HK_STAT_STATE 0) = 1 ∧
    Mem.word (d.core 0).imem (d.core 0).pc &&& 0xFFFF_FFFF = 0 &&& 0xFFFF_FFFF ∧
    ({ cycle := 5, ready := [(1, 9)] } : HkCore).cycle < ({ cycle := 5, ready := [(1, 9)] } : HkCore).issueAt { word := 0, srcs := [1] } ∧
    e.Sound ∧ e.ost.running.find? (fun r => r.1 == 0) = some (0, ⟨3, true, 0, 500⟩) ∧ Tab.look [] 0 e.ost.cycq = [] := by
  refine ⟨canIssue_of _ _ _ (by decide), canIssue_of _ _ _ (by decide), canIssue_of _ _ _ (by decide), ?_⟩
  simp only [sound_iff]; decide

theorem witness_HackneyIntegerResults :
    (hkDev (wordR3 0 0x000 1 2 3)).CanIssue x0 { word := wordR3 0 0x000 1 2 3, srcs := [2, 3] } ∧
    (hkDev (wordR3 0 0x030 1 2 31)).CanIssue x0 { word := wordR3 0 0x030 1 2 0, mask := 0xFFE0_FFFF, srcs := [2] } ∧
    (hkDev (wordRK 0x08 1 2 0xFFFF)).CanIssue x0 { word := wordRK 0x08 1 2 0xFFFF, srcs := [2] } ∧
    (hkDev (wordRK 0x0E 1 2 31)).CanIssue x0 { word := wordRK 0x0E 1 2 31, srcs := [2] } ∧
    (hkDev (wordRK 0x0D 1 31 7)).CanIssue x0 { word := wordRK 0x0D 1 0 7, mask := 0xFFFF_07FF } ∧
    (BitVec.ofNat 32 ((hkDev 0).core 0 |>.reg 2)).toNat < 2 ^ (32 - 32) ∧ 2 ^ (31 - 31) ≤ (1 : BitVec 32).toNat := by
  refine ⟨canIssue_of _ _ _ (by decide), canIssue_of _ _ _ (by decide), canIssue_of _ _ _ (by decide),
    canIssue_of _ _ _ (by decide), canIssue_of _ _ _ (by decide), by decide, by decide⟩

theorem witness_HackneyFloatResults :
    (hkDev (wordR3 0x34 0 1 2 3)).CanIssue x0 { word := wordR3 0x34 0 1 2 3, srcs := [2, 3] } ∧
    (hkDev (wordR3 0x34 4 1 2 0)).CanIssue x0 { word := wordR3 0x34 4 1 2 0, srcs := [2], divide := true } ∧
    (hkDev (wordR4 0x35 2 1 2 3 4)).CanIssue x0 { word := wordR4 0x35 2 1 2 3 4, srcs := [2, 3, 4] } ∧
    f32.isNan 0x7FC0_0000 = true ∧ f32.isNan 0x7F80_0001 = true ∧ f32.isNan 0x3F80_0000 = false ∧
    f32.isNan (f32.add 0x7F80_0000 0xFF80_0000).1 = true ∧ f32.dec 0x3F80_0000 = .fin false (2 ^ 23) (-23) ∧
    f32.dec 0xCF00_0001 = .fin true (2 ^ 23 + 1) 8 ∧ f32.dec 0x4F00_0000 = .fin false (2 ^ 23) 8 := by
  refine ⟨canIssue_of _ _ _ (by decide), canIssue_of _ _ _ (by decide), canIssue_of _ _ _ (by decide), ?_⟩
  decide

theorem witness_HackneyLoadsAndStores :
    let dmem (k : HkCore) : HkCore := { k with regs := [(2, 0x1_0000), (3, 0x1000_0000), (4, 0x2000_0000), (5, 0x3000_0000)] }
    let d := hkDev (wordRK 0x18 1 2 0) dmem
    let k := d.core 0
    d.CanIssue x0 { word := wordRK 0x18 1 2 0, srcs := [2], load := true } ∧
    (hkDev (wordRK 0x1D 1 3 0) dmem).CanIssue x0 { word := wordRK 0x1D 1 3 0, srcs := [3, 1] } ∧
    (hkDev (wordRK 0x20 1 2 4) dmem).CanIssue x0 { word := wordRK 0x20 1 2 4, srcs := [2], load := true } ∧
    (hkDev (wordRK 0x21 1 2 4) dmem).CanIssue x0 { word := wordRK 0x21 1 2 4, srcs := [2, 1] } ∧
    (hkDev (wordR3 0x22 3 1 3 2) dmem).CanIssue x0 { word := wordR3 0x22 3 1 3 2, srcs := [3, 2], load := true } ∧
    (BitVec.ofNat 32 (k.reg 2) + (0 : BitVec 16).signExtend 32).toNat = 0x1_0000 ∧ k.reg 3 = 0x1000_0000 ∧ k.reg 4 = 0x2000_0000 ∧
    k.rep = none ∧ k.buffer = [] ∧ d.inSagePart 0 = false ∧ hkRegion 0 = .none ∧ hkRegion 0x4000_0000 = .port ∧
    hkRegion 0x2000_0000 = .image ∧ hkRegion 0x1_0000 = .dmem ∧ hkRegion 0x1000_0000 = .swm ∧
    ({ pubs := [(0, 1)] } : HkCore).stagingOpen 0x3000_0000 = true ∧ k.stagingOpen 0x3000_0000 = false ∧
    (∃ q o, k.stepPtr 0 0x1_0000 4 = some (q, o)) ∧ ({ mbBase := [(1, 2)], mbLen := [(1, 8)] } : HkCore).stepPtr 1 0x1_0000 4 = none := by
  refine ⟨canIssue_of _ _ _ (by decide), canIssue_of _ _ _ (by decide), canIssue_of _ _ _ (by decide),
    canIssue_of _ _ _ (by decide), canIssue_of _ _ _ (by decide), by decide, by decide, by decide, by decide, by decide, by decide,
    by decide, by decide, by decide, by decide, by decide, by decide, by decide, ⟨_, _, rfl⟩, by decide⟩

theorem witness_HackneyFlow :
    (hkDev (wordBR 0x28 1 2 5)).CanIssue x0 { word := wordBR 0x28 1 2 5, srcs := [1, 2], flow := true } ∧
    (hkDev (wordJL 0x2F 5)).CanIssue x0 { word := wordJL 0x2F 5, flow := true } ∧
    (hkDev (wordR3 0x30 1 0 3 0)).CanIssue x0 { word := wordR3 0x30 1 0 3 0, mask := 0xFFE0_F83F, srcs := [3], flow := true } ∧
    (hkDev (wordRP 0 1023 31)).CanIssue x0 { word := wordRP 0 1023 31, srcs := [0], flow := true } ∧
    (hkDev (wordR3 0x3C 0x010 0 3 0)).CanIssue x0 { word := wordR3 0x3C 0x010 0 3 0, mask := 0xFFE0_F83F, srcs := [3], flow := true } ∧
    (hkDev (wordR3 0x3C 0x011 0 0 0)).CanIssue x0 { word := wordR3 0x3C 0x011 0 0 0, mask := 0xFFE0_003F, flow := true } ∧
    (hkDev (wordR3 0x3C 0x013 0 0 0)).CanIssue x0 { word := wordR3 0x3C 0x013 0 0 0, mask := 0xFFE0_003F } ∧
    (hkDev 0xFFFF_FFFF).CanIssue x0 { word := 0xFFFF_FFFF } ∧
    (hkDev (wordCR 0x3D 1 0 0x016)).CanIssue x0 { word := wordCR 0x3D 1 0 0x016, mask := 0xFFFF_07FF } ∧
    (1 ≤ 1024 ∧ ({ regs := [(2, 2000)] } : HkCore).reg 2 = 2000 ∧ ({} : HkCore).reg 2 = 0) ∧
    ({ ien := 1, ipend := 1 } : HkCore).ien &&& 1 = 1 ∧ hkDefined 0xFFFF_FFFF = false ∧ hkDefined 0 = true := by
  refine ⟨canIssue_of _ _ _ (by decide), canIssue_of _ _ _ (by decide), canIssue_of _ _ _ (by decide),
    canIssue_of _ _ _ (by decide), canIssue_of _ _ _ (by decide), canIssue_of _ _ _ (by decide), canIssue_of _ _ _ (by decide),
    canIssue_of _ _ _ (by decide), canIssue_of _ _ _ (by decide), by decide⟩

theorem witness_HackneyAccumulators :
    let ptr (k : HkCore) : HkCore := { k with regs := [(2, 0x1_0000), (3, 0x1_0004)] }
    let d := hkDev (wordAC 5 1 (2 + 3 * 2 ^ 5)) ptr
    let k := d.core 0
    (hkDev (wordAC 0 1 (2 + 3 * 32))).CanIssue x0 { word := wordAC 0 1 (2 + 3 * 32), srcs := [2, 3] } ∧
    (hkDev (wordAC 3 1 0)).CanIssue x0 { word := wordAC 3 1 0 } ∧
    d.CanIssue x0 { word := wordAC 5 1 (2 + 3 * 2 ^ 5), srcs := [2, 3] } ∧
    (hkDev (wordAC 6 1 (2 + 55 * 2 ^ 5))).CanIssue x0 { word := wordAC 6 1 (2 + 55 * 2 ^ 5), accs := [1] } ∧
    (hkDev (wordAC 7 1 (2 + 2 * 2 ^ 5))).CanIssue x0 { word := wordAC 7 1 (2 + 2 * 2 ^ 5), srcs := [2] } ∧
    hkRegion (k.reg 2) = .dmem ∧ k.reg 2 % 4 = 0 ∧ hkRegion (k.reg 3) = .dmem ∧ k.reg 3 % 4 = 0 ∧ 0x1_0004 ≤ k.reg 3 ∧
    hkRegion 0 ≠ .dmem ∧ (∃ p o, k.stepPtr 0 (k.reg 2) 4 = some (p, o)) ∧ ∃ p o, k.stepPtr 0 (k.reg 3) 4 = some (p, o) := by
  refine ⟨canIssue_of _ _ _ (by decide), canIssue_of _ _ _ (by decide), canIssue_of _ _ _ (by decide),
    canIssue_of _ _ _ (by decide), canIssue_of _ _ _ (by decide), by decide, by decide, by decide, by decide, by decide,
    by decide, ⟨_, _, rfl⟩, ⟨_, _, rfl⟩⟩

theorem witness_HackneyInterruptsPortAndCommands :
    let port (k : HkCore) : HkCore := { k with regs := [(2, 0x4000_0000)] }
    let pending : HkCore := { gie := true, ien := 1, ipend := 1, ivec := 64 }
    let d := hkDev (wordRK 0x18 1 2 4) port
    let run : Dev := { d with ost := { running := [(0, ⟨3, true, 0, 500⟩)] },
                              host := { d.host with hkReplies := [(0, [5#32])] } }
    d.Sound ∧ pending.irq = true ∧ pending.atBoundary = true ∧ pending.waiting = .none ∧ ({} : HkCore).irq = false ∧
    d.r (Reg.HK_STAT_STATE 0) = 1 ∧ (({ pending with waiting := .wait } : HkCore).ien &&& 1) % 16 ≠ 0 ∧
    ({ timerAt := 5, cycle := 7 } : HkCore).timerAt ≤ 7 ∧ run.ost.running.find? (fun e => e.1 == 0) = some (0, ⟨3, true, 0, 500⟩) ∧
    ({ waiting := .exit 0 } : HkCore).waiting = .exit 0 ∧ Tab.look [] 0 run.host.hkReplies = [5#32] ∧
    Tab.look [] 0 d.host.hkReplies = [] ∧ (d.core 0).slot = 0 ∧ (d.core 0).ldPend = none ∧ (d.core 0).rep = none ∧
    (BitVec.ofNat 32 ((d.core 0).reg 2) + (4 : BitVec 16).signExtend 32).toNat = 0x4000_0004 ∧
    ((d.drainTo 0 ((d.core 0).issueAt { word := 0 })).core 0).buffer.length < 4 ∧
    (dv).Ready (pk [15]) 0xA40 1 false ∧ (dv).Ready (pk [16]) 0xA40 1 false ∧
    (dv).Ready (pk [15, 1, 0x1_FC00, 256]) 0xA41 4 true ∧ 3 + 256 ≤ replyLimit (.pf1 0) ∧ 0x1_FC00 + 4 * 256 ≤ 0x2_0000 ∧
    d.CanIssue x0 { word := wordRK 0x18 1 2 4, srcs := [2], load := true } ∧
    (hkDev (wordRK 0x1D 1 2 0) port).CanIssue x0 { word := wordRK 0x1D 1 2 0, srcs := [2, 1] } := by
  simp only [ready_iff, sound_iff]
  refine ⟨by decide, by decide, by decide, by decide, by decide, by decide, by decide, by decide, by decide, by decide, by decide,
    by decide, by decide, by decide, by decide, by decide, by decide, by decide, by decide, by decide, by decide, by decide,
    canIssue_of _ _ _ (by decide), canIssue_of _ _ _ (by decide)⟩

/-- A device with record words set. -/
def rv (d : Dev) (l : List (Nat × Nat)) : Dev := { d with mem := l.foldl (fun m e => Mem.putWord m e.1 e.2) d.mem }

theorem witness_OstlerCommands :
    let d : Dev := dv [(Reg.BRD_TICK, 0)]
    let on := rv d [(0xA2_0000, 0x8000_0000)]
    (dv).Ready (pk) 0xA00 0 false ∧ (dv).Ready (pk) 0xA20 0 false ∧ (dv).Ready (pk [4064, 32]) 0xA05 2 false ∧
    (dv).Ready (pk [4032, 64]) 0xA07 2 false ∧ 3 + 8 * 32 ≤ replyLimit (.pf1 0) ∧
    (dv).Ready (pk [4095, 1, 2, 3, 4, 5, 6, 7]) 0xA04 8 true ∧ bitOf (on.mw 0xA2_0000) 31 = true ∧
    bitOf ((dv).mw 0xA2_0000) 31 = false ∧ (dv).Ready (pk [38000]) 0xA21 1 true ∧ (dv).floorFor (dv).ost.enabled ≤ 38000 ∧
    (dv).Ready (pk [38001]) 0xA21 1 true ∧ ({ ep := { placed := true } } : Dev).ep.placed = true ∧ (dv).ep.placed = false ∧
    (dv).Ready (pk [5, 0]) 0xA01 2 false ∧ (dv).Ready (pk [5, 1, 9, 0]) 0xA01 4 false ∧ (dv).Ready (pk [5, 2, 0, 0]) 0xA01 4 false ∧
    (dv).Ready (pk [5]) 0xA02 1 true ∧ (dv).Ready (pk [5]) 0xA03 1 true ∧ false = ((dv).descState 5 == 3) ∧
    (dv).Ready (pk [0, 4096, 1]) 0xA06 3 true ∧ (dv).pathOpen .pf1 = true ∧ (dv).pathPriv .pf1 = true ∧
    (dv).pathOpen .pf0 = true ∧ (dv).pathPriv .pf0 = false ∧ (dv).Sound := by
  simp only [ready_iff, sound_iff]; decide

theorem witness_OstlerTicksAndItems :
    let d : Dev := { rv (dv [(Reg.OST_IDLE, 0xFFFF)]) [(0xA2_0000 + 32 * 5, 0xC000_0000), (0xA2_0004 + 32 * 5, 1)] with
      ep := { placed := true }, ost := { run := true, tick := 1, budget := 30000, ready := [5] } }
    let r : Dev := { d with ost := { running := [(0, ⟨5, false, 0, 0⟩)] } }
    (dv).ep.placed = false ∧ d.ep.placed = true ∧ d.ost.tick < d.ticksPerEpoch ∧ d.ost.tick ≠ 0 ∧ d.ost.cmds = [] ∧
    d.ost.nextTick = [] ∧ d.cal.workOut = [] ∧ d.ost.delays = [] ∧ d.ost.run = true ∧ d.isService 5 = true ∧ d.descOn 5 = true ∧
    d.descState 5 < 2 ∧ (rv d [(0xA2_001C + 32 * 5, 2)]).descState 5 = 2 ∧ (rv d [(0xA2_0000, 0x4000_0000)]).descOn 0 = false ∧
    (dv).isService 0 = false ∧ d.candidatesAt 1000 = [(0, 5)] ∧ d.sageWants 1000 = false ∧
    d.girthUsed + d.r (Reg.GIRTH_CLASS (d.eclassOf 5)) ≤ d.girthPool ∧
    ({ d with ost := { d.ost with budget := 0 } } : Dev).girthPool <
      ({ d with ost := { d.ost with budget := 0 } } : Dev).girthUsed + d.r (Reg.GIRTH_CLASS (d.eclassOf 5)) ∧ d.Sound ∧ r.Sound ∧
    (dv).ost.running.find? (fun e => e.1 == 0) = none ∧ r.ost.running.find? (fun e => e.1 == 0) = some (0, ⟨5, false, 0, 0⟩) ∧
    Tab.look [] 0 r.ost.cycq = [] ∧ r.b Reg.OST_TRC_CTRL_EN = false := by
  simp only [sound_iff]; decide

theorem witness_BridleTicksAndEvaluation :
    let run := dv [(Reg.BRD_STAT_STATE, 3), (Reg.BRD_ZONE_STAT_STO 31, 0)]
    let f := rv run [(0xB1_1000, 1), (0xB1_100C, 3)]
    (dv [(Reg.BRD_STAT_STATE, 4)]).brdStateCode = 4 ∧ (dv).brdStateCode < 2 ∧ (dv).brd.active = false ∧ (dv).ep.placed = false ∧
    (dv).Sound ∧ bits ((dv).inRec 63) 7 4 = 0 ∧ bitOf (dv).brd.short 63 = false ∧ bitOf ((dv).r Reg.BRD_IN_FAULT) 63 = false ∧
    run.r Reg.BRD_TICK % 4 = 0 ∧ run.brd.evalAt ≠ some run.brd.n ∧ run.brdStateCode = 3 ∧ run.brd.accepted = none ∧
    f.fnType 0 ∈ [1, 2, 4, 5] ∧ f.fnState 0 < 4 ∧ run.b (Reg.BRD_ZONE_STAT_STO 31) = false ∧
    run.b (Reg.BRD_ZONE_STAT_SS1 31) = false ∧ 0 < bits ((rv run [(0xB1_2004, 8)]).znRec 0 1) 0 16 ∧
    f.fnType 1 = 0 ∧ f.Sound ∧ f.fnType 0 ≠ 0 ∧ f.fnState 0 ≠ 3 ∧
    bits (f.fnRec 0 3) 0 16 ≤ (({ f with brd := { f.brd with funcs := [(0, { disc := 3 })] } } : Dev).fx 0).disc ∧
    (dv [(Reg.BRD_ZONE_STAT_SS1 31, 1)]).b (Reg.BRD_ZONE_STAT_SS1 31) = true ∧
    (dv [(Reg.BRD_ZONE_STAT_SS1 31, 1)]).r (Reg.BRD_ZONE_STAT_SS1_LEFT 31) = 0 ∧
    (({ dv with brd := { zones := [(0, { stoAt := some 0 })] } } : Dev).zx 0).stoAt = some 0 ∧ ((dv).zx 0).stoAt = none ∧
    run.b Reg.PAIR_STAT_HOLDER = false ∧ (dv [(Reg.BRD_STAT_STATE, 3), (Reg.BRD_TICK, 6)]).r Reg.BRD_TICK % 4 ≤ 2 ∧
    (dv).brd.tested = false ∧ bitOf (run.r Reg.BRD_OUT) 0 = false ∧
    bitOf ((dv [(Reg.BRD_OUT, 1)]).r Reg.BRD_OUT) 0 = true ∧ bitOf ((rv run [(0xB1_B000, 1)]).soRec 0 0) 0 = true ∧
    run.brd.darkC = [] ∧ bitOf ({ dark := 1 } : BrdState).dark 0 = true := by
  simp only [sound_iff]; decide

theorem witness_BridleTicksAndEvaluation_connections :
    let pdu : SafePdu := { connId := 9, seq := 1, ts := 0, len := 0, data := [], crc := 0 }
    let w (x : SafePdu) : SafePdu := { x with crc := pduCrc 0 x }
    let c : Dev := { rv (dv) [(0xB1_6000, 9), (0xB1_600C, 0xFFFF_0001), (0xB1_6010, 2)] with
      brd := { n := 5, conns := [(0, { st := 1, wait := [(2, 0, w pdu)] })] } }
    (∀ x ∈ ((dv).conn 0).wait, (dv).brd.n ≤ x.1) ∧ (c.conn 0).wait = [(2, 0, w pdu)] ∧ 2 < c.brd.n ∧ c.connKind 0 ≠ 1 ∧
    (c.conn 0).singleRun + 1 < bits (c.connWord 0 4) 0 8 ∧ (c.conn 0).tick + bits (c.connWord 0 3) 0 16 ≤ c.brd.n ∧
    c.connUsed 0 = true ∧ c.connWord 0 0 = (w pdu).connId ∧ bits (c.connWord 0 5) 0 12 = 0 ∧ bits (c.connWord 0 5) 0 12 ≠ 1 ∧
    c.pduBad 0 (w pdu) = none ∧ (∀ x ∈ (c.conn 0).wait, x.2.2.seq ≠ (w { pdu with seq := 2 }).seq) ∧
    w { pdu with data := [1#32] } ≠ w pdu ∧ c.pduBad 0 (w { pdu with data := [1#32] }) = none ∧
    pduCrc (c.connSeed 0) pdu ≠ pdu.crc := by
  decide +kernel

/-- The driven zone of the last clause but three: a drive that does not confirm. -/
theorem witness_BridleTicksAndEvaluation_drive :
    let d := rv (dv) [(0xB1_2020, 1), (0xB1_4000, 1), (0xB1_2004, 0)]
    0 ∈ d.znDrives 0 ∧ bits (d.znRec 0 1) 16 16 ≤ d.brd.n - 0 := by
  decide

theorem witness_BridleCommandsAndSets :
    let run := dv [(Reg.BRD_STAT_STATE, 3)]
    let f : Dev := { rv run [(0xB1_1000 + 0x20 * 31, 33)] with brd := { funcs := [(31, { okBefore := true })] } }
    let failed : Dev := { run with brd := { conns := [(511, { st := 3 })] } }
    let set : SpsSet := { id := 7, crc := 8, ver := 1, recs := [] }
    let staged : Dev := { dv [(Reg.BRD_ZONE_DEM, 0xFFFF_FFFF)] with brd := { staged := some set } }
    (dv).Ready (pk) 0xB00 0 true ∧ (dv).Ready (pk [0, 128]) 0xB01 2 true ∧ (dv).Ready (pk [31]) 0xB02 1 true ∧
    (dv).Ready (pk) 0xB03 0 true ∧ (dv).Ready (pk [1, 511]) 0xB04 2 true ∧ (dv).Ready (pk [0, 127]) 0xB04 2 true ∧
    (dv).Ready (pk [2, 0]) 0xB04 2 true ∧ (dv).Ready (pk [0, 0, 0, 0]) 0xB08 4 true ∧ (dv).brdStateCode ≠ 3 ∧
    run.brdStateCode = 3 ∧ run.Ready (pk [2 ^ 31, 0, 0, 0]) 0xB08 4 true ∧ f.Ready (pk [2 ^ 31, 0, 0, 0]) 0xB08 4 true ∧
    run.fnType 31 = 0 ∧ f.fnType 31 ≠ 0 ∧ bitOf (f.fnRec 31 0) 5 = true ∧ (f.fx 31).okBefore = true ∧
    run.Ready (pk [1, 511]) 0xB09 2 true ∧ (run.conn 511).st ≠ 3 ∧ (failed.conn 511).st = 3 ∧
    (dv).Ready (pk [7, 8]) 0xB11 2 true ∧ (dv).brd.staged = none ∧ staged.Ready (pk [7, 8]) 0xB11 2 true ∧
    staged.brd.staged = some set ∧ staged.r Reg.BRD_ZONE_DEM = 0xFFFF_FFFF ∧
    (∀ z : Fin 32, staged.b (Reg.BRD_ZONE_STAT_SS1 z) = false) ∧ (dv).Ready (pk [0, 73]) 0xB10 2 true ∧
    staged.brd.staged ≠ none ∧ set.id < 2 ^ 32 ∧ set.crc < 2 ^ 32 ∧ (dv).Sound := by
  simp only [ready_iff, sound_iff]; decide

/-- A safety parameter set without records that verifies, at offset 0 of the shared work memory. -/
def spsMem : Mem :=
  let m := [(0, 0x5350_5331), (4, 7), (8, 1)].foldl (fun m (e : Nat × Nat) => Mem.putWord m e.1 e.2) []
  Mem.putWord m 16 (crc32c ((List.range 16).map (fun i => (Mem.get m i).toNat)))

theorem witness_BridleCommandsAndSets_load :
    let d : Dev := { dv with hk := { swm := spsMem } }
    let w (o : Nat) : Nat := Mem.word d.hk.swm (0 + o)
    d.verifyCode .fx8_128 2 (4 * 73) w { sigOk := true } = 0 ∧
    crc32c ((List.range (16 + w 12)).map (fun i => (Mem.get d.hk.swm (0 + i)).toNat)) = w (16 + w 12) ∧
    (dv).verifyCode .fx8_128 2 (4 * 73) (fun o => Mem.word (dv).hk.swm (0 + o)) {} ≠ 0 := by
  decide +kernel

theorem witness_BridleCommandsAndSets_records :
    spsBad ([].foldl (fun m (e : Nat × Nat) => Mem.putWord m e.1 e.2) []) = false := by
  decide +kernel

theorem witness_FieldInputsOutputsAndGroups :
    let d : Dev := { dv [(Reg.FIO_OUT, 1), (Reg.FIO_IN, 1)] with pair := { driving := true } }
    let lost : Dev := { dv [(Reg.FIO_GRP_STAT_SUPPLY_LOST 3, 1), (Reg.FIO_GRP_CFG_AUTO_REARM 3, 1), (Reg.FIO_VFIELD_LAST 3, 19200)] with
      fio := { goodRun := [(3, 10000)] } }
    let low := dv [(Reg.FIO_GRP_STAT_SUPPLY_LOST 3, 1), (Reg.FIO_VFIELD_LAST 3, 19199)]
    let bad : Dev := { dv with fio := { badRun := [(3, 100)] } }
    let host := dv [(Reg.FIO_OUT_CFG_OWNER 31, 3)]
    bitOf (d.r Reg.FIO_IN) 0 = true ∧ d.Sound ∧ d.r (Reg.FIO_OUT_CFG_OWNER 0) ≠ 2 ∧ d.pair.driving = true ∧
    (dv).pair.driving = false ∧ bitOf (d.r Reg.FIO_OUT) 0 = true ∧ bitOf (d.r Reg.FIO_OUT) 31 = false ∧
    Tab.look 0 3 (dv).fio.badRun < 100 ∧ bad.Sound ∧ 100 ≤ Tab.look 0 3 bad.fio.badRun ∧
    bad.b (Reg.FIO_GRP_STAT_SUPPLY_LOST 3) = false ∧ lost.Sound ∧ lost.b (Reg.FIO_GRP_CFG_AUTO_REARM 3) = true ∧
    lost.b (Reg.FIO_GRP_STAT_SUPPLY_LOST 3) = true ∧ 10000 ≤ Tab.look 0 3 lost.fio.goodRun ∧
    (dv).b (Reg.FIO_GRP_CFG_AUTO_REARM 3) = false ∧ (dv).b (Reg.FIO_GRP_STAT_SILENT1 3) = false ∧
    (dv [(Reg.FIO_GRP_STAT_SILENT1 3, 1)]).b (Reg.FIO_GRP_STAT_SILENT1 3) = true ∧
    (dv [(Reg.FIO_GRP_CFG_T_SILENT2 3, 0)]).r (Reg.FIO_GRP_CFG_T_SILENT2 3) = 0 ∧
    (dv [(Reg.FIO_GRP_CFG_T_SILENT2 3, 1)]).r (Reg.FIO_GRP_CFG_T_SILENT2 3) ≠ 0 ∧ (dv).pathOpen .pf1 = true ∧
    (dv).pathPriv .pf1 = true ∧ (dv).pathPriv .pf0 = false ∧
    ¬(bitOf ((dv).r Reg.FIO_OUT) 31 = true ∨ (dv).r (Reg.FIO_OUT_CFG_OWNER 31) = 2) ∧ (0x1FF : Nat) % 4 ≠ 2 ∧
    ({ dv with ep := { front := { (dv).ep.front with valid := true } } } : Dev).Ready (pk) 0xC00 0 false ∧
    (dv).Ready (pk [3]) 0xC01 1 false ∧ (dv).Ready (pk [4]) 0xC01 1 false ∧ host.Ready (pk [2 ^ 31, 2 ^ 31]) 0xC02 2 true ∧
    (∀ o : Fin 32, bitOf (2 ^ 31) o = true → host.r (Reg.FIO_OUT_CFG_OWNER o) = 3) ∧
    (∃ o : Fin 32, bitOf (2 ^ 31) o = true ∧ (dv).r (Reg.FIO_OUT_CFG_OWNER o) ≠ 3) ∧ (dv).Ready (pk [2 ^ 31]) 0xC03 1 true ∧
    (dv).Ready (pk [0]) 0xC03 1 true ∧ bitOf (dv).fio.hot 31 = false ∧ bitOf ({ hot := 2 ^ 31 } : FioState).hot 31 = true ∧
    lost.Ready (pk [8]) 0xC04 1 true ∧ low.Ready (pk [8]) 0xC04 1 true ∧ low.r (Reg.FIO_VFIELD_LAST 3) < 19200 ∧
    19200 ≤ lost.r (Reg.FIO_VFIELD_LAST 3) ∧ lost.b (Reg.FIO_GRP_STAT_SILENT_OFF 3) = false ∧
    lost.b (Reg.FIO_GRP_STAT_CUT_OPEN 3) = false := by
  simp only [ready_iff, sound_iff]; decide

theorem witness_PairedModules :
    let h : Health := ⟨3, true, 40, 39, 0, 0, 0, 0, 0⟩
    let x : Snapshot := { seq := 1, epoch := 39, compat := 0, size := 64 }
    let by0 (st : Nat) : Dev := dv [(Reg.PAIR_CFG_PAIRED, 1), (Reg.PAIR_STAT_STATE, st)]
    let ready : Dev := { dv [(Reg.PAIR_CFG_PAIRED, 1), (Reg.PAIR_STAT_STATE, 3), (Reg.PAIR_SELFTEST_PASS, 1),
        (Reg.PAIR_STAT_TACK_UP, 1), (Reg.TB_STATE_LOCKED, 1), (Reg.PAIR_STAT_PEER_HOLD, 1)] with
      pair := { peer := some h, verified := some x, shadow := some { epoch := 40 } } }
    let holds : Dev := { dv [(Reg.PAIR_STAT_HOLDER, 1), (Reg.PAIR_STAT_STATE, 2), (Reg.PAIR_CFG_PAIRED, 1)] with
      ep := { committedOnce := true } }
    ready.Sound ∧ ready.paired = true ∧ ready.r Reg.PAIR_STAT_STATE = 3 ∧ (ready.w Reg.PAIR_STAT_PEER_HOLD 0).readyNow = true ∧
    ready.pair.peer = some h ∧ ready.pair.verified = some x ∧ (by0 3).paired = true ∧
    ((by0 3).w Reg.PAIR_STAT_PEER_HOLD 0).readyNow = false ∧ (dv).paired = false ∧ (dv).pair.gapHold = false ∧
    (by0 5).b Reg.PAIR_STAT_HOLDER = false ∧ (by0 5).r Reg.PAIR_STAT_STATE = 5 ∧ holds.Sound ∧
    holds.b Reg.PAIR_STAT_HOLDER = true ∧ holds.ep.committedOnce = true ∧ holds.pair.driving = false ∧
    (dv [(Reg.GLB_BOOT_STAGE, 9), (Reg.PAIR_CFG_PAIRED, 1), (Reg.PAIR_CFG_PREF, 1)]).preferred = false ∧
    (dv [(Reg.GLB_BOOT_STAGE, 9), (Reg.PAIR_CFG_PAIRED, 1)]).b Reg.PAIR_STAT_PEER_HOLD = false ∧
    h.ready = true ∧ 0 + 1 ≠ x.chunks + 1 ∧ 
    (∀ j : Nat, j < ({ x with size := 100000 } : Snapshot).chunks → j = ({ x with size := 100000 } : Snapshot).chunks - 1 ∨
      j ∈ List.range (({ x with size := 100000 } : Snapshot).chunks - 1)) ∧
    x.compat = (dv).regWord 0xE0_0028 ∧ ready.r Reg.PAIR_STAT_STATE ≠ 2 ∧ (dv).pair.sending = none ∧ (dv).pair.takeover = none ∧
    (by0 5).pair.confirmed = false ∧ 0 + 2 * (by0 5).r Reg.PAIR_CFG_SNAP_PERIOD ≤ 200 ∧ (by0 3).preferred = true ∧
    (dv).b Reg.PAIR_CFG_AUTO_REVERT = false ∧ (by0 3).r Reg.PAIR_STAT_STATE = 3 ∧ (by0 3).brdStateCode ≠ 4 ∧
    (dv).Ready (pk) 0xD00 0 false ∧ (dv).Ready (pk [2]) 0xD01 1 true ∧ holds.Ready (pk [1]) 0xD01 1 true ∧
    holds.r Reg.PAIR_STAT_STATE = 2 ∧ (dv).Ready (pk [0]) 0xD02 1 true ∧ (dv).Ready (pk [1]) 0xD02 1 true ∧
    (dv).Ready (pk [2]) 0xD02 1 true ∧ (dv [(Reg.PAIR_STAT_NOT_READY_DROP, 1)]).Ready (pk) 0xD03 0 true ∧
    (dv [(Reg.PAIR_STAT_NOT_READY_DROP, 1)]).b Reg.PAIR_STAT_HOLDER = false := by
  simp only [ready_iff, sound_iff]; decide

/-- A configuration image without a body, and a safety set, in bank 0 of the boot flash (bytes inverted), with firmware. -/
def flash0 : Mem :=
  [(0x1_0000, 0x4657_4931), (0x1_0004, 1), (0x1_0008, 1), (0x1_000C, 0), (0x1_0014, 7), (0x1_0040, 0),
   (0x21_0000, 0x4346_4731), (0x21_0004, 2), (0x21_0008, 1), (0x21_000C, 0), (0x21_0014, 7), (0x21_0018, 0), (0x21_0040, 0),
   (0x121_0000, 0x5350_5331), (0x121_0004, 7), (0x121_0008, 1), (0x121_000C, 0), (0x121_0014, 0)].foldl
    (fun m (e : Nat × Nat) => Mem.putWord m e.1 (0xFFFF_FFFF - e.2)) []

theorem witness_SecurityResetAndBoot_objects :
    let d : Dev := { dv with sec := { flash := flash0 } }
    let s : Dev := { dv with hk := { swm := spsMem } }
    d.bankCode .fx8_128 0 0 { sigOk := true } = 0 ∧ d.firstBank 0 = 0 ∧ d.bankCode .fx8_128 1 0 { sigOk := true } = 0 ∧
    d.firstBank 1 = 0 ∧ d.bankCode .fx8_128 2 0 { sigOk := true } = 0 ∧ d.firstBank 2 = 0 ∧ (dv).bankCode .fx8_128 0 0 {} ≠ 0 ∧
    (dv).bankCode .fx8_128 1 1 {} ≠ 0 ∧ (dv).bankCode .fx8_128 2 1 {} ≠ 0 ∧
    s.verifyCode .fx8_128 (kindOf (Mem.word s.hk.swm 0)) (Nat.min 292 (bankAt 2 0).2) (fun o => Mem.word s.hk.swm (0 + o))
      { sigOk := true } = 0 ∧ kindOf (Mem.word s.hk.swm 0) = 2 := by
  decide +kernel

theorem witness_SecurityResetAndBoot :
    let dem : Dev := { dv [(Reg.BRD_ZONE_DEM, 0xFFFF_FFFF)] with sec := { nonce := some 1 } }
    let fw : Dev := { dv with sec := { running := [0] } }
    let st (n : Nat) : Dev := { dv [(Reg.GLB_BOOT_STAGE, n)] with boot := { nrstLow := false } }
    let w (o : Nat) : Dev := dv [(Reg.GLB_BOOT_STAGE, 8), (Reg.TB_STATE_LOCKED, 1), (Reg.PAIR_CFG_PAIRED, o)]
    (dv).Ready (pk) 0xE00 0 false ∧ (dv).Ready (pk [1, 2]) 0xE01 2 false ∧ (dv).Ready (pk) 0xE02 0 false ∧
    ((dv).sec.signEnds.filter (fun e => decide ((dv).time.c < e))).length < 2 ∧
    2 ≤ ([1, 1].filter (fun e => decide ((dv).time.c < e))).length ∧ (dv).Ready (pk [0, 292]) 0xE10 2 true ∧
    (dv).flashBusy = false ∧ (dv).rollBusy = false ∧ (dv).Ready (pk [0xC0_0000, 4]) 0xE10 2 true ∧
    (dv).Ready (pk [0, 3]) 0xE10 2 true ∧ (dv).Ready (pk [2]) 0xE20 1 true ∧ (dv).Ready (pk [3]) 0xE20 1 true ∧
    (dv).sec.running.contains 2 = false ∧ fw.sec.running.contains 0 = true ∧ fw.r (rollbackOf 0) ≠ 63 ∧
    (dv).Ready (pk [3]) 0xE21 1 true ∧ (dv).Ready (pk [4]) 0xE21 1 true ∧
    (onesOf 4 ((dv).r Reg.SEC_OWNER_PROGRAMMED)).filter (fun i => !bitOf ((dv).r Reg.SEC_OWNER_REVOKED) i) ≠ [3] ∧
    (dv).Ready (pk (8 :: List.replicate 33 0)) 0xE30 (1 + 33 * popcount 4 8) true ∧ (dv).r Reg.SEC_STAT_LIFECYCLE = 0 ∧
    (dv).Ready (pk [16]) 0xE30 1 true ∧ ([(9, true)] : List (Nat × Bool)).getD 0 (0, false) = (9, true) ∧
    (dv).Ready (pk) 0xE31 0 true ∧ dem.Ready (pk (List.replicate 33 0)) 0xE32 33 true ∧ dem.sec.nonce ≠ none ∧
    dem.r Reg.BRD_ZONE_DEM = 0xFFFF_FFFF ∧ 0xE00 + 0 ∈ secOpcodes ∧ 0xE00 + 63 ∉ secOpcodes ∧
    (dv).Ready (pk) (0xE00 + 63) 0 false ∧ (dv).Ready (pk) 0x040 0 false ∧ (dv).Ready (pk [0x5245_5354]) 0x041 1 true ∧
    (dv).Ready (pk [0]) 0x041 1 true ∧ (dv).Ready (pk) 0x04F 0 false ∧ (dv).Sound ∧ (dv).boot.nrstLow = true ∧
    (st 1).boot.nrstLow = false ∧ (dv).boot.resetAt = none ∧ ({ resetAt := some 5 } : BootState).resetAt = some 5 ∧
    (dv [(Reg.BRD_STAT_STATE, 4)]).r Reg.BRD_STAT_STATE = 4 ∧ (st 1).Sound ∧ (st 1).r Reg.GLB_BOOT_STAGE = 1 ∧
    (st 8).r Reg.GLB_BOOT_STAGE = 8 ∧ (st 1).r Reg.GLB_BOOT_FAIL_STAGE = 0 ∧ (dv).brd.tested = false ∧
    ({ dv [(Reg.GLB_BOOT_BG_VERIFY, 1)] with sec := { background := [2] } } : Dev).sec.background.contains 2 = true ∧
    (w 0).locked = true ∧ (w 0).time.pendStep = none ∧ (w 0).r Reg.EPK_ORIGIN ≤ (w 0).nowNs ∧ (w 0).paired = false ∧
    (w 1).paired = true ∧ (w 1).preferred = true ∧ (w 1).b Reg.PAIR_STAT_PEER_HOLD = false := by
  simp only [ready_iff, sound_iff]; decide

/-! ### Ill-formed operands that WellFormed refuses -/

theorem test_wf_packet_rsv : (pk).wf = true ∧ ({ pk with rsv := 4 } : Packet).wf = false := by decide
theorem test_wf_packet_length : (pk (List.replicate 1023 0)).wf = false := by decide +kernel
theorem test_wf_packet_backbone : ({ pk (List.replicate 366 0) with origin := .backbone 4095 0 false } : Packet).wf = false := by
  decide +kernel
theorem test_wf_origin : (Origin.backbone 4095 0 false).wf = true ∧ (Origin.backbone 4096 0 false).wf = false := by decide
theorem test_wf_count : countWf (2 ^ 64 - 1) = true ∧ countWf (2 ^ 64) = false := by decide
theorem test_wf_ptp : ({} : PtpMsg).wf = true ∧ ({ clockClass := 256 } : PtpMsg).wf = false := by decide
theorem test_wf_request : (frame.req).wf = true ∧ ({ frame.req with target := 128 } : AcycReq).wf = false := by decide
theorem test_wf_response : (frame.rsp).wf = true ∧ ({ frame.rsp with status := 2 ^ 16 } : AcycRsp).wf = false := by decide
theorem test_wf_slot : ({ node := 5, outFilled := true, slot := 15, words := [0xFFFF] } : FrameSlot).wf = true ∧
    ({ node := 5, outFilled := true, slot := 15, words := [0x1_0000] } : FrameSlot).wf = false ∧ ({ node := 5, outFilled := true, slot := 16, words := [] } : FrameSlot).wf = false := by decide
theorem test_wf_trace_frame : frame.wf = true ∧ ({ frame with tSend := 2 ^ 80 } : TraceFrame).wf = false ∧
    ({ frame with slots := List.replicate 6 { node := 5, outFilled := true, slot := 0, words := List.replicate 120 0 } } : TraceFrame).wf = false := by
  decide +kernel
theorem test_wf_tack : (TackRec.turn 5).wf = true ∧ (TackRec.turn (2 ^ 32)).wf = false := by decide
theorem test_wf_health : (⟨3, true, 40, 39, 0, 0, 0, 0, 0⟩ : Health).wf = true ∧
    (⟨256, true, 40, 39, 0, 0, 0, 0, 0⟩ : Health).wf = false := by decide
theorem test_wf_pdu : ({ connId := 9, seq := 1, len := 4, ts := 0, data := [1#32], crc := 0 } : SafePdu).wf = true ∧
    ({ connId := 9, seq := 1, len := 8, ts := 0, data := [1#32], crc := 0 } : SafePdu).wf = false := by decide
theorem test_wf_envelope : (⟨5, 6, false, false, 0, [0#32, 0#32]⟩ : Envelope).wf = true ∧
    (⟨5, 6, false, false, 0, [0#32]⟩ : Envelope).wf = false := by decide
theorem test_wf_join : (⟨7, 0, 0, 4095, 0⟩ : JoinRec).wf = true ∧ (⟨7, 0, 0, 4096, 0⟩ : JoinRec).wf = false := by decide
theorem test_wf_tilbor : ({ type := 0, src := 5, epoch := 3 } : TlbFrame).wf = true ∧
    ({ type := 0, src := 4096, epoch := 3 } : TlbFrame).wf = false := by decide
theorem test_wf_shadow : ({ epoch := 40 } : Shadow).wf = true ∧ ({ epoch := 40, sto := 2 ^ 24 } : Shadow).wf = false := by decide
theorem test_wf_snapshot : ({ seq := 1, epoch := 39, compat := 0, size := 64 } : Snapshot).wf = true ∧
    ({ seq := 1, epoch := 39, compat := 0, size := 64, mem := [(0, 0)] } : Snapshot).wf = false := by decide
theorem test_wf_verdict : ({} : Verdict).wf = true ∧ ({ sha := 2 ^ 256 } : Verdict).wf = false := by decide
theorem test_wf_words : wordsWf [(4, 5)] = true ∧ wordsWf [(6, 5)] = false := by decide
theorem test_wf_samples : sampleWf [(63, 5)] = true ∧ sampleWf [(64, 5)] = false := by decide
theorem test_wf_stage_end : ({ c := 5 } : StageEnd).wf = true ∧ ({ c := 5, rails := 256 } : StageEnd).wf = false := by decide
theorem test_wf_record_write : (Instr.prfParamRecordWrite .pf1 0 0 (List.replicate 16 0)).wf = true ∧
    (Instr.prfParamRecordWrite .pf1 0 0 (List.replicate 17 0)).wf = false := by decide
theorem test_wf_girth : (Instr.girthDerate (-40 * 16)).wf = true ∧ (Instr.girthDerate (2 ^ 15)).wf = false := by decide
theorem test_wf_vfield : (Instr.vfieldSample 0 24000).wf = true ∧ (Instr.vfieldSample 0 65536).wf = false := by decide
theorem test_wf_loop : (Instr.loopPass 0 [4095]).wf = true ∧ (Instr.loopPass 0 [4096]).wf = false := by decide

/-! ### The spec's own worked examples -/

/-- The words of the force filter (13_hackney_cores.md, its table of encodings). -/
theorem test_hackney_words :
    wordRK 0x0D 6 0 0x2011 = 0x2011_018D ∧ wordRK 0x18 4 6 0x0408 = 0x0408_3118 ∧ wordRK 0x0A 8 7 0x0300 = 0x0300_3A0A ∧
    wordRK 0x0E 4 4 16 = 0x0010_210E ∧ wordRK 0x1D 4 7 0x0480 = 0x0480_391D ∧ wordAC 3 0 0 = 0x0000_0338 ∧
    wordRP 0 31 0 = 0x0000_F831 ∧ wordAC 5 0 (8 + 9 * 2 ^ 5) = 0x0009_4538 ∧ wordAC 6 0 (10 + 15 * 2 ^ 5) = 0x000F_5638 ∧
    wordR3 0x3C 0x010 0 0 0 = 0x0200_003C := by decide

/-- MOVH of that item: the upper half is written, the lower cleared. -/
theorem test_movh :
    (nextDev (Machine.exec (.movh x0 6 0x2011) (st (hkDev 0x2011_018D)))).map (fun d => ((d.core 0).reg 6, (d.core 0).pc)) =
      some (0x2011_0000, 4) := by decide

/-- ARD by 15 saturates (R391): the accumulator holds 2^55 − 1. -/
theorem test_ard_saturates :
    (nextDev (Machine.exec (.ard x0 0 10 15) (st (hkDev 0x000F_5638 (fun k => { k with acc := [(0, 2 ^ 55 - 1)] }))))).map
      (fun d => ((d.core 0).reg 10, (d.core 0).fstat)) = some (0x7FFF_FFFF, 0x20) := by decide

/-- A subscription of the platform cell: k = 2, L = 10, published at N mod 8 = 7 (01_epochs_and_image.md). -/
theorem test_expected_epoch :
    let u : Sub := { producer := 1, base := 0, count := 1, lag := 10, kProd := 2, period := 8, phase := 7, held := { base := 0, count := 1 } }
    u.required 2 5000003 = 4999993 ∧ u.expected 2 5000003 = 4999991 ∧ u.required 2 5000009 = 4999999 ∧
    u.expected 2 5000009 = 4999999 := by decide

/-- The depot cell subscribes with L = 12, k = 2, to a producer with k = 8 (01_epochs_and_image.md). -/
theorem test_required_epoch :
    ({ producer := 1, base := 0, count := 1, lag := 12, kProd := 8, period := 1, phase := 0, held := { base := 0, count := 1 } } : Sub).required 2 4000010 =
      999998 := by decide

/-- The on-times of the depot gripper at d = −31 500 (07_power_teams.md): n = 1 268 and 64 267 of 625 000 units. -/
theorem test_on_time : tOn 1268 625000 = 12092 ∧ tOn 64267 625000 = 612897 := by decide

/-- Entries of the sine table used by the gap filler (08_stepper_teams.md). -/
theorem test_sine_table : sinTab 16 = 3212 ∧ sinTab 272 = 32609 ∧ sinTab 32 = 6393 ∧ sinTab 288 = 32137 := by decide

/-- T_J = 101.25 °C gives the factor 6/16 (14_ostler_and_girth.md). -/
theorem test_derate :
    (nextDev (Machine.exec (.girthDerate 1620) (st (dv)))).map (fun d => (d.r Reg.GIRTH_STAT_F16, d.b Reg.GIRTH_STAT_DERATING)) =
      some (6, true) := by decide

/-- The platform cell snapshot (17_paired_operation.md): 81 chunks, 173 924 ns on two lanes, 339 748 ns on one. -/
theorem test_snapshot_time :
    let x : Snapshot := { seq := 1, epoch := 0, compat := 0, size := 331648 }
    x.chunks = 81 ∧ x.sendNs 2 = 173924 ∧ x.sendNs 1 = 339748 := by decide

/-- IMG_READ with count 0 through PF0 queue 0 (18_host_and_views.md): BAD_PARAM with DETAIL 3. -/
theorem test_img_read_count :
    (nextDev (Machine.exec (.imgRead { origin := .pf0 0, tag := 0x51#32, params := [0x4102#32, 0#32] }) (st (dv)))).map
      (fun d => (Tab.look [] 4 (d.hostSet (.pf0 0)).waiting).map Reply.words) = some [[0x1030_0003#32, 0x51#32, 0x0003_0004#32]] := by decide

/-- CUT_RELEASE with no cut, tag 0x52, answers OK (18_host_and_views.md); EPOCH_SET_MARGIN through PF0 is DENIED and counted. -/
theorem test_cut_release :
    (nextDev (Machine.exec (.cutRelease { origin := .pf0 0, tag := 0x52#32, params := [5#32] }) (st (dv)))).map
      (fun d => (Tab.look [] 4 (d.hostSet (.pf0 0)).waiting).map Reply.words) = some [[0x1110_0003#32, 0x52#32, 0#32]] ∧
    (nextDev (Machine.exec (.epochSetMargin { origin := .pf0 0, tag := 0x53#32, params := [2000#32] }) (st (dv)))).map
      (fun d => d.r Reg.PRIV_VIOL_CNT_PF0) = some 1 := by decide

/-- The three outcomes are a next state here: an idle step advances the count. -/
theorem test_idle_counts : (nextDev (Machine.step (st { dv with boot := { nrstLow := false } }))).map (fun d => d.time.c) = some 1 := by
  decide

end Sys2Proof.Tests
end

/-! ## Proofs: every step keeps a device sound -/
namespace Sys2Proof.Machine

/-- Every command keeps a device sound: one arm for each command of the dispatch, by the law of its meaning. -/
theorem exec_sound (i : Instr) (s : State) (hs : s.dev.Sound) : Outcome.Sound (exec i s) :=
  match i with
  | .regWrite path a v full => execRegWrite_sound path a v full s hs
  | .latchedPairRead path a => execLatchedPairRead_sound path a s hs
  | .commitPoint => execCommitPoint_sound s hs
  | .holdExpire pf1 => execHoldExpire_sound pf1 s hs
  | .cmdHoldExpire => execCmdHoldExpire_sound s hs
  | .cutExpire => execCutExpire_sound s hs
  | .hostHoldSet path => execHostHoldSet_sound path s hs
  | .hostHoldClear path => execHostHoldClear_sound path s hs
  | .epochDeadline => execEpochDeadline_sound s hs
  | .intakeClose => execIntakeClose_sound s hs
  | .epochInfo p => execEpochInfo_sound p s hs
  | .imgHold p => execImgHold_sound p s hs
  | .imgRelease p => execImgRelease_sound p s hs
  | .imgRead p => execImgRead_sound p s hs
  | .imgReadRec p => execImgReadRec_sound p s hs
  | .cutArm p => execCutArm_sound p s hs
  | .cutRelease p => execCutRelease_sound p s hs
  | .cutStatus p => execCutStatus_sound p s hs
  | .epochSetMargin p => execEpochSetMargin_sound p s hs
  | .calendarLatch => execCalendarLatch_sound s hs
  | .calendarEvaluation => execCalendarEvaluation_sound s hs
  | .switchInstant => execSwitchInstant_sound s hs
  | .coordCfgWrite path n v => execCoordCfgWrite_sound path n v s hs
  | .calEntryEnableWrite path i0 v => execCalEntryEnableWrite_sound path i0 v s hs
  | .coordRead p => execCoordRead_sound p s hs
  | .coordPreset p => execCoordPreset_sound p s hs
  | .calWrite p => execCalWrite_sound p s hs
  | .calRead p => execCalRead_sound p s hs
  | .calEnable p => execCalEnable_sound p s hs
  | .calCounters p => execCalCounters_sound p s hs
  | .ratePoint => execRatePoint_sound s hs
  | .domainTimeRead path => execDomainTimeRead_sound path s hs
  | .syncReceive port m cMac cOut => execSyncReceive_sound port m cMac cOut s hs
  | .syncTimeout => execSyncTimeout_sound s hs
  | .announceReceive port m => execAnnounceReceive_sound port m s hs
  | .announceTimeout port => execAnnounceTimeout_sound port s hs
  | .gmSettleEnd => execGmSettleEnd_sound s hs
  | .syncSend => execSyncSend_sound s hs
  | .announceSend => execAnnounceSend_sound s hs
  | .pdelayReqSend port => execPdelayReqSend_sound port s hs
  | .pdelayReqReceive port m cMac cOut => execPdelayReqReceive_sound port m cMac cOut s hs
  | .pdelayRespReceive port m cMac => execPdelayRespReceive_sound port m cMac s hs
  | .pdelayRespFollowUpReceive port m => execPdelayRespFollowUpReceive_sound port m s hs
  | .ptpOtherReceive port m => execPtpOtherReceive_sound port m s hs
  | .timeInfo p => execTimeInfo_sound p s hs
  | .timeSeed p => execTimeSeed_sound p s hs
  | .timeRestep p => execTimeRestep_sound p s hs
  | .ptpStatus p => execPtpStatus_sound p s hs
  | .timeConvert p => execTimeConvert_sound p s hs
  | .localReady => execLocalReady_sound s hs
  | .loopPass corr memErr => execLoopPass_sound corr memErr s hs
  | .coeffWindowWrite path w v => execCoeffWindowWrite_sound path w v s hs
  | .loopInfo p => execLoopInfo_sound p s hs
  | .loopEnable p => execLoopEnable_sound p s hs
  | .loopSwap p => execLoopSwap_sound p s hs
  | .loopFaultClear p => execLoopFaultClear_sound p s hs
  | .loopAxisRead p => execLoopAxisRead_sound p s hs
  | .trcCtrlArm => execTrcCtrlArm_sound s hs
  | .trcCtrlStop => execTrcCtrlStop_sound s hs
  | .trcCtrlTrig => execTrcCtrlTrig_sound s hs
  | .trcGeometryWrite sel v => execTrcGeometryWrite_sound sel v s hs
  | .trcInfo p => execTrcInfo_sound p s hs
  | .trcSetup p => execTrcSetup_sound p s hs
  | .trcArm p => execTrcArm_sound p s hs
  | .trcTrigger p => execTrcTrigger_sound p s hs
  | .trcStop p => execTrcStop_sound p s hs
  | .trcRead p unc => execTrcRead_sound p unc s hs
  | .injStart p => execInjStart_sound p s hs
  | .injStop p => execInjStop_sound p s hs
  | .generatorInstant => execGeneratorInstant_sound s hs
  | .prfParamRecordWrite path a w vs => execPrfParamRecordWrite_sound path a w vs s hs
  | .prfInfo p => execPrfInfo_sound p s hs
  | .prfStart p => execPrfStart_sound p s hs
  | .prfTarget p => execPrfTarget_sound p s hs
  | .prfLimits p => execPrfLimits_sound p s hs
  | .prfStop p => execPrfStop_sound p s hs
  | .gearStart p => execGearStart_sound p s hs
  | .gearArm p => execGearArm_sound p s hs
  | .planStart p => execPlanStart_sound p s hs
  | .prfRelease p => execPrfRelease_sound p s hs
  | .prfAxisRead p => execPrfAxisRead_sound p s hs
  | .prfParamWrite p => execPrfParamWrite_sound p s hs
  | .periodBoundary t => execPeriodBoundary_sound t s hs
  | .demandHoldExpire t => execDemandHoldExpire_sound t s hs
  | .tripPin t => execTripPin_sound t s hs
  | .gtripInput g => execGtripInput_sound g s hs
  | .hallCodeChange e code => execHallCodeChange_sound e code s hs
  | .adcTrigger t j => execAdcTrigger_sound t j s hs
  | .adcConversionDone c raw => execAdcConversionDone_sound c raw s hs
  | .encIndexLatch e => execEncIndexLatch_sound e s hs
  | .ssiFrameDone e data good => execSsiFrameDone_sound e data good s hs
  | .teamCtrlForceTrip path t => execTeamCtrlForceTrip_sound path t s hs
  | .teamCtrlTripClear path t => execTeamCtrlTripClear_sound path t s hs
  | .teamInfo p => execTeamInfo_sound p s hs
  | .teamConfig p => execTeamConfig_sound p s hs
  | .teamEnable p => execTeamEnable_sound p s hs
  | .teamTripClear p => execTeamTripClear_sound p s hs
  | .teamForceTrip p => execTeamForceTrip_sound p s hs
  | .teamRead p => execTeamRead_sound p s hs
  | .adcRead p => execAdcRead_sound p s hs
  | .encRead p => execEncRead_sound p s hs
  | .tstillExpire t => execTstillExpire_sound t s hs
  | .chopBlankEnd t phaseB => execChopBlankEnd_sound t phaseB s hs
  | .chopComparatorSwitch t phaseB tick => execChopComparatorSwitch_sound t phaseB tick s hs
  | .chopFastEnd t phaseB => execChopFastEnd_sound t phaseB s hs
  | .loadAngleEstimate t => execLoadAngleEstimate_sound t s hs
  | .stepConfig p => execStepConfig_sound p s hs
  | .stepCurrent p => execStepCurrent_sound p s hs
  | .stepRead p => execStepRead_sound p s hs
  | .pdkCycleStart => execPdkCycleStart_sound s hs
  | .sensorStale sensor => execSensorStale_sound sensor s hs
  | .pdkComputationDone ns fault => execPdkComputationDone_sound ns fault s hs
  | .pdkAutoRelease arm => execPdkAutoRelease_sound arm s hs
  | .pdkSelftestEnd => execPdkSelftestEnd_sound s hs
  | .pdkInfo p => execPdkInfo_sound p s hs
  | .pdkArmRead p => execPdkArmRead_sound p s hs
  | .pdkIntrRead p => execPdkIntrRead_sound p s hs
  | .pdkPaddockRead p => execPdkPaddockRead_sound p s hs
  | .pdkRelease p => execPdkRelease_sound p s hs
  | .pdkRestart p => execPdkRestart_sound p s hs
  | .sageLatch memErr => execSageLatch_sound memErr s hs
  | .sageIteration memErr => execSageIteration_sound memErr s hs
  | .sageSolveDeadline => execSageSolveDeadline_sound s hs
  | .sageAnalysisDone => execSageAnalysisDone_sound s hs
  | .sageCtrlColdNext path v => execSageCtrlColdNext_sound path v s hs
  | .sageInfo p => execSageInfo_sound p s hs
  | .sageStructLoad p => execSageStructLoad_sound p s hs
  | .sageStructCommit p => execSageStructCommit_sound p s hs
  | .sageDelta p => execSageDelta_sound p s hs
  | .sageRead p => execSageRead_sound p s hs
  | .sageCold p => execSageCold_sound p s hs
  | .traceFrameReturn p f cIn readyNs => execTraceFrameReturn_sound p f cIn readyNs s hs
  | .closureEnd p => execClosureEnd_sound p s hs
  | .partnerFrameTurn p f cOut => execPartnerFrameTurn_sound p f cOut s hs
  | .tackClosureRecord p r => execTackClosureRecord_sound p r s hs
  | .crdLinkChange p up rightMode => execCrdLinkChange_sound p up rightMode s hs
  | .crdStartPhase p timeUp meas => execCrdStartPhase_sound p timeUp meas s hs
  | .acycTimeout p => execAcycTimeout_sound p s hs
  | .nodeFrameReceive ring pos fromU ours a f sample => execNodeFrameReceive_sound ring pos fromU ours a f sample s hs
  | .nodeApply ring pos => execNodeApply_sound ring pos s hs
  | .nodeTimedSwitch ring pos => execNodeTimedSwitch_sound ring pos s hs
  | .nodeHoldExpire ring pos => execNodeHoldExpire_sound ring pos s hs
  | .nodeLinkDown ring pos upstream => execNodeLinkDown_sound ring pos upstream s hs
  | .nodeReset ring pos => execNodeReset_sound ring pos s hs
  | .acycRead ring pos => execAcycRead_sound ring pos s hs
  | .acycWrite ring pos => execAcycWrite_sound ring pos s hs
  | .acycAddress ring pos => execAcycAddress_sound ring pos s hs
  | .acycState ring pos => execAcycState_sound ring pos s hs
  | .crdInfo p => execCrdInfo_sound p s hs
  | .crdStart p => execCrdStart_sound p s hs
  | .crdStop p => execCrdStop_sound p s hs
  | .crdPortRead p => execCrdPortRead_sound p s hs
  | .crdSlotRead p => execCrdSlotRead_sound p s hs
  | .crdNodeRead p => execCrdNodeRead_sound p s hs
  | .crdNodeWrite p => execCrdNodeWrite_sound p s hs
  | .crdNodeState p => execCrdNodeState_sound p s hs
  | .tlbCycleStart => execTlbCycleStart_sound s hs
  | .tlbMemberEntry => execTlbMemberEntry_sound s hs
  | .tlbSlotStart slot => execTlbSlotStart_sound slot s hs
  | .tlbFrameSend busy => execTlbFrameSend_sound busy s hs
  | .tlbGateClose => execTlbGateClose_sound s hs
  | .tlbFrameForward port f cIn => execTlbFrameForward_sound port f cIn s hs
  | .dataFrameReceive port f cIn => execDataFrameReceive_sound port f cIn s hs
  | .safeFrameReceive port f cIn => execSafeFrameReceive_sound port f cIn s hs
  | .cmdFrameReceive port f cIn => execCmdFrameReceive_sound port f cIn s hs
  | .joinFrameReceive port f cIn => execJoinFrameReceive_sound port f cIn s hs
  | .joinVerifyDone producer sigOk => execJoinVerifyDone_sound producer sigOk s hs
  | .tlbLinkChange port up speed => execTlbLinkChange_sound port up speed s hs
  | .tlbAttestTimeout => execTlbAttestTimeout_sound s hs
  | .tlbInfo p => execTlbInfo_sound p s hs
  | .tlbPortRead p => execTlbPortRead_sound p s hs
  | .tlbPeerRead p => execTlbPeerRead_sound p s hs
  | .tlbStart p => execTlbStart_sound p s hs
  | .tlbStop p => execTlbStop_sound p s hs
  | .tlbSafeRead p => execTlbSafeRead_sound p s hs
  | .tlbAttest p => execTlbAttest_sound p s hs
  | .add x d a b => execAdd_sound x d a b s hs
  | .sub x d a b => execSub_sound x d a b s hs
  | .and_ x d a b => execAnd_sound x d a b s hs
  | .or_ x d a b => execOr_sound x d a b s hs
  | .xor x d a b => execXor_sound x d a b s hs
  | .shl x d a b => execShl_sound x d a b s hs
  | .shr x d a b => execShr_sound x d a b s hs
  | .sar x d a b => execSar_sound x d a b s hs
  | .clt x d a b => execClt_sound x d a b s hs
  | .cltu x d a b => execCltu_sound x d a b s hs
  | .mul x d a b => execMul_sound x d a b s hs
  | .mulhs x d a b => execMulhs_sound x d a b s hs
  | .mulhu x d a b => execMulhu_sound x d a b s hs
  | .addsat x d a b => execAddsat_sound x d a b s hs
  | .subsat x d a b => execSubsat_sound x d a b s hs
  | .min x d a b => execMin_sound x d a b s hs
  | .max x d a b => execMax_sound x d a b s hs
  | .clz x d a => execClz_sound x d a s hs
  | .addK x d a k => execAddK_sound x d a k s hs
  | .andK x d a k => execAndK_sound x d a k s hs
  | .orK x d a k => execOrK_sound x d a k s hs
  | .xorK x d a k => execXorK_sound x d a k s hs
  | .cltK x d a k => execCltK_sound x d a k s hs
  | .movh x d k => execMovh_sound x d k s hs
  | .shlK x d a k => execShlK_sound x d a k s hs
  | .shrK x d a k => execShrK_sound x d a k s hs
  | .sarK x d a k => execSarK_sound x d a k s hs
  | .ldW x d a k => execLdW_sound x d a k s hs
  | .ldH x d a k => execLdH_sound x d a k s hs
  | .ldHu x d a k => execLdHu_sound x d a k s hs
  | .ldB x d a k => execLdB_sound x d a k s hs
  | .ldBu x d a k => execLdBu_sound x d a k s hs
  | .stW x d a k => execStW_sound x d a k s hs
  | .stH x d a k => execStH_sound x d a k s hs
  | .stB x d a k => execStB_sound x d a k s hs
  | .ldWp x d a mb step => execLdWp_sound x d a mb step s hs
  | .stWp x d a mb step => execStWp_sound x d a mb step s hs
  | .atomSwap x d a b => execAtomSwap_sound x d a b s hs
  | .atomAdd x d a b => execAtomAdd_sound x d a b s hs
  | .atomOr x d a b => execAtomOr_sound x d a b s hs
  | .atomAnd x d a b => execAtomAnd_sound x d a b s hs
  | .brEq x a b k => execBrEq_sound x a b k s hs
  | .brNe x a b k => execBrNe_sound x a b k s hs
  | .brLt x a b k => execBrLt_sound x a b k s hs
  | .brGe x a b k => execBrGe_sound x a b k s hs
  | .brLtu x a b k => execBrLtu_sound x a b k s hs
  | .brGeu x a b k => execBrGeu_sound x a b k s hs
  | .jmp x k => execJmp_sound x k s hs
  | .call x k => execCall_sound x k s hs
  | .jmpr x a => execJmpr_sound x a s hs
  | .callr x a => execCallr_sound x a s hs
  | .rep x a count len => execRep_sound x a count len s hs
  | .fadd x d a b => execFadd_sound x d a b s hs
  | .fsub x d a b => execFsub_sound x d a b s hs
  | .fmul x d a b => execFmul_sound x d a b s hs
  | .fdiv x d a b => execFdiv_sound x d a b s hs
  | .fsqrt x d a => execFsqrt_sound x d a s hs
  | .fmin x d a b => execFmin_sound x d a b s hs
  | .fmax x d a b => execFmax_sound x d a b s hs
  | .fabs x d a => execFabs_sound x d a s hs
  | .fneg x d a => execFneg_sound x d a s hs
  | .fceq x d a b => execFceq_sound x d a b s hs
  | .fclt x d a b => execFclt_sound x d a b s hs
  | .fcle x d a b => execFcle_sound x d a b s hs
  | .ftoi x d a => execFtoi_sound x d a s hs
  | .ftoin x d a => execFtoin_sound x d a s hs
  | .itof x d a => execItof_sound x d a s hs
  | .fma x d a b c => execFma_sound x d a b c s hs
  | .fms x d a b c => execFms_sound x d a b c s hs
  | .fnma x d a b c => execFnma_sound x d a b c s hs
  | .mac x acc a b => execMac_sound x acc a b s hs
  | .msb x acc a b => execMsb_sound x acc a b s hs
  | .mpy x acc a b => execMpy_sound x acc a b s hs
  | .aclr x acc => execAclr_sound x acc s hs
  | .tap x acc a b mba mbb dir => execTap_sound x acc a b mba mbb dir s hs
  | .tapmv x acc a b mba => execTapmv_sound x acc a b mba s hs
  | .ard x acc d sh => execArd_sound x acc d sh s hs
  | .amvReadLo x acc r => execAmvReadLo_sound x acc r s hs
  | .amvReadHi x acc r => execAmvReadHi_sound x acc r s hs
  | .amvWriteLo x acc r => execAmvWriteLo_sound x acc r s hs
  | .amvWriteHi x acc r => execAmvWriteHi_sound x acc r s hs
  | .exit x a => execExit_sound x a s hs
  | .exitComplete core => execExitComplete_sound core s hs
  | .wait x => execWait_sound x s hs
  | .waitWake core => execWaitWake_sound core s hs
  | .rti x => execRti_sound x s hs
  | .ei x => execEi_sound x s hs
  | .di x => execDi_sound x s hs
  | .fence x => execFence_sound x s hs
  | .brk x => execBrk_sound x s hs
  | .rdcr x d cr => execRdcr_sound x d cr s hs
  | .wrcr x a cr => execWrcr_sound x a cr s hs
  | .illegalInstruction x => execIllegalInstruction_sound x s hs
  | .storeBufferDrain core => execStoreBufferDrain_sound core s hs
  | .hkTimerMatch core => execHkTimerMatch_sound core s hs
  | .hkWarn core => execHkWarn_sound core s hs
  | .interruptEntry core => execInterruptEntry_sound core s hs
  | .hkCqPush x d a k => execHkCqPush_sound x d a k s hs
  | .hkCqPop x d a k => execHkCqPop_sound x d a k s hs
  | .cqPopWordArrive core => execCqPopWordArrive_sound core s hs
  | .hkCoreRead p => execHkCoreRead_sound p s hs
  | .hkMemRead p bad => execHkMemRead_sound p bad s hs
  | .ostlerTick => execOstlerTick_sound s hs
  | .runLimitExpire core => execRunLimitExpire_sound core s hs
  | .girthDerate tj => execGirthDerate_sound tj s hs
  | .girthBudgetWrite path v => execGirthBudgetWrite_sound path v s hs
  | .ostInfo p => execOstInfo_sound p s hs
  | .ostRelease p => execOstRelease_sound p s hs
  | .ostCancel p => execOstCancel_sound p s hs
  | .ostAbort p => execOstAbort_sound p s hs
  | .ostDescWrite p => execOstDescWrite_sound p s hs
  | .ostDescRead p => execOstDescRead_sound p s hs
  | .ostEnable p => execOstEnable_sound p s hs
  | .ostTrcRead p => execOstTrcRead_sound p s hs
  | .girthInfo p => execGirthInfo_sound p s hs
  | .girthSetBudget p => execGirthSetBudget_sound p s hs
  | .bridleTick inputs outRb tpRb stoRb => execBridleTick_sound inputs outRb tpRb stoRb s hs
  | .safeTwinTimeout conn => execSafeTwinTimeout_sound conn s hs
  | .safeConnWatchdog ring conn => execSafeConnWatchdog_sound ring conn s hs
  | .safetyCycleEval => execSafetyCycleEval_sound s hs
  | .discFault f => execDiscFault_sound f s hs
  | .ss1Timeout z => execSs1Timeout_sound z s hs
  | .stoConfTimeout z => execStoConfTimeout_sound z s hs
  | .bridleEvalDeadline => execBridleEvalDeadline_sound s hs
  | .bridleFault cause => execBridleFault_sound cause s hs
  | .bridleSelftestDone => execBridleSelftestDone_sound s hs
  | .testPulse source => execTestPulse_sound source s hs
  | .darkTest o ending rb => execDarkTest_sound o ending rb s hs
  | .fieldDieRefreshLoss die => execFieldDieRefreshLoss_sound die s hs
  | .brdInfo p => execBrdInfo_sound p s hs
  | .brdFuncRead p => execBrdFuncRead_sound p s hs
  | .brdZoneRead p => execBrdZoneRead_sound p s hs
  | .brdIoRead p => execBrdIoRead_sound p s hs
  | .brdConnRead p => execBrdConnRead_sound p s hs
  | .brdReset p => execBrdReset_sound p s hs
  | .brdConnRestart p => execBrdConnRestart_sound p s hs
  | .spsLoad p v recs => execSpsLoad_sound p v recs s hs
  | .spsAccept p => execSpsAccept_sound p s hs
  | .fioInputChange i0 level => execFioInputChange_sound i0 level s hs
  | .fioRbFault o => execFioRbFault_sound o s hs
  | .fioOverload o => execFioOverload_sound o s hs
  | .fioThermal o ovr => execFioThermal_sound o ovr s hs
  | .vfieldSample group mv => execVfieldSample_sound group mv s hs
  | .supplyLost group => execSupplyLost_sound group s hs
  | .supplyAutoRearm group => execSupplyAutoRearm_sound group s hs
  | .silent1Timeout group => execSilent1Timeout_sound group s hs
  | .silentOffTimeout group => execSilentOffTimeout_sound group s hs
  | .fioOutCfgWrite path o sig v => execFioOutCfgWrite_sound path o sig v s hs
  | .fioInfo p => execFioInfo_sound p s hs
  | .fioGrpRead p => execFioGrpRead_sound p s hs
  | .fioOutWrite p => execFioOutWrite_sound p s hs
  | .fioOutClear p => execFioOutClear_sound p s hs
  | .fioRearm p => execFioRearm_sound p s hs
  | .reinPeerFall => execReinPeerFall_sound s hs
  | .reinPeerRise => execReinPeerRise_sound s hs
  | .reinWatchdog => execReinWatchdog_sound s hs
  | .farrierFault => execFarrierFault_sound s hs
  | .fieldDieDriveStart => execFieldDieDriveStart_sound s hs
  | .healthRecordReceive crcOk w0 h => execHealthRecordReceive_sound crcOk w0 h s hs
  | .tackLost => execTackLost_sound s hs
  | .tackLaneChange lane up => execTackLaneChange_sound lane up s hs
  | .outputShadowReceive crcOk sh => execOutputShadowReceive_sound crcOk sh s hs
  | .snapshotChunkReceive crcOk index x => execSnapshotChunkReceive_sound crcOk index x s hs
  | .snapshotRestoreDone => execSnapshotRestoreDone_sound s hs
  | .standbySelftest code pass last => execStandbySelftest_sound code pass last s hs
  | .revertDwellExpire => execRevertDwellExpire_sound s hs
  | .handoverAbandon => execHandoverAbandon_sound s hs
  | .startWaitExpire => execStartWaitExpire_sound s hs
  | .tackJoinRecord rec sigOk => execTackJoinRecord_sound rec sigOk s hs
  | .pairInfo p => execPairInfo_sound p s hs
  | .pairSwitch p => execPairSwitch_sound p s hs
  | .pairRevert p => execPairRevert_sound p s hs
  | .pairClaim p => execPairClaim_sound p s hs
  | .queuePush path q v m => execQueuePush_sound path q v m s hs
  | .queuePop path q n marks => execQueuePop_sound path q n marks s hs
  | .popStallExpire path q => execPopStallExpire_sound path q s hs
  | .qCtrlReset path q => execQCtrlReset_sound path q s hs
  | .queueHalt path q => execQueueHalt_sound path q s hs
  | .badOpcodePacket op p => execBadOpcodePacket_sound op p s hs
  | .replyWrite path q => execReplyWrite_sound path q s hs
  | .msixUnmask pf1 v => execMsixUnmask_sound pf1 v s hs
  | .spiWrite a ws part => execSpiWrite_sound a ws part s hs
  | .spiWritePrivileged a ws part => execSpiWritePrivileged_sound a ws part s hs
  | .spiRead a n marks => execSpiRead_sound a n marks s hs
  | .spiReadPrivileged a n marks => execSpiReadPrivileged_sound a n marks s hs
  | .spiStatus => execSpiStatus_sound s hs
  | .spiUnknownCommand cmd => execSpiUnknownCommand_sound cmd s hs
  | .pciePerst low => execPciePerst_sound low s hs
  | .devRemoteTimeout => execDevRemoteTimeout_sound s hs
  | .devInfo p => execDevInfo_sound p s hs
  | .devEcho p => execDevEcho_sound p s hs
  | .devHostStat p => execDevHostStat_sound p s hs
  | .devNoticeCfg p => execDevNoticeCfg_sound p s hs
  | .devRemote p => execDevRemote_sound p s hs
  | .devHealth p => execDevHealth_sound p s hs
  | .secInfo p => execSecInfo_sound p s hs
  | .secAttest p ns => execSecAttest_sound p ns s hs
  | .secCertRead p => execSecCertRead_sound p s hs
  | .secFlashStage p v backOk ns => execSecFlashStage_sound p v backOk ns s hs
  | .secRollbackCommit p ns => execSecRollbackCommit_sound p ns s hs
  | .secOwnerRevoke p => execSecOwnerRevoke_sound p s hs
  | .secCommission p keys => execSecCommission_sound p keys s hs
  | .secDebugChallenge p => execSecDebugChallenge_sound p s hs
  | .secDebugUnlock p tokenOk => execSecDebugUnlock_sound p tokenOk s hs
  | .secUnlistedOpcode op p => execSecUnlistedOpcode_sound op p s hs
  | .powerOnReset => execPowerOnReset_sound s hs
  | .brownout => execBrownout_sound s hs
  | .nrstAssert => execNrstAssert_sound s hs
  | .nrstRelease secondary => execNrstRelease_sound secondary s hs
  | .moduleReset => execModuleReset_sound s hs
  | .bootStageEnd x => execBootStageEnd_sound x s hs
  | .bgVerifyDone kind v => execBgVerifyDone_sound kind v s hs
  | .lockWaitEnd => execLockWaitEnd_sound s hs
  | .devBootInfo p => execDevBootInfo_sound p s hs
  | .devReset p => execDevReset_sound p s hs
  | .devUnlistedOpcode op p => execDevUnlistedOpcode_sound op p s hs
  | .tripInputRelease input => execTripInputRelease_sound input s hs
  | .encQuadEdge e a b => execEncQuadEdge_sound e a b s hs
  | .nodeLinkUp ring pos upstream => execNodeLinkUp_sound ring pos upstream s hs
  | .nodeWatchdogExpire ring pos => execNodeWatchdogExpire_sound ring pos s hs
  | .nodeInternalFault ring pos persists => execNodeInternalFault_sound ring pos persists s hs
  | .snapshotSendDone => execSnapshotSendDone_sound s hs
  | .calEntryWrite path i0 w v => execCalEntryWrite_sound path i0 w v s hs
  | .teamRegWrite path t w v => execTeamRegWrite_sound path t w v s hs
  | .pciePowerState pf1 d3 => execPciePowerState_sound pf1 d3 s hs

/-- A step keeps a device sound, whether it idles or runs a command. -/
theorem step_sound (s : State) (h : s.dev.Sound) : Outcome.Sound (step s) := by
  unfold step
  split
  case h_1 => exact Dev.idle_sound s.dev h
  case h_2 c rest _ => exact exec_sound c { s with pending := rest } h

/-- Settles O5: a sound state goes to a sound state, by the laws of the commands. -/
theorem stepKeepsSound : Obligations.StepKeepsSound := by
  unfold Obligations.StepKeepsSound
  intro s t hs ht
  have hstep : Outcome.Sound (step s) := step_sound s hs
  rw [ht] at hstep
  exact hstep

end Sys2Proof.Machine

/-! ## Proofs: the device after a power-on reset -/
namespace Sys2Proof.Machine

/-- A device whose register file lists nothing shows the reset value of every field (R8). -/
theorem Dev.r_of_regs_nil {d : Dev} (h : d.regs = []) (f : Field) : d.r f = f.reset := by
  unfold Dev.r
  rw [h]
  rfl

theorem State.reset_sound : State.reset.dev.Sound :=
  ⟨Regs.wf_nil, Regs.wf_nil, rfl⟩

/-- Settles O3: nothing is listed after a power-on reset, so each field reads its reset value. -/
theorem resetShowsResetValues : Obligations.ResetShowsResetValues := by
  unfold Obligations.ResetShowsResetValues
  exact ⟨rfl, rfl, rfl, State.reset_sound, Dev.r_of_regs_nil rfl⟩

end Sys2Proof.Machine

/-! ## Proofs: register writes and latched pairs -/
namespace Sys2Proof.Machine

/-! ### Register writes by access type (R8) -/

/-- What a field of at most 32 bits holds once the word `v` is written to its register (R8). -/
def Dev.fieldAfter (d : Dev) (f : Field) (v : Nat) : Nat :=
  match f.access with
  | .rw => bits v f.lo f.width
  | .w1c => if bitOf v f.lo then 0 else d.r f
  | _ => d.r f

theorem Dev.fieldAfter_congr {d e : Dev} {f : Field} (h : d.r f = e.r f) (v : Nat) :
    d.fieldAfter f v = e.fieldAfter f v := by
  unfold Dev.fieldAfter
  rw [h]

/-- The ways in which a write of a word can act on one of its fields: not at all, or as one write of that field. -/
theorem Dev.putField_eq (d : Dev) (f : Field) (hi : Bool) (v : Nat) :
    d.putField f hi v = d ∨ ∃ n, d.putField f hi v = d.w f n := by
  unfold Dev.putField
  split
  case h_1 =>
    split
    · split
      · exact .inr ⟨_, rfl⟩
      · exact .inr ⟨_, rfl⟩
    · exact .inr ⟨_, rfl⟩
  case h_2 =>
    split
    · exact .inr ⟨_, rfl⟩
    · exact .inl rfl
  case h_3 => exact .inl rfl

theorem Dev.r_putField_other (d : Dev) {f g : Field} (h : g.key ≠ f.key) (hi : Bool) (v : Nat) :
    (d.putField f hi v).r g = d.r g := by
  obtain e | ⟨n, e⟩ := d.putField_eq f hi v
  · rw [e]
  · rw [e, Dev.r_w_other d h]

/-- A write of a field's word leaves the device as it was but for the register file. -/
theorem Dev.putField_frame (d : Dev) (f : Field) (hi : Bool) (v : Nat) (rs : Regs) :
    { d.putField f hi v with regs := rs } = { d with regs := rs } := by
  obtain e | ⟨n, e⟩ := d.putField_eq f hi v
  · rw [e]
  · rw [e]
    rfl

theorem Dev.r_putField_same {d : Dev} (h : d.Sound) {f : Field} (hw : f.width ≤ 32) (v : Nat) :
    (d.putField f false v).r f = d.fieldAfter f v := by
  unfold Dev.putField Dev.fieldAfter
  cases f.access with
  | rw =>
    dsimp only
    rw [if_neg (by omega), Dev.r_w_same h.regs]
    exact Nat.mod_mod _ _
  | w1c =>
    dsimp only
    split
    · rw [Dev.r_w_same h.regs, Nat.zero_mod]
    · rfl
  | ro | w1s | wo => rfl

/-- A field that the word does not hold keeps its value. -/
theorem Dev.r_putField_each_other (d : Dev) {fs : List Field} {g : Field} (h : g.key ∉ fs.map Field.key) (v : Nat) :
    (d.each fs (fun f d => d.putField f false v)).r g = d.r g := by
  induction fs generalizing d with
  | nil => rfl
  | cons f fs ih =>
    obtain ⟨hf, hfs⟩ := List.ne_and_not_mem_of_not_mem_cons h
    exact (ih (d.putField f false v) hfs).trans (d.r_putField_other hf false v)

/-- Each field of the word takes the value that its access type gives. -/
theorem Dev.r_putField_each_mem {d : Dev} (h : d.Sound) {fs : List Field} (hn : (fs.map Field.key).Nodup)
    (hw : ∀ f ∈ fs, f.width ≤ 32) (v : Nat) :
    ∀ g ∈ fs, (d.each fs (fun f d => d.putField f false v)).r g = d.fieldAfter g v := by
  induction fs generalizing d with
  | nil => exact fun g hg => absurd hg List.not_mem_nil
  | cons f fs ih =>
    obtain ⟨hf, hn⟩ := List.nodup_cons.mp hn
    obtain ⟨hwf, hw⟩ := List.forall_mem_cons.mp hw
    refine List.forall_mem_cons.mpr ⟨?_, fun g hg => ?_⟩
    · exact (Dev.r_putField_each_other (d.putField f false v) hf v).trans (Dev.r_putField_same h hwf v)
    · have hne : g.key ≠ f.key := fun e => hf (e ▸ List.mem_map_of_mem hg)
      exact (ih (Dev.putField_sound d f false v h) hn hw g hg).trans
        (Dev.fieldAfter_congr (d.r_putField_other hne false v) v)

theorem Dev.putField_each_frame (d : Dev) (fs : List Field) (v : Nat) (rs : Regs) :
    { d.each fs (fun f d => d.putField f false v) with regs := rs } = { d with regs := rs } := by
  induction fs generalizing d with
  | nil => rfl
  | cons f fs ih => exact (ih (d.putField f false v)).trans (d.putField_frame f false v rs)

theorem Dev.regWrite_of_regAt {a : Nat} {r : RegRow} {fs : List Field} {hi : Bool} (h : regAt a = some (r, fs, hi))
    (d : Dev) (v : Nat) :
    d.regWrite a v = d.each fs (fun f d => d.putField f hi v) := by
  unfold Dev.regWrite
  rw [h]

theorem Dev.regWrite_of_unmapped {a : Nat} (h : regAt a = none) (hr : inRecords a = false) (d : Dev) (v : Nat) :
    d.regWrite a v = d.inc Reg.HOST_ERR_CNT_UNMAPPED := by
  unfold Dev.regWrite
  rw [h, hr]
  rfl

/-! ### The way of a register access -/

/-- A write of a whole aligned word is a host write of that word. -/
theorem exec_regWrite_whole {s : State} {path : Path} {a : Word} (v : Word) (ho : s.dev.pathOpen path = true)
    (ha : a.toNat % 4 = 0) :
    exec (.regWrite path a v true) s = onward s (s.dev.hostWrite s.grade path a.toNat v.toNat) := by
  show onward s (s.dev.writeAccess s.grade path a.toNat v.toNat true) = _
  simp [Dev.writeAccess, ho, ha]

/-- A write without all four bytes only counts (R7, R515). -/
theorem exec_regWrite_partial {s : State} {path : Path} (a v : Word) (ho : s.dev.pathOpen path = true) :
    exec (.regWrite path a v false) s = onward s (s.dev.inc Reg.HOST_ERR_CNT_PARTIAL) := by
  show onward s (s.dev.writeAccess s.grade path a.toNat v.toNat false) = _
  simp [Dev.writeAccess, ho]

/-- A path with the rights to an address is not refused there (R11). -/
theorem Dev.not_refused {d : Dev} {path : Path} {a : Nat} (hp : privAddr a = true → d.pathPriv path = true) :
    ¬ (privAddr a ∧ !d.pathPriv path) := by
  rintro ⟨ha, hr⟩
  simp [hp ha] at hr

/-- A path without the rights to a register only counts the violation (R11). -/
theorem Dev.hostWrite_refused {d : Dev} {path : Path} {a : Nat} (hlo : 0x10_0000 ≤ a) (hhi : a < 0x100_0000)
    (hp : privAddr a = true) (hr : d.pathPriv path = false) (g : Grade) (v : Nat) :
    d.hostWrite g path a v = d.countPath path := by
  unfold Dev.hostWrite
  rw [if_neg (by omega), if_neg (by omega), if_pos (by simp [hp, hr])]

/-- A path with the rights reaches the block of the register. -/
theorem Dev.hostWrite_allowed {d : Dev} {g : Grade} {path : Path} {a : Nat} (hlo : 0x10_0000 ≤ a) (hhi : a < 0x100_0000)
    (hp : privAddr a = true → d.pathPriv path = true) (ha : absent g a = false) (v : Nat) :
    d.hostWrite g path a v = d.writeBlock g path a v := by
  unfold Dev.hostWrite
  rw [if_neg (by omega), if_neg (by omega), if_neg (Dev.not_refused hp), if_neg (by simp [ha])]

/-- The Paddock, Bridle and Security blocks have no register with a rule of its own. -/
theorem Dev.writeBlock_plain {a : Nat} (h : a / 0x10_0000 ∈ [5, 0xB, 0xE]) (d : Dev) (g : Grade) (path : Path) (v : Nat) :
    d.writeBlock g path a v = d.regWrite a v := by
  unfold Dev.writeBlock
  simp only [List.mem_cons, List.not_mem_nil, or_false] at h
  obtain h | h | h := h <;> simp only [h]

/-- Settles O6: the write goes to the fields of the word one by one, each by its access type. -/
theorem registerWriteByAccessType : Obligations.RegisterWriteByAccessType := by
  unfold Obligations.RegisterWriteByAccessType
  intro s path a v ho ha hb
  have hrange : 0x10_0000 ≤ a.toNat ∧ a.toNat < 0x100_0000 := by
    simp only [List.mem_cons, List.not_mem_nil, or_false] at hb
    omega
  obtain ⟨hlo, hhi⟩ := hrange
  refine ⟨fun hp hr => ?_, exec_regWrite_partial a v ho, fun hp hab => ?_⟩
  · rw [exec_regWrite_whole v ho ha, Dev.hostWrite_refused hlo hhi hp hr]
  · have hexec : exec (.regWrite path a v true) s = onward s (s.dev.regWrite a.toNat v.toNat) := by
      rw [exec_regWrite_whole v ho ha, Dev.hostWrite_allowed hlo hhi hp hab, Dev.writeBlock_plain hb]
    refine ⟨fun hn hr => ?_, fun r fs hreg hs hnd hw => ?_⟩
    · rw [hexec, Dev.regWrite_of_unmapped hn hr]
    · rw [Dev.regWrite_of_regAt hreg] at hexec
      exact ⟨_, hexec, Dev.r_putField_each_mem hs hnd hw v.toNat, fun f hf => s.dev.r_putField_each_other hf v.toNat,
        s.dev.putField_each_frame fs v.toNat s.dev.regs⟩

/-! ### Latched pairs (R10) -/

/-- A word that is latched is the one that the path then keeps. -/
theorem Dev.latched_latchPair (d : Dev) (path : Path) (a hi : Nat) : (d.latchPair path a hi).latched path a = hi := by
  have hq : queueOf (pathOrigin path) ≠ none := by cases path <;> exact Option.some_ne_none _
  unfold Dev.latched Dev.latchPair
  rw [Dev.hostSet_setHostSet d _ hq, Tab.look_put_same]

/-- A host read with the rights, of a register that is not computed, reads the tables. -/
theorem Dev.hostRead_register {d : Dev} {g : Grade} {path : Path} {a : Nat}
    (hrange : a < 0x1_0000 ∨ 0x10_0000 ≤ a ∧ a < 0x100_0000) (hp : privAddr a = true → d.pathPriv path = true)
    (ha : absent g a = false) (hc : d.computedWord g path a = none) :
    d.hostRead g path a = d.readReg path a := by
  unfold Dev.hostRead
  rw [if_neg (by omega), if_neg (by omega), if_neg (Dev.not_refused hp), if_neg (by simp [ha]), hc]

/-- The low word of a pair latches the high word. -/
theorem Dev.readReg_low {a : Nat} {r : RegRow} {fs : List Field} (h1 : a ≠ 0x90_0000) (h2 : a ≠ 0x90_0008)
    (h : regAt a = some (r, fs, false)) (hw : r.wide = true) (d : Dev) (path : Path) :
    d.readReg path a = (d.latchPair path a (d.wordOf fs true), d.wordOf fs false) := by
  unfold Dev.readReg
  rw [if_neg h1, if_neg h2, h]
  simp [hw]

/-- The high word of a pair reads as the path latched it. -/
theorem Dev.readReg_high {a : Nat} {r : RegRow} {fs : List Field} (h1 : a ≠ 0x90_0000) (h2 : a ≠ 0x90_0008)
    (h : regAt a = some (r, fs, true)) (d : Dev) (path : Path) :
    d.readReg path a = (d, d.latched path (a - 4)) := by
  unfold Dev.readReg
  rw [if_neg h1, if_neg h2, h]
  rfl

/-- A read by an open path brings the reader the word of the host read, with the latches that it sets. -/
theorem exec_latchedPairRead {s : State} {path : Path} {a : Word} (ho : s.dev.pathOpen path = true) (ha : a.toNat % 4 = 0) :
    exec (.latchedPairRead path a) s = onward s
      ((s.dev.hostRead s.grade path a.toNat).1.readerGets (pathOrigin path) [W (s.dev.hostRead s.grade path a.toNat).2]) := by
  have hword : wordAddr a.toNat = a.toNat := Nat.div_mul_cancel (Nat.dvd_of_mod_eq_zero ha)
  show execLatchedPairRead path a s = _
  simp [execLatchedPairRead, ho, hword, onward]

theorem exec_domainTimeRead {s : State} {path : Path} (ho : s.dev.pathOpen path = true) :
    exec (.domainTimeRead path) s = onward s (s.dev.readTime.1.readerGets (pathOrigin path) [W s.dev.readTime.2]) := by
  show execDomainTimeRead path s = _
  simp [execDomainTimeRead, Dev.access, ho, onward]

/-- Settles O7: the low word latches, and the path's latch answers the high word. -/
theorem pairReadLatchesHighWord : Obligations.PairReadLatchesHighWord := by
  unfold Obligations.PairReadLatchesHighWord
  refine ⟨?_, Dev.latched_latchPair, fun s path ho => exec_domainTimeRead ho⟩
  intro s path a r fs ho ha hrange hp hab hc h1 h2
  have hread := Dev.hostRead_register hrange hp hab hc
  refine ⟨fun hreg hw => ?_, fun hreg => ?_⟩
  · rw [exec_latchedPairRead ho ha, hread, Dev.readReg_low h1 h2 hreg hw]
  · rw [exec_latchedPairRead ho ha, hread, Dev.readReg_high h1 h2 hreg]

end Sys2Proof.Machine

/-! ## Proofs: epochs, the image and its holders -/
namespace Sys2Proof.Machine

/-! ### Packets that are ready -/

/-- A ready packet of a command with `n` parameter words runs the command's body on the device without the packet's words, and
the body's answer goes to the source. -/
theorem ok_runPacket_of_ready {s : State} {p : Packet} {op n : Nat} {priv : Bool} {len : List Nat → Nat}
    {body : Dev → List Nat → Dev × Res} {d : Dev} {res : Res} (h : s.dev.Ready p op n priv)
    (hlen : len (p.params.map BitVec.toNat) ≤ replyLimit p.origin)
    (hbody : body (s.dev.taken p op) (p.params.map BitVec.toNat) = (d, res)) :
    ok s (fun g d => d.runPacket g { opcode := op, priv := priv, need := needN n, replyLen := len } p body) =
      replied s p op d res := by
  have hneed : needN n (p.params.map BitVec.toNat) = none := needN_eq_none (by rw [List.length_map, h.length])
  rw [ok_eq, Dev.runPacket_ready h rfl rfl rfl hneed hlen, hbody]
  rfl

/-- The same for a command whose reply is as short as any source can take. -/
theorem ok_runPacket_short_of_ready {s : State} {p : Packet} {op n : Nat} {priv : Bool}
    {body : Dev → List Nat → Dev × Res} {d : Dev} {res : Res} (h : s.dev.Ready p op n priv)
    (hbody : body (s.dev.taken p op) (p.params.map BitVec.toNat) = (d, res)) :
    ok s (fun g d => d.runPacket g { opcode := op, priv := priv, need := needN n } p body) = replied s p op d res :=
  ok_runPacket_of_ready h (le_replyLimit (by omega) p.origin) hbody

/-! ### Image commands (R50, R51) -/

@[simp] theorem Dev.taken_frontEpoch (d : Dev) (p : Packet) (op : Nat) : (d.taken p op).frontEpoch = d.frontEpoch := by
  simp [Dev.frontEpoch]

@[simp] theorem Dev.taken_te (d : Dev) (p : Packet) (op : Nat) : (d.taken p op).te = d.te := by
  simp [Dev.te]

@[simp] theorem Dev.taken_imgRead (d : Dev) (p : Packet) (op id n : Nat) : (d.taken p op).imgRead id n = d.imgRead id n := by
  simp [Dev.imgRead]

@[simp] theorem Dev.taken_cutStatWord (d : Dev) (p : Packet) (op : Nat) : (d.taken p op).cutStatWord = d.cutStatWord := by
  simp [Dev.cutStatWord]

/-- With a front, a signal's record is answered as the front lists it. -/
theorem Dev.imgReadRec_of_valid {d : Dev} {id : Nat} (hid : id < 262144) (hv : d.ep.front.valid = true) :
    d.imgReadRec id = match d.ep.front.recOf id with
      | some r => .ok r.words
      | none => .ok [0, 0, 0, 0] := by
  unfold Dev.imgReadRec
  rw [if_neg (by omega), hv]
  rfl

theorem exec_epochInfo_ready {s : State} {p : Packet} (h : s.dev.Ready p 0x100 0 false) :
    exec (.epochInfo p) s = replied s p 0x100 (s.dev.taken p 0x100)
      (.ok [loW (s.dev.r Reg.EPK_NOW), hiW (s.dev.r Reg.EPK_NOW), loW s.dev.frontEpoch, hiW s.dev.frontEpoch,
        s.dev.r Reg.EPK_CFG_K, loW (s.dev.r Reg.EPK_ORIGIN), hiW (s.dev.r Reg.EPK_ORIGIN)]) := by
  show execEpochInfo p s = _
  exact ok_runPacket_short_of_ready h (by simp)

theorem exec_imgHold_ready {s : State} {p : Packet} (h : s.dev.Ready p 0x101 0 false) :
    exec (.imgHold p) s = replied s p 0x101
      { s.dev.taken p 0x101 with ep := { s.dev.ep with cmdCount := min 255 (s.dev.ep.cmdCount + 1), cmdAge := 0 } }
      (.ok [loW s.dev.frontEpoch, hiW s.dev.frontEpoch]) := by
  show execImgHold p s = _
  exact ok_runPacket_short_of_ready h (by simp [Dev.standingHold])

theorem exec_imgRelease_ready {s : State} {p : Packet} (h : s.dev.Ready p 0x102 0 false) :
    exec (.imgRelease p) s = replied s p 0x102
      { s.dev.taken p 0x102 with ep := { s.dev.ep with cmdCount := s.dev.ep.cmdCount - 1 } } (.ok []) := by
  show execImgRelease p s = _
  exact ok_runPacket_short_of_ready h (by simp)

theorem exec_imgRead_ready {s : State} {p : Packet} (h : s.dev.Ready p 0x103 2 false)
    (hlen : 5 + p.arg 1 ≤ replyLimit p.origin) :
    exec (.imgRead p) s = replied s p 0x103 (s.dev.taken p 0x103) (s.dev.imgRead (p.arg 0) (p.arg 1)) := by
  show execImgRead p s = _
  exact ok_runPacket_of_ready h hlen (by simp [Packet.arg])

theorem exec_imgReadRec_ready {s : State} {p : Packet} (h : s.dev.Ready p 0x104 1 false) (hid : p.arg 0 < 262144)
    (hv : s.dev.ep.front.valid = true) :
    exec (.imgReadRec p) s = replied s p 0x104 (s.dev.taken p 0x104) (match s.dev.ep.front.recOf (p.arg 0) with
      | some r => .ok r.words
      | none => .ok [0, 0, 0, 0]) := by
  have hrec := Dev.imgReadRec_of_valid (d := s.dev.taken p 0x104) hid (by rw [Dev.taken_ep, hv])
  rw [Dev.taken_ep] at hrec
  show execImgReadRec p s = _
  exact ok_runPacket_short_of_ready h (congrArg (Prod.mk _) hrec)

theorem exec_epochSetMargin_ready {s : State} {p : Packet} (h : s.dev.Ready p 0x120 1 true) (hlo : 1000 ≤ p.arg 0)
    (hhi : 2 * p.arg 0 ≤ s.dev.te) :
    exec (.epochSetMargin p) s = replied s p 0x120 ((s.dev.taken p 0x120).setMargin (p.arg 0)) (.ok []) := by
  have hok : (s.dev.taken p 0x120).marginOk (p.arg 0) = true := by simp [Dev.marginOk, hlo, hhi]
  show execEpochSetMargin p s = _
  exact ok_runPacket_short_of_ready h (if_pos hok)

/-! ### Cut commands (R45, R46) -/

/-- While no cut is armed, CUT_ARM arms one for an epoch that is still to begin. -/
theorem Dev.cutArm_of_idle {d : Dev} (h : d.r Reg.IMG_CUT_STAT_STATE = 0) (id b : Nat) :
    d.cutArm id b =
      if b / d.r Reg.EPK_CFG_K ≤ d.r Reg.EPK_NOW then (d, .past)
      else (((d.w Reg.IMG_CUT_STAT_STATE 1).w Reg.IMG_CUT_ID id).w Reg.IMG_CUT_EPOCH (b / d.r Reg.EPK_CFG_K),
        .ok [loW (b / d.r Reg.EPK_CFG_K), hiW (b / d.r Reg.EPK_CFG_K)]) := by
  simp [Dev.cutArm, h]

/-- While a cut is armed or frozen, CUT_ARM of its ID answers its epoch, and of another ID BUSY. -/
theorem Dev.cutArm_of_armed {d : Dev} (h : d.r Reg.IMG_CUT_STAT_STATE ≠ 0) (id b : Nat) :
    d.cutArm id b =
      if d.r Reg.IMG_CUT_ID = id then (d, .ok [loW (d.r Reg.IMG_CUT_EPOCH), hiW (d.r Reg.IMG_CUT_EPOCH)]) else (d, .busy) := by
  simp [Dev.cutArm, h]

theorem exec_cutArm_ready {s : State} {p : Packet} (h : s.dev.Ready p 0x110 3 false) :
    exec (.cutArm p) s = replied s p 0x110
      ((s.dev.taken p 0x110).cutArm (p.arg 0) (pair64 (p.arg 1) (p.arg 2))).1
      ((s.dev.taken p 0x110).cutArm (p.arg 0) (pair64 (p.arg 1) (p.arg 2))).2 := by
  show execCutArm p s = _
  exact ok_runPacket_short_of_ready h rfl

theorem exec_cutRelease_ready {s : State} {p : Packet} (h : s.dev.Ready p 0x111 1 false) :
    exec (.cutRelease p) s =
      replied s p 0x111 ((s.dev.taken p 0x111).cutRelease (p.arg 0)).1 ((s.dev.taken p 0x111).cutRelease (p.arg 0)).2 := by
  show execCutRelease p s = _
  exact ok_runPacket_short_of_ready h rfl

theorem exec_cutStatus_ready {s : State} {p : Packet} (h : s.dev.Ready p 0x112 0 false) :
    exec (.cutStatus p) s = replied s p 0x112 (s.dev.taken p 0x112)
      (.ok [s.dev.cutStatWord, s.dev.r Reg.IMG_CUT_ID, loW (s.dev.r Reg.IMG_CUT_EPOCH), hiW (s.dev.r Reg.IMG_CUT_EPOCH)]) := by
  show execCutStatus p s = _
  exact ok_runPacket_short_of_ready h (by simp)

/-- Settles O13: each command answers by its own law, read on the device without the packet's words. -/
theorem imageCommands : Obligations.ImageCommands := by
  unfold Obligations.ImageCommands
  intro s p
  refine ⟨exec_epochInfo_ready, exec_imgHold_ready, exec_imgRelease_ready, exec_imgRead_ready, exec_imgReadRec_ready,
    fun h => ?_, fun h => ?_, exec_cutStatus_ready, exec_epochSetMargin_ready⟩
  · dsimp only
    rw [exec_cutArm_ready h]
    by_cases hst : s.dev.r Reg.IMG_CUT_STAT_STATE = 0
    · rw [Dev.cutArm_of_idle (by rw [Dev.taken_r, hst]), Dev.taken_r, Dev.taken_r, if_pos hst]
      split <;> rfl
    · rw [Dev.cutArm_of_armed (by rwa [Dev.taken_r]), Dev.taken_r, Dev.taken_r, if_neg hst]
      split <;> rfl
  · rw [exec_cutRelease_ready h]
    unfold Dev.cutRelease
    rw [Dev.taken_r, Dev.taken_r]
    split
    · rfl
    · split <;> rfl

/-! ### Holders of the front (R41, R43, R46) -/

/-- A path that reaches the device makes an access that needs no rights and that every grade has. -/
theorem Dev.access_plain {d : Dev} {path : Path} (h : d.pathOpen path = true) (f : Dev → Dev) :
    d.access path false true f = f d := by
  simp [Dev.access, h]

theorem exec_hostHoldSet_open {s : State} {path : Path} (h : s.dev.pathOpen path = true) :
    exec (.hostHoldSet path) s = onward s (s.dev.setHold path true) := by
  show execHostHoldSet path s = _
  rw [execHostHoldSet, ok_eq, Dev.access_plain h]
  rfl

theorem exec_hostHoldClear_open {s : State} {path : Path} (h : s.dev.pathOpen path = true) :
    exec (.hostHoldClear path) s = onward s (s.dev.setHold path false) := by
  show execHostHoldClear path s = _
  rw [execHostHoldClear, ok_eq, Dev.access_plain h]
  rfl

theorem Dev.holdExpire_pf1 (d : Dev) :
    d.holdExpire true =
      if d.ep.pf1Hold = true ∧ d.r Reg.IMG_CFG_HOLD_MAX ≤ d.ep.pf1Age + 1 then
        { d with ep := { d.ep with pf1Hold := false, pf1Age := 0, pf1Expired := true } } else d := by
  simp [Dev.holdExpire]

theorem Dev.holdExpire_pf0 (d : Dev) :
    d.holdExpire false =
      if d.ep.pf0Hold = true ∧ d.r Reg.IMG_CFG_HOLD_MAX ≤ d.ep.pf0Age + 1 then
        { d with ep := { d.ep with pf0Hold := false, pf0Age := 0, pf0Expired := true } } else d := by
  simp [Dev.holdExpire]

/-- Settles O14: a path that is open acts on the holder of its function; the other events are their operations. -/
theorem frontHolders : Obligations.FrontHolders := by
  unfold Obligations.FrontHolders
  intro s
  refine ⟨fun h => ⟨?_, ?_⟩, fun h => ⟨?_, ?_⟩, ?_, ?_, rfl, rfl, rfl⟩
  · rw [exec_hostHoldSet_open h]
    rfl
  · rw [exec_hostHoldClear_open h]
    rfl
  · rw [exec_hostHoldSet_open h]
    rfl
  · rw [exec_hostHoldClear_open h]
    rfl
  · exact congrArg (onward s) s.dev.holdExpire_pf1
  · exact congrArg (onward s) s.dev.holdExpire_pf0

/-! ### The commit point (R21) and the deadline (R22) -/

/-- The boundary that ends the present epoch is that of the next epoch. -/
theorem Dev.boundaryNs_add_te (d : Dev) : d.boundaryNs + d.te = d.r Reg.EPK_ORIGIN + (d.r Reg.EPK_NOW + 1) * d.te := by
  rw [Dev.boundaryNs, Nat.succ_mul, Nat.add_assoc]

/-- A commit point before lock, before LOCK_WAIT or after a failed boot changes nothing. -/
theorem Dev.commitPoint_of_not_up {d : Dev}
    (h : d.locked = false ∨ d.r Reg.GLB_BOOT_STAGE < 9 ∨ d.r Reg.GLB_BOOT_FAIL_STAGE ≠ 0) (g : Grade) :
    d.commitPoint g = d := by
  unfold Dev.commitPoint
  rw [if_pos (by simpa using h)]

section Up
variable {d : Dev} (hl : d.locked = true) (hb : 9 ≤ d.r Reg.GLB_BOOT_STAGE) (hf : d.r Reg.GLB_BOOT_FAIL_STAGE = 0)
include hl hb hf

/-- With no epoch placed, the commit point only places the first one. -/
theorem Dev.commitPoint_of_unplaced (hp : d.ep.placed = false) (g : Grade) :
    d.commitPoint g =
      (d.reach (d.countAt (d.r Reg.EPK_ORIGIN + d.firstEpoch * d.te))).boundary g d.firstEpoch false := by
  unfold Dev.commitPoint
  rw [if_neg (by simp [hl, hb, hf]), if_pos (by simp [hp])]

/-- With an epoch placed, the commit point ends it, with or without a commit, and begins the next. -/
theorem Dev.commitPoint_of_placed (hp : d.ep.placed = true) (g : Grade) :
    let e := d.reach (d.countAt (d.r Reg.EPK_ORIGIN + (d.r Reg.EPK_NOW + 1) * d.te))
    d.commitPoint g =
      if e.commits then (e.commitEpoch g (d.r Reg.EPK_NOW)).boundary g (d.r Reg.EPK_NOW + 1) true
      else (e.skipEpoch (d.r Reg.EPK_NOW)).boundary g (d.r Reg.EPK_NOW + 1) false := by
  unfold Dev.commitPoint
  rw [if_neg (by simp [hl, hb, hf]), if_neg (by simp [hp]), Dev.boundaryNs_add_te]

end Up

/-- The deadline does nothing with no epoch placed, or a second time in an epoch. -/
theorem Dev.deadline_of_past {d : Dev} (h : d.ep.placed = false ∨ d.ep.deadlinePassed = true) : d.deadline = d := by
  unfold Dev.deadline
  rw [if_pos (by simpa using h)]

theorem Dev.deadline_of_due {d : Dev} (hp : d.ep.placed = true) (hd : d.ep.deadlinePassed = false) :
    d.deadline =
      let e := (d.reach (d.countAt (d.boundaryNs + d.te - d.ep.margin))).ringDeadline.loopDeadline.ostDeadline
      { e with ep := { e.ep with deadlinePassed := true } } := by
  unfold Dev.deadline
  rw [if_neg (by simp [hp, hd])]

/-! ### The image of an epoch (R35, R42) -/

/-- The image built for epoch `n` is valid, has that epoch, is the last committed, and leaves the front as it is; with or
without a held run before it. -/
theorem Dev.buildImage_newest (d : Dev) (n : Nat) :
    (d.buildImage n).ep.newest.valid = true ∧ (d.buildImage n).ep.newest.epoch = n ∧
      (d.buildImage n).ep.lastCommitted = n ∧ (d.buildImage n).ep.before = d.ep.newest ∧
      (d.buildImage n).ep.front = d.ep.front := by
  unfold Dev.buildImage
  cases d.ep.heldRun with
  | none => exact ⟨rfl, rfl, rfl, rfl, rfl⟩
  | some run => exact ⟨rfl, rfl, rfl, rfl, rfl⟩

theorem Dev.flip_of_pinned {d : Dev} (h : d.pinned = true) : d.flip = d := by
  unfold Dev.flip
  rw [if_pos h]

theorem Dev.flip_of_unpinned {d : Dev} (h : d.pinned = false) :
    d.flip = ({ d with ep := { d.ep with front := d.ep.newest } }).w Reg.IMG_FRONT
      (if d.ep.newest.valid then d.ep.newest.epoch else noEpoch) := by
  unfold Dev.flip
  rw [if_neg (by simp [h])]

/-- A flip makes the newest image the front and keeps the record memory. -/
theorem Dev.flip_front_of_unpinned {d : Dev} (h : d.pinned = false) :
    d.flip.ep.front = d.ep.newest ∧ d.flip.mem = d.mem := by
  rw [Dev.flip_of_unpinned h]
  exact ⟨rfl, rfl⟩

/-- IMG_FRONT shows the epoch of the image that has become the front. -/
theorem Dev.r_flip_front {d : Dev} (hs : d.Sound) (h : d.pinned = false) (hv : d.ep.newest.valid = true) :
    d.flip.r Reg.IMG_FRONT = d.ep.newest.epoch % 2 ^ 64 := by
  rw [Dev.flip_of_unpinned h, if_pos hv]
  exact Dev.r_w_same hs.regs Reg.IMG_FRONT d.ep.newest.epoch

/-- Settles O15: the commit point goes by the three states of the epoch, and the image and its flip by their laws. -/
theorem commitPointOrder : Obligations.CommitPointOrder := by
  unfold Obligations.CommitPointOrder
  refine ⟨fun s h => congrArg (onward s) (Dev.commitPoint_of_not_up h s.grade),
    fun s hl hb hf => ⟨fun hp => congrArg (onward s) (Dev.commitPoint_of_unplaced hl hb hf hp s.grade), fun hp => ?_⟩,
    fun s => ⟨fun h => congrArg (onward s) (Dev.deadline_of_past h),
      fun hp hd => congrArg (onward s) (Dev.deadline_of_due hp hd)⟩,
    fun d n => ?_⟩
  · have hplaced := Dev.commitPoint_of_placed hl hb hf hp s.grade
    exact ⟨fun hc => congrArg (onward s) (hplaced.trans (if_pos hc)),
      fun hc => congrArg (onward s) (hplaced.trans (if_neg (by simp [hc])))⟩
  · obtain ⟨hvalid, hepoch, hlast, hbefore, hfront⟩ := d.buildImage_newest n
    exact ⟨hvalid, hepoch, hlast, hbefore, hfront, Dev.flip_of_pinned,
      Dev.flip_front_of_unpinned, Dev.r_flip_front⟩

end Sys2Proof.Machine

/-! ## Proofs: master coordinates and the event calendar -/
namespace Sys2Proof.Machine

/-! ### Shortest signed distances (R55) -/

/-- On a modulo coordinate the reduced value is the remainder. -/
theorem reduceC_of_pos {m : Nat} (h : 0 < m) (z : Int) : reduceC m z = z % m := by
  unfold reduceC
  rw [if_neg (by omega)]

/-- On a modulo coordinate the difference is the remainder, or the remainder less MOD from MOD/2 on. -/
theorem diffC_of_pos {m : Nat} (h : 0 < m) (a b : Int) :
    diffC m a b = if 2 * ((a - b) % m) < m then (a - b) % m else (a - b) % m - m := by
  unfold diffC
  rw [if_neg (by omega)]

theorem reduceC_range {m : Nat} (h : 0 < m) (z : Int) :
    0 ≤ reduceC m z ∧ reduceC m z < m ∧ (m : Int) ∣ z - reduceC m z := by
  rw [reduceC_of_pos h]
  exact ⟨Int.emod_nonneg z (by omega), Int.emod_lt_of_pos z (by omega), Int.dvd_self_sub_emod⟩

theorem diffC_range {m : Nat} (h : 0 < m) (a b : Int) :
    -(m : Int) ≤ 2 * diffC m a b ∧ 2 * diffC m a b < m ∧ (m : Int) ∣ (a - b) - diffC m a b := by
  have hlo : 0 ≤ (a - b) % (m : Int) := Int.emod_nonneg _ (by omega)
  have hhi : (a - b) % (m : Int) < m := Int.emod_lt_of_pos _ (by omega)
  have hdvd : (m : Int) ∣ (a - b) - (a - b) % m := Int.dvd_self_sub_emod
  rw [diffC_of_pos h]
  split
  · exact ⟨by omega, by omega, hdvd⟩
  · refine ⟨by omega, by omega, ?_⟩
    rw [← sub_add]
    exact Int.dvd_add hdvd (Int.dvd_refl _)

/-- A difference of exactly half the modulus is taken as −MOD/2. -/
theorem diffC_half {h : Nat} (hpos : 0 < h) (b : Int) : diffC (2 * h) (b + h) b = -(h : Int) := by
  have hr : (b + (h : Int) - b) % ((2 * h : Nat) : Int) = h := by
    rw [add_sub_cancel_left]
    exact Int.emod_eq_of_lt (by omega) (by omega)
  rw [diffC_of_pos (by omega), hr, if_neg (by omega)]
  omega

theorem crosses_rising (m : Nat) (c : Coord) (x : Int) :
    crosses m c x true = true ↔ 0 < diffC m x c.prev ∧ diffC m x c.prev ≤ diffC m c.cur c.prev := by
  simp [crosses]

theorem crosses_falling (m : Nat) (c : Coord) (x : Int) :
    crosses m c x false = true ↔ diffC m c.cur c.prev < diffC m x c.prev ∧ diffC m x c.prev ≤ 0 := by
  simp [crosses]

/-- The remainder of a difference of two reduced values: the difference, or MOD more when it is negative. -/
theorem emod_sub_of_reduced {m : Nat} {a b : Int} (ha : 0 ≤ a) (ham : a < m) (hb : 0 ≤ b) (hbm : b < m) :
    (a - b) % (m : Int) = if b ≤ a then a - b else a - b + m := by
  split
  · exact Int.emod_eq_of_lt (by omega) (by omega)
  · rw [← Int.add_emod_right]
    exact Int.emod_eq_of_lt (by omega) (by omega)

/-- A window is the arc that begins at X and ends before Y, whether or not it holds the wrap to 0 (R70). -/
theorem insideWindow_iff_arc {m : Nat} {s x y : Int} (hs : 0 ≤ s) (hsm : s < m) (hx : 0 ≤ x) (hxm : x < m) (hy : 0 ≤ y)
    (hym : y < m) :
    insideWindow s x y = true ↔ (s - x) % m < (y - x) % m := by
  rw [emod_sub_of_reduced hs hsm hx hxm, emod_sub_of_reduced hy hym hx hxm]
  unfold insideWindow
  by_cases h : x ≤ y
  · simp only [h, if_true, decide_eq_true_eq]
    split <;> omega
  · simp only [h, if_false, decide_eq_true_eq]
    split <;> omega

/-- Settles O22: differences and windows by the remainder on the modulus, crossings by their definition. -/
theorem shortestSignedDistance : Obligations.ShortestSignedDistance := by
  unfold Obligations.ShortestSignedDistance
  exact ⟨fun m z h => reduceC_range h z, fun m a b h => diffC_range h a b, fun h b hpos => diffC_half hpos b,
    fun a b => rfl, fun d n => rfl, fun m c x => ⟨crosses_rising m c x, crosses_falling m c x⟩,
    fun m s x y _ hs hsm hx hxm hy hym _ => insideWindow_iff_arc hs hsm hx hxm hy hym⟩

/-! ### Bits of a stored word -/

theorem bitOf_eq_testBit (x i : Nat) : bitOf x i = x.testBit i := by
  rw [Nat.testBit_eq_decide_div_mod_eq, bitOf, bits, Nat.pow_one, beq_eq_decide]

/-- A bit of a word is lost only past the word's width. -/
theorem bitOf_mod_two_pow {i w : Nat} (h : i < w) (x : Nat) : bitOf (x % 2 ^ w) i = bitOf x i := by
  simp [bitOf_eq_testBit, Nat.testBit_mod_two_pow, h]

/-- Setting a bit sets that bit alone. -/
theorem bitOf_setBit (x i j : Nat) (b : Bool) : bitOf (setBit x i b) j = if j = i then b else bitOf x j := by
  have hlow : x % 2 ^ i < 2 ^ i := Nat.mod_lt _ (Nat.two_pow_pos i)
  have hbit : b2n b % 2 ^ 1 < 2 ^ 1 := Nat.mod_lt _ (Nat.two_pow_pos 1)
  have hsplit : setBit x i b = 2 ^ i * (2 ^ 1 * (x / 2 ^ (i + 1)) + b2n b % 2 ^ 1) + x % 2 ^ i := by
    rw [setBit, putBits]
    ring
  simp only [bitOf_eq_testBit]
  rw [hsplit, Nat.testBit_two_pow_mul_add _ hlow]
  obtain hji | rfl | hij := Nat.lt_trichotomy j i
  · rw [if_pos hji, if_neg (by omega), Nat.testBit_mod_two_pow]
    simp [hji]
  · rw [if_neg (by omega), if_pos rfl, Nat.sub_self, Nat.testBit_two_pow_mul_add _ hbit]
    cases b <;> rfl
  · rw [if_neg (by omega), if_neg (by omega), Nat.testBit_two_pow_mul_add _ hbit, if_neg (by omega),
      Nat.testBit_div_two_pow]
    congr 1
    omega

/-! ### Words and bits of a calendar entry (R69) -/

/-- A byte outside the stored word keeps its value. -/
theorem Dev.get_putMw_other (d : Dev) {a b : Nat} (v : Nat) (h : b < a ∨ a + 4 ≤ b) :
    Mem.get (d.putMw a v).mem b = Mem.get d.mem b :=
  Mem.get_write_other _ _ _ _ _ h

/-- Setting a bit of word 0 sets that bit alone. -/
theorem Dev.bitOf_entryBit {d : Dev} (h : d.Sound) (i bit : Nat) (v : Bool) {k : Nat} (hk : k < 32) :
    bitOf ((d.entryBit i bit v).mw (entryAddr i 0)) k = if k = bit then v else bitOf (d.mw (entryAddr i 0)) k := by
  rw [Dev.entryBit, Dev.mw_putMw_same h, bitOf_mod_two_pow hk, bitOf_setBit]

/-- A device with the same record memory has the same entries enabled. -/
theorem Dev.entryOn_congr {d e : Dev} (h : d.mem = e.mem) (i : Nat) : d.entryOn i = e.entryOn i := by
  rw [Dev.entryOn, Dev.entryOn, Dev.mw, Dev.mw, h]

/-- The words `l` of entry `i` stored one after another, word `w` from `f w` (CAL_WRITE). -/
def Dev.storeWords (d : Dev) (i : Nat) (f : Nat → Nat) (l : List Nat) : Dev :=
  d.each l (fun w d => d.putMw (entryAddr i w) (f w))

@[simp] theorem Dev.storeWords_regs (d : Dev) (i : Nat) (f : Nat → Nat) (l : List Nat) :
    (d.storeWords i f l).regs = d.regs := by
  induction l generalizing d with
  | nil => rfl
  | cons w l ih => exact ih (d.putMw (entryAddr i w) (f w))

@[simp] theorem Dev.storeWords_cal (d : Dev) (i : Nat) (f : Nat → Nat) (l : List Nat) :
    (d.storeWords i f l).cal = d.cal := by
  induction l generalizing d with
  | nil => rfl
  | cons w l ih => exact ih (d.putMw (entryAddr i w) (f w))

/-- A byte outside the words stored keeps its value. -/
theorem Dev.get_storeWords_other (d : Dev) (i : Nat) (f : Nat → Nat) {l : List Nat} {b : Nat}
    (h : ∀ w ∈ l, b < entryAddr i w ∨ entryAddr i w + 4 ≤ b) :
    Mem.get (d.storeWords i f l).mem b = Mem.get d.mem b := by
  induction l generalizing d with
  | nil => rfl
  | cons w l ih =>
    obtain ⟨hw, hl⟩ := List.forall_mem_cons.mp h
    exact (ih (d.putMw (entryAddr i w) (f w)) hl).trans (d.get_putMw_other (f w) hw)

/-- A word of the entry that is not among those stored keeps its value. -/
theorem Dev.mw_storeWords_other (d : Dev) (i : Nat) (f : Nat → Nat) {l : List Nat} {w : Nat} (h : w ∉ l) :
    (d.storeWords i f l).mw (entryAddr i w) = d.mw (entryAddr i w) := by
  refine Mem.read_congr _ _ fun b hlo hhi => d.get_storeWords_other i f fun v hv => ?_
  have hne : v ≠ w := fun e => h (e ▸ hv)
  unfold entryAddr at *
  omega

/-- Each word stored reads back. -/
theorem Dev.mw_storeWords_mem {d : Dev} (h : d.Sound) (i : Nat) (f : Nat → Nat) {l : List Nat} (hn : l.Nodup) :
    ∀ w ∈ l, (d.storeWords i f l).mw (entryAddr i w) = f w % 2 ^ 32 := by
  induction l generalizing d with
  | nil => exact fun w hw => absurd hw List.not_mem_nil
  | cons v l ih =>
    obtain ⟨hv, hl⟩ := List.nodup_cons.mp hn
    refine List.forall_mem_cons.mpr ⟨?_, ih (h.putMw (entryAddr i v) (f v)) hl⟩
    exact ((d.putMw (entryAddr i v) (f v)).mw_storeWords_other i f hv).trans (Dev.mw_putMw_same h _ _)

/-! ### Entries: writes and enabling (R69, R77, R81) -/

theorem Dev.entryWrite_of_on {d : Dev} {i w : Nat} (h : d.entryOn i = true) (hw : w ≠ 0) (v : Nat) :
    d.entryWrite i w v = d.w Reg.CAL_STAT_EDIT_REFUSED 1 := by
  unfold Dev.entryWrite
  rw [if_pos h, if_neg hw]
  rfl

/-- Word 0 of an enabled entry with ENABLE set again and FIRED not written changes nothing. -/
theorem Dev.entryWrite_word0_of_on {d : Dev} {i v : Nat} (h : d.entryOn i = true) (hf : bitOf v 30 = false)
    (he : bitOf v 31 = true) :
    d.entryWrite i 0 v = d := by
  simp [Dev.entryWrite, h, hf, he]

/-- Words 1 to 6 of a disabled entry are stored. -/
theorem Dev.entryWrite_of_off {d : Dev} {i w : Nat} (h : d.entryOn i = false) (h0 : w ≠ 0) (h7 : w ≠ 7) (v : Nat) :
    d.entryWrite i w v = d.putMw (entryAddr i w) v := by
  simp [Dev.entryWrite, h, h0, h7]

/-- Word 7 of a disabled entry is stored within its width. -/
theorem Dev.entryWrite_word7_of_off {d : Dev} {i : Nat} (h : d.entryOn i = false) (v : Nat) :
    d.entryWrite i 7 v = d.putMw (entryAddr i 7) (v % 2 ^ 24) := by
  simp [Dev.entryWrite, h]

/-- Word 0 of a disabled entry with ENABLE set: the fields are stored, then the checks decide (R81). -/
theorem Dev.entryWrite_enable_of_off {d : Dev} {i v : Nat} (h : d.entryOn i = false) (hf : bitOf v 30 = false)
    (he : bitOf v 31 = true) :
    d.entryWrite i 0 v =
      let e := d.putMw (entryAddr i 0) (d.mw (entryAddr i 0) % 2 ^ 31 / 2 ^ 28 * 2 ^ 28 + Nat.land v word0Mask)
      if e.entryRefused i then e.w Reg.CAL_STAT_BAD_ENABLE 1 else e.enableEntry i := by
  simp [Dev.entryWrite, h, hf, he, Dev.flag]

theorem exec_calEntryWrite_open {s : State} {path : Path} (h : s.dev.pathOpen path = true) (i : Fin 4096) (w : Fin 8)
    (v : Word) :
    exec (.calEntryWrite path i w v) s = onward s (s.dev.entryWrite i.val w.val v.toNat) := by
  show execCalEntryWrite path i w v s = _
  rw [execCalEntryWrite, ok_eq, Dev.access_plain h]
  rfl

theorem exec_calEntryEnableWrite_open {s : State} {path : Path} (h : s.dev.pathOpen path = true) (i : Fin 4096)
    (v : Word) :
    exec (.calEntryEnableWrite path i v) s = onward s (s.dev.entryWrite i.val 0 (setBit v.toNat 31 true)) := by
  show execCalEntryEnableWrite path i v s = _
  rw [execCalEntryEnableWrite, ok_eq, Dev.access_plain h]
  rfl

/-- Enabling an entry changes the record memory in word 0 alone: ENABLE is set and ARMED cleared. -/
theorem Dev.enableEntry_mem (d : Dev) (i : Nat) :
    (d.enableEntry i).mem = ((d.entryBit i 31 true).entryBit i 28 false).mem := by
  unfold Dev.enableEntry Dev.countEnabled
  dsimp only
  split <;> rfl

theorem mem_insertBy {α : Type} (key : α → Nat) (x : α) (l : List α) : x ∈ insertBy key x l := by
  induction l with
  | nil => exact List.mem_singleton_self x
  | cons y l ih =>
    unfold insertBy
    split
    · exact List.mem_cons_self
    · exact List.mem_cons_of_mem y ih

theorem Dev.entryOn_enableEntry {d : Dev} (h : d.Sound) (i : Nat) : (d.enableEntry i).entryOn i = true := by
  have hset := Dev.entryBit_sound d i 31 true h
  rw [Dev.entryOn_congr (d.enableEntry_mem i), Dev.entryOn, Dev.bitOf_entryBit hset _ _ _ (by omega), if_neg (by omega),
    Dev.bitOf_entryBit h _ _ _ (by omega), if_pos rfl]

/-- An entry that is enabled is among those evaluated, whether or not it was there before. -/
theorem Dev.mem_enabled_enableEntry (d : Dev) (i : Nat) : i ∈ (d.enableEntry i).cal.enabled := by
  have hon : (d.enableEntry i).cal.enabled =
      if d.cal.enabled.contains i then d.cal.enabled else insertBy id i d.cal.enabled := by
    unfold Dev.enableEntry Dev.countEnabled
    dsimp only
    split <;> rfl
  rw [hon]
  split
  · exact List.contains_iff_mem.mp ‹_›
  · exact mem_insertBy id i _

/-! ### COORD_CFG (R53) -/

/-- A KIND, VEL_SPAN or HOLD out of range only sets BAD_CFG. -/
theorem Dev.coordCfgWrite_of_bad {d : Dev} {v : Nat} (h : 6 ≤ v % 8 ∨ 8 < bits v 26 4 ∨ 16 < bits v 21 5) (g : Grade)
    (n : Nat) :
    d.coordCfgWrite g n v = d.w (Reg.COORD_STAT_BAD_CFG n) 1 := by
  unfold Dev.coordCfgWrite
  rw [if_pos]
  · rfl
  · obtain h | h | h := h <;> simp [h]

theorem exec_coordCfgWrite_open {s : State} {path : Path} (h : s.dev.pathOpen path = true) (n : Fin 8) (v : Word) :
    exec (.coordCfgWrite path n v) s = onward s (s.dev.coordCfgWrite s.grade n.val v.toNat) := by
  show execCoordCfgWrite path n v s = _
  rw [execCoordCfgWrite, ok_eq, Dev.access_plain h]
  rfl

/-- The device once a write of COORD_CFG with ENABLE 0 is taken: the fields are stored and the coordinate shows no state. -/
def Dev.coordDisabled (d : Dev) (n v : Nat) : Dev :=
  (((((((d.wb (Reg.COORD_CFG_ENABLE n) false).w (Reg.COORD_CFG_PRED_EN n) (bits v 30 1)).w (Reg.COORD_CFG_VEL_SPAN n)
    (bits v 26 4)).w (Reg.COORD_CFG_HOLD n) (bits v 21 5)).w (Reg.COORD_CFG_KIND n) (v % 8)).setCoord n (d.coord n)).wb
      (Reg.COORD_STAT_VALID n) false).wb (Reg.COORD_STAT_EXTRAP n) false |>.wb (Reg.COORD_STAT_LOST n) false

/-- A write in range with ENABLE 0 is taken. -/
theorem Dev.coordCfgWrite_of_off {d : Dev} {v : Nat} (hk : v % 8 < 6) (hs : bits v 26 4 ≤ 8) (hh : bits v 21 5 ≤ 16)
    (hon : bitOf v 31 = false) (g : Grade) (n : Nat) :
    d.coordCfgWrite g n v = d.coordDisabled n v := by
  unfold Dev.coordCfgWrite
  rw [hon, if_neg (by simp [Nat.not_le.mpr hk, Nat.not_lt.mpr hs, Nat.not_lt.mpr hh])]
  rfl

@[simp] theorem Dev.setCoord_r (d : Dev) (n : Nat) (x : Coord) (f : Field) : (d.setCoord n x).r f = d.r f := rfl
@[simp] theorem Dev.setCoord_regs (d : Dev) (n : Nat) (x : Coord) : (d.setCoord n x).regs = d.regs := rfl

/-- COORD_CFG and COORD_STAT of a coordinate that a write has disabled. -/
theorem Dev.coordDisabled_fields {d : Dev} (h : d.Sound) (n v : Nat) :
    (d.coordDisabled n v).b (Reg.COORD_CFG_ENABLE n) = false ∧ (d.coordDisabled n v).r (Reg.COORD_CFG_KIND n) = v % 8 ∧
      (d.coordDisabled n v).r (Reg.COORD_CFG_HOLD n) = bits v 21 5 ∧
      (d.coordDisabled n v).b (Reg.COORD_STAT_VALID n) = false := by
  simp (disch := simp only [Field.key, Reg.COORD_CFG_ENABLE, Reg.COORD_CFG_KIND, Reg.COORD_CFG_HOLD, Reg.COORD_CFG_PRED_EN,
      Reg.COORD_CFG_VEL_SPAN, Reg.COORD_STAT_VALID, Reg.COORD_STAT_EXTRAP, Reg.COORD_STAT_LOST]; omega)
    only [Dev.coordDisabled, Dev.b, Dev.wb, Dev.r_w_other, Dev.setCoord_r]
  have hcfg := (((h.w (Reg.COORD_CFG_ENABLE n) (b2n false)).w (Reg.COORD_CFG_PRED_EN n) (bits v 30 1)).w
    (Reg.COORD_CFG_VEL_SPAN n) (bits v 26 4))
  have hhold := hcfg.w (Reg.COORD_CFG_HOLD n) (bits v 21 5)
  have hkind := hhold.w (Reg.COORD_CFG_KIND n) (v % 8)
  have hset := Dev.setCoord_sound _ n (d.coord n) hkind
  rw [Dev.r_w_same h.regs, Dev.r_w_same hhold.regs, Dev.r_w_same hcfg.regs, Dev.r_w_same hset.regs]
  exact ⟨rfl, Nat.mod_mod v 8, Nat.mod_mod _ _, rfl⟩

/-! ### Calendar and coordinate commands (R80, R81) -/

@[simp] theorem Dev.taken_coord (d : Dev) (p : Packet) (op n : Nat) : (d.taken p op).coord n = d.coord n := by
  simp [Dev.coord]

@[simp] theorem Dev.taken_coordStatWord (d : Dev) (p : Packet) (op n : Nat) :
    (d.taken p op).coordStatWord n = d.coordStatWord n := by
  simp [Dev.coordStatWord]

@[simp] theorem Dev.taken_entryOn (d : Dev) (p : Packet) (op i : Nat) : (d.taken p op).entryOn i = d.entryOn i := by
  simp [Dev.entryOn]

theorem Dev.Sound.taken {d : Dev} (h : d.Sound) (p : Packet) (op : Nat) : (d.taken p op).Sound :=
  Dev.takeWords_sound d p op h

/-- The parameter words after the first. -/
theorem Packet.getD_drop_one (p : Packet) (w : Nat) : ((p.params.map BitVec.toNat).drop 1).getD w 0 = p.arg (w + 1) := by
  rw [Packet.arg, List.getD_eq_getElem?_getD, List.getD_eq_getElem?_getD, List.getElem?_drop, Nat.add_comm 1 w]

theorem exec_coordRead_ready {s : State} {p : Packet} (h : s.dev.Ready p 0x360 1 false) (hn : p.arg 0 < 8) :
    exec (.coordRead p) s = replied s p 0x360 (s.dev.taken p 0x360)
      (.ok [loW (s.dev.r (Reg.COORD_VAL (p.arg 0))), hiW (s.dev.r (Reg.COORD_VAL (p.arg 0))),
        loW (s.dev.r (Reg.COORD_VEL (p.arg 0))), hiW (s.dev.r (Reg.COORD_VEL (p.arg 0))), s.dev.coordStatWord (p.arg 0),
        loW (s.dev.coord (p.arg 0)).sampleEpoch, hiW (s.dev.coord (p.arg 0)).sampleEpoch]) := by
  show execCoordRead p s = _
  refine ok_runPacket_short_of_ready h ((if_neg (Nat.not_le.mpr hn)).trans ?_)
  simp [Packet.arg]

theorem Dev.coordPreset_eq {d : Dev} {n : Nat} (hn : n < 8) (v : Int) :
    d.coordPreset n v =
      if (d.coord n).presetNew.isSome ∨ (d.coord n).presetDue.isSome then (d, .busy)
      else
        let e := if d.b (Reg.COORD_CFG_ENABLE n) then d.r Reg.EPK_NOW + 1 else noEpoch
        (d.setCoord n { d.coord n with presetNew := some v }, .ok [loW e, hiW e]) := by
  unfold Dev.coordPreset
  rw [if_neg (Nat.not_le.mpr hn)]
  simp only [Bool.or_eq_true]

theorem exec_coordPreset_ready {s : State} {p : Packet} (h : s.dev.Ready p 0x361 3 false) :
    exec (.coordPreset p) s = replied s p 0x361
      ((s.dev.taken p 0x361).coordPreset (p.arg 0) (sx 64 (pair64 (p.arg 1) (p.arg 2)))).1
      ((s.dev.taken p 0x361).coordPreset (p.arg 0) (sx 64 (pair64 (p.arg 1) (p.arg 2)))).2 := by
  show execCoordPreset p s = _
  exact ok_runPacket_short_of_ready h rfl

/-- The device once CAL_WRITE has stored the words `ws` of entry `i`. -/
def Dev.entryStored (d : Dev) (i : Nat) (ws : List Nat) : Dev :=
  ((d.putMw (entryAddr i 0) (d.mw (entryAddr i 0) / 2 ^ 28 * 2 ^ 28 + Nat.land (ws.getD 0 0) word0Mask)).storeWords i
    (fun w => ws.getD w 0) [1, 2, 3, 4, 5, 6]).putMw (entryAddr i 7) (ws.getD 7 0 % 2 ^ 24)

theorem Dev.calWrite_of_on {d : Dev} {i : Nat} (hi : i < 4096) (h : d.entryOn i = true) (ws : List Nat) :
    d.calWrite i ws = (d, .busy) := by
  unfold Dev.calWrite
  rw [if_neg (Nat.not_le.mpr hi), if_pos h]

theorem Dev.calWrite_of_off {d : Dev} {i : Nat} (hi : i < 4096) (h : d.entryOn i = false) (ws : List Nat) :
    d.calWrite i ws = (d.entryStored i ws, .ok []) := by
  unfold Dev.calWrite Dev.entryStored Dev.storeWords
  rw [if_neg (Nat.not_le.mpr hi), if_neg (by simp [h])]

/-- CAL_WRITE touches neither the registers nor the calendar's state. -/
theorem Dev.entryStored_frame (d : Dev) (i : Nat) (ws : List Nat) :
    (d.entryStored i ws).regs = d.regs ∧ (d.entryStored i ws).cal = d.cal := by
  unfold Dev.entryStored
  rw [Dev.putMw_regs, Dev.storeWords_regs, Dev.putMw_regs, Dev.putMw_cal, Dev.storeWords_cal, Dev.putMw_cal]
  exact ⟨rfl, rfl⟩

/-- Words 1 to 6 of the entry read back as they were written. -/
theorem Dev.mw_entryStored {d : Dev} (h : d.Sound) (i : Nat) (ws : List Nat) :
    ∀ w ∈ [1, 2, 3, 4, 5, 6], (d.entryStored i ws).mw (entryAddr i w) = ws.getD w 0 % 2 ^ 32 := by
  intro w hw
  have h7 : entryAddr i w + 4 ≤ entryAddr i 7 := by
    unfold entryAddr
    simp at hw
    omega
  rw [Dev.entryStored, Dev.mw_putMw_other _ _ (.inl h7)]
  exact Dev.mw_storeWords_mem (h.putMw _ _) i _ (by decide) w hw

/-- A byte outside the entry keeps its value. -/
theorem Dev.get_entryStored_other (d : Dev) {i a : Nat} (ws : List Nat) (h : a < entryAddr i 0 ∨ entryAddr i 0 + 32 ≤ a) :
    Mem.get (d.entryStored i ws).mem a = Mem.get d.mem a := by
  have hout : ∀ w ≤ 7, a < entryAddr i w ∨ entryAddr i w + 4 ≤ a := by
    intro w hw
    unfold entryAddr at *
    omega
  rw [Dev.entryStored, Dev.get_putMw_other _ _ (hout 7 (by omega)),
    Dev.get_storeWords_other _ _ _ (fun w hw => hout w (by simp at hw; omega)), Dev.get_putMw_other _ _ (hout 0 (by omega))]

theorem exec_calWrite_ready {s : State} {p : Packet} (h : s.dev.Ready p 0x362 9 false) :
    exec (.calWrite p) s = replied s p 0x362
      ((s.dev.taken p 0x362).calWrite (p.arg 0) ((p.params.map BitVec.toNat).drop 1)).1
      ((s.dev.taken p 0x362).calWrite (p.arg 0) ((p.params.map BitVec.toNat).drop 1)).2 := by
  show execCalWrite p s = _
  exact ok_runPacket_short_of_ready h rfl

theorem rangeBad_of_inside {i n lim total : Nat} (hi : i < total) (h1 : 1 ≤ n) (hl : n ≤ lim) (hn : i + n ≤ total) :
    rangeBad i n lim total = none := by
  unfold rangeBad
  rw [if_neg (by omega), if_neg (by omega), if_neg (by omega)]

theorem exec_calRead_ready {s : State} {p : Packet} (h : s.dev.Ready p 0x363 2 false)
    (hlen : 3 + 8 * p.arg 1 ≤ replyLimit p.origin) (hr : rangeBad (p.arg 0) (p.arg 1) 32 4096 = none) :
    exec (.calRead p) s = replied s p 0x363 (s.dev.taken p 0x363)
      (.ok (Mem.words s.dev.mem (entryAddr (p.arg 0) 0) (8 * p.arg 1))) := by
  show execCalRead p s = _
  refine ok_runPacket_of_ready h hlen ?_
  show (match rangeBad (p.arg 0) (p.arg 1) 32 4096 with
    | some w => (s.dev.taken p 0x363, Res.badParam w)
    | none => (s.dev.taken p 0x363, Res.ok (Mem.words (s.dev.taken p 0x363).mem (entryAddr (p.arg 0) 0) (8 * p.arg 1)))) = _
  rw [hr, Dev.taken_mem]

/-- CAL_ENABLE with 0 disables the entries of the range that are enabled. -/
theorem Dev.calEnable_zero {d : Dev} {i n : Nat} (hr : rangeBad i n 4096 4096 = none) :
    d.calEnable i n 0 =
      (d.each (((List.range n).map (· + i)).filter d.entryOn) (fun j d => d.disableEntry j), .ok [0xFFFF_FFFF]) := by
  unfold Dev.calEnable
  rw [hr]
  rfl

/-- CAL_ENABLE with 1 enables every entry of the range, or none when one is refused. -/
theorem Dev.calEnable_one {d : Dev} {i n : Nat} (hr : rangeBad i n 4096 4096 = none) :
    d.calEnable i n 1 =
      match ((List.range n).map (· + i)).find? d.entryRefused with
      | some j => (d.w Reg.CAL_STAT_BAD_ENABLE 1, ⟨4, 0, [j]⟩)
      | none => (d.each (((List.range n).map (· + i)).filter (fun j => !d.entryOn j)) (fun j d => d.enableEntry j),
          .ok [0xFFFF_FFFF]) := by
  unfold Dev.calEnable
  rw [hr]
  rfl

theorem exec_calEnable_ready {s : State} {p : Packet} (h : s.dev.Ready p 0x364 3 false) :
    exec (.calEnable p) s = replied s p 0x364
      ((s.dev.taken p 0x364).calEnable (p.arg 0) (p.arg 1) (p.arg 2)).1
      ((s.dev.taken p 0x364).calEnable (p.arg 0) (p.arg 1) (p.arg 2)).2 := by
  show execCalEnable p s = _
  exact ok_runPacket_of_ready h (le_replyLimit (by omega) p.origin) rfl

theorem exec_calCounters_ready {s : State} {p : Packet} (h : s.dev.Ready p 0x365 0 false) :
    exec (.calCounters p) s = replied s p 0x365 (s.dev.taken p 0x365)
      (.ok [s.dev.r Reg.CAL_RETRACTED, s.dev.r Reg.CAL_LATE_CNT, s.dev.r Reg.CAL_OVF_CNT, s.dev.r Reg.CAL_CONFLICT_CNT,
        s.dev.r Reg.CAL_FIRED_CNT, s.dev.r Reg.CAL_ENABLED]) := by
  show execCalCounters p s = _
  exact ok_runPacket_short_of_ready h (by simp)

/-- Settles O20: writes by the state of the entry or by the range of the fields, commands by their laws on the device without
the packet's words. -/
theorem calendarEntriesAndCommands : Obligations.CalendarEntriesAndCommands := by
  unfold Obligations.CalendarEntriesAndCommands
  refine ⟨fun s path i w v ho => ⟨fun hon hw => ?_, fun hoff h1 h6 => ?_, fun hoff => ?_, fun hon _ hf => ?_,
      fun hoff hf => ?_⟩,
    fun d i h => ⟨Dev.entryOn_enableEntry h i, d.mem_enabled_enableEntry i⟩, fun s path n v ho h => ?_,
    fun s path n v ho hs hk hv hh hon => ?_,
    fun s p => ⟨exec_coordRead_ready, fun h hn => ?_, fun h hi => ⟨fun hon => ?_, fun hoff => ?_⟩,
      fun h hlen hi h1 h32 hn => exec_calRead_ready h hlen (rangeBad_of_inside hi h1 h32 hn),
      fun h hi h1 hn => ⟨fun h0 => ?_, fun hone => ?_⟩, exec_calCounters_ready⟩⟩
  · rw [exec_calEntryWrite_open ho, Dev.entryWrite_of_on hon (fun h0 => hw (Fin.ext h0))]
  · rw [exec_calEntryWrite_open ho, Dev.entryWrite_of_off hoff (by omega) (by omega)]
    rfl
  · rw [exec_calEntryWrite_open ho]
    exact congrArg (onward s) (Dev.entryWrite_word7_of_off hoff v.toNat)
  · rw [exec_calEntryEnableWrite_open ho, Dev.entryWrite_word0_of_on hon hf (by rw [bitOf_setBit, if_pos rfl])]
  · rw [exec_calEntryEnableWrite_open ho, Dev.entryWrite_enable_of_off hoff hf (by rw [bitOf_setBit, if_pos rfl])]
    rfl
  · rw [exec_coordCfgWrite_open ho, Dev.coordCfgWrite_of_bad h]
  · obtain ⟨hen, hkind, hhold, hvalid⟩ := Dev.coordDisabled_fields hs n.val v.toNat
    exact ⟨_, (exec_coordCfgWrite_open ho n v).trans (congrArg (onward s) (Dev.coordCfgWrite_of_off hk hv hh hon _ _)),
      hen, hkind, hhold, hvalid, rfl, rfl, rfl⟩
  · dsimp only
    rw [exec_coordPreset_ready h, Dev.coordPreset_eq hn, Dev.taken_coord, Dev.taken_b, Dev.taken_r]
    split <;> rfl
  · rw [exec_calWrite_ready h, Dev.calWrite_of_on hi (by rw [Dev.taken_entryOn, hon])]
  · rw [exec_calWrite_ready h, Dev.calWrite_of_off hi (by rw [Dev.taken_entryOn, hoff])]
    obtain ⟨hregs, hcal⟩ := (s.dev.taken p 0x362).entryStored_frame (p.arg 0) ((p.params.map BitVec.toNat).drop 1)
    refine ⟨_, rfl, hregs.trans (s.dev.taken_regs p 0x362), hcal.trans (s.dev.taken_cal p 0x362), fun hs w hw => ?_,
      fun a ha => ?_⟩
    · rw [← Packet.getD_drop_one]
      exact Dev.mw_entryStored (hs.taken p 0x362) _ _ w hw
    · exact (Dev.get_entryStored_other _ _ ha).trans (by rw [Dev.taken_mem])
  · rw [exec_calEnable_ready h, h0, Dev.calEnable_zero (rangeBad_of_inside hi h1 (by omega) hn)]
  · rw [exec_calEnable_ready h, hone, Dev.calEnable_one (rangeBad_of_inside hi h1 (by omega) hn)]
    cases hfind : ((List.range (p.arg 1)).map (· + p.arg 0)).find? (s.dev.taken p 0x364).entryRefused with
    | none => rfl
    | some j => rfl

/-! ### The latch of the coordinates (R54, R61) -/

@[simp] theorem Dev.wb_coord (d : Dev) (f : Field) (v : Bool) (n : Nat) : (d.wb f v).coord n = d.coord n := rfl
@[simp] theorem Dev.showCoord_coord (d : Dev) (n k : Nat) : (d.showCoord n).coord k = d.coord k := rfl
@[simp] theorem Dev.showCoord_mem (d : Dev) (n : Nat) : (d.showCoord n).mem = d.mem := rfl
@[simp] theorem Dev.showCoord_host (d : Dev) (n : Nat) : (d.showCoord n).host = d.host := rfl
@[simp] theorem Dev.setCoord_mem (d : Dev) (n : Nat) (x : Coord) : (d.setCoord n x).mem = d.mem := rfl
@[simp] theorem Dev.setCoord_host (d : Dev) (n : Nat) (x : Coord) : (d.setCoord n x).host = d.host := rfl

@[simp] theorem Dev.setCoord_coord_same (d : Dev) (n : Nat) (x : Coord) : (d.setCoord n x).coord n = x := by
  unfold Dev.setCoord Dev.coord
  exact Tab.look_put_same _ n x _

/-- With no preset due at this boundary none is applied. -/
theorem Dev.applyPreset_of_none {d : Dev} {n : Nat} (h : (d.coord n).presetDue = none) : d.applyPreset n = d := by
  unfold Dev.applyPreset
  dsimp only
  rw [h]

/-- The device once coordinate `n`, not LOST, has taken a real sample as its state `c`: VALID from its second sample on. -/
def Dev.coordSampled (d : Dev) (n : Nat) (c : Coord) : Dev :=
  let e := (d.setCoord n c).wb (Reg.COORD_STAT_EXTRAP n) false
  if c.taken ≥ 2 then e.wb (Reg.COORD_STAT_VALID n) true else e

/-- A sample reaches the coordinate itself, and neither the record memory nor the host's queues. -/
theorem Dev.coordSampled_frame (d : Dev) (n : Nat) (c : Coord) :
    (d.coordSampled n c).coord n = c ∧ (d.coordSampled n c).mem = d.mem ∧ (d.coordSampled n c).host = d.host := by
  unfold Dev.coordSampled
  dsimp only
  split <;> simp

/-- COORD_SAMPLE: an enabled coordinate that is not LOST and has a real product takes the product plus its offset. -/
theorem Dev.latchCoord_of_product {d : Dev} {n : Nat} {c : Coord} {prod : Int} (hen : d.b (Reg.COORD_CFG_ENABLE n) = true)
    (hlost : d.b (Reg.COORD_STAT_LOST n) = false) (hkind : d.r (Reg.COORD_CFG_KIND n) ≠ 5)
    (hprod : d.coordProduct n { d.coord n with presetNow := false, sampleEpoch := d.r Reg.EPK_NOW } = some (c, prod))
    (hgap : c.gap = false) (hdue : c.presetDue = none) :
    d.latchCoord n =
      (d.coordSampled n { c.take (reduceC (d.modulus n) (prod + c.offset)) with missRun := 0 }).showCoord n := by
  have hnone (s : Int) : ((d.coordSampled n { c.take s with missRun := 0 }).coord n).presetDue = none := by
    rw [(d.coordSampled_frame n _).1]
    exact hdue
  unfold Dev.latchCoord
  dsimp only at hprod ⊢
  rw [hen, hlost, hprod]
  simp only [hgap, hkind, Bool.not_true, Bool.false_eq_true, if_false]
  exact congrArg (Dev.showCoord · n) (Dev.applyPreset_of_none (hnone _))

theorem exec_calendarLatch_still {s : State} (h : s.dev.enginesStill = true) :
    exec .calendarLatch s = onward s s.dev := by
  show execCalendarLatch s = _
  rw [execCalendarLatch, ok_eq, h]
  rfl

theorem exec_calendarLatch_running {s : State} (h : s.dev.enginesStill = false) :
    exec .calendarLatch s = onward s (s.dev.latchCoord 0 |>.latchCoord 1 |>.latchCoord 2 |>.latchCoord 3 |>.latchCoord 4
      |>.latchCoord 5 |>.latchCoord 6 |>.latchCoord 7) := by
  show execCalendarLatch s = _
  simp only [execCalendarLatch, ok_eq, h, Dev.each, List.foldl_cons, List.foldl_nil, Bool.false_eq_true, if_false]
  rfl

/-! ### The evaluation of the calendar (R61, R75, R78) -/

theorem Dev.calendarEvaluate_of_still {d : Dev} (h : d.enginesStill = true) : d.calendarEvaluate = d := by
  unfold Dev.calendarEvaluate
  rw [if_pos h]

/-- What CALENDAR_EVALUATION does once the switches of entries disabled meanwhile are retracted. -/
def Dev.evaluateEvents (d : Dev) : Dev :=
  if d.cal.stopping then
    let d := d.each (d.cal.switches.filter (·.occurred)) (fun w d => d.retract w)
    let d := d.each d.cal.switches (fun w d => d.dropSwitch w)
    ({ d with cal := { d.cal with stopping := false } }).publishCalendar
  else if !d.cal.run then d.publishCalendar
  else
    let x := d.cal.enabled.foldl evalEvent (d, {})
    (if x.2.conflict then (x.1.inc Reg.CAL_CONFLICT_CNT).flag Reg.CAL_STAT_CONFLICT else x.1).publishCalendar

/-- With no orphan left over, the evaluation is that of the events. -/
theorem Dev.calendarEvaluate_of_no_orphans {d : Dev} (h : d.enginesStill = false) (ho : d.cal.orphans = []) :
    d.calendarEvaluate = d.evaluateEvents := by
  have hd : { d with cal := { d.cal with orphans := [] } } = d := by rw [← ho]
  have heval : d.calendarEvaluate =
      (let e := d.each d.cal.orphans (fun w d => d.retract w)
       Dev.evaluateEvents { e with cal := { e.cal with orphans := [] } }) := by
    unfold Dev.calendarEvaluate
    rw [if_neg (by simp [h])]
    rfl
  rw [heval, ho]
  exact congrArg Dev.evaluateEvents hd

/-- With RUN 0 the calendar only publishes. -/
theorem Dev.evaluateEvents_of_idle {d : Dev} (hs : d.cal.stopping = false) (hr : d.cal.run = false) :
    d.evaluateEvents = d.publishCalendar := by
  unfold Dev.evaluateEvents
  rw [if_neg (by simp [hs]), if_pos (by simp [hr])]

/-- While the calendar runs, the enabled entries are evaluated in their order and one conflict is counted. -/
theorem Dev.evaluateEvents_of_run {d : Dev} (hs : d.cal.stopping = false) (hr : d.cal.run = true) :
    d.evaluateEvents =
      let x := d.cal.enabled.foldl evalEvent (d, { acted := [], conflict := false })
      if x.2.conflict then ((x.1.inc Reg.CAL_CONFLICT_CNT).w Reg.CAL_STAT_CONFLICT 1).publishCalendar
      else x.1.publishCalendar := by
  unfold Dev.evaluateEvents
  rw [if_neg (by simp [hs]), if_neg (by simp [hr])]
  dsimp only
  rw [apply_ite Dev.publishCalendar]
  rfl

/-! ### A CROSS event that fires at the evaluation (R62, R71, R612) -/

/-- The device on which an armed CROSS event that has been evaluated before is decided: still armed, its memory kept. -/
def Dev.crossArmed (d : Dev) (i : Nat) (em : EventMem) : Dev :=
  let e := d.entryBit i 28 true
  { e with cal := { e.cal with events := Tab.put i em e.cal.events } }

@[simp] theorem Dev.crossArmed_regs (d : Dev) (i : Nat) (em : EventMem) : (d.crossArmed i em).regs = d.regs := rfl
@[simp] theorem Dev.crossArmed_fio (d : Dev) (i : Nat) (em : EventMem) : (d.crossArmed i em).fio = d.fio := rfl

/-- Whether an event is predicted follows from the registers. -/
theorem Dev.predicts_congr {d f : Dev} (h : d.regs = f.regs) (e : Entry) : d.predicts e = f.predicts e := by
  simp only [Dev.predicts, Dev.b, Dev.r, h]

/-- A firing without an action marks the event and moves on its crossing. -/
theorem evalFire_of_no_action {e : Entry} (hk : e.kind = 0) (ha : e.action = 0) (x : Dev × EvalAcc) (i : Nat) (lv now : Bool) :
    evalFire x i e lv now = ((x.1.markFired i).afterCross i e, x.2) := by
  simp [evalFire, Dev.fireAction, hk, ha]

/-- An armed CROSS event that needs no prediction fires at once when the last two samples show its crossing. -/
theorem evalCross_of_shown {d : Dev} {a : EvalAcc} {i : Nat} {e : Entry} {c : Coord} {m : Nat} {em : EventMem}
    (harm : bitOf (d.mw (entryAddr i 0)) 28 = true) (hpre : c.presetNow = false) (hseen : em.seen = true)
    (hshown : crossShown m e c = true) (hsw : d.cal.switches = []) (hpred : d.predicts e = false) :
    evalCross (d, a) i e c m em true = evalFire (d.crossArmed i em, a) i e e.level true := by
  obtain ⟨seen, inside, away⟩ := em
  obtain rfl : seen = true := hseen
  have hfind : d.cal.switches.find? (fun w => w.event == i) = none := by rw [hsw, List.find?_nil]
  have hnot : ¬ (d.crossArmed i ⟨true, inside, away⟩).predicts e = true := by
    rw [Dev.predicts_congr (d.crossArmed_regs i _), hpred]
    exact Bool.false_ne_true
  simp only [evalCross, Dev.entryBit, Dev.putMw_cal, harm, hpre, hshown, hfind, Bool.not_true, Bool.not_false, Bool.or_false,
    Bool.and_true, Bool.false_and, Bool.and_false, Bool.false_eq_true, if_false, if_true]
  exact congrArg (fun f => evalFire (f, a) i e e.level true) (if_neg hnot)

/-- An enabled CROSS event of a valid coordinate is evaluated as such. -/
theorem evalEvent_of_cross {d : Dev} {i : Nat} (hon : d.entryOn i = true) (hk : (d.entry i).kind = 0)
    (hv : d.b (Reg.COORD_STAT_VALID (d.entry i).coord) = true) (a : EvalAcc) :
    evalEvent (d, a) i = evalCross (d, a) i (d.entry i) (d.coord (d.entry i).coord) (d.modulus (d.entry i).coord)
      (Tab.look {} i d.cal.events) (d.qualified (d.entry i)) := by
  simp [evalEvent, hon, hk, hv]

/-! ### Scheduled switches (R63, R75, R473) -/

/-- Actions that each keep a field keep it together. -/
theorem Dev.r_each {α : Type} {f : Field} {act : α → Dev → Dev} (h : ∀ x d, (act x d).r f = d.r f) (d : Dev)
    (l : List α) :
    (d.each l act).r f = d.r f := by
  induction l generalizing d with
  | nil => rfl
  | cons x l ih => exact (ih (act x d)).trans (h x d)

/-- A field below the block of the field I/O is none of those that its operations write. -/
theorem Dev.r_w_fio (d : Dev) {f g : Field} (hf : f.key < 0xC0_0000 * 32) (hg : 0xC0_0000 ≤ g.addr) (v : Nat) :
    (d.w g v).r f = d.r f := by
  refine d.r_w_other ?_ v
  unfold Field.key at *
  omega

theorem Dev.r_showGroup (d : Dev) (g : Nat) {f : Field} (hf : f.key < 0xC0_0000 * 32) : (d.showGroup g).r f = d.r f := by
  have haddr : 0xC0_0000 ≤ 0xC0_1004 + 0x100 * g := by omega
  unfold Dev.showGroup Dev.wb
  dsimp only
  rw [Dev.r_w_fio _ hf haddr, Dev.r_w_fio _ hf haddr, Dev.r_w_fio _ hf haddr]

/-- Driving the outputs of a group writes no register below the block of the field I/O. -/
theorem Dev.r_driveGroup (d : Dev) (g : Nat) {f : Field} (hf : f.key < 0xC0_0000 * 32) : (d.driveGroup g).r f = d.r f := by
  unfold Dev.driveGroup
  refine (Dev.r_showGroup _ g hf).trans (Dev.r_each (fun o d => ?_) d _)
  have haddr : 0xC0_0000 ≤ 0xC0_3008 + 0x10 * o := by omega
  dsimp only
  split
  · rfl
  · unfold Dev.wb
    rw [Dev.r_w_fio _ hf haddr, Dev.r_w_fio _ hf haddr, Dev.r_w_fio _ hf (by decide), Dev.r_w_fio _ hf (by decide)]

theorem Dev.r_calendarOutput (d : Dev) (o : Nat) (lv : Bool) {f : Field} (hf : f.key < 0xC0_0000 * 32) :
    (d.calendarOutput o lv).r f = d.r f :=
  Dev.r_driveGroup _ _ hf

theorem Dev.boundaryNs_calendarOutput (d : Dev) (o : Nat) (lv : Bool) : (d.calendarOutput o lv).boundaryNs = d.boundaryNs := by
  unfold Dev.boundaryNs Dev.te
  rw [Dev.r_calendarOutput _ _ _ (by decide), Dev.r_calendarOutput _ _ _ (by decide), Dev.r_calendarOutput _ _ _ (by decide)]

/-- With every scheduled switch made already nothing changes. -/
theorem Dev.switchInstant_of_none_due {d : Dev} (h : ∀ w ∈ d.cal.switches, w.occurred = true) : d.switchInstant = d := by
  have hdue : d.cal.switches.filter (fun w => !w.occurred) = [] := List.filter_eq_nil_iff.mpr fun w hw => by simp [h w hw]
  unfold Dev.switchInstant
  dsimp only
  rw [hdue]
  rfl

/-- The one switch that is due, of an output, after the boundary: the output takes its level and the switch has occurred. -/
theorem Dev.switchInstant_of_one {d : Dev} {w : Switch} (hw : d.cal.switches = [w]) (ho : w.occurred = false)
    (ha : (d.entry w.event).action = 1) (hb : d.boundaryNs < w.instant) :
    d.switchInstant =
      let e := d.calendarOutput ((d.entry w.event).target % 32) w.level
      { e with cal := { e.cal with
        switches := e.cal.switches.map (fun y => if y.instant == w.instant then { y with occurred := true } else y) } } := by
  have hlate : ¬ w.instant ≤ (d.calendarOutput ((d.entry w.event).target % 32) w.level).boundaryNs := by
    rw [Dev.boundaryNs_calendarOutput]
    omega
  have hdue : d.cal.switches.filter (fun w => !w.occurred) = [w] := by simp [hw, ho]
  have hkeys (k : Nat) : [k].eraseDups = [k] := rfl
  unfold Dev.switchInstant
  simp only [hdue, List.foldl_cons, List.foldl_nil]
  simp [Dev.each, sortBy, insertBy, ha, hlate, Dev.setCalLevel, hkeys]

/-- Settles O21: latch, evaluation and switch by their laws; the event that fires is an armed CROSS event whose crossing
shows. -/
theorem calendarLatchAndEvaluation : Obligations.CalendarLatchAndEvaluation := by
  unfold Obligations.CalendarLatchAndEvaluation
  refine ⟨fun s => ⟨fun hstill => ⟨exec_calendarLatch_still hstill, ?_⟩,
      fun hrun => ⟨exec_calendarLatch_running hrun, ?_, ?_⟩,
      fun h => congrArg (onward s) (Dev.switchInstant_of_none_due h),
      fun w hw ho ha hb => congrArg (onward s) (Dev.switchInstant_of_one hw ho ha hb)⟩,
    fun d n c prod hen hlost hkind hprod hgap hdue => ?_,
    fun d i hon hk hv harm hq hpre hseen hshown hsw ha hpred => ?_⟩
  · exact congrArg (onward s) (Dev.calendarEvaluate_of_still hstill)
  · exact fun ho hs hr => congrArg (onward s)
      ((Dev.calendarEvaluate_of_no_orphans hrun ho).trans (Dev.evaluateEvents_of_idle hs hr))
  · exact fun ho hs hr => congrArg (onward s)
      ((Dev.calendarEvaluate_of_no_orphans hrun ho).trans (Dev.evaluateEvents_of_run hs hr))
  · obtain ⟨hcoord, hmem, hhost⟩ :=
      d.coordSampled_frame n { c.take (reduceC (d.modulus n) (prod + c.offset)) with missRun := 0 }
    rw [Dev.latchCoord_of_product hen hlost hkind hprod hgap hdue, Dev.showCoord_coord, hcoord]
    exact ⟨rfl, rfl, hmem, hhost⟩
  · refine ⟨d.crossArmed i (Tab.look {} i d.cal.events), ?_, d.crossArmed_regs i _, d.crossArmed_fio i _⟩
    rw [evalEvent_of_cross hon hk hv, hq, evalCross_of_shown harm hpre hseen hshown hsw hpred, evalFire_of_no_action hk ha]

end Sys2Proof.Machine

/-! ## Proofs: clocks and domain time -/
namespace Sys2Proof.Machine

/-! ### The counter (R82) -/

/-- Idle, the counter counts once, except while nRST is low. -/
theorem Dev.idle_eq (d : Dev) :
    d.idle = if d.boot.nrstLow then d else { d with time := { d.time with c := d.time.c + 1 } } := by
  unfold Dev.idle Dev.reach
  rw [Nat.max_eq_right (Nat.le_succ _)]

/-- With no command waiting a step is the idling of the device. -/
theorem step_of_empty {s : State} (h : s.pending = []) : step s = onward s s.dev.idle := by
  obtain ⟨g, d, pending⟩ := s
  obtain rfl : pending = [] := h
  rfl

/-- Settles O2: a step on an empty queue idles, and idling is one count. -/
theorem emptyQueueIdles : Obligations.EmptyQueueIdles := by
  unfold Obligations.EmptyQueueIdles
  intro s h
  rw [step_of_empty h, Dev.idle_eq]

/-! ### Rate points (R85, R86, R103) -/

theorem Dev.epochsAfterRestep_frame (d : Dev) :
    d.epochsAfterRestep.time = d.time ∧ d.epochsAfterRestep.mem = d.mem ∧ d.epochsAfterRestep.host = d.host := by
  unfold Dev.epochsAfterRestep
  split
  · exact ⟨rfl, rfl, rfl⟩
  · dsimp only
    split
    · exact ⟨rfl, rfl, rfl⟩
    · split <;> exact ⟨rfl, rfl, rfl⟩

/-- Domain time of the anchor that is made at count `c`: D is continuous but for the pending step (R85, R103). -/
def Dev.steppedTime (d : Dev) (c : Nat) : Int :=
  match d.time.pendStep with
  | none => d.timeAt c
  | some (.by z) => d.timeAt c + z
  | some (.to ns) => (ns : Int) * 2 ^ 32

theorem Dev.steppedTime_of_none {d : Dev} (h : d.time.pendStep = none) (c : Nat) : (d.steppedTime c).toNat = d.timeAt c := by
  unfold Dev.steppedTime
  rw [h]
  exact Int.toNat_natCast _

theorem Dev.steppedTime_of_to {d : Dev} {ns : Nat} (h : d.time.pendStep = some (.to ns)) (c : Nat) :
    (d.steppedTime c).toNat = ns * 2 ^ 32 := by
  unfold Dev.steppedTime
  rw [h]
  exact Int.toNat_natCast (ns * 2 ^ 32)

/-- The count of the rate point: the next multiple of 15 625 ns, if it is still to come. -/
def Dev.ratePointCount (d : Dev) : Nat := max d.time.c (d.countAt d.ratePointNs)

/-- The device with time at the rate point and a new anchor there, made of what was pending. -/
def Dev.anchored (d : Dev) : Dev :=
  let cx := d.ratePointCount
  let rate := d.time.pendR.getD d.anchor.r
  ({ d with time := { d.time with
    c := cx, anchors := (Anchor.mk cx (d.steppedTime cx).toNat rate :: d.time.anchors).take 16,
    pendR := none, pendStep := none, pendRestep := false,
    newestE := if d.time.pendStep.isSome then none else d.time.newestE } }).ws Reg.TB_RATE rate

/-- A rate point with nothing pending only lets time pass. -/
theorem Dev.ratePoint_of_none {d : Dev} (hr : d.time.pendR = none) (hs : d.time.pendStep = none) :
    d.ratePoint = { d with time := { d.time with c := d.ratePointCount } } := by
  simp [Dev.ratePoint, Dev.reach, Dev.ratePointCount, hr, hs]

/-- A rate point with a rate or a step pending makes the new anchor; a re-step moves the epochs too (R103). -/
theorem Dev.ratePoint_of_pending {d : Dev} (h : d.time.pendR ≠ none ∨ d.time.pendStep ≠ none) :
    d.ratePoint =
      if d.time.pendRestep then ((d.anchored.inc Reg.TB_RESTEP_CNT).flag Reg.TB_STATE_RESTEPPED).epochsAfterRestep
      else d.anchored := by
  have hpend : ¬ (d.time.pendR == none && d.time.pendStep == none) = true := by
    simpa [← not_and_or] using h
  have hreach : d.reach d.ratePointCount = { d with time := { d.time with c := d.ratePointCount } } := by
    simp [Dev.reach, Dev.ratePointCount]
  unfold Dev.ratePoint
  dsimp only
  rw [← Dev.ratePointCount, hreach, if_neg hpend]
  rfl

/-- A rate point with a rate or a step pending takes time to the new anchor, and leaves memory and host interfaces alone. -/
theorem Dev.ratePoint_frame {d : Dev} (h : d.time.pendR ≠ none ∨ d.time.pendStep ≠ none) :
    d.ratePoint.time = d.anchored.time ∧ d.ratePoint.mem = d.mem ∧ d.ratePoint.host = d.host := by
  rw [Dev.ratePoint_of_pending h]
  split
  · exact Dev.epochsAfterRestep_frame _
  · exact ⟨rfl, rfl, rfl⟩

/-! ### Time states (R88, R89, R90) -/

theorem Dev.tstate_enter {d : Dev} (h : d.Sound) {st : Nat} (hst : st < 8) : (d.enter st).tstate = st := by
  have hother : (d.enter st).tstate = (d.w Reg.TB_STATE_STATE st).tstate := Dev.r_w_other _ (by decide) _
  rw [hother]
  exact (Dev.r_w_same h.regs Reg.TB_STATE_STATE st).trans (Nat.mod_eq_of_lt hst)

/-- A one-bit field that is set reads back. -/
theorem Dev.b_wb_same {d : Dev} (h : d.Sound) {f : Field} (hw : f.width = 1) (v : Bool) : (d.wb f v).b f = v := by
  unfold Dev.b Dev.wb
  rw [Dev.r_w_same h.regs, hw]
  cases v <;> rfl

/-- Domain time is locked in LOCKED, HOLDOVER and GM, and in no other state. -/
theorem Dev.locked_enter {d : Dev} (h : d.Sound) (st : Nat) :
    (d.enter st).locked = true ↔ st = 2 ∨ st = 3 ∨ st = 5 := by
  have hlocked : (d.enter st).locked = (st == 2 || st == 3 || st == 5) := Dev.b_wb_same (h.w _ st) rfl _
  rw [hlocked]
  simp [or_assoc]

theorem Dev.syncTimeout_of_locked {d : Dev} (h : d.tstate = 2) : d.syncTimeout = d.enter 3 := by
  unfold Dev.syncTimeout
  rw [h]
  rfl

/-- SLEW falls back to FREE and asks for rate 0, which is inside the limit and is not flagged. -/
theorem Dev.syncTimeout_of_slew {d : Dev} (h : d.tstate = 1) :
    d.syncTimeout = ({ d.enter 0 with time := { (d.enter 0).time with pendR := some 0 } }).bestMaster := by
  unfold Dev.syncTimeout
  rw [h]
  rfl

theorem Dev.syncTimeout_of_other {d : Dev} (h1 : d.tstate ≠ 1) (h2 : d.tstate ≠ 2) : d.syncTimeout = d := by
  unfold Dev.syncTimeout
  split
  · contradiction
  · contradiction
  · rfl

theorem Dev.gmSettleEnd_of_seed {d : Dev} {ns : Nat} (h : d.tstate = 4) (hs : d.time.seed = some ns) :
    d.gmSettleEnd = ((({ d with time := { d.time with pendStep := some (.to ns) } }).enter 5).w
      Reg.TB_GM_ID (d.r Reg.TB_CLOCK_ID)).showRoles := by
  unfold Dev.gmSettleEnd
  rw [h, hs]
  rfl

theorem Dev.gmSettleEnd_of_other {d : Dev} (h : d.tstate ≠ 4 ∨ d.time.seed = none) : d.gmSettleEnd = d := by
  unfold Dev.gmSettleEnd
  split
  next h4 hseed => simp [h4, hseed] at h
  next => rfl

/-- Settles O17: a rate point by what is pending, the time states by their transitions. -/
theorem ratePointsAndTimeStates : Obligations.RatePointsAndTimeStates := by
  unfold Obligations.RatePointsAndTimeStates
  intro s
  refine ⟨⟨fun hr hs => congrArg (onward s) (Dev.ratePoint_of_none hr hs), fun h => ?_⟩,
    fun h => congrArg (onward s) (Dev.syncTimeout_of_locked h),
    fun h => congrArg (onward s) (Dev.syncTimeout_of_slew h),
    fun h1 h2 => congrArg (onward s) (Dev.syncTimeout_of_other h1 h2),
    fun ns h hs => congrArg (onward s) (Dev.gmSettleEnd_of_seed h hs),
    fun h => congrArg (onward s) (Dev.gmSettleEnd_of_other h),
    fun st hs hst => ⟨Dev.tstate_enter hs hst, Dev.locked_enter hs st⟩⟩
  obtain ⟨htime, hmem, hhost⟩ := Dev.ratePoint_frame h
  refine ⟨s.dev.ratePoint, rfl, ?_⟩
  unfold Dev.anchor
  rw [htime]
  exact ⟨rfl, rfl, rfl, rfl, rfl, fun hn => Dev.steppedTime_of_none hn _, fun ns hto => Dev.steppedTime_of_to hto _,
    hmem, hhost⟩

/-! ### Headers and domains (R96, R572) -/

@[simp] theorem Dev.reach_fwd (d : Dev) (c : Nat) : (d.reach c).time.fwd = d.time.fwd := rfl
@[simp] theorem Dev.reach_slavePort (d : Dev) (c : Nat) : (d.reach c).time.slavePort = d.time.slavePort := rfl

/-- Before the servo starts a message is dropped and not counted. -/
theorem Dev.ptpAccept_of_stopped {d : Dev} (h : d.boot.servo = false) (m : PtpMsg) : d.ptpAccept m = (d, false) := by
  simp [Dev.ptpAccept, h]

/-- Once the servo runs, the TLVs are counted, and the header decides. -/
theorem Dev.ptpAccept_of_started {d : Dev} (h : d.boot.servo = true) (m : PtpMsg) :
    d.ptpAccept m =
      if m.version = 2 ∧ m.domain = d.r Reg.TB_PTP_CFG_DOMAIN ∧ m.unicast = false then
        (d.add Reg.TB_TLV_IGN m.tlvs, true)
      else ((d.add Reg.TB_TLV_IGN m.tlvs).inc Reg.TB_PTP_IGN, false) := by
  have hdomain : (d.add Reg.TB_TLV_IGN m.tlvs).r Reg.TB_PTP_CFG_DOMAIN = d.r Reg.TB_PTP_CFG_DOMAIN :=
    Dev.r_w_other d (by decide) _
  simp [Dev.ptpAccept, h, hdomain, and_assoc]

theorem Dev.ptpAccept_iff (d : Dev) (m : PtpMsg) :
    (d.ptpAccept m).2 = true ↔
      d.boot.servo = true ∧ m.version = 2 ∧ m.domain = d.r Reg.TB_PTP_CFG_DOMAIN ∧ m.unicast = false := by
  cases hs : d.boot.servo with
  | false => simp [Dev.ptpAccept_of_stopped hs]
  | true =>
    rw [Dev.ptpAccept_of_started hs]
    split
    next hm => simpa using hm
    next hm => simpa using hm

/-- A message that is accepted has only its TLVs counted. -/
theorem Dev.ptpAccept_of_accepted {d : Dev} {m : PtpMsg} (h : (d.ptpAccept m).2 = true) :
    d.ptpAccept m = (d.add Reg.TB_TLV_IGN m.tlvs, true) := by
  obtain ⟨hs, hm⟩ := (d.ptpAccept_iff m).mp h
  rw [Dev.ptpAccept_of_started hs, if_pos hm]

/-- A message that the header drops is counted, with its TLVs. -/
theorem Dev.ptpAccept_of_dropped {d : Dev} {m : PtpMsg} (hs : d.boot.servo = true) (h : (d.ptpAccept m).2 = false) :
    d.ptpAccept m = ((d.add Reg.TB_TLV_IGN m.tlvs).inc Reg.TB_PTP_IGN, false) := by
  have hm : ¬ (m.version = 2 ∧ m.domain = d.r Reg.TB_PTP_CFG_DOMAIN ∧ m.unicast = false) := fun hm => by
    simp [(d.ptpAccept_iff m).mpr ⟨hs, hm⟩] at h
  rw [Dev.ptpAccept_of_started hs, if_neg hm]

/-! ### Sync (R92, R99, R100) -/

theorem Dev.syncReceive_of_stopped {d : Dev} (h : d.boot.servo = false) (p : Nat) (m : PtpMsg) (cMac cOut : Nat) :
    d.syncReceive p m cMac cOut = d.reach cMac := by
  have hrefused := (d.reach cMac).ptpAccept_of_stopped h m
  simp [Dev.syncReceive, hrefused]

theorem Dev.syncReceive_of_dropped {d : Dev} {m : PtpMsg} {cMac : Nat} (hs : d.boot.servo = true)
    (h : ((d.reach cMac).ptpAccept m).2 = false) (p cOut : Nat) :
    d.syncReceive p m cMac cOut = ((d.reach cMac).add Reg.TB_TLV_IGN m.tlvs).inc Reg.TB_PTP_IGN := by
  have hdropped := Dev.ptpAccept_of_dropped (d := d.reach cMac) hs h
  simp [Dev.syncReceive, hdropped]

/-- A Sync that its network has forwarded already is only counted (R100). -/
theorem Dev.syncReceive_of_seen {d : Dev} {m : PtpMsg} {cMac p : Nat} (h : ((d.reach cMac).ptpAccept m).2 = true)
    (ht : m.twoStep = false)
    (hseen : (Tab.look [] (p / 2) d.time.fwd).contains (m.srcId, m.srcPort, m.seq) = true) (cOut : Nat) :
    d.syncReceive p m cMac cOut = ((d.reach cMac).add Reg.TB_TLV_IGN m.tlvs).inc Reg.TB_PTP_DUP := by
  have hacc := Dev.ptpAccept_of_accepted h
  simp only [Dev.syncReceive, hacc, ht, Dev.add_time, Dev.reach_fwd, hseen]
  rfl

/-- The device once a Sync that it used has gone on to the twin port, where that port is usable, and is remembered (R99,
R100). -/
def Dev.syncGoesOn (d : Dev) (p : Nat) (m : PtpMsg) (cMac cOut : Nat) (seen : List (Nat × Nat × Nat)) : Dev :=
  if d.b (Reg.PORT_STAT_AS_CAPABLE (twinPort p)) then
    let d3 := d.forwardSync p m cMac cOut
    { d3 with time := { d3.time with fwd := Tab.put (p / 2) (((m.srcId, m.srcPort, m.seq) :: seen).take 8) d3.time.fwd } }
  else d

/-- A new Sync of the master that a usable slave port hears is used, and goes on. -/
theorem Dev.syncReceive_of_new {d : Dev} {m : PtpMsg} {cMac p : Nat} {f : Foreign}
    (h : ((d.reach cMac).ptpAccept m).2 = true) (ht : m.twoStep = false)
    (hnew : (Tab.look [] (p / 2) d.time.fwd).contains (m.srcId, m.srcPort, m.seq) = false)
    (hcap : ((d.reach cMac).add Reg.TB_TLV_IGN m.tlvs).b (Reg.PORT_STAT_AS_CAPABLE p) = true)
    (hslave : d.time.slavePort = some p) (hf : (d.ptp p).foreign = some f) (hsrc : f.srcId = m.srcId) (cOut : Nat) :
    d.syncReceive p m cMac cOut =
      let d1 := (d.reach cMac).add Reg.TB_TLV_IGN m.tlvs
      (d1.useSync m (d1.offsetOf p m cMac) cMac).syncGoesOn p m cMac cOut (Tab.look [] (p / 2) d.time.fwd) := by
  have hacc := Dev.ptpAccept_of_accepted h
  have hforeign : (((d.reach cMac).add Reg.TB_TLV_IGN m.tlvs).ptp p).foreign = some f := hf
  simp only [Dev.syncReceive, hacc, ht, Dev.add_time, Dev.reach_fwd, Dev.reach_slavePort, hnew, hcap, hslave, hforeign, hsrc,
    beq_self_eq_true, Bool.and_self, Bool.true_and, Bool.not_true, Bool.false_eq_true, if_false, if_true]
  rfl

/-- In FREE a Sync that is used enters SLEW with a step by its offset (R89). -/
theorem Dev.useSync_of_free {d : Dev} (h : d.Sound) (hfree : d.tstate = 0) (m : PtpMsg) (e : Int) (cMac : Nat) :
    (d.useSync m e cMac).tstate = 1 ∧ (d.useSync m e cMac).time.pendStep = some (.by (-e * 2 ^ 16)) ∧
      (d.useSync m e cMac).time.newestE = some e ∧ (d.useSync m e cMac).mem = d.mem := by
  unfold Dev.useSync
  rw [hfree]
  refine ⟨Dev.tstate_enter ?_ (by decide), rfl, rfl, rfl⟩
  exact ⟨Dev.wf_w h.regs _ _, h.frontRegs, h.mem⟩

/-- Settles O18: a Sync by the header, then by the Syncs that the network has seen. -/
theorem syncIsUsedAndForwarded : Obligations.SyncIsUsedAndForwarded := by
  unfold Obligations.SyncIsUsedAndForwarded
  intro s p m cMac cOut
  refine ⟨fun h => congrArg (onward s) (Dev.syncReceive_of_stopped h p.val m cMac cOut),
    (s.dev.reach cMac).ptpAccept_iff m,
    fun hs h => congrArg (onward s) (Dev.syncReceive_of_dropped hs h p.val cOut),
    fun h ht => ⟨fun hseen => congrArg (onward s) (Dev.syncReceive_of_seen h ht hseen cOut),
      fun f hnew hcap hslave hf hsrc => congrArg (onward s) (Dev.syncReceive_of_new h ht hnew hcap hslave hf hsrc cOut)⟩,
    fun hsound hfree => Dev.useSync_of_free hsound hfree m _ cMac⟩

/-! ### Announce, peer delay and other messages received (R95, R97, R98) -/

section Accepted
variable {d e : Dev} {m : PtpMsg} {p : Nat}

/-- An Announce of another grandmaster is kept on its port, selection runs, and the message goes on. -/
theorem Dev.announceReceive_of_foreign (h : d.ptpAccept m = (e, true)) (hgm : m.gmId ≠ e.r Reg.TB_CLOCK_ID) :
    d.announceReceive p m = ((e.setPtp p { e.ptp p with
      foreign := some ⟨[m.priority1, m.clockClass, m.accuracy, m.variance, m.priority2, m.gmId], m.gmId, m.steps,
        m.srcId, m.srcPort⟩ }).bestMaster).ptpForward p m := by
  simp [Dev.announceReceive, h, hgm]

theorem Dev.announceTimeout_of_started (h : d.boot.servo = true) :
    d.announceTimeout p = (d.setPtp p { d.ptp p with foreign := none }).bestMaster :=
  if_pos h

/-- A Pdelay_Req is answered on its port with the time that it stayed. -/
theorem Dev.pdelayReqReceive_of_accepted {cMac : Nat} (h : (d.reach cMac).ptpAccept m = (e, true)) (cOut : Nat) :
    d.pdelayReqReceive p m cMac cOut = e.ptpSend p { e.ptpHeader p 3 m.seq 0x7F with
      corr := m.corr + e.spanTime (e.span p cMac p cOut), reqId := m.srcId, reqPort := m.srcPort } := by
  simp [Dev.pdelayReqReceive, h]

/-- A two-step answer to the port's request waits for its follow-up. -/
theorem Dev.pdelayRespReceive_twoStep {cMac : Nat} (h : (d.reach cMac).ptpAccept m = (e, true))
    (hmatch : e.pdelayMatches p m = true) (ht : m.twoStep = true) :
    d.pdelayRespReceive p m cMac = e.setPtp p { e.ptp p with twoStep := some (cMac, m.ts, m.corr) } := by
  simp [Dev.pdelayRespReceive, h, hmatch, ht]

/-- A one-step answer to the port's request completes the measurement. -/
theorem Dev.pdelayRespReceive_oneStep {cMac : Nat} (h : (d.reach cMac).ptpAccept m = (e, true))
    (hmatch : e.pdelayMatches p m = true) (ht : m.twoStep = false) :
    d.pdelayRespReceive p m cMac = e.pdelayDone p ((e.spanTime (20 * ((cMac : Int) - ((e.ptp p).req.getD (0, 0)).2) -
      e.r (Reg.PORT_LAT_RX_LAT p) - e.r (Reg.PORT_LAT_TX_LAT p)) - m.corr) / 2) := by
  simp [Dev.pdelayRespReceive, h, hmatch, ht]

/-- The follow-up of a two-step answer completes the measurement. -/
theorem Dev.pdelayFollowUp_of_waiting {c2 t2 : Nat} {corr1 : Int} (h : d.ptpAccept m = (e, true))
    (hmatch : e.pdelayMatches p m = true) (hwait : (e.ptp p).twoStep = some (c2, t2, corr1)) :
    d.pdelayFollowUp p m = e.pdelayDone p ((e.spanTime (20 * ((c2 : Int) - ((e.ptp p).req.getD (0, 0)).2) -
      e.r (Reg.PORT_LAT_RX_LAT p) - e.r (Reg.PORT_LAT_TX_LAT p)) -
      (((m.ts : Int) - t2) * 2 ^ 16 + corr1 + m.corr)) / 2) := by
  simp [Dev.pdelayFollowUp, h, hmatch, hwait]

/-- Any other message is counted; Signaling and Management go on. -/
theorem Dev.ptpOther_of_accepted (h : d.ptpAccept m = (e, true)) :
    d.ptpOther p m =
      if m.kind = 0xC ∨ m.kind = 0xD then (e.inc Reg.TB_PTP_IGN).ptpForward p m else e.inc Reg.TB_PTP_IGN := by
  simp [Dev.ptpOther, h]

end Accepted

/-! ### Messages sent (R95, R98) -/

theorem Dev.syncSend_of_silent {d : Dev} (h : d.tstate ≠ 5) : d.syncSend = d := by
  simp [Dev.syncSend, h]

theorem Dev.announceSend_of_silent {d : Dev} (h4 : d.tstate ≠ 4) (h5 : d.tstate ≠ 5) : d.announceSend = d := by
  simp [Dev.announceSend, h4, h5]

section Grandmaster
variable {d : Dev} {p : Nat} (h : d.tstate = 5) (hp : [0, 1, 2, 3].filter d.portLink = [p])
include h hp

/-- A grandmaster with link on one port sends a Sync of the egress time there. -/
theorem Dev.syncSend_of_gm :
    d.syncSend = (let t := anchorTime d.anchor (20 * ((d.time.c : Int) - d.anchor.c) + d.r (Reg.PORT_LAT_TX_LAT p))
      (d.ptpSend p { d.ptpHeader p 0 (d.ptp p).seqSync (d.rs Reg.TB_PTP_CFG_LOG_SYNC) with
        ts := (t / 2 ^ 32).toNat, corr := t / 2 ^ 16 % 2 ^ 16 }).setPtp p
        { d.ptp p with seqSync := ((d.ptp p).seqSync + 1) % 2 ^ 16 }) := by
  simp [Dev.syncSend, h, hp, Dev.each]

/-- A grandmaster with link on one port announces its own vector there. -/
theorem Dev.announceSend_of_gm :
    d.announceSend =
      (d.ptpSend p { d.ptpHeader p 0xB (d.ptp p).seqAnn (d.rs Reg.TB_PTP_CFG_LOG_ANN) with
        priority1 := d.r Reg.TB_PTP_PRIO_PRIORITY1, clockClass := d.ownVector.getD 1 0,
        accuracy := d.r Reg.TB_PTP_PRIO_CLOCK_ACCURACY, variance := Config.ownVariance,
        priority2 := d.r Reg.TB_PTP_PRIO_PRIORITY2, gmId := d.r Reg.TB_CLOCK_ID, steps := 0 }).setPtp p
        { d.ptp p with seqAnn := ((d.ptp p).seqAnn + 1) % 2 ^ 16 } := by
  simp [Dev.announceSend, h, hp, Dev.each]

end Grandmaster

/-- A Pdelay_Req leaves a port that has a link, and its egress count is kept. -/
theorem Dev.pdelayReqSend_eq (d : Dev) (p : Nat) :
    d.pdelayReqSend p = if d.portLink p then
      (d.ptpSend p (d.ptpHeader p 2 (d.ptp p).seqPdelay (d.rs Reg.TB_PTP_CFG_LOG_PDELAY))).setPtp p
        { d.ptp p with
          req := some ((d.ptp p).seqPdelay, d.time.c), twoStep := none, seqPdelay := ((d.ptp p).seqPdelay + 1) % 2 ^ 16 }
      else d := by
  cases h : d.portLink p <;> simp [Dev.pdelayReqSend, h]

/-- Settles O19: what is received by the header and the port's request, what is sent by the time state and the link. -/
theorem ptpMessagesInAndOut : Obligations.PtpMessagesInAndOut := by
  unfold Obligations.PtpMessagesInAndOut
  intro s p m cMac cOut
  refine ⟨fun h hgm => congrArg (onward s) (Dev.announceReceive_of_foreign (Prod.ext rfl h) hgm),
    fun h => congrArg (onward s) (Dev.announceTimeout_of_started h),
    fun h => ?_, fun h => ?_,
    fun hgm hlink => ⟨congrArg (onward s) (Dev.syncSend_of_gm hgm hlink),
      congrArg (onward s) (Dev.announceSend_of_gm hgm hlink)⟩,
    fun h4 h5 => ⟨congrArg (onward s) (Dev.syncSend_of_silent h5),
      congrArg (onward s) (Dev.announceSend_of_silent h4 h5)⟩,
    congrArg (onward s) (s.dev.pdelayReqSend_eq p.val)⟩
  · have hacc : (s.dev.reach cMac).ptpAccept m = (((s.dev.reach cMac).ptpAccept m).1, true) := Prod.ext rfl h
    exact ⟨congrArg (onward s) (Dev.pdelayReqReceive_of_accepted hacc cOut), fun hmatch =>
      ⟨fun ht => congrArg (onward s) (Dev.pdelayRespReceive_twoStep hacc hmatch ht),
        fun ht => congrArg (onward s) (Dev.pdelayRespReceive_oneStep hacc hmatch ht)⟩⟩
  · have hacc : s.dev.ptpAccept m = ((s.dev.ptpAccept m).1, true) := Prod.ext rfl h
    exact ⟨fun c2 t2 corr1 hmatch hwait => congrArg (onward s) (Dev.pdelayFollowUp_of_waiting hacc hmatch hwait),
      congrArg (onward s) (Dev.ptpOther_of_accepted hacc)⟩

/-! ### Time commands (R103, R104, R105) -/

@[simp] theorem Dev.taken_tstate (d : Dev) (p : Packet) (op : Nat) : (d.taken p op).tstate = d.tstate := by
  simp [Dev.tstate]

@[simp] theorem Dev.taken_tbStateWord (d : Dev) (p : Packet) (op : Nat) : (d.taken p op).tbStateWord = d.tbStateWord := by
  simp [Dev.tbStateWord]

@[simp] theorem Dev.taken_anchor (d : Dev) (p : Packet) (op : Nat) : (d.taken p op).anchor = d.anchor := by
  simp [Dev.anchor]

@[simp] theorem Dev.taken_timeAt (d : Dev) (p : Packet) (op c : Nat) : (d.taken p op).timeAt c = d.timeAt c := by
  simp [Dev.timeAt, Dev.anchorOf]

@[simp] theorem Dev.taken_now (d : Dev) (p : Packet) (op : Nat) : (d.taken p op).now = d.now := by
  simp [Dev.now]

@[simp] theorem Dev.taken_countAt (d : Dev) (p : Packet) (op ns : Nat) : (d.taken p op).countAt ns = d.countAt ns := by
  simp [Dev.countAt]

@[simp] theorem Dev.taken_ratePointNs (d : Dev) (p : Packet) (op : Nat) : (d.taken p op).ratePointNs = d.ratePointNs := by
  simp [Dev.ratePointNs, Dev.nowNs]

@[simp] theorem Dev.taken_errEst (d : Dev) (p : Packet) (op : Nat) : (d.taken p op).errEst = d.errEst := by
  simp [Dev.errEst]

theorem exec_timeInfo_ready {s : State} {p : Packet} (h : s.dev.Ready p 0x900 0 false) :
    exec (.timeInfo p) s = replied s p 0x900 (s.dev.taken p 0x900)
      (.ok [s.dev.tbStateWord, loW s.dev.nowNs, hiW s.dev.nowNs, s.dev.now / 2 ^ 16 % 2 ^ 16, loW s.dev.time.c,
        hiW s.dev.time.c, s.dev.r Reg.TB_RATE, s.dev.r Reg.TB_OFFS_ERR, s.dev.errEst]) := by
  show execTimeInfo p s = _
  exact ok_runPacket_short_of_ready h (by simp [timeWords, Dev.nowNs])

/-- A seed that is not below its floor is kept, in FREE and GM_SETTLE alone (R91). -/
theorem Dev.timeSeed_of_open {d : Dev} (h : d.tstate = 0 ∨ d.tstate = 4) (ns : Nat) :
    d.timeSeed ns = if ns < d.r Reg.TB_SEED_FLOOR then (d, .badParam 0)
      else ({ d with time := { d.time with seed := some ns } }, .ok []) := by
  unfold Dev.timeSeed
  rw [if_neg (by simpa [← not_or] using h)]

theorem Dev.timeSeed_of_closed {d : Dev} (h0 : d.tstate ≠ 0) (h4 : d.tstate ≠ 4) (ns : Nat) :
    d.timeSeed ns = (d, .busy) := by
  simp [Dev.timeSeed, h0, h4]

theorem exec_timeSeed_ready {s : State} {p : Packet} (h : s.dev.Ready p 0x901 2 true) :
    exec (.timeSeed p) s = replied s p 0x901 ((s.dev.taken p 0x901).timeSeed (pair64 (p.arg 0) (p.arg 1))).1
      ((s.dev.taken p 0x901).timeSeed (pair64 (p.arg 0) (p.arg 1))).2 := by
  show execTimeSeed p s = _
  exact ok_runPacket_short_of_ready h rfl

/-- One re-step waits at a time. -/
theorem Dev.timeRestep_of_waiting {d : Dev} (h : d.time.pendRestep = true) (mode ns : Nat) :
    d.timeRestep mode ns = (d, .busy) := by
  simp [Dev.timeRestep, h]

/-- The device with a step to make at the next rate point, as a re-step (R103). -/
def Dev.restepping (d : Dev) (st : TimeStep) : Dev :=
  { d with time := { d.time with pendStep := some st, pendRestep := true } }

/-- Mode 0 in LOCKED or HOLDOVER steps by the newest offset, taken off. -/
theorem Dev.timeRestep_by {d : Dev} {e : Int} (h : d.time.pendRestep = false) (hst : d.tstate = 2 ∨ d.tstate = 3)
    (he : d.time.newestE = some e) (ns : Nat) :
    d.timeRestep 0 ns = (d.restepping (.by (-e * 2 ^ 16)),
      let at' := d.countAt d.ratePointNs
      .ok [loW (un 64 (-e / 2 ^ 16)), hiW (un 64 (-e / 2 ^ 16)), loW at', hiW at']) := by
  simp [Dev.timeRestep, Dev.restepping, h, hst, he]

/-- Mode 1 in GM steps to the value given. -/
theorem Dev.timeRestep_to {d : Dev} (h : d.time.pendRestep = false) (hst : d.tstate = 5) (ns : Nat) :
    d.timeRestep 1 ns = (d.restepping (.to ns),
      let at' := d.countAt d.ratePointNs
      let by' := un 64 ((ns : Int) - (d.timeAt at' / 2 ^ 32 : Nat))
      .ok [loW by', hiW by', loW at', hiW at']) := by
  simp [Dev.timeRestep, Dev.restepping, h, hst]

/-- TIME_RESTEP has one parameter word, and in mode 1 three. -/
theorem exec_timeRestep_ready {s : State} {p : Packet} {n : Nat} (h : s.dev.Ready p 0x902 n true)
    (hn : n = if p.arg 0 = 1 then 3 else 1) :
    exec (.timeRestep p) s =
      replied s p 0x902 ((s.dev.taken p 0x902).timeRestep (p.arg 0) (pair64 (p.arg 1) (p.arg 2))).1
        ((s.dev.taken p 0x902).timeRestep (p.arg 0) (pair64 (p.arg 1) (p.arg 2))).2 := by
  have hlen : (p.params.map BitVec.toNat).length = n := by rw [List.length_map, h.length]
  have hneed : (if p.arg 0 = 1 then needN 3 (p.params.map BitVec.toNat)
      else needN 1 (p.params.map BitVec.toNat)) = none := by
    split at hn
    next hm => rw [if_pos hm, needN_eq_none (hlen.trans hn)]
    next hm => rw [if_neg hm, needN_eq_none (hlen.trans hn)]
  show execTimeRestep p s = _
  unfold execTimeRestep
  rw [ok_eq, Dev.runPacket_ready h rfl rfl rfl hneed (le_replyLimit (n := 3) (by omega) _)]
  rfl

theorem exec_ptpStatus_ready {s : State} {p : Packet} (h : s.dev.Ready p 0x903 1 false) :
    let n := p.arg 0
    exec (.ptpStatus p) s = replied s p 0x903 (s.dev.taken p 0x903)
      (if 4 ≤ n then .badParam 2 else .ok [s.dev.r (Reg.PORT_STAT_DELAY_HIGH n) * 8 +
        s.dev.r (Reg.PORT_STAT_AS_CAPABLE n) * 4 + s.dev.r (Reg.PORT_STAT_ROLE n), s.dev.r (Reg.PORT_LINK_DELAY n),
        loW (s.dev.r Reg.TB_GM_ID), hiW (s.dev.r Reg.TB_GM_ID), s.dev.r Reg.TB_RESTEP_CNT, s.dev.r Reg.TB_PTP_IGN,
        s.dev.r Reg.TB_PTP_DUP, s.dev.r Reg.TB_TLV_IGN]) := by
  show execPtpStatus p s = _
  refine ok_runPacket_short_of_ready h ?_
  show (if 4 ≤ p.arg 0 then _ else _) = _
  by_cases hn : 4 ≤ p.arg 0
  · rw [if_pos hn, if_pos hn]
  · rw [if_neg hn, if_neg hn]
    simp [Packet.arg]

/-- A count from the oldest anchor to the present one is converted (R105). -/
theorem Dev.timeConvert_eq (d : Dev) (c : Nat) :
    d.timeConvert c = if c < (d.time.anchors.getLast?.getD ⟨0, 0, 0⟩).c ∨ d.time.c < c then .badParam 0
      else .ok [loW (d.timeAt c / 2 ^ 32), hiW (d.timeAt c / 2 ^ 32), d.timeAt c / 2 ^ 16 % 2 ^ 16] := by
  simp [Dev.timeConvert, timeWords]

@[simp] theorem Dev.taken_timeConvert (d : Dev) (p : Packet) (op c : Nat) :
    (d.taken p op).timeConvert c = d.timeConvert c := by
  simp [Dev.timeConvert]

theorem exec_timeConvert_ready {s : State} {p : Packet} (h : s.dev.Ready p 0x904 2 false) :
    exec (.timeConvert p) s =
      replied s p 0x904 (s.dev.taken p 0x904) (s.dev.timeConvert (pair64 (p.arg 0) (p.arg 1))) := by
  show execTimeConvert p s = _
  exact ok_runPacket_short_of_ready h (congrArg (Prod.mk _) (s.dev.taken_timeConvert p 0x904 _))

/-- Settles O16: each command answers by its own law, read on the device without the packet's words. -/
theorem timeCommands : Obligations.TimeCommands := by
  unfold Obligations.TimeCommands
  intro s p
  refine ⟨exec_timeInfo_ready, fun h => ⟨fun hst hns => ?_, fun hst hns => ?_, fun h0 h4 => ?_⟩,
    fun h hm => ⟨fun hw => ?_, fun e hw hst he => ?_⟩, fun h hm hw hst => ?_, exec_ptpStatus_ready, fun h => ?_⟩
  · rw [exec_timeSeed_ready h, Dev.timeSeed_of_open (by rwa [Dev.taken_tstate]), Dev.taken_r, if_neg (by omega),
      Dev.taken_time]
  · rw [exec_timeSeed_ready h, Dev.timeSeed_of_open (by rwa [Dev.taken_tstate]), Dev.taken_r, if_pos hns]
  · rw [exec_timeSeed_ready h, Dev.timeSeed_of_closed (by rwa [Dev.taken_tstate]) (by rwa [Dev.taken_tstate])]
  · rw [exec_timeRestep_ready h (by rw [hm]; rfl), Dev.timeRestep_of_waiting (by rwa [Dev.taken_time])]
  · rw [exec_timeRestep_ready h (by rw [hm]; rfl), hm, Dev.timeRestep_by (by rwa [Dev.taken_time])
      (by rwa [Dev.taken_tstate]) (by rwa [Dev.taken_time])]
    simp only [Dev.restepping, Dev.taken_time, Dev.taken_countAt, Dev.taken_ratePointNs]
  · rw [exec_timeRestep_ready h (by rw [hm]; rfl), hm, Dev.timeRestep_to (by rwa [Dev.taken_time])
      (by rwa [Dev.taken_tstate])]
    simp only [Dev.restepping, Dev.taken_time, Dev.taken_countAt, Dev.taken_ratePointNs, Dev.taken_timeAt]
  · rw [exec_timeConvert_ready h, Dev.timeConvert_eq]

end Sys2Proof.Machine

/-! ## Proofs: the loop engine -/
namespace Sys2Proof.Machine

/-! ### Candidates (R109, R113) -/

/-- sat16 keeps a value within the bounds of a signed 16-bit number. -/
theorem sat16_value (z : Int) : (sat16 z).1 = max (-32768) (min 32767 z) := by
  show max (-32768) (min z 32767) = _
  rw [min_comm]

/-- A saturated value is not changed by saturation. -/
@[simp] theorem sat16_sat16 (z : Int) : (sat16 (sat16 z).1).1 = (sat16 z).1 := by
  rw [sat16_value, sat16_value]
  omega

theorem Dev.sections_cons (d : Dev) (a bank j : Nat) (r : List Nat) (u : Int) :
    d.sections a bank (j :: r) u =
      let y := d.secOut a bank j u
      let rest := d.sections a bank r y.1
      (u :: rest.1, y.1 :: rest.2.1, rest.2.2.1, y.2 || rest.2.2.2) := by
  rw [Dev.sections]

theorem Dev.length_slotsOf (d : Dev) (a bank c : Nat) :
    (d.slotsOf a bank c).length = bits (d.candWord a bank c 0) 6 4 := by
  simp [Dev.slotsOf]

/-- The slots follow each other from FIRST on. -/
theorem Dev.getElem?_slotsOf (d : Dev) {a bank c i : Nat} (h : i < bits (d.candWord a bank c 0) 6 4) :
    (d.slotsOf a bank c)[i]? = some (bits (d.candWord a bank c 0) 0 6 + i) := by
  simp [Dev.slotsOf, h]

/-- The gain stage of a candidate acts on what its sections make of its error; the injection follows, then the limiter. -/
theorem Dev.evalCand_o (d : Dev) (a bank n stage c : Nat) (sref : Int) :
    (d.evalCand a bank n stage c sref).o =
      let u := (d.sections a bank (d.slotsOf a bank c) (d.evalCand a bank n stage c sref).e).2.2.1
      let w4 := d.candWord a bank c 4
      let w5 := d.candWord a bank c 5
      let g := (sat16 (ashr (u * q15 w4) (15 - bits w4 16 4))).1
      clampI (q15 w5) (q15 (w5 / 2 ^ 16)) (sat16 (g + d.injected a n 1 c)).1 := rfl

/-- With nothing injected at the output the limiter takes the scaled output as it is. -/
theorem Dev.evalCand_o_of_not_injected {d : Dev} {a n c : Nat} (h : d.injected a n 1 c = 0) (bank stage : Nat)
    (sref : Int) :
    (d.evalCand a bank n stage c sref).o =
      let u := (d.sections a bank (d.slotsOf a bank c) (d.evalCand a bank n stage c sref).e).2.2.1
      let w4 := d.candWord a bank c 4
      let w5 := d.candWord a bank c 5
      clampI (q15 w5) (q15 (w5 / 2 ^ 16)) (sat16 (ashr (u * q15 w4) (15 - bits w4 16 4))).1 := by
  rw [Dev.evalCand_o, h]
  simp only [Int.add_zero, sat16_sat16]

/-- Settles O24: sections and slots by the recursion that makes them; with no injection the output is saturated once. -/
theorem candidateOutput : Obligations.CandidateOutput := by
  unfold Obligations.CandidateOutput
  refine ⟨fun d a bank u => rfl, fun d a bank j r u => ?_, fun d a bank c i h => d.getElem?_slotsOf h,
    Dev.length_slotsOf, fun d a bank n stage c sref _ hout => ⟨?_, ?_⟩⟩
  · rw [Dev.sections_cons]
    exact ⟨rfl, rfl, rfl⟩
  · simp only [Dev.evalCand_o_of_not_injected hout, sat16_value, clampI, ashr, Nat.cast_pow, Nat.cast_ofNat]
  · exact Nat.le_of_lt_succ (Nat.mod_lt _ (Nat.two_pow_pos 4))

/-! ### Writes of loop memory (R134) -/

/-- A path without the rights of an access only counts the violation (R11). -/
theorem Dev.access_refused {d : Dev} {path : Path} (ho : d.pathOpen path = true) (hp : d.pathPriv path = false)
    (present : Bool) (f : Dev → Dev) :
    d.access path true present f = d.countPath path := by
  simp [Dev.access, ho, hp]

/-- A path with the rights of an access acts where the grade has the address (R3). -/
theorem Dev.access_allowed {d : Dev} {path : Path} (ho : d.pathOpen path = true) (hp : d.pathPriv path = true)
    (f : Dev → Dev) :
    d.access path true true f = f d := by
  simp [Dev.access, ho, hp]

theorem exec_coeffWindowWrite_refused {s : State} {path : Path} (ho : s.dev.pathOpen path = true)
    (hp : s.dev.pathPriv path = false) (w : Fin 131072) (v : Word) :
    exec (.coeffWindowWrite path w v) s = onward s (s.dev.countPath path) := by
  show execCoeffWindowWrite path w v s = _
  rw [execCoeffWindowWrite, ok_eq, Dev.access_refused ho hp]
  rfl

theorem exec_coeffWindowWrite_allowed {s : State} {path : Path} (ho : s.dev.pathOpen path = true)
    (hp : s.dev.pathPriv path = true) {w : Fin 131072} (hw : w.val / 1024 < axesOf s.grade) (v : Word) :
    exec (.coeffWindowWrite path w v) s = onward s (s.dev.loopMemWrite (4 * w.val) v.toNat) := by
  show execCoeffWindowWrite path w v s = _
  rw [execCoeffWindowWrite, ok_eq, decide_eq_true hw, Dev.access_allowed ho hp]
  rfl

/-- A word of the window lies in the page of its axis. -/
theorem windowWord_axis (w : Nat) : 4 * w / 0x1000 = w / 1024 := by omega

section LoopMemory
variable {d : Dev} {w : Nat}

theorem Dev.loopMemWrite_active (hon : d.axisOn (w / 1024) = true) (ho : 4 * w % 0x1000 < 0x800)
    (hb : 4 * w % 0x1000 / 0x400 = d.bankOf (w / 1024)) (v : Nat) :
    d.loopMemWrite (4 * w) v = (d.inc Reg.LOOP_WR_IGN).w Reg.LOOP_STAT_ACTIVE_WR 1 := by
  unfold Dev.loopMemWrite
  rw [windowWord_axis, if_pos (by simp [hon, ho, hb])]
  rfl

theorem Dev.loopMemWrite_states (hon : d.axisOn (w / 1024) = true) (hlo : 0x800 ≤ 4 * w % 0x1000)
    (hhi : 4 * w % 0x1000 < 0x980) (v : Nat) :
    d.loopMemWrite (4 * w) v = (d.inc Reg.LOOP_WR_IGN).w Reg.LOOP_STAT_STATE_WR 1 := by
  unfold Dev.loopMemWrite
  rw [windowWord_axis, if_neg (by simp [Nat.not_lt.mpr hlo]), if_pos (by simp [hon, hlo, hhi])]
  rfl

/-- The memory of a disabled axis and the inactive bank of an enabled one are stored. -/
theorem Dev.loopMemWrite_stored
    (h : d.axisOn (w / 1024) = false ∨ 4 * w % 0x1000 < 0x800 ∧ 4 * w % 0x1000 / 0x400 ≠ d.bankOf (w / 1024))
    (hhi : 4 * w % 0x1000 < 0x980) (v : Nat) :
    d.loopMemWrite (4 * w) v = d.putMw (0x28_0000 + 4 * w) v := by
  have hactive : (d.axisOn (w / 1024) && decide (4 * w % 0x1000 < 0x800) &&
      4 * w % 0x1000 / 0x400 == d.bankOf (w / 1024)) = false := by
    obtain hoff | ⟨-, hb⟩ := h
    · simp [hoff]
    · simp [hb]
  have hstates : (d.axisOn (w / 1024) && decide (0x800 ≤ 4 * w % 0x1000 ∧ 4 * w % 0x1000 < 0x980)) = false := by
    obtain hoff | ⟨hlo, -⟩ := h
    · simp [hoff]
    · simp [Nat.not_le.mpr hlo]
  have haddr : 4 * w / 4 * 4 = 4 * w := by omega
  unfold Dev.loopMemWrite
  dsimp only
  rw [windowWord_axis, hactive, hstates, haddr, if_neg Bool.false_ne_true, if_neg Bool.false_ne_true, if_neg (by omega)]

end LoopMemory

/-! ### Loop commands (R128, R135, R137, R141) -/

/-- A ready packet of a command whose body looks at the grade runs that body, with the grade of the state. -/
theorem ok_runPacket_graded_of_ready {s : State} {p : Packet} {op n : Nat} {priv : Bool}
    {body : Grade → Dev → List Nat → Dev × Res} {d : Dev} {res : Res} (h : s.dev.Ready p op n priv)
    (hbody : body s.grade (s.dev.taken p op) (p.params.map BitVec.toNat) = (d, res)) :
    ok s (fun g d => d.runPacket g { opcode := op, priv := priv, need := needN n } p (body g)) =
      replied s p op d res := by
  rw [ok_eq]
  exact ok_runPacket_short_of_ready (body := body s.grade) h hbody

@[simp] theorem Dev.taken_regWord (d : Dev) (p : Packet) (op a : Nat) : (d.taken p op).regWord a = d.regWord a := by
  simp [Dev.regWord, Dev.wordOf]

theorem exec_loopInfo_ready {s : State} {p : Packet} (h : s.dev.Ready p 0x200 0 false) :
    exec (.loopInfo p) s = replied s p 0x200 (s.dev.taken p 0x200)
      (.ok [s.dev.regWord 0x20_0004, s.dev.regWord 0x20_000C, s.dev.regWord 0x20_0010, s.dev.r Reg.LOOP_OVR_CNT,
        s.dev.regWord 0x20_001C]) := by
  show execLoopInfo p s = _
  exact ok_runPacket_short_of_ready h (by simp)

/-- Why LOOP_ENABLE with a mode refuses an axis: the grade lacks it, or it is to be enabled on an invalid bank (R137). -/
def Dev.enableBad (d : Dev) (g : Grade) (axes : List Nat) (mode a : Nat) : Bool :=
  decide (axesOf g ≤ a) || (mode != 0 && d.bankBad g a (d.bankOf a) axes)

theorem Dev.enableBad_eq_false {d : Dev} {g : Grade} {axes : List Nat} {mode a : Nat}
    (h : a < axesOf g ∧ (mode ≠ 0 → d.bankBad g a (d.bankOf a) axes = false)) :
    d.enableBad g axes mode a = false := by
  obtain ⟨hlt, hbank⟩ := h
  simpa [Dev.enableBad, hlt] using hbank

/-- The device with the mode of LOOP_ENABLE waiting for each of the axes (R137). -/
def Dev.axesEnabling (d : Dev) (axes : List Nat) (mode : Nat) : Dev :=
  d.each axes (fun a d => d.setLp a { d.lp a with enNext := some mode })

/-- LOOP_ENABLE answers the first axis that it refuses and enables none. -/
theorem Dev.loopEnable_of_bad {d : Dev} {g : Grade} {axes : List Nat} {mode a : Nat} (hm : mode ≤ 2)
    (h : axes.find? (d.enableBad g axes mode) = some a) :
    d.loopEnable g axes mode = (d, ⟨4, 0, [a]⟩) := by
  unfold Dev.enableBad at h
  unfold Dev.loopEnable
  rw [if_neg (Nat.not_lt.mpr hm), h]

theorem Dev.loopEnable_of_good {d : Dev} {g : Grade} {axes : List Nat} {mode : Nat} (hm : mode ≤ 2)
    (h : ∀ a ∈ axes, d.enableBad g axes mode a = false) (hlim : mode ≠ 0 → d.evalsOver (d.willBeOn axes) = false) :
    d.loopEnable g axes mode = (d.axesEnabling axes mode,
      .ok [loW (d.axesEnabling axes mode).nextEpoch, hiW (d.axesEnabling axes mode).nextEpoch, 0xFFFF_FFFF]) := by
  have hfind : axes.find? (d.enableBad g axes mode) = none := List.find?_eq_none.mpr (fun a ha => by simp [h a ha])
  unfold Dev.enableBad at hfind
  unfold Dev.loopEnable
  rw [if_neg (Nat.not_lt.mpr hm), hfind]
  exact if_neg fun ⟨h0, hover⟩ => by simp [hlim h0] at hover

theorem exec_loopEnable_ready {s : State} {p : Packet} (h : s.dev.Ready p 0x201 5 true) :
    exec (.loopEnable p) s = replied s p 0x201
      ((s.dev.taken p 0x201).loopEnable s.grade (axisList (p.params.map BitVec.toNat)) (p.arg 4)).1
      ((s.dev.taken p 0x201).loopEnable s.grade (axisList (p.params.map BitVec.toNat)) (p.arg 4)).2 := by
  show execLoopEnable p s = _
  exact ok_runPacket_graded_of_ready h rfl

theorem Dev.loopSwap_past {d : Dev} {axes : List Nat} {e mode : Nat} (hne : axes ≠ []) (hm : mode ≤ 1)
    (he : e ≤ d.r Reg.EPK_NOW) (g : Grade) :
    d.loopSwap g axes e mode = (d, .past) := by
  unfold Dev.loopSwap
  rw [if_neg (by simpa using hne), if_neg (by omega), if_pos he]

section Swap
variable {d : Dev} {axes : List Nat} {e mode : Nat} (hne : axes ≠ []) (hm : mode ≤ 1) (he : d.r Reg.EPK_NOW < e)
include hne hm he

/-- One swap waits at a time. -/
theorem Dev.loopSwap_busy (hw : d.b Reg.LOOP_STAT_SWAP_PENDING = true) (g : Grade) :
    d.loopSwap g axes e mode = (d, .busy) := by
  unfold Dev.loopSwap
  rw [if_neg (by simpa using hne), if_neg (by omega), if_neg (by omega), if_pos hw]

theorem Dev.loopSwap_taken {g : Grade} (hw : d.b Reg.LOOP_STAT_SWAP_PENDING = false)
    (hgood : ∀ a ∈ axes, a < axesOf g ∧ d.bankBad g a (1 - d.bankOf a) [] = false) :
    d.loopSwap g axes e mode =
      (({ d with loop := { d.loop with swapAxes := axes, swapMode := mode } }.w Reg.LOOP_SWAP_EPOCH e).w
        Reg.LOOP_STAT_SWAP_PENDING 1, .ok [0xFFFF_FFFF]) := by
  have hfind : axes.find? (fun a => decide (axesOf g ≤ a) || d.bankBad g a (1 - d.bankOf a) []) = none :=
    List.find?_eq_none.mpr fun a ha => by
      obtain ⟨hlt, hbank⟩ := hgood a ha
      simp [hlt, hbank]
  unfold Dev.loopSwap
  rw [if_neg (by simpa using hne), if_neg (by omega), if_neg (by omega), if_neg (by simp [hw]), hfind]
  rfl

end Swap

theorem exec_loopSwap_ready {s : State} {p : Packet} (h : s.dev.Ready p 0x202 7 true) :
    exec (.loopSwap p) s = replied s p 0x202
      ((s.dev.taken p 0x202).loopSwap s.grade (axisList (p.params.map BitVec.toNat)) (pair64 (p.arg 4) (p.arg 5))
        (p.arg 6)).1
      ((s.dev.taken p 0x202).loopSwap s.grade (axisList (p.params.map BitVec.toNat)) (pair64 (p.arg 4) (p.arg 5))
        (p.arg 6)).2 := by
  show execLoopSwap p s = _
  exact ok_runPacket_graded_of_ready h rfl

theorem exec_loopFaultClear_ready {s : State} {p : Packet} (h : s.dev.Ready p 0x203 4 true) :
    let d := s.dev.taken p 0x203
    let axes := axisList (p.params.map BitVec.toNat)
    let refused := axes.filter d.clearRefused
    exec (.loopFaultClear p) s = replied s p 0x203
      (d.each (axes.filter (fun a => !refused.contains a)) (fun a d => d.clearAxis a)) (.ok (axisMask refused)) := by
  show execLoopFaultClear p s = _
  exact ok_runPacket_short_of_ready h rfl

/-- Before the first committed epoch the values of one epoch are those of the device as it stands (R41). -/
theorem Dev.ofFront_of_invalid {d : Dev} (h : d.ep.front.valid = false) : d.ofFront = d := by
  simp [Dev.ofFront, h]

theorem Dev.frontWords_of_invalid {d : Dev} (h : d.ep.front.valid = false) :
    d.frontWords = [loW (d.r Reg.EPK_NOW), hiW (d.r Reg.EPK_NOW)] := by
  simp [Dev.frontWords, h]

theorem exec_loopAxisRead_ready {s : State} {p : Packet} (h : s.dev.Ready p 0x204 1 false)
    (ha : p.arg 0 < axesOf s.grade) (hv : s.dev.ep.front.valid = false) :
    let a := p.arg 0
    let b := 0x20_1000 + 0x10 * a
    exec (.loopAxisRead p) s = replied s p 0x204 (s.dev.taken p 0x204)
      (.ok [s.dev.regWord b, s.dev.regWord (b + 4), s.dev.regWord (b + 8), s.dev.regWord (b + 12),
        loW ((s.dev.taken p 0x204).axisPos a), hiW ((s.dev.taken p 0x204).axisPos a), loW (s.dev.r (Reg.AX_SP a)),
        hiW (s.dev.r (Reg.AX_SP a)), loW (s.dev.r Reg.EPK_NOW), hiW (s.dev.r Reg.EPK_NOW)]) := by
  have htaken : (s.dev.taken p 0x204).ep.front.valid = false := by rw [Dev.taken_ep, hv]
  show execLoopAxisRead p s = _
  refine ok_runPacket_graded_of_ready h ((if_neg (Nat.not_le.mpr ha)).trans ?_)
  simp [Dev.ofFront_of_invalid htaken, Dev.frontWords_of_invalid htaken, hv, Packet.arg]

/-- Settles O23: a window write by the rights and the state of its axis, commands by their laws on the device without the
packet's words. -/
theorem loopMemoryAndCommands : Obligations.LoopMemoryAndCommands := by
  unfold Obligations.LoopMemoryAndCommands
  refine ⟨fun s path w v ho => ⟨fun hp => exec_coeffWindowWrite_refused ho hp w v, fun hp hw =>
      ⟨fun hon hlo hb => ?_, fun hon hlo hhi => ?_, fun hst hhi => ?_⟩⟩,
    fun s p => ⟨exec_loopInfo_ready, fun h hm => ⟨fun a hbad => ?_, fun hgood hlim => ?_⟩,
      fun h hne hm => ⟨fun he => ?_, fun he hw => ?_, fun he hw hgood => ?_⟩, exec_loopFaultClear_ready,
      exec_loopAxisRead_ready⟩⟩
  · rw [exec_coeffWindowWrite_allowed ho hp hw, Dev.loopMemWrite_active hon hlo hb]
  · rw [exec_coeffWindowWrite_allowed ho hp hw, Dev.loopMemWrite_states hon hlo hhi]
  · rw [exec_coeffWindowWrite_allowed ho hp hw, Dev.loopMemWrite_stored hst hhi]
  · rw [exec_loopEnable_ready h, Dev.loopEnable_of_bad hm hbad]
  · rw [exec_loopEnable_ready h,
      Dev.loopEnable_of_good hm (fun a ha => Dev.enableBad_eq_false (hgood a ha)) hlim]
    rfl
  · rw [exec_loopSwap_ready h, Dev.loopSwap_past hne hm (by rwa [Dev.taken_r])]
  · rw [exec_loopSwap_ready h, Dev.loopSwap_busy hne hm (by rwa [Dev.taken_r]) (by rwa [Dev.taken_b])]
  · rw [exec_loopSwap_ready h, Dev.loopSwap_taken hne hm (by rwa [Dev.taken_r]) (by rwa [Dev.taken_b]) hgood,
      Dev.taken_loop]

end Sys2Proof.Machine

/-! ## Proofs: trace capture and frequency response -/
namespace Sys2Proof.Machine

/-! ### Register words that a command stores (R8) -/

/-- A stored word writes each RW field that it holds, in order, and leaves the other fields alone. -/
theorem Dev.putFields_cons (d : Dev) (f : Field) (fs : List Field) (hi : Bool) (v : Nat) :
    d.putFields (f :: fs) hi v = (if f.access = .rw then d.putField f hi v else d).putFields fs hi v := by
  refine congrArg (fun e : Dev => e.putFields fs hi v) ?_
  by_cases hrw : f.access = .rw
  · simp [Dev.putField, hrw]
  · simp [hrw]

/-- A word of RW fields is stored as a host write stores it. -/
theorem Dev.putFields_of_rw (d : Dev) {fs : List Field} (h : ∀ f ∈ fs, f.access = .rw) (hi : Bool) (v : Nat) :
    d.putFields fs hi v = d.each fs (fun f d => d.putField f hi v) := by
  induction fs generalizing d with
  | nil => rfl
  | cons f fs ih =>
    obtain ⟨hf, hfs⟩ := List.forall_mem_cons.mp h
    rw [Dev.putFields_cons, if_pos hf]
    exact ih (d.putField f hi v) hfs

/-- Storing a word leaves the device as it was but for the register file. -/
theorem Dev.putFields_frame (d : Dev) (fs : List Field) (hi : Bool) (v : Nat) (rs : Regs) :
    { d.putFields fs hi v with regs := rs } = { d with regs := rs } := by
  induction fs generalizing d with
  | nil => rfl
  | cons f fs ih =>
    rw [Dev.putFields_cons, ih]
    split
    · exact d.putField_frame f hi v rs
    · rfl

theorem Dev.r_putFields_other (d : Dev) {fs : List Field} {g : Field} (h : g.key ∉ fs.map Field.key) (hi : Bool)
    (v : Nat) : (d.putFields fs hi v).r g = d.r g := by
  induction fs generalizing d with
  | nil => rfl
  | cons f fs ih =>
    obtain ⟨hf, hfs⟩ := List.ne_and_not_mem_of_not_mem_cons h
    rw [Dev.putFields_cons, ih _ hfs]
    split
    · exact d.r_putField_other hf hi v
    · rfl

/-- The fields of the register word at host address `a`, none where there is no register. -/
def wordFields (a : Nat) : List Field := ((regAt a).map (fun x => x.2.1)).getD []

/-- The word at host address `a` holds RW fields of at most 32 bits, with distinct keys. -/
def plainWord (a : Nat) : Bool :=
  (regAt a).any (fun x => !x.2.2) &&
    decide ((∀ f ∈ wordFields a, f.access = .rw ∧ f.width ≤ 32) ∧ ((wordFields a).map Field.key).Nodup)

theorem Dev.putReg_eq (d : Dev) (a v : Nat) : ∃ hi : Bool, d.putReg a v = d.putFields (wordFields a) hi v := by
  unfold Dev.putReg wordFields
  cases regAt a with
  | none => exact ⟨false, rfl⟩
  | some x => exact ⟨x.2.2, rfl⟩

theorem Dev.putReg_frame (d : Dev) (a v : Nat) (rs : Regs) :
    { d.putReg a v with regs := rs } = { d with regs := rs } := by
  obtain ⟨hi, e⟩ := d.putReg_eq a v
  rw [e, Dev.putFields_frame]

/-- A field that the word does not hold keeps its value. -/
theorem Dev.r_putReg_other (d : Dev) {a : Nat} {g : Field} (h : g.key ∉ (wordFields a).map Field.key) (v : Nat) :
    (d.putReg a v).r g = d.r g := by
  obtain ⟨hi, e⟩ := d.putReg_eq a v
  rw [e, Dev.r_putFields_other d h]

/-- A field of a plain word takes its bits of the value stored. -/
theorem Dev.r_putReg_mem {d : Dev} (h : d.Sound) {a : Nat} (ha : plainWord a = true) {g : Field} (hg : g ∈ wordFields a)
    (v : Nat) : (d.putReg a v).r g = bits v g.lo g.width := by
  simp only [plainWord, Bool.and_eq_true, decide_eq_true_eq] at ha
  obtain ⟨hlow, hfields, hnodup⟩ := ha
  have hput : d.putReg a v = d.putFields (wordFields a) false v := by
    unfold Dev.putReg wordFields
    cases hx : regAt a with
    | none => rfl
    | some x =>
      obtain ⟨r, fs, hi⟩ := x
      simp [hx] at hlow
      simp [hlow]
  rw [hput, Dev.putFields_of_rw d (fun f hf => (hfields f hf).1),
    Dev.r_putField_each_mem h hnodup (fun f hf => (hfields f hf).2) v g hg, Dev.fieldAfter, (hfields g hg).1]

/-- The words at the addresses `a i` stored one after another, each from `v i`. -/
def Dev.storeRegs (d : Dev) (l : List Nat) (a v : Nat → Nat) : Dev := d.each l (fun i d => d.putReg (a i) (v i))

theorem Dev.storeRegs_frame (d : Dev) (l : List Nat) (a v : Nat → Nat) (rs : Regs) :
    { d.storeRegs l a v with regs := rs } = { d with regs := rs } := by
  induction l generalizing d with
  | nil => rfl
  | cons i l ih => exact (ih (d.putReg (a i) (v i))).trans (d.putReg_frame (a i) (v i) rs)

@[simp] theorem Dev.storeRegs_mem (d : Dev) (l : List Nat) (a v : Nat → Nat) : (d.storeRegs l a v).mem = d.mem :=
  (congrArg Dev.mem (d.storeRegs_frame l a v []) :)

@[simp] theorem Dev.storeRegs_trc (d : Dev) (l : List Nat) (a v : Nat → Nat) : (d.storeRegs l a v).trc = d.trc :=
  (congrArg Dev.trc (d.storeRegs_frame l a v []) :)

theorem Dev.Sound.storeRegs {d : Dev} (h : d.Sound) (l : List Nat) (a v : Nat → Nat) : (d.storeRegs l a v).Sound := by
  induction l generalizing d with
  | nil => exact h
  | cons i l ih => exact ih (Dev.putReg_sound d (a i) (v i) h)

/-- A field that none of the words holds keeps its value. -/
theorem Dev.r_storeRegs_other (d : Dev) {l : List Nat} {a : Nat → Nat} {g : Field}
    (h : ∀ i ∈ l, g.key ∉ (wordFields (a i)).map Field.key) (v : Nat → Nat) :
    (d.storeRegs l a v).r g = d.r g := by
  induction l generalizing d with
  | nil => rfl
  | cons i l ih =>
    obtain ⟨hi, hl⟩ := List.forall_mem_cons.mp h
    exact (ih (d.putReg (a i) (v i)) hl).trans (d.r_putReg_other hi (v i))

/-- A field of one of the words that no later word holds takes its bits of that word. -/
theorem Dev.r_storeRegs_mem {d : Dev} (h : d.Sound) (l : List Nat) {i : Nat} {m : List Nat} {a : Nat → Nat} {g : Field}
    (hi : plainWord (a i) = true) (hg : g ∈ wordFields (a i))
    (hm : ∀ j ∈ m, g.key ∉ (wordFields (a j)).map Field.key) (v : Nat → Nat) :
    (d.storeRegs (l ++ i :: m) a v).r g = bits (v i) g.lo g.width := by
  have hsplit : d.storeRegs (l ++ i :: m) a v = ((d.storeRegs l a v).putReg (a i) (v i)).storeRegs m a v := by
    simp [Dev.storeRegs, Dev.each]
  rw [hsplit, Dev.r_storeRegs_other _ hm, Dev.r_putReg_mem (h.storeRegs l a v) hi hg]

/-! ### Geometry (R145, R147) -/

@[simp] theorem Dev.taken_trcState (d : Dev) (p : Packet) (op : Nat) : (d.taken p op).trcState = d.trcState := by
  simp [Dev.trcState]

@[simp] theorem Dev.taken_trcBusy (d : Dev) (p : Packet) (op : Nat) : (d.taken p op).trcBusy = d.trcBusy := by
  simp [Dev.trcBusy]

/-- A capture in progress only sees LEN_BUSY. -/
theorem Dev.trcGeometryWrite_of_busy {d : Dev} (h : d.trcBusy = true) (sel v : Nat) :
    d.trcGeometryWrite sel v = d.w Reg.TRC_STAT_LEN_BUSY 1 :=
  if_pos h

section Base
variable {d : Dev} {v : Nat} (h : d.trcBusy = false)
include h

/-- A TRC_BASE that does not fit the other fields only sets CFG_BAD. -/
theorem Dev.trcGeometryWrite_base_of_bad
    (hbad : geometryBad (d.r Reg.TRC_FMT_NCH) (d.r Reg.TRC_FMT_DIV) (v % 2 ^ 21) (d.r Reg.TRC_LEN) = true) :
    d.trcGeometryWrite 1 v = d.w Reg.TRC_STAT_CFG_BAD 1 := by
  unfold Dev.trcGeometryWrite
  rw [if_neg (by simp [h])]
  exact if_pos hbad

theorem Dev.trcGeometryWrite_base_of_good
    (hgood : geometryBad (d.r Reg.TRC_FMT_NCH) (d.r Reg.TRC_FMT_DIV) (v % 2 ^ 21) (d.r Reg.TRC_LEN) = false) :
    d.trcGeometryWrite 1 v =
      ((((d.w Reg.TRC_FMT_NCH (d.r Reg.TRC_FMT_NCH)).w Reg.TRC_FMT_DIV (d.r Reg.TRC_FMT_DIV)).w Reg.TRC_BASE
        (v % 2 ^ 21)).w Reg.TRC_LEN (d.r Reg.TRC_LEN)).trcReset := by
  unfold Dev.trcGeometryWrite
  rw [if_neg (by simp [h])]
  exact if_neg (ne_true_of_eq_false hgood)

end Base

/-! ### TRC_SETUP (R147, R159) -/

/-- The address of the register word that takes parameter `i` of TRC_SETUP: TRC_FMT to TRC_TRIG_X. -/
def setupAddr (i : Nat) : Nat :=
  [0xF0_0008, 0xF0_000C, 0xF0_0010, 0xF0_0014, 0xF0_0018, 0xF0_001C, 0xF0_0020].getD i 0

/-- The address of TRC_CHc. -/
def chanAddr (c : Nat) : Nat := 0xF0_0100 + 4 * c

/-- The device once TRC_SETUP has stored its words. -/
def Dev.setupStored (d : Dev) (ps : List Nat) : Dev :=
  let e := d.storeRegs (List.range 7) setupAddr (fun i => ps.getD i 0)
  e.storeRegs (List.range (e.r Reg.TRC_FMT_NCH)) chanAddr (fun c => ps.getD (7 + c) 0)

theorem Dev.trcSetup_of_bad {d : Dev} (h : d.trcBusy = false) {ps : List Nat} {w : Nat} (hbad : setupBad ps = some w) :
    d.trcSetup ps = (d.w Reg.TRC_STAT_CFG_BAD 1, .badParam w) := by
  unfold Dev.trcSetup
  rw [if_neg (by simp [h]), hbad]
  rfl

theorem Dev.trcSetup_of_good {d : Dev} (h : d.trcBusy = false) {ps : List Nat} (hgood : setupBad ps = none) :
    d.trcSetup ps = ((d.setupStored ps).trcReset, .ok []) := by
  unfold Dev.trcSetup
  rw [if_neg (by simp [h]), hgood]
  rfl

@[simp] theorem Dev.setupStored_mem (d : Dev) (ps : List Nat) : (d.setupStored ps).mem = d.mem := by
  simp [Dev.setupStored]

@[simp] theorem Dev.setupStored_trc (d : Dev) (ps : List Nat) : (d.setupStored ps).trc = d.trc := by
  simp [Dev.setupStored]

/-- TRC_SETUP takes at most 16 channels. -/
theorem nch_le_of_setupBad_eq_none {ps : List Nat} (h : setupBad ps = none) : bits (ps.getD 0 0) 16 5 ≤ 16 := by
  by_contra hle
  have hbad : setupBad ps = some 2 := if_pos (by
    simp only [decide_eq_true (Nat.lt_of_not_le hle), Bool.or_true, Bool.true_or])
  rw [hbad] at h
  exact Option.some_ne_none 2 h

/-- The words of the 16 channels hold neither NCH nor DIV nor LEN. -/
theorem geometry_not_mem_chanAddr : ∀ g ∈ [Reg.TRC_FMT_NCH, Reg.TRC_FMT_DIV, Reg.TRC_LEN],
    ∀ c < 16, g.key ∉ (wordFields (chanAddr c)).map Field.key := by
  decide

section Setup
variable {d : Dev} (h : d.Sound) {ps : List Nat}
include h

/-- A field of TRC_FMT takes its bits of the first parameter. -/
theorem Dev.r_setupWords_fmt {g : Field} (hg : g ∈ [Reg.TRC_FMT_NCH, Reg.TRC_FMT_DIV]) :
    (d.storeRegs (List.range 7) setupAddr (fun i => ps.getD i 0)).r g = bits (ps.getD 0 0) g.lo g.width := by
  have hrest : ∀ g ∈ [Reg.TRC_FMT_NCH, Reg.TRC_FMT_DIV], ∀ j ∈ [1, 2, 3, 4, 5, 6],
      g.key ∉ (wordFields (setupAddr j)).map Field.key := by decide
  exact Dev.r_storeRegs_mem h [] (a := setupAddr) (by decide) hg (hrest g hg) _

theorem Dev.r_setupWords_len :
    (d.storeRegs (List.range 7) setupAddr (fun i => ps.getD i 0)).r Reg.TRC_LEN = ps.getD 2 0 % 2 ^ 18 := by
  have hrest : ∀ j ∈ [3, 4, 5, 6], Reg.TRC_LEN.key ∉ (wordFields (setupAddr j)).map Field.key := by decide
  rw [show List.range 7 = [0, 1] ++ 2 :: [3, 4, 5, 6] from rfl,
    Dev.r_storeRegs_mem h [0, 1] (by decide) (by decide) hrest]
  simp [bits, Reg.TRC_LEN]

/-- The channel words of a TRC_SETUP that is taken leave the geometry alone. -/
theorem Dev.r_setupStored {g : Field} (hg : g ∈ [Reg.TRC_FMT_NCH, Reg.TRC_FMT_DIV, Reg.TRC_LEN])
    (hgood : setupBad ps = none) :
    (d.setupStored ps).r g = (d.storeRegs (List.range 7) setupAddr (fun i => ps.getD i 0)).r g := by
  have hnch := Dev.r_setupWords_fmt h (ps := ps) (g := Reg.TRC_FMT_NCH) (by decide)
  refine Dev.r_storeRegs_other _ (fun c hc => geometry_not_mem_chanAddr g hg c ?_) _
  rw [hnch] at hc
  exact Nat.lt_of_lt_of_le (List.mem_range.mp hc) (nch_le_of_setupBad_eq_none hgood)

/-- The geometry that a TRC_SETUP leaves is that of its parameters. -/
theorem Dev.setupStored_geometry (hgood : setupBad ps = none) :
    (d.setupStored ps).r Reg.TRC_FMT_NCH = bits (ps.getD 0 0) 16 5 ∧
      (d.setupStored ps).r Reg.TRC_FMT_DIV = ps.getD 0 0 % 2 ^ 16 ∧
      (d.setupStored ps).r Reg.TRC_LEN = ps.getD 2 0 % 2 ^ 18 := by
  refine ⟨?_, ?_, ?_⟩
  · rw [Dev.r_setupStored h (by decide) hgood, Dev.r_setupWords_fmt h (by decide)]
    rfl
  · rw [Dev.r_setupStored h (by decide) hgood, Dev.r_setupWords_fmt h (by decide)]
    simp [bits, Reg.TRC_FMT_DIV]
  · rw [Dev.r_setupStored h (by decide) hgood, Dev.r_setupWords_len h]

end Setup

theorem exec_trcSetup_ready {s : State} {p : Packet} (h : s.dev.Ready p 0xF01 (7 + bits (p.arg 0) 16 5) false)
    {d : Dev} {res : Res} (hbody : (s.dev.taken p 0xF01).trcSetup (p.params.map BitVec.toNat) = (d, res)) :
    exec (.trcSetup p) s = replied s p 0xF01 d res := by
  have hlen : (p.params.map BitVec.toNat).length = 7 + bits (p.arg 0) 16 5 := by rw [List.length_map, h.length]
  show execTrcSetup p s = _
  rw [execTrcSetup, ok_eq, Dev.runPacket_ready h rfl rfl rfl ((if_neg (by omega)).trans (needN_eq_none hlen))
    (le_replyLimit (n := 3) (by omega) p.origin), hbody]
  rfl

/-! ### Arm, trigger and stop (R148, R149, R151) -/

theorem Dev.trcArm_of_busy {d : Dev} (h : d.trcBusy = true) : d.trcArm = (d.w Reg.TRC_STAT_ARM_BAD 1, .busy) :=
  if_pos h

/-- The device with its capture reset and armed for the next boundary. -/
def Dev.trcArmed (d : Dev) : Dev := { d.trcPointers with trc := { d.trcPointers.trc with armPending := true } }

theorem Dev.trcArm_of_valid {d : Dev} (h : d.trcBusy = false) (hpre : d.r Reg.TRC_PRE < d.r Reg.TRC_LEN)
    (h1 : 1 ≤ d.r Reg.TRC_POST) (hpost : d.r Reg.TRC_POST ≤ d.r Reg.TRC_LEN) :
    d.trcArm = (d.trcArmed, .ok [loW d.trcPointers.nextEpoch, hiW d.trcPointers.nextEpoch]) := by
  unfold Dev.trcArm
  rw [if_neg (by simp [h]), if_neg (by omega)]
  rfl

theorem Dev.trcTrigger_of_armed {d : Dev} (h : d.r Reg.TRC_STAT_STATE = 1) :
    d.trcTrigger = ({ d with trc := { d.trc with trigPending := true } }, .ok []) :=
  if_pos h

theorem Dev.trcTrigger_of_not_armed {d : Dev} (h : d.r Reg.TRC_STAT_STATE ≠ 1) : d.trcTrigger = (d, .busy) :=
  if_neg h

theorem exec_trcCtrlTrig (s : State) :
    exec .trcCtrlTrig s = onward s (if s.dev.r Reg.TRC_STAT_STATE = 1 then
      { s.dev with trc := { s.dev.trc with trigPending := true } } else s.dev) := by
  show onward s s.dev.trcTrigger.1 = _
  split
  · rw [Dev.trcTrigger_of_armed ‹_›]
  · rw [Dev.trcTrigger_of_not_armed ‹_›]

theorem exec_trcTrigger_ready {s : State} {p : Packet} (h : s.dev.Ready p 0xF03 0 false) :
    exec (.trcTrigger p) s =
      if s.dev.r Reg.TRC_STAT_STATE = 1 then
        replied s p 0xF03 { s.dev.taken p 0xF03 with trc := { s.dev.trc with trigPending := true } } (.ok [])
      else replied s p 0xF03 (s.dev.taken p 0xF03) .busy := by
  show execTrcTrigger p s = _
  split
  · refine ok_runPacket_short_of_ready h ((Dev.trcTrigger_of_armed (by rwa [Dev.taken_r])).trans ?_)
    rw [Dev.taken_trc]
  · exact ok_runPacket_short_of_ready h (Dev.trcTrigger_of_not_armed (by rwa [Dev.taken_r]))

theorem exec_trcArm_ready {s : State} {p : Packet} (h : s.dev.Ready p 0xF02 0 false) (hidle : s.dev.trcBusy = false)
    (hpre : s.dev.r Reg.TRC_PRE < s.dev.r Reg.TRC_LEN) (h1 : 1 ≤ s.dev.r Reg.TRC_POST)
    (hpost : s.dev.r Reg.TRC_POST ≤ s.dev.r Reg.TRC_LEN) :
    exec (.trcArm p) s = replied s p 0xF02 (s.dev.taken p 0xF02).trcArmed
      (.ok [loW (s.dev.taken p 0xF02).trcPointers.nextEpoch, hiW (s.dev.taken p 0xF02).trcPointers.nextEpoch]) := by
  show execTrcArm p s = _
  exact ok_runPacket_short_of_ready h (Dev.trcArm_of_valid (by rwa [Dev.taken_trcBusy]) (by simpa using hpre)
    (by simpa using h1) (by simpa using hpost))

theorem exec_trcStop_ready {s : State} {p : Packet} (h : s.dev.Ready p 0xF04 0 false) :
    exec (.trcStop p) s =
      replied s p 0xF04 { s.dev.taken p 0xF04 with trc := { s.dev.trc with stopPending := true } } (.ok []) := by
  show execTrcStop p s = _
  refine ok_runPacket_short_of_ready h ?_
  rw [Dev.trcStop, Dev.taken_trc]

/-! ### Status and rows (R153, R158) -/

theorem exec_trcInfo_ready {s : State} {p : Packet} (h : s.dev.Ready p 0xF00 0 false) :
    exec (.trcInfo p) s = replied s p 0xF00 (s.dev.taken p 0xF00)
      (.ok [s.dev.regWord 0xF0_0004, s.dev.r Reg.TRC_WR_PTR, s.dev.r Reg.TRC_MARK, s.dev.r Reg.TRC_TRIG_ROW,
        s.dev.r Reg.TRC_PRE_TRUNC, s.dev.r Reg.TRC_VALID_ROWS, loW (s.dev.r Reg.TRC_TRIG_EPOCH),
        hiW (s.dev.r Reg.TRC_TRIG_EPOCH)]) := by
  show execTrcInfo p s = _
  exact ok_runPacket_short_of_ready h (by simp)

/-- The `n` captured rows from row `first` after the mark, in time order (R153). -/
def Dev.rowsFrom (d : Dev) (first n : Nat) : List Nat :=
  (List.range n).flatMap (fun i => Mem.words d.trc.tmem (d.r Reg.TRC_BASE +
    (d.r Reg.TRC_MARK + first + i) % d.r Reg.TRC_LEN * rowBytes (d.r Reg.TRC_FMT_NCH)) (2 + d.r Reg.TRC_FMT_NCH))

@[simp] theorem Dev.taken_rowsFrom (d : Dev) (p : Packet) (op first n : Nat) :
    (d.taken p op).rowsFrom first n = d.rowsFrom first n := by
  simp [Dev.rowsFrom]

theorem Dev.trcRead_of_done {d : Dev} {first count limit : Nat} (hdone : d.r Reg.TRC_STAT_STATE = 3) (h1 : 1 ≤ count)
    (h64 : count ≤ 64) (hlim : 3 + count * (2 + d.r Reg.TRC_FMT_NCH) ≤ limit)
    (hrows : first + count ≤ d.r Reg.TRC_VALID_ROWS) (unc : Nat) :
    d.trcRead first count unc limit =
      (d.add Reg.TRC_ECC_CNT_UNCORR (min unc count), .ok (d.rowsFrom first count)) := by
  have hstate : ¬ d.trcState ≠ 3 := not_not_intro hdone
  unfold Dev.trcRead
  rw [if_neg (Nat.not_lt.mpr hlim), if_neg hstate, if_neg (by omega), if_neg (Nat.not_lt.mpr hrows)]
  rfl

theorem exec_trcRead_ready {s : State} {p : Packet} (h : s.dev.Ready p 0xF05 2 false) (unc : Nat) :
    exec (.trcRead p unc) s = replied s p 0xF05
      ((s.dev.taken p 0xF05).trcRead (p.arg 0) (p.arg 1) unc (replyLimit p.origin)).1
      ((s.dev.taken p 0xF05).trcRead (p.arg 0) (p.arg 1) unc (replyLimit p.origin)).2 := by
  show execTrcRead p unc s = _
  exact ok_runPacket_short_of_ready h rfl

/-! ### Injectors (R155, R156) -/

@[simp] theorem Dev.taken_axisOn (d : Dev) (p : Packet) (op a : Nat) : (d.taken p op).axisOn a = d.axisOn a := by
  simp [Dev.axisOn]

/-- Injector `i` as INJ_START for epoch `e` leaves it, before its first sample. -/
def Dev.freshInjector (d : Dev) (i e : Nat) : Injector :=
  { start := e, inc := d.r (Reg.INJ_P0 i), lfsr := d.r (Reg.INJ_P0 i) % 2 ^ (d.r (Reg.INJ_P1 i) % 32) }

@[simp] theorem Dev.taken_freshInjector (d : Dev) (p : Packet) (op i e : Nat) :
    (d.taken p op).freshInjector i e = d.freshInjector i e := by
  simp [Dev.freshInjector]

theorem Dev.injStart_of_active {d : Dev} {i : Nat} (hi : i < 4) (h : d.b (Reg.INJ_STAT_ACTIVE i) = true) (e : Nat) :
    d.injStart i e = (d, .busy) := by
  unfold Dev.injStart
  rw [if_neg (Nat.not_le.mpr hi), if_pos h]

/-- With no injector active, a constant or a sine on an enabled axis without a fault starts at a coming epoch. -/
theorem Dev.injStart_of_valid {d : Dev} {i e : Nat} (hi : i < 4) (he : d.r Reg.EPK_NOW < e)
    (hon : d.axisOn (d.r (Reg.INJ_NODE_AXIS i)) = true)
    (hfault : d.r (Reg.AXIS_STAT_FAULT (d.r (Reg.INJ_NODE_AXIS i))) = 0) (hwave : d.r (Reg.INJ_CTRL_WAVE i) ≤ 1)
    (hcount : d.r (Reg.INJ_COUNT i) ≠ 0) (hoff : ∀ j ∈ [0, 1, 2, 3], d.b (Reg.INJ_STAT_ACTIVE j) = false) :
    d.injStart i e =
      (((d.setInjector i (d.freshInjector i e)).w (Reg.INJ_STAT_ACTIVE i) 1).w (Reg.INJ_DONE i) 0, .ok []) := by
  have hself : ¬ d.b (Reg.INJ_STAT_ACTIVE i) = true := by
    rw [hoff i (by simp; omega)]
    exact Bool.false_ne_true
  have hshared : ([0, 1, 2, 3].any (fun j => j != i && d.b (Reg.INJ_STAT_ACTIVE j) &&
      d.r (Reg.INJ_NODE_AXIS j) == d.r (Reg.INJ_NODE_AXIS i) &&
      d.r (Reg.INJ_NODE_POINT j) == d.r (Reg.INJ_NODE_POINT i))) = false :=
    List.any_eq_false.mpr (fun j hj => by simp [hoff j hj])
  have h3 : (d.r (Reg.INJ_CTRL_WAVE i) == 3) = false := beq_eq_false_iff_ne.mpr (by omega)
  have h2 : (d.r (Reg.INJ_CTRL_WAVE i) == 2) = false := beq_eq_false_iff_ne.mpr (by omega)
  unfold Dev.injStart
  dsimp only
  rw [if_neg (Nat.not_le.mpr hi), if_neg hself, if_neg (Nat.not_le.mpr he), hshared,
    if_neg (by simp [hon, hfault, h3, h2, hcount])]
  rfl

/-- A stop before its last sample leaves an injector inactive and marked as aborted. -/
theorem Dev.injStop_of_active {d : Dev} {i : Nat} (h : d.b (Reg.INJ_STAT_ACTIVE i) = true) :
    d.injStop i true = (d.w (Reg.INJ_STAT_ACTIVE i) 0).w (Reg.INJ_STAT_ABORTED i) 1 :=
  if_pos h

theorem exec_injStart_ready {s : State} {p : Packet} (h : s.dev.Ready p 0xF10 3 true) :
    exec (.injStart p) s = replied s p 0xF10
      ((s.dev.taken p 0xF10).injStart (p.arg 0) (pair64 (p.arg 1) (p.arg 2))).1
      ((s.dev.taken p 0xF10).injStart (p.arg 0) (pair64 (p.arg 1) (p.arg 2))).2 := by
  show execInjStart p s = _
  exact ok_runPacket_short_of_ready h rfl

theorem exec_injStop_ready {s : State} {p : Packet} (h : s.dev.Ready p 0xF11 1 true) (hi : p.arg 0 < 4) :
    exec (.injStop p) s = replied s p 0xF11 ((s.dev.taken p 0xF11).injStop (p.arg 0) true)
      (.ok [s.dev.r (Reg.INJ_DONE (p.arg 0))]) := by
  show execInjStop p s = _
  refine ok_runPacket_short_of_ready h ((if_neg (Nat.not_le.mpr hi)).trans ?_)
  rw [Dev.taken_r]
  rfl

/-- Settles O26: writes by the state of the capture, commands by their laws on the device without the packet's words. -/
theorem traceCaptureCommands : Obligations.TraceCaptureCommands := by
  unfold Obligations.TraceCaptureCommands
  refine ⟨fun s => ⟨fun hbusy => ⟨?_, fun sel v => ?_⟩,
      fun hidle => ⟨fun hpre h1 hpost => ?_, fun v hbad => ?_, fun v hgood => ?_⟩, rfl, exec_trcCtrlTrig s⟩,
    fun s p => ⟨exec_trcInfo_ready, fun h hidle => ⟨fun w hbad => ?_, fun hgood => ?_⟩, exec_trcArm_ready,
      exec_trcTrigger_ready, exec_trcStop_ready, fun unc h hdone h1 h64 hlim hrows => ?_,
      fun h hi => ⟨fun hon => ?_, fun he hon hfault hwave hcount hoff => ?_⟩, fun h hi hon => ?_⟩⟩
  · show onward s s.dev.trcArm.1 = _
    rw [Dev.trcArm_of_busy hbusy]
  · show onward s (s.dev.trcGeometryWrite sel.val v.toNat) = _
    rw [Dev.trcGeometryWrite_of_busy hbusy]
  · show onward s s.dev.trcArm.1 = _
    rw [Dev.trcArm_of_valid hidle hpre h1 hpost]
    rfl
  · show onward s (s.dev.trcGeometryWrite 1 v.toNat) = _
    rw [Dev.trcGeometryWrite_base_of_bad hidle hbad]
  · show onward s (s.dev.trcGeometryWrite 1 v.toNat) = _
    rw [Dev.trcGeometryWrite_base_of_good hidle hgood]
  · exact exec_trcSetup_ready h (Dev.trcSetup_of_bad (by rwa [Dev.taken_trcBusy]) hbad)
  · exact ⟨(s.dev.taken p 0xF01).setupStored (p.params.map BitVec.toNat),
      exec_trcSetup_ready h (Dev.trcSetup_of_good (by rwa [Dev.taken_trcBusy]) hgood), by simp, by simp,
      fun hs => Dev.setupStored_geometry (hs.taken p 0xF01) hgood⟩
  · rw [exec_trcRead_ready h, Dev.trcRead_of_done (by rwa [Dev.taken_r]) h1 h64 (by rwa [Dev.taken_r])
      (by rwa [Dev.taken_r]), Dev.taken_rowsFrom]
    rfl
  · rw [exec_injStart_ready h, Dev.injStart_of_active hi (by rwa [Dev.taken_b])]
  · rw [exec_injStart_ready h, Dev.injStart_of_valid hi (by simpa using he) (by simpa using hon) (by simpa using hfault)
      (by simpa using hwave) (by simpa using hcount) (by simpa using hoff), Dev.taken_freshInjector]
    rfl
  · rw [exec_injStop_ready h hi, Dev.injStop_of_active (by rwa [Dev.taken_b])]

end Sys2Proof.Machine

/-! ## Proofs: profiles and gearing -/
namespace Sys2Proof.Machine

/-! ### The gear law (R181) -/

/-- A number that is `p + n / m` rounds down to `p` and the floored quotient. -/
theorem floor_eq_add_ediv {r : Rat} {p n m : Int} (hm : 0 < m) (h : r * m = p * m + n) : r.floor = p + n / m := by
  lift m to Nat using hm.le
  have hne : (m : Rat) ≠ 0 := by exact_mod_cast hm.ne'
  have hr : r = p + (n : Rat) / m := by
    field_simp
    exact_mod_cast h
  show ⌊r⌋ = _
  rw [hr, Int.floor_intCast_add, Rat.floor_intCast_div_natCast]

/-- The distance past the breakpoint along the direction of the law, in units of 2^-32. -/
def GearLaw.past (l : GearLaw) (z : Int) : Int := l.sigma * (z - l.x)

/-- The distance past the breakpoint in user units. -/
theorem GearLaw.past_units (l : GearLaw) (z : Int) :
    (l.sigma : Rat) * ((z : Rat) / 2 ^ 32 - (l.x : Rat) / 2 ^ 32) = (l.past z : Rat) / 2 ^ 32 := by
  unfold GearLaw.past
  push_cast
  ring

section Regions
variable {l : GearLaw} {z : Int}

theorem GearLaw.value_before (h : l.past z < 0) : l.value z = l.px + l.sigma * l.gx * l.past z / 2 ^ 40 := by
  unfold GearLaw.past at h
  exact if_pos h

theorem GearLaw.value_blending (h : 0 ≤ l.past z) (hb : l.past z < l.b) :
    l.value z = l.px + l.sigma * (l.gx * l.past z * (2 * l.b) + (l.gnew - l.gx) * l.past z * l.past z) /
      (2 * l.b * 2 ^ 40) := by
  unfold GearLaw.past at *
  exact (if_neg (Int.not_lt.mpr h)).trans (if_pos hb)

theorem GearLaw.value_after (h : 0 ≤ l.past z) (hb : l.b ≤ l.past z) :
    l.value z = l.px + l.sigma * ((l.gx + l.gnew) * l.b + 2 * l.gnew * (l.past z - l.b)) / 2 ^ 41 := by
  unfold GearLaw.past at *
  exact (if_neg (Int.not_lt.mpr h)).trans (if_neg (Int.not_lt.mpr hb))

/-- Before the breakpoint the old ratio holds. -/
theorem GearLaw.value_before_exact (h : l.past z < 0) :
    l.value z = (((l.px : Rat) / 2 ^ 24 + l.sigma * ((l.gx : Rat) / 2 ^ 32) * ((l.past z : Rat) / 2 ^ 32)) *
      2 ^ 24).floor := by
  rw [GearLaw.value_before h]
  refine (floor_eq_add_ediv (by norm_num) ?_).symm
  push_cast
  ring

/-- In the blend the ratio changes linearly, so the set-point changes with the square of the distance. -/
theorem GearLaw.value_blending_exact (h : 0 ≤ l.past z) (hb : l.past z < l.b) :
    let u : Rat := (l.past z : Rat) / 2 ^ 32
    let b : Rat := (l.b : Rat) / 2 ^ 32
    let gx : Rat := (l.gx : Rat) / 2 ^ 32
    let gnew : Rat := (l.gnew : Rat) / 2 ^ 32
    l.value z = (((l.px : Rat) / 2 ^ 24 + l.sigma * (gx * u + (gnew - gx) * (u * u) / (2 * b))) * 2 ^ 24).floor := by
  have hne : (l.b : Rat) ≠ 0 := by exact_mod_cast (by omega : l.b ≠ 0)
  dsimp only
  rw [GearLaw.value_blending h hb]
  refine (floor_eq_add_ediv (by omega) ?_).symm
  push_cast
  field_simp
  ring

/-- Past the blend the new ratio holds from the end of the blend on. -/
theorem GearLaw.value_after_exact (h : 0 ≤ l.past z) (hb : l.b ≤ l.past z) :
    let u : Rat := (l.past z : Rat) / 2 ^ 32
    let b : Rat := (l.b : Rat) / 2 ^ 32
    let gx : Rat := (l.gx : Rat) / 2 ^ 32
    let gnew : Rat := (l.gnew : Rat) / 2 ^ 32
    l.value z = (((l.px : Rat) / 2 ^ 24 + l.sigma * ((gx + gnew) * b / 2 + gnew * (u - b))) * 2 ^ 24).floor := by
  dsimp only
  rw [GearLaw.value_after h hb]
  refine (floor_eq_add_ediv (by norm_num) ?_).symm
  push_cast
  ring

end Regions

/-! ### What the profile generator keeps of an axis -/

@[simp] theorem Dev.px_setPx_same (d : Dev) (a : Nat) (x : PrfAx) : (d.setPx a x).px a = x := Tab.look_put_same _ _ _ _
@[simp] theorem Dev.setPx_r (d : Dev) (a : Nat) (x : PrfAx) (f : Field) : (d.setPx a x).r f = d.r f := rfl
@[simp] theorem Dev.setPx_modeOf (d : Dev) (a b : Nat) (x : PrfAx) : (d.setPx a x).modeOf b = d.modeOf b := rfl
@[simp] theorem Dev.w_px (d : Dev) (f : Field) (v a : Nat) : (d.w f v).px a = d.px a := rfl
@[simp] theorem Dev.flag_px (d : Dev) (f : Field) (a : Nat) : (d.flag f).px a = d.px a := rfl
@[simp] theorem Dev.putMw_px (d : Dev) (w v a : Nat) : (d.putMw w v).px a = d.px a := rfl

/-! ### GEAR mode (R181, R183) -/

/-- An entry that is taken starts its law where the law before it stands at the entry's breakpoint. -/
theorem Dev.gear_takeEntry {d : Dev} {a : Nat} {l : GearLaw} (h : (d.px a).gear = some l) (e : GearEntry) (xs sigma : Int) :
    ((d.takeEntry a e xs sigma).px a).gear = some ⟨xs, l.value xs, l.slope xs, e.ratio, e.b, sigma⟩ := by
  unfold Dev.takeEntry
  cases e.index <;> simp [h]

/-- With no armed entry an axis in GEAR mode follows its law at the predicted coordinate of the next epoch. -/
theorem Dev.sp_gearMotion {d : Dev} {a : Nat} {l : GearLaw} (harmed : d.armedEntries a = []) (h : (d.px a).gear = some l) :
    (d.gearMotion a).2.sp = l.value ((d.px a).sun + (d.predicted (d.px a).coord).1) := by
  unfold Dev.gearMotion
  dsimp only
  rw [harmed]
  simp only [List.filter_nil, sortBy, List.foldl_nil, Dev.each, h]
  rfl

theorem Dev.motionOf_of_gear {d : Dev} {a : Nat} (h : d.modeOf a = 3) (n : Nat) : d.motionOf a n = d.gearMotion a := by
  unfold Dev.motionOf
  rw [h]
  rfl

/-- Settles O30: the value of a law by the region that the distance past its breakpoint lies in, the motion by the law. -/
theorem gearLawOfOneCoordinate : Obligations.GearLawOfOneCoordinate := by
  unfold Obligations.GearLawOfOneCoordinate
  have hunit : (0 : Rat) < 2 ^ 32 := by norm_num
  refine ⟨fun l z _ _ => ?_, fun d a e xs sigma l h => Dev.gear_takeEntry h e xs sigma, fun d a n l hm harmed h => ?_⟩
  · dsimp only
    rw [GearLaw.past_units, div_lt_iff₀ hunit, le_div_iff₀ hunit, zero_mul, div_lt_div_iff_of_pos_right hunit,
      div_le_div_iff_of_pos_right hunit, Int.cast_lt_zero, Int.cast_nonneg_iff, Int.cast_lt, Int.cast_le]
    exact ⟨GearLaw.value_before_exact, GearLaw.value_blending_exact, GearLaw.value_after_exact⟩
  · rw [Dev.motionOf_of_gear hm, Dev.sp_gearMotion harmed h]

/-! ### The status fields of an axis (R160, R176) -/

/-- Two fields of one register word differ where their lowest bits do. -/
theorem Field.key_ne {f g : Field} (ha : f.addr = g.addr) (hlo : f.lo ≠ g.lo) : f.key ≠ g.key := by
  unfold Field.key
  omega

theorem Dev.modeOf_setMode {d : Dev} (h : d.Sound) (a : Nat) {m : Nat} (hm : m < 8) : (d.setMode a m).modeOf a = m :=
  (Dev.r_w_same h.regs _ _).trans (Nat.mod_eq_of_lt hm)

/-- Entering HOLD changes the mode alone of the status fields. -/
theorem Dev.r_enterHold_other (d : Dev) (a : Nat) {f : Field} (h : f.key ≠ (Reg.AX_PRF_STAT_MODE a).key) :
    (d.enterHold a).r f = d.r f :=
  d.r_w_other h 0

theorem Dev.modeOf_enterHold {d : Dev} (h : d.Sound) (a : Nat) : (d.enterHold a).modeOf a = 0 :=
  Dev.modeOf_setMode h a (by omega)

/-- In HOLD an axis has neither a plan nor a gear law, and its set-point is the one that it had. -/
theorem Dev.px_enterHold (d : Dev) (a : Nat) :
    (d.enterHold a).px a = { d.px a with plan := none, gear := none, implicit := none, coordMode := false } :=
  Dev.px_setPx_same _ _ _

/-- A count of replans changes no status field. -/
theorem Dev.r_countReplan_other (d : Dev) (a : Nat) {f : Field} (h : f.key ≠ (Reg.AX_PRF_CNT_REPLAN a).key) :
    (d.countReplan a).r f = d.r f :=
  d.r_w_other h _

/-! ### HOLD and TIME (R161, R168, R171) -/

/-- The motion of an axis that stands still at `sp`. -/
def Motion.still (sp : Int) : Motion := { sp := sp, star := sp, vel := 0, acc := 0, vf := 0, af := 0 }

theorem Dev.motionOf_of_hold {d : Dev} {a : Nat} (h : d.modeOf a = 0) (n : Nat) :
    d.motionOf a n = (d, Motion.still (d.px a).sp) := by
  unfold Dev.motionOf
  rw [h]
  rfl

theorem Dev.motionOf_of_time {d : Dev} {a : Nat} (h : d.modeOf a = 1) (n : Nat) : d.motionOf a n = d.timeMotion a n := by
  unfold Dev.motionOf
  rw [h]
  rfl

section Time
variable {d : Dev} {a n : Nat} {p : Plan} (hplan : (d.px a).plan = some p)
include hplan

/-- While the segments last, the motion is the plan's state at the next epoch. -/
theorem Dev.timeMotion_of_lasting {x v c : Nat} (hat : p.at (fint (((n + 1 : Nat) : Int) - p.start)) = some (x, v, c)) :
    (d.timeMotion a n).1 = d ∧ (d.timeMotion a n).2.sp = p.org + q24 x ∧ (d.timeMotion a n).2.vel = q24 v ∧
      (d.timeMotion a n).2.acc = q24 c := by
  unfold Dev.timeMotion
  dsimp only
  rw [hplan]
  dsimp only
  rw [hat]
  exact ⟨rfl, rfl, rfl, rfl⟩

/-- Past its segments a plan that is no stop before a reversal ends, and the axis stands still at the plan's end. -/
theorem Dev.timeMotion_of_ended (hat : p.at (fint (((n + 1 : Nat) : Int) - p.start)) = none) (hrev : p.rev = false) :
    d.timeMotion a n = (d.endPlan a p, Motion.still p.final) := by
  unfold Dev.timeMotion
  dsimp only
  rw [hplan]
  dsimp only
  rw [hat]
  dsimp only
  rw [hrev]
  rfl

end Time

/-- A plan to a target that ends there sets DONE in HOLD. -/
theorem Dev.endPlan_of_target (d : Dev) (a : Nat) {p : Plan} (hkind : p.kind = 0) (hovr : p.ovr = false) :
    d.endPlan a p = (d.enterHold a).flag (Reg.AX_PRF_STAT_DONE a) := by
  simp [Dev.endPlan, hkind, hovr]

/-! ### Stops (R176, R613) -/

theorem Dev.applyStop_of_le {d : Dev} {a k : Nat} (h : k ≤ d.r (Reg.AX_PRF_STAT_STOP_KIND a)) (n : Nat) :
    d.applyStop a n k = d :=
  if_pos h

/-- The device with stop kind `k` shown for the axis, and neither DONE nor a pending reversal. -/
def Dev.showStop (d : Dev) (a k : Nat) : Dev :=
  ((d.w (Reg.AX_PRF_STAT_STOP_KIND a) k).w (Reg.AX_PRF_STAT_DONE a) 0).w (Reg.AX_PRF_STAT_REVERSAL_PENDING a) 0

@[simp] theorem Dev.px_showStop (d : Dev) (a k b : Nat) : (d.showStop a k).px b = d.px b := rfl

theorem Dev.Sound.showStop {d : Dev} (h : d.Sound) (a k : Nat) : (d.showStop a k).Sound := ((h.w _ _).w _ _).w _ _

theorem Dev.stopKind_showStop {d : Dev} (h : d.Sound) (a : Nat) {k : Nat} (hk : k < 16) :
    (d.showStop a k).r (Reg.AX_PRF_STAT_STOP_KIND a) = k := by
  have hrev : (Reg.AX_PRF_STAT_STOP_KIND a).key ≠ (Reg.AX_PRF_STAT_REVERSAL_PENDING a).key :=
    Field.key_ne rfl (by simp [Reg.AX_PRF_STAT_STOP_KIND, Reg.AX_PRF_STAT_REVERSAL_PENDING])
  have hdone : (Reg.AX_PRF_STAT_STOP_KIND a).key ≠ (Reg.AX_PRF_STAT_DONE a).key :=
    Field.key_ne rfl (by simp [Reg.AX_PRF_STAT_STOP_KIND, Reg.AX_PRF_STAT_DONE])
  rw [Dev.showStop, Dev.r_w_other _ hrev, Dev.r_w_other _ hdone, Dev.r_w_same h.regs]
  exact Nat.mod_eq_of_lt hk

section Stop
variable {d : Dev} {a k : Nat} (hk : d.r (Reg.AX_PRF_STAT_STOP_KIND a) < k)
include hk

/-- A higher stop without usable limits takes the axis into HOLD at once, at velocity 0. -/
theorem Dev.applyStop_of_no_limits
    (hlim : f64.isPos (d.stopLimits a k).1 = false ∨ f64.isPos (d.stopLimits a k).2 = false) (n : Nat) :
    d.applyStop a n k = ((d.showStop a k).enterHold a).setPx a
      { ((d.showStop a k).enterHold a).px a with vf := 0, af := 0, planWait := k == 5 } := by
  have hbad : (!f64.isPos (d.stopLimits a k).1 || !f64.isPos (d.stopLimits a k).2) = true := by simpa using hlim
  unfold Dev.applyStop
  rw [if_neg (Nat.not_le.mpr hk)]
  exact if_pos hbad

/-- A higher stop with usable limits plans the way to rest in TIME. -/
theorem Dev.applyStop_of_limits
    (hlim : ¬ (f64.isPos (d.stopLimits a k).1 = false ∨ f64.isPos (d.stopLimits a k).2 = false)) (n : Nat) :
    ∃ x : PrfAx, d.applyStop a n k = (((((d.showStop a k).enterHold a).setMode a 1).w (Reg.AX_DECEL_EFF a)
      (d.stopLimits a k).1).setPx a x).countReplan a := by
  have hgood : ¬ (!f64.isPos (d.stopLimits a k).1 || !f64.isPos (d.stopLimits a k).2) = true := by simpa using hlim
  unfold Dev.applyStop
  rw [if_neg (Nat.not_le.mpr hk)]
  exact ⟨_, if_neg hgood⟩

/-- A higher stop is the one that is shown. -/
theorem Dev.stopKind_applyStop (h : d.Sound) (h16 : k < 16) (n : Nat) :
    (d.applyStop a n k).r (Reg.AX_PRF_STAT_STOP_KIND a) = k := by
  have hmode : (Reg.AX_PRF_STAT_STOP_KIND a).key ≠ (Reg.AX_PRF_STAT_MODE a).key :=
    Field.key_ne rfl (by simp [Reg.AX_PRF_STAT_STOP_KIND, Reg.AX_PRF_STAT_MODE])
  by_cases hlim : f64.isPos (d.stopLimits a k).1 = false ∨ f64.isPos (d.stopLimits a k).2 = false
  · rw [Dev.applyStop_of_no_limits hk hlim, Dev.setPx_r, Dev.r_enterHold_other _ a hmode, Dev.stopKind_showStop h a h16]
  · have hcnt : (Reg.AX_PRF_STAT_STOP_KIND a).key ≠ (Reg.AX_PRF_CNT_REPLAN a).key := by
      simp only [Field.key, Reg.AX_PRF_STAT_STOP_KIND, Reg.AX_PRF_CNT_REPLAN]
      omega
    have hdecel : (Reg.AX_PRF_STAT_STOP_KIND a).key ≠ (Reg.AX_DECEL_EFF a).key := by
      simp only [Field.key, Reg.AX_PRF_STAT_STOP_KIND, Reg.AX_DECEL_EFF]
      omega
    obtain ⟨x, e⟩ := Dev.applyStop_of_limits hk hlim n
    rw [e, Dev.r_countReplan_other _ a hcnt, Dev.setPx_r, Dev.r_w_other _ hdecel, Dev.setMode, Dev.r_w_other _ hmode,
      Dev.r_enterHold_other _ a hmode, Dev.stopKind_showStop h a h16]

end Stop

/-- Settles O29: the motion by the mode and by what is left of the plan, a stop by its kind and its limits. -/
theorem setPointsOfTheModes : Obligations.SetPointsOfTheModes := by
  unfold Obligations.SetPointsOfTheModes
  refine ⟨fun d a n h => ?_, fun d a n p x v c h hplan hat => ?_, fun d a n p h hplan hat hrev hkind hovr hs => ?_,
    fun d a n k hk => Dev.applyStop_of_le hk n, fun d a n k hs hk h8 _ =>
      ⟨Dev.stopKind_applyStop hk hs (by omega) n, fun hlim => ?_⟩⟩
  · rw [Dev.motionOf_of_hold h]
    exact ⟨rfl, rfl, rfl, rfl⟩
  · rw [Dev.motionOf_of_time h]
    exact Dev.timeMotion_of_lasting hplan hat
  · have hdone : (Reg.AX_PRF_STAT_MODE a).key ≠ (Reg.AX_PRF_STAT_DONE a).key :=
      Field.key_ne rfl (by simp [Reg.AX_PRF_STAT_MODE, Reg.AX_PRF_STAT_DONE])
    rw [Dev.motionOf_of_time h, Dev.timeMotion_of_ended hplan hat hrev, Dev.endPlan_of_target d a hkind hovr]
    exact ⟨rfl, rfl, (Dev.r_w_other _ hdone 1).trans (Dev.modeOf_enterHold hs a),
      Dev.b_wb_same (Dev.enterHold_sound d a hs) rfl true, by rw [Dev.flag_px, Dev.px_enterHold]⟩
  · rw [Dev.applyStop_of_no_limits hk hlim, Dev.setPx_modeOf, Dev.px_setPx_same, Dev.px_enterHold]
    exact ⟨Dev.modeOf_enterHold (hs.showStop a k) a, rfl, rfl, rfl⟩

/-! ### Profile commands: what the words of a packet leave as it is -/

@[simp] theorem Dev.taken_mw2 (d : Dev) (p : Packet) (op a : Nat) : (d.taken p op).mw2 a = d.mw2 a := by
  simp [Dev.mw2]

@[simp] theorem Dev.taken_px (d : Dev) (p : Packet) (op a : Nat) : (d.taken p op).px a = d.px a := by
  simp [Dev.px]

@[simp] theorem Dev.taken_modeOf (d : Dev) (p : Packet) (op a : Nat) : (d.taken p op).modeOf a = d.modeOf a := by
  simp [Dev.modeOf]

@[simp] theorem Dev.taken_motionDenied (d : Dev) (p : Packet) (op a : Nat) :
    (d.taken p op).motionDenied a = d.motionDenied a := by
  simp [Dev.motionDenied]

@[simp] theorem Dev.taken_atRest (d : Dev) (p : Packet) (op a : Nat) : (d.taken p op).atRest a = d.atRest a := by
  simp [Dev.atRest]

@[simp] theorem Dev.taken_holdRest (d : Dev) (p : Packet) (op a : Nat) : (d.taken p op).holdRest a = d.holdRest a := by
  simp [Dev.holdRest]

@[simp] theorem Dev.taken_paramWord (d : Dev) (p : Packet) (op a w : Nat) :
    (d.taken p op).paramWord a w = d.paramWord a w := by
  simp [Dev.paramWord]

@[simp] theorem Dev.taken_vlimEn (d : Dev) (p : Packet) (op a : Nat) : (d.taken p op).vlimEn a = d.vlimEn a := by
  simp [Dev.vlimEn]

@[simp] theorem Dev.taken_limLo (d : Dev) (p : Packet) (op a : Nat) : (d.taken p op).limLo a = d.limLo a := by
  simp [Dev.limLo, Dev.param64]

@[simp] theorem Dev.taken_limHi (d : Dev) (p : Packet) (op a : Nat) : (d.taken p op).limHi a = d.limHi a := by
  simp [Dev.limHi, Dev.param64]

@[simp] theorem Dev.taken_tooFar (d : Dev) (p : Packet) (op a : Nat) (t : Int) :
    (d.taken p op).tooFar a t = d.tooFar a t := by
  simp [Dev.tooFar]

@[simp] theorem Dev.taken_modulus (d : Dev) (p : Packet) (op n : Nat) : (d.taken p op).modulus n = d.modulus n := by
  simp [Dev.modulus]

@[simp] theorem Dev.taken_slotWords (d : Dev) (p : Packet) (op a sl : Nat) :
    (d.taken p op).slotWords a sl = d.slotWords a sl := by
  simp [Dev.slotWords]

/-- A command that enters the list for the next generator instant (R166). -/
theorem Dev.prfQueue_taken (d : Dev) (p : Packet) (op a o : Nat) (ws : List Nat) :
    (d.taken p op).prfQueue a o ws = { d.taken p op with prf := { d.prf with cmds := d.prf.cmds ++ [(a, o, ws)] } } := by
  rw [Dev.prfQueue, Dev.taken_prf]

/-! ### The words after the axis -/

theorem getD_params_drop_one (p : Packet) (i : Nat) : ((p.params.map BitVec.toNat).drop 1).getD i 0 = p.arg (i + 1) := by
  simp [Packet.arg]

theorem pairAt_params_drop_one (p : Packet) (i : Nat) :
    pairAt ((p.params.map BitVec.toNat).drop 1) i = pair64 (p.arg (i + 1)) (p.arg (i + 2)) := by
  rw [pairAt, getD_params_drop_one, getD_params_drop_one]

theorem params_drop_one_of_length_three {p : Packet} (h : p.params.length = 3) :
    (p.params.map BitVec.toNat).drop 1 = [p.arg 1, p.arg 2] := by
  obtain ⟨u, v, w, e⟩ := List.length_eq_three.mp h
  simp [Packet.arg, e]

/-! ### Reads (R191) -/

theorem exec_prfInfo_ready {s : State} {p : Packet} (h : s.dev.Ready p 0x300 0 false) :
    exec (.prfInfo p) s = replied s p 0x300 (s.dev.taken p 0x300)
      (.ok [s.dev.regWord 0x30_0004, s.dev.regWord 0x30_0008, s.dev.r Reg.PRF_WDRAW_CNT]) := by
  show execPrfInfo p s = _
  exact ok_runPacket_short_of_ready h (by simp)

theorem exec_prfAxisRead_ready {s : State} {p : Packet} (h : s.dev.Ready p 0x309 1 false)
    (ha : p.arg 0 < axesOf s.grade) (hv : s.dev.ep.front.valid = false) :
    let a := p.arg 0
    exec (.prfAxisRead p) s = replied s p 0x309 (s.dev.taken p 0x309)
      (.ok [s.dev.regWord (0x30_1000 + 0x40 * a), loW (s.dev.r (Reg.AX_SP a)), hiW (s.dev.r (Reg.AX_SP a)),
        loW (s.dev.r (Reg.AX_VEL a)), hiW (s.dev.r (Reg.AX_VEL a)), loW (s.dev.r (Reg.AX_ACC a)),
        hiW (s.dev.r (Reg.AX_ACC a)), loW (s.dev.r (Reg.AX_TARGET a)), hiW (s.dev.r (Reg.AX_TARGET a)),
        s.dev.r (Reg.AX_CAP a), loW (s.dev.r Reg.EPK_NOW), hiW (s.dev.r Reg.EPK_NOW)]) := by
  have htaken : (s.dev.taken p 0x309).ep.front.valid = false := by rw [Dev.taken_ep, hv]
  show execPrfAxisRead p s = _
  refine ok_runPacket_graded_of_ready h ((if_neg (Nat.not_le.mpr ha)).trans ?_)
  simp [Dev.ofFront_of_invalid htaken, Dev.frontWords_of_invalid htaken, Packet.arg]

/-! ### Commands for the next generator instant (R166, R172, R184) -/

section Queued
variable {d : Dev} {g : Grade} {a : Nat} (ha : a < axesOf g)
include ha

theorem Dev.prfStart_of_refused {sl : Nat} (hsl : sl < 16) {r : Res}
    (h : d.startRefused a (slotOf (d.slotWords a sl)) = some r) : d.prfStart g a sl = (d, r) := by
  unfold Dev.prfStart
  dsimp only
  rw [if_neg (Nat.not_le.mpr ha), if_neg (Nat.not_le.mpr hsl), h]

theorem Dev.prfStart_of_taken {sl : Nat} (hsl : sl < 16) (h : d.startRefused a (slotOf (d.slotWords a sl)) = none) :
    d.prfStart g a sl = (d.prfQueue a 0x301 (d.slotWords a sl), .ok (d.spEpoch a)) := by
  unfold Dev.prfStart
  dsimp only
  rw [if_neg (Nat.not_le.mpr ha), if_neg (Nat.not_le.mpr hsl), h]

theorem Dev.prfTarget_of_denied (h : d.motionDenied a = true) (ws : List Nat) : d.prfTarget g a ws = (d, .denied) := by
  simp [Dev.prfTarget, ha, h]

section Free
variable (hfree : d.motionDenied a = false) (hin : d.b (Reg.AX_PRF_STAT_OUTSIDE a) = false)
include hfree hin

theorem Dev.prfTarget_of_unplanned (h1 : d.modeOf a ≠ 1) (h2 : d.modeOf a ≠ 2) (ws : List Nat) :
    d.prfTarget g a ws = (d, .busy) := by
  simp [Dev.prfTarget, ha, hfree, hin, h1, h2]

theorem Dev.prfTarget_of_planned (hm : d.modeOf a = 1 ∨ d.modeOf a = 2) {ws : List Nat}
    (hnear : d.tooFar a (sx 64 (pairAt ws 0)) = false)
    (hlim : d.vlimEn a = true → d.limLo a ≤ sx 64 (pairAt ws 0) ∧ sx 64 (pairAt ws 0) < d.limHi a) :
    d.prfTarget g a ws = (d.prfQueue a 0x302 ws, .ok (d.spEpoch a)) := by
  unfold Dev.prfTarget
  rw [if_neg (Nat.not_le.mpr ha), if_neg (by simp [hfree, hin]), if_neg (by simpa [← or_iff_not_imp_left] using hm)]
  exact if_neg (by simpa [hnear] using hlim)

theorem Dev.prfLimits_of_unplanned (h1 : d.modeOf a ≠ 1) (h2 : d.modeOf a ≠ 2) (ws : List Nat) :
    d.prfLimits g a ws = (d, .busy) := by
  simp [Dev.prfLimits, ha, hfree, hin, h1, h2]

theorem Dev.prfLimits_of_planned (hm : d.modeOf a = 1 ∨ d.modeOf a = 2) {ws : List Nat}
    (hpos : ∀ i ∈ [0, 2, 4, 6], f64.isPos (pairAt ws i) = true) :
    d.prfLimits g a ws = (d.prfQueue a 0x303 ws, .ok (d.spEpoch a)) := by
  have hfind : [0, 2, 4, 6].find? (fun i => !f64.isPos (pairAt ws i)) = none :=
    List.find?_eq_none.mpr (fun i hi => by simp [hpos i hi])
  unfold Dev.prfLimits
  rw [if_neg (Nat.not_le.mpr ha), if_neg (by simp [hfree, hin]),
    if_neg (by simpa [← or_iff_not_imp_left] using hm), hfind]

end Free

section GearStart
variable {ws : List Nat} (hco : ws.getD 0 0 < 8) (hdir : ws.getD 1 0 < 3) (hfree : d.motionDenied a = false)
  (hin : d.b (Reg.AX_PRF_STAT_OUTSIDE a) = false)
include hco hdir hfree hin

/-- With fields in range and motion allowed, GEAR_START looks at the axis, then at the coordinate and the breakpoint. -/
theorem Dev.gearStart_eq : d.gearStart g a ws =
    let ahead := diffC (d.modulus (ws.getD 0 0)) (d.coord (ws.getD 0 0)).cur (sx 64 (pairAt ws 2))
    if d.atRest a = false then (d, .busy)
    else if d.b (Reg.COORD_STAT_VALID (ws.getD 0 0)) = false then (d, .badParam 3)
    else if (ws.getD 1 0 = 0 ∧ 0 ≤ ahead) ∨ (ws.getD 1 0 = 1 ∧ ahead < 0) then (d, .badParam 5)
    else (d.prfQueue a 0x305 ws, .ok []) := by
  unfold Dev.gearStart
  dsimp only
  rw [Nat.mod_eq_of_lt hco, if_neg (Nat.not_le.mpr ha), if_neg (Nat.not_le.mpr hco), if_neg (Nat.not_le.mpr hdir),
    if_neg (by simp [hfree, hin])]
  simp only [Bool.not_eq_true']

theorem Dev.gearStart_of_moving (hrest : d.atRest a = false) : d.gearStart g a ws = (d, .busy) := by
  rw [Dev.gearStart_eq ha hco hdir hfree hin]
  exact if_pos hrest

section Rest
variable (hrest : d.atRest a = true)
include hrest

theorem Dev.gearStart_of_invalid (hval : d.b (Reg.COORD_STAT_VALID (ws.getD 0 0)) = false) :
    d.gearStart g a ws = (d, .badParam 3) := by
  rw [Dev.gearStart_eq ha hco hdir hfree hin]
  exact (if_neg (ne_false_of_eq_true hrest)).trans (if_pos hval)

/-- GEAR_START is taken when its breakpoint lies ahead in the direction that it names. -/
theorem Dev.gearStart_of_taken (hval : d.b (Reg.COORD_STAT_VALID (ws.getD 0 0)) = true)
    (hdown : ws.getD 1 0 = 0 →
      diffC (d.modulus (ws.getD 0 0)) (d.coord (ws.getD 0 0)).cur (sx 64 (pairAt ws 2)) < 0)
    (hup : ws.getD 1 0 = 1 →
      0 ≤ diffC (d.modulus (ws.getD 0 0)) (d.coord (ws.getD 0 0)).cur (sx 64 (pairAt ws 2))) :
    d.gearStart g a ws = (d.prfQueue a 0x305 ws, .ok []) := by
  rw [Dev.gearStart_eq ha hco hdir hfree hin]
  dsimp only
  rw [if_neg (ne_false_of_eq_true hrest), if_neg (ne_false_of_eq_true hval), if_neg (by omega)]

end Rest
end GearStart
end Queued

theorem exec_prfStart_ready {s : State} {p : Packet} (h : s.dev.Ready p 0x301 2 false) {d : Dev} {res : Res}
    (hbody : (s.dev.taken p 0x301).prfStart s.grade (p.arg 0) (p.arg 1) = (d, res)) :
    exec (.prfStart p) s = replied s p 0x301 d res := by
  show execPrfStart p s = _
  exact ok_runPacket_graded_of_ready h hbody

theorem exec_prfTarget_ready {s : State} {p : Packet} (h : s.dev.Ready p 0x302 3 false) {d : Dev} {res : Res}
    (hbody : (s.dev.taken p 0x302).prfTarget s.grade (p.arg 0) ((p.params.map BitVec.toNat).drop 1) = (d, res)) :
    exec (.prfTarget p) s = replied s p 0x302 d res := by
  show execPrfTarget p s = _
  exact ok_runPacket_graded_of_ready h hbody

theorem exec_prfLimits_ready {s : State} {p : Packet} (h : s.dev.Ready p 0x303 9 false) {d : Dev} {res : Res}
    (hbody : (s.dev.taken p 0x303).prfLimits s.grade (p.arg 0) ((p.params.map BitVec.toNat).drop 1) = (d, res)) :
    exec (.prfLimits p) s = replied s p 0x303 d res := by
  show execPrfLimits p s = _
  exact ok_runPacket_graded_of_ready h hbody

theorem exec_gearStart_ready {s : State} {p : Packet} (h : s.dev.Ready p 0x305 9 false) {d : Dev} {res : Res}
    (hbody : (s.dev.taken p 0x305).gearStart s.grade (p.arg 0) ((p.params.map BitVec.toNat).drop 1) = (d, res)) :
    exec (.gearStart p) s = replied s p 0x305 d res := by
  show execGearStart p s = _
  exact ok_runPacket_graded_of_ready h hbody

/-! ### PRF_STOP, PLAN_START and PRF_RELEASE (R172, R176, R297) -/

/-- A mask that names only axes of the grade is not refused. -/
theorem any_lacking_eq_false {g : Grade} {axes : List Nat} (h : ∀ a ∈ axes, a < axesOf g) :
    axes.any (fun a => decide (axesOf g ≤ a)) = false :=
  List.any_eq_false.mpr (fun a ha => by simp [h a ha])

theorem exec_prfStop_ready {s : State} {p : Packet} (h : s.dev.Ready p 0x304 5 false)
    (haxes : ∀ a ∈ axisList (p.params.map BitVec.toNat), a < axesOf s.grade) (hm : p.arg 4 ≤ 1) :
    exec (.prfStop p) s = replied s p 0x304 ((s.dev.taken p 0x304).each (axisList (p.params.map BitVec.toNat)) (fun a d =>
      d.setPx a { d.px a with stopReq := (d.px a).stopReq ++ [if p.arg 4 = 0 then 1 else 7] })) (.ok []) := by
  show execPrfStop p s = _
  refine ok_runPacket_graded_of_ready h ?_
  unfold Dev.prfStop
  rw [any_lacking_eq_false haxes, if_neg Bool.false_ne_true]
  exact if_neg (Nat.not_lt.mpr hm)

/-- A command queued for each of the axes, in the order of the axes. -/
theorem Dev.each_prfQueue (d : Dev) (axes : List Nat) (op : Nat) (ws : List Nat) :
    d.each axes (fun a d => d.prfQueue a op ws) =
      { d with prf := { d.prf with cmds := d.prf.cmds ++ axes.map (fun a => (a, op, ws)) } } := by
  induction axes generalizing d with
  | nil => simp [Dev.each]
  | cons a axes ih =>
    refine (ih (d.prfQueue a op ws)).trans ?_
    simp [Dev.prfQueue]

/-- An axis that PLAN_START takes: mapped by Sage, at rest, inside its limits and with no stop to be released. -/
def Dev.planReady (d : Dev) (g : Grade) (a : Nat) : Bool :=
  sageFitted g && d.sage.map.any (fun k => k.axis == a) && d.atRest a && !d.motionDenied a &&
    !d.b (Reg.AX_PRF_STAT_OUTSIDE a)

theorem Dev.planStartCmd_of_present {d : Dev} {g : Grade} {axes : List Nat} (h : ∀ a ∈ axes, a < axesOf g) :
    d.planStartCmd g axes = (d.each (axes.filter (d.planReady g)) (fun a d => d.prfQueue a 0x307 []),
      .ok (Machine.axisMask (axes.filter (fun a => !d.planReady g a)))) := by
  have hbad (a : Nat) : (!sageFitted g || !(d.sage.map.any (fun k => k.axis == a)) || !d.atRest a || d.motionDenied a ||
      d.b (Reg.AX_PRF_STAT_OUTSIDE a)) = !d.planReady g a := by
    simp [Dev.planReady]
  unfold Dev.planStartCmd
  rw [any_lacking_eq_false h, if_neg Bool.false_ne_true]
  simp only [hbad, Bool.not_not]

theorem exec_planStart_ready {s : State} {p : Packet} (h : s.dev.Ready p 0x307 4 false)
    (haxes : ∀ a ∈ axisList (p.params.map BitVec.toNat), a < axesOf s.grade) :
    let axes := axisList (p.params.map BitVec.toNat)
    exec (.planStart p) s = replied s p 0x307 { s.dev.taken p 0x307 with prf := { s.dev.prf with
        cmds := s.dev.prf.cmds ++ (axes.filter (s.dev.planReady s.grade)).map (fun a => (a, 0x307, [])) } }
      (.ok (axisMask (axes.filter (fun a => !s.dev.planReady s.grade a)))) := by
  have hready : (s.dev.taken p 0x307).planReady s.grade = s.dev.planReady s.grade := by
    funext a
    simp [Dev.planReady]
  show execPlanStart p s = _
  refine ok_runPacket_graded_of_ready h ((Dev.planStartCmd_of_present haxes).trans ?_)
  rw [hready, Dev.each_prfQueue, Dev.taken_prf]

/-- An axis that PRF_RELEASE takes: in HOLD at rest, and not held in protective stop by the Paddock monitor. -/
def Dev.releasable (d : Dev) (a : Nat) : Bool :=
  d.modeOf a == 0 && fsign (d.px a).vf == 0 &&
    !(d.r (Reg.AX_PRF_STAT_STOP_KIND a) == 6 && d.prf.pstop.contains a)

theorem Dev.prfRelease_eq (d : Dev) (axes : List Nat) :
    d.prfRelease axes = (d.each (axes.filter d.releasable) (fun a d => d.w (Reg.AX_PRF_STAT_STOP_KIND a) 0),
      .ok (Machine.axisMask (axes.filter (fun a => !d.releasable a)))) := by
  have hbad (a : Nat) : (!d.holdRest a || (d.r (Reg.AX_PRF_STAT_STOP_KIND a) == 6 && d.prf.pstop.contains a)) =
      !d.releasable a := by
    simp [Dev.releasable, Dev.holdRest]
  simp only [Dev.prfRelease, hbad, Bool.not_not]

theorem exec_prfRelease_ready {s : State} {p : Packet} (h : s.dev.Ready p 0x308 4 false) :
    let axes := (axisList (p.params.map BitVec.toNat)).filter (fun a => decide (a < axesOf s.grade))
    exec (.prfRelease p) s = replied s p 0x308
      ((s.dev.taken p 0x308).each (axes.filter s.dev.releasable) (fun a d => d.w (Reg.AX_PRF_STAT_STOP_KIND a) 0))
      (.ok (axisMask (axes.filter (fun a => !s.dev.releasable a)))) := by
  have hrel : (s.dev.taken p 0x308).releasable = s.dev.releasable := by
    funext a
    simp [Dev.releasable]
  show execPrfRelease p s = _
  refine ok_runPacket_graded_of_ready h ((Dev.prfRelease_eq _ _).trans ?_)
  rw [hrel]

/-! ### GEAR_ARM and PRF_PARAM_WRITE (R183, R189) -/

section Arm
variable {d : Dev} {g : Grade} {a e on : Nat} (ha : a < axesOf g) (he : e < 16) (hon : on ≤ 1)
include ha he hon

theorem Dev.gearArm_of_other_mode (hm : d.modeOf a ≠ 3) : d.gearArm g a e on = (d, .busy) := by
  unfold Dev.gearArm
  rw [if_neg (Nat.not_le.mpr ha), if_neg (Nat.not_le.mpr he), if_neg (Nat.not_lt.mpr hon), if_pos hm]

theorem Dev.gearArm_of_gear (hm : d.modeOf a = 3) (hdir : bits (d.mw (gearAddr a e)) 1 2 ≠ 3) :
    d.gearArm g a e on = (d.putMw (gearAddr a e) (setBit (d.mw (gearAddr a e)) 0 (on == 1)), .ok []) := by
  unfold Dev.gearArm
  rw [if_neg (Nat.not_le.mpr ha), if_neg (Nat.not_le.mpr he), if_neg (Nat.not_lt.mpr hon), if_neg (not_not_intro hm),
    if_neg (fun h => hdir h.2)]

end Arm

theorem exec_gearArm_ready {s : State} {p : Packet} (h : s.dev.Ready p 0x306 3 false) {d : Dev} {res : Res}
    (hbody : (s.dev.taken p 0x306).gearArm s.grade (p.arg 0) (p.arg 1) (p.arg 2) = (d, res)) :
    exec (.gearArm p) s = replied s p 0x306 d res := by
  show execGearArm p s = _
  exact ok_runPacket_graded_of_ready h hbody

theorem Dev.prfParamWrite_of_moving {d : Dev} {g : Grade} {a : Nat} (ha : a < axesOf g) (h : d.holdRest a = false)
    (ws : List Nat) : d.prfParamWrite g a ws = (d, .busy) := by
  unfold Dev.prfParamWrite
  rw [if_neg (Nat.not_le.mpr ha), if_pos (by simp [h])]

theorem Dev.prfParamWrite_of_good {d : Dev} {g : Grade} {a : Nat} (ha : a < axesOf g) (h : d.holdRest a = true)
    {ws : List Nat} (hgood : d.paramBad g a ws = none) :
    d.prfParamWrite g a ws =
      ({ d with prf := { d.prf with paramNext := d.prf.paramNext ++ [(a, ws.take 15 ++ [0])] } }, .ok []) := by
  unfold Dev.prfParamWrite
  rw [if_neg (Nat.not_le.mpr ha), if_neg (by simp [h]), hgood]

theorem exec_prfParamWrite_ready {s : State} {p : Packet} (h : s.dev.Ready p 0x30A 17 true) {d : Dev} {res : Res}
    (hbody : (s.dev.taken p 0x30A).prfParamWrite s.grade (p.arg 0) ((p.params.map BitVec.toNat).drop 1) = (d, res)) :
    exec (.prfParamWrite p) s = replied s p 0x30A d res := by
  show execPrfParamWrite p s = _
  exact ok_runPacket_graded_of_ready h hbody

/-- Settles O27: each command answers by its own law, read on the device without the packet's words. -/
theorem profileCommands : Obligations.ProfileCommands := by
  unfold Obligations.ProfileCommands
  refine fun s p => ⟨exec_prfInfo_ready, fun h ha hsl => ⟨fun r hr => ?_, fun hr => ?_⟩,
    fun h ha => ⟨fun hden => ?_, fun hfree hin h1 h2 => ?_, fun hfree hin hm hnear hlim => ?_⟩,
    fun h ha hfree hin => ⟨fun h1 h2 => ?_, fun hm hpos => ?_⟩, exec_prfStop_ready,
    fun h ha hco hdir hfree hin => ⟨fun hrest => ?_, fun hrest hval => ?_, fun hrest hval hdown hup => ?_⟩,
    fun h ha he hon => ⟨fun hm => ?_, fun hm hdir => ?_⟩, exec_planStart_ready, exec_prfRelease_ready,
    exec_prfAxisRead_ready, fun h ha => ⟨fun hmov => ?_, fun hrest hgood => ?_⟩⟩
  · exact exec_prfStart_ready h (Dev.prfStart_of_refused ha hsl (by rwa [Dev.taken_slotWords]))
  · refine exec_prfStart_ready h ((Dev.prfStart_of_taken ha hsl (by rwa [Dev.taken_slotWords])).trans ?_)
    rw [Dev.prfQueue_taken, Dev.taken_slotWords]
    rfl
  · exact exec_prfTarget_ready h (Dev.prfTarget_of_denied ha (by rwa [Dev.taken_motionDenied]) _)
  · exact exec_prfTarget_ready h (Dev.prfTarget_of_unplanned ha (by rwa [Dev.taken_motionDenied])
      (by rwa [Dev.taken_b]) (by rwa [Dev.taken_modeOf]) (by rwa [Dev.taken_modeOf]) _)
  · refine exec_prfTarget_ready h ((Dev.prfTarget_of_planned ha (by rwa [Dev.taken_motionDenied])
      (by rwa [Dev.taken_b]) (by rwa [Dev.taken_modeOf]) (by rwa [pairAt_params_drop_one, Dev.taken_tooFar])
      (by simpa only [pairAt_params_drop_one, Dev.taken_vlimEn, Dev.taken_limLo, Dev.taken_limHi] using hlim)).trans ?_)
    rw [Dev.prfQueue_taken, params_drop_one_of_length_three h.length]
  · exact exec_prfLimits_ready h (Dev.prfLimits_of_unplanned ha (by rwa [Dev.taken_motionDenied])
      (by rwa [Dev.taken_b]) (by rwa [Dev.taken_modeOf]) (by rwa [Dev.taken_modeOf]) _)
  · refine exec_prfLimits_ready h ((Dev.prfLimits_of_planned ha (by rwa [Dev.taken_motionDenied])
      (by rwa [Dev.taken_b]) (by rwa [Dev.taken_modeOf])
      (by simpa [pairAt_params_drop_one, -List.drop_one] using hpos)).trans ?_)
    rw [Dev.prfQueue_taken]
  · exact exec_gearStart_ready h (Dev.gearStart_of_moving ha (by rwa [getD_params_drop_one])
      (by rwa [getD_params_drop_one]) (by rwa [Dev.taken_motionDenied]) (by rwa [Dev.taken_b]) (by rwa [Dev.taken_atRest]))
  · exact exec_gearStart_ready h (Dev.gearStart_of_invalid ha (by rwa [getD_params_drop_one])
      (by rwa [getD_params_drop_one]) (by rwa [Dev.taken_motionDenied]) (by rwa [Dev.taken_b]) (by rwa [Dev.taken_atRest])
      (by rwa [getD_params_drop_one, Dev.taken_b]))
  · refine exec_gearStart_ready h ((Dev.gearStart_of_taken ha (by rwa [getD_params_drop_one])
      (by rwa [getD_params_drop_one]) (by rwa [Dev.taken_motionDenied]) (by rwa [Dev.taken_b]) (by rwa [Dev.taken_atRest])
      (by rwa [getD_params_drop_one, Dev.taken_b]) ?_ ?_).trans ?_)
    · simpa only [getD_params_drop_one, pairAt_params_drop_one, Dev.taken_modulus, Dev.taken_coord] using hdown
    · simpa only [getD_params_drop_one, pairAt_params_drop_one, Dev.taken_modulus, Dev.taken_coord] using hup
    · rw [Dev.prfQueue_taken]
  · exact exec_gearArm_ready h (Dev.gearArm_of_other_mode ha he hon (by rwa [Dev.taken_modeOf]))
  · refine exec_gearArm_ready h ((Dev.gearArm_of_gear ha he hon (by rwa [Dev.taken_modeOf])
      (by rwa [Dev.taken_mw])).trans ?_)
    rw [Dev.taken_mw]
  · exact exec_prfParamWrite_ready h (Dev.prfParamWrite_of_moving ha (by rwa [Dev.taken_holdRest]) _)
  · refine exec_prfParamWrite_ready h ((Dev.prfParamWrite_of_good ha (by rwa [Dev.taken_holdRest]) hgood).trans ?_)
    rw [Dev.taken_prf]

end Sys2Proof.Machine

/-! ## Proofs: power teams, sensing and stepper commands -/
namespace Sys2Proof.Machine

/-! ### What the field die keeps of a team and of an encoder -/

theorem Tab.put_put {α : Type} (i : Nat) (x y : α) (t : Tab α) : Tab.put i x (Tab.put i y t) = Tab.put i x t := by
  induction t with
  | nil => simp [Tab.put]
  | cons e r ih =>
    obtain ⟨j, z⟩ := e
    obtain hij | rfl | hji := Nat.lt_trichotomy i j
    · simp [Tab.put, hij]
    · simp [Tab.put]
    · simp [Tab.put, Nat.not_lt.mpr (Nat.le_of_lt hji), Nat.ne_of_gt hji, ih]

@[simp] theorem Dev.tx_setTx_same (d : Dev) (t : Nat) (x : TeamX) : (d.setTx t x).tx t = x := Tab.look_put_same _ _ _ _

theorem Dev.tx_setTx_other (d : Dev) {t u : Nat} (h : u ≠ t) (x : TeamX) : (d.setTx t x).tx u = d.tx u :=
  Tab.look_put_other _ h _ _

/-- Of two changes of one team the later one stays. -/
theorem Dev.setTx_setTx (d : Dev) (t : Nat) (x y : TeamX) : (d.setTx t x).setTx t y = d.setTx t y := by
  simp only [Dev.setTx, Tab.put_put]

@[simp] theorem Dev.setTx_regs (d : Dev) (t : Nat) (x : TeamX) : (d.setTx t x).regs = d.regs := rfl
@[simp] theorem Dev.setTx_r (d : Dev) (t : Nat) (x : TeamX) (f : Field) : (d.setTx t x).r f = d.r f := rfl
@[simp] theorem Dev.setTx_b (d : Dev) (t : Nat) (x : TeamX) (f : Field) : (d.setTx t x).b f = d.b f := rfl
@[simp] theorem Dev.setTx_mem (d : Dev) (t : Nat) (x : TeamX) : (d.setTx t x).mem = d.mem := rfl
@[simp] theorem Dev.setTx_ex (d : Dev) (t : Nat) (x : TeamX) (e : Nat) : (d.setTx t x).ex e = d.ex e := rfl
@[simp] theorem Dev.setEx_r (d : Dev) (e : Nat) (x : EncX) (f : Field) : (d.setEx e x).r f = d.r f := rfl
@[simp] theorem Dev.setEx_tx (d : Dev) (e : Nat) (x : EncX) (t : Nat) : (d.setEx e x).tx t = d.tx t := rfl
@[simp] theorem Dev.ex_setEx_same (d : Dev) (e : Nat) (x : EncX) : (d.setEx e x).ex e = x := Tab.look_put_same _ _ _ _
@[simp] theorem Dev.w_tx (d : Dev) (f : Field) (v t : Nat) : (d.w f v).tx t = d.tx t := rfl
@[simp] theorem Dev.wb_tx (d : Dev) (f : Field) (v : Bool) (t : Nat) : (d.wb f v).tx t = d.tx t := rfl
@[simp] theorem Dev.flag_tx (d : Dev) (f : Field) (t : Nat) : (d.flag f).tx t = d.tx t := rfl

/-! ### Fields of a word, and fields of one bit -/

theorem Dev.b_w_other (d : Dev) {f g : Field} (h : g.key ≠ f.key) (v : Nat) : (d.w f v).b g = d.b g := by
  rw [Dev.b, d.r_w_other h, Dev.b]

/-- A field of one bit that is set reads back. -/
theorem Dev.b_flag_same {d : Dev} (h : d.Sound) {f : Field} (hf : f.width = 1) : (d.flag f).b f = true :=
  Dev.b_wb_same h hf true

theorem Dev.b_clear_same {d : Dev} (h : d.Sound) (f : Field) : (d.w f 0).b f = false := by
  rw [Dev.b, Dev.r_w_same h.regs, Nat.zero_mod]
  rfl

/-! ### Actions on a list of teams -/

theorem mem_onesOf {w x t : Nat} : t ∈ onesOf w x ↔ t < w ∧ bitOf x t = true := by
  rw [onesOf, List.mem_filter, List.mem_range]

/-- What the action keeps for each element of the list, the whole of it keeps. -/
theorem Dev.each_keeps {α : Type} {P : Dev → Prop} {d : Dev} {l : List α} {f : α → Dev → Dev} (h : P d)
    (hf : ∀ x ∈ l, ∀ e, P e → P (f x e)) : P (d.each l f) := by
  induction l generalizing d with
  | nil => exact h
  | cons x l ih =>
    obtain ⟨hx, hl⟩ := List.forall_mem_cons.mp hf
    exact ih (hx d h) hl

/-- An action that gives the entry of the team on which it acts a value that it keeps itself, and changes no other team's entry:
after it the listed teams have the value. -/
theorem Dev.each_entry {α : Type} (g : Dev → Nat → α) (v : Dev → α) {l : List Nat} {f : Nat → Dev → Dev}
    (hv : ∀ t e, v (f t e) = v e) (hself : ∀ t e, g (f t e) t = v e) (hother : ∀ t e u, u ≠ t → g (f t e) u = g e u)
    (d : Dev) (u : Nat) : g (d.each l f) u = if u ∈ l then v d else g d u := by
  induction l generalizing d with
  | nil => rfl
  | cons t l ih =>
    refine (ih (f t d)).trans ?_
    rw [hv]
    by_cases hl : u ∈ l
    · simp [hl]
    · by_cases ht : u = t
      · subst ht
        simp [hl, hself]
      · simp [hl, ht, hother t d u ht]

/-! ### Demands (R200) -/

theorem tOn_eq_shiftRight (n per : Nat) : tOn n per = (n * per) >>> 16 := (Nat.shiftRight_eq_div_pow _ _).symm

/-- The low side keeps at least P / 65 536: a requested n is below 65 536. -/
theorem le_low_side {n : Nat} (h : n < 65536) (per : Nat) : per ≤ 65536 * (per - tOn n per) := by
  have hle : tOn n per * 65536 ≤ n * per := Nat.div_mul_le_self _ _
  have hn : n * per ≤ 65535 * per := Nat.mul_le_mul_right per (by omega)
  omega

section Demand
variable {d : Dev} {t : Nat}

/-- The demand that pair `p` uses in PHASE mode: its own, or with commutation demand 0. -/
theorem Dev.pairN_phase (hm : d.r (Reg.TEAM_CFG_MODE t) = 1) (p : Nat) :
    d.pairN t p = ((d.tx t).act.getD (if d.r (Reg.TEAM_COMM_SRC t) = 0 then p else 0) 0 + 32768).toNat := by
  simp [Dev.pairN, hm]

/-- In DC mode the even pairs use demand 0 and the odd ones its complement. -/
theorem Dev.pairN_dc (hm : d.r (Reg.TEAM_CFG_MODE t) = 2) (p : Nat) :
    d.pairN t p = if p % 2 = 0 then ((d.tx t).act.getD 0 0 + 32768).toNat else (32767 - (d.tx t).act.getD 0 0).toNat := by
  simp [Dev.pairN, hm]

/-- Every demand input is in range where the active ones are. -/
theorem demand_range {act : List Int} (h : ∀ v ∈ act, -32768 ≤ v ∧ v ≤ 32767) (i : Nat) :
    -32768 ≤ act.getD i 0 ∧ act.getD i 0 ≤ 32767 := by
  rw [List.getD_eq_getElem?_getD]
  cases hi : act[i]? with
  | none => decide
  | some v => exact h v (List.mem_of_getElem? hi)

theorem Dev.pairN_lt (hm : d.r (Reg.TEAM_CFG_MODE t) = 1 ∨ d.r (Reg.TEAM_CFG_MODE t) = 2)
    (hact : ∀ v ∈ (d.tx t).act, -32768 ≤ v ∧ v ≤ 32767) (p : Nat) : d.pairN t p < 65536 := by
  obtain hm | hm := hm
  · have := demand_range hact (if d.r (Reg.TEAM_COMM_SRC t) = 0 then p else 0)
    rw [Dev.pairN_phase hm]
    omega
  · have := demand_range hact 0
    rw [Dev.pairN_dc hm]
    split <;> omega

end Demand

/-- Settles O31: the on-time is a shift, each mode names its demand, and n is below 65 536 in both. -/
theorem dutyOfADemand : Obligations.DutyOfADemand := by
  unfold Obligations.DutyOfADemand
  refine ⟨tOn_eq_shiftRight, fun d t p _ hact => ⟨fun hm hc => ?_, fun hm hc => ?_, fun hm => ⟨?_, ?_⟩,
    fun hm per => ⟨Dev.pairN_lt hm hact p, le_low_side (Dev.pairN_lt hm hact p) per⟩⟩⟩
  · have := demand_range hact p
    rw [Dev.pairN_phase hm, if_pos hc]
    omega
  · have := demand_range hact 0
    rw [Dev.pairN_phase hm, if_neg hc]
    omega
  · have := demand_range hact 0
    rw [Dev.pairN_dc hm, if_pos rfl]
    omega
  · have := demand_range hact 0
    rw [Dev.pairN_dc hm, if_neg (by decide)]
    omega

end Sys2Proof.Machine

/-! ## Proofs: trips, clears and lost demands of power teams -/
namespace Sys2Proof.Machine

/-! ### What the outputs of a team are brought to (R194, R215, R219) -/

/-- The waves and OUT_STATE that the team's state gives. -/
def Dev.drivenOutputs (d : Dev) (t : Nat) : List Wave × Nat :=
  if !d.pair.driving || !d.b (Reg.TEAM_STAT_ENABLED t) || bitOf d.team.sto t || (d.tx t).safe == 1 then (allOff, 0)
  else if (d.tx t).safe == 2 then (d.safeWaves t, 3)
  else ((d.runWaves t).1, if (d.tx t).missing then 2 else 1)

/-- The level that the team's state gives to TMt_EN. -/
def Dev.drivenPin (d : Dev) (t : Nat) : Bool :=
  d.pair.driving && d.b (Reg.TEAM_STAT_ENABLED t) && !bitOf d.team.sto t &&
    !(d.b (Reg.TEAM_STAT_TRIPPED t) && d.b (Reg.TEAM_TRIP_CFG_EN_ON_TRIP t))

theorem Dev.driveTeam_eq (d : Dev) (t : Nat) :
    d.driveTeam t = ((d.setTx t { d.tx t with out := (d.drivenOutputs t).1 }).wb (Reg.TEAM_STAT_EN_PIN t)
      (d.drivenPin t)).w (Reg.TEAM_STAT_OUT_STATE t) (d.drivenOutputs t).2 := rfl

@[simp] theorem Dev.driveTeam_mem (d : Dev) (t : Nat) : (d.driveTeam t).mem = d.mem := rfl
@[simp] theorem Dev.driveTeam_ex (d : Dev) (t e : Nat) : (d.driveTeam t).ex e = d.ex e := rfl

/-- Of what the field die keeps of a team the outputs alone change. -/
@[simp] theorem Dev.tx_driveTeam_same (d : Dev) (t : Nat) :
    (d.driveTeam t).tx t = { d.tx t with out := (d.drivenOutputs t).1 } := by
  rw [Dev.driveTeam_eq, Dev.w_tx, Dev.wb_tx, Dev.tx_setTx_same]

theorem Dev.tx_driveTeam_other (d : Dev) {t u : Nat} (h : u ≠ t) : (d.driveTeam t).tx u = d.tx u := by
  rw [Dev.driveTeam_eq, Dev.w_tx, Dev.wb_tx, Dev.tx_setTx_other d h]

/-- Of the registers EN_PIN and OUT_STATE alone change. -/
theorem Dev.r_driveTeam_other (d : Dev) {t : Nat} {f : Field} (hpin : f.key ≠ (Reg.TEAM_STAT_EN_PIN t).key)
    (hstate : f.key ≠ (Reg.TEAM_STAT_OUT_STATE t).key) : (d.driveTeam t).r f = d.r f := by
  rw [Dev.driveTeam_eq, Dev.r_w_other _ hstate, Dev.wb, Dev.r_w_other _ hpin, Dev.setTx_r]

/-- A field of TEAM_STAT other than EN_PIN and OUT_STATE keeps its value. -/
theorem Dev.r_driveTeam_stat (d : Dev) {t : Nat} {f : Field} (ha : f.addr = 0x40_1028 + 0x100 * t) (hpin : f.lo ≠ 1)
    (hstate : f.lo ≠ 20) : (d.driveTeam t).r f = d.r f :=
  d.r_driveTeam_other (Field.key_ne ha hpin) (Field.key_ne ha hstate)

theorem Dev.b_driveTeam_stat (d : Dev) {t : Nat} {f : Field} (ha : f.addr = 0x40_1028 + 0x100 * t) (hpin : f.lo ≠ 1)
    (hstate : f.lo ≠ 20) : (d.driveTeam t).b f = d.b f := by
  rw [Dev.b, d.r_driveTeam_stat ha hpin hstate, Dev.b]

theorem Dev.outState_driveTeam {d : Dev} (h : d.Sound) (t : Nat) :
    (d.driveTeam t).r (Reg.TEAM_STAT_OUT_STATE t) = (d.drivenOutputs t).2 % 4 := by
  rw [Dev.driveTeam_eq, Dev.r_w_same (Dev.wb_sound _ _ _ (Dev.setTx_sound _ _ _ h)).regs]
  rfl

theorem Dev.enPin_driveTeam {d : Dev} (h : d.Sound) (t : Nat) :
    (d.driveTeam t).b (Reg.TEAM_STAT_EN_PIN t) = d.drivenPin t := by
  have hne : (Reg.TEAM_STAT_EN_PIN t).key ≠ (Reg.TEAM_STAT_OUT_STATE t).key := by
    simp [Field.key, Reg.TEAM_STAT_EN_PIN, Reg.TEAM_STAT_OUT_STATE]
  rw [Dev.driveTeam_eq, Dev.b_w_other _ hne, Dev.b_wb_same (Dev.setTx_sound _ _ _ h) rfl]

/-- Off after STO or in the safe state, a team drives no high side. -/
theorem Dev.drivenOutputs_high_off {d : Dev} {t : Nat} (h : (d.tx t).safe = 1 ∨ (d.tx t).safe = 2) :
    ∀ w ∈ (d.drivenOutputs t).1.take 4, w = Wave.off := by
  unfold Dev.drivenOutputs
  split
  · decide
  · rename_i hoff
    obtain hs | hs := h
    · simp [hs] at hoff
    · simp [hs, Dev.safeWaves]

/-- The safe state of a driving, enabled team without STO (R215). -/
theorem Dev.drivenOutputs_safe {d : Dev} {t : Nat} (hdrive : d.pair.driving = true)
    (hon : d.b (Reg.TEAM_STAT_ENABLED t) = true) (hsto : bitOf d.team.sto t = false) (hs : (d.tx t).safe = 2) :
    d.drivenOutputs t = (d.safeWaves t, 3) := by
  simp [Dev.drivenOutputs, hdrive, hon, hsto, hs]

/-- The safe state is given by the fields of TEAM_CFG. -/
theorem Dev.safeWaves_congr {d e : Dev} {t : Nat}
    (h : ∀ f ∈ [Reg.TEAM_CFG_MODE t, Reg.TEAM_CFG_OPEN_WIND t, Reg.TEAM_CFG_SAFE_STATE t], e.r f = d.r f) :
    e.safeWaves t = d.safeWaves t := by
  simp only [List.forall_mem_cons] at h
  obtain ⟨hmode, hwind, hsafe, -⟩ := h
  have hwind : e.b (Reg.TEAM_CFG_OPEN_WIND t) = d.b (Reg.TEAM_CFG_OPEN_WIND t) := by rw [Dev.b, hwind, Dev.b]
  have hsafe : e.b (Reg.TEAM_CFG_SAFE_STATE t) = d.b (Reg.TEAM_CFG_SAFE_STATE t) := by rw [Dev.b, hsafe, Dev.b]
  unfold Dev.safeWaves Dev.pairsUsed
  rw [hmode, hwind, hsafe]

/-! ### Trips (R214, R215, R217) -/

/-- The registers that a trip writes. -/
def tripFields (t : Nat) : List Field :=
  [Reg.TEAM_STAT_TRIP_SRC t, Reg.TEAM_STAT_FORCED t, Reg.TEAM_STAT_TRIPPED t, Reg.TEAM_TRIP_CNT t, Reg.TEAM_TRIPPED]

/-- The device with the source of a trip shown. -/
def Dev.showTripSource (d : Dev) (t : Nat) : TripSrc → Dev
  | .source b => d.w (Reg.TEAM_STAT_TRIP_SRC t) (setBit (d.r (Reg.TEAM_STAT_TRIP_SRC t)) b true)
  | .force => d.flag (Reg.TEAM_STAT_FORCED t)

/-- The device with a trip latched and counted, its outputs still as they were. -/
def Dev.latchTrip (d : Dev) (t : Nat) (src : TripSrc) : Dev :=
  let was := d.b (Reg.TEAM_STAT_TRIPPED t)
  let d := d.showTripSource t src
  let d := if was then d else ((d.flag (Reg.TEAM_STAT_TRIPPED t)).inc (Reg.TEAM_TRIP_CNT t)).w Reg.TEAM_TRIPPED
    (setBit (d.r Reg.TEAM_TRIPPED) t true)
  { d with trc := { d.trc with trippedNow := if was then d.trc.trippedNow else t :: d.trc.trippedNow } }

/-- What the field die keeps of a team that goes into its safe state. -/
def TeamX.safeState (x : TeamX) : TeamX := { x with safe := if x.safe = 1 then 1 else 2, resume := false }

theorem TeamX.safe_safeState (x : TeamX) : x.safeState.safe = 1 ∨ x.safeState.safe = 2 := by
  unfold TeamX.safeState
  dsimp only
  split <;> simp

theorem Dev.latchTrip_frame (d : Dev) (t : Nat) (src : TripSrc) :
    { d.latchTrip t src with regs := d.regs, trc := d.trc } = d := by
  unfold Dev.latchTrip Dev.showTripSource
  cases src <;> cases d.b (Reg.TEAM_STAT_TRIPPED t) <;> rfl

theorem Dev.latchTrip_team (d : Dev) (t : Nat) (src : TripSrc) : (d.latchTrip t src).team = d.team :=
  (congrArg Dev.team (d.latchTrip_frame t src) :)

theorem Dev.tripTeam_eq (d : Dev) (t : Nat) (src : TripSrc) :
    d.tripTeam t src = ((d.latchTrip t src).setTx t { (d.tx t).safeState with quietC := some d.time.c }).driveTeam t := by
  have htime : (d.latchTrip t src).time = d.time := (congrArg Dev.time (d.latchTrip_frame t src) :)
  rw [← htime]
  cases src <;> rfl

/-- The configuration that decides on the safe state is none of the registers that a trip writes. -/
theorem config_not_mem_tripFields (t : Nat) :
    ∀ f ∈ [Reg.TEAM_CFG_MODE t, Reg.TEAM_CFG_OPEN_WIND t, Reg.TEAM_CFG_SAFE_STATE t, Reg.TEAM_STAT_ENABLED t,
      Reg.TEAM_TRIP_CFG_EN_ON_TRIP t], f.key ∉ (tripFields t).map Field.key := by
  simp [tripFields, Field.key, Reg.TEAM_CFG_MODE, Reg.TEAM_CFG_OPEN_WIND, Reg.TEAM_CFG_SAFE_STATE, Reg.TEAM_STAT_ENABLED,
    Reg.TEAM_TRIP_CFG_EN_ON_TRIP, Reg.TEAM_STAT_TRIP_SRC, Reg.TEAM_STAT_FORCED, Reg.TEAM_STAT_TRIPPED, Reg.TEAM_TRIP_CNT,
    Reg.TEAM_TRIPPED]
  omega

theorem Dev.r_latchTrip_other (d : Dev) {t : Nat} (src : TripSrc) {f : Field} (h : f.key ∉ (tripFields t).map Field.key) :
    (d.latchTrip t src).r f = d.r f := by
  simp only [tripFields, List.map_cons, List.map_nil, List.mem_cons, List.not_mem_nil, or_false, not_or] at h
  obtain ⟨hsrc, hforced, htrip, hcnt, htripped⟩ := h
  have hshow : (d.showTripSource t src).r f = d.r f := by
    cases src
    · exact d.r_w_other hsrc _
    · exact d.r_w_other hforced _
  rw [← hshow]
  show (if d.b (Reg.TEAM_STAT_TRIPPED t) then d.showTripSource t src else _ : Dev).r f = _
  split
  · rfl
  · rw [Dev.r_w_other _ htripped, Dev.inc, Dev.add, Dev.r_w_other _ hcnt, Dev.flag, Dev.r_w_other _ htrip]

/-- The source of a trip shown, the fields that latch and count trips are as they were. -/
theorem Dev.r_showTripSource_other (d : Dev) (t : Nat) (src : TripSrc) {f : Field}
    (h : f ∈ [Reg.TEAM_STAT_TRIPPED t, Reg.TEAM_TRIP_CNT t, Reg.TEAM_TRIPPED]) : (d.showTripSource t src).r f = d.r f := by
  have hkeys : ∀ f ∈ [Reg.TEAM_STAT_TRIPPED t, Reg.TEAM_TRIP_CNT t, Reg.TEAM_TRIPPED],
      f.key ≠ (Reg.TEAM_STAT_TRIP_SRC t).key ∧ f.key ≠ (Reg.TEAM_STAT_FORCED t).key := by
    simp [Field.key, Reg.TEAM_STAT_TRIPPED, Reg.TEAM_TRIP_CNT, Reg.TEAM_TRIPPED, Reg.TEAM_STAT_TRIP_SRC, Reg.TEAM_STAT_FORCED]
    omega
  obtain ⟨hsrc, hforced⟩ := hkeys f h
  cases src
  · exact d.r_w_other hsrc _
  · exact d.r_w_other hforced _

theorem Dev.showTripSource_sound {d : Dev} (h : d.Sound) (t : Nat) (src : TripSrc) : (d.showTripSource t src).Sound := by
  cases src <;> exact h.w _ _

/-- TRIP_CNT, TRIPPED and TEAM_TRIPPED are three fields. -/
theorem tripFields_keys (t : Nat) :
    (Reg.TEAM_TRIP_CNT t).key ≠ (Reg.TEAM_STAT_TRIPPED t).key ∧ (Reg.TEAM_TRIP_CNT t).key ≠ Reg.TEAM_TRIPPED.key ∧
      (Reg.TEAM_STAT_TRIPPED t).key ≠ Reg.TEAM_TRIPPED.key := by
  simp only [Field.key, Reg.TEAM_TRIP_CNT, Reg.TEAM_STAT_TRIPPED, Reg.TEAM_TRIPPED]
  omega

section Latch
variable {d : Dev} {t : Nat} (src : TripSrc)

/-- A trip of a tripped team only shows its source. -/
theorem Dev.latchTrip_of_tripped (ht : d.b (Reg.TEAM_STAT_TRIPPED t) = true) :
    d.latchTrip t src = d.showTripSource t src := by
  rw [Dev.latchTrip, ht]
  cases src <;> rfl

/-- The first trip of a team sets TRIPPED, counts once and shows the team in TEAM_TRIPPED. -/
theorem Dev.r_latchTrip_of_untripped (ht : d.b (Reg.TEAM_STAT_TRIPPED t) = false) (f : Field) :
    (d.latchTrip t src).r f = ((((d.showTripSource t src).flag (Reg.TEAM_STAT_TRIPPED t)).inc (Reg.TEAM_TRIP_CNT t)).w
      Reg.TEAM_TRIPPED (setBit ((d.showTripSource t src).r Reg.TEAM_TRIPPED) t true)).r f := by
  rw [Dev.latchTrip, ht]
  rfl

theorem Dev.tripped_latchTrip (h : d.Sound) : (d.latchTrip t src).b (Reg.TEAM_STAT_TRIPPED t) = true := by
  obtain ⟨hcnt, -, hall⟩ := tripFields_keys t
  cases ht : d.b (Reg.TEAM_STAT_TRIPPED t)
  · rw [Dev.b, Dev.r_latchTrip_of_untripped src ht, Dev.r_w_other _ hall, Dev.inc, Dev.add,
      Dev.r_w_other _ hcnt.symm]
    exact Dev.b_flag_same (Dev.showTripSource_sound h t src) rfl
  · rw [Dev.latchTrip_of_tripped src ht, Dev.b, d.r_showTripSource_other t src (by simp)]
    exact ht

theorem Dev.tripCnt_latchTrip_of_tripped (ht : d.b (Reg.TEAM_STAT_TRIPPED t) = true) :
    (d.latchTrip t src).r (Reg.TEAM_TRIP_CNT t) = d.r (Reg.TEAM_TRIP_CNT t) := by
  rw [Dev.latchTrip_of_tripped src ht, d.r_showTripSource_other t src (by simp)]

theorem Dev.tripCnt_latchTrip_of_untripped (h : d.Sound) (ht : d.b (Reg.TEAM_STAT_TRIPPED t) = false) :
    (d.latchTrip t src).r (Reg.TEAM_TRIP_CNT t) = min (d.r (Reg.TEAM_TRIP_CNT t) + 1) (2 ^ 32 - 1) := by
  obtain ⟨hflag, hall, -⟩ := tripFields_keys t
  rw [Dev.r_latchTrip_of_untripped src ht, Dev.r_w_other _ hall, Dev.inc, Dev.add,
    Dev.r_w_same (Dev.flag_sound _ _ (Dev.showTripSource_sound h t src)).regs, Dev.flag, Dev.r_w_other _ hflag,
    d.r_showTripSource_other t src (by simp)]
  exact Nat.mod_eq_of_lt (Nat.lt_of_le_of_lt (Nat.min_le_right _ _) (Nat.sub_lt (Nat.two_pow_pos 32) Nat.one_pos))

theorem Dev.tripped_shown_latchTrip (h : d.Sound) (hlt : t < 24) (ht : d.b (Reg.TEAM_STAT_TRIPPED t) = false) :
    bitOf ((d.latchTrip t src).r Reg.TEAM_TRIPPED) t = true := by
  have hs := Dev.inc_sound _ (Reg.TEAM_TRIP_CNT t)
    (Dev.flag_sound _ (Reg.TEAM_STAT_TRIPPED t) (Dev.showTripSource_sound h t src))
  rw [Dev.r_latchTrip_of_untripped src ht, Dev.r_w_same hs.regs, bitOf_mod_two_pow (w := Reg.TEAM_TRIPPED.width) hlt,
    bitOf_setBit, if_pos rfl]

theorem Dev.latchTrip_sound (h : d.Sound) : (d.latchTrip t src).Sound := by
  unfold Dev.latchTrip
  refine Dev.Sound.upd rfl ?_
  split
  · exact Dev.showTripSource_sound h t src
  · exact ((Dev.inc_sound _ _ (Dev.flag_sound _ _ (Dev.showTripSource_sound h t src))).w _ _)

end Latch

section Trip
variable (d : Dev) (t : Nat) (src : TripSrc)

@[simp] theorem Dev.tripTeam_mem : (d.tripTeam t src).mem = d.mem := by
  rw [Dev.tripTeam_eq, Dev.driveTeam_mem, Dev.setTx_mem]
  exact (congrArg Dev.mem (d.latchTrip_frame t src) :)

theorem Dev.tx_tripTeam_other {u : Nat} (h : u ≠ t) : (d.tripTeam t src).tx u = d.tx u := by
  rw [Dev.tripTeam_eq, Dev.tx_driveTeam_other _ h, Dev.tx_setTx_other _ h, Dev.tx, Dev.latchTrip_team, Dev.tx]

/-- A field that neither the trip nor the outputs write keeps the value that it has once the trip is latched. -/
theorem Dev.r_tripTeam {f : Field} (hpin : f.key ≠ (Reg.TEAM_STAT_EN_PIN t).key)
    (hstate : f.key ≠ (Reg.TEAM_STAT_OUT_STATE t).key) : (d.tripTeam t src).r f = (d.latchTrip t src).r f := by
  rw [Dev.tripTeam_eq, Dev.r_driveTeam_other _ hpin hstate, Dev.setTx_r]

/-- A trip shows and counts as its latch does. -/
theorem Dev.tripTeam_shows : (d.tripTeam t src).b (Reg.TEAM_STAT_TRIPPED t) = (d.latchTrip t src).b (Reg.TEAM_STAT_TRIPPED t) ∧
    (d.tripTeam t src).r (Reg.TEAM_TRIP_CNT t) = (d.latchTrip t src).r (Reg.TEAM_TRIP_CNT t) ∧
    (d.tripTeam t src).r Reg.TEAM_TRIPPED = (d.latchTrip t src).r Reg.TEAM_TRIPPED := by
  have hkeys : ∀ f ∈ [Reg.TEAM_STAT_TRIPPED t, Reg.TEAM_TRIP_CNT t, Reg.TEAM_TRIPPED],
      f.key ≠ (Reg.TEAM_STAT_EN_PIN t).key ∧ f.key ≠ (Reg.TEAM_STAT_OUT_STATE t).key := by
    simp [Field.key, Reg.TEAM_STAT_TRIPPED, Reg.TEAM_TRIP_CNT, Reg.TEAM_TRIPPED, Reg.TEAM_STAT_EN_PIN, Reg.TEAM_STAT_OUT_STATE]
    omega
  have hr : ∀ f ∈ [Reg.TEAM_STAT_TRIPPED t, Reg.TEAM_TRIP_CNT t, Reg.TEAM_TRIPPED],
      (d.tripTeam t src).r f = (d.latchTrip t src).r f := fun f hf => d.r_tripTeam t src (hkeys f hf).1 (hkeys f hf).2
  exact ⟨by rw [Dev.b, hr _ (by simp), Dev.b], hr _ (by simp), hr _ (by simp)⟩

/-- A tripped team drives no high side. -/
theorem Dev.high_off_tripTeam : ∀ w ∈ ((d.tripTeam t src).tx t).out.take 4, w = Wave.off := by
  rw [Dev.tripTeam_eq, Dev.tx_driveTeam_same]
  exact Dev.drivenOutputs_high_off (by rw [Dev.tx_setTx_same]; exact (d.tx t).safe_safeState)

end Trip

/-- A driving, enabled team without STO that is not off shows its safe state (R215). -/
theorem Dev.tripTeam_safe {d : Dev} {t : Nat} (src : TripSrc) (h : d.Sound) (hdrive : d.pair.driving = true)
    (hon : d.b (Reg.TEAM_STAT_ENABLED t) = true) (hsto : bitOf d.team.sto t = false) (hs : (d.tx t).safe ≠ 1) :
    ((d.tripTeam t src).tx t).out = d.safeWaves t ∧ (d.tripTeam t src).r (Reg.TEAM_STAT_OUT_STATE t) = 3 ∧
      (d.b (Reg.TEAM_TRIP_CFG_EN_ON_TRIP t) = true → (d.tripTeam t src).b (Reg.TEAM_STAT_EN_PIN t) = false) := by
  have hcfg : ∀ f ∈ [Reg.TEAM_CFG_MODE t, Reg.TEAM_CFG_OPEN_WIND t, Reg.TEAM_CFG_SAFE_STATE t, Reg.TEAM_STAT_ENABLED t,
      Reg.TEAM_TRIP_CFG_EN_ON_TRIP t], (d.latchTrip t src).r f = d.r f :=
    fun f hf => d.r_latchTrip_other src (config_not_mem_tripFields t f hf)
  have hon' : (d.latchTrip t src).b (Reg.TEAM_STAT_ENABLED t) = true := by rw [Dev.b, hcfg _ (by simp)]; exact hon
  have hpair : (d.latchTrip t src).pair = d.pair := (congrArg Dev.pair (d.latchTrip_frame t src) :)
  have hsafe : ((d.tx t).safeState).safe = 2 := if_neg hs
  have hsound := Dev.latchTrip_sound (t := t) src h
  rw [Dev.tripTeam_eq]
  have hout := Dev.drivenOutputs_safe
    (d := (d.latchTrip t src).setTx t { (d.tx t).safeState with quietC := some d.time.c }) (t := t)
    (hpair ▸ hdrive) hon' ((congrArg (fun x => bitOf x.sto t) (d.latchTrip_team t src)).trans hsto)
    (by rw [Dev.tx_setTx_same]; exact hsafe)
  refine ⟨?_, ?_, fun hen => ?_⟩
  · rw [Dev.tx_driveTeam_same, hout]
    exact Dev.safeWaves_congr fun f hf => hcfg f (by
      simp only [List.mem_cons, List.not_mem_nil, or_false] at hf ⊢
      tauto)
  · rw [Dev.outState_driveTeam (Dev.setTx_sound _ _ _ hsound), hout]
    rfl
  · have htrip := Dev.tripped_latchTrip (t := t) src h
    have hen' : (d.latchTrip t src).b (Reg.TEAM_TRIP_CFG_EN_ON_TRIP t) = true := by rw [Dev.b, hcfg _ (by simp)]; exact hen
    rw [Dev.enPin_driveTeam (Dev.setTx_sound _ _ _ hsound)]
    simp [Dev.drivenPin, htrip, hen']

/-! ### Clears (R218) -/

theorem Dev.clearTrip_of_refused {d : Dev} {t : Nat} (h : d.clearOk t = false) :
    d.clearTrip t = (d.w (Reg.TEAM_STAT_CLEAR_REFUSED t) 1).inc (Reg.TEAM_CLR_REF_CNT t) := by
  rw [Dev.clearTrip, h]
  rfl

/-- The fields of TEAM_STAT that an accepted clear clears. -/
def clearedFields (t : Nat) : List Field :=
  [Reg.TEAM_STAT_TRIPPED t, Reg.TEAM_STAT_TRIP_SRC t, Reg.TEAM_STAT_FORCED t, Reg.TEAM_STAT_DEMAND_LOST t,
    Reg.TEAM_STAT_STO_SEEN t]

/-- Listed fields with distinct keys that are cleared one after another all read 0. -/
theorem Dev.r_each_clear {d : Dev} (h : d.Sound) {l : List Field} (hn : (l.map Field.key).Nodup) :
    ∀ f ∈ l, (d.each l (fun f d => d.w f 0)).r f = 0 := by
  induction l generalizing d with
  | nil => exact fun f hf => absurd hf List.not_mem_nil
  | cons g l ih =>
    obtain ⟨hg, hn⟩ := List.nodup_cons.mp hn
    refine List.forall_mem_cons.mpr ⟨?_, ih (h.w g 0) hn⟩
    refine Dev.each_keeps (P := fun e => e.r g = 0) (d := d.w g 0) (l := l) ?_ fun f hf e he => ?_
    · rw [Dev.r_w_same h.regs, Nat.zero_mod]
    · have hne : g.key ≠ f.key := fun hkey => hg (hkey ▸ List.mem_map_of_mem hf)
      rw [Dev.r_w_other _ hne, he]

/-- The device with the registers of an accepted clear written, its outputs still as they were. -/
def Dev.clearStat (d : Dev) (t : Nat) : Dev :=
  let d := d.each (clearedFields t) (fun f d => d.w f 0)
  d.w Reg.TEAM_TRIPPED (setBit (d.r Reg.TEAM_TRIPPED) t false)

theorem clearedFields_nodup (t : Nat) : ((clearedFields t).map Field.key).Nodup := by
  simp [clearedFields, Field.key, Reg.TEAM_STAT_TRIPPED, Reg.TEAM_STAT_TRIP_SRC, Reg.TEAM_STAT_FORCED,
    Reg.TEAM_STAT_DEMAND_LOST, Reg.TEAM_STAT_STO_SEEN]

theorem clearedFields_keys (t : Nat) : ∀ f ∈ clearedFields t,
    f.key ≠ Reg.TEAM_TRIPPED.key ∧ f.addr = 0x40_1028 + 0x100 * t ∧ f.lo ≠ 1 ∧ f.lo ≠ 20 := by
  simp [clearedFields, Field.key, Reg.TEAM_STAT_TRIPPED, Reg.TEAM_STAT_TRIP_SRC, Reg.TEAM_STAT_FORCED,
    Reg.TEAM_STAT_DEMAND_LOST, Reg.TEAM_STAT_STO_SEEN, Reg.TEAM_TRIPPED]
  omega

theorem Dev.clearTrip_of_taken {d : Dev} {t : Nat} (h : d.clearOk t = true) :
    d.clearTrip t = ((d.clearStat t).setTx t { d.tx t with resume := true, held := 0 }).driveTeam t := by
  rw [Dev.clearTrip, if_pos h]
  rfl

/-- The fields that an accepted clear clears read 0. -/
theorem Dev.r_clearTrip {d : Dev} {t : Nat} (h : d.Sound) (hok : d.clearOk t = true) {f : Field} (hf : f ∈ clearedFields t) :
    (d.clearTrip t).r f = 0 := by
  obtain ⟨hall, ha, hpin, hstate⟩ := clearedFields_keys t f hf
  rw [Dev.clearTrip_of_taken hok, Dev.r_driveTeam_stat _ ha hpin hstate, Dev.setTx_r, Dev.clearStat, Dev.r_w_other _ hall,
    Dev.r_each_clear h (clearedFields_nodup t) f hf]

theorem Dev.b_clearTrip {d : Dev} {t : Nat} (h : d.Sound) (hok : d.clearOk t = true) {f : Field} (hf : f ∈ clearedFields t) :
    (d.clearTrip t).b f = false := by
  rw [Dev.b, Dev.r_clearTrip h hok hf]
  rfl

/-! ### Lost demands (R201) -/

theorem Dev.loseDemand_eq (d : Dev) (t : Nat) :
    d.loseDemand t = (((d.flag (Reg.TEAM_STAT_DEMAND_LOST t)).w (Reg.TEAM_STAT_HOLDING t) 0).setTx t
      (d.tx t).safeState).driveTeam t := rfl

theorem Dev.tx_loseDemand_other (d : Dev) {t u : Nat} (h : u ≠ t) : (d.loseDemand t).tx u = d.tx u := by
  rw [Dev.loseDemand_eq, Dev.tx_driveTeam_other _ h, Dev.tx_setTx_other _ h, Dev.w_tx, Dev.flag_tx]

theorem Dev.high_off_loseDemand (d : Dev) (t : Nat) : ∀ w ∈ ((d.loseDemand t).tx t).out.take 4, w = Wave.off := by
  rw [Dev.loseDemand_eq, Dev.tx_driveTeam_same]
  exact Dev.drivenOutputs_high_off (by rw [Dev.tx_setTx_same]; exact (d.tx t).safe_safeState)

theorem Dev.stat_loseDemand {d : Dev} (h : d.Sound) (t : Nat) :
    (d.loseDemand t).b (Reg.TEAM_STAT_DEMAND_LOST t) = true ∧ (d.loseDemand t).b (Reg.TEAM_STAT_HOLDING t) = false := by
  have hne : (Reg.TEAM_STAT_DEMAND_LOST t).key ≠ (Reg.TEAM_STAT_HOLDING t).key := by
    simp [Field.key, Reg.TEAM_STAT_DEMAND_LOST, Reg.TEAM_STAT_HOLDING]
  rw [Dev.loseDemand_eq, Dev.b_driveTeam_stat _ rfl (by simp [Reg.TEAM_STAT_DEMAND_LOST]) (by simp [Reg.TEAM_STAT_DEMAND_LOST]),
    Dev.b_driveTeam_stat _ rfl (by simp [Reg.TEAM_STAT_HOLDING]) (by simp [Reg.TEAM_STAT_HOLDING]), Dev.setTx_b, Dev.setTx_b,
    Dev.b_w_other _ hne]
  exact ⟨Dev.b_flag_same h rfl, Dev.b_clear_same (Dev.flag_sound _ _ h) _⟩

/-! ### Inputs and commands that trip or clear -/

/-- A packet of a command that its grade has fitted runs the command's body, and the body's answer goes to the source. -/
theorem ok_runPacket_fitted_of_ready {s : State} {p : Packet} {op n : Nat} {priv : Bool} {fitted : Grade → List Nat → Bool}
    {body : Dev → List Nat → Dev × Res} {d : Dev} {res : Res} (h : s.dev.Ready p op n priv)
    (hfit : fitted s.grade (p.params.map BitVec.toNat) = true)
    (hbody : body (s.dev.taken p op) (p.params.map BitVec.toNat) = (d, res)) :
    ok s (fun g d => d.runPacket g { opcode := op, priv := priv, fitted := fitted, need := needN n } p body) =
      replied s p op d res := by
  have hneed : needN n (p.params.map BitVec.toNat) = none := needN_eq_none (by rw [List.length_map, h.length])
  rw [ok_eq, Dev.runPacket_ready h rfl rfl hfit hneed (le_replyLimit (n := 3) (by omega) p.origin), hbody]
  rfl

/-- The grade has every team of the mask (R220). -/
theorem maskFitted_of_lt {g : Grade} {p : Packet} (h : ∀ t ∈ onesOf 24 (p.arg 0), t < teamsOf g) :
    maskFitted g (p.params.map BitVec.toNat) = true :=
  List.all_eq_true.mpr fun t ht => decide_eq_true (h t ht)

theorem exec_teamCtrlForceTrip_refused {s : State} {path : Path} (ho : s.dev.pathOpen path = true)
    (hp : s.dev.pathPriv path = false) (t : Fin 24) :
    exec (.teamCtrlForceTrip path t) s = onward s (s.dev.countPath path) := by
  show execTeamCtrlForceTrip path t s = _
  rw [execTeamCtrlForceTrip, ok_eq, Dev.access_refused ho hp]
  rfl

theorem exec_teamCtrlTripClear_refused {s : State} {path : Path} (ho : s.dev.pathOpen path = true)
    (hp : s.dev.pathPriv path = false) (t : Fin 24) :
    exec (.teamCtrlTripClear path t) s = onward s (s.dev.countPath path) := by
  show execTeamCtrlTripClear path t s = _
  rw [execTeamCtrlTripClear, ok_eq, Dev.access_refused ho hp]
  rfl

theorem exec_teamCtrlForceTrip_allowed {s : State} {path : Path} (ho : s.dev.pathOpen path = true)
    (hp : s.dev.pathPriv path = true) {t : Fin 24} (ht : t.val < teamsOf s.grade) :
    exec (.teamCtrlForceTrip path t) s = onward s (s.dev.tripTeam t .force) := by
  show execTeamCtrlForceTrip path t s = _
  rw [execTeamCtrlForceTrip, ok_eq, decide_eq_true ht, Dev.access_allowed ho hp]
  rfl

theorem exec_teamCtrlTripClear_allowed {s : State} {path : Path} (ho : s.dev.pathOpen path = true)
    (hp : s.dev.pathPriv path = true) {t : Fin 24} (ht : t.val < teamsOf s.grade) :
    exec (.teamCtrlTripClear path t) s = onward s (s.dev.clearTrip t) := by
  show execTeamCtrlTripClear path t s = _
  rw [execTeamCtrlTripClear, ok_eq, decide_eq_true ht, Dev.access_allowed ho hp]
  rfl

theorem exec_teamTripClear_ready {s : State} {p : Packet} (h : s.dev.Ready p 0x403 1 true)
    (hfit : ∀ t ∈ onesOf 24 (p.arg 0), t < teamsOf s.grade) :
    let d := s.dev.taken p 0x403
    exec (.teamTripClear p) s = replied s p 0x403 (d.each (onesOf 24 (p.arg 0)) (fun t d => d.clearTrip t))
      (.ok [((onesOf 24 (p.arg 0)).filter (fun t => !d.clearOk t)).foldl (fun m t => setBit m t true) 0]) := by
  show execTeamTripClear p s = _
  exact ok_runPacket_fitted_of_ready h (maskFitted_of_lt hfit) rfl

theorem exec_teamForceTrip_ready {s : State} {p : Packet} (h : s.dev.Ready p 0x404 1 true)
    (hfit : ∀ t ∈ onesOf 24 (p.arg 0), t < teamsOf s.grade) :
    exec (.teamForceTrip p) s = replied s p 0x404
      ((s.dev.taken p 0x404).each (onesOf 24 (p.arg 0)) (fun t d => d.tripTeam t .force)) (.ok []) := by
  show execTeamForceTrip p s = _
  exact ok_runPacket_fitted_of_ready h (maskFitted_of_lt hfit) rfl

theorem exec_tripInputRelease_pin (s : State) {i : Fin 28} (h : i.val < 24) :
    exec (.tripInputRelease i) s = onward s
      (s.dev.setTx i.val { s.dev.tx i.val with pin := false, quietC := some s.dev.time.c }) := by
  show execTripInputRelease i s = _
  rw [execTripInputRelease, ok_eq]
  dsimp only
  rw [if_pos h]
  rfl

/-- A trip source of team `t` goes inactive now (R218). -/
def Dev.startQuiet (t : Nat) (d : Dev) : Dev := d.setTx t { d.tx t with quietC := some d.time.c }

/-- The device after global trip `g` went inactive: the teams of its mask have their quiet time from now on. -/
def Dev.releaseGlobal (d : Dev) (g : Nat) : Dev :=
  ({ d with team := { d.team with gtrip := setBit d.team.gtrip g false } }).each (onesOf 24 (d.r (Reg.GTRIP_MASK g)))
    Dev.startQuiet

theorem exec_tripInputRelease_global (s : State) {i : Fin 28} (h : 24 ≤ i.val) :
    exec (.tripInputRelease i) s = onward s (s.dev.releaseGlobal (i.val - 24)) := by
  show execTripInputRelease i s = _
  rw [execTripInputRelease, ok_eq]
  dsimp only
  rw [if_neg (Nat.not_lt.mpr h)]
  rfl

theorem Dev.releaseGlobal_frame (d : Dev) (g : Nat) :
    (d.releaseGlobal g).regs = d.regs ∧ (d.releaseGlobal g).team.gtrip = setBit d.team.gtrip g false :=
  Dev.each_keeps (P := fun e => e.regs = d.regs ∧ e.team.gtrip = setBit d.team.gtrip g false) ⟨rfl, rfl⟩
    fun _ _ _ he => he

theorem Dev.quietC_releaseGlobal (d : Dev) (g : Nat) {t : Nat} (ht : t < 24) :
    ((d.releaseGlobal g).tx t).quietC =
      if bitOf (d.r (Reg.GTRIP_MASK g)) t then some d.time.c else (d.tx t).quietC := by
  refine (Dev.each_entry (f := Dev.startQuiet) (fun e u => (e.tx u).quietC) (fun e => some e.time.c) (fun _ _ => rfl)
    (fun u e => ?_) (fun u e v hv => ?_) _ t).trans ?_
  · rw [Dev.startQuiet, Dev.tx_setTx_same]
  · rw [Dev.startQuiet, Dev.tx_setTx_other _ hv]
  · simp only [mem_onesOf, ht, true_and]
    rfl

theorem exec_demandHoldExpire_held {s : State} {t : Fin 24}
    (h : s.dev.b (Reg.TEAM_STAT_HOLDING t) = false ∨ (s.dev.tx t).held < s.dev.r (Reg.TEAM_CFG_HOLD_EPOCHS t)) :
    exec (.demandHoldExpire t) s = onward s s.dev := by
  show execDemandHoldExpire t s = _
  rw [execDemandHoldExpire, ok_eq, if_neg]
  · rfl
  · obtain h | h := h
    · simp [h]
    · simp [Nat.not_le.mpr h]

theorem exec_demandHoldExpire_expired {s : State} {t : Fin 24} (hh : s.dev.b (Reg.TEAM_STAT_HOLDING t) = true)
    (h : s.dev.r (Reg.TEAM_CFG_HOLD_EPOCHS t) ≤ (s.dev.tx t).held) :
    exec (.demandHoldExpire t) s = onward s (s.dev.loseDemand t) := by
  show execDemandHoldExpire t s = _
  rw [execDemandHoldExpire, ok_eq, if_pos (by simp [hh, h])]
  rfl

/-- Settles O32: a trip is its latch and the outputs that follow; a clear is refused whole, or clears its fields and lets the
outputs resume; a hold that has lasted loses the demand. -/
theorem tripsAndClears : Obligations.TripsAndClears := by
  unfold Obligations.TripsAndClears
  refine ⟨fun s t => rfl, fun s g => rfl, fun s i h => exec_tripInputRelease_pin s h, fun s i h => ?_,
    fun s path t ho => ⟨fun hp => ⟨exec_teamCtrlForceTrip_refused ho hp t, exec_teamCtrlTripClear_refused ho hp t⟩,
      fun hp ht => ⟨exec_teamCtrlForceTrip_allowed ho hp ht, exec_teamCtrlTripClear_allowed ho hp ht⟩⟩,
    fun s p hfit => ⟨fun h => exec_teamTripClear_ready h hfit, fun h => exec_teamForceTrip_ready h hfit⟩,
    fun d t src hs ht => ?_, fun d t => Dev.clearTrip_of_refused, fun d t hs ht hok => ?_,
    fun s t hs => ⟨exec_demandHoldExpire_held, fun hh h => ?_⟩⟩
  · obtain ⟨hregs, hgtrip⟩ := s.dev.releaseGlobal_frame (i.val - 24)
    exact ⟨_, exec_tripInputRelease_global s h, hregs, hgtrip, fun t ht => s.dev.quietC_releaseGlobal _ ht⟩
  · obtain ⟨htrip, hcnt, hall⟩ := d.tripTeam_shows t src
    refine ⟨htrip.trans (Dev.tripped_latchTrip src hs), d.tripTeam_mem t src, fun u hu => d.tx_tripTeam_other t src hu,
      fun hwas => hcnt.trans (Dev.tripCnt_latchTrip_of_tripped src hwas),
      fun hwas => ⟨hcnt.trans (Dev.tripCnt_latchTrip_of_untripped src hs hwas), ?_⟩,
      fun hdrive hon hsto hsafe => Dev.tripTeam_safe src hs hdrive hon hsto hsafe, d.high_off_tripTeam t src⟩
    rw [hall]
    exact Dev.tripped_shown_latchTrip src hs ht hwas
  · refine ⟨Dev.b_clearTrip hs hok (by simp [clearedFields]), Dev.r_clearTrip hs hok (by simp [clearedFields]),
      Dev.b_clearTrip hs hok (by simp [clearedFields]), Dev.b_clearTrip hs hok (by simp [clearedFields]),
      ?_, ?_, fun u hu => ?_⟩
    · rw [Dev.clearTrip_of_taken hok, Dev.tx_driveTeam_same, Dev.tx_setTx_same]
    · rw [Dev.clearTrip_of_taken hok]
      rfl
    · rw [Dev.clearTrip_of_taken hok, Dev.tx_driveTeam_other _ hu, Dev.tx_setTx_other _ hu]
      rfl
  · obtain ⟨hlost, hholding⟩ := Dev.stat_loseDemand hs t
    exact ⟨_, exec_demandHoldExpire_expired hh h, hlost, hholding, rfl, fun u hu => s.dev.tx_loseDemand_other hu,
      s.dev.high_off_loseDemand t⟩

end Sys2Proof.Machine

/-! ## Proofs: period boundaries and sensing of power teams -/
namespace Sys2Proof.Machine

/-! ### What a period boundary keeps of a team -/

/-- What the loading of demands alone decides on of what the field die keeps of a team: all but the stepper side, the outputs, the
shadows, the sector, the period and the safe state. -/
def TeamX.demandSide (x : TeamX) : TeamX :=
  { x with period := 0, tab := 0, sector := 0, cmps := [], safe := 0, resume := false, out := [], step := {} }

/-- Device `e` has the record memory and the other teams of `d`, and the demand side of team `t` and its HOLDING. -/
structure Dev.KeepsDemands (t : Nat) (d e : Dev) : Prop where
  mem : e.mem = d.mem
  others : ∀ u, u ≠ t → e.tx u = d.tx u
  side : (e.tx t).demandSide = (d.tx t).demandSide
  holding : e.b (Reg.TEAM_STAT_HOLDING t) = d.b (Reg.TEAM_STAT_HOLDING t)

namespace Dev.KeepsDemands
variable {t : Nat} {d e f : Dev}

theorem refl (t : Nat) (d : Dev) : d.KeepsDemands t d := ⟨rfl, fun _ _ => rfl, rfl, rfl⟩

theorem trans (h : d.KeepsDemands t e) (k : e.KeepsDemands t f) : d.KeepsDemands t f :=
  ⟨k.mem.trans h.mem, fun u hu => (k.others u hu).trans (h.others u hu), k.side.trans h.side, k.holding.trans h.holding⟩

/-- A change of the rest of what the field die keeps of the team. -/
theorem setTx (h : d.KeepsDemands t e) {x : TeamX} (hx : x.demandSide = (e.tx t).demandSide) :
    d.KeepsDemands t (e.setTx t x) :=
  h.trans ⟨rfl, fun _ hu => e.tx_setTx_other hu x, by rw [Dev.tx_setTx_same, hx], rfl⟩

/-- A write of a register field other than HOLDING. -/
theorem w (h : d.KeepsDemands t e) {g : Field} (hg : (Reg.TEAM_STAT_HOLDING t).key ≠ g.key) (v : Nat) :
    d.KeepsDemands t (e.w g v) :=
  h.trans ⟨rfl, fun _ _ => rfl, rfl, e.b_w_other hg v⟩

theorem driveTeam (h : d.KeepsDemands t e) : d.KeepsDemands t (e.driveTeam t) :=
  h.trans ⟨rfl, fun _ hu => e.tx_driveTeam_other hu, by rw [Dev.tx_driveTeam_same]; rfl,
    e.b_driveTeam_stat rfl (by simp [Reg.TEAM_STAT_HOLDING]) (by simp [Reg.TEAM_STAT_HOLDING])⟩

theorem countDrops (h : d.KeepsDemands t e) : d.KeepsDemands t (e.countDrops t) := by
  have hkeys : (Reg.TEAM_STAT_HOLDING t).key ≠ (Reg.TEAM_DROP_CNT t).key ∧
      (Reg.TEAM_STAT_HOLDING t).key ≠ (Reg.TEAM_STAT_DROP t).key := by
    simp only [Field.key, Reg.TEAM_STAT_HOLDING, Reg.TEAM_DROP_CNT, Reg.TEAM_STAT_DROP]
    omega
  unfold Dev.countDrops
  split
  · dsimp only
    split
    · exact h
    · exact (h.w hkeys.1 _).w hkeys.2 _
  · exact h

theorem act (h : d.KeepsDemands t e) : (e.tx t).act = (d.tx t).act := (congrArg TeamX.act h.side :)
theorem missing (h : d.KeepsDemands t e) : (e.tx t).missing = (d.tx t).missing := (congrArg TeamX.missing h.side :)
theorem held (h : d.KeepsDemands t e) : (e.tx t).held = (d.tx t).held := (congrArg TeamX.held h.side :)
theorem due (h : d.KeepsDemands t e) : (e.tx t).due = (d.tx t).due := (congrArg TeamX.due h.side :)

end Dev.KeepsDemands

/-! ### The period that starts (R198) -/

/-- The on-times that the registers show for the period that starts. -/
def Dev.showOnTimes (d : Dev) (t per : Nat) : Dev :=
  d.each [0, 1, 2, 3] (fun p d => d.w (Reg.TEAM_TON t p)
    (if d.b (Reg.TEAM_STAT_ENABLED t) && !d.strong t && d.pairAction t p == 1 then tOn (d.pairN t p) per else 0))

/-- Period `j` is opened: the shadows are loaded, and outputs resume after a clear. -/
def Dev.openPeriod (d : Dev) (t j : Nat) : Dev :=
  let d := d.loadShadows t
  let d := d.setTx t { d.tx t with period := j }
  if (d.tx t).resume then d.setTx t { d.tx t with resume := false, safe := 0 } else d

theorem Dev.openPeriod_regs (d : Dev) (t j : Nat) : (d.openPeriod t j).regs = d.regs := by
  unfold Dev.openPeriod
  dsimp only
  split <;> rfl

theorem Dev.period_openPeriod (d : Dev) (t j : Nat) :
    ((d.openPeriod t j).tx t).period = j ∧ ((d.openPeriod t j).tx t).tab = d.r (Reg.TEAM_COMM_TAB t) := by
  unfold Dev.openPeriod Dev.loadShadows
  dsimp only
  split <;> simp only [Dev.tx_setTx_same, and_self]

theorem Dev.KeepsDemands.openPeriod {t : Nat} {d e : Dev} (h : d.KeepsDemands t e) (j : Nat) :
    d.KeepsDemands t (e.openPeriod t j) := by
  have hload : d.KeepsDemands t (e.loadShadows t) := h.setTx rfl
  have hperiod : d.KeepsDemands t ((e.loadShadows t).setTx t { (e.loadShadows t).tx t with period := j }) :=
    hload.setTx rfl
  unfold Dev.openPeriod
  dsimp only
  split
  · exact hperiod.setTx rfl
  · exact hperiod

/-- The phases of a stepper team at the start of period `j`. -/
def Dev.startPhases (d : Dev) (t j : Nat) : Dev :=
  if d.r (Reg.TEAM_CFG_MODE t) = 3 ∧ d.b (Reg.TEAM_STAT_ENABLED t) ∧ ¬ (d.tx t).missing then d.stepPeriod t j else d

theorem Dev.startPeriod_eq (d : Dev) (t j : Nat) :
    d.startPeriod t j =
      let e := (d.openPeriod t j).startPhases t j
      ((e.showOnTimes t (e.periodUnits t)).driveTeam t).countDrops t := rfl

/-- Outside the stepper mode a period starts with its on-times, outputs and drops. -/
theorem Dev.startPeriod_of_not_stepper {d : Dev} {t : Nat} (h : d.r (Reg.TEAM_CFG_MODE t) ≠ 3) (j : Nat) :
    d.startPeriod t j = (((d.openPeriod t j).showOnTimes t ((d.openPeriod t j).periodUnits t)).driveTeam t).countDrops t := by
  have hmode : (d.openPeriod t j).r (Reg.TEAM_CFG_MODE t) ≠ 3 := by rwa [Dev.r, Dev.openPeriod_regs]
  have hphases : (d.openPeriod t j).startPhases t j = d.openPeriod t j := if_neg fun ⟨hm, _⟩ => hmode hm
  rw [Dev.startPeriod_eq, hphases]

@[simp] theorem Dev.showOnTimes_tx (d : Dev) (t per u : Nat) : (d.showOnTimes t per).tx u = d.tx u :=
  Dev.each_keeps (P := fun e => e.tx u = d.tx u) rfl fun _ _ _ he => he

@[simp] theorem Dev.countDrops_tx (d : Dev) (t u : Nat) : (d.countDrops t).tx u = d.tx u := by
  unfold Dev.countDrops
  split
  · dsimp only
    split <;> rfl
  · rfl

theorem Dev.KeepsDemands.showOnTimes {t : Nat} {d e : Dev} (h : d.KeepsDemands t e) (per : Nat) :
    d.KeepsDemands t (e.showOnTimes t per) := by
  have hkey : ∀ p, (Reg.TEAM_STAT_HOLDING t).key ≠ (Reg.TEAM_TON t p).key := fun p => by
    simp only [Field.key, Reg.TEAM_STAT_HOLDING, Reg.TEAM_TON]
    omega
  exact Dev.each_keeps (P := fun e => d.KeepsDemands t e) h fun p _ _ he => he.w (hkey p) _

theorem Dev.KeepsDemands.startPeriod {t : Nat} {d e : Dev} (h : d.KeepsDemands t e)
    (hm : e.r (Reg.TEAM_CFG_MODE t) ≠ 3) (j : Nat) : d.KeepsDemands t (e.startPeriod t j) := by
  rw [Dev.startPeriod_of_not_stepper hm]
  exact ((h.openPeriod j).showOnTimes _).driveTeam.countDrops

/-- The period and the table of the period that starts. -/
theorem Dev.period_startPeriod {d : Dev} {t : Nat} (h : d.r (Reg.TEAM_CFG_MODE t) ≠ 3) (j : Nat) :
    ((d.startPeriod t j).tx t).period = j ∧ ((d.startPeriod t j).tx t).tab = d.r (Reg.TEAM_COMM_TAB t) := by
  rw [Dev.startPeriod_of_not_stepper h, Dev.countDrops_tx, Dev.tx_driveTeam_same, Dev.showOnTimes_tx]
  exact d.period_openPeriod t j

/-! ### The period that ends, and the loading of demands (R195, R198, R201) -/

/-- Outside the stepper mode the period that ends changes the stepper side of its team alone. -/
theorem Dev.stepPeriodEnd_of_not_stepper {d : Dev} {t : Nat} (h : d.r (Reg.TEAM_CFG_MODE t) ≠ 3) :
    d.stepPeriodEnd t = d ∨ ∃ st, d.stepPeriodEnd t = d.setTx t { d.tx t with step := st } := by
  have hstrong : d.strong t = false := by simp [Dev.strong, h]
  unfold Dev.stepPeriodEnd
  dsimp only
  rw [hstrong]
  split
  · exact .inl rfl
  · exact .inr ⟨_, rfl⟩

theorem Dev.stepPeriodEnd_regs {d : Dev} {t : Nat} (h : d.r (Reg.TEAM_CFG_MODE t) ≠ 3) :
    (d.stepPeriodEnd t).regs = d.regs := by
  obtain e | ⟨st, e⟩ := Dev.stepPeriodEnd_of_not_stepper h
  · rw [e]
  · rw [e, Dev.setTx_regs]

theorem Dev.KeepsDemands.stepPeriodEnd {t : Nat} {d : Dev} (h : d.r (Reg.TEAM_CFG_MODE t) ≠ 3) :
    d.KeepsDemands t (d.stepPeriodEnd t) := by
  obtain e | ⟨st, e⟩ := Dev.stepPeriodEnd_of_not_stepper h
  · rw [e]
    exact .refl t d
  · rw [e]
    exact (Dev.KeepsDemands.refl t d).setTx rfl

theorem Dev.KeepsDemands.loadSector {t : Nat} {d e : Dev} (h : d.KeepsDemands t e) :
    d.KeepsDemands t (e.loadSector t) := by
  unfold Dev.loadSector
  split
  · exact h.setTx rfl
  · exact h

theorem Dev.loadSector_regs (d : Dev) (t : Nat) : (d.loadSector t).regs = d.regs := by
  unfold Dev.loadSector
  split <;> rfl

section Load
variable {d : Dev} {t : Nat} (hm : d.r (Reg.TEAM_CFG_MODE t) ≠ 3) (hon : d.b (Reg.TEAM_STAT_ENABLED t) = true)
include hm hon

/-- With every demand there they become the active ones. -/
theorem Dev.loadDemands_of_present (h : ∀ i ∈ d.demandsUsed t, ((d.tx t).staged.getD i none).isSome = true) :
    d.loadDemands t = (d.setTx t { d.tx t with
      act := [0, 1, 2, 3].map (fun i => ((d.tx t).staged.getD i none).getD 0), staged := [], missing := false,
      held := 0 }).w (Reg.TEAM_STAT_HOLDING t) 0 := by
  have hmiss : (d.demandsUsed t).any (fun i => ((d.tx t).staged.getD i none).isNone) = false :=
    List.any_eq_false.mpr fun i hi hnone =>
      Option.isSome_iff_ne_none.mp (h i hi) (Option.isNone_iff_eq_none.mp hnone)
  unfold Dev.loadDemands
  simp only [hon, hm, hmiss, Bool.not_true, Bool.false_eq_true, if_false]

/-- With a demand missing the edges are held, for one epoch more. -/
theorem Dev.loadDemands_of_missing (h : ∃ i ∈ d.demandsUsed t, (d.tx t).staged.getD i none = none)
    (hlost : d.b (Reg.TEAM_STAT_DEMAND_LOST t) = false) (hheld : (d.tx t).held < d.r (Reg.TEAM_CFG_HOLD_EPOCHS t)) :
    d.loadDemands t = (d.setTx t { d.tx t with missing := true, staged := [], held := (d.tx t).held + 1 }).flag
      (Reg.TEAM_STAT_HOLDING t) := by
  have hmiss : (d.demandsUsed t).any (fun i => ((d.tx t).staged.getD i none).isNone) = true := by
    obtain ⟨i, hi, hnone⟩ := h
    exact List.any_eq_true.mpr ⟨i, hi, by rw [hnone]; rfl⟩
  unfold Dev.loadDemands
  simp only [hon, hm, hmiss, hlost, hheld, Bool.not_true, Bool.false_eq_true, if_false, if_true, Dev.setTx_b, Dev.setTx_r,
    Dev.tx_setTx_same, Dev.setTx_setTx]

end Load

theorem Dev.applyEnable_of_none {d : Dev} {t : Nat} (h : (d.tx t).enNext = none) : d.applyEnable t = d := by
  unfold Dev.applyEnable
  dsimp only
  rw [h]

/-- The team at an epoch-aligned boundary, its demands not loaded yet. -/
def Dev.openEpoch (d : Dev) (t : Nat) : Dev := (d.stepPeriodEnd t).setTx t { (d.stepPeriodEnd t).tx t with due := false }

/-- With no change of ENABLED asked for the demands load, then the first period starts. -/
theorem Dev.epochPeriod_of_no_change {d : Dev} {t : Nat} (h : ((d.openEpoch t).tx t).enNext = none) :
    d.epochPeriod t = (((d.openEpoch t).loadDemands t).loadSector t).startPeriod t 0 := by
  show ((((d.openEpoch t).applyEnable t).loadDemands t).loadSector t).startPeriod t 0 = _
  rw [Dev.applyEnable_of_none h]

theorem mode_ne_holding (t : Nat) : (Reg.TEAM_CFG_MODE t).key ≠ (Reg.TEAM_STAT_HOLDING t).key := by
  simp only [Field.key, Reg.TEAM_CFG_MODE, Reg.TEAM_STAT_HOLDING]
  omega

section Boundary
variable {d : Dev} {t : Nat} (hm : d.r (Reg.TEAM_CFG_MODE t) ≠ 3)

include hm in
theorem Dev.openEpoch_regs : (d.openEpoch t).regs = d.regs := Dev.stepPeriodEnd_regs hm

include hm in
/-- Once the boundary is opened the team is as it was, but no longer due. -/
theorem Dev.tx_openEpoch : ((d.openEpoch t).tx t).demandSide = { d.tx t with due := false }.demandSide := by
  have hside := (Dev.KeepsDemands.stepPeriodEnd hm).side
  rw [Dev.openEpoch, Dev.tx_setTx_same]
  exact congrArg (fun x : TeamX => { x with due := false }) hside

/-- A boundary within the epoch starts the next period. -/
theorem Dev.periodBoundary_within (hdue : (d.tx t).due = false) (h : (d.tx t).period + 1 < d.r (Reg.TEAM_CFG_PDIV t)) :
    d.periodBoundary t = (d.stepPeriodEnd t).startPeriod t ((d.tx t).period + 1) :=
  if_neg fun hor => hor.elim (fun hd => by simp [hdue] at hd) (Nat.not_le.mpr h)

/-- A boundary that is due is the epoch-aligned one. -/
theorem Dev.periodBoundary_due (hdue : (d.tx t).due = true) : d.periodBoundary t = d.epochPeriod t := if_pos (.inl hdue)

include hm in
theorem Dev.KeepsDemands.periodBoundary_within (hdue : (d.tx t).due = false)
    (h : (d.tx t).period + 1 < d.r (Reg.TEAM_CFG_PDIV t)) : d.KeepsDemands t (d.periodBoundary t) := by
  rw [Dev.periodBoundary_within hdue h]
  exact (Dev.KeepsDemands.stepPeriodEnd hm).startPeriod (by rwa [Dev.r, Dev.stepPeriodEnd_regs hm]) _

include hm in
/-- What an epoch-aligned boundary does to the demand side of its team is the loading of demands. -/
theorem Dev.KeepsDemands.periodBoundary_due (hdue : (d.tx t).due = true) (hen : (d.tx t).enNext = none)
    (hload : ((d.openEpoch t).loadDemands t).r (Reg.TEAM_CFG_MODE t) ≠ 3) :
    ((d.openEpoch t).loadDemands t).KeepsDemands t (d.periodBoundary t) ∧ ((d.periodBoundary t).tx t).period = 0 := by
  have hno : ((d.openEpoch t).tx t).enNext = none := (congrArg TeamX.enNext (Dev.tx_openEpoch hm) :).trans hen
  have hmode : (((d.openEpoch t).loadDemands t).loadSector t).r (Reg.TEAM_CFG_MODE t) ≠ 3 := by
    rwa [Dev.r, Dev.loadSector_regs]
  rw [Dev.periodBoundary_due hdue, Dev.epochPeriod_of_no_change hno]
  exact ⟨(Dev.KeepsDemands.refl t _).loadSector.startPeriod hmode 0, (Dev.period_startPeriod hmode 0).1⟩

theorem Dev.demandsUsed_congr {d e : Dev} (h : e.regs = d.regs) (t : Nat) : e.demandsUsed t = d.demandsUsed t := by
  unfold Dev.demandsUsed Dev.pairsUsed Dev.b Dev.r
  rw [h]

include hm in
/-- Within an epoch a boundary keeps the active demands, opens the next period and loads the shadows. -/
theorem Dev.periodBoundary_within_keeps (hdue : (d.tx t).due = false)
    (h : (d.tx t).period + 1 < d.r (Reg.TEAM_CFG_PDIV t)) :
    let e := d.periodBoundary t
    (e.tx t).act = (d.tx t).act ∧ (e.tx t).period = (d.tx t).period + 1 ∧ (e.tx t).tab = d.r (Reg.TEAM_COMM_TAB t) ∧
      e.mem = d.mem ∧ ∀ u : Nat, u ≠ t → e.tx u = d.tx u := by
  have hkeeps := Dev.KeepsDemands.periodBoundary_within hm hdue h
  have hmode : (d.stepPeriodEnd t).r (Reg.TEAM_CFG_MODE t) ≠ 3 := by rwa [Dev.r, Dev.stepPeriodEnd_regs hm]
  obtain ⟨hperiod, htab⟩ := Dev.period_startPeriod hmode ((d.tx t).period + 1)
  rw [← Dev.periodBoundary_within hdue h] at hperiod htab
  refine ⟨hkeeps.act, hperiod, htab.trans ?_, hkeeps.mem, hkeeps.others⟩
  rw [Dev.r, Dev.stepPeriodEnd_regs hm, Dev.r]

variable (hdue : (d.tx t).due = true) (hen : (d.tx t).enNext = none) (hon : d.b (Reg.TEAM_STAT_ENABLED t) = true)
include hm hdue hen hon

/-- An epoch-aligned boundary with every demand there loads the demands. -/
theorem Dev.periodBoundary_of_present (h : ∀ i ∈ d.demandsUsed t, ((d.tx t).staged.getD i none).isSome = true) :
    let e := d.periodBoundary t
    (e.tx t).act = [0, 1, 2, 3].map (fun i => ((d.tx t).staged.getD i none).getD 0) ∧ (e.tx t).missing = false ∧
      (e.tx t).held = 0 ∧ (e.tx t).due = false ∧ (e.tx t).period = 0 ∧ e.mem = d.mem := by
  have hregs := Dev.openEpoch_regs hm
  have hside := Dev.tx_openEpoch hm
  have hstaged : ((d.openEpoch t).tx t).staged = (d.tx t).staged := (congrArg TeamX.staged hside :)
  have hdue' : ((d.openEpoch t).tx t).due = false := (congrArg TeamX.due hside :)
  have hmem : (d.openEpoch t).mem = d.mem := (Dev.KeepsDemands.stepPeriodEnd hm).mem
  have hload := Dev.loadDemands_of_present (d := d.openEpoch t) (t := t) (by rwa [Dev.r, hregs]) (by rwa [Dev.b, Dev.r, hregs])
    (by rwa [Dev.demandsUsed_congr hregs, hstaged])
  have hmode : ((d.openEpoch t).loadDemands t).r (Reg.TEAM_CFG_MODE t) ≠ 3 := by
    rw [hload, Dev.r_w_other _ (mode_ne_holding t), Dev.setTx_r, Dev.r, hregs]
    exact hm
  obtain ⟨hkeeps, hperiod⟩ := Dev.KeepsDemands.periodBoundary_due hm hdue hen hmode
  refine ⟨hkeeps.act.trans ?_, hkeeps.missing.trans ?_, hkeeps.held.trans ?_, hkeeps.due.trans ?_, hperiod,
    hkeeps.mem.trans ?_⟩
  · rw [hload, Dev.w_tx, Dev.tx_setTx_same, hstaged]
  · rw [hload, Dev.w_tx, Dev.tx_setTx_same]
  · rw [hload, Dev.w_tx, Dev.tx_setTx_same]
  · rw [hload, Dev.w_tx, Dev.tx_setTx_same, hdue']
  · rw [hload, Dev.w_mem, Dev.setTx_mem, hmem]

theorem Dev.periodBoundary_of_missing (h : ∃ i ∈ d.demandsUsed t, (d.tx t).staged.getD i none = none)
    (hlost : d.b (Reg.TEAM_STAT_DEMAND_LOST t) = false) (hheld : (d.tx t).held < d.r (Reg.TEAM_CFG_HOLD_EPOCHS t))
    (hs : d.Sound) :
    let e := d.periodBoundary t
    (e.tx t).act = (d.tx t).act ∧ (e.tx t).missing = true ∧ (e.tx t).held = (d.tx t).held + 1 ∧
      e.b (Reg.TEAM_STAT_HOLDING t) = true ∧ e.mem = d.mem := by
  have hregs := Dev.openEpoch_regs hm
  have hside := Dev.tx_openEpoch hm
  have hstaged : ((d.openEpoch t).tx t).staged = (d.tx t).staged := (congrArg TeamX.staged hside :)
  have hheld' : ((d.openEpoch t).tx t).held = (d.tx t).held := (congrArg TeamX.held hside :)
  have hact : ((d.openEpoch t).tx t).act = (d.tx t).act := (congrArg TeamX.act hside :)
  have hmem : (d.openEpoch t).mem = d.mem := (Dev.KeepsDemands.stepPeriodEnd hm).mem
  have hsound : (d.openEpoch t).Sound := Dev.setTx_sound _ _ _ (Dev.stepPeriodEnd_sound d t hs)
  have hload := Dev.loadDemands_of_missing (d := d.openEpoch t) (t := t) (by rwa [Dev.r, hregs]) (by rwa [Dev.b, Dev.r, hregs])
    (by rwa [Dev.demandsUsed_congr hregs, hstaged]) (by rwa [Dev.b, Dev.r, hregs]) (by rwa [hheld', Dev.r, hregs])
  have hmode : ((d.openEpoch t).loadDemands t).r (Reg.TEAM_CFG_MODE t) ≠ 3 := by
    rw [hload, Dev.flag, Dev.r_w_other _ (mode_ne_holding t), Dev.setTx_r, Dev.r, hregs]
    exact hm
  obtain ⟨hkeeps, -⟩ := Dev.KeepsDemands.periodBoundary_due hm hdue hen hmode
  refine ⟨hkeeps.act.trans ?_, hkeeps.missing.trans ?_, hkeeps.held.trans ?_, hkeeps.holding.trans ?_, hkeeps.mem.trans ?_⟩
  · rw [hload, Dev.flag_tx, Dev.tx_setTx_same, hact]
  · rw [hload, Dev.flag_tx, Dev.tx_setTx_same]
  · rw [hload, Dev.flag_tx, Dev.tx_setTx_same, hheld']
  · rw [hload]
    exact Dev.b_flag_same (Dev.setTx_sound _ _ _ hsound) rfl
  · rw [hload, Dev.flag_mem, Dev.setTx_mem, hmem]

end Boundary

end Sys2Proof.Machine

/-! ## Proofs: Hall codes, conversions and encoder edges -/
namespace Sys2Proof.Machine

/-! ### Hall codes (R205) -/

/-- A Hall code reaches a team that listens. -/
def Dev.takeHall (code t : Nat) (d : Dev) : Dev :=
  let d := if code = 0 ∨ code = 7 then d.inc (Reg.TEAM_HALL_ERR_CNT t) else d
  (d.setTx t { d.tx t with sector := code }).driveTeam t

theorem Dev.sector_takeHall_same (code t : Nat) (d : Dev) : ((d.takeHall code t).tx t).sector = code := by
  rw [Dev.takeHall, Dev.tx_driveTeam_same, Dev.tx_setTx_same]

theorem Dev.tx_takeHall_other (code : Nat) (d : Dev) {t u : Nat} (h : u ≠ t) : (d.takeHall code t).tx u = d.tx u := by
  rw [Dev.takeHall, Dev.tx_driveTeam_other _ h, Dev.tx_setTx_other _ h]
  split <;> rfl

theorem Dev.ex_takeHall (code : Nat) (d : Dev) (t e : Nat) : (d.takeHall code t).ex e = d.ex e := by
  rw [Dev.takeHall, Dev.driveTeam_ex, Dev.setTx_ex]
  split <;> rfl

/-- The teams whose commutation listens to interface `e`. -/
def Dev.hallTeams (d : Dev) (e : Nat) : List Nat :=
  (List.range 24).filter (fun t =>
    d.r (Reg.TEAM_CFG_MODE t) == 1 && d.r (Reg.TEAM_COMM_SRC t) == 1 && d.r (Reg.TEAM_COMM_ENC t) == e)

theorem Dev.mem_hallTeams {d : Dev} {e t : Nat} (ht : t < 24) :
    t ∈ d.hallTeams e ↔
      d.r (Reg.TEAM_CFG_MODE t) = 1 ∧ d.r (Reg.TEAM_COMM_SRC t) = 1 ∧ d.r (Reg.TEAM_COMM_ENC t) = e := by
  simp [Dev.hallTeams, ht, and_assoc]

theorem exec_hallCodeChange_other {s : State} {e : Fin 24} (h : s.dev.r (Reg.ENC_CFG_MODE e) ≠ 4) (code : Fin 8) :
    exec (.hallCodeChange e code) s = onward s (s.dev.setEx e { s.dev.ex e with hall := code.val }) := by
  show execHallCodeChange e code s = _
  rw [execHallCodeChange, ok_eq]
  dsimp only
  rw [if_pos (by rwa [Dev.setEx_r])]
  rfl

theorem exec_hallCodeChange_hall {s : State} {e : Fin 24} (h : s.dev.r (Reg.ENC_CFG_MODE e) = 4) (code : Fin 8) :
    exec (.hallCodeChange e code) s = onward s ((s.dev.setEx e { s.dev.ex e with hall := code.val }).each
      (s.dev.hallTeams e) (Dev.takeHall code.val)) := by
  show execHallCodeChange e code s = _
  rw [execHallCodeChange, ok_eq]
  dsimp only
  rw [if_neg (by rw [Dev.setEx_r]; exact not_not_intro h)]
  rfl

theorem Dev.hall_each_takeHall (code : Nat) (d : Dev) (l : List Nat) (e : Nat) :
    (d.each l (Dev.takeHall code)).ex e = d.ex e :=
  Dev.each_keeps (P := fun x => x.ex e = d.ex e) rfl fun t _ x hx => (x.ex_takeHall code t e).trans hx

theorem Dev.sector_each_takeHall (code : Nat) (d : Dev) (l : List Nat) (t : Nat) :
    ((d.each l (Dev.takeHall code)).tx t).sector = if t ∈ l then code else (d.tx t).sector :=
  Dev.each_entry (fun x u => (x.tx u).sector) (fun _ => code) (fun _ _ => rfl)
    (fun u x => x.sector_takeHall_same code u) (fun _ x _ hu => by rw [x.tx_takeHall_other code hu]) d t

/-! ### Conversions (R206 … R209) -/

theorem exec_adcTrigger_idle {s : State} {t : Fin 24} {j : Fin 4}
    (h : bitOf ((s.dev.tx t).cmps.getD j.val 0) 26 = false ∨
      s.dev.periodUnits t ≤ 100 * bits ((s.dev.tx t).cmps.getD j.val 0) 0 19) :
    exec (.adcTrigger t j) s = onward s s.dev := by
  show execAdcTrigger t j s = _
  rw [execAdcTrigger, ok_eq]
  dsimp only
  rw [if_neg]
  · rfl
  · obtain h | h := h
    · rw [h]
      simp
    · rw [decide_eq_false (Nat.not_lt.mpr h)]
      simp

/-- A compare that the present period reaches triggers its input. -/
theorem exec_adcTrigger_reached {s : State} {t : Fin 24} {j : Fin 4}
    (hen : bitOf ((s.dev.tx t).cmps.getD j.val 0) 26 = true)
    (hin : 100 * bits ((s.dev.tx t).cmps.getD j.val 0) 0 19 < s.dev.periodUnits t)
    (hper : bitOf ((s.dev.tx t).cmps.getD j.val 0) 25 = true ∨ (s.dev.tx t).period = 0) :
    exec (.adcTrigger t j) s = onward s (s.dev.adcTrigger (bits ((s.dev.tx t).cmps.getD j.val 0) 19 6)) := by
  show execAdcTrigger t j s = _
  rw [execAdcTrigger, ok_eq]
  dsimp only
  rw [if_pos (by rw [hen, decide_eq_true hin]; simpa using hper)]
  rfl

section Trigger
variable {d : Dev} {i : Nat} (hi : i < 48)
include hi

/-- An idle converter starts at once. -/
theorem Dev.adcTrigger_of_idle (h : (Tab.look {} (convOf i) d.team.conv : ConvX).busy = none) :
    d.adcTrigger i = { d with team := { d.team with
      sampled := setBit d.team.sampled i true
      conv := Tab.put (convOf i) { (Tab.look {} (convOf i) d.team.conv : ConvX) with
        busy := some ⟨i, false, d.r Reg.EPK_NOW, !bitOf d.team.sampled i⟩ } d.team.conv } } := by
  unfold Dev.adcTrigger
  dsimp only
  rw [if_neg (Nat.not_le.mpr hi), h]
  rfl

/-- A busy converter queues a trigger while fewer than three wait. -/
theorem Dev.adcTrigger_of_busy (h : (Tab.look {} (convOf i) d.team.conv : ConvX).busy.isSome = true)
    (hq : (Tab.look {} (convOf i) d.team.conv : ConvX).queue.length < 3) :
    d.adcTrigger i = { d with team := { d.team with
      conv := Tab.put (convOf i) { (Tab.look {} (convOf i) d.team.conv : ConvX) with
        queue := (Tab.look {} (convOf i) d.team.conv : ConvX).queue ++ [i] } d.team.conv } } := by
  obtain ⟨v, hv⟩ := Option.isSome_iff_exists.mp h
  unfold Dev.adcTrigger
  dsimp only
  rw [if_neg (Nat.not_le.mpr hi), hv, if_pos hq]

theorem Dev.adcTrigger_of_full (h : (Tab.look {} (convOf i) d.team.conv : ConvX).busy.isSome = true)
    (hq : 3 ≤ (Tab.look {} (convOf i) d.team.conv : ConvX).queue.length) :
    d.adcTrigger i = d.inc (Reg.ADC_CONV_STAT_TRIG_DROP (convOf i)) := by
  obtain ⟨v, hv⟩ := Option.isSome_iff_exists.mp h
  unfold Dev.adcTrigger
  dsimp only
  rw [if_neg (Nat.not_le.mpr hi), hv, if_neg (Nat.not_lt.mpr hq)]

end Trigger

theorem Dev.adcSample_eq (d : Dev) (i raw : Nat) : d.adcSample i raw = max (-32768) (min
    ((((raw : Int) - d.r (Reg.ADC_CFG_ZERO i)) * d.r (Reg.ADC_CFG_GAIN i)) / 2 ^ 14) 32767) := rfl

/-- A sample read back from 16 bits is itself. -/
theorem sx_un_sample {z : Int} (hlo : -32768 ≤ z) (hhi : z ≤ 32767) : sx 16 (un 16 z % 2 ^ 16) = z := by
  unfold sx un
  simp only [Nat.mod_mod]
  split <;> omega

/-- The registers that show a sample of input `i`. -/
def sampleFields (i : Nat) : List Field :=
  [Reg.ADC_LAST_SAMPLE i, Reg.ADC_LAST_RAW i, Reg.ADC_EPOCH_SAMPLE i, Reg.ADC_EPOCH_VALID i, Reg.ADC_EPOCH_SHIFTED i]

/-- The last sample of an input shown. -/
def Dev.showLast (d : Dev) (i raw : Nat) (a : Int) : Dev := (d.ws (Reg.ADC_LAST_SAMPLE i) a).w (Reg.ADC_LAST_RAW i) raw

/-- The epoch sample of an input shown. -/
def Dev.showEpoch (d : Dev) (i : Nat) (a : Int) (shifted : Bool) : Dev :=
  ((d.ws (Reg.ADC_EPOCH_SAMPLE i) a).w (Reg.ADC_EPOCH_VALID i) 1).wb (Reg.ADC_EPOCH_SHIFTED i) shifted

section Sample
variable {d : Dev} (hs : d.Sound) {i raw : Nat} (a : Int) (shifted : Bool)

theorem Dev.r_showLast_other {f : Field} (h : f.key ∉ (sampleFields i).map Field.key) : (d.showLast i raw a).r f = d.r f := by
  simp only [sampleFields, List.map_cons, List.map_nil, List.mem_cons, not_or] at h
  obtain ⟨hsample, hraw, -⟩ := h
  rw [Dev.showLast, Dev.r_w_other _ hraw, Dev.ws, Dev.r_w_other _ hsample]

theorem Dev.r_showEpoch_other {f : Field} (h : f.key ∉ [(Reg.ADC_EPOCH_SAMPLE i).key, (Reg.ADC_EPOCH_VALID i).key,
    (Reg.ADC_EPOCH_SHIFTED i).key]) : (d.showEpoch i a shifted).r f = d.r f := by
  simp only [List.mem_cons, List.not_mem_nil, or_false, not_or] at h
  obtain ⟨hsample, hvalid, hshifted⟩ := h
  rw [Dev.showEpoch, Dev.wb, Dev.r_w_other _ hshifted, Dev.r_w_other _ hvalid, Dev.ws, Dev.r_w_other _ hsample]

theorem Dev.showLast_sound (h : d.Sound) : (d.showLast i raw a).Sound := (Dev.ws_sound _ _ _ h).w _ _

include hs

/-- The last sample and its raw value read back. -/
theorem Dev.last_showLast (ha : -32768 ≤ a ∧ a ≤ 32767) (hraw : raw < 2 ^ 16) :
    (d.showLast i raw a).rs (Reg.ADC_LAST_SAMPLE i) = a ∧ (d.showLast i raw a).r (Reg.ADC_LAST_RAW i) = raw := by
  have hne : (Reg.ADC_LAST_SAMPLE i).key ≠ (Reg.ADC_LAST_RAW i).key := by
    simp [Field.key, Reg.ADC_LAST_SAMPLE, Reg.ADC_LAST_RAW]
  refine ⟨?_, ?_⟩
  · rw [Dev.rs, Dev.showLast, Dev.r_w_other _ hne, Dev.ws, Dev.r_w_same hs.regs]
    exact sx_un_sample ha.1 ha.2
  · rw [Dev.showLast, Dev.r_w_same (Dev.ws_sound _ _ _ hs).regs]
    exact Nat.mod_eq_of_lt hraw

/-- The epoch sample reads back as valid, shifted or not. -/
theorem Dev.adcNow_showEpoch (ha : -32768 ≤ a ∧ a ≤ 32767) :
    (d.showEpoch i a shifted).adcNow i = some a ∧ (d.showEpoch i a shifted).b (Reg.ADC_EPOCH_SHIFTED i) = shifted := by
  have hkeys : (Reg.ADC_EPOCH_SAMPLE i).key ≠ (Reg.ADC_EPOCH_VALID i).key ∧
      (Reg.ADC_EPOCH_SAMPLE i).key ≠ (Reg.ADC_EPOCH_SHIFTED i).key ∧
      (Reg.ADC_EPOCH_VALID i).key ≠ (Reg.ADC_EPOCH_SHIFTED i).key := by
    simp [Field.key, Reg.ADC_EPOCH_SAMPLE, Reg.ADC_EPOCH_VALID, Reg.ADC_EPOCH_SHIFTED]
  obtain ⟨hsv, hss, hvs⟩ := hkeys
  have hsample := Dev.ws_sound d (Reg.ADC_EPOCH_SAMPLE i) a hs
  have hvalid : (d.showEpoch i a shifted).b (Reg.ADC_EPOCH_VALID i) = true := by
    rw [Dev.showEpoch, Dev.wb, Dev.b_w_other _ hvs]
    exact Dev.b_flag_same hsample rfl
  refine ⟨?_, Dev.b_wb_same (hsample.w _ _) rfl shifted⟩
  rw [Dev.adcNow, if_pos hvalid, Dev.showEpoch, Dev.wb, Dev.r_w_other _ hss, Dev.r_w_other _ hsv, Dev.ws, Dev.r_w_same hs.regs]
  exact congrArg some (sx_un_sample ha.1 ha.2)

end Sample

/-- A sample fits 16 bits. -/
theorem Dev.adcSample_range (d : Dev) (i raw : Nat) : -32768 ≤ d.adcSample i raw ∧ d.adcSample i raw ≤ 32767 := by
  rw [Dev.adcSample_eq]
  omega

/-- What a conversion that ends looks at is none of the registers that show its sample. -/
theorem not_mem_sampleFields {i : Nat} (hi : i < 48) :
    Reg.EPK_NOW.key ∉ (sampleFields i).map Field.key ∧ (Reg.ADC_LIM_MASK_LIM_EN i).key ∉ (sampleFields i).map Field.key ∧
      ∀ e < 24, (Reg.ENC_CFG_MODE e).key ∉ (sampleFields i).map Field.key := by
  refine ⟨?_, ?_, fun e he => ?_⟩ <;>
    simp only [sampleFields, List.map_cons, List.map_nil, List.mem_cons, List.not_mem_nil, or_false, not_or, Field.key,
      Reg.EPK_NOW, Reg.ADC_LIM_MASK_LIM_EN, Reg.ENC_CFG_MODE, Reg.ADC_LAST_SAMPLE, Reg.ADC_LAST_RAW, Reg.ADC_EPOCH_SAMPLE,
      Reg.ADC_EPOCH_VALID, Reg.ADC_EPOCH_SHIFTED] <;>
    omega

/-- A field that shows no sample keeps its value when a sample is shown. -/
theorem Dev.r_showSample_other (d : Dev) {i : Nat} (raw : Nat) (a : Int) (shifted : Bool) {f : Field}
    (h : f.key ∉ (sampleFields i).map Field.key) : ((d.showLast i raw a).showEpoch i a shifted).r f = d.r f := by
  have hepoch : f.key ∉ [(Reg.ADC_EPOCH_SAMPLE i).key, (Reg.ADC_EPOCH_VALID i).key, (Reg.ADC_EPOCH_SHIFTED i).key] :=
    fun hmem => h (List.mem_cons_of_mem _ (List.mem_cons_of_mem _ hmem))
  rw [Dev.r_showEpoch_other a shifted hepoch, Dev.r_showLast_other a h]

theorem Dev.adcLimit_of_disabled {d : Dev} {i : Nat} (h : d.b (Reg.ADC_LIM_MASK_LIM_EN i) = false) (a : Int) :
    d.adcLimit i a = d := by
  unfold Dev.adcLimit
  rw [h]
  rfl

theorem exec_adcConversionDone_idle {s : State} {c : Fin 8}
    (h : (Tab.look {} c.val s.dev.team.conv : ConvX).busy = none) (raw : BitVec 16) :
    exec (.adcConversionDone c raw) s = onward s s.dev := by
  show execAdcConversionDone c raw s = _
  rw [execAdcConversionDone, ok_eq]
  dsimp only
  rw [h]
  rfl

/-- A conversion shows its sample, the first one of its epoch as that of the epoch. -/
def Dev.showSample (d : Dev) (v : Conv) (raw : Nat) : Dev :=
  let a := d.adcSample v.input raw
  let d := d.showLast v.input raw a
  if v.first ∧ v.epoch = d.r Reg.EPK_NOW then d.showEpoch v.input a v.shifted else d

/-- The device with the sample of conversion `v` shown and its converter `c` idle. -/
def Dev.converted (d : Dev) (c : Nat) (v : Conv) (raw : Nat) : Dev :=
  let e := d.showSample v raw
  { e with team := { e.team with conv := Tab.put c { (Tab.look {} c d.team.conv : ConvX) with busy := none } e.team.conv } }

/-- The SINCOS interfaces that wait for a sample of input `i` form their count. -/
def Dev.countSincos (d : Dev) (i : Nat) : Dev :=
  d.each ((List.range 24).filter (fun e => d.r (Reg.ENC_CFG_MODE e) == 3 && (d.ex e).latched.isNone &&
    (d.r (Reg.ENC_SINCOS_SIN_IN e) == i || d.r (Reg.ENC_SINCOS_COS_IN e) == i))) (fun e d => d.sincosCount e)

theorem Dev.countSincos_of_none {d : Dev} (h : ∀ e < 24, d.r (Reg.ENC_CFG_MODE e) ≠ 3) (i : Nat) : d.countSincos i = d := by
  have hnone : (List.range 24).filter (fun e => d.r (Reg.ENC_CFG_MODE e) == 3 && (d.ex e).latched.isNone &&
      (d.r (Reg.ENC_SINCOS_SIN_IN e) == i || d.r (Reg.ENC_SINCOS_COS_IN e) == i)) = [] :=
    List.filter_eq_nil_iff.mpr fun e he => by simp [h e (List.mem_range.mp he)]
  rw [Dev.countSincos, hnone]
  rfl

theorem exec_adcConversionDone_last {s : State} {c : Fin 8} {v : Conv}
    (hbusy : (Tab.look {} c.val s.dev.team.conv : ConvX).busy = some v)
    (hqueue : (Tab.look {} c.val s.dev.team.conv : ConvX).queue = []) (raw : BitVec 16) :
    exec (.adcConversionDone c raw) s = onward s
      (((s.dev.converted c.val v raw.toNat).adcLimit v.input (s.dev.adcSample v.input raw.toNat)).countSincos v.input) := by
  have hx : (Tab.look {} c.val s.dev.team.conv : ConvX) = ⟨some v, []⟩ := (congrArg₂ ConvX.mk hbusy hqueue :)
  show execAdcConversionDone c raw s = _
  unfold execAdcConversionDone Dev.converted
  rw [ok_eq]
  dsimp only
  rw [hx]
  rfl

section First
variable {d : Dev} {v : Conv} (hi : v.input < 48) (hfirst : v.first = true) (hepoch : v.epoch = d.r Reg.EPK_NOW)
include hi hfirst hepoch

/-- The first conversion of an input in its epoch shows the epoch's sample too. -/
theorem Dev.showSample_of_first (raw : Nat) :
    d.showSample v raw =
      (d.showLast v.input raw (d.adcSample v.input raw)).showEpoch v.input (d.adcSample v.input raw) v.shifted :=
  if_pos ⟨hfirst, by rw [Dev.r_showLast_other _ (not_mem_sampleFields hi).1, hepoch]⟩

/-- Without a limit and SINCOS interfaces the conversion does nothing else. -/
theorem Dev.converted_settled (hlim : d.b (Reg.ADC_LIM_MASK_LIM_EN v.input) = false)
    (henc : ∀ e : Nat, e < 24 → d.r (Reg.ENC_CFG_MODE e) ≠ 3) (c raw : Nat) (a : Int) :
    ((d.converted c v raw).adcLimit v.input a).countSincos v.input = d.converted c v raw := by
  obtain ⟨-, hlimKey, hencKey⟩ := not_mem_sampleFields hi
  have hr : ∀ f : Field, f.key ∉ (sampleFields v.input).map Field.key → (d.converted c v raw).r f = d.r f := fun f hf => by
    show (d.showSample v raw).r f = d.r f
    rw [Dev.showSample_of_first hi hfirst hepoch, Dev.r_showSample_other _ _ _ _ hf]
  have hlim' : (d.converted c v raw).b (Reg.ADC_LIM_MASK_LIM_EN v.input) = false := by
    rw [Dev.b, hr _ hlimKey]
    exact hlim
  rw [Dev.adcLimit_of_disabled hlim', Dev.countSincos_of_none fun e he => by rw [hr _ (hencKey e he)]; exact henc e he]

/-- The registers then show the sample. -/
theorem Dev.converted_shows (hs : d.Sound) (c : Nat) {raw : Nat} (hraw : raw < 2 ^ 16) :
    let e := d.converted c v raw
    e.rs (Reg.ADC_LAST_SAMPLE v.input) = d.adcSample v.input raw ∧ e.r (Reg.ADC_LAST_RAW v.input) = raw ∧
      e.adcNow v.input = some (d.adcSample v.input raw) ∧ e.b (Reg.ADC_EPOCH_SHIFTED v.input) = v.shifted := by
  have ha := d.adcSample_range v.input raw
  have hlast : ∀ f ∈ [Reg.ADC_LAST_SAMPLE v.input, Reg.ADC_LAST_RAW v.input],
      f.key ∉ [(Reg.ADC_EPOCH_SAMPLE v.input).key, (Reg.ADC_EPOCH_VALID v.input).key,
        (Reg.ADC_EPOCH_SHIFTED v.input).key] := by
    simp [Field.key, Reg.ADC_LAST_SAMPLE, Reg.ADC_LAST_RAW, Reg.ADC_EPOCH_SAMPLE, Reg.ADC_EPOCH_VALID,
      Reg.ADC_EPOCH_SHIFTED]
    omega
  have hregs : (d.converted c v raw).regs =
      ((d.showLast v.input raw (d.adcSample v.input raw)).showEpoch v.input (d.adcSample v.input raw) v.shifted).regs :=
    (congrArg Dev.regs (Dev.showSample_of_first hi hfirst hepoch raw) :)
  obtain ⟨hsample, hrawr⟩ := Dev.last_showLast hs (d.adcSample v.input raw) ha hraw (i := v.input)
  obtain ⟨hnow, hshifted⟩ := Dev.adcNow_showEpoch (Dev.showLast_sound (d.adcSample v.input raw) hs) (i := v.input)
    (d.adcSample v.input raw) v.shifted ha
  refine ⟨?_, ?_, ?_, ?_⟩
  · rw [Dev.rs, Dev.r, hregs]
    exact (congrArg (sx 16) (Dev.r_showEpoch_other _ _ (hlast _ (by simp)))).trans hsample
  · rw [Dev.r, hregs]
    exact (Dev.r_showEpoch_other _ _ (hlast _ (by simp))).trans hrawr
  · rw [← hnow]
    unfold Dev.adcNow Dev.b Dev.r
    rw [hregs]
  · rw [Dev.b, Dev.r, hregs]
    exact hshifted

end First

theorem Dev.showSample_frame (d : Dev) (v : Conv) (raw : Nat) : { d.showSample v raw with regs := d.regs } = d := by
  unfold Dev.showSample
  dsimp only
  split <;> rfl

theorem Dev.converted_frame (d : Dev) (c : Nat) (v : Conv) (raw : Nat) :
    (d.converted c v raw).team.conv =
      Tab.put c { (Tab.look {} c d.team.conv : ConvX) with busy := none } d.team.conv ∧
    (d.converted c v raw).mem = d.mem := by
  have hteam : (d.showSample v raw).team = d.team := (congrArg Dev.team (d.showSample_frame v raw) :)
  refine ⟨?_, (congrArg Dev.mem (d.showSample_frame v raw) :)⟩
  rw [Dev.converted, hteam]

/-! ### Encoders (R211 … R213) -/

theorem exec_encIndexLatch_other {s : State} {e : Fin 24} (h : s.dev.r (Reg.ENC_CFG_MODE e) ≠ 1) :
    exec (.encIndexLatch e) s = onward s s.dev := by
  show execEncIndexLatch e s = _
  rw [execEncIndexLatch, ok_eq, if_neg h]
  rfl

theorem exec_encIndexLatch_quad {s : State} {e : Fin 24} (h : s.dev.r (Reg.ENC_CFG_MODE e) = 1) :
    exec (.encIndexLatch e) s = onward s
      ((s.dev.ws (Reg.ENC_INDEX e) (s.dev.ex e).count).w (Reg.ENC_STAT_INDEX_SEEN e) 1) := by
  show execEncIndexLatch e s = _
  rw [execEncIndexLatch, ok_eq, if_pos h]
  rfl

theorem exec_ssiFrameDone_bad {s : State} {e : Fin 24} (h : s.dev.r (Reg.ENC_CFG_MODE e) = 2) (data : Word) :
    exec (.ssiFrameDone e data false) s = onward s
      ((s.dev.w (Reg.ENC_STAT_FAULT e) 1).w (Reg.ENC_STAT_FAULT_SEEN e) 1) := by
  show execSsiFrameDone e data false s = _
  rw [execSsiFrameDone, ok_eq, if_neg (not_not_intro h)]
  rfl

theorem exec_ssiFrameDone_good {s : State} {e : Fin 24} (h : s.dev.r (Reg.ENC_CFG_MODE e) = 2)
    (hg : s.dev.b (Reg.ENC_CFG_GRAY e) = false) (data : Word) :
    let v := data.toNat % 2 ^ s.dev.r (Reg.ENC_CFG_BITS e)
    exec (.ssiFrameDone e data true) s = onward s
      ((s.dev.setEx e { s.dev.ex e with latched := some v }).w (Reg.ENC_COUNT e) v) := by
  show execSsiFrameDone e data true s = _
  rw [execSsiFrameDone, ok_eq, if_neg (not_not_intro h)]
  simp only [hg]
  rfl

/-- An edge of one of the inputs is one step of the quadrature, forward or back; edges of both are two. -/
theorem quadState_step (a b c e : Bool) :
    let step := (quadState a b + 4 - quadState c e) % 4
    (a ≠ c → b ≠ e → step = 2) ∧ (a ≠ c ∧ b = e ∨ a = c ∧ b ≠ e → step = 1 ∨ step = 3) ∧
      (a = true ∧ c = false ∧ b = false → b = e → step = 1) := by
  revert a b c e
  decide

section Quad
variable {d : Dev} {e : Nat} (hm : d.r (Reg.ENC_CFG_MODE e) = 1) (hseen : (d.ex e).seen = true) {a b : Bool}
include hm hseen

/-- What an edge of a QUAD interface that has seen its inputs does, by the steps that it makes. -/
theorem Dev.quadEdge_eq :
    d.quadEdge e a b =
      let step := (quadState a b + 4 - quadState (d.ex e).a (d.ex e).b) % 4
      let x := { d.ex e with
        a := a, b := b, count := if step = 1 then (d.ex e).count + 1 else if step = 3 then (d.ex e).count - 1
          else (d.ex e).count }
      if step = 2 then (d.setEx e x).encFault e else d.setEx e x := by
  unfold Dev.quadEdge
  simp only [hm, hseen, true_or, if_true, Bool.not_true, Bool.false_eq_true, if_false, true_and, and_true]

theorem Dev.quadEdge_of_both (ha : a ≠ (d.ex e).a) (hb : b ≠ (d.ex e).b) :
    d.quadEdge e a b = (d.setEx e { d.ex e with a := a, b := b }).encFault e := by
  have hstep := (quadState_step a b (d.ex e).a (d.ex e).b).1 ha hb
  rw [Dev.quadEdge_eq hm hseen]
  simp [hstep]

theorem Dev.quadEdge_of_one (h : a ≠ (d.ex e).a ∧ b = (d.ex e).b ∨ a = (d.ex e).a ∧ b ≠ (d.ex e).b) :
    ∃ n : Int, (n = 1 ∨ n = -1) ∧
      d.quadEdge e a b = d.setEx e { d.ex e with a := a, b := b, count := (d.ex e).count + n } ∧
      (a = true ∧ (d.ex e).a = false ∧ b = false → n = 1) := by
  obtain ⟨-, hone, hup⟩ := quadState_step a b (d.ex e).a (d.ex e).b
  rw [Dev.quadEdge_eq hm hseen]
  obtain hstep | hstep := hone h
  · exact ⟨1, .inl rfl, by simp [hstep], fun _ => rfl⟩
  · refine ⟨-1, .inr rfl, by simp [hstep, Int.sub_eq_add_neg], fun hrise => ?_⟩
    have hb : b = (d.ex e).b := by
      obtain ⟨ha, hxa, -⟩ := hrise
      obtain ⟨-, hb⟩ | ⟨hb, -⟩ := h
      · exact hb
      · rw [ha, hxa] at hb
        exact absurd hb (by decide)
    have := hup hrise hb
    omega

end Quad

/-- Settles O34: a boundary by what it keeps of the demand side of its team, a Hall code team by team, and conversions and edges
by the branch that they take. -/
theorem periodsAndSensing : Obligations.PeriodsAndSensing := by
  unfold Obligations.PeriodsAndSensing
  refine ⟨fun s t hm => ⟨fun hdue h => ⟨_, rfl, Dev.periodBoundary_within_keeps hm hdue h⟩,
      fun hdue hen hon => ⟨fun h => ⟨_, rfl, Dev.periodBoundary_of_present hm hdue hen hon h⟩,
        fun h hlost hheld hs => ⟨_, rfl, Dev.periodBoundary_of_missing hm hdue hen hon h hlost hheld hs⟩⟩⟩,
    fun s e code => ⟨fun h => exec_hallCodeChange_other h code, fun h _ => ?_⟩,
    fun s t j => ⟨exec_adcTrigger_idle, fun hen hin hper hi => ⟨fun h => ?_, fun h hq => ?_, fun h hq => ?_⟩⟩,
    Dev.adcSample_eq,
    fun s c raw => ⟨fun h => exec_adcConversionDone_idle h raw, fun v hbusy hqueue hi hfirst hepoch hlim henc hs => ?_⟩,
    fun s e => ⟨exec_encIndexLatch_other, exec_encIndexLatch_quad⟩,
    fun s e data hm => ⟨exec_ssiFrameDone_bad hm data, fun hg => exec_ssiFrameDone_good hm hg data⟩,
    fun s e a b hm hseen => ⟨fun ha hb => ?_, fun h => ?_⟩⟩
  · refine ⟨_, exec_hallCodeChange_hall h code, ?_, fun t ht => ?_⟩
    · rw [Dev.hall_each_takeHall, Dev.ex_setEx_same]
    · rw [Dev.sector_each_takeHall]
      simp only [Dev.mem_hallTeams ht, Dev.setEx_tx]
  · rw [exec_adcTrigger_reached hen hin hper, Dev.adcTrigger_of_idle hi h]
  · rw [exec_adcTrigger_reached hen hin hper, Dev.adcTrigger_of_busy hi h hq]
  · rw [exec_adcTrigger_reached hen hin hper, Dev.adcTrigger_of_full hi h hq]
  · obtain ⟨hsample, hraw, hnow, hshifted⟩ := Dev.converted_shows hi hfirst hepoch hs c.val raw.isLt
    obtain ⟨hconv, hmem⟩ := s.dev.converted_frame c.val v raw.toNat
    refine ⟨_, ?_, hsample, hraw, hnow, hshifted, hconv, hmem⟩
    rw [exec_adcConversionDone_last hbusy hqueue, Dev.converted_settled hi hfirst hepoch hlim henc]
  · show onward s (s.dev.quadEdge e a b) = _
    rw [Dev.quadEdge_of_both hm hseen ha hb]
    rfl
  · obtain ⟨n, hn, hedge, hup⟩ := Dev.quadEdge_of_one hm hseen h
    exact ⟨n, hn, congrArg (onward s) hedge, hup⟩

end Sys2Proof.Machine

/-! ## Proofs: registers and commands of power teams, converters, encoders and stepper teams -/
namespace Sys2Proof.Machine

/-! ### Writes of team registers (R195, R205) -/

/-- A path with the rights of every access acts where the grade has the address, be the access privileged or not. -/
theorem Dev.access_present {d : Dev} {path : Path} (ho : d.pathOpen path = true) (hp : d.pathPriv path = true)
    (priv : Bool) (f : Dev → Dev) :
    d.access path priv true f = f d := by
  simp [Dev.access, ho, hp]

theorem exec_teamRegWrite_allowed {s : State} {path : Path} (ho : s.dev.pathOpen path = true)
    (hp : s.dev.pathPriv path = true) {t : Fin 24} (ht : t.val < teamsOf s.grade) (w : Fin 64) (v : Word) :
    exec (.teamRegWrite path t w v) s = onward s
      (if 4 * w.val = 0x24 then s.dev.teamCtrl t v.toNat else s.dev.teamWrite t (4 * w.val) v.toNat) := by
  show execTeamRegWrite path t w v s = _
  rw [execTeamRegWrite, ok_eq, decide_eq_true ht]
  dsimp only
  rw [Dev.access_present ho hp]
  rfl

theorem exec_teamRegWrite_refused {s : State} {path : Path} (ho : s.dev.pathOpen path = true)
    (hp : s.dev.pathPriv path = false) (t : Fin 24) {w : Fin 64} (hw : lockedTeamReg (4 * w.val) = true) (v : Word) :
    exec (.teamRegWrite path t w v) s = onward s (s.dev.countPath path) := by
  show execTeamRegWrite path t w v s = _
  rw [execTeamRegWrite, ok_eq]
  dsimp only
  rw [hw, Bool.true_or, Dev.access_refused ho hp]
  rfl

/-- A locked register is none of TEAM_CTRL, STEP_CUR and the commutation table. -/
theorem offset_of_locked {off : Nat} (h : lockedTeamReg off = true) :
    off ≠ 0x24 ∧ off ≠ 0x84 ∧ off ≠ 0x54 ∧ off ≠ 0x58 := by
  refine ⟨?_, ?_, ?_, ?_⟩ <;> rintro rfl <;> exact absurd h (by decide)

section Write
variable {d : Dev} {t : Nat}

theorem Dev.teamWrite_of_busy {off : Nat} (h : lockedTeamReg off = true) (hon : d.b (Reg.TEAM_STAT_ENABLED t) = true)
    (v : Nat) : d.teamWrite t off v = d.w (Reg.TEAM_STAT_CFG_BUSY t) 1 := if_pos ⟨h, hon⟩

/-- A write of another register than STEP_CUR and the commutation table is stored, but a locked one of an enabled team. -/
theorem Dev.teamWrite_of_locked {off : Nat} (h : lockedTeamReg off = true) (hon : d.b (Reg.TEAM_STAT_ENABLED t) = false)
    (v : Nat) : d.teamWrite t off v = d.putReg (0x40_1000 + 0x100 * t + off) v := by
  obtain ⟨-, hcur, hlo, hhi⟩ := offset_of_locked h
  unfold Dev.teamWrite
  dsimp only
  rw [if_neg (by simp [hon]), if_neg hcur, if_neg (by simp [hlo, hhi])]

/-- The words of the commutation table do not hold ENABLED. -/
theorem enabled_not_mem_tableWords : ∀ t < 24, ∀ off ∈ [0x54, 0x58],
    (Reg.TEAM_STAT_ENABLED t).key ∉ (wordFields (0x40_1000 + 0x100 * t + off)).map Field.key := by
  decide +kernel

/-- The table of an enabled team is stored for its next period. -/
theorem Dev.teamWrite_table (ht : t < 24) {off : Nat} (h : off ∈ [0x54, 0x58])
    (hon : d.b (Reg.TEAM_STAT_ENABLED t) = true) (v : Nat) :
    d.teamWrite t off v = d.putReg (0x40_1000 + 0x100 * t + off) v := by
  have hkey := enabled_not_mem_tableWords t ht off h
  have hon' : (d.putReg (0x40_1000 + 0x100 * t + off) v).b (Reg.TEAM_STAT_ENABLED t) = true := by
    rw [Dev.b, Dev.r_putReg_other d hkey]
    exact hon
  have htable : ∀ off ∈ [0x54, 0x58], lockedTeamReg off = false ∧ off ≠ 0x84 := by decide
  obtain ⟨hopen, hcur⟩ := htable off h
  unfold Dev.teamWrite
  dsimp only
  rw [if_neg (by simp [hopen]), if_neg hcur, if_neg (by simp [hon'])]

/-- A write of STEP_CUR is stored, and applies at the next boundary (R236). -/
theorem Dev.teamWrite_current (v : Nat) :
    d.teamWrite t 0x84 v = (d.putReg (0x40_1000 + 0x100 * t + 0x84) v).setTx t
      { d.tx t with step := { (d.tx t).step with curNext := some v } } := by
  have htx : (d.putReg (0x40_1000 + 0x100 * t + 0x84) v).tx t = d.tx t :=
    (congrArg (fun e : Dev => e.tx t) (d.putReg_frame _ v []) :)
  unfold Dev.teamWrite
  dsimp only
  rw [if_neg (by simp [show lockedTeamReg 0x84 = false from by decide]), if_pos rfl, htx]

end Write

/-! ### Team commands (R220, R221) -/

theorem teamsOf_le (g : Grade) : teamsOf g ≤ 24 := by cases g <;> decide

/-- The grade has the team that the packet names (R220). -/
theorem teamFitted_of_lt {g : Grade} {p : Packet} (h : p.arg 0 < teamsOf g) :
    teamFitted g (p.params.map BitVec.toNat) = true := by
  unfold teamFitted
  rw [decide_eq_true (show (p.params.map BitVec.toNat).getD 0 0 < teamsOf g from h), Bool.true_or]

theorem exec_teamInfo_ready {s : State} {p : Packet} (h : s.dev.Ready p 0x400 0 false) :
    exec (.teamInfo p) s = replied s p 0x400 (s.dev.taken p 0x400)
      (.ok [s.dev.r Reg.TEAM_TRIPPED, s.dev.r Reg.TEAM_STO]) := by
  show execTeamInfo p s = _
  exact ok_runPacket_short_of_ready h (by simp)

theorem exec_teamConfig_ready {s : State} {p : Packet} (h : s.dev.Ready p 0x401 18 true) (ht : p.arg 0 < teamsOf s.grade)
    {d : Dev} {res : Res}
    (hbody : (s.dev.taken p 0x401).teamConfig (p.arg 0) ((p.params.map BitVec.toNat).drop 1) = (d, res)) :
    exec (.teamConfig p) s = replied s p 0x401 d res := by
  show execTeamConfig p s = _
  exact ok_runPacket_fitted_of_ready h (teamFitted_of_lt ht) hbody

section Config
variable {d : Dev} {t : Nat} (ht : t < 24)
include ht

theorem Dev.teamConfig_of_enabled (hon : d.b (Reg.TEAM_STAT_ENABLED t) = true) (ws : List Nat) :
    d.teamConfig t ws = (d, .busy) := by
  rw [Dev.teamConfig, if_neg (Nat.not_le.mpr ht), if_pos hon]

theorem Dev.teamConfig_of_bad (hon : d.b (Reg.TEAM_STAT_ENABLED t) = false) {ws : List Nat} {i : Nat}
    (h : d.teamConfigBad t ws = some i) : d.teamConfig t ws = (d, ⟨4, i, []⟩) := by
  rw [Dev.teamConfig, if_neg (Nat.not_le.mpr ht), if_neg (by simp [hon]), h]
  rfl

theorem Dev.teamConfig_of_good (hon : d.b (Reg.TEAM_STAT_ENABLED t) = false) {ws : List Nat}
    (h : d.teamConfigBad t ws = none) : d.teamConfig t ws = (d.each
      ([0x00, 0x04, 0x08, 0x0C, 0x10, 0x14, 0x18, 0x1C, 0x20, 0x50, 0x54, 0x58, 0x5C, 0x40, 0x44, 0x48, 0x4C].zip ws)
      (fun x d => d.teamWrite t x.1 x.2), .ok []) := by
  rw [Dev.teamConfig, if_neg (Nat.not_le.mpr ht), if_neg (by simp [hon]), h]

theorem Dev.stepConfig_of_enabled (hon : d.b (Reg.TEAM_STAT_ENABLED t) = true) (ws : List Nat) :
    d.stepConfig t ws = (d, .busy) := by
  rw [Dev.stepConfig, if_neg (Nat.not_le.mpr ht), if_pos hon]

theorem Dev.stepConfig_of_good (hon : d.b (Reg.TEAM_STAT_ENABLED t) = false) (hm : d.r (Reg.TEAM_CFG_MODE t) = 3)
    {ws : List Nat} (h : d.stepConfigBad t ws = none) : d.stepConfig t ws = (d.each
      ([0x80, 0x84, 0x88, 0x8C, 0x90, 0x94, 0x98, 0x9C, 0xA0, 0xA4, 0xA8, 0xAC, 0xB0, 0xB4, 0xB8].zip ws)
      (fun x d => d.teamWrite t x.1 x.2), .ok []) := by
  rw [Dev.stepConfig, if_neg (Nat.not_le.mpr ht), if_neg (by simp [hon]), if_neg (not_not_intro hm), h]

end Config

/-- The device with a change of ENABLED asked for the listed teams, from the next boundary on. -/
def Dev.askEnable (d : Dev) (l : List Nat) (on : Bool) : Dev :=
  d.each l (fun t d => d.setTx t { d.tx t with enNext := some on })

theorem Dev.nextEpoch_askEnable (d : Dev) (l : List Nat) (on : Bool) : (d.askEnable l on).nextEpoch = d.nextEpoch :=
  Dev.each_keeps (P := fun e => e.nextEpoch = d.nextEpoch) rfl fun _ _ _ he => he

/-- A team with MODE 0 is not enabled. -/
theorem Dev.teamEnable_of_modeless {d : Dev} {mask : Nat} (hmask : mask < 2 ^ 24)
    (h : ∃ t ∈ onesOf 24 mask, d.r (Reg.TEAM_CFG_MODE t) = 0) : d.teamEnable mask 1 = (d, ⟨4, 2, []⟩) := by
  obtain ⟨t, ht, hm⟩ := h
  have hany : (onesOf 24 mask).any (fun t => d.r (Reg.TEAM_CFG_MODE t) == 0) = true :=
    List.any_eq_true.mpr ⟨t, ht, by rw [hm]; rfl⟩
  rw [Dev.teamEnable, if_neg (Nat.not_le.mpr hmask), if_neg (Nat.lt_irrefl 1), if_pos ⟨rfl, hany⟩]
  rfl

theorem Dev.teamEnable_of_good {d : Dev} {mask on : Nat} (hmask : mask < 2 ^ 24) (hon : on ≤ 1)
    (h : (∀ t ∈ onesOf 24 mask, d.r (Reg.TEAM_CFG_MODE t) ≠ 0) ∨ on = 0) :
    d.teamEnable mask on = (d.askEnable (onesOf 24 mask) (on == 1), .ok [loW d.nextEpoch, hiW d.nextEpoch]) := by
  have hgood : ¬ (on = 1 ∧ (onesOf 24 mask).any (fun t => d.r (Reg.TEAM_CFG_MODE t) == 0) = true) := by
    rintro ⟨h1, hany⟩
    obtain ⟨t, ht, hm⟩ := List.any_eq_true.mp hany
    obtain h | h := h
    · exact h t ht (by simpa using hm)
    · omega
  rw [Dev.teamEnable, if_neg (Nat.not_le.mpr hmask), if_neg (Nat.not_lt.mpr hon), if_neg hgood,
    ← d.nextEpoch_askEnable (onesOf 24 mask) (on == 1)]
  rfl

theorem exec_teamEnable_ready {s : State} {p : Packet} (h : s.dev.Ready p 0x402 2 true)
    (hfit : ∀ t ∈ onesOf 24 (p.arg 0), t < teamsOf s.grade) {d : Dev} {res : Res}
    (hbody : (s.dev.taken p 0x402).teamEnable (p.arg 0) (p.arg 1) = (d, res)) :
    exec (.teamEnable p) s = replied s p 0x402 d res := by
  show execTeamEnable p s = _
  exact ok_runPacket_fitted_of_ready h (maskFitted_of_lt hfit) hbody

theorem exec_teamRead_ready {s : State} {p : Packet} (h : s.dev.Ready p 0x405 1 false) (ht : p.arg 0 < teamsOf s.grade)
    (hv : s.dev.ep.front.valid = false) :
    let t := p.arg 0
    exec (.teamRead p) s = replied s p 0x405 (s.dev.taken p 0x405)
      (.ok [s.dev.regWord (0x40_1028 + 0x100 * t), s.dev.r (Reg.TEAM_TON t 0), s.dev.r (Reg.TEAM_TON t 1),
        s.dev.r (Reg.TEAM_TON t 2), s.dev.r (Reg.TEAM_TON t 3), s.dev.r (Reg.TEAM_DROP_CNT t),
        s.dev.r (Reg.TEAM_TRIP_CNT t), s.dev.r (Reg.TEAM_CLR_REF_CNT t), s.dev.r (Reg.TEAM_HALL_ERR_CNT t),
        loW (s.dev.r Reg.EPK_NOW), hiW (s.dev.r Reg.EPK_NOW)]) := by
  have hlt : ¬ 24 ≤ p.arg 0 := Nat.not_le.mpr (Nat.lt_of_lt_of_le ht (teamsOf_le s.grade))
  have htaken : (s.dev.taken p 0x405).ep.front.valid = false := by rw [Dev.taken_ep, hv]
  show execTeamRead p s = _
  refine ok_runPacket_fitted_of_ready h (teamFitted_of_lt ht) ((if_neg hlt).trans ?_)
  simp [Dev.ofFront_of_invalid htaken, Dev.frontWords_of_invalid htaken, Dev.teamStatWord, Packet.arg, List.range_succ]

/-! ### Stepper commands (R236, R237) -/

theorem exec_stepConfig_ready {s : State} {p : Packet} (h : s.dev.Ready p 0x406 16 true) (ht : p.arg 0 < teamsOf s.grade)
    {d : Dev} {res : Res}
    (hbody : (s.dev.taken p 0x406).stepConfig (p.arg 0) ((p.params.map BitVec.toNat).drop 1) = (d, res)) :
    exec (.stepConfig p) s = replied s p 0x406 d res := by
  show execStepConfig p s = _
  exact ok_runPacket_fitted_of_ready h (teamFitted_of_lt ht) hbody

/-- The device with IRUN and IHOLD handed to the listed teams. -/
def Dev.handCurrent (d : Dev) (l : List Nat) (v : Nat) : Dev := d.each l (fun t d => d.teamWrite t 0x84 v)

theorem Dev.stepCurrent_of_good {d : Dev} {mask irun ihold : Nat} (hmask : mask < 2 ^ 24) (hrun : irun < 2 ^ 15)
    (hhold : ihold < 2 ^ 15) (h : ∀ t ∈ onesOf 24 mask, d.r (Reg.TEAM_CFG_MODE t) = 3) :
    d.stepCurrent mask irun ihold =
      (d.handCurrent (onesOf 24 mask) (irun + ihold * 2 ^ 16), .ok [loW d.nextEpoch, hiW d.nextEpoch]) := by
  have hgood : ¬ (2 ^ 24 ≤ mask ∨ (onesOf 24 mask).any (fun t => d.r (Reg.TEAM_CFG_MODE t) != 3) = true) := by
    rintro (hle | hany)
    · omega
    · obtain ⟨t, ht, hm⟩ := List.any_eq_true.mp hany
      simp [h t ht] at hm
  rw [Dev.stepCurrent, if_neg hgood, if_neg (Nat.not_le.mpr hrun), if_neg (Nat.not_le.mpr hhold)]
  rfl

/-- A write of STEP_CUR leaves the record memory, the other teams and the rest of its own team as they are. -/
theorem Dev.teamWrite_current_keeps (d : Dev) (t v : Nat) :
    let e := d.teamWrite t 0x84 v
    e.mem = d.mem ∧ (e.tx t).step.curNext = some v ∧ (∀ u, u ≠ t → e.tx u = d.tx u) ∧
      ∀ u, (e.tx u).act = (d.tx u).act ∧ (e.tx u).out = (d.tx u).out := by
  have hframe := d.putReg_frame (0x40_1000 + 0x100 * t + 0x84) v []
  have htx : ∀ u, (d.putReg (0x40_1000 + 0x100 * t + 0x84) v).tx u = d.tx u :=
    fun u => (congrArg (fun e : Dev => e.tx u) hframe :)
  have hother : ∀ u, u ≠ t → (d.teamWrite t 0x84 v).tx u = d.tx u := fun u hu => by
    rw [Dev.teamWrite_current, Dev.tx_setTx_other _ hu, htx]
  have hself : (d.teamWrite t 0x84 v).tx t = { d.tx t with step := { (d.tx t).step with curNext := some v } } := by
    rw [Dev.teamWrite_current, Dev.tx_setTx_same]
  refine ⟨?_, by rw [hself], hother, fun u => ?_⟩
  · rw [Dev.teamWrite_current, Dev.setTx_mem]
    exact (congrArg Dev.mem hframe :)
  · by_cases hu : u = t
    · rw [hu, hself]
      exact ⟨rfl, rfl⟩
    · rw [hother u hu]
      exact ⟨rfl, rfl⟩

theorem Dev.handCurrent_keeps (d : Dev) (l : List Nat) (v : Nat) :
    (d.handCurrent l v).mem = d.mem ∧
      ∀ t, ((d.handCurrent l v).tx t).act = (d.tx t).act ∧ ((d.handCurrent l v).tx t).out = (d.tx t).out := by
  refine Dev.each_keeps (P := fun e => e.mem = d.mem ∧ ∀ t, (e.tx t).act = (d.tx t).act ∧ (e.tx t).out = (d.tx t).out)
    ⟨rfl, fun _ => ⟨rfl, rfl⟩⟩ fun t _ e he => ?_
  obtain ⟨hmem, -, -, hrest⟩ := e.teamWrite_current_keeps t v
  exact ⟨hmem.trans he.1, fun u => ⟨(hrest u).1.trans (he.2 u).1, (hrest u).2.trans (he.2 u).2⟩⟩

theorem Dev.curNext_handCurrent (d : Dev) (l : List Nat) (v t : Nat) :
    ((d.handCurrent l v).tx t).step.curNext = if t ∈ l then some v else (d.tx t).step.curNext :=
  Dev.each_entry (fun e u => (e.tx u).step.curNext) (fun _ => some v) (fun _ _ => rfl)
    (fun u e => (e.teamWrite_current_keeps u v).2.1)
    (fun u e w hw => by rw [(e.teamWrite_current_keeps u v).2.2.1 w hw]) d t

theorem exec_stepCurrent_ready {s : State} {p : Packet} (h : s.dev.Ready p 0x407 3 true)
    (hfit : ∀ t ∈ onesOf 24 (p.arg 0), t < teamsOf s.grade) {d : Dev} {res : Res}
    (hbody : (s.dev.taken p 0x407).stepCurrent (p.arg 0) (p.arg 1) (p.arg 2) = (d, res)) :
    exec (.stepCurrent p) s = replied s p 0x407 d res := by
  show execStepCurrent p s = _
  exact ok_runPacket_fitted_of_ready h (maskFitted_of_lt hfit) hbody

theorem exec_stepRead_ready {s : State} {p : Packet} (h : s.dev.Ready p 0x408 1 false) (ht : p.arg 0 < teamsOf s.grade)
    (hv : s.dev.ep.front.valid = false) :
    let t := p.arg 0
    exec (.stepRead p) s = replied s p 0x408 (s.dev.taken p 0x408)
      (.ok [s.dev.regWord (0x40_10BC + 0x100 * t), loW (s.dev.r (Reg.STEP_POS t)), hiW (s.dev.r (Reg.STEP_POS t)),
        s.dev.r (Reg.STEP_SPEED t), s.dev.r (Reg.STEP_ANGLE t), s.dev.r (Reg.STEP_EMF t),
        s.dev.regWord (0x40_10D0 + 0x100 * t), loW (s.dev.r Reg.EPK_NOW), hiW (s.dev.r Reg.EPK_NOW)]) := by
  have hlt : ¬ 24 ≤ p.arg 0 := Nat.not_le.mpr (Nat.lt_of_lt_of_le ht (teamsOf_le s.grade))
  have htaken : (s.dev.taken p 0x408).ep.front.valid = false := by rw [Dev.taken_ep, hv]
  show execStepRead p s = _
  refine ok_runPacket_fitted_of_ready h (teamFitted_of_lt ht) ((if_neg hlt).trans ?_)
  simp [Dev.ofFront_of_invalid htaken, Dev.frontWords_of_invalid htaken, Packet.arg]

/-! ### Reads of converters and encoders (R220) -/

theorem exec_adcRead_ready {s : State} {p : Packet} (h : s.dev.Ready p 0x410 2 false)
    (hlen : 5 + p.arg 1 ≤ replyLimit p.origin) (hi : p.arg 0 < 48) (hpos : 1 ≤ p.arg 1) (hn : p.arg 1 ≤ 48)
    (hend : p.arg 0 + p.arg 1 ≤ 48) (hv : s.dev.ep.front.valid = false) :
    exec (.adcRead p) s = replied s p 0x410 (s.dev.taken p 0x410)
      (.ok ([loW (s.dev.r Reg.EPK_NOW), hiW (s.dev.r Reg.EPK_NOW)] ++
        (List.range (p.arg 1)).map (fun j => s.dev.regWord (0x40_4010 + 0x20 * (p.arg 0 + j))))) := by
  have htaken : (s.dev.taken p 0x410).ep.front.valid = false := by rw [Dev.taken_ep, hv]
  have hrange : ¬ (p.arg 1 < 1 ∨ 48 < p.arg 1) := by omega
  show execAdcRead p s = _
  refine ok_runPacket_of_ready h hlen (((if_neg (Nat.not_le.mpr hi)).trans (if_neg hrange)).trans
    ((if_neg (Nat.not_lt.mpr hend)).trans ?_))
  simp [Dev.ofFront_of_invalid htaken, Dev.frontWords_of_invalid htaken, Packet.arg]

theorem exec_encRead_ready {s : State} {p : Packet} (h : s.dev.Ready p 0x420 1 false) (he : p.arg 0 < 24) :
    let e := p.arg 0
    exec (.encRead p) s = replied s p 0x420 (s.dev.taken p 0x420)
      (.ok [s.dev.r (Reg.ENC_COUNT e), s.dev.r (Reg.ENC_INDEX e), s.dev.regWord (0x40_6014 + 0x40 * e),
        loW (s.dev.r Reg.EPK_NOW), hiW (s.dev.r Reg.EPK_NOW)]) := by
  show execEncRead p s = _
  refine ok_runPacket_short_of_ready h ((if_neg (Nat.not_le.mpr he)).trans ?_)
  simp [Packet.arg]

/-- Settles O33: a register write by its offset and the state of its team, commands by their laws on the device without the
packet's words. -/
theorem teamAndStepperCommands : Obligations.TeamAndStepperCommands := by
  unfold Obligations.TeamAndStepperCommands
  refine ⟨fun s path t w v ho hp ht => ?_, fun s path t w v ho hp hw => exec_teamRegWrite_refused ho hp t hw v,
    fun s p => ⟨exec_teamInfo_ready, fun h ht => ?_, fun h hfit hmask hon => ?_, exec_teamRead_ready, fun h ht => ?_,
      fun h hteams hmask hrun hhold => ?_, exec_stepRead_ready, exec_adcRead_ready, exec_encRead_ready⟩⟩
  · have hwrite := exec_teamRegWrite_allowed ho hp ht w v
    refine ⟨fun hw => ?_, fun hw hon => ?_, fun hw hon => ?_, fun hon hw => ?_⟩
    · rw [hwrite, if_pos (by omega)]
    · rw [hwrite, if_neg (offset_of_locked hw).1, Dev.teamWrite_of_busy hw hon]
    · rw [hwrite, if_neg (offset_of_locked hw).1, Dev.teamWrite_of_locked hw hon]
    · have hoff : 4 * w.val ∈ [0x54, 0x58] := by
        simp only [List.mem_cons, List.not_mem_nil, or_false]
        omega
      rw [hwrite, if_neg (by omega), Dev.teamWrite_table t.isLt hoff hon]
  · have hlt : p.arg 0 < 24 := Nat.lt_of_lt_of_le ht (teamsOf_le s.grade)
    exact ⟨fun hon => exec_teamConfig_ready h ht (Dev.teamConfig_of_enabled hlt (by rwa [Dev.taken_b]) _),
      fun hon i hbad => exec_teamConfig_ready h ht (Dev.teamConfig_of_bad hlt (by rwa [Dev.taken_b]) hbad),
      fun hon hgood => exec_teamConfig_ready h ht (Dev.teamConfig_of_good hlt (by rwa [Dev.taken_b]) hgood)⟩
  · refine ⟨fun hm h1 => ?_, fun hm => exec_teamEnable_ready h hfit
      (Dev.teamEnable_of_good hmask hon (by simpa only [Dev.taken_r] using hm))⟩
    refine exec_teamEnable_ready h hfit ?_
    rw [h1]
    exact Dev.teamEnable_of_modeless hmask (by simpa only [Dev.taken_r] using hm)
  · have hlt : p.arg 0 < 24 := Nat.lt_of_lt_of_le ht (teamsOf_le s.grade)
    exact ⟨fun hon => exec_stepConfig_ready h ht (Dev.stepConfig_of_enabled hlt (by rwa [Dev.taken_b]) _),
      fun hon hm hgood => exec_stepConfig_ready h ht
        (Dev.stepConfig_of_good hlt (by rwa [Dev.taken_b]) (by rwa [Dev.taken_r]) hgood)⟩
  · have hbody := Dev.stepCurrent_of_good (d := s.dev.taken p 0x407) hmask hrun hhold fun t ht => by
      rw [Dev.taken_r]
      exact (hteams t ht).2
    have htx : ∀ t, (s.dev.taken p 0x407).tx t = s.dev.tx t := fun t => by rw [Dev.tx, Dev.taken_team, Dev.tx]
    obtain ⟨hmem, hrest⟩ := (s.dev.taken p 0x407).handCurrent_keeps (onesOf 24 (p.arg 0)) (p.arg 1 + p.arg 2 * 2 ^ 16)
    refine ⟨_, exec_stepCurrent_ready h (fun t ht => (hteams t ht).1) hbody, hmem.trans (s.dev.taken_mem p 0x407),
      fun t ht => ?_, fun t => ?_⟩
    · rw [Dev.curNext_handCurrent, htx]
      simp only [mem_onesOf, ht, true_and]
    · rw [← htx t]
      exact hrest t

end Sys2Proof.Machine

/-! ## Proofs: the chopper and the load angle of stepper teams -/
namespace Sys2Proof.Machine

/-! ### Standstill (R226) -/

theorem exec_tstillExpire_moving {s : State} {t : Fin 24}
    (h : s.dev.r (Reg.TEAM_CFG_MODE t) ≠ 3 ∨ (s.dev.tx t).step.still < s.dev.r (Reg.STEP_CFG_TSTILL t)) :
    exec (.tstillExpire t) s = onward s s.dev := by
  show execTstillExpire t s = _
  rw [execTstillExpire, ok_eq, if_neg]
  · rfl
  · rintro ⟨hm, hle⟩
    exact h.elim (fun hne => hne hm) (Nat.not_lt.mpr hle)

theorem exec_tstillExpire_still {s : State} {t : Fin 24} (hm : s.dev.r (Reg.TEAM_CFG_MODE t) = 3)
    (h : s.dev.r (Reg.STEP_CFG_TSTILL t) ≤ (s.dev.tx t).step.still) :
    exec (.tstillExpire t) s = onward s
      ((s.dev.setTx t { s.dev.tx t with step := { (s.dev.tx t).step with amp := (s.dev.tx t).step.ihold } }).w
        (Reg.STEP_STAT_STILL t) 1) := by
  show execTstillExpire t s = _
  rw [execTstillExpire, ok_eq, if_pos ⟨hm, h⟩]
  rfl

/-! ### The chopper (R228) -/

/-- In weak mode no phase chops. -/
theorem exec_chop_weak {s : State} {t : Fin 24} (h : s.dev.strong t = false) (b : Bool) (tick : Nat) :
    exec (.chopBlankEnd t b) s = onward s s.dev ∧ exec (.chopComparatorSwitch t b tick) s = onward s s.dev ∧
      exec (.chopFastEnd t b) s = onward s s.dev := by
  refine ⟨?_, ?_, ?_⟩
  · show execChopBlankEnd t b s = _
    simp [execChopBlankEnd, h, onward]
  · show execChopComparatorSwitch t b tick s = _
    simp [execChopComparatorSwitch, h, onward]
  · show execChopFastEnd t b s = _
    simp [execChopFastEnd, h, onward]

theorem exec_chopComparatorSwitch_unarmed {s : State} {t : Fin 24} {b : Bool}
    (ha : ((s.dev.tx t).step.phase b).armed = false) (tick : Nat) :
    exec (.chopComparatorSwitch t b tick) s = onward s s.dev := by
  show execChopComparatorSwitch t b tick s = _
  simp [execChopComparatorSwitch, ha, onward]

section Strong
variable {s : State} {t : Fin 24} {b : Bool} (hs : s.dev.strong t = true)
include hs

theorem exec_chopBlankEnd_drive (hp : ((s.dev.tx t).step.phase b).st = 1) :
    exec (.chopBlankEnd t b) s =
      onward s (s.dev.setPhase t b { (s.dev.tx t).step.phase b with armed := true }) := by
  show execChopBlankEnd t b s = _
  simp [execChopBlankEnd, hs, hp, onward]

theorem exec_chopComparatorSwitch_slow (hp : ((s.dev.tx t).step.phase b).st = 1)
    (ha : ((s.dev.tx t).step.phase b).armed = true) (hd : s.dev.b (Reg.STEP_CFG_DECAY t) = false) (tick : Nat) :
    exec (.chopComparatorSwitch t b tick) s = onward s (s.dev.setPhase t b { (s.dev.tx t).step.phase b with
      armed := false, st := 0, drive := 100 * (tick - s.dev.r (Reg.TEAM_DT_DT t)), fast := 0 }) := by
  show execChopComparatorSwitch t b tick s = _
  simp [execChopComparatorSwitch, hs, hp, ha, hd, onward]

/-- With DECAY 1 the fast phase lasts FAST_T less the dead time, at most to the end of the period. -/
theorem exec_chopComparatorSwitch_fast (hp : ((s.dev.tx t).step.phase b).st = 1)
    (ha : ((s.dev.tx t).step.phase b).armed = true) (hd : s.dev.b (Reg.STEP_CFG_DECAY t) = true) (tick : Nat) :
    exec (.chopComparatorSwitch t b tick) s = onward s (s.dev.setPhase t b { (s.dev.tx t).step.phase b with
      armed := false, st := 2, drive := 100 * (tick - s.dev.r (Reg.TEAM_DT_DT t)),
      fast := min (100 * (s.dev.r (Reg.STEP_CHOP_FAST_T t) - s.dev.r (Reg.TEAM_DT_DT t)))
        (s.dev.periodUnits t - 100 * tick) }) := by
  show execChopComparatorSwitch t b tick s = _
  simp [execChopComparatorSwitch, hs, hp, ha, hd, onward]

theorem exec_chopFastEnd_fast (hp : ((s.dev.tx t).step.phase b).st = 2) :
    exec (.chopFastEnd t b) s = onward s (s.dev.setPhase t b { (s.dev.tx t).step.phase b with st := 0 }) := by
  show execChopFastEnd t b s = _
  simp [execChopFastEnd, hs, hp, onward]

end Strong

/-! ### What the stall reaction keeps of an estimate (R233) -/

/-- Device `e` has the filtered angle and the EMF that `d` has for team `t`, and the record memory of `d`. -/
structure Dev.KeepsEstimate (t : Nat) (d e : Dev) : Prop where
  df : (e.tx t).step.df = (d.tx t).step.df
  emf : e.r (Reg.STEP_EMF t) = d.r (Reg.STEP_EMF t)
  mem : e.mem = d.mem

/-- STEP_EMF is none of the registers that an estimate, a stall or a trip writes beside it. -/
theorem stepEmf_keys (t : Nat) :
    (∀ f ∈ [Reg.STEP_ANGLE t, Reg.STEP_STAT_EST_VALID t, Reg.STEP_STAT_STALL t, Reg.STEP_CNT_STALL_CNT t,
      Reg.TEAM_STAT_EN_PIN t, Reg.TEAM_STAT_OUT_STATE t], (Reg.STEP_EMF t).key ≠ f.key) ∧
      (Reg.STEP_EMF t).key ∉ (tripFields t).map Field.key := by
  simp [tripFields, Field.key, Reg.STEP_EMF, Reg.STEP_ANGLE, Reg.STEP_STAT_EST_VALID, Reg.STEP_STAT_STALL,
    Reg.STEP_CNT_STALL_CNT, Reg.TEAM_STAT_EN_PIN, Reg.TEAM_STAT_OUT_STATE, Reg.TEAM_STAT_TRIP_SRC, Reg.TEAM_STAT_FORCED,
    Reg.TEAM_STAT_TRIPPED, Reg.TEAM_TRIP_CNT, Reg.TEAM_TRIPPED]
  omega

namespace Dev.KeepsEstimate
variable {t : Nat} {d e f : Dev}

theorem refl (t : Nat) (d : Dev) : d.KeepsEstimate t d := ⟨rfl, rfl, rfl⟩

theorem trans (h : d.KeepsEstimate t e) (k : e.KeepsEstimate t f) : d.KeepsEstimate t f :=
  ⟨k.df.trans h.df, k.emf.trans h.emf, k.mem.trans h.mem⟩

/-- A write of a register field other than STEP_EMF. -/
theorem w (h : d.KeepsEstimate t e) {g : Field} (hg : (Reg.STEP_EMF t).key ≠ g.key) (v : Nat) :
    d.KeepsEstimate t (e.w g v) :=
  h.trans ⟨rfl, e.r_w_other hg v, rfl⟩

/-- A new count of the stall estimates in a row. -/
theorem countStalls (h : d.KeepsEstimate t e) (n : Nat) :
    d.KeepsEstimate t (e.setTx t { e.tx t with step := { (e.tx t).step with stallCnt := n } }) :=
  h.trans ⟨by rw [Dev.tx_setTx_same], rfl, rfl⟩

theorem stopStepperAxis (h : d.KeepsEstimate t e) : d.KeepsEstimate t (e.stopStepperAxis t) := by
  refine h.trans ?_
  unfold Dev.stopStepperAxis
  split
  · exact ⟨rfl, rfl, rfl⟩
  · exact refl t e

theorem tripTeam (h : d.KeepsEstimate t e) (src : TripSrc) : d.KeepsEstimate t (e.tripTeam t src) := by
  obtain ⟨hkeys, htrip⟩ := stepEmf_keys t
  refine h.trans ⟨?_, ?_, e.tripTeam_mem t src⟩
  · rw [Dev.tripTeam_eq, Dev.tx_driveTeam_same, Dev.tx_setTx_same]
    rfl
  · rw [e.r_tripTeam t src (hkeys _ (by simp)) (hkeys _ (by simp)), e.r_latchTrip_other src htrip]

/-- A stall estimate only counts, or sets STALL and takes one of the reactions. -/
theorem stallEstimate (h : d.KeepsEstimate t e) : d.KeepsEstimate t (e.stallEstimate t) := by
  obtain ⟨hkeys, -⟩ := stepEmf_keys t
  have hshown := ((h.countStalls 0).w (hkeys (Reg.STEP_STAT_STALL t) (by simp)) 1).w
    (hkeys (Reg.STEP_CNT_STALL_CNT t) (by simp))
  unfold Dev.stallEstimate
  dsimp only
  split
  · exact h.countStalls _
  · split
    · exact (hshown _).stopStepperAxis
    · exact (hshown _).stopStepperAxis.tripTeam .force
    · exact hshown _

end Dev.KeepsEstimate

/-! ### The estimate (R231, R232) -/

/-- The device with the filtered angle of an estimate (angle, EMF, speed) kept and shown, and its EMF shown. -/
def Dev.showEstimate (d : Dev) (t : Nat) (est : Nat × Nat × Nat) : Dev :=
  ((d.setTx t { d.tx t with step := { (d.tx t).step with df := est.1 } }).w (Reg.STEP_EMF t) est.2.1).ws
    (Reg.STEP_ANGLE t) (satS 16 ((f32.floorScaled est.1 6).getD 0))

theorem Dev.showEstimate_shows {d : Dev} (h : d.Sound) (t : Nat) (est : Nat × Nat × Nat) :
    ((d.showEstimate t est).tx t).step.df = est.1 ∧ (d.showEstimate t est).r (Reg.STEP_EMF t) = est.2.1 % 2 ^ 32 ∧
      (d.showEstimate t est).mem = d.mem := by
  refine ⟨?_, ?_, rfl⟩
  · rw [Dev.showEstimate, Dev.ws, Dev.w_tx, Dev.w_tx, Dev.tx_setTx_same]
  · rw [Dev.showEstimate, Dev.ws, Dev.r_w_other _ ((stepEmf_keys t).1 _ (by simp)),
      Dev.r_w_same (Dev.setTx_sound _ _ _ h).regs]
    rfl

section Estimate
variable {d : Dev} {t : Nat}

theorem Dev.estimate_of_off (h : d.r (Reg.TEAM_CFG_MODE t) ≠ 3 ∨ d.b (Reg.TEAM_STAT_ENABLED t) = false) :
    d.estimate t = d := by
  rw [Dev.estimate, if_pos]
  simpa using h

variable (hm : d.r (Reg.TEAM_CFG_MODE t) = 3) (hon : d.b (Reg.TEAM_STAT_ENABLED t) = true)
include hm hon

theorem Dev.estimate_of_missing (h : d.adcNow (2 * t) = none) : d.estimate t = d.flag (Reg.STEP_STAT_EST_MISS t) := by
  rw [Dev.estimate, if_neg (by simp [hm, hon])]
  simp only [h]

/-- With all samples the estimate is shown, and what follows, a stall or none, keeps it. -/
theorem Dev.estimate_keeps {a b pa pb v : Int} (ha : d.adcNow (2 * t) = some a) (hb : d.adcNow (2 * t + 1) = some b)
    (hprev : (d.tx t).step.ixPrev = [some pa, some pb]) (hv : d.adcNow (d.r (Reg.STEP_VBUS t)) = some v) :
    (d.showEstimate t (d.loadAngle t a b pa pb v)).KeepsEstimate t (d.estimate t) := by
  rw [Dev.estimate, if_neg (by simp [hm, hon])]
  have hprevA : (d.tx t).step.ixPrev.getD 0 none = some pa := by rw [hprev]; rfl
  have hprevB : (d.tx t).step.ixPrev.getD 1 none = some pb := by rw [hprev]; rfl
  simp only [ha, hb, hprevA, hprevB, hv]
  have hshown := (Dev.KeepsEstimate.refl t (d.showEstimate t (d.loadAngle t a b pa pb v))).w
    ((stepEmf_keys t).1 (Reg.STEP_STAT_EST_VALID t) (by simp))
  split
  · exact (hshown _).stallEstimate
  · exact (hshown _).countStalls 0

end Estimate

/-- Settles O35: each event by the state that it needs of its phase, and an estimate by what is shown of it. -/
theorem chopperAndLoadAngle : Obligations.ChopperAndLoadAngle := by
  unfold Obligations.ChopperAndLoadAngle
  refine ⟨fun s t => ⟨exec_tstillExpire_moving, exec_tstillExpire_still⟩,
    fun s t b tick => ⟨fun hs => exec_chop_weak hs b tick, fun hs hp => ⟨exec_chopBlankEnd_drive hs hp,
      fun ha => exec_chopComparatorSwitch_unarmed ha tick, fun ha hd => exec_chopComparatorSwitch_slow hs hp ha hd tick,
      fun ha hd => ⟨_, exec_chopComparatorSwitch_fast hs hp ha hd tick⟩⟩, exec_chopFastEnd_fast⟩,
    fun s t => ⟨fun h => congrArg (onward s) (Dev.estimate_of_off h), fun hm hon =>
      ⟨fun h => congrArg (onward s) (Dev.estimate_of_missing hm hon h), fun a b pa pb v ha hb hprev hv hs => ?_⟩⟩⟩
  have hkeep := Dev.estimate_keeps hm hon ha hb hprev hv
  obtain ⟨hdf, hemf, hmem⟩ := Dev.showEstimate_shows hs t (s.dev.loadAngle t a b pa pb v)
  exact ⟨_, rfl, hkeep.df.trans hdf, hkeep.emf.trans hemf, hkeep.mem.trans hmem⟩

end Sys2Proof.Machine

/-! ## Proofs: the protective separation distance -/
namespace Sys2Proof.Machine

/-! ### The six terms of the distance (R254) -/

/-- The protective separation distance S_h + S_r + S_s + C + Z_d + Z_r in mm at the speed `v` in Q16.16 mm/s. -/
def SepLaw.distance (l : SepLaw) (v : Nat) : Rat :=
  let q (n k : Nat) : Rat := (n : Rat) / 2 ^ k
  let A := q l.a 8
  let T := (l.tr : Rat) / 1000000
  q l.vh 16 * (T + q v 16 / A) + q v 16 * T + q v 16 * q v 16 / (2 * A) + q l.c 8 + q l.zd 8 + q l.zr 8

/-- The sum that `tooNear` compares: the distance in units of 1 / (2^32 × 10^6 × A_STOP) mm. -/
def SepLaw.scaledDistance (l : SepLaw) (v : Nat) : Nat :=
  v * v * 128000000 + v * (l.tr * 2 ^ 16 * l.a + l.vh * 2 ^ 8 * 1000000) + l.vh * l.tr * 2 ^ 16 * l.a +
    (l.c + l.zd + l.zr) * 2 ^ 24 * 1000000 * l.a

theorem SepLaw.tooNear_iff_scaled (l : SepLaw) (d : Int) (v : Nat) :
    l.tooNear d v = true ↔ d * (2 ^ 24 * 1000000 * l.a) < (l.scaledDistance v : Int) := decide_eq_true_iff

section Scale
variable {l : SepLaw} (ha : 0 < l.a)
include ha

theorem SepLaw.distance_mul_scale (v : Nat) : l.distance v * (2 ^ 32 * 1000000 * l.a) = l.scaledDistance v := by
  have hne : (l.a : Rat) ≠ 0 := by exact_mod_cast ha.ne'
  simp only [SepLaw.distance, SepLaw.scaledDistance]
  push_cast
  field_simp
  ring

/-- The comparison of integers is the comparison of the exact values. -/
theorem SepLaw.tooNear_iff_lt_distance (d : Int) (v : Nat) :
    l.tooNear d v = true ↔ (d : Rat) / 2 ^ 8 < l.distance v := by
  have hpos : (0 : Rat) < 2 ^ 32 * 1000000 * l.a := by positivity
  have hd : (d : Rat) / 2 ^ 8 * (2 ^ 32 * 1000000 * l.a) = d * (2 ^ 24 * 1000000 * l.a) := by ring
  rw [l.tooNear_iff_scaled, ← mul_lt_mul_iff_left₀ hpos, hd, SepLaw.distance_mul_scale ha]
  exact_mod_cast Iff.rfl

end Scale

/-- Settles O36: the sum by its terms, and the comparison by bringing both sides to the scale of the integers. -/
theorem separationDistance : Obligations.SeparationDistance := by
  unfold Obligations.SeparationDistance
  intro l d v ha q A T w h K b S
  have hsum : S = w * w / (2 * A) + b * w + K := by
    simp only [S, K, b]
    ring
  exact ⟨hsum, SepLaw.tooNear_iff_lt_distance ha d v⟩

end Sys2Proof.Machine

/-! ## Proofs: protective stops of the Paddock monitor -/
namespace Sys2Proof.Machine

/-! ### What the monitor reads of the record memory -/

theorem Dev.armsOn_congr {d e : Dev} (h : e.mem = d.mem) (g : Grade) : e.armsOn g = d.armsOn g := by
  simp only [Dev.armsOn, Dev.armWord, Dev.mw, h]

theorem Dev.jointsOf_congr {d e : Dev} (h : e.mem = d.mem) (a : Nat) : e.jointsOf a = d.jointsOf a := by
  simp only [Dev.jointsOf, Dev.armWord, Dev.jointWord, Dev.mw, h]

theorem Dev.jointAxis_congr {d e : Dev} (h : e.mem = d.mem) (j : Nat) : e.jointAxis j = d.jointAxis j := by
  simp only [Dev.jointAxis, Dev.jointWord, Dev.mw, h]

theorem Dev.sensWord_congr {d e : Dev} (h : e.mem = d.mem) (n i : Nat) : e.sensWord n i = d.sensWord n i := by
  simp only [Dev.sensWord, Dev.mw, h]

theorem armsOf_le (g : Grade) : armsOf g ≤ 16 := by cases g <;> decide

theorem Dev.lt_of_mem_armsOn {d : Dev} {g : Grade} {a : Nat} (h : a ∈ d.armsOn g) : a < 16 :=
  Nat.lt_of_lt_of_le (List.mem_range.mp (List.mem_of_mem_filter h)) (armsOf_le g)

/-! ### Protective stops (R243, R263) -/

theorem Field.key_ne_of_addr_ne {f g : Field} (h : f.addr ≠ g.addr) (hf : f.lo < 32) (hg : g.lo < 32) : f.key ≠ g.key := by
  unfold Field.key
  omega

/-- What an action gives the element on which it acts, and keeps for every other one, a list of actions gives its elements. -/
theorem Dev.each_gives {α : Type} {I : Dev → Prop} {P : α → Dev → Prop} {d : Dev} {l : List α} {f : α → Dev → Dev} (h : I d)
    (hI : ∀ x e, I e → I (f x e)) (hself : ∀ x e, I e → P x (f x e)) (hother : ∀ x y e, x ≠ y → P x e → P x (f y e)) :
    ∀ x ∈ l, P x (d.each l f) := by
  induction l generalizing d with
  | nil => exact fun x hx => absurd hx List.not_mem_nil
  | cons y l ih =>
    refine List.forall_mem_cons.mpr ⟨?_, ih (hI y d h)⟩
    by_cases hy : y ∈ l
    · exact ih (hI y d h) y hy
    · exact Dev.each_keeps (P := P y) (d := f y d) (l := l) (hself y d h)
        fun x hx e he => hother y x e (fun hyx => hy (hyx ▸ hx)) he

/-- Arm `a` is in protective stop with the causes that `c` names, in the order of ARM_STAT.CAUSE. -/
structure Dev.ArmStopped (d : Dev) (a c : Nat) : Prop where
  pstop : d.b (Reg.ARM_STAT_PSTOP a) = true
  cause : ∀ i < 9, bitOf c i = true → bitOf (d.r (Reg.ARM_STAT_CAUSE a)) i = true

@[simp] theorem Dev.armStop_mem (d : Dev) (a c : Nat) : (d.armStop a c).mem = d.mem := rfl

/-- A stop of an arm writes its ARM_STAT alone. -/
theorem Dev.r_armStop_other (d : Dev) {a : Nat} {f : Field} (h : f.addr ≠ 0x50_0100 + 0x20 * a) (hf : f.lo < 32) (c : Nat) :
    (d.armStop a c).r f = d.r f := by
  have hkey : ∀ g : Field, g.addr = 0x50_0100 + 0x20 * a → g.lo < 32 → f.key ≠ g.key :=
    fun g hg hlo => Field.key_ne_of_addr_ne (hg ▸ h) hf hlo
  exact (Dev.r_w_other _ (hkey (Reg.ARM_STAT_REL_PENDING a) rfl (by simp [Reg.ARM_STAT_REL_PENDING])) 0).trans
    ((Dev.r_w_other _ (hkey (Reg.ARM_STAT_CAUSE a) rfl (by simp [Reg.ARM_STAT_CAUSE])) _).trans
      (Dev.r_w_other _ (hkey (Reg.ARM_STAT_PSTOP a) rfl (by simp [Reg.ARM_STAT_PSTOP])) 1))

theorem bitOf_or (x y i : Nat) : bitOf (x ||| y) i = (bitOf x i || bitOf y i) := by
  simp only [bitOf_eq_testBit, Nat.testBit_or]

theorem Dev.armStopped_armStop {d : Dev} (h : d.Sound) (a c : Nat) : (d.armStop a c).ArmStopped a c := by
  have hkeys : (Reg.ARM_STAT_PSTOP a).key ≠ (Reg.ARM_STAT_CAUSE a).key ∧
      (Reg.ARM_STAT_PSTOP a).key ≠ (Reg.ARM_STAT_REL_PENDING a).key ∧
      (Reg.ARM_STAT_CAUSE a).key ≠ (Reg.ARM_STAT_REL_PENDING a).key := by
    simp [Field.key, Reg.ARM_STAT_PSTOP, Reg.ARM_STAT_CAUSE, Reg.ARM_STAT_REL_PENDING]
  obtain ⟨hpc, hpr, hcr⟩ := hkeys
  have hset : (d.flag (Reg.ARM_STAT_PSTOP a)).Sound := h.w _ _
  constructor
  · exact (Dev.b_w_other _ hpr 0).trans ((Dev.b_w_other _ hpc _).trans (Dev.b_flag_same h rfl))
  · intro i hi hc
    have hcause : (d.armStop a c).r (Reg.ARM_STAT_CAUSE a) = (d.r (Reg.ARM_STAT_CAUSE a) ||| c) % 2 ^ 9 :=
      (Dev.r_w_other _ hcr 0).trans (Dev.r_w_same hset.regs _ _)
    rw [hcause, bitOf_mod_two_pow hi, bitOf_or, hc, Bool.or_true]

/-- A change that leaves the arm's ARM_STAT keeps its stop. -/
theorem Dev.ArmStopped.congr {d e : Dev} {a c : Nat} (h : d.ArmStopped a c)
    (hr : ∀ f : Field, f.addr = 0x50_0100 + 0x20 * a → f.lo < 32 → e.r f = d.r f) : e.ArmStopped a c :=
  ⟨by rw [Dev.b, hr _ rfl (by simp [Reg.ARM_STAT_PSTOP])]; exact h.pstop,
    by rw [hr _ rfl (by simp [Reg.ARM_STAT_CAUSE])]; exact h.cause⟩

theorem Dev.ArmStopped.w {d : Dev} {a c : Nat} (h : d.ArmStopped a c) {f : Field} (ha : f.addr ≠ 0x50_0100 + 0x20 * a)
    (hlo : f.lo < 32) (v : Nat) : (d.w f v).ArmStopped a c :=
  h.congr fun _ hg hglo => Dev.r_w_other d (Field.key_ne_of_addr_ne (fun hgf => ha (hgf.symm.trans hg)) hglo hlo) v

theorem Dev.ArmStopped.armStop_other {d : Dev} {a b c : Nat} (h : d.ArmStopped a c) (hab : a ≠ b) (k : Nat) :
    (d.armStop b k).ArmStopped a c :=
  h.congr fun f hf hlo => Dev.r_armStop_other d (by omega) hlo k

/-- The stop of each arm of a list. -/
def Dev.stopArms (d : Dev) (arms : List Nat) (c : Nat) : Dev := d.each arms (fun a d => d.armStop a c)

@[simp] theorem Dev.stopArms_mem (d : Dev) (arms : List Nat) (c : Nat) : (d.stopArms arms c).mem = d.mem :=
  Dev.each_keeps (P := fun e => e.mem = d.mem) rfl fun _ _ _ he => he

theorem Dev.armStopped_stopArms {d : Dev} (h : d.Sound) (arms : List Nat) (c : Nat) :
    ∀ a ∈ arms, (d.stopArms arms c).ArmStopped a c :=
  Dev.each_gives (I := Dev.Sound) (P := fun a e => e.ArmStopped a c) h (fun a e he => e.armStop_sound a c he)
    (fun a _ he => Dev.armStopped_armStop he a c) (fun _ _ _ hab he => he.armStop_other hab c)

theorem Dev.r_stopArms_other (d : Dev) {arms : List Nat} {f : Field} (h : ∀ a ∈ arms, f.addr ≠ 0x50_0100 + 0x20 * a)
    (hf : f.lo < 32) (c : Nat) : (d.stopArms arms c).r f = d.r f :=
  Dev.each_keeps (P := fun e => e.r f = d.r f) rfl fun a ha e he => (e.r_armStop_other (h a ha) hf c).trans he

/-! ### Stops and caps for the profile generator (R241, R259) -/

@[simp] theorem Dev.handCaps_r (d : Dev) (g : Grade) (f : Field) : (d.handCaps g).r f = d.r f := rfl
@[simp] theorem Dev.handCaps_b (d : Dev) (g : Grade) (f : Field) : (d.handCaps g).b f = d.b f := rfl
@[simp] theorem Dev.handCaps_mem (d : Dev) (g : Grade) : (d.handCaps g).mem = d.mem := rfl
@[simp] theorem Dev.showPstop_mem (d : Dev) (g : Grade) : (d.showPstop g).mem = d.mem := rfl

theorem Dev.r_showPstop_other (d : Dev) {f : Field} (h : f.addr ≠ 0x50_0018) (hf : f.lo < 32) (g : Grade) :
    (d.showPstop g).r f = d.r f :=
  Dev.r_w_other d (g := f) (f := Reg.PDK_PSTOP) (Field.key_ne_of_addr_ne h hf (by decide)) _

/-- Showing the stops and handing them over keeps each of them. -/
theorem Dev.ArmStopped.handOver {d : Dev} {a c : Nat} (h : d.ArmStopped a c) (g : Grade) :
    ((d.showPstop g).handCaps g).ArmStopped a c :=
  h.congr fun _ hf hlo => d.r_showPstop_other (by omega) hlo g

/-- The axes of an arm in protective stop are among the stopped axes. -/
theorem Dev.mem_outStop_handCaps {d : Dev} {g : Grade} {a j : Nat} (ha : a ∈ d.armsOn g)
    (hp : d.b (Reg.ARM_STAT_PSTOP a) = true) (hj : j ∈ d.jointsOf a) : d.jointAxis j ∈ (d.handCaps g).pdk.outStop := by
  have hstop : a ∈ (d.armsOn g).filter (fun a => !(d.r Reg.PDK_STAT_STATE == 2) || d.b (Reg.ARM_STAT_PSTOP a)) :=
    List.mem_filter.mpr ⟨ha, by simp [hp]⟩
  exact List.mem_flatMap.mpr ⟨a, hstop, List.mem_map_of_mem hj⟩

theorem Tab.mem_put {α : Type} {i : Nat} {x : α} {t : Tab α} {e : Nat × α} (h : e ∈ Tab.put i x t) : e = (i, x) ∨ e ∈ t := by
  induction t with
  | nil => exact .inl (List.mem_singleton.mp h)
  | cons y t ih =>
    simp only [Tab.put] at h
    split at h
    · exact List.mem_cons.mp h
    · split at h
      · exact (List.mem_cons.mp h).imp_right (List.mem_cons_of_mem _)
      · obtain rfl | h := List.mem_cons.mp h
        · exact .inr List.mem_cons_self
        · exact (ih h).imp_right (List.mem_cons_of_mem _)

/-- A table filled from a list holds entries of the list alone, and those that it had. -/
theorem Tab.mem_foldl_put {α : Type} {l : List (Nat × α)} {t : Tab α} {e : Nat × α}
    (h : e ∈ l.foldl (fun t e => Tab.put e.1 e.2 t) t) : e ∈ l ∨ e ∈ t := by
  induction l generalizing t with
  | nil => exact .inr h
  | cons y l ih =>
    obtain h | h := ih h
    · exact .inl (List.mem_cons_of_mem _ h)
    · exact (Tab.mem_put h).imp_left fun hey => List.mem_cons.mpr (.inl hey)

/-- Outside RUN every cap handed over is 0, and in RUN that of an axis whose arms are all in protective stop. -/
theorem Dev.handCaps_zero (d : Dev) (g : Grade) : ∃ t : Tab Nat, (d.handCaps g).pdk.outCaps = some t ∧
    ∀ e ∈ t, d.r Reg.PDK_STAT_STATE ≠ 2 ∨ (∀ a ∈ d.armsOn g, e.1 ∈ (d.jointsOf a).map d.jointAxis →
      d.b (Reg.ARM_STAT_PSTOP a) = true) → e.2 = 0 := by
  refine ⟨_, rfl, fun e he hstop => ?_⟩
  obtain he | he := Tab.mem_foldl_put he
  · obtain ⟨a, ha, he⟩ := List.mem_flatMap.mp he
    obtain ⟨j, hj, rfl⟩ := List.mem_map.mp he
    refine if_pos ?_
    obtain hstate | hall := hstop
    · simp [hstate]
    · simp [hall a ha (List.mem_map_of_mem hj)]
  · exact absurd he List.not_mem_nil

/-! ### Stops of every enabled arm (R243, R269) -/

/-- A stop of an arm whose cap falls to 0. -/
def Dev.haltArm (c a : Nat) (d : Dev) : Dev := (d.armStop a c).w (Reg.ARM_CAP a) 0

theorem Dev.stopAll_eq (d : Dev) (g : Grade) (c : Nat) :
    d.stopAll g c = ((d.each (d.armsOn g) (Dev.haltArm c)).showPstop g).handCaps g := rfl

theorem armCap_addr_ne_armStat (a b : Nat) : (Reg.ARM_CAP a).addr ≠ 0x50_0100 + 0x20 * b := by
  simp only [Reg.ARM_CAP]
  omega

theorem armCap_lo (a : Nat) : (Reg.ARM_CAP a).lo < 32 := by simp [Reg.ARM_CAP]

theorem Dev.haltArm_sound {d : Dev} (h : d.Sound) (c a : Nat) : (d.haltArm c a).Sound := (d.armStop_sound a c h).w _ _

theorem Dev.haltArm_halts {d : Dev} (h : d.Sound) (c a : Nat) :
    (d.haltArm c a).ArmStopped a c ∧ (d.haltArm c a).r (Reg.ARM_CAP a) = 0 :=
  ⟨(Dev.armStopped_armStop h a c).w (armCap_addr_ne_armStat a a) (armCap_lo a) 0,
    Dev.r_w_same (d.armStop_sound a c h).regs _ 0⟩

theorem Dev.haltArm_keeps_other {d : Dev} {a b c : Nat} (hab : a ≠ b) (h : d.ArmStopped a c ∧ d.r (Reg.ARM_CAP a) = 0) :
    (d.haltArm c b).ArmStopped a c ∧ (d.haltArm c b).r (Reg.ARM_CAP a) = 0 := by
  obtain ⟨hstop, hcap⟩ := h
  have hkey : (Reg.ARM_CAP a).key ≠ (Reg.ARM_CAP b).key := by
    simp only [Field.key, Reg.ARM_CAP]
    omega
  refine ⟨(hstop.armStop_other hab c).w (armCap_addr_ne_armStat b a) (armCap_lo b) 0, ?_⟩
  rw [Dev.haltArm, Dev.r_w_other _ hkey, Dev.r_armStop_other d (armCap_addr_ne_armStat a b) (armCap_lo a), hcap]

@[simp] theorem Dev.stopAll_mem (d : Dev) (g : Grade) (c : Nat) : (d.stopAll g c).mem = d.mem :=
  Dev.each_keeps (P := fun e => e.mem = d.mem) rfl fun _ _ _ he => he

@[simp] theorem Dev.stopAll_busy (d : Dev) (g : Grade) (c : Nat) : (d.stopAll g c).pdk.busy = d.pdk.busy :=
  Dev.each_keeps (P := fun e => e.pdk.busy = d.pdk.busy) rfl fun _ _ _ he => he

/-- The fields of PDK_STAT are not among those that a stop of every arm writes. -/
theorem Dev.r_stopAll_stat (d : Dev) {f : Field} (h : f.addr = 0x50_0000) (hf : f.lo < 32) (g : Grade) (c : Nat) :
    (d.stopAll g c).r f = d.r f := by
  rw [Dev.stopAll_eq, Dev.handCaps_r, Dev.r_showPstop_other _ (by omega) hf]
  refine Dev.each_keeps (P := fun e => e.r f = d.r f) rfl fun a _ e he => ?_
  have hcap : f.key ≠ (Reg.ARM_CAP a).key :=
    Field.key_ne_of_addr_ne (by simp only [h, Reg.ARM_CAP]; omega) hf (armCap_lo a)
  rw [Dev.haltArm, Dev.r_w_other _ hcap, Dev.r_armStop_other e (by omega) hf, he]

theorem Dev.stopAll_halts {d : Dev} (h : d.Sound) (g : Grade) (c : Nat) :
    ∀ a ∈ d.armsOn g, (d.stopAll g c).ArmStopped a c ∧ (d.stopAll g c).r (Reg.ARM_CAP a) = 0 := by
  intro a ha
  obtain ⟨hstop, hcap⟩ := Dev.each_gives (I := Dev.Sound) (P := fun a e => e.ArmStopped a c ∧ e.r (Reg.ARM_CAP a) = 0)
    h (fun a _ he => Dev.haltArm_sound he c a) (fun a _ he => Dev.haltArm_halts he c a)
    (fun _ _ _ hab he => Dev.haltArm_keeps_other hab he) a ha
  have hpstop : (Reg.ARM_CAP a).addr ≠ 0x50_0018 := by
    simp only [Reg.ARM_CAP]
    omega
  rw [Dev.stopAll_eq]
  exact ⟨hstop.handOver g, (Dev.r_showPstop_other _ hpstop (armCap_lo a) g).trans hcap⟩

theorem Dev.pdkSelftest_shows {d : Dev} (h : d.Sound) (g : Grade) :
    (d.pdkSelftest g).r Reg.PDK_STAT_STATE = 1 ∧ (d.pdkSelftest g).pdk.busy = false ∧ (d.pdkSelftest g).mem = d.mem ∧
      ∀ a ∈ d.armsOn g, (d.pdkSelftest g).ArmStopped a 0 ∧ (d.pdkSelftest g).r (Reg.ARM_CAP a) = 0 := by
  have hfresh : ∀ x : PdkState, ({ d with pdk := x } : Dev).Sound := fun _ => h.upd rfl
  exact ⟨(Dev.r_stopAll_stat _ rfl (by decide) g 0).trans (Dev.r_w_same (hfresh _).regs _ 1), Dev.stopAll_busy _ g 0,
    Dev.stopAll_mem _ g 0, Dev.stopAll_halts ((hfresh _).w _ _) g 0⟩

end Sys2Proof.Machine

/-! ## Proofs: commands of the Paddock monitor -/
namespace Sys2Proof.Machine

/-! ### Commands that read the last cycle (R270) -/

/-- A packet of a command that its grade has fitted, with a reply that the source can take, runs the command's body. -/
theorem ok_runPacket_fitted_reply_of_ready {s : State} {p : Packet} {op n : Nat} {priv : Bool} {len : List Nat → Nat}
    {fitted : Grade → List Nat → Bool} {body : Dev → List Nat → Dev × Res} {d : Dev} {res : Res} (h : s.dev.Ready p op n priv)
    (hfit : fitted s.grade (p.params.map BitVec.toNat) = true)
    (hlen : len (p.params.map BitVec.toNat) ≤ replyLimit p.origin)
    (hbody : body (s.dev.taken p op) (p.params.map BitVec.toNat) = (d, res)) :
    ok s (fun g d => d.runPacket g { opcode := op, priv := priv, fitted := fitted, need := needN n, replyLen := len } p body) =
      replied s p op d res := by
  have hneed : needN n (p.params.map BitVec.toNat) = none := needN_eq_none (by rw [List.length_map, h.length])
  rw [ok_eq, Dev.runPacket_ready h rfl rfl hfit hneed hlen, hbody]
  rfl

theorem intrudersOf_le (g : Grade) : intrudersOf g ≤ 64 := by cases g <;> decide

@[simp] theorem Dev.taken_pdkCycleWords (d : Dev) (p : Packet) (op : Nat) :
    (d.taken p op).pdkCycleWords = d.pdkCycleWords := by
  simp [Dev.pdkCycleWords]

theorem exec_pdkInfo_ready {s : State} {p : Packet} (h : s.dev.Ready p 0x500 0 false) :
    exec (.pdkInfo p) s = replied s p 0x500 (s.dev.taken p 0x500)
      (.ok ([0x50_0000, 0x50_0004, 0x50_0008, 0x50_000C, 0x50_0018, 0x50_001C].map s.dev.regWord ++
        s.dev.pdkCycleWords)) := by
  show execPdkInfo p s = _
  exact ok_runPacket_short_of_ready h (by simp)

theorem exec_pdkArmRead_ready {s : State} {p : Packet} (h : s.dev.Ready p 0x501 1 false) (ha : p.arg 0 < armsOf s.grade) :
    exec (.pdkArmRead p) s = replied s p 0x501 (s.dev.taken p 0x501)
      (.ok ([0, 4, 8, 12, 16].map (fun o => s.dev.regWord (0x50_0100 + 0x20 * p.arg 0 + o)) ++ s.dev.pdkCycleWords)) := by
  have hlt : ¬ 16 ≤ p.arg 0 := Nat.not_le.mpr (Nat.lt_of_lt_of_le ha (armsOf_le s.grade))
  show execPdkArmRead p s = _
  refine ok_runPacket_fitted_reply_of_ready h ?_ (le_replyLimit (n := 10) (by omega) p.origin) ((if_neg hlt).trans ?_)
  · exact Bool.or_eq_true_iff.mpr (.inl (decide_eq_true ha))
  · simp [Packet.arg]

theorem exec_pdkIntrRead_ready {s : State} {p : Packet} (h : s.dev.Ready p 0x502 2 false)
    (hi : p.arg 0 < intrudersOf s.grade) (hn : 1 ≤ p.arg 1) (hend : p.arg 0 + p.arg 1 ≤ 64)
    (hlen : 5 + 8 * p.arg 1 ≤ replyLimit p.origin) :
    exec (.pdkIntrRead p) s = replied s p 0x502 (s.dev.taken p 0x502)
      (.ok (s.dev.pdkCycleWords ++ Mem.words s.dev.mem (0x52_0000 + 0x20 * p.arg 0) (8 * p.arg 1))) := by
  have hrange : rangeBad (p.arg 0) (p.arg 1) 64 64 = none :=
    rangeBad_of_inside (Nat.lt_of_lt_of_le hi (intrudersOf_le s.grade)) hn (by omega) hend
  show execPdkIntrRead p s = _
  refine ok_runPacket_fitted_reply_of_ready h ?_ hlen ?_
  · exact Bool.or_eq_true_iff.mpr (.inl (decide_eq_true hi))
  · unfold Packet.arg at hrange ⊢
    rw [hrange, Dev.taken_pdkCycleWords, Dev.taken_mem]

theorem exec_pdkPaddockRead_ready {s : State} {p : Packet} (h : s.dev.Ready p 0x503 1 false) (hk : p.arg 0 < 32) :
    exec (.pdkPaddockRead p) s = replied s p 0x503 (s.dev.taken p 0x503)
      (.ok (s.dev.regWord (0x50_0400 + 4 * p.arg 0) :: s.dev.pdkCycleWords)) := by
  show execPdkPaddockRead p s = _
  refine ok_runPacket_of_ready h (le_replyLimit (n := 6) (by omega) p.origin) ((if_neg (Nat.not_le.mpr hk)).trans ?_)
  simp [Packet.arg]

/-! ### Requests for release (R264) -/

@[simp] theorem Dev.taken_armsOn (d : Dev) (p : Packet) (op : Nat) (g : Grade) : (d.taken p op).armsOn g = d.armsOn g := by
  simp [Dev.armsOn, Dev.armWord]

/-- An arm that PDK_RELEASE refuses: it is not enabled, or a cause that it has latched is still present. -/
def Dev.releaseBad (d : Dev) (g : Grade) (a : Nat) : Bool :=
  !(d.armsOn g).contains a || decide (d.r (Reg.ARM_STAT_CAUSE a) &&& Tab.look 0 a d.pdk.present ≠ 0)

/-- A request for the release of an arm, which cycle `n` judges. -/
def Dev.requestRelease (n a : Nat) (d : Dev) : Dev :=
  ({ d with pdk := { d.pdk with relCycle := Tab.put a n d.pdk.relCycle } }).w (Reg.ARM_STAT_REL_PENDING a) 1

@[simp] theorem Dev.taken_releaseBad (d : Dev) (p : Packet) (op : Nat) (g : Grade) :
    (d.taken p op).releaseBad g = d.releaseBad g := by
  funext a
  simp [Dev.releaseBad]

theorem Dev.pdkRelease_outside_run {d : Dev} (h : d.r Reg.PDK_STAT_STATE ≠ 2) (g : Grade) (mask : Nat) :
    d.pdkRelease g mask = (d, .busy) := if_pos h

theorem Dev.pdkRelease_in_run {d : Dev} (h : d.r Reg.PDK_STAT_STATE = 2) (g : Grade) (mask : Nat) :
    d.pdkRelease g mask =
      let next := d.pdk.cycle.getD 0 + 1
      let named := (List.range 16).filter (bitOf mask)
      (d.each (named.filter (fun a => !d.releaseBad g a && d.b (Reg.ARM_STAT_PSTOP a))) (Dev.requestRelease next),
        .ok [(named.filter (d.releaseBad g)).foldl (fun m a => setBit m a true) 0, loW next, hiW next]) :=
  if_neg (not_not_intro h)

theorem exec_pdkRelease_ready {s : State} {p : Packet} (h : s.dev.Ready p 0x504 1 true)
    (hfit : p.arg 0 % 2 ^ 16 < 2 ^ armsOf s.grade) :
    exec (.pdkRelease p) s = replied s p 0x504 ((s.dev.taken p 0x504).pdkRelease s.grade (p.arg 0)).1
      ((s.dev.taken p 0x504).pdkRelease s.grade (p.arg 0)).2 := by
  show execPdkRelease p s = _
  rw [execPdkRelease, ok_eq]
  exact ok_runPacket_fitted_reply_of_ready (body := fun d ps => d.pdkRelease s.grade (ps.getD 0 0)) h
    (decide_eq_true hfit) (le_replyLimit (n := 6) (by omega) p.origin) rfl

/-! ### The restart after a fault (R243, R271) -/

theorem exec_pdkRestart_busy {s : State} {p : Packet} (h : s.dev.Ready p 0x505 0 true)
    (hst : s.dev.r Reg.PDK_STAT_STATE ≠ 3) :
    exec (.pdkRestart p) s = replied s p 0x505 (s.dev.taken p 0x505) .busy := by
  show execPdkRestart p s = _
  exact ok_runPacket_graded_of_ready h (if_pos (by rwa [Dev.taken_r]))

theorem exec_pdkRestart_ready {s : State} {p : Packet} (h : s.dev.Ready p 0x505 0 true)
    (hst : s.dev.r Reg.PDK_STAT_STATE = 3) :
    exec (.pdkRestart p) s = replied s p 0x505 ((s.dev.taken p 0x505).pdkSelftest s.grade) (.ok []) := by
  show execPdkRestart p s = _
  exact ok_runPacket_graded_of_ready h (if_neg (by rwa [Dev.taken_r, not_not]))

/-- Settles O37: reads by the registers of the last cycle, release and restart by their laws on the device without the packet's
words. -/
theorem paddockCommands : Obligations.PaddockCommands := by
  unfold Obligations.PaddockCommands
  intro s p
  refine ⟨exec_pdkInfo_ready, exec_pdkArmRead_ready, exec_pdkIntrRead_ready, exec_pdkPaddockRead_ready,
    fun h hfit => ⟨fun hst => ?_, fun hst => ?_⟩, fun h => ⟨exec_pdkRestart_busy h, fun hst hs => ?_⟩⟩
  · rw [exec_pdkRelease_ready h hfit, Dev.pdkRelease_outside_run (by rwa [Dev.taken_r])]
  · rw [exec_pdkRelease_ready h hfit, Dev.pdkRelease_in_run (by rwa [Dev.taken_r])]
    simp only [Dev.taken_releaseBad, Dev.taken_pdk, Dev.taken_b]
    rfl
  · obtain ⟨hstate, hbusy, hmem, harms⟩ := Dev.pdkSelftest_shows (hs.taken p 0x505) s.grade
    refine ⟨_, exec_pdkRestart_ready h hst, hstate, hbusy, hmem.trans (s.dev.taken_mem p 0x505), fun a ha => ?_⟩
    rw [Dev.taken_armsOn] at harms
    obtain ⟨hstop, hcap⟩ := harms a ha
    exact ⟨hstop.pstop, hcap⟩

end Sys2Proof.Machine

/-! ## Proofs: cycles and ends of a computation of the Paddock monitor -/
namespace Sys2Proof.Machine

/-! ### Cycle starts (R239) -/

theorem Dev.pdkStart_of_none {d : Dev} (h : d.pdkCycleAt (d.r Reg.EPK_NOW) = none ∨ d.r Reg.PDK_STAT_STATE = 0) :
    d.pdkStart = d := by
  unfold Dev.pdkStart
  dsimp only
  split
  · rfl
  · next c hc =>
    obtain hnone | hoff := h
    · rw [hnone] at hc
      exact absurd hc (Option.some_ne_none c).symm
    · exact if_pos (.inl hoff)

/-- A cycle that starts latches the newest reports; the ages of the sensors are counted in registers. -/
theorem Dev.pdkStart_of_some {d : Dev} {c : Nat} (hc : d.pdkCycleAt (d.r Reg.EPK_NOW) = some c)
    (hon : d.r Reg.PDK_STAT_STATE ≠ 0) (hp : d.ep.placed = true) (hs : d.enginesStill = false) (hnew : d.pdk.cycle ≠ some c) :
    d.pdkStart.pdk = { d.pdk with cycle := some c, epoch := d.r Reg.EPK_NOW, late := false, busy := true,
                                  reports := d.brd.reports, pos := [], taken := false, src2Now := [] } ∧
      d.pdkStart.mem = d.mem := by
  unfold Dev.pdkStart
  dsimp only
  rw [hc]
  dsimp only
  rw [if_neg (by simp [hon, hp, hs, hnew])]
  exact Dev.each_keeps (P := fun e => e.pdk = _ ∧ e.mem = d.mem) ⟨rfl, rfl⟩ fun _ _ _ he => he

/-! ### Stale sensors (R249) -/

theorem Dev.sensorStale_of_fresh {d : Dev} {n : Nat}
    (h : bitOf (d.sensWord n 0) 0 = false ∨ d.r (Reg.PDK_SENS_STAT_AGE n) < bits (d.sensWord n 0) 17 8) (g : Grade) :
    d.sensorStale g n = d := by
  refine if_pos ?_
  obtain hoff | hage := h
  · exact .inl (by simp [hoff])
  · exact .inr (.inl hage)

theorem Dev.sensorStale_of_stale {d : Dev} {n : Nat} (hon : bitOf (d.sensWord n 0) 0 = true)
    (hage : bits (d.sensWord n 0) 17 8 ≤ d.r (Reg.PDK_SENS_STAT_AGE n)) (hst : d.r Reg.PDK_STAT_STATE ≠ 0) (g : Grade) :
    d.sensorStale g n =
      let e := d.showStale.stopArms ((d.showStale.armsOn g).filter
        (fun a => bitOf (bits (d.showStale.sensWord n 0) 1 16) a)) 0x20
      (e.showPstop g).handCaps g :=
  if_neg (by simp [hon, hst, Nat.not_lt.mpr hage])

@[simp] theorem Dev.showStale_mem (d : Dev) : d.showStale.mem = d.mem :=
  Dev.each_keeps (P := fun e => e.mem = d.mem) rfl fun _ _ _ he => he

/-- Each enabled sensor shows whether its age has reached its AGE_MAX. -/
theorem Dev.stale_showStale {d : Dev} (h : d.Sound) {n : Nat} (hn : n < 16) (hon : bitOf (d.sensWord n 0) 0 = true) :
    d.showStale.b (Reg.PDK_SENS_STAT_STALE n) =
      decide (bits (d.sensWord n 0) 17 8 ≤ d.r (Reg.PDK_SENS_STAT_AGE n)) := by
  have hage : ∀ i j, (Reg.PDK_SENS_STAT_AGE i).key ≠ (Reg.PDK_SENS_STAT_STALE j).key := fun i j => by
    simp only [Field.key, Reg.PDK_SENS_STAT_AGE, Reg.PDK_SENS_STAT_STALE]
    omega
  have hstale : ∀ i j, i ≠ j → (Reg.PDK_SENS_STAT_STALE i).key ≠ (Reg.PDK_SENS_STAT_STALE j).key := fun i j hij => by
    simp only [Field.key, Reg.PDK_SENS_STAT_STALE]
    omega
  have hsum : (Reg.PDK_SENS_STAT_STALE n).key ≠ Reg.PDK_STAT_SENS_STALE.key :=
    Field.key_ne_of_addr_ne (by simp only [Reg.PDK_SENS_STAT_STALE, Reg.PDK_STAT_SENS_STALE]; omega)
      (by simp [Reg.PDK_SENS_STAT_STALE]) (by decide)
  refine (Dev.b_w_other _ hsum _).trans ?_
  refine Dev.each_gives
    (I := fun e => e.Sound ∧ e.mem = d.mem ∧ ∀ i, e.r (Reg.PDK_SENS_STAT_AGE i) = d.r (Reg.PDK_SENS_STAT_AGE i))
    (P := fun i e => e.b (Reg.PDK_SENS_STAT_STALE i) =
      decide (bits (d.sensWord i 0) 17 8 ≤ d.r (Reg.PDK_SENS_STAT_AGE i)))
    ⟨h, rfl, fun _ => rfl⟩ (fun i e ⟨he, hmem, hages⟩ => ⟨he.w _ _, hmem, fun j => ?_⟩) (fun i e ⟨he, hmem, hages⟩ => ?_)
    (fun i j e hij he => ?_) n (List.mem_filter.mpr ⟨List.mem_range.mpr hn, hon⟩)
  · exact (Dev.r_w_other _ (hage j i) _).trans (hages j)
  · refine (Dev.b_wb_same he rfl _).trans ?_
    rw [Dev.sensWord_congr hmem, hages]
  · exact (Dev.b_w_other _ (hstale i j hij) _).trans he

/-- A stale sensor shows STALE, and its enabled arms are in protective stop with cause SENSOR, their axes among the stopped. -/
theorem Dev.sensorStale_shows {d : Dev} (h : d.Sound) (g : Grade) {n : Nat} (hn : n < 16)
    (hon : bitOf (d.sensWord n 0) 0 = true) (hage : bits (d.sensWord n 0) 17 8 ≤ d.r (Reg.PDK_SENS_STAT_AGE n))
    (hst : d.r Reg.PDK_STAT_STATE ≠ 0) :
    (d.sensorStale g n).mem = d.mem ∧ (d.sensorStale g n).b (Reg.PDK_SENS_STAT_STALE n) = true ∧
      ∀ a ∈ d.armsOn g, bitOf (bits (d.sensWord n 0) 1 16) a = true → (d.sensorStale g n).ArmStopped a 0x20 ∧
        ∀ j ∈ d.jointsOf a, d.jointAxis j ∈ (d.sensorStale g n).pdk.outStop := by
  have hshow := d.showStale_mem
  have hlo : (Reg.PDK_SENS_STAT_STALE n).lo < 32 := by simp [Reg.PDK_SENS_STAT_STALE]
  rw [Dev.sensorStale_of_stale hon hage hst, Dev.armsOn_congr hshow, Dev.sensWord_congr hshow]
  dsimp only
  generalize harms : (d.armsOn g).filter (fun a => bitOf (bits (d.sensWord n 0) 1 16) a) = arms
  have hmem : ((d.showStale.stopArms arms 0x20).showPstop g).mem = d.mem :=
    (d.showStale.stopArms_mem arms 0x20).trans hshow
  have hother : ∀ a ∈ arms, (Reg.PDK_SENS_STAT_STALE n).addr ≠ 0x50_0100 + 0x20 * a := fun a ha => by
    have hlt := Dev.lt_of_mem_armsOn (List.mem_of_mem_filter (harms ▸ ha))
    simp only [Reg.PDK_SENS_STAT_STALE]
    omega
  refine ⟨hmem, ?_, fun a ha hbit => ?_⟩
  · have hstale := (Dev.stale_showStale h hn hon).trans (decide_eq_true hage)
    have hpstop : (Reg.PDK_SENS_STAT_STALE n).addr ≠ 0x50_0018 := by
      simp only [Reg.PDK_SENS_STAT_STALE]
      omega
    rw [Dev.handCaps_b, Dev.b, Dev.r_showPstop_other _ hpstop hlo, Dev.r_stopArms_other _ hother hlo]
    exact hstale
  · have hin : a ∈ arms := harms ▸ List.mem_filter.mpr ⟨ha, hbit⟩
    have hstop := (Dev.armStopped_stopArms (Dev.showStale_sound d h) arms 0x20 a hin).handOver g
    refine ⟨hstop, fun j hj => ?_⟩
    rw [← Dev.jointAxis_congr hmem]
    exact Dev.mem_outStop_handCaps (Dev.armsOn_congr hmem g ▸ ha) hstop.pstop (Dev.jointsOf_congr hmem a ▸ hj)

/-! ### Ends of a computation (R240, R268, R269) -/

theorem Dev.pdkTake_of_idle {d : Dev} (h : d.pdk.busy = false) (g : Grade) : d.pdkTake g = d :=
  if_pos (.inr (.inl (by simp [h])))

theorem Dev.pdkTake_of_taken {d : Dev} (h : d.pdk.taken = true) (g : Grade) : d.pdkTake g = d := if_pos (.inl h)

theorem Dev.pdkDone_of_no_cycle {d : Dev} (hc : d.pdk.cycle = none) (hb : d.pdk.busy = false) (g : Grade) (ns : Nat)
    (fault : Bool) : d.pdkDone g ns fault = d := by
  unfold Dev.pdkDone
  rw [Dev.pdkTake_of_idle hb]
  dsimp only
  rw [hc]

/-- The computation of cycle `n` has ended after `t` ns: its time and its number are shown. -/
def Dev.closeCycle (d : Dev) (t n : Nat) : Dev :=
  let d := d.reach (d.countAt (d.r Reg.EPK_ORIGIN + d.pdk.epoch * d.te + 10000 + t))
  let d := ((d.w Reg.PDK_TCALC t).wmax Reg.PDK_TCALC_MAX t).w Reg.PDK_CYCLE n
  { d with pdk := { d.pdk with busy := false } }

@[simp] theorem Dev.closeCycle_mem (d : Dev) (t n : Nat) : (d.closeCycle t n).mem = d.mem := rfl

theorem Dev.closeCycle_sound {d : Dev} (h : d.Sound) (t n : Nat) : (d.closeCycle t n).Sound :=
  Dev.Sound.upd rfl (((Dev.Sound.w (Dev.reach_sound d _ h) _ _).w _ _).w _ _)

theorem Dev.r_closeCycle_stat (d : Dev) {f : Field} (h : f.addr = 0x50_0000) (hf : f.lo < 32) (t n : Nat) :
    (d.closeCycle t n).r f = d.r f := by
  have hkey : ∀ g : Field, g.addr ≠ 0x50_0000 → g.lo < 32 → f.key ≠ g.key :=
    fun g hg hlo => Field.key_ne_of_addr_ne (h ▸ hg.symm) hf hlo
  exact (Dev.r_w_other _ (hkey Reg.PDK_CYCLE (by decide) (by decide)) _).trans
    ((Dev.r_w_other _ (hkey Reg.PDK_TCALC_MAX (by decide) (by decide)) _).trans
      (Dev.r_w_other _ (hkey Reg.PDK_TCALC (by decide) (by decide)) _))

theorem Dev.tcalc_closeCycle {d : Dev} (h : d.Sound) (t n : Nat) :
    (d.closeCycle t n).r Reg.PDK_TCALC = t % 2 ^ Reg.PDK_TCALC.width :=
  (Dev.r_w_other _ (by decide) _).trans ((Dev.r_w_other _ (by decide) _).trans
    (Dev.r_w_same (Dev.reach_sound d _ h).regs Reg.PDK_TCALC t))

@[simp] theorem Dev.publish_regs (d : Dev) (base : Nat) (vals : List Nat) : (d.publish base vals).regs = d.regs := by
  unfold Dev.publish
  split <;> rfl

@[simp] theorem Dev.publish_pdk (d : Dev) (base : Nat) (vals : List Nat) : (d.publish base vals).pdk = d.pdk := by
  unfold Dev.publish
  split <;> rfl

@[simp] theorem Dev.pdkPublish_pdk (d : Dev) : d.pdkPublish.pdk = d.pdk := Dev.publish_pdk d _ _

@[simp] theorem Dev.pdkPublish_r (d : Dev) (f : Field) : d.pdkPublish.r f = d.r f :=
  congrArg (fun rs => Regs.get rs f.key f.reset) (Dev.publish_regs d _ _)

/-- A coded fault enters FAULT, and every enabled arm is in protective stop with cause CODED and cap 0. -/
theorem Dev.codedFault_shows {d : Dev} (h : d.Sound) (g : Grade) :
    (d.codedFault g).r Reg.PDK_STAT_STATE = 3 ∧ (d.codedFault g).b Reg.PDK_STAT_CODED_FAULT = true ∧
      (d.codedFault g).pdk.busy = d.pdk.busy ∧
      ∀ a ∈ d.armsOn g, (d.codedFault g).ArmStopped a 0x100 ∧ (d.codedFault g).r (Reg.ARM_CAP a) = 0 := by
  have hflag : ((d.flag Reg.PDK_STAT_CODED_FAULT).inc Reg.PDK_FAULT_CNT).Sound :=
    Dev.inc_sound _ _ (Dev.flag_sound _ _ h)
  have hstat : ∀ f : Field, f.addr = 0x50_0000 → f.lo < 32 → (d.codedFault g).r f =
      (((d.flag Reg.PDK_STAT_CODED_FAULT).inc Reg.PDK_FAULT_CNT).w Reg.PDK_STAT_STATE 3).r f :=
    fun f hf hlo => Dev.r_stopAll_stat _ hf hlo g 0x100
  refine ⟨(hstat _ rfl (by decide)).trans (Dev.r_w_same hflag.regs _ 3), ?_, Dev.stopAll_busy _ g 0x100,
    Dev.stopAll_halts (hflag.w _ _) g 0x100⟩
  rw [Dev.b, hstat _ rfl (by decide), Dev.r_w_other _ (by decide)]
  exact (Dev.b_w_other _ (by decide) _).trans (Dev.b_flag_same h rfl)

section Done
variable {d : Dev} {n : Nat} (hc : d.pdk.cycle = some n) (hb : d.pdk.busy = true) (ht : d.pdk.taken = true)
  (he : d.pdk.epoch ≠ d.r Reg.EPK_NOW)
include hc hb ht he

theorem Dev.pdkDone_of_fault (g : Grade) (ns : Nat) :
    d.pdkDone g ns true = ((d.closeCycle (min ns (d.tcalcMax g)) n).codedFault g).pdkPublish := by
  unfold Dev.pdkDone
  rw [Dev.pdkTake_of_taken ht]
  dsimp only
  rw [hc]
  dsimp only
  rw [if_neg (by simp [hb, ht, he])]
  rfl

/-- The monitor's state once a SELFTEST cycle has ended; with the exchange with the partner, `sig` is its signature (R461). -/
theorem Dev.pdkDone_in_selftest (hst : d.r Reg.PDK_STAT_STATE = 1) (g : Grade) (ns : Nat) :
    ∃ sig, d.pdkDone g ns false =
      let e := d.closeCycle (min ns (d.tcalcMax g)) n
      ({ e with pdk := { e.pdk with selfCycles := d.pdk.selfCycles + 1, sig := sig } } : Dev).pdkPublish := by
  have hclosed : (d.closeCycle (min ns (d.tcalcMax g)) n).r Reg.PDK_STAT_STATE = 1 :=
    (d.r_closeCycle_stat rfl (by decide) _ n).trans hst
  unfold Dev.closeCycle at hclosed ⊢
  unfold Dev.pdkDone
  rw [Dev.pdkTake_of_taken ht]
  dsimp only at hclosed ⊢
  rw [hc]
  dsimp only
  rw [if_neg (by simp [hb, ht, he]), hclosed]
  simp only [Bool.false_eq_true, if_false, Bool.not_false, true_or, true_and, OfNat.one_ne_ofNat, if_true]
  split
  · exact ⟨_, rfl⟩
  · exact ⟨_, rfl⟩

/-- A computation that ends with a fault enters FAULT and stops every enabled arm, with cause CODED and cap 0. -/
theorem Dev.pdkDone_fault_shows (h : d.Sound) (g : Grade) (ns : Nat) :
    (d.pdkDone g ns true).r Reg.PDK_STAT_STATE = 3 ∧ (d.pdkDone g ns true).b Reg.PDK_STAT_CODED_FAULT = true ∧
      (d.pdkDone g ns true).pdk.busy = false ∧
      ∀ a ∈ d.armsOn g, (d.pdkDone g ns true).ArmStopped a 0x100 ∧ (d.pdkDone g ns true).r (Reg.ARM_CAP a) = 0 := by
  obtain ⟨hstate, hflag, hbusy, harms⟩ := Dev.codedFault_shows (Dev.closeCycle_sound h (min ns (d.tcalcMax g)) n) g
  rw [Dev.pdkDone_of_fault hc hb ht he, Dev.pdkPublish_pdk, Dev.b, Dev.pdkPublish_r, Dev.pdkPublish_r]
  refine ⟨hstate, hflag, hbusy, fun a ha => ?_⟩
  obtain ⟨hstop, hcap⟩ := harms a ha
  exact ⟨hstop.congr fun f _ _ => Dev.pdkPublish_r _ f, (Dev.pdkPublish_r _ _).trans hcap⟩

/-- A computation that ends in SELFTEST without a fault counts a cycle. -/
theorem Dev.pdkDone_selftest_shows (h : d.Sound) (hst : d.r Reg.PDK_STAT_STATE = 1) (g : Grade) (ns : Nat) :
    (d.pdkDone g ns false).r Reg.PDK_STAT_STATE = 1 ∧
      (d.pdkDone g ns false).pdk.selfCycles = d.pdk.selfCycles + 1 ∧ (d.pdkDone g ns false).pdk.busy = false ∧
      (d.pdkDone g ns false).r Reg.PDK_TCALC = min ns (d.tcalcMax g) % 2 ^ Reg.PDK_TCALC.width := by
  obtain ⟨sig, hdone⟩ := Dev.pdkDone_in_selftest hc hb ht he hst g ns
  rw [hdone, Dev.pdkPublish_pdk, Dev.pdkPublish_r, Dev.pdkPublish_r]
  exact ⟨(d.r_closeCycle_stat rfl (by decide) _ n).trans hst, rfl, rfl, Dev.tcalc_closeCycle h _ n⟩

end Done

/-! ### Automatic releases (R263) -/

theorem Dev.pdkAuto_of_refused {d : Dev} {a : Nat}
    (h : d.r Reg.PDK_STAT_STATE ≠ 2 ∨ d.b (Reg.ARM_STAT_PSTOP a) = false ∨ bitOf (d.armWord a 0) 13 = false ∨
      d.r (Reg.ARM_STAT_CAUSE a) &&& 0x19E ≠ 0 ∨ Tab.look 0 a d.pdk.capRun < max 1 (bits (d.armWord a 8) 0 16)) (g : Grade) :
    d.pdkAuto g a = d := by
  refine if_pos (.inr ?_)
  simpa only [Bool.not_eq_true'] using h

/-- While a computation is under way the release of an arm is requested, for the cycle that it ends. -/
theorem Dev.pdkAuto_of_busy {d : Dev} {g : Grade} {a : Nat} (ha : a ∈ d.armsOn g) (hst : d.r Reg.PDK_STAT_STATE = 2)
    (hp : d.b (Reg.ARM_STAT_PSTOP a) = true) (hauto : bitOf (d.armWord a 0) 13 = true)
    (hcause : d.r (Reg.ARM_STAT_CAUSE a) &&& 0x19E = 0)
    (hdwell : max 1 (bits (d.armWord a 8) 0 16) ≤ Tab.look 0 a d.pdk.capRun) (hb : d.pdk.busy = true) :
    d.pdkAuto g a = { d.w (Reg.ARM_STAT_REL_PENDING a) 1 with pdk := { d.pdk with
      relCycle := Tab.put a (d.pdk.cycle.getD 0) d.pdk.relCycle } } := by
  unfold Dev.pdkAuto
  dsimp only
  rw [if_neg (by simp [ha, hst, hp, hauto, hcause, Nat.not_lt.mpr hdwell]), if_neg (by simp [hb])]
  rfl

/-- Settles O38: each event by the state of the monitor that it needs; stops of arms by what a stop of one arm writes. -/
theorem paddockCyclesAndStops : Obligations.PaddockCyclesAndStops := by
  unfold Obligations.PaddockCyclesAndStops
  refine ⟨fun s h => congrArg (onward s) (Dev.pdkStart_of_none h), fun s c hc hon hp hs hnew => ?_,
    fun s n => ⟨fun h => congrArg (onward s) (Dev.sensorStale_of_fresh h s.grade), fun hon hage hst hs => ?_⟩,
    fun s ns fault hc hb => congrArg (fun d : Dev => onward s d.pins) (Dev.pdkDone_of_no_cycle hc hb s.grade ns fault),
    fun s ns n hc hb ht he hs => ⟨?_, fun hst => ?_⟩, fun s => rfl, Dev.handCaps_zero,
    fun s a => ⟨fun h => congrArg (onward s) (Dev.pdkAuto_of_refused h s.grade), fun ha hst hp hauto hcause hdwell hb =>
      congrArg (onward s) (Dev.pdkAuto_of_busy ha hst hp hauto hcause hdwell hb)⟩⟩
  · obtain ⟨hpdk, hmem⟩ := Dev.pdkStart_of_some hc hon hp hs hnew
    refine ⟨_, rfl, ?_⟩
    rw [hpdk]
    exact ⟨rfl, rfl, rfl, rfl, rfl, hmem⟩
  · obtain ⟨hmem, hstale, harms⟩ := Dev.sensorStale_shows hs s.grade n.isLt hon hage hst
    refine ⟨_, rfl, hmem, hstale, fun a ha hbit => ?_⟩
    obtain ⟨hstop, haxes⟩ := harms a ha hbit
    exact ⟨hstop.pstop, hstop.cause 5 (by decide) (by decide), haxes⟩
  · obtain ⟨hstate, hflag, hbusy, harms⟩ := Dev.pdkDone_fault_shows hc hb ht he hs s.grade ns
    refine ⟨_, rfl, hstate, hflag, hbusy, fun a ha => ?_⟩
    obtain ⟨hstop, hcap⟩ := harms a ha
    exact ⟨hstop.pstop, hstop.cause 8 (by decide) (by decide), hcap⟩
  · exact ⟨_, rfl, Dev.pdkDone_selftest_shows hc hb ht he hs hst s.grade ns⟩

end Sys2Proof.Machine

/-! ## Proofs: commands of the Sage solver -/
namespace Sys2Proof.Machine

/-! ### Writes of SAGE_CTRL (R286, R303) -/

theorem exec_sageCtrlColdNext_refused {s : State} {path : Path} (ho : s.dev.pathOpen path = true)
    (hp : s.dev.pathPriv path = false) (v : Word) :
    exec (.sageCtrlColdNext path v) s = onward s (s.dev.countPath path) := by
  show execSageCtrlColdNext path v s = _
  rw [execSageCtrlColdNext, ok_eq, Dev.access_refused ho hp]
  rfl

theorem exec_sageCtrlColdNext_allowed {s : State} {path : Path} (ho : s.dev.pathOpen path = true)
    (hp : s.dev.pathPriv path = true) (hg : sageFitted s.grade = true) (v : Word) :
    exec (.sageCtrlColdNext path v) s = onward s (s.dev.sageCtrlWrite v.toNat) := by
  show execSageCtrlColdNext path v s = _
  rw [execSageCtrlColdNext, ok_eq, hg, Dev.access_allowed ho hp]
  rfl

/-! ### Packets of Sage commands (R3, R303) -/

/-- A ready packet of a command that the grade lacks answers NOT_FITTED, whatever its parameters are (R3, R533). -/
theorem Dev.runPacket_unfitted {d : Dev} {g : Grade} {spec : CmdSpec} {p : Packet} {n : Nat} {priv : Bool}
    (h : d.Ready p spec.opcode n priv) (hp : spec.priv = priv) (hpl : spec.plainOnly p.origin = false)
    (hf : spec.fitted g (p.params.map BitVec.toNat) = false) (body : Dev → List Nat → Dev × Res) :
    d.runPacket g spec p body =
      (d.taken p spec.opcode).answer p.origin spec.opcode p.tag p.quietOk .notFitted := by
  have htag : ¬ p.tag.toNat ≥ 0xFFFF_FFF0 := Nat.not_le.mpr h.tag
  have hrights : (spec.priv && !d.privileged p.origin) = false := by
    subst hp
    cases hs : spec.priv
    · rfl
    · simp [h.rights hs]
  have hpre : (d.taken p spec.opcode).precheck g spec p = some .notFitted := by
    unfold Dev.precheck
    simp [h.rsv, htag, hpl, hrights, hf]
  unfold Dev.taken at hpre
  simp only [Dev.runPacket, Dev.runPacketW, h.takes.take, h.takes.not_uncorr, h.takes.good, hpre, Bool.not_true,
    Bool.false_eq_true, if_false]
  rfl

/-- A ready packet of a Sage command runs the command's body where Sage is fitted. -/
theorem ok_runPacket_sage_of_ready {s : State} {p : Packet} {op n : Nat} {priv : Bool} {need : List Nat → Option Nat}
    {len : List Nat → Nat} {body : Dev → List Nat → Dev × Res} {d : Dev} {res : Res} (h : s.dev.Ready p op n priv)
    (hg : sageFitted s.grade = true) (hneed : need (p.params.map BitVec.toNat) = none)
    (hlen : len (p.params.map BitVec.toNat) ≤ replyLimit p.origin)
    (hbody : body (s.dev.taken p op) (p.params.map BitVec.toNat) = (d, res)) :
    ok s (fun g d => d.runPacket g { sageSpec op priv need with replyLen := len } p body) = replied s p op d res := by
  rw [ok_eq, Dev.runPacket_ready (spec := { sageSpec op priv need with replyLen := len }) h rfl rfl hg hneed hlen]
  show replied s p op (body (s.dev.taken p op) (p.params.map BitVec.toNat)).1
    (body (s.dev.taken p op) (p.params.map BitVec.toNat)).2 = _
  rw [hbody]

/-- The same for a command with `n` parameter words and a reply as short as any source can take. -/
theorem ok_runPacket_sage_short_of_ready {s : State} {p : Packet} {op n : Nat} {priv : Bool}
    {body : Dev → List Nat → Dev × Res} {d : Dev} {res : Res} (h : s.dev.Ready p op n priv)
    (hg : sageFitted s.grade = true) (hbody : body (s.dev.taken p op) (p.params.map BitVec.toNat) = (d, res)) :
    ok s (fun g d => d.runPacket g (sageSpec op priv (needN n)) p body) = replied s p op d res :=
  ok_runPacket_sage_of_ready h hg (needN_eq_none (by rw [List.length_map, h.length]))
    (le_replyLimit (n := 3) (by omega) p.origin) hbody

/-! ### SAGE_INFO, SAGE_READ and SAGE_COLD (R286, R303, R304) -/

theorem exec_sageInfo_unfitted {s : State} {p : Packet} (h : s.dev.Ready p 0x600 0 false) (hg : sageFitted s.grade = false) :
    exec (.sageInfo p) s = replied s p 0x600 (s.dev.taken p 0x600) .notFitted := by
  show execSageInfo p s = _
  rw [execSageInfo, ok_eq, Dev.runPacket_unfitted (spec := sageSpec 0x600 false (needN 0)) h rfl rfl hg]
  rfl

theorem exec_sageInfo_ready {s : State} {p : Packet} (h : s.dev.Ready p 0x600 0 false) (hg : sageFitted s.grade = true) :
    exec (.sageInfo p) s = replied s p 0x600 (s.dev.taken p 0x600)
      (.ok ([0x60_0004, 0x60_0048, 0x60_004C, 0x60_0050, 0x60_005C, 0x60_0060, 0x60_0064, 0x60_0070, 0x60_0074].map
        s.dev.regWord)) := by
  show execSageInfo p s = _
  exact ok_runPacket_sage_short_of_ready h hg (by simp)

theorem exec_sageRead_ready {s : State} {p : Packet} {r : SageResult} (h : s.dev.Ready p 0x604 2 false)
    (hg : sageFitted s.grade = true) (hlen : 6 + 2 * p.arg 1 ≤ replyLimit p.origin) (hr : s.dev.sage.result = some r)
    (hrange : rangeBad (p.arg 0) (p.arg 1) 400 r.x.length = none) :
    exec (.sageRead p) s = replied s p 0x604 (s.dev.taken p 0x604)
      (.ok ([s.dev.regWord 0x60_004C, s.dev.regWord 0x60_0050, s.dev.regWord 0x60_0048] ++
        ((r.x.drop (p.arg 0)).take (p.arg 1)).flatMap (fun v => [loW v, hiW v]))) := by
  show execSageRead p s = _
  refine ok_runPacket_sage_of_ready h hg (needN_eq_none (by rw [List.length_map, h.length])) hlen ?_
  unfold Packet.arg at hrange ⊢
  simp only [Dev.taken_sage, hr, Option.map_some, Option.getD_some, hrange, List.map_cons, List.map_nil, Dev.taken_regWord]

theorem exec_sageCold_ready {s : State} {p : Packet} (h : s.dev.Ready p 0x605 0 true) (hg : sageFitted s.grade = true) :
    exec (.sageCold p) s = replied s p 0x605 ((s.dev.taken p 0x605).w Reg.SAGE_CTRL_COLD_NEXT 1) (.ok []) := by
  show execSageCold p s = _
  exact ok_runPacket_sage_short_of_ready h hg rfl

/-! ### SAGE_STRUCT_LOAD and SAGE_STRUCT_COMMIT (R280, R282, R304) -/

theorem exec_sageStructLoad_ready {s : State} {p : Packet} (h : s.dev.Ready p 0x601 2 true) (hg : sageFitted s.grade = true) :
    exec (.sageStructLoad p) s = replied s p 0x601 ((s.dev.taken p 0x601).structLoad (p.arg 0) (p.arg 1)).1
      ((s.dev.taken p 0x601).structLoad (p.arg 0) (p.arg 1)).2 := by
  show execSageStructLoad p s = _
  exact ok_runPacket_sage_short_of_ready h hg rfl

theorem Dev.structLoad_busy {d : Dev}
    (h : d.r Reg.SAGE_STAGED_STAT_STATE = 1 ∨ d.b Reg.SAGE_STAGED_STAT_COMMIT_PENDING = true) (off len : Nat) :
    d.structLoad off len = (d, .busy) := if_pos h

/-- The device with the image `ws` of structure `id` staged and its analysis under way (R280). -/
def Dev.imageStaged (d : Dev) (ws : List Nat) (id : Nat) : Dev :=
  (((({ d with sage := { d.sage with stagedWords := ws, staged := none } }).w Reg.SAGE_STAGED_ID id).w
    Reg.SAGE_STAGED_STAT_STATE 1).w Reg.SAGE_STAGED_STAT_REASON 0).w Reg.SAGE_STAT_ANALYSING 1

/-- An image that lies in the shared memory outside Sage's own partition and has a good header with a new ID is staged. -/
theorem Dev.structLoad_of_good {d : Dev} {off len : Nat} (hst : d.r Reg.SAGE_STAGED_STAT_STATE ≠ 1)
    (hpend : d.b Reg.SAGE_STAGED_STAT_COMMIT_PENDING = false) (halign : off % 4 = 0) (hoff : off < 0xC0_0000)
    (hend : off + 4 * len ≤ 0xC0_0000)
    (hpart : off + 4 * len ≤ d.r Reg.SAGE_SWM_BASE * 2 ^ 16 ∨
      d.r Reg.SAGE_SWM_BASE * 2 ^ 16 + d.r Reg.SAGE_SWM_SIZE * 2 ^ 16 ≤ off)
    (hhead : headerOk (Mem.words d.hk.swm off len) len = true) (hid : (Mem.words d.hk.swm off len).getD 1 0 ≠ 0)
    (hnew : (Mem.words d.hk.swm off len).getD 1 0 ≠ d.r Reg.SAGE_ACTIVE_ID) :
    d.structLoad off len = (d.imageStaged (Mem.words d.hk.swm off len) ((Mem.words d.hk.swm off len).getD 1 0),
      .ok [(Mem.words d.hk.swm off len).getD 1 0]) := by
  have hbad : ¬ ((!headerOk (Mem.words d.hk.swm off len) len) = true ∨ (Mem.words d.hk.swm off len).getD 1 0 = 0 ∨
      (Mem.words d.hk.swm off len).getD 1 0 = d.r Reg.SAGE_ACTIVE_ID) := by
    rw [hhead]
    exact fun hbad => hbad.elim Bool.noConfusion fun hbad => hbad.elim hid hnew
  unfold Dev.structLoad
  dsimp only
  rw [if_neg (by simp [hst, hpend]), if_neg (by omega), if_neg (by omega), if_neg (by omega), if_neg hbad]
  rfl

@[simp] theorem Dev.taken_sageCycle (d : Dev) (p : Packet) (op : Nat) : (d.taken p op).sageCycle = d.sageCycle := by
  simp [Dev.sageCycle, Dev.kc]

section Commit
variable {s : State} {p : Packet} (h : s.dev.Ready p 0x602 3 true) (hg : sageFitted s.grade = true)
  (hid : p.arg 0 = s.dev.r Reg.SAGE_STAGED_ID) (hne : p.arg 0 ≠ 0)
include h hg hid hne

/-- A commit that names the staged structure is judged by its cycle, then by a commit that is pending. -/
theorem exec_sageStructCommit_staged {d : Dev} {res : Res}
    (hbody : (if pair64 (p.arg 1) (p.arg 2) ≤ s.dev.sageCycle then (s.dev.taken p 0x602, Res.past)
      else if s.dev.b Reg.SAGE_STAGED_STAT_COMMIT_PENDING = true then (s.dev.taken p 0x602, Res.busy)
      else (((s.dev.taken p 0x602).w Reg.SAGE_COMMIT_CYCLE (pair64 (p.arg 1) (p.arg 2))).flag
        Reg.SAGE_STAGED_STAT_COMMIT_PENDING, Res.ok [])) = (d, res)) :
    exec (.sageStructCommit p) s = replied s p 0x602 d res := by
  have hgood : ¬ (s.dev.r Reg.SAGE_STAGED_ID = 0 ∨ p.arg 0 ≠ s.dev.r Reg.SAGE_STAGED_ID) := by
    rw [← hid]
    exact fun hbad => hbad.elim hne fun hbad => hbad rfl
  show execSageStructCommit p s = _
  refine ok_runPacket_sage_short_of_ready h hg ?_
  simp only [Dev.taken_r, Dev.taken_b, Dev.taken_sageCycle]
  exact (if_neg hgood).trans hbody

theorem exec_sageStructCommit_past (hc : pair64 (p.arg 1) (p.arg 2) ≤ s.dev.sageCycle) :
    exec (.sageStructCommit p) s = replied s p 0x602 (s.dev.taken p 0x602) .past :=
  exec_sageStructCommit_staged h hg hid hne (if_pos hc)

theorem exec_sageStructCommit_ready (hc : s.dev.sageCycle < pair64 (p.arg 1) (p.arg 2))
    (hpend : s.dev.b Reg.SAGE_STAGED_STAT_COMMIT_PENDING = false) :
    exec (.sageStructCommit p) s = replied s p 0x602 (((s.dev.taken p 0x602).w Reg.SAGE_COMMIT_CYCLE
      (pair64 (p.arg 1) (p.arg 2))).w Reg.SAGE_STAGED_STAT_COMMIT_PENDING 1) (.ok []) :=
  exec_sageStructCommit_staged h hg hid hne ((if_neg (Nat.not_le.mpr hc)).trans (if_neg (by simp [hpend])))

end Commit

/-! ### SAGE_DELTA (R283, R304) -/

theorem needCount_eq_none {n k : Nat} {ps : List Nat} (hn : n ≤ ps.length)
    (h : ps.length = n + k * ps.getD (n - 1) 0) : needCount n k ps = none := by
  unfold needCount
  rw [if_neg (Nat.not_lt.mpr hn)]
  exact if_pos h

/-- The entry that three words from word `i` of a list on stand for. -/
def deltaAt (id : Nat) (ws : List Nat) (i : Nat) : SageDelta :=
  ⟨id, ws.getD i 0 % 2 ^ 18, pair64 (ws.getD (i + 1) 0) (ws.getD (i + 2) 0)⟩

/-- `n` entries stand in `3 * n` words. -/
theorem deltaEntries_eq (id : Nat) {n : Nat} {ws : List Nat} (h : ws.length = 3 * n) :
    deltaEntries id ws = (List.range n).map (fun i => deltaAt id ws (3 * i)) := by
  induction n generalizing ws with
  | zero => rw [List.length_eq_zero_iff.mp h]; rfl
  | succ n ih =>
    match ws, h with
    | i :: lo :: hi :: r, h =>
      have hr : r.length = 3 * n := by simp only [List.length_cons] at h; omega
      rw [deltaEntries, ih hr, List.range_succ_eq_map, List.map_cons, List.map_map]
      exact congrArg _ (List.map_congr_left fun _ _ => rfl)

/-- The device with the entries `es` behind those that wait (R283). -/
def Dev.deltasQueued (d : Dev) (es : List SageDelta) : Dev :=
  ({ d with sage := { d.sage with deltas := d.sage.deltas ++ es } }).w Reg.SAGE_DELTA_PEND
    (d.sage.deltas.length + es.length)

/-- Entries of the active structure that are all in range and finite join the queue when they fit, and are refused whole when they
do not. -/
theorem Dev.postDeltas_of_good {d : Dev} {t : SageStruct} {es : List SageDelta} (ht : d.sage.active = some t)
    (hes : ∀ e ∈ es, e.idx < t.nval ∧ fin64 e.val = true) :
    d.postDeltas t.id es =
      if 16384 < d.sage.deltas.length + es.length then
        ((d.w Reg.SAGE_STAT_DELTA_OVF 1).inc Reg.SAGE_DELTA_OVF_CNT, .busy)
      else (d.deltasQueued es, .ok [(d.deltasQueued es).r Reg.SAGE_DELTA_PEND]) := by
  have hgood : ∀ e ∈ es.zipIdx, Option.map (fun k => 4 + 3 * e.2 + k)
      (if t.nval ≤ e.1.idx then some 0 else if (!fin64 e.1.val) = true then some 1 else none) = none := by
    intro e he
    obtain ⟨hidx, hfin⟩ := hes e.1 (List.fst_mem_of_mem_zipIdx he)
    rw [if_neg (Nat.not_le.mpr hidx), hfin]
    rfl
  have hbad := List.findSome?_eq_none_iff.mpr hgood
  unfold Dev.postDeltas Dev.deltasQueued
  simp only [ht, if_true, Option.some_or, hbad, Option.isNone_some, Bool.false_eq_true, if_false, List.length_append]
  rfl

/-- The `n` entries of a SAGE_DELTA packet. -/
def packetDeltas (p : Packet) (n : Nat) : List SageDelta :=
  (List.range n).map (fun i =>
    SageDelta.mk (p.arg 0) (p.arg (2 + 3 * i) % 2 ^ 18) (pair64 (p.arg (3 + 3 * i)) (p.arg (4 + 3 * i))))

@[simp] theorem length_packetDeltas (p : Packet) (n : Nat) : (packetDeltas p n).length = n := by simp [packetDeltas]

theorem deltaEntries_drop_two {p : Packet} {n : Nat} (h : p.params.length = 2 + 3 * n) :
    deltaEntries (p.arg 0) ((p.params.map BitVec.toNat).drop 2) = packetDeltas p n := by
  rw [deltaEntries_eq (p.arg 0) (n := n) (by rw [List.length_drop, List.length_map, h]; omega)]
  refine List.map_congr_left fun i _ => ?_
  simp only [deltaAt, Packet.arg, List.getD_eq_getElem?_getD, List.getElem?_drop]
  simp only [show 2 + (3 * i + 1) = 3 + 3 * i by omega, show 2 + (3 * i + 2) = 4 + 3 * i by omega]

theorem exec_sageDelta_ready {s : State} {p : Packet} {n : Nat} (h : s.dev.Ready p 0x603 (2 + 3 * n) false)
    (hg : sageFitted s.grade = true) (hn : p.arg 1 = n) (h1 : 1 ≤ n) (h300 : n ≤ 300) :
    exec (.sageDelta p) s = replied s p 0x603 ((s.dev.taken p 0x603).postDeltas (p.arg 0) (packetDeltas p n)).1
      ((s.dev.taken p 0x603).postDeltas (p.arg 0) (packetDeltas p n)).2 := by
  have hlen : (p.params.map BitVec.toNat).length = 2 + 3 * n := by rw [List.length_map, h.length]
  have hcount : (p.params.map BitVec.toNat).getD 1 0 = n := hn
  show execSageDelta p s = _
  refine ok_runPacket_sage_of_ready (len := fun _ => 3) h hg (needCount_eq_none (by omega) (by rw [hcount, hlen]))
    (le_replyLimit (n := 3) (by omega) p.origin) ((if_neg (by omega)).trans ?_)
  rw [← deltaEntries_drop_two h.length]
  rfl

/-- Settles O39: each command by its law on the device without the packet's words. -/
theorem sageCommands : Obligations.SageCommands := by
  unfold Obligations.SageCommands
  refine ⟨fun s path v ho => ⟨fun hp => exec_sageCtrlColdNext_refused ho hp v, fun hp hg => ?_⟩,
    fun s p h hg => exec_sageInfo_unfitted h hg, fun s p hg => ⟨fun h => exec_sageInfo_ready h hg, fun h => ⟨fun hbusy => ?_,
      fun hst hpend halign hoff hend hpart hhead hid hnew => ?_⟩, fun h hid hne =>
      ⟨exec_sageStructCommit_past h hg hid hne, exec_sageStructCommit_ready h hg hid hne⟩,
      fun n h hn h1 h300 t ht hid hes => ?_, fun h hlen r hr hi h1 h400 hend =>
        exec_sageRead_ready h hg hlen hr (rangeBad_of_inside hi h1 h400 hend), fun h => exec_sageCold_ready h hg⟩⟩
  · exact exec_sageCtrlColdNext_allowed ho hp hg v
  · rw [exec_sageStructLoad_ready h hg, Dev.structLoad_busy (by rwa [Dev.taken_r, Dev.taken_b])]
  · rw [exec_sageStructLoad_ready h hg, Dev.structLoad_of_good (by rwa [Dev.taken_r]) (by rwa [Dev.taken_b]) halign hoff hend
      (by rwa [Dev.taken_r, Dev.taken_r]) hhead hid (by rwa [Dev.taken_r]), Dev.imageStaged, Dev.taken_sage]
  · have hpost := Dev.postDeltas_of_good (d := s.dev.taken p 0x603) (es := packetDeltas p n) (by rwa [Dev.taken_sage]) hes
    rw [hid, length_packetDeltas, Dev.taken_sage] at hpost
    refine ⟨fun hfull => ?_, fun hfit =>
      ⟨((s.dev.taken p 0x603).deltasQueued (packetDeltas p n)).r Reg.SAGE_DELTA_PEND, ?_⟩⟩
    · rw [exec_sageDelta_ready h hg hn h1 h300, hpost, if_pos hfull]
    · rw [exec_sageDelta_ready h hg hn h1 h300, hpost, if_neg (Nat.not_lt.mpr hfit), Dev.deltasQueued, length_packetDeltas,
        Dev.taken_sage]
      rfl

end Sys2Proof.Machine

/-! ## Proofs: cycles and results of the Sage solver -/
namespace Sys2Proof.Machine

/-! ### What the parts of a publication leave alone (R294, R295) -/

@[simp] theorem Dev.publish_mem (d : Dev) (base : Nat) (vals : List Nat) : (d.publish base vals).mem = d.mem := by
  unfold Dev.publish
  split <;> rfl

@[simp] theorem Dev.publish_sage (d : Dev) (base : Nat) (vals : List Nat) : (d.publish base vals).sage = d.sage := by
  unfold Dev.publish
  split <;> rfl

@[simp] theorem Dev.publish_r (d : Dev) (base : Nat) (vals : List Nat) (f : Field) : (d.publish base vals).r f = d.r f :=
  congrArg (fun rs => Regs.get rs f.key f.reset) (Dev.publish_regs d base vals)

@[simp] theorem Dev.giveKnots_mem (d : Dev) (c : Nat) (x : List Nat) (w : Nat) : (d.giveKnots c x w).mem = d.mem :=
  Dev.each_keeps (P := fun e => e.mem = d.mem) rfl fun _ _ _ he => he

@[simp] theorem Dev.giveKnots_sage (d : Dev) (c : Nat) (x : List Nat) (w : Nat) : (d.giveKnots c x w).sage = d.sage :=
  Dev.each_keeps (P := fun e => e.sage = d.sage) rfl fun _ _ _ he => he

@[simp] theorem Dev.giveKnots_r (d : Dev) (c : Nat) (x : List Nat) (w : Nat) (f : Field) :
    (d.giveKnots c x w).r f = d.r f :=
  Dev.each_keeps (P := fun e => e.r f = d.r f) rfl fun _ _ _ he => he

@[simp] theorem Dev.reach_mem (d : Dev) (c : Nat) : (d.reach c).mem = d.mem := rfl
@[simp] theorem Dev.reach_sage (d : Dev) (c : Nat) : (d.reach c).sage = d.sage := rfl

/-- A change outside the register file keeps every field. -/
theorem Dev.r_upd (d : Dev) {mem host time ep tlb cal fio loop trc prf team crd hk ost sage pair pdk brd sec boot}
    (f : Field) :
    (Dev.mk d.regs mem host time ep tlb cal fio loop trc prf team crd hk ost sage pair pdk brd sec boot).r f = d.r f := rfl

section OtherField
variable (d : Dev) {f g : Field} (h : g.key ≠ f.key)
include h

theorem Dev.r_wb_other (v : Bool) : (d.wb f v).r g = d.r g := d.r_w_other h _
theorem Dev.r_flag_other : (d.flag f).r g = d.r g := d.r_w_other h _
theorem Dev.r_inc_other : (d.inc f).r g = d.r g := d.r_w_other h _
theorem Dev.r_wmax_other (v : Nat) : (d.wmax f v).r g = d.r g := d.r_w_other h _

theorem Dev.r_flagIf_other (c : Bool) : (d.flagIf c f).r g = d.r g := by
  cases c
  · rfl
  · exact d.r_flag_other h

end OtherField

/-! ### The result of a cycle (R294, R302) -/

section Publish
variable (d : Dev) (cycle bound endNs : Nat) (warm : Bool) (iters lanes : Nat) (o : SageOut)

@[simp] theorem Dev.sagePublish_mem : (d.sagePublish cycle bound endNs warm iters lanes o).mem = d.mem := by
  unfold Dev.sagePublish
  simp only [Dev.publish_mem, Dev.giveKnots_mem, Dev.w_mem, Dev.flagIf_mem, apply_ite Dev.mem, Dev.inc_mem, Dev.flag_mem,
    ite_self, Dev.wmax_mem, Dev.wb_mem, Dev.reach_mem]

/-- A publication ends the solve and stores the one result of its cycle, of the structure that is active. -/
theorem Dev.sagePublish_sage : (d.sagePublish cycle bound endNs warm iters lanes o).sage =
    { d.sage with
      solve := none, laneReq := false, grant := 0, first := false,
      result := some ⟨o.code, cycle, (d.sage.active.map (·.id)).getD 0, o.x, o.y, o.z, o.nan⟩ } := by
  unfold Dev.sagePublish
  simp only [Dev.publish_sage, Dev.giveKnots_sage, Dev.w_sage, Dev.flagIf_sage, apply_ite Dev.sage, Dev.inc_sage,
    Dev.flag_sage, ite_self, Dev.wmax_sage, Dev.wb_sage, Dev.reach_sage]

theorem Dev.sagePublish_code {d : Dev} (h : d.Sound) :
    (d.sagePublish cycle bound endNs warm iters lanes o).r Reg.SAGE_RES_CODE = o.code % 2 ^ Reg.SAGE_RES_CODE.width := by
  unfold Dev.sagePublish
  simp (disch := decide) only [Dev.publish_r, Dev.giveKnots_r, Dev.r_w_other, Dev.r_upd, Dev.r_flagIf_other,
    apply_ite (fun e : Dev => e.r Reg.SAGE_RES_CODE), Dev.r_inc_other, Dev.r_flag_other, ite_self, Dev.r_wmax_other,
    Dev.r_wb_other]
  exact Dev.r_w_same (Dev.reach_sound d _ h).regs _ _

end Publish

/-- A result that is all NaN covers the variables and the blocks of the active structure. -/
theorem Dev.allNan_of_active {d : Dev} {t : SageStruct} (h : d.sage.active = some t) (code : Nat) :
    d.allNan code = { code := code, x := List.replicate t.n f64.nanBits, nan := t.allBlocks } := by
  unfold Dev.allNan
  rw [h]

theorem Dev.allNan_code (d : Dev) (code : Nat) : (d.allNan code).code = code := by
  unfold Dev.allNan
  split <;> rfl

theorem Dev.allNan_x (d : Dev) (code : Nat) : ∀ v ∈ (d.allNan code).x, v = f64.nanBits := by
  unfold Dev.allNan
  split
  · exact fun v hv => List.eq_of_mem_replicate hv
  · exact fun v hv => absurd hv List.not_mem_nil

/-! ### Misses and the deadline (R275, R289, R293) -/

theorem Dev.sageMiss_of_idle {d : Dev} (h : d.sage.solve = none) (endNs : Nat) : d.sageMiss endNs = d := by
  unfold Dev.sageMiss
  rw [h]

section Miss
variable {d : Dev} {q : SageSolve} {t : SageStruct} (hq : d.sage.solve = some q) (ht : d.sage.active = some t)
include hq ht

/-- A miss in the first cycle after a switch is a STRUCT_GAP. -/
theorem Dev.sageMiss_gap (hfirst : q.first = true) (endNs : Nat) :
    d.sageMiss endNs = d.sagePublish q.cycle q.bound endNs q.warm q.iters q.lanes
      { code := 6, x := List.replicate t.n f64.nanBits, nan := t.allBlocks } := by
  unfold Dev.sageMiss
  simp only [hq, ht, hfirst, if_true, Dev.allNan_of_active ht]

/-- A miss at the limit of shifts is a STALE_PLAN. -/
theorem Dev.sageMiss_stale (hfirst : q.first = false) (hmax : q.shiftMax ≤ d.r Reg.SAGE_SHIFT_RUN) (endNs : Nat) :
    d.sageMiss endNs = d.sagePublish q.cycle q.bound endNs q.warm q.iters q.lanes
      { code := 5, x := List.replicate t.n f64.nanBits, nan := t.allBlocks } := by
  unfold Dev.sageMiss
  simp only [hq, ht, hfirst, if_pos hmax, Bool.false_eq_true, if_false, Dev.allNan_of_active ht]

/-- Any other miss publishes the previous solution, shifted by a stage. -/
theorem Dev.sageMiss_shifted (hfirst : q.first = false) (hmax : d.r Reg.SAGE_SHIFT_RUN < q.shiftMax) (endNs : Nat) :
    d.sageMiss endNs = (d.incWrap Reg.SAGE_SHIFT_RUN).sagePublish q.cycle q.bound endNs q.warm q.iters q.lanes
      { code := 1, x := (d.shifted t).1, nan := (d.shifted t).2, y := (d.sage.result.map (·.y)).getD [],
        z := (d.sage.result.map (·.z)).getD [] } := by
  unfold Dev.sageMiss
  simp only [hq, ht, hfirst, if_neg (Nat.not_le.mpr hmax), Bool.false_eq_true, if_false]

/-- A miss ends the solve, whatever it publishes. -/
theorem Dev.sageMiss_shows (endNs : Nat) : ∃ r : SageResult, (d.sageMiss endNs).sage.solve = none ∧
    (d.sageMiss endNs).mem = d.mem ∧ (d.sageMiss endNs).sage.result = some r ∧ r.cycle = q.cycle ∧ r.id = t.id ∧
    (q.first = true → r.code = 6 ∧ r.nan = t.allBlocks ∧ ∀ v ∈ r.x, v = f64.nanBits) ∧
    (q.first = false → q.shiftMax ≤ d.r Reg.SAGE_SHIFT_RUN → r.code = 5 ∧ r.nan = t.allBlocks) ∧
    (q.first = false → d.r Reg.SAGE_SHIFT_RUN < q.shiftMax → r.code = 1 ∧ r.x = (d.shifted t).1 ∧
      r.nan = (d.shifted t).2) := by
  cases hfirst : q.first
  · by_cases hmax : q.shiftMax ≤ d.r Reg.SAGE_SHIFT_RUN
    · rw [Dev.sageMiss_stale hq ht hfirst hmax, Dev.sagePublish_sage, Dev.sagePublish_mem, ht]
      exact ⟨_, rfl, rfl, rfl, rfl, rfl, Bool.noConfusion, fun _ _ => ⟨rfl, rfl⟩,
        fun _ hlt => absurd hmax (Nat.not_le.mpr hlt)⟩
    · have hlt := Nat.lt_of_not_le hmax
      rw [Dev.sageMiss_shifted hq ht hfirst hlt, Dev.sagePublish_sage, Dev.sagePublish_mem, Dev.incWrap_sage, ht]
      exact ⟨_, rfl, rfl, rfl, rfl, rfl, Bool.noConfusion, fun _ hle => absurd hle hmax, fun _ _ => ⟨rfl, rfl, rfl⟩⟩
  · rw [Dev.sageMiss_gap hq ht hfirst, Dev.sagePublish_sage, Dev.sagePublish_mem, ht]
    exact ⟨_, rfl, rfl, rfl, rfl, rfl, fun _ => ⟨rfl, rfl, fun v hv => List.eq_of_mem_replicate hv⟩,
      Bool.noConfusion, Bool.noConfusion⟩

end Miss

theorem Dev.sageDeadline_of_idle {d : Dev} (h : d.sage.solve = none) : d.sageDeadline = d := by
  unfold Dev.sageDeadline
  rw [h]

theorem Dev.sageDeadline_of_solve {d : Dev} {q : SageSolve} (h : d.sage.solve = some q) :
    d.sageDeadline = d.sageMiss (d.solveDeadline q.bound) := by
  unfold Dev.sageDeadline
  rw [h]

/-! ### Iterations (R287, R288, R289, R298) -/

theorem Dev.sageIteration_of_idle {d : Dev} (h : d.sage.solve = none ∨ d.sage.grant = 0) (g : Grade) (memErr : Bool) :
    d.sageIteration g memErr = d := by
  unfold Dev.sageIteration
  split
  · next hq _ =>
    obtain hnone | hgrant := h
    · exact absurd (hq.symm.trans hnone) (Option.some_ne_none _)
    · exact if_pos hgrant
  · rfl

/-- The device on which a solve goes on at `endNs` with the iterate of `q`: Sage asks for lanes for the next iteration. -/
def Dev.solveGoesOn (d : Dev) (q : SageSolve) (endNs : Nat) : Dev :=
  let e := { d with sage := { d.sage with solve := some q } }
  ({ e.reach (e.countAt endNs) with
    ost := { e.ost with sagePower := 0 },
    sage := { e.sage with laneReq := true, reqNs := endNs, grant := 0 } } : Dev).w Reg.GIRTH_GRANT 0

/-- An iteration that ends in time with a finite iterate, which is neither infeasible nor converged and not the last one. -/
theorem Dev.sageIteration_goes_on {d : Dev} {g : Grade} {q : SageSolve} {t : SageStruct} {x y z sl dx : List Nat}
    (hq : d.sage.solve = some q) (ht : d.sage.active = some t) (hgrant : d.sage.grant ≠ 0)
    (htime : max q.ready d.sage.grantNs + t.iterNs d.sage.grant ≤ d.solveDeadline q.bound)
    (hnext : (d.sageProb g t d.sage.grant).iterate q.par (factorPattern t) q.x q.y q.z q.s = .next x y z sl dx)
    (hinf : (d.sageProb g t d.sage.grant).infeasible y z = false)
    (hbig : t.blockMask (fun v => tooBig (x.getD v 0) || tooBig (dx.getD v 0)) = 0)
    (hconv : (d.sageProb g t d.sage.grant).converged q.par ((d.sageProb g t d.sage.grant).resid x y z sl) = false)
    (hmax : q.iters + 1 < q.iterMax) :
    d.sageIteration g false = d.solveGoesOn
      { q with
        iters := q.iters + 1, lanes := d.sage.grant, ready := max q.ready d.sage.grantNs + t.iterNs d.sage.grant,
        x := x, y := y, z := z, s := sl }
      (max q.ready d.sage.grantNs + t.iterNs d.sage.grant) := by
  unfold Dev.sageIteration
  rw [hq, ht]
  dsimp only
  rw [if_neg hgrant, if_neg (Nat.not_lt.mpr htime), hnext, if_neg Bool.false_ne_true]
  dsimp only
  rw [hinf, if_neg Bool.false_ne_true, hbig, if_neg (not_not_intro rfl), hconv, if_neg Bool.false_ne_true,
    if_neg (Nat.not_le.mpr hmax)]
  rfl

/-! ### The analysis of a staged image (R280) -/

theorem Dev.sageAnalysed_of_idle {d : Dev} (h : d.r Reg.SAGE_STAGED_STAT_STATE ≠ 1) (g : Grade) : d.sageAnalysed g = d :=
  if_pos h

/-- The device on which an analysis has ended with a reason, 0 for none, and a structure. -/
def Dev.analysisEnded (d : Dev) (a : Nat × SageStruct) : Dev :=
  (((({ d with sage := { d.sage with staged := if a.1 = 0 then some a.2 else none } } : Dev).w Reg.SAGE_STAT_ANALYSING 0).w
    Reg.SAGE_STAGED_STAT_STATE (if a.1 = 0 then 2 else 3)).w Reg.SAGE_STAGED_STAT_REASON a.1)

theorem Dev.sageAnalysed_of_staged {d : Dev} (h : d.r Reg.SAGE_STAGED_STAT_STATE = 1) (g : Grade) :
    d.sageAnalysed g = d.analysisEnded (analyse d.sage.stagedWords (axesOf g) (armsOf g) (d.r Reg.SAGE_SWM_SIZE * 2 ^ 16)
      d.sage.active) :=
  if_neg (not_not_intro h)

theorem Dev.analysisEnded_state {d : Dev} (h : d.Sound) (a : Nat × SageStruct) :
    (d.analysisEnded a).r Reg.SAGE_STAGED_STAT_STATE = if a.1 = 0 then 2 else 3 := by
  have hclear : (({ d with sage := { d.sage with staged := if a.1 = 0 then some a.2 else none } } : Dev).w
      Reg.SAGE_STAT_ANALYSING 0).Sound := (h.upd rfl).w _ _
  refine (Dev.r_w_other _ (by decide) _).trans ((Dev.r_w_same hclear.regs _ _).trans ?_)
  split <;> rfl

/-! ### The latch of a cycle (R274, R282, R285, R286) -/

theorem Dev.sageLatch_of_no_cycle {d : Dev} {g : Grade}
    (h : sageFitted g = false ∨ d.r Reg.EPK_NOW % d.kc ≠ 0 ∨ d.enginesStill = true) (memErr : Bool) :
    d.sageLatch g memErr = d := by
  refine if_pos ?_
  obtain hfit | hbound | hstill := h
  · exact .inl (by simp [hfit])
  · exact .inr (.inr (.inr (.inr (.inl hbound))))
  · exact .inr (.inr (.inl hstill))

/-- The boundary of a cycle that has not been latched, with no solve left over and no commit pending. -/
structure Dev.OpensCycle (d : Dev) (g : Grade) : Prop where
  fitted : sageFitted g = true
  placed : d.ep.placed = true
  moving : d.enginesStill = false
  kc : d.kc ≠ 0
  boundary : d.r Reg.EPK_NOW % d.kc = 0
  fresh : d.sage.lastCycle ≠ some d.sageCycle
  idle : d.sage.solve = none
  noCommit : d.b Reg.SAGE_STAGED_STAT_COMMIT_PENDING = false

/-- The device that knows the present cycle as latched. -/
def Dev.cycleTaken (d : Dev) : Dev := { d with sage := { d.sage with lastCycle := some d.sageCycle } }

/-- The device on which the present cycle is latched, and which shows whether Sage runs. -/
def Dev.cycleOpened (d : Dev) : Dev := d.cycleTaken.wb Reg.SAGE_STAT_RUNNING (d.cycleTaken.b Reg.SAGE_CTRL_RUN)

theorem Dev.showRunning_cycleTaken (d : Dev) :
    d.cycleTaken.wb Reg.SAGE_STAT_RUNNING (d.cycleTaken.b Reg.SAGE_CTRL_RUN) = d.cycleOpened := rfl

@[simp] theorem Dev.cycleTaken_b (d : Dev) (f : Field) : d.cycleTaken.b f = d.b f := rfl
@[simp] theorem Dev.cycleOpened_sage (d : Dev) :
    d.cycleOpened.sage = { d.sage with lastCycle := some d.sageCycle } := rfl
theorem Dev.cycleOpened_active (d : Dev) : d.cycleOpened.sage.active = d.sage.active := rfl

theorem Dev.cycleOpened_sound {d : Dev} (h : d.Sound) : d.cycleOpened.Sound :=
  Dev.wb_sound _ _ _ (Dev.Sound.upd (d := d) rfl h)

theorem Dev.structSwitch_of_no_commit {d : Dev} (h : d.b Reg.SAGE_STAGED_STAT_COMMIT_PENDING = false) (g : Grade) (c : Nat) :
    d.structSwitch g c = d := if_pos (by simp [h])

@[simp] theorem Dev.countStale_sage (d : Dev) (n : Nat) : (d.countStale n).sage = d.sage := by
  unfold Dev.countStale
  split <;> rfl

theorem Dev.applyDeltas_active (d : Dev) : d.applyDeltas.1.sage.active = d.sage.active := by
  unfold Dev.applyDeltas
  rw [Dev.countStale_sage, Dev.w_sage]

theorem Dev.applyDeltas_sage_of_nil {d : Dev} (h : d.sage.deltas = []) : d.applyDeltas.1.sage = d.sage := by
  unfold Dev.applyDeltas
  rw [Dev.countStale_sage, Dev.w_sage, h]
  simp only [List.filter_nil, List.foldl_nil]
  rw [← h]

/-- The device with the deltas and bindings of the problem for epoch `n` and the cycle after it applied. -/
def Dev.problemLatched (d : Dev) (t : SageStruct) (n : Nat) : Dev :=
  d.applyDeltas.1.applyBindings t (n + d.applyDeltas.1.kc)

theorem Dev.problemLatched_active (d : Dev) (t : SageStruct) (n : Nat) :
    (d.problemLatched t n).sage.active = d.sage.active :=
  Dev.each_keeps (P := fun e => e.sage.active = d.sage.active) d.applyDeltas_active fun _ _ _ he => he

theorem Dev.problemLatched_sage_of_nil {d : Dev} {t : SageStruct} (hd : d.sage.deltas = []) (ht : t.binds = []) (n : Nat) :
    (d.problemLatched t n).sage = d.sage := by
  unfold Dev.problemLatched Dev.applyBindings
  rw [ht]
  exact Dev.applyDeltas_sage_of_nil hd

@[simp] theorem Dev.startPoint_sage (d : Dev) (p : SageProb) (push : Nat) : (d.startPoint p push).1.sage = d.sage := by
  unfold Dev.startPoint
  dsimp only
  split
  · rfl
  · split_ifs <;> rfl

/-- The device on which the solve `q` has begun: it asks for lanes from `start` on. -/
def Dev.solveBegun (d : Dev) (q : SageSolve) (start : Nat) : Dev :=
  (({ d with sage := { d.sage with solve := some q, laneReq := true, reqNs := start, grant := 0 } } : Dev).w
    Reg.SAGE_CTRL_COLD_NEXT 0).flag Reg.SAGE_STAT_SOLVING

@[simp] theorem Dev.solveBegun_sage (d : Dev) (q : SageSolve) (start : Nat) : (d.solveBegun q start).sage =
    { d.sage with solve := some q, laneReq := true, reqNs := start, grant := 0 } := rfl

/-- A converged solve publishes SOLVED, with no NaN block. -/
theorem Dev.sageSolved_sage {d : Dev} {q : SageSolve} (h : d.sage.solve = some q) (p : SageProb) (r : SageResid) (endNs : Nat) :
    (d.sageSolved p r endNs).sage = { d.sage with
      solve := none, laneReq := false, grant := 0, first := false,
      result := some ⟨0, q.cycle, (d.sage.active.map (·.id)).getD 0, q.x, q.y, q.z, 0⟩ } := by
  unfold Dev.sageSolved
  rw [h]
  exact Dev.sagePublish_sage _ _ _ _ _ _ _ _

section Latch
variable {d : Dev} {g : Grade} (h : d.OpensCycle g)
include h

theorem Dev.OpensCycle.guard : ¬ ((!sageFitted g) = true ∨ (!d.ep.placed) = true ∨ d.enginesStill = true ∨ d.kc = 0 ∨
    d.r Reg.EPK_NOW % d.kc ≠ 0 ∨ d.sage.lastCycle = some d.sageCycle) := by
  simp [h.fitted, h.placed, h.moving, h.kc, h.boundary, h.fresh]

theorem Dev.OpensCycle.no_switch :
    ({ d with sage := { d.sage with lastCycle := some d.sageCycle } } : Dev).structSwitch g d.sageCycle = d.cycleTaken :=
  Dev.structSwitch_of_no_commit (d := d.cycleTaken) h.noCommit g d.sageCycle

/-- With RUN = 0 the cycle publishes STOPPED at once. -/
theorem Dev.sageLatch_stopped (hrun : d.b Reg.SAGE_CTRL_RUN = false) (memErr : Bool) :
    d.sageLatch g memErr = d.cycleOpened.sagePublish d.sageCycle d.boundaryNs d.boundaryNs false 0 0
      (d.cycleOpened.allNan 7) := by
  unfold Dev.sageLatch
  dsimp only
  rw [if_neg h.guard, Dev.sageMiss_of_idle h.idle, h.no_switch, Dev.showRunning_cycleTaken, Dev.cycleTaken_b, hrun,
    if_neg Bool.false_ne_true]

section Run
variable {t : SageStruct} (hrun : d.b Reg.SAGE_CTRL_RUN = true) (ht : d.sage.active = some t)
include hrun ht

/-- An error in Sage storage publishes MEM_ERR. -/
theorem Dev.sageLatch_memErr : ∃ start : Nat, d.sageLatch g true =
    (d.cycleOpened.problemLatched t (d.r Reg.EPK_NOW)).sagePublish d.sageCycle d.boundaryNs start false 0 0
      ((d.cycleOpened.problemLatched t (d.r Reg.EPK_NOW)).allNan 8) := by
  unfold Dev.sageLatch
  dsimp only
  rw [if_neg h.guard, Dev.sageMiss_of_idle h.idle, h.no_switch, Dev.showRunning_cycleTaken, Dev.cycleTaken_b, hrun,
    if_pos rfl, Dev.cycleOpened_active, ht]
  exact ⟨_, rfl⟩

/-- Finite values begin a solve, which is SOLVED at once where its start point has converged. -/
theorem Dev.sageLatch_finite
    (hfin : ∀ v ∈ (d.cycleOpened.problemLatched t (d.r Reg.EPK_NOW)).sage.vals, fin64 v = true) :
    ∃ (e : Dev) (q : SageSolve) (start : Nat), (d.sageLatch g false = e.solveBegun q start ∨
        ∃ (p : SageProb) (r : SageResid), d.sageLatch g false = (e.solveBegun q start).sageSolved p r start) ∧
      e.sage = (d.cycleOpened.problemLatched t (d.r Reg.EPK_NOW)).sage ∧ q.cycle = d.sageCycle ∧ q.iters = 0 := by
  have hall : ¬ (!(d.cycleOpened.problemLatched t (d.r Reg.EPK_NOW)).sage.vals.all fin64) = true := by
    rw [List.all_eq_true.mpr hfin]
    exact Bool.false_ne_true
  unfold Dev.sageLatch
  dsimp only
  rw [if_neg h.guard, Dev.sageMiss_of_idle h.idle, h.no_switch, Dev.showRunning_cycleTaken, Dev.cycleTaken_b, hrun,
    if_pos rfl, Dev.cycleOpened_active, ht]
  dsimp only
  rw [if_neg Bool.false_ne_true, ← Dev.problemLatched, if_neg hall]
  split
  · exact ⟨_, _, _, .inr ⟨_, _, rfl⟩, Dev.startPoint_sage _ _ _, rfl, rfl⟩
  · exact ⟨_, _, _, .inl rfl, Dev.startPoint_sage _ _ _, rfl, rfl⟩

end Run
end Latch

/-! ### The events of a cycle -/

section LatchShows
variable {d : Dev} {g : Grade} (h : d.OpensCycle g)
include h

theorem Dev.sageLatch_stopped_shows (hs : d.Sound) (hrun : d.b Reg.SAGE_CTRL_RUN = false) (memErr : Bool) :
    (d.sageLatch g memErr).mem = d.mem ∧ (d.sageLatch g memErr).sage.lastCycle = some d.sageCycle ∧
      (d.sageLatch g memErr).sage.solve = none ∧ (d.sageLatch g memErr).r Reg.SAGE_RES_CODE = 7 ∧
      ∃ r : SageResult, (d.sageLatch g memErr).sage.result = some r ∧ r.code = 7 ∧ r.cycle = d.sageCycle ∧
        ∀ v ∈ r.x, v = f64.nanBits := by
  rw [Dev.sageLatch_stopped h hrun, Dev.sagePublish_mem, Dev.sagePublish_sage,
    Dev.sagePublish_code _ _ _ _ _ _ _ (Dev.cycleOpened_sound hs), Dev.allNan_code]
  exact ⟨rfl, rfl, rfl, rfl, _, rfl, rfl, rfl, Dev.allNan_x _ 7⟩

section Run
variable {t : SageStruct} (hrun : d.b Reg.SAGE_CTRL_RUN = true) (ht : d.sage.active = some t)
include hrun ht

theorem Dev.sageLatch_memErr_shows : ∃ r : SageResult, (d.sageLatch g true).sage.result = some r ∧ r.code = 8 ∧
    r.cycle = d.sageCycle ∧ r.nan = t.allBlocks := by
  obtain ⟨start, hlatch⟩ := Dev.sageLatch_memErr h hrun ht
  have hactive : (d.cycleOpened.problemLatched t (d.r Reg.EPK_NOW)).sage.active = some t :=
    (Dev.problemLatched_active _ t _).trans ht
  rw [hlatch, Dev.sagePublish_sage, Dev.allNan_of_active hactive]
  exact ⟨_, rfl, rfl, rfl, rfl⟩

theorem Dev.sageLatch_finite_shows (hb : t.binds = []) (hd : d.sage.deltas = [])
    (hfin : ∀ v ∈ d.sage.vals, fin64 v = true) :
    (d.sageLatch g false).sage.lastCycle = some d.sageCycle ∧
      ((∃ q : SageSolve, (d.sageLatch g false).sage.solve = some q ∧ q.cycle = d.sageCycle ∧ q.iters = 0 ∧
          (d.sageLatch g false).sage.laneReq = true) ∨
        ∃ r : SageResult, (d.sageLatch g false).sage.result = some r ∧ r.code = 0 ∧ r.cycle = d.sageCycle ∧
          r.nan = 0) := by
  have hsage : (d.cycleOpened.problemLatched t (d.r Reg.EPK_NOW)).sage =
      { d.sage with lastCycle := some d.sageCycle } := by
    rw [Dev.problemLatched_sage_of_nil (by rw [Dev.cycleOpened_sage]; exact hd) hb, Dev.cycleOpened_sage]
  obtain ⟨e, q, start, hlatch, he, hcycle, hiters⟩ := Dev.sageLatch_finite h hrun ht (by rw [hsage]; exact hfin)
  have hlast : e.sage.lastCycle = some d.sageCycle := by rw [he, hsage]
  obtain hlatch | ⟨p, r, hlatch⟩ := hlatch
  · rw [hlatch, Dev.solveBegun_sage]
    exact ⟨hlast, .inl ⟨q, rfl, hcycle, hiters, rfl⟩⟩
  · rw [hlatch, Dev.sageSolved_sage (q := q) rfl, Dev.solveBegun_sage]
    exact ⟨hlast, .inr ⟨_, rfl, rfl, hcycle, rfl⟩⟩

end Run
end LatchShows

/-- Settles O40: the latch by what opens a cycle, iterations, misses and the analysis by their laws. -/
theorem sageCyclesAndResults : Obligations.SageCyclesAndResults := by
  unfold Obligations.SageCyclesAndResults
  refine ⟨fun s e h => congrArg (onward s) (Dev.sageLatch_of_no_cycle h e),
    fun s e hfit hplaced hstill hkc hbound hfresh hidle hcommit hs => ?_,
    fun s e h => congrArg (onward s) (Dev.sageIteration_of_idle h s.grade e),
    fun s q t x y z sl dx hq ht hgrant htime hnext hinf hbig hconv hmax => ?_,
    fun s h => congrArg (onward s) (Dev.sageDeadline_of_idle h), fun s q t hq ht => ?_,
    fun s h => congrArg (onward s) (Dev.sageAnalysed_of_idle h s.grade), fun s hst hs => ?_⟩
  · have hopen : s.dev.OpensCycle s.grade := ⟨hfit, hplaced, hstill, hkc, hbound, hfresh, hidle, hcommit⟩
    refine ⟨fun hrun => ⟨_, rfl, Dev.sageLatch_stopped_shows hopen hs hrun e⟩, fun hrun t ht => ⟨?_, ?_⟩⟩
    · rintro rfl
      obtain ⟨r, hr⟩ := Dev.sageLatch_memErr_shows hopen hrun ht
      exact ⟨_, r, rfl, hr⟩
    · rintro rfl hb hd hfin
      exact ⟨_, rfl, Dev.sageLatch_finite_shows hopen hrun ht hb hd hfin⟩
  · exact ⟨_, congrArg (onward s) (Dev.sageIteration_goes_on hq ht hgrant htime hnext hinf hbig hconv hmax),
      rfl, rfl, rfl, rfl⟩
  · obtain ⟨r, hr⟩ := Dev.sageMiss_shows hq ht (s.dev.solveDeadline q.bound)
    exact ⟨_, r, congrArg (onward s) (Dev.sageDeadline_of_solve hq), hr⟩
  · refine ⟨_, congrArg (onward s) (Dev.sageAnalysed_of_staged hst s.grade), rfl, rfl, fun h0 => ⟨?_, ?_⟩,
      fun h0 => ⟨?_, ?_⟩⟩
    · exact if_pos h0
    · exact (Dev.analysisEnded_state hs _).trans (if_pos h0)
    · exact if_neg h0
    · exact (Dev.analysisEnded_state hs _).trans (if_neg h0)

end Sys2Proof.Machine
